-- ==== Sys2Proof/Word.lean ====
section
/-! DEFINITION. Word.lean: the word types the spec's registers, payloads and identifiers are made of, and finite
maps as plain association lists. -/
namespace Sys2Proof

/-- One byte of a packet, a record, a register window or memory. -/
abbrev Byte := BitVec 8

/-- One 32-bit register word of BAR0 (R7, R37). -/
abbrev Word := BitVec 32

/-- A string of bytes, the byte at offset 0 first. -/
abbrev Bytes := List Byte

/-- A finite map as plain data: key and value pairs, at most one pair for a key where `mset` built it. -/
abbrev PMap (κ α : Type) := List (κ × α)

/-- The value a map holds for a key, if it lists one. -/
def mget? {κ α : Type} [DecidableEq κ] : PMap κ α → κ → Option α
  | [], _ => none
  | e :: m, k => if e.1 = k then some e.2 else mget? m k

/-- The value a map holds for a key, or `d` where it lists none. -/
def mget {κ α : Type} [DecidableEq κ] (m : PMap κ α) (k : κ) (d : α) : α := (mget? m k).getD d

/-- The map without the key. -/
def mdel {κ α : Type} [DecidableEq κ] (m : PMap κ α) (k : κ) : PMap κ α := m.filter (fun e => e.1 ≠ k)

/-- The map with the key at a new value. -/
def mset {κ α : Type} [DecidableEq κ] (m : PMap κ α) (k : κ) (v : α) : PMap κ α := (k, v) :: mdel m k

/-- A replacement of a key's value that keeps the key's place in the list, for maps whose order is meant. -/
def mput {κ α : Type} [DecidableEq κ] : PMap κ α → κ → α → PMap κ α
  | [], k, v => [(k, v)]
  | e :: m, k, v => if e.1 = k then (k, v) :: m else e :: mput m k v

end Sys2Proof
end

