-- ==== Sys2Proof/Types.lean ====
section
/-! DEFINITION. Types.lean: the types of the commands' operands: who sends them, the register pages, command
packets (R90), reduction records (R150) and where they arrive. Later sections follow the spec's files. -/
namespace Sys2Proof

/-- R38: the agents that access register pages. -/
inductive Agent where
  | host | ccf | sec
  deriving DecidableEq, Repr

/-- R39: the 258 register pages. Quadrant pages carry their quadrant. -/
inductive PageId where
  | dir | kazsy | secp | pwr | boot | pcie | cpw | i3c | time | tio | wrt | rseq | elog | ledger | tpool
  | cart (i : Fin 2)
  | mfl
  | quad (q : Fin 4) | fpe (q : Fin 4) (i : Fin 2) | tm (q : Fin 4) | ffe (q : Fin 4) | leng (q : Fin 4)
  | line (q : Fin 4) | fec (q : Fin 4) | ciph (q : Fin 4) (i : Fin 2) | pond (q : Fin 4) | launch (q : Fin 4)
  | fport (q : Fin 4) (p : Fin 16)
  | tile (t : Fin 64) | tdec (t : Fin 64)
  deriving DecidableEq, Repr

/-- R41: the boot modes. -/
inductive Mode where
  | bare | test | recovery | service
  deriving DecidableEq, Repr

/-- R90: fabric virtual channels. -/
inductive Fvc where
  | fast | bulk | weight | mgmt
  deriving DecidableEq, Repr

/-- R68: a source: an IP source address with a source identifier, or a submission queue of the window. An IPv4
address stands as ::FFFF:a.b.c.d (R103). -/
inductive Origin where
  | fabric (ip : BitVec 128) (id : BitVec 16)
  | win (q : Fin 4)
  deriving DecidableEq, Repr

/-- How a frame came in on a fabric port (R86, R89, R380): the device port; whether it is an Ethernet II frame, and its IEEE 802.1Q
tags; the IP source address, whether the IP header has extension headers or options, the MF flag and the fragment offset; whether
UDP follows, the UDP source and destination ports and the UDP length field; and whether the source address is that of a gateway of
the same site (R149), of which the spec gives the gateway no table (entry 13). -/
structure Dgram where
  port : Fin 64
  ether2 : Bool
  tags : Nat
  ip : BitVec 128
  ext : Bool
  mf : Bool
  frag : BitVec 13
  udp : Bool
  udpPort : BitVec 16
  dstPort : BitVec 16
  udpLen : Nat
  peer : Bool
  deriving DecidableEq, Repr

/-- Whether the frame carries an IEEE 802.1Q tag (R377). -/
def Dgram.tagged (d : Dgram) : Bool := d.tags != 0

/-- R86, R149, R250: whether a frame is a datagram for a UDP port: Ethernet II with at most one tag, IP without extension headers,
options or fragments, and UDP to that port. -/
def Dgram.conforms (d : Dgram) (port : Nat) : Bool :=
  d.ether2 && d.tags ≤ 1 && !d.ext && !d.mf && d.frag == 0 && d.udp && d.dstPort.toNat == port

/-- Where a command packet comes from. -/
inductive Via where
  | fabric (d : Dgram)
  | window (q : Fin 4)
  deriving DecidableEq, Repr

/-- R90: the 64-byte command packet header, field by field in the order of the bytes. -/
structure Header where
  version : BitVec 8
  opcode : BitVec 8
  flags : BitVec 8
  vc : BitVec 8
  sourceId : BitVec 16
  stream : BitVec 8
  elemType : BitVec 8
  ciid : BitVec 64
  member : BitVec 16
  payloadLen : BitVec 16
  chunkIndex : BitVec 32
  chunkCount : BitVec 32
  cell : BitVec 16
  redOp : BitVec 8
  aux : BitVec 8
  arg1 : BitVec 64
  reqTag : BitVec 32
  credit : BitVec 32
  status : BitVec 16
  rsvd : BitVec 16
  arg0 : BitVec 32
  check : BitVec 64
  deriving DecidableEq, Repr

/-- A command packet: header and payload. -/
structure Packet where
  hdr : Header
  payload : Bytes
  deriving DecidableEq, Repr

/-- R150: the 64-byte header of a reduction record. -/
structure RecHdr where
  rver : BitVec 8
  kind : BitVec 8
  level : BitVec 8
  flags : BitVec 8
  srcGw : BitVec 16
  dstGw : BitVec 16
  ciid : BitVec 64
  digest : BitVec 64
  shard : BitVec 16
  elemType : BitVec 8
  subject : BitVec 8
  chunkIndex : BitVec 32
  chunkCount : BitVec 32
  payloadLen : BitVec 16
  rsvd1 : BitVec 16
  hopGw : BitVec 16
  rsvd2 : BitVec 48
  valueCheck : BitVec 64
  check : BitVec 64
  deriving DecidableEq, Repr

/-- A reduction record: header and payload. -/
structure Record where
  hdr : RecHdr
  payload : Bytes
  deriving DecidableEq, Repr

/-- Where a record, state record or control message comes in: a datagram of the site fabric, or a line link (the line
group), whose unit stands among the delivered units of the link; `own` is a message the master owes itself (R426). -/
inductive RecVia where
  | site (d : Dgram)
  | link (g : Fin 4) (l : Fin 4)
  | own
  deriving DecidableEq, Repr

/-- R250: the 64-byte header of a state record. -/
structure StHdr where
  sver : BitVec 8
  kind : BitVec 8
  qty : BitVec 8
  flags : BitVec 8
  srcGw : BitVec 16
  dstGw : BitVec 16
  job : BitVec 16
  elemType : BitVec 8
  rsvd1 : BitVec 8
  epoch : BitVec 32
  matrix : BitVec 32
  chunkIndex : BitVec 32
  chunkCount : BitVec 32
  payloadLen : BitVec 16
  status : BitVec 16
  tag : BitVec 32
  rsvd2 : BitVec 96
  valueCheck : BitVec 64
  check : BitVec 64
  deriving DecidableEq, Repr

/-- A state record: header and payload. -/
structure StRec where
  hdr : StHdr
  payload : Bytes
  deriving DecidableEq, Repr

/-- R295: a control message, its reserved bytes kept as one number each. -/
structure Ctl where
  cver : BitVec 8
  ctype : BitVec 8
  state : BitVec 8
  rsvd1 : BitVec 8
  srcGw : BitVec 16
  rsvd2 : BitVec 16
  ciid : BitVec 64
  epoch : BitVec 32
  rsvd3 : BitVec 32
  sf : BitVec 64
  digest : BitVec 64
  rsvd4 : BitVec 32
  check : BitVec 32
  deriving DecidableEq, Repr

/-- R424: a recovery message. -/
structure Rcv where
  mkind : BitVec 8
  mver : BitVec 8
  srcGw : BitVec 16
  dstGw : BitVec 16
  ttl : BitVec 8
  level : BitVec 8
  serial : BitVec 32
  code : BitVec 32
  ciid : BitVec 64
  subjectGw : BitVec 16
  arg : BitVec 8
  rsvd1 : BitVec 8
  sf : BitVec 64
  value : BitVec 64
  matrix : BitVec 32
  rsvd2 : BitVec 96
  check : BitVec 32
  deriving DecidableEq, Repr

/-- R99: whom a result chunk is owed to: a rank of an instance in a cell, or the pull with a number. -/
inductive OwedTo where
  | cell (cell : Fin 16384) (rank : BitVec 16)
  | pull (seq : Nat)
  deriving DecidableEq, Repr

/-- R353, R346: a ring with a lock loop: that of a line slot on one of the four buses, or the modulator of a fabric port's
transmit lane. -/
inductive RingId where
  | line (g : Fin 4) (k : Fin 18) (b : Fin 4)
  | fabric (port : Fin 64) (lane : Fin 4)
  deriving DecidableEq, Repr

/-- R407: a PTP message as the protocol engine reads it: versions, domain, sequence number, whether a Sync is one of two
steps, the time it carries with its corrections applied, in ns, and the data set of an Announce, in the order of its
comparison. -/
structure PtpMsg where
  version : Nat
  minor : Nat
  domain : Nat
  seq : Nat
  twoStep : Bool
  ns : Nat
  dataset : Bytes
  deriving DecidableEq, Repr

/-- R354: what a sweep of the heaters records: on a bus, a ring meets a slot at a shift in GHz. -/
structure Peak where
  bus : Fin 4
  ring : Fin 20
  slot : Fin 18
  shift : Nat
  deriving DecidableEq, Repr

/-- R65, R167, R171, R240: a bit upset in storage: of a byte of memory, of a byte of a retained result chunk (cell, shard, chunk), or of
an accumulator element of a cell. -/
inductive Upset where
  | acc (cell elem : Nat) (mask : Word)
  | mem (addr : Nat) (mask : Byte)
  | final (cell shard chunk i : Nat) (mask : Byte)
  deriving DecidableEq, Repr

/-- R37: the extent of a register access: its bytes, and whether all their byte enables are set. -/
structure Extent where
  len : Nat
  full : Bool
  deriving DecidableEq, Repr

/-- R57, R59: a dynamic address assigned to the I3C target, and whether the board controller enables in-band interrupts with it. -/
structure I3cAssign where
  addr : BitVec 7
  ibi : Bool
  deriving DecidableEq, Repr

/-- R58: a register index that the board controller writes, and the words that it reads from there before the next index or write. -/
structure I3cIndex where
  idx : BitVec 16
  words : Nat
  deriving DecidableEq, Repr

/-- R293, R287: where a FILL frame arrives: the line group and wavelength slot, and the slots of 125 ns, by superframe, that it lies
over. -/
structure Arrival where
  g : Fin 4
  k : Fin 18
  span : List (Nat × Fin 64)
  deriving DecidableEq, Repr

/-- What the gateway measures in a superframe: temperatures in 1/16 °C (by tile; hottest of each quadrant; die, pond, line engine),
input voltage in mV and current in mA, core power, tensor power, tensor demand, the average over 1 s and the rise within the
preceding ms in 0.1 W, the cartridge feeds in 0.1 W (fabric, line), laser powers in 0.01 dBm, received power and OSNR by slot, the
alarm sources that are active (R340), and bit upsets. -/
structure Env where
  tiles : List (Fin 64 × Int)
  quads : List (Fin 4 × Int)
  die : Int
  pond : Int
  line : Int
  vIn : Nat
  iIn : Nat
  module : Nat
  tensor : Nat
  demand : Nat
  avg1s : Nat
  rise : Nat
  feeds : List (Fin 2 × Nat)
  lasers : List (Fin 2 × Nat × Int)
  rx : List ((Fin 4 × Fin 18) × Word)
  alarms : BitVec 4
  upsets : List Upset
  deriving DecidableEq, Repr

end Sys2Proof
end

