-- ==== Sys2Proof/Syntax.lean ====
section
/-! DEFINITION. Syntax.lean: the commands of the block, one constructor per row of spec/opcode_table.json, in the
table's order. A row gives the command; the operands are what the command's rules read. -/
namespace Sys2Proof

/-- The commands and events the gateway takes, one per row of the table. -/
inductive Instr where
  /-- REGISTER_WRITE (R48): A write to a register that has no row of its own is checked for permission, range and change class and then applied field by field or refused. -/
  | registerWrite (ag : Agent) (off : BitVec 26) (v : Word)
  /-- BLK_ENABLE (R44): A write of BLK_CTRL.ENABLE moves the block between OFF and IDLE, or is refused with CFG_BUSY while the block is busy. -/
  | blkEnable (ag : Agent) (pg : PageId) (v : Bool)
  /-- BLK_QUIESCE (R44): A write of BLK_CTRL.QUIESCE stops the block taking new work, and a BUSY block moves to QUIESCING. -/
  | blkQuiesce (ag : Agent) (pg : PageId) (v : Bool)
  /-- ERR_CLR (R43): A write of BLK_CTRL.ERR_CLR clears the page's error record and re-arms first-error capture. -/
  | errClr (ag : Agent) (pg : PageId)
  /-- CFG_ABORT (R47): A write of BLK_CTRL.CFG_ABORT discards every pending E-class value of the page. -/
  | cfgAbort (ag : Agent) (pg : PageId)
  /-- ERR_FIRST_REARM (R43): A 1 written to ERR_STATUS.FIRST_VALID clears the captured first error and re-arms capture, leaving ERR_COUNT. -/
  | errFirstRearm (ag : Agent) (pg : PageId)
  /-- UNMAPPED_ACCESS (R36): An access to a reserved range or an empty page slot reads 0 or is ignored, and is recorded on the PCIE page. -/
  | unmappedAccess (ag : Agent) (off : BitVec 26) (write : Bool)
  /-- ACCESS_SIZE (R37): A register access that is not one aligned 4-byte word is refused with Unsupported Request or dropped, and ACCESS_SIZE is raised. -/
  | accessSize (off : BitVec 26) (size : Extent) (write : Bool)
  /-- WINDOW_SLOT_WRITE (R52): Host software writes bytes into a submission slot of the command-packet window; writes to a disabled queue are ignored. -/
  | windowSlotWrite (off : BitVec 25) (data : Bytes)
  /-- SQ_TAIL_WRITE (R53): A write of SQq_TAIL rings the doorbell of a submission queue, or is refused if it would lower occupancy or is out of range. -/
  | sqTailWrite (ag : Agent) (q : Fin 4) (v : Word)
  /-- SQ_SLOT_TAKE (R53): The gateway takes the next filled slot of a submission queue in ring order, copies it into a tray and advances HEAD. -/
  | sqSlotTake (q : Fin 4)
  /-- CQ_HEAD_WRITE (R54): Host software advances CQ_HEAD, freeing completion ring slots so that held completions can be written. -/
  | cqHeadWrite (ag : Agent) (v : Word)
  /-- CQ_STALL (R54): The completion ring has stayed full for CQ_STALL_LIMIT, and CQ_STALL is raised once while completions stay held. -/
  | cqStall
  /-- CQ_INT_DELAY_EXPIRY (R52): The batching delay for completion interrupts expires and MSI-X vector 1 is sent. -/
  | cqIntDelayExpiry
  /-- ENTDAA (R57): The board controller assigns the I3C target a dynamic address with ENTDAA. -/
  | entdaa (asg : I3cAssign)
  /-- SETDASA (R57): The board controller assigns the I3C target a dynamic address from its static address with SETDASA. -/
  | setdasa (asg : I3cAssign)
  /-- I3C_INDEX_WRITE (R58): The board controller writes the 2-byte register index that later word reads and writes start from. -/
  | i3cIndexWrite (ix : I3cIndex)
  /-- PWR_CAP_WRITE (R59): The board controller writes PWR_CAP; an in-range value takes effect at once, an out-of-range one is refused. -/
  | pwrCapWrite (v : Word)
  /-- I3C_REGISTER_WRITE (R59): The board controller writes a register other than PWR_CAP or I3C_STATUS, and the write is refused with I3C_REFUSED. -/
  | i3cRegisterWrite (v : Word)
  /-- I3C_STATUS_WRITE (R59): The board controller clears I3C_STATUS.REFUSED by writing 1. -/
  | i3cStatusWrite (v : Word)
  /-- FABRIC_FRAME_DROP (R86): A fabric frame that is not a conforming command-packet encapsulation is dropped without reply and counted. -/
  | fabricFrameDrop (d : Dgram)
  /-- UNDEFINED_OPCODE (R91): A command packet whose opcode is undefined or gateway-only is refused with BAD_OPCODE. -/
  | undefinedOpcode (via : Via) (p : Packet)
  /-- CONTRIB (R95): A contribution chunk is checked against the instance's descriptor and accumulated into its rendezvous cell, or held or refused. -/
  | contrib (via : Via) (p : Packet)
  /-- FENCE_ACCEPT (R69): A FENCE of scope ACCEPT holds later packets of its source and stream until earlier ones are taken. -/
  | fenceAccept (via : Via) (p : Packet)
  /-- FENCE_COMPLETE (R69): A FENCE of scope COMPLETE holds later packets until earlier ones have had their completions sent. -/
  | fenceComplete (via : Via) (p : Packet)
  /-- FENCE_STEP (R69): A FENCE of scope STEP holds later packets until the named job step is committed or rolled back. -/
  | fenceStep (via : Via) (p : Packet)
  /-- FENCE_DONE (R71): Every packet a FENCE waited for has reached its point, so the FENCE completes and later packets are taken. -/
  | fenceDone (org : Origin) (stream : BitVec 8)
  /-- ACK (R98): A consumer acknowledges a range of result or pull chunks, which may complete harvest. -/
  | ack (via : Via) (p : Packet)
  /-- RESEND (R98): A consumer asks for named result chunks again, and the gateway sends them from the retained copy after checking VALUE_CHECK. -/
  | resend (via : Via) (p : Packet)
  /-- READ_EPOCH (R101): A node asks for the current and oldest readable epochs and the switch superframe of the current one. -/
  | readEpoch (via : Via) (p : Packet)
  /-- WEIGHT_PULL (R100): A node asks for a range of chunks of a matrix from a named epoch, served from the bank, an image or by FETCH. -/
  | weightPull (via : Via) (p : Packet)
  /-- TABLE_LOAD (R271): A decode table is checked and a free slot chosen in every tile of the mask, where it begins to build. -/
  | tableLoad (via : Via) (p : Packet)
  /-- STATE_WRITE_TABLE (R238): Chunks of the job table are collected, checked and their pond areas reserved. -/
  | stateWriteTable (via : Via) (p : Packet)
  /-- STATE_WRITE_WEIGHTS (R240): Chunks of a matrix's weights of the current epoch are written at the home and then replicated to the partner. -/
  | stateWriteWeights (via : Via) (p : Packet)
  /-- STATE_WRITE_MOMENTUM (R240): Chunks of a matrix's momentum are written at the home and then replicated to the partner. -/
  | stateWriteMomentum (via : Via) (p : Packet)
  /-- STATE_WRITE_WEIGHT_BLOCKS (R262): Chunks of a compressed block image are collected, checked, staged, expanded and compared with the bank. -/
  | stateWriteWeightBlocks (via : Via) (p : Packet)
  /-- STATE_READ_WEIGHTS (R240): Chunks of a matrix's weights of the current or previous epoch are read back from the home. -/
  | stateReadWeights (via : Via) (p : Packet)
  /-- STATE_READ_MOMENTUM (R240): Chunks of a matrix's momentum of the current epoch are read back from the home. -/
  | stateReadMomentum (via : Via) (p : Packet)
  /-- STATE_READ_WEIGHT_BLOCKS (R264): A block image's byte string is read back as written, or refused with NO_BLOCK_IMAGE. -/
  | stateReadWeightBlocks (via : Via) (p : Packet)
  /-- NET_CFG (R102): The MGMT function sets or reports the gateway's number, addresses and command port. -/
  | netCfg (via : Via) (p : Packet)
  /-- SRC_RULE (R103): The MGMT function replaces the source admission rules and re-matches attached sources. -/
  | srcRule (via : Via) (p : Packet)
  /-- SET_EPOCH (R102): The MGMT function sets the epoch number of a job's loaded weights. -/
  | setEpoch (via : Via) (p : Packet)
  /-- PAGE_READ (R102): The MGMT function reads registers of one page with CCF's rights and returns their values. -/
  | pageRead (via : Via) (p : Packet)
  /-- PAGE_WRITE (R102): The MGMT function applies a list of register writes in order with CCF's rights. -/
  | pageWrite (via : Via) (p : Packet)
  /-- MGMT_UNDEFINED_FUNCTION (R102): A MGMT packet naming an undefined function code is refused with BAD_FIELD. -/
  | mgmtUndefinedFunction (via : Via) (p : Packet)
  /-- PLAN_LOAD (R207): A plan image is loaded into a slot and checked in full, or refused with PLAN_REFUSED. -/
  | planLoad (via : Via) (p : Packet)
  /-- PLAN_START (R208): A LOADED plan slot is started in START mode and becomes ACTIVE or NEXT. -/
  | planStart (via : Via) (p : Packet)
  /-- PLAN_REPLACE (R208): A LOADED plan replaces a HELD plan and resumes at its oldest uncommitted step. -/
  | planReplace (via : Via) (p : Packet)
  /-- PLAN_STOP (R207): An ACTIVE slot is stopped at the next step boundary and becomes HELD, or an unbegun NEXT slot returns to LOADED. -/
  | planStop (via : Via) (p : Packet)
  /-- PLAN_DROP (R207): A LOADED or DONE plan slot is emptied. -/
  | planDrop (via : Via) (p : Packet)
  /-- PLAN_STATUS (R207): The gateway returns slot states and the gateway records of the last 64 steps. -/
  | planStatus (via : Via) (p : Packet)
  /-- TILE_RELEASE (R207): In TEST mode a QUARANTINED tile is returned to OFF and its charges cleared. -/
  | tileRelease (via : Via) (p : Packet)
  /-- ATTACH (R103): A fabric source is matched against the admission rules and entered in the source table. -/
  | attach (via : Via) (p : Packet)
  /-- ATTACH_RESET (R103): An already attached source's held packets have all been taken, so its credit counters are reset to 0. -/
  | attachReset (ip : BitVec 128) (id : BitVec 16)
  /-- DETACH (R103): A source asks to be removed, or is refused with SOURCE_IN_USE while bound to an unharvested instance. -/
  | detach (via : Via) (p : Packet)
  /-- SOURCE_DETACH (R103): A detaching source's held packets have all been taken, so it is removed from the source table. -/
  | sourceDetach (ip : BitVec 128) (id : BitVec 16)
  /-- UNADMITTED_SOURCE_DETACH (R103): A source no longer admitted by the rules holds no packet and no binding, so the gateway detaches it. -/
  | unadmittedSourceDetach (ip : BitVec 128) (id : BitVec 16)
  /-- NOP (R109): A NOP is answered with a CREDIT packet on its VC. -/
  | nop (via : Via) (p : Packet)
  /-- CREDIT_REPORT (R106): Released credits have stayed unreported for 2 µs or reach half the grant, and a CREDIT packet is sent. -/
  | creditReport (ip : BitVec 128) (id : BitVec 16) (vc : Fvc)
  /-- CREDIT_GAP_WRITE_OFF (R108): A credit gap's 16 µs timer expires and its credits are written off into CREDIT_RETURN. -/
  | creditGapWriteOff (ip : BitVec 128) (id : BitVec 16) (vc : Fvc)
  /-- RESULT_DELIVERY (R97): A COMPLETE cell delivers each owed result chunk as a RESULT and then one COMPLETE to each consumer. -/
  | resultDelivery (cell : Fin 16384) (ns : Nat)
  /-- RESULT_RESEND_TIMER (R99): A result chunk stays unacknowledged for 200 µs and is sent again, up to 8 sendings. -/
  | resultResendTimer (owed : OwedTo) (chunk : Nat)
  /-- CELL_WAIT_TIMEOUT (R132): A cell's wait limit expires before it has taken every input, and the cell enters TIMEOUT and notifies the master. -/
  | cellWaitTimeout (cell : Fin 16384)
  /-- CELL_FREE_AFTER_HARVEST (R126): 64 superframes after harvest a HARVESTED cell becomes FREE. -/
  | cellFreeAfterHarvest (cell : Fin 16384)
  /-- FAIL_NOTICE_RX (R130): The master receives a failure notice for an instance and opens a decision window on the first one. -/
  | failNoticeRx (via : RecVia) (m : Ctl)
  /-- DECISION_WINDOW_EXPIRY (R130): The master's 2 × D + 4 superframe window ends and it decides and sends the instance's failure state. -/
  | decisionWindowExpiry (ciid : BitVec 64)
  /-- DECISION_RX (R131): A gateway receives the master's decision, sets the cell's state and sends each member one failure COMPLETE. -/
  | decisionRx (via : RecVia) (m : Ctl)
  /-- FFE_CELL_SEL_WRITE (R138): A write of FFE_CELL_SEL latches a snapshot of the selected fast cell. -/
  | ffeCellSelWrite (ag : Agent) (q : Fin 4) (v : Word)
  /-- FFE_LAT_MAX_CLR (R138): A write of FFE_LAT_MAX.CLR clears the recorded longest fast-path interval. -/
  | ffeLatMaxClr (ag : Agent) (q : Fin 4)
  /-- PARTIAL_RX (R152): A PARTIAL record is checked and its chunk added into the cell's accumulator and acknowledged. -/
  | partialRx (via : RecVia) (r : Record)
  /-- FINAL_RX (R160): A FINAL record is checked, written to retention, relayed where owed and acknowledged. -/
  | finalRx (via : RecVia) (r : Record)
  /-- MARK_RX (R160): A MARK record is recorded, relayed and acknowledged. -/
  | markRx (via : RecVia) (r : Record)
  /-- RACK_RX (R153): A RACK releases the sender's retained copies of the named record chunks. -/
  | rackRx (via : RecVia) (r : Record)
  /-- RRESEND_RX (R153): An RRESEND makes the sender resend the named chunks from its copy after re-checking VALUE_CHECK. -/
  | rresendRx (via : RecVia) (r : Record)
  /-- RACK_GATHER_EXPIRY (R153): The 2 µs RACK gathering interval ends and one RACK covering the gathered range is sent. -/
  | rackGatherExpiry (cell : Fin 16384)
  /-- RECORD_RESEND_TIMER (R154): A record chunk has had no RACK within its timeout and is sent again, up to 8 sendings. -/
  | recordResendTimer (cell : Fin 16384) (dest : Nat)
  /-- HARVEST_RECHECK_DONE (R168): The re-check at harvest ends and the cell becomes HARVESTED, or TAINTED on a mismatch. -/
  | harvestRecheckDone (cell : Fin 16384)
  /-- XCHK_COMPARE (R171): A shadow tile finishes recomputing a sampled chunk and compares it bit for bit with the primary. -/
  | xchkCompare (id : Nat) (err : List (Nat × Byte))
  /-- REFEREE_VERDICT (R431): A referee tile finishes its third computation and decides which tile is charged. -/
  | refereeVerdict (id : Nat) (err : List (Nat × Byte))
  /-- STEP_END (R215): The plan word ends the tile's step and writes the tile record. -/
  | stepEnd (t : Fin 64)
  /-- SYNC (R212): The plan word waits until every earlier engine word of the tile has completed. -/
  | sync (t : Fin 64)
  /-- WAIT_LT (R213): The plan word issues once line time reaches its instant. -/
  | waitLt (t : Fin 64) (ns : Fin 8000)
  /-- WAIT_CELL (R213): The plan word issues once a cell reaches its condition, or marks the step FAILED if the cell fails. -/
  | waitCell (t : Fin 64)
  /-- SIGNAL (R213): The plan word raises an event counter of a target tile. -/
  | signal (t : Fin 64)
  /-- WAIT_EVT (R213): The plan word issues once the tile's event counter reaches its value. -/
  | waitEvt (t : Fin 64)
  /-- RAMP (R229): The plan word declares a change of the tensor activity ceiling to the power manager and ring heaters. -/
  | ramp (t : Fin 64)
  /-- DMA (R202): The plan word copies bytes between two addresses. -/
  | dma (t : Fin 64)
  /-- LAUNCH (R214): The plan word hands a cell's records of one shard and level to a launcher or timed queue for a set instant. -/
  | launch (t : Fin 64) (ns : Fin 8000)
  /-- MMA (R220): The plan word runs a matrix product on the tensor unit. -/
  | mma (t : Fin 64)
  /-- CRYS_ADD (R210): The crystalliser adds decoded source elements into the destination. -/
  | crysAdd (t : Fin 64)
  /-- CRYS_LOAD (R210): The crystalliser writes decoded source elements to the destination. -/
  | crysLoad (t : Fin 64)
  /-- CRYS_MAX (R210): The crystalliser keeps the larger of destination and decoded source elements. -/
  | crysMax (t : Fin 64)
  /-- CRYS_MIN (R210): The crystalliser keeps the smaller of destination and decoded source elements. -/
  | crysMin (t : Fin 64)
  /-- CRYS_AXPBY (R210): The crystalliser computes A × dst + B × decode(src). -/
  | crysAxpby (t : Fin 64)
  /-- CRYS_ENCODE (R210): The crystalliser encodes FP32 source elements into the destination type. -/
  | crysEncode (t : Fin 64)
  /-- CRYS_SCALE (R210): The crystalliser computes A × src. -/
  | crysScale (t : Fin 64)
  /-- KERNEL_BASIS (R225): The kernel forms the identical starting projection basis from the generator. -/
  | kernelBasis (t : Fin 64)
  /-- KERNEL_ORTHO (R226): The kernel orthonormalises columns by Cholesky QR applied twice. -/
  | kernelOrtho (t : Fin 64)
  /-- KERNEL_EXPAND (R227): The kernel expands the factor pair into a full matrix in fixed order. -/
  | kernelExpand (t : Fin 64)
  /-- KERNEL_NS5 (R228): The kernel orthogonalises a matrix with five Newton–Schulz steps. -/
  | kernelNs5 (t : Fin 64)
  /-- ENGINE_WORD_DONE (R212): An engine completes a plan word, freeing queue room and satisfying waiting SYNCs. -/
  | engineWordDone (t : Fin 64) (e : Nat)
  /-- TILE_STEP_BEGIN (R215): A tile begins its next step attempt once the previous ended and it is not quiesced or held. -/
  | tileStepBegin (t : Fin 64)
  /-- PLAN_BUFFER_COPY_DONE (R215): The plan loader has copied the next step's stream into the idle half of the plan buffer. -/
  | planBufferCopyDone (t : Fin 64)
  /-- STEP_RECORD_CLOSE (R218): Every tile has ended the step and every cell is COMPLETE or failed, so the gateway record closes. -/
  | stepRecordClose (step : BitVec 24)
  /-- RAMP_START (R229): At issue plus LEAD a declared ramp begins moving the ceiling toward TARGET. -/
  | rampStart
  /-- PWR_CAP_UNMET (R231): Module power has stayed above PWR_CAP after throttling for another second. -/
  | pwrCapUnmet
  /-- TILE_CELL_SEL_WRITE (R235): A write of TILE.CELL_SEL latches a snapshot of the selected tile cell. -/
  | tileCellSelWrite (ag : Agent) (t : Fin 64) (v : Word)
  /-- EXC_CLEAR (R198): A write of EXC_STATUS.CLR clears the sticky arithmetic flags and capture. -/
  | excClear (ag : Agent) (t : Fin 64)
  /-- REPL_RX (R251): The partner writes a replicated chunk, verifies it and returns SACK. -/
  | replRx (via : RecVia) (r : StRec)
  /-- SACK_RX (R251): The home receives a SACK and releases its send copies, possibly releasing waiting momentum writes. -/
  | sackRx (via : RecVia) (r : StRec)
  /-- SRESEND_RX (R251): A sender receives SRESEND and sends the named chunks again. -/
  | sresendRx (via : RecVia) (r : StRec)
  /-- FETCH_RX (R255): A home or partner receives a FETCH and answers with WDATA chunks and FETCH_END. -/
  | fetchRx (via : RecVia) (r : StRec)
  /-- WDATA_RX (R255): A serving gateway receives a WDATA chunk and relays it to the node as a RESULT. -/
  | wdataRx (via : RecVia) (r : StRec)
  /-- FETCH_END_RX (R279): A serving gateway receives FETCH_END and completes the pull or poisons chunks from f onward. -/
  | fetchEndRx (via : RecVia) (r : StRec)
  /-- STATE_RECORD_TIMER (R251): A REPL or FETCH chunk has gone unanswered for its timeout and is sent or asked for again. -/
  | stateRecordTimer (ix : Nat)
  /-- READY_RX (R253): The master receives a READY and, with every READY and commit condition met, launches the publish notice. -/
  | readyRx (via : RecVia) (m : Ctl)
  /-- PUBLISH_RX (R76): A gateway receives a publish notice, completes STEP fences and schedules the epoch switch. -/
  | publishRx (via : RecVia) (m : Ctl)
  /-- EPOCH_SWITCH (R253): At SF P the new epoch becomes current at the gateway. -/
  | epochSwitch (job : BitVec 16)
  /-- HARVEST_RX (R79): The master receives a harvest report and announces commit once every condition of the step holds. -/
  | harvestRx (via : RecVia) (m : Ctl)
  /-- COMMIT_RX (R79): A gateway receives the commit of a step and completes its STEP fences. -/
  | commitRx (via : RecVia) (m : Ctl)
  /-- TABLE_MISMATCH_RX (R239): A gateway receives OUTER_TABLE_MISMATCH and the outer step fails. -/
  | tableMismatchRx (via : RecVia) (m : Ctl)
  /-- TABLE_BUILD_DONE (R271): The table build ends and the slot becomes RESIDENT in every tile of the mask, retiring RETIRE_GEN. -/
  | tableBuildDone
  /-- TDEC_RETIRE (R280): A write of TDEC_RETIRE.GO makes a RESIDENT table slot RETIRING. -/
  | tdecRetire (ag : Agent) (t : Fin 64) (slot : Fin 8)
  /-- BLOCK_DECODE_END (R274): A tile's decoder finishes expanding a block, succeeding or failing, and releases its reference. -/
  | blockDecodeEnd (t : Fin 64)
  /-- SUPERFRAME_BOUNDARY (R46): A superframe begins: headers launch, pending E-class values apply and per-superframe checks run. -/
  | superframeBoundary (e : Env)
  /-- SF_HEADER_RX (R289): A superframe header arrives on a slot and drives alignment, lane state, commands, time transfer and election. -/
  | sfHeaderRx (g : Fin 4) (k : Fin 18) (hdr : Bytes) (rx cd : Int) (skew : Nat)
  /-- FEC_SLOT_DECODE (R292): The receiver decodes a slot's inner and outer codewords and discards frames touching a failed slot. -/
  | fecSlotDecode (g : Fin 4) (k : Fin 18) (slot : Nat × Fin 64) (xI xQ yI yQ : List Int)
  /-- DATA_FRAME_RX (R296): A DATA frame is checked, held for its tag and delivered to its layers by unit. -/
  | dataFrameRx (g : Fin 4) (k : Fin 18) (bytes : Bytes) (span : List (Nat × Fin 64))
  /-- ACK_FRAME_RX (R303): An ARQ ACK frame releases retained frames, updates credits and triggers gap retransmissions. -/
  | ackFrameRx (g : Fin 4) (k : Fin 18) (bytes : Bytes) (span : List (Nat × Fin 64))
  /-- FILL_FRAME_RX (R293): A FILL frame is received and discarded. -/
  | fillFrameRx (arr : Arrival) (hdr : Bytes)
  /-- FRAME_LAUNCH (R297): The link encrypts and launches a new DATA frame on the lane whose buffer empties first, when credits and retention allow. -/
  | frameLaunch (g : Fin 4) (l : Fin 4)
  /-- ACK_IDLE_TIMER (R302): ACK_IDLE superframes pass on an UP link and an ARQ ACK is sent. -/
  | ackIdleTimer (g l : Fin 4)
  /-- ARQ_RTO_EXPIRY (R303): An unacknowledged frame's retransmission timer expires and it is retransmitted in VC5. -/
  | arqRtoExpiry (g l : Fin 4) (vc : Nat) (seq : BitVec 32)
  /-- LINK_LOST (R311): A link has had no valid header for 2 × D_link + 64 superframes or exhausted MAX_RETX, and enters LOST. -/
  | linkLost (g l : Fin 4)
  /-- LINK_CFG_WRITE (R311): A write of LINK_CFG sets a link's peer and lanes and enables it or takes it DOWN at the next superframe. -/
  | linkCfgWrite (ag : Agent) (g : Fin 4) (v : Word)
  /-- LINK_RESET (R311): A write of LINK_RESET.GO discards a DOWN or LOST link's retention and resets its sequence and credit counts. -/
  | linkReset (ag : Agent) (g l : Fin 4)
  /-- LANE_SEL_WRITE (R315): A write of LINE.LANE_SEL latches a snapshot of the selected slot. -/
  | laneSelWrite (ag : Agent) (g : Fin 4) (v : Word)
  /-- TAG_FINALISE (R337): A tag finaliser completes a frame's GCM tag and releases or discards the held plaintext. -/
  | tagFinalise (g : Fin 4) (l : Nat)
  /-- HELLO_RX (R334): The responder checks a HELLO, encapsulates, derives keys and signs an ACCEPT. -/
  | helloRx (g l : Fin 4) (b : Bytes)
  /-- ACCEPT_RX (R334): The initiator checks an ACCEPT, derives keys and sends CONFIRM with the switch superframe. -/
  | acceptRx (g l : Fin 4) (b : Bytes)
  /-- CONFIRM_RX (R334): The responder checks CONFIRM and sends DONE. -/
  | confirmRx (g l : Fin 4) (b : Bytes)
  /-- DONE_RX (R334): The initiator checks DONE, or sends ABORT and starts a new handshake. -/
  | doneRx (g l : Fin 4) (b : Bytes)
  /-- ABORT_RX (R336): An ABORT ends a handshake and discards its session keys. -/
  | abortRx (g l : Fin 4) (b : Bytes)
  /-- HANDSHAKE_SIGN_DONE (R336): A signing engine finishes an SLH-DSA signature and the key message is launched. -/
  | handshakeSignDone (g l : Fin 4)
  /-- KEY_SWITCH (R334): At SF SW a transmitter switches to the new key and its counters restart. -/
  | keySwitch (g l : Fin 4)
  /-- KEY_DRAIN_END (R335): A new-key frame has verified on every UP lane and the drain interval passed, so the old key is erased. -/
  | keyDrainEnd (g l : Fin 4)
  /-- KEY_AGE_EXPIRY (R335): KEY_AGE reaches 2^SF_LOG2 superframes and a handshake starts. -/
  | keyAgeExpiry (g l : Fin 4)
  /-- HANDSHAKE_TIMEOUT (R336): The next key message has not arrived within 4,096 superframes and the handshake is aborted. -/
  | handshakeTimeout (g l : Fin 4)
  /-- HANDSHAKE_RETRY (R336): 1,024 superframes after a failed handshake the initiator tries again. -/
  | handshakeRetry (g l : Fin 4)
  /-- LINE_ALARM (R341): A shield, light, glitch or duplicate-round alarm erases every line key within 2 µs. -/
  | lineAlarm (src : Fin 4) (q : Fin 4) (dir : Fin 2) (engine : Fin 768)
  /-- ALARM_ERASE_END (R342): No alarm source has been active for 1,024 superframes and links start bootstrap handshakes. -/
  | alarmEraseEnd
  /-- CIPHER_CLUSTER_OUT (R327): Engine clusters leave service and the group is paced if capacity falls short. -/
  | cipherClusterOut (g : Fin 4) (d : Fin 2) (n : Fin 49)
  /-- CIPH_LINK_SEL_WRITE (R343): A write of CIPH.LINK_SEL latches a snapshot of the selected link's key state. -/
  | ciphLinkSelWrite (ag : Agent) (q : Fin 4) (ix : Fin 2) (v : Word)
  /-- CIPH_LANE_SEL_WRITE (R343): A write of CIPH.LANE_SEL latches the selected slot's frame counter. -/
  | ciphLaneSelWrite (ag : Agent) (q : Fin 4) (ix : Fin 2) (v : Word)
  /-- CART_INSERT (R349): Cartridge presence is detected and the bay applies power. -/
  | cartInsert (ix : Fin 2)
  /-- CART_AUTH_RESPONSE (R349): The cartridge answers authentication and the bay becomes READY or REFUSED. -/
  | cartAuthResponse (ix : Fin 2) (chain sig : Bytes)
  /-- CART_AUTH_TIMEOUT (R349): The cartridge has not signed within 1.5 s and the bay enters REFUSED. -/
  | cartAuthTimeout (ix : Fin 2)
  /-- CART_LOST (R350): Presence of a READY cartridge is lost, power is removed and lanes or ports go down. -/
  | cartLost (ix : Fin 2)
  /-- CART_RELEASE (R349): A write of CART_CTRL.RELEASE in READY begins switching the lasers off. -/
  | cartRelease (ag : Agent) (ix : Fin 2)
  /-- CART_RELEASE_DONE (R349): Every laser is off and cartridge power is removed, and the bay enters SAFE. -/
  | cartReleaseDone (ix : Fin 2)
  /-- CART_COMMISSION (R351): A write of CART_CTRL.COMMISSION replaces every P0 at each laser's next lock. -/
  | cartCommission (ag : Agent) (ix : Fin 2)
  /-- LASER_SEL_WRITE (R370): A write of CART.LASER_SEL latches the selected laser's state. -/
  | laserSelWrite (ag : Agent) (ix : Fin 2) (v : Word)
  /-- LASER_FAULT_REPORT (R352): A laser reports an internal fault and is handled as at FAIL. -/
  | laserFaultReport (ix : Fin 2) (n : Fin 72)
  /-- CART_FEED_OVERCURRENT (R484): A cartridge feed draws over 1.5 times its maximum for 100 µs and is switched off. -/
  | cartFeedOvercurrent (ix : Fin 2)
  /-- RING_SEARCH_GO (R354): A write of RING_SEARCH.GO starts a full ring search. -/
  | ringSearchGo (ag : Agent) (g : Fin 4)
  /-- RING_SEARCH_DONE (R354): A full search completes its sweep, assignment and locking. -/
  | ringSearchDone (g : Fin 4) (ps : List Peak)
  /-- RING_LOCK_LOSS (R356): A ring loses lock and its lane leaves UP; relock begins. -/
  | ringLockLoss (r : RingId)
  /-- RING_RELOCK (R357): A ring locks again after a loss. -/
  | ringRelock (r : RingId)
  /-- RING_RELOCK_RETRY (R357): A failed relock is retried after 2 ms, or 16 ms after the eighth failure. -/
  | ringRelockRetry (r : RingId)
  /-- SPARE_SWAP_AT_W (R363): At superframe W each end swaps the spare in or cancels the insertion. -/
  | spareSwapAtW (g l : Fin 4)
  /-- SPARE_LASER_OFF (R363): At W + D + 16 the retired or cancelled laser is switched off. -/
  | spareLaserOff (g : Fin 4) (k : Fin 18)
  /-- SPARE_RETRY (R363): 65,536 superframes after a cancel the initiator tries the insertion again. -/
  | spareRetry (g l : Fin 4) (k : Fin 18)
  /-- FABRIC_SPARE_SWAP (R365): A write of SPARE_CTRL.SWAP switches the quadrant's spare fabric laser onto the selected half. -/
  | fabricSpareSwap (ag : Agent) (q : Fin 4) (j h : Fin 2)
  /-- FABRIC_PORT_LINK_CHANGE (R346): A fabric port's 800GBASE-DR4 link drops or completes training. -/
  | fabricPortLinkChange (p : Fin 64) (link : Fin 3) (locked : BitVec 4) (rxp : Word)
  /-- WRT_APPLY (R367): A write of APPLY.GO checks a router bank and starts applying it, or refuses it. -/
  | wrtApply (ag : Agent) (bank : Fin 4)
  /-- WRT_APPLY_DONE (R368): The apply completes and the new bank becomes active, or verification fails and restore begins. -/
  | wrtApplyDone (ok : Bool)
  /-- WRT_RESTORE_DONE (R368): The router has restored the previous bank's entries after a failed verification. -/
  | wrtRestoreDone
  /-- LENG_SLOT_SEL_WRITE (R371): A write of LENG.SLOT_SEL latches the selected slot's ring and receive state. -/
  | lengSlotSelWrite (ag : Agent) (g : Fin 4) (v : Word)
  /-- FPE_PORT_SEL_WRITE (R372): A write of FPE.PORT_SEL latches the selected port's state. -/
  | fpePortSelWrite (ag : Agent) (q : Fin 4) (j : Fin 2) (v : Word)
  /-- EGRESS_PACKET_START (R377): A fabric port chooses and starts the next packet by strict priority and DWRR. -/
  | egressPacketStart (p : Fin 64) (ofs : Fin 128000)
  /-- SHAPER_REFILL (R378): Every 128 ns each shaper and policer adds RATE tokens and pending values apply. -/
  | shaperRefill
  /-- QUEUE_SAMPLE (R381): A port samples depth and head delay of all its queues and updates maxima and averages. -/
  | queueSample (p : Fin 64) (delays : List Nat)
  /-- SAMPLE_CLEAR (R394): A write of SAMPLE_CFG.CLR clears the port's queue maxima and averages. -/
  | sampleClear (ag : Agent) (p : Fin 64)
  /-- FPORT_QSEL_WRITE (R394): A write of FPORT.QSEL latches a snapshot of the selected queue. -/
  | fportQselWrite (ag : Agent) (p : Fin 64) (v : Word)
  /-- TRAY_RETRY (R387): An internal requester refused with POOL_EMPTY retries after 1 µs. -/
  | trayRetry (cell : Fin 16384)
  /-- AUDIT_START (R391): At an audit boundary the ledger snapshots every count and LIVE is sent, or the audit is skipped. -/
  | auditStart
  /-- AUDIT_DONE (R392): The audit checks end and pass or raise AUDIT_FAIL. -/
  | auditDone (us : Fin 1001)
  /-- JOB_DROP (R396): A write of JOB_DROP.GO releases a job's table reservation and block images. -/
  | jobDrop (ag : Agent) (job : BitVec 16)
  /-- LT_HOLD_TIMEOUT (R403): No link has offered the held announcement for HOLD_SF superframes and the gateway enters HOLDOVER. -/
  | ltHoldTimeout
  /-- LT_ELECT_TIMEOUT (R403): A candidate has seen no non-0xFF HOPS for ELECT_SF superframes and declares itself MASTER. -/
  | ltElectTimeout
  /-- LT_ELECT_TAKE (R404): A write of LT_ELECT.TAKE makes a LOCKED candidate declare itself master at the next boundary. -/
  | ltElectTake (ag : Agent)
  /-- LT_DOMAIN_WRITE (R413): A change of LT_DOMAIN returns the gateway to FREE at the next boundary. -/
  | ltDomainWrite (ag : Agent) (v : Word)
  /-- PTP_SYNC_RX (R407): A PTP Sync message is received and timestamped for the PTP servo. -/
  | ptpSyncRx (p : Fin 64) (m : PtpMsg) (ofs : Fin 128000)
  /-- PTP_FOLLOW_UP_RX (R407): A PTP Follow_Up message is received. -/
  | ptpFollowUpRx (p : Fin 64) (m : PtpMsg)
  /-- PTP_DELAY_RESP_RX (R407): A PTP Delay_Resp message is received. -/
  | ptpDelayRespRx (p : Fin 64) (m : PtpMsg)
  /-- PTP_ANNOUNCE_RX (R407): A PTP Announce message is received for the best master clock algorithm. -/
  | ptpAnnounceRx (p : Fin 64) (m : PtpMsg)
  /-- PTP_UNSUPPORTED_RX (R407): A Pdelay, Signaling or Management message is counted and dropped. -/
  | ptpUnsupportedRx (p : Fin 64)
  /-- PTP_UNLOCKED (R408): The PTP servo loses lock and the mapping extrapolates. -/
  | ptpUnlocked
  /-- TSQ_POP (R409): A write of TSQ_STATUS.POP removes the oldest transmit timestamp entry. -/
  | tsqPop (ag : Agent) (p : Fin 64)
  /-- TSQ_ID_READ (R415): A read of TSQ_ID latches the oldest transmit timestamp entry. -/
  | tsqIdRead (p : Fin 64)
  /-- LT_NOW_READ (R413): A read of LT_NOW_LO latches the rest of the current line time. -/
  | ltNowRead (ofs : Fin 128000)
  /-- MAP_READ (R413): A read of MAP_S_LO latches the PTP mapping registers. -/
  | mapRead
  /-- PULSE_EDGE (R410): A pulse output reaches its programmed instant and emits an edge. -/
  | pulseEdge (o : Fin 16) (k : Nat) (lead : Bool)
  /-- TIMING_INPUT_EDGE (R411): A timing input edge is timestamped into its FIFO, or discarded when full. -/
  | timingInputEdge (ix : Fin 4) (rise : Bool) (ofs : Fin 128000)
  /-- EVT_SEL_WRITE (R414): A write of EVT_SEL latches the oldest entry of the selected input. -/
  | evtSelWrite (ag : Agent) (v : Word)
  /-- EVT_POP (R414): A write of EVT_CFG.POP removes the latched timing input entry. -/
  | evtPop (ag : Agent)
  /-- MAX_LATE_CLR (R415): A write of MAX_LATE.CLR clears the largest recorded launch lateness. -/
  | maxLateClr (ag : Agent) (q : Fin 4)
  /-- LAUNCH_FIRE (R412): A timed launch reaches its instant and its records start ahead of other traffic. -/
  | launchFire (ix : Nat) (ns : Fin 8000)
  /-- LIVE_RX (R428): The master receives a LIVE message and updates quorum and the domain's D. -/
  | liveRx (via : RecVia) (m : Rcv)
  /-- RECOVER_REQ_RX (R421): The master receives a recovery request and begins, queues or discards it. -/
  | recoverReqRx (via : RecVia) (m : Rcv)
  /-- RECOVER_RX (R422): A gateway halts tiles, frees cells and credits, restores state and sends RECOVER_DONE. -/
  | recoverRx (via : RecVia) (m : Rcv)
  /-- RECOVER_DONE_RX (R427): The master receives RECOVER_DONE and launches RESUME once every gateway has reported. -/
  | recoverDoneRx (via : RecVia) (m : Rcv)
  /-- RESUME_RX (R427): A gateway receives RESUME and schedules the release of its tiles at Rz. -/
  | resumeRx (via : RecVia) (m : Rcv)
  /-- RESUME_AT_RZ (R427): At SF Rz the gateway releases its tiles to replay the rolled-back steps. -/
  | resumeAtRz (job : BitVec 16)
  /-- ROSTER_RX (R436): A gateway applies a roster entry flooded by its master. -/
  | rosterRx (via : RecVia) (m : Rcv)
  /-- PROVE_DIGEST_RX (R438): The master compares proving digests and passes or fails the phase. -/
  | proveDigestRx (via : RecVia) (m : Rcv)
  /-- PROVE_LINKS_TIMEOUT (R438): The candidate has not joined line time and keyed its links within REJOIN and fails phase 1. -/
  | proveLinksTimeout
  /-- GATEWAY_LIVE_TIMEOUT (R428): The master has had no LIVE from a gateway for 4 audit periods and raises GATEWAY_LOST. -/
  | gatewayLiveTimeout (g : Fin 2048)
  /-- RECOVER_DONE_TIMEOUT (R428): A gateway has not sent RECOVER_DONE within REJOIN and is declared lost. -/
  | recoverDoneTimeout (job : BitVec 16) (g : Fin 2048)
  /-- CONSUMER_LOST (R428): A cell stays unharvested SILENT superframes after CONSUMER_SILENT and the step is replayed. -/
  | consumerLost (cell : Fin 16384)
  /-- REPLAN_LATE (R433): A held plan has had no REPLACE start within REPLAN and the gateway becomes the subject of level 4. -/
  | replanLate (slot : Fin 2)
  /-- CHARGE_AGE_OUT (R433): A tile's charge leaves the quarantine window. -/
  | chargeAgeOut (t : Fin 64)
  /-- RS_CMD_GO (R440): A write of RS_CMD.GO sends a RECOVER_REQ at level 3 or 5 for a job. -/
  | rsCmdGo (ag : Agent) (level : Fin 8) (job : BitVec 16)
  /-- ROSTER_WRITE (R436): A write of a roster entry sets its state and fingerprint, and is flooded when made at the master. -/
  | rosterWrite (ag : Agent) (ix : Fin 3) (v : Word)
  /-- ROSTER_SEL_WRITE (R440): A write of ROSTER_SEL latches the selected roster entry. -/
  | rosterSelWrite (ag : Agent) (v : Word)
  /-- RS_TILE_SEL_WRITE (R440): A write of RS_TILE_SEL latches the selected tile's charges. -/
  | rsTileSelWrite (ag : Agent) (v : Word)
  /-- EL_SEL_WRITE (R441): A write of EL_SEL latches the selected error-log entry. -/
  | elSelWrite (ag : Agent) (v : Word)
  /-- EL_CLEAR (R441): A write of EL_CLEAR.GO empties the error-log ring. -/
  | elClear (ag : Agent)
  /-- IMG_WRITE (R453): A chunk of an image object is staged. -/
  | imgWrite (via : Via) (p : Packet)
  /-- IMG_COMMIT (R454): A staged object is checked and committed, or refused. -/
  | imgCommit (via : Via) (p : Packet)
  /-- BOOT_GO (R456): The committed set is checked against the manifest or waiver and the gateway starts into the named mode. -/
  | bootGo (via : Via) (p : Packet)
  /-- FLASH_STORE (R460): The committed image set and policy are written to module flash. -/
  | flashStore (via : Via) (p : Packet)
  /-- FLASH_LOAD (R460): The stored objects are staged and committed in kind order. -/
  | flashLoad (via : Via) (p : Packet)
  /-- BOOT_QUERY (R453): The gateway returns the mode and the state of every object kind. -/
  | bootQuery (via : Via) (p : Packet)
  /-- MODE_ENTRY (R457): The start-up after BOOT_GO completes and the new boot mode is entered. -/
  | modeEntry (failed : BitVec 32) (ms : BitVec 16)
  /-- VIN_CONTACT (R482): VIN makes contact and the hot-swap controller charges bulk capacitance. -/
  | vinContact (absentMs : Nat)
  /-- POWER_UP (R445): The 54 V input reaches regulation and the gateway derives its identity and enters BARE. -/
  | powerUp (cells helper chain : Bytes) (serial : BitVec 64) (ms : Fin 3)
  /-- PUF_RETRY (R447): After a failed reconstruction the PUF array is powered down for 20 ms and read again. -/
  | pufRetry (cells : Bytes) (ms : Fin 3)
  /-- INPUT_FUSE_OPEN (R482): The 90 A input fuse opens and the module loses power. -/
  | inputFuseOpen
  /-- FUNCTION_LEVEL_RESET (R444): A PCIe Function Level Reset stops every block, erases keys and returns the gateway to BARE. -/
  | functionLevelReset (cells : Bytes) (ms : Fin 3)
  /-- PERST_DEASSERT (R445): PERST# is deasserted and the PCIe port begins link training. -/
  | perstDeassert
  /-- PCIE_CONFIG_REQUEST (R445): A PCIe configuration request is answered with retry status until BARE, then in full. -/
  | pcieConfigRequest (off : BitVec 12)
  /-- HOST_LINK_LOSS (R462): The PCIe link goes down without a reset; queues are disabled and held completions discarded. -/
  | hostLinkLoss
  /-- CTR_LO_READ (R472): A read of CTR_LO latches the counter's high bits and WRAP for the reading agent. -/
  | ctrLoRead (r : Fin 4) (pg : PageId) (ix : Fin 256)
  /-- LEDGER_GROUP_READ (R477): A read of TILE CTR_LO0 latches all six issue-ledger counters in one clock. -/
  | ledgerGroupRead (r : Fin 4) (t : Fin 64)
  /-- VIN_LOSS (R482): The 54 V input disappears because the rear connector breaks on removal or the supply fails, and every contact of the module loses power at once. -/
  | vinLoss (torn : List (Nat × Nat))
  /-- LASER_LOCKED (R354): A line laser lit for a dark, spare or re-lit slot finishes tuning and locks on its slot centre, after which its rings are relocked and P0 may be taken. -/
  | laserLocked (g : Fin 4) (k : Fin 18) (ps : List Peak)
  /-- CART_CONTROLLER_ANSWER (R349): The cartridge controller of a POWERING bay answers, and the bay enters AUTH and the security processor begins the chain check and nonce exchange. -/
  | cartControllerAnswer (ix : Fin 2) (serial : BitVec 64) (lasers : Nat)
  /-- HANDSHAKE_VERIFY_DONE (R336): The security processor finishes the 1.0 ms verification of a received HELLO or ACCEPT with its chain, and the handshake goes on to encapsulation or decapsulation and signing, or to ABORT. -/
  | handshakeVerifyDone (g l : Fin 4)
  /-- TILE_QUARANTINE_COMMAND (R234): In TEST mode host software commands a tile into QUARANTINED, and the gateway stops and gates the tile, removes its trays and holds the plan. -/
  | tileQuarantineCommand (t : Fin 64)
  /-- INVALID_QUANTITY_CODE (R240): A STATE_WRITE or STATE_READ names a quantity code that is undefined or not allowed for it, and is refused with BAD_FIELD. -/
  | invalidQuantityCode (via : Via) (p : Packet)
  /-- PTP_DELAY_REQ_TX (R407): The firmware sends a PTP Delay_Req with an identifier, and its transmit timestamp enters the port's timestamp queue. -/
  | ptpDelayReqTx (p : Fin 64) (id : BitVec 16) (seq : BitVec 16)
  deriving DecidableEq, Repr

end Sys2Proof
end

