-- ==== Sys2Proof/Config.lean ====
section
/-! DEFINITION. Config.lean: what an implementation fixes and the spec leaves open: free values, constants without a body. -/
namespace Sys2Proof.Config

/-- The fabric port on which the gateway reaches another gateway of its site (R67, R149 name no port). -/
opaque sitePort : Nat → Fin 64

/-- R426: the lowest-numbered LOCKED gateway of a gateway's own site, as a gateway without a parent link finds it; the rules
give it no way to know. By gateway and superframe. -/
opaque siteLocked : Nat → Nat → Option Nat

/-- R125, R159: the gateway at which the plans of the domain place a rank, by CIID and rank: the plan of a gateway holds the ranks
placed there alone. -/
opaque rankGw : Nat → Nat → Nat

/-- R170: the sample position that a quadrant's generator draws for a window, by quadrant, window number and N. -/
opaque samplePos : Nat → Nat → Nat → Nat

/-- The scale byte of an MX group of an ALL_GATHER result, at an offset, that takes its elements from more than one group of the
contributions: R114 places the elements' bits, and states no scale for such a group. By CIID and offset. -/
opaque gatherByte : Nat → Nat → Byte

/-- R277, R278: a byte of a poisoned chunk that no expansion formed, by pull and offset: no byte of a poisoned output carries
any meaning. -/
opaque poisonByte : Nat → Nat → Byte

/-- R224: what a kernel leaves in its scratch space, by superframe and address. -/
opaque scratchByte : Nat → Nat → Byte

/-! ## Randomness, public keys and certificates (R332, R349, R448, R452): the standards the rules name, as functions -/

/-- A byte that the gateway's random source draws, by the number of the draw: nonces and key seeds. -/
opaque randomByte : Nat → Byte

/-- FIPS 203, ML-KEM-1024: the encapsulation and decapsulation keys of a seed. -/
opaque kemKeys : Bytes → Bytes × Bytes

/-- FIPS 203, ML-KEM-1024: ciphertext and shared secret from a seed and an encapsulation key. -/
opaque kemEncaps : Bytes → Bytes → Bytes × Bytes

/-- FIPS 203, ML-KEM-1024: the shared secret from a decapsulation key and a ciphertext. -/
opaque kemDecaps : Bytes → Bytes → Bytes

/-- FIPS 205, SLH-DSA-SHA2-128f: the public key of the 48 bytes of R448. -/
opaque slhPublic : Bytes → Bytes

/-- FIPS 205, SLH-DSA-SHA2-128f: the signature under the 48 bytes of R448. -/
opaque slhSign : Bytes → Bytes → Bytes

/-- FIPS 205, SLH-DSA-SHA2-128f: whether a signature of a message verifies under a public key. -/
opaque slhVerify : Bytes → Bytes → Bytes → Bool

/-- FIPS 205, SLH-DSA-SHA2-256s: whether a signature of a message verifies under a public key. -/
opaque slhVerify256 : Bytes → Bytes → Bytes → Bool

/-- R336, R448: whether an X.509 chain validates to the Brenaesk root that the boot ROM holds. -/
opaque chainValid : Bytes → Bool

/-- R349: whether a cartridge's X.509 chain validates to the cartridge anchor. -/
opaque cartChainValid : Bytes → Bool

/-- R349: the cartridge type that a cartridge's certificate names: 0 fabric, 1 line. -/
opaque cartType : Bytes → Nat

/-- The DER SubjectPublicKeyInfo of the leaf certificate of a chain (R436). -/
opaque leafSpki : Bytes → Bytes

/-- The subject public key of the leaf certificate of a chain. -/
opaque leafKey : Bytes → Bytes

/-- R448, R452: the SHA-256 of the image key of an index, which the boot ROM holds. -/
opaque imageKeyHash : Nat → Bytes

/-! ## Time (R405 to R408): loops whose filters the rules do not state -/

/-- R405: the rate, in 10^−12, that the servo's loop gives, by superframe, offset in ps and bandwidth in 0.1 Hz. -/
opaque servoRate : Nat → Int → Nat → Int

/-- R408: the PTP time in ns that the PTP servo gives a boundary after an exchange, by exchange. -/
opaque ptpTime : Nat → Nat

/-- R408: the rate of PTP time over line time in 10^−12 that the PTP servo gives, by exchange. -/
opaque ptpRate : Nat → Int

/-- R408: whether the PTP servo is locked after an exchange. -/
opaque ptpLocks : Nat → Bool

/-! ## Proving (R438) -/

/-- R438: the steps of the proving plan that host software has loaded for a candidate, as the master counts them: the rules
say at least 16. -/
opaque proveSteps : Nat → Nat

/-! ## The PCIe port (R445) -/

/-- R445: the word that a PCIe configuration request reads; the rules state no contents of the configuration space. -/
opaque configSpace : Nat → Word

/-! ## Temperature limits (R491) -/

/-- R491: the tensor ceiling, in 1/1375 of 0.5 %, to which the power manager lowers c to hold a limit, by superframe. -/
opaque limitCeil : Nat → Nat

/-! ## Command packets (R102) -/

/-- R102: the bytes SITE and POS that NET_CFG reports of a gateway without a number. -/
opaque noNumber : Nat → Byte

/-- R102, R413: the offset in the superframe at which PAGE_READ reads a register, by superframe and packet, modulo 128,000. -/
opaque readOffset : Nat → Nat → Nat

end Sys2Proof.Config
end

