-- ==== Sys2Proof/Machine/Bits.lean ====
section
/-! DEFINITION. Machine/Bits.lean: bit fields, byte orders (R7), the checks and the hash the spec names: CRC-64/XZ
(R92), CRC-32C, SHA-256 (R118), HMAC and HKDF over it. Everything is computed on Nat and BitVec, so that
Lean's kernel evaluates it. -/
namespace Sys2Proof.Machine
open Sys2Proof

/-- Bits [hi:lo] of a number (R6). -/
def fld (w hi lo : Nat) : Nat := (w >>> lo) % 2 ^ (hi + 1 - lo)

/-- Bit i of a number as a truth value. -/
def bit (w i : Nat) : Bool := w.testBit i

/-- The number with bits [hi:lo] replaced by the low bits of v. -/
def setFld (w hi lo v : Nat) : Nat :=
  w - (fld w hi lo) <<< lo + (v % 2 ^ (hi + 1 - lo)) <<< lo

/-- 1 for true and 0 for false. -/
def b2n (b : Bool) : Nat := if b then 1 else 0

/-- The n low bytes of a number, most significant first: network byte order (R7). -/
def beBytes : Nat → Nat → Bytes
  | 0, _ => []
  | n + 1, v => BitVec.ofNat 8 (v / 256 ^ n) :: beBytes n v

/-- The number a byte string spells, most significant byte first. -/
def fromBe (l : Bytes) : Nat := l.foldl (fun a b => a * 256 + b.toNat) 0

/-- The n low bytes of a number, least significant first (R7). -/
def leBytes : Nat → Nat → Bytes
  | 0, _ => []
  | n + 1, v => BitVec.ofNat 8 v :: leBytes n (v / 256)

/-- The number a byte string spells, least significant byte first. -/
def fromLe : Bytes → Nat
  | [] => 0
  | b :: l => b.toNat + 256 * fromLe l

/-- n bytes of a string from an offset on; the part that exists. -/
def slice (l : Bytes) (off n : Nat) : Bytes := (l.drop off).take n

/-- A network-order field of a byte string. -/
def beAt (l : Bytes) (off n : Nat) : Nat := fromBe (slice l off n)

/-- A little-endian field of a byte string. -/
def leAt (l : Bytes) (off n : Nat) : Nat := fromLe (slice l off n)

/-- The byte at an offset, 0 past the end. -/
def byteAt (l : Bytes) (off : Nat) : Nat := (l.getD off 0).toNat

/-- A byte string padded with zeros to n bytes. -/
def padTo (n : Nat) (l : Bytes) : Bytes := l ++ List.replicate (n - l.length) 0

/-- The quotient rounded up. -/
def cdiv (a b : Nat) : Nat := (a + b - 1) / b

/-- One bit of a reflected CRC. -/
def crcBit (poly : Nat) (c : Nat) : Nat := if c % 2 = 1 then (c >>> 1) ^^^ poly else c >>> 1

/-- One byte of a reflected CRC. -/
def crcByte (poly c : Nat) (b : Byte) : Nat :=
  let c := c ^^^ b.toNat
  let c := crcBit poly (crcBit poly (crcBit poly (crcBit poly c)))
  crcBit poly (crcBit poly (crcBit poly (crcBit poly c)))

/-- The bytes of a string run through a reflected CRC in order. -/
def crcRun (poly : Nat) : Nat → Bytes → Nat
  | c, [] => c
  | 0, b :: l => crcRun poly (crcByte poly 0 b) l
  | c + 1, b :: l => crcRun poly (crcByte poly (c + 1) b) l

/-- R92: the CRC-64/XZ of a byte string: polynomial 0x42F0_E1EB_A9EA_3693 reflected in and out, initial value and
final XOR all ones. -/
def crc64 (l : Bytes) : Nat :=
  crcRun 0xC96C5795D7870F42 0xFFFFFFFFFFFFFFFF l ^^^ 0xFFFFFFFFFFFFFFFF

/-- The CRC-32C (Castagnoli) of a byte string, reflected, initial value and final XOR all ones. -/
def crc32c (l : Bytes) : Nat :=
  crcRun 0x82F63B78 0xFFFFFFFF l ^^^ 0xFFFFFFFF

/-! SHA-256 (FIPS 180-4), its constants formed as the standard defines them. -/

/-- The first 64 prime numbers. -/
def shaPrimes : List Nat := (List.range 312).filter (fun n => 2 ≤ n && (List.range n).all (fun d => d < 2 || n % d != 0))

/-- The first 32 bits of the fraction of the k-th root of n. -/
def rootFrac (k n : Nat) : BitVec 32 :=
  BitVec.ofNat 32 ((List.range 38).reverse.foldl (fun r i => if (r + 2 ^ i) ^ k ≤ n * 2 ^ (32 * k) then r + 2 ^ i else r) 0)

/-- The exclusive or of three turns of a word to the right; a turn by 32 or more is a shift by the rest. -/
def turn3 (l : List Nat) (x : BitVec 32) : BitVec 32 :=
  l.foldl (fun y n => y ^^^ (if n < 32 then x.rotateRight n else x >>> (n - 32))) 0

/-- One round on the eight working words. -/
def shaRound (v : List (BitVec 32)) (kw : BitVec 32 × BitVec 32) : List (BitVec 32) :=
  let at' := fun i => v.getD i 0
  let pick := at' 6 ^^^ (at' 4 &&& (at' 5 ^^^ at' 6))
  let most := (at' 0 &&& at' 1) ||| (at' 2 &&& (at' 0 ||| at' 1))
  let sum := at' 7 + turn3 [6, 11, 25] (at' 4) + pick + kw.1 + kw.2
  (sum + turn3 [2, 13, 22] (at' 0) + most) :: (v.take 3 ++ (at' 3 + sum) :: (v.drop 4).take 3)

/-- The message schedule of a block: a window of 16 words moves on by one word a step; the 64 words in order. -/
def shaWords : Nat → List (BitVec 32) → List (BitVec 32)
  | 0, _ => []
  | n + 1, w =>
    let next := turn3 [17, 19, 42] (w.getD 14 0) + w.getD 9 0 + turn3 [7, 18, 35] (w.getD 1 0) + w.headD 0
    w.headD 0 :: shaWords n (w.tail ++ [next])

/-- One block of 64 bytes taken into the hash. -/
def shaTake (h : List (BitVec 32)) (blk : Bytes) : List (BitVec 32) :=
  let w := (List.range 16).map (fun i => BitVec.ofNat 32 (fromBe ((blk.drop (4 * i)).take 4)))
  List.zipWith (· + ·) h (((shaPrimes.map (rootFrac 3)).zip (shaWords 64 w)).foldl shaRound h)

/-- The SHA-256 hash of a byte string, 32 bytes. -/
def sha256 (l : Bytes) : Bytes :=
  let n := cdiv (l.length + 9) 64
  let msg := padTo (64 * n - 8) (l ++ [0x80]) ++ beBytes 8 (8 * l.length)
  ((List.range n).foldl (fun h i => shaTake h ((msg.drop (64 * i)).take 64)) ((shaPrimes.take 8).map (rootFrac 2))).flatMap
    (fun x => beBytes 4 x.toNat)

/-- HMAC-SHA-256. -/
def hmac (key msg : Bytes) : Bytes :=
  let k := padTo 64 (if key.length ≤ 64 then key else sha256 key)
  sha256 (k.map (· ^^^ 0x5c) ++ sha256 (k.map (· ^^^ 0x36) ++ msg))

def hkdfLoop (prk info : Bytes) : Nat → Nat → Bytes → Bytes → Bytes
  | 0, _, _, acc => acc
  | n + 1, i, t, acc =>
    let t' := hmac prk (t ++ info ++ [BitVec.ofNat 8 i])
    hkdfLoop prk info n (i + 1) t' (acc ++ t')

/-- HKDF-Expand with SHA-256. -/
def hkdfExpand (prk info : Bytes) (len : Nat) : Bytes :=
  (hkdfLoop prk info (cdiv len 32) 1 [] []).take len

/-- HKDF-Extract with SHA-256. -/
def hkdfExtract (salt ikm : Bytes) : Bytes := hmac salt ikm

end Sys2Proof.Machine
end

