-- ==== Sys2Proof/Machine/State.lean ====
section
/-! DEFINITION. Machine/State.lean: the state of the gateway as plain data: every register, queue, buffer, counter and mode
the spec names, in one structure per chapter, and the state after reset. -/
namespace Sys2Proof.Machine
open Sys2Proof

/-- A line link: its line group and its index in the group (R314). -/
abbrev LinkId := Fin 4 × Fin 4

/-! ## Register pages (R43 to R51) -/

/-- One register page: the header of R43, the conditions that R44 derives BLK_STATE from, and its writable registers.
`regs` holds the active value of every register whose value is not its reset value, keyed by offset and bank
(a bank is the selected queue, requester or class of a selector register); `pend` the last accepted value of the
registers with E-class values that wait (R47); `latch` the snapshots that selector writes and latching reads take. -/
structure Page where
  enable : Bool
  quiesce : Bool
  quiescing : Bool
  halted : Bool
  quarantined : Bool
  classSeen : BitVec 5
  firstValid : Bool
  cfgRefused : Bool
  permRefused : Bool
  irq : BitVec 5
  firstCode : BitVec 16
  firstSf : BitVec 16
  firstInfo : Word
  errCount : BitVec 16
  appliedValid : Bool
  cfgEpoch : Word
  uctr : Bool
  upage : Bool
  regs : PMap (Nat × Nat) Word
  pend : PMap (Nat × Nat) Word
  latch : PMap Nat Word
  deriving DecidableEq, Repr

/-- R43: a page after reset. -/
def Page.reset : Page :=
  { enable := false, quiesce := false, quiescing := false, halted := false, quarantined := false,
    classSeen := 0, firstValid := false, cfgRefused := false, permRefused := false, irq := 0b11100,
    firstCode := 0, firstSf := 0, firstInfo := 0, errCount := 0, appliedValid := false, cfgEpoch := 0,
    uctr := false, upage := false, regs := [], pend := [], latch := [] }

/-! ## Values per fabric virtual channel -/

/-- One value for each fabric virtual channel (R90). -/
structure Vc4 (α : Type) where
  fast : α
  bulk : α
  weight : α
  mgmt : α
  deriving DecidableEq, Repr

/-! ## Sources and credits (R103 to R109) -/

/-- R108: a gap in the credits received: the first and last credit of the gap, in the node's count, and the
superframe in which its timer started. -/
structure Gap where
  lo : BitVec 32
  hi : BitVec 32
  sf : Nat
  deriving DecidableEq, Repr

/-- R105 to R108: the credit counts of one source and VC. `ret` is CREDIT_RETURN, `held` the credits of packets not yet
taken, `recv` the costs received and `off` the credits written off; `w` is the boundary W and `gaps` the gaps above it;
`unrep` the released credits not yet reported to the node. -/
structure Credit where
  ret : BitVec 32
  held : Nat
  recv : Nat
  off : Nat
  w : BitVec 32
  top : BitVec 32
  gaps : List Gap
  unrep : Nat
  unrepSf : Nat
  deriving DecidableEq, Repr

/-- R103: one entry of the source table, with the ATTACHs and DETACHs that wait until its packets have been taken. -/
structure Source where
  ip : BitVec 128
  id : BitVec 16
  port : Fin 64
  udpPort : BitVec 16
  tagged : Bool
  priv : Bool
  req : Nat
  grant : Vc4 Nat
  credit : Vc4 Credit
  admitted : Bool
  resetWait : List Packet
  detachWait : List Packet
  deriving DecidableEq, Repr

/-- R103: one source admission rule. -/
structure SrcRule where
  pfx : BitVec 128
  plen : Nat
  priv : Bool
  req : Nat
  idLo : Nat
  idHi : Nat
  grant : Vc4 Nat
  deriving DecidableEq, Repr

/-- R102: the addresses of one quadrant. -/
structure QuadAddr where
  v6 : Option (BitVec 128)
  v4 : Option (BitVec 32)
  raw6 : BitVec 128
  raw4 : BitVec 32
  deriving DecidableEq, Repr

/-- R102: what NET_CFG sets. -/
structure Net where
  number : Option (Nat × Nat)
  port : Nat
  quads : List QuadAddr
  deriving DecidableEq, Repr

/-! ## Packets under way -/

/-- A packet the gateway has received and not yet answered in full (R69): what a FENCE of its stream waits for. -/
structure Flight where
  seq : Nat
  org : Origin
  stream : BitVec 8
  op : Nat
  ciid : BitVec 64
  member : BitVec 16
  tag : BitVec 32
  accepted : Bool
  done : Bool
  bad : Bool
  deriving DecidableEq, Repr

/-- R69: a FENCE that has not completed: the packets it waits for, and for scope STEP how often the step had been rolled back
when it came. -/
structure Fence where
  seq : Nat
  org : Origin
  stream : BitVec 8
  via : Via
  hdr : Header
  scope : Nat
  waits : List Nat
  rolls : Nat
  deriving DecidableEq, Repr

/-- Trays of R382, by pool and place. -/
inductive TrayId where
  | sram (t : Fin 64) (i : Nat)
  | pond (q : Fin 4) (i : Nat)
  deriving DecidableEq, Repr

/-- R70: a packet held behind a FENCE, in its tray. -/
structure HeldPkt where
  seq : Nat
  org : Origin
  via : Via
  pkt : Packet
  tray : Option TrayId
  deriving DecidableEq, Repr

/-- An input of a cell that waits in a tray: for a cell that holds an earlier instance (R123), or for an attempt not
yet begun (R82). -/
inductive Input where
  | contrib (seq : Nat) (org : Origin) (via : Via) (pkt : Packet)
  | record (via : RecVia) (r : Record)
  deriving DecidableEq, Repr

/-- The bytes of an input: its header and payload. -/
def Input.bytes : Input → Nat
  | .contrib _ _ _ p => 64 + p.payload.length
  | .record _ r => 64 + r.payload.length

/-- R82, R123, R166: a held input; `upstream` marks one that waits under back-pressure, not yet copied. -/
structure HeldInput where
  cell : Nat
  ciid : BitVec 64
  input : Input
  tray : Option TrayId
  upstream : Bool
  deriving DecidableEq, Repr

/-- Chunks of a load that is being collected (R101, R205, R238, R262, R453), by chunk index. -/
structure LoadBuf where
  count : Nat
  chunks : PMap Nat Bytes
  trays : List TrayId
  deriving DecidableEq, Repr

def LoadBuf.none : LoadBuf := ⟨0, [], []⟩

/-- R99, R100: one chunk that is owed to a consumer. -/
structure OwedChunk where
  idx : Nat
  bytes : Bytes
  poison : Option Nat
  ready : Bool
  sends : Nat
  sf : Nat
  acked : Bool
  silent : Bool
  deriving DecidableEq, Repr

/-- R100, R240: a WEIGHT_PULL or STATE_READ under way: its chunks are sent as they are ready and kept until they are
acknowledged. `fetchTag` is the tag of a FETCH that serves it (R255); `peer` the gateway and tag of a FETCH that this
gateway serves. A pull served from an image (R264) holds the image's number, the next block to queue, the blocks'
outputs, and the first failed block with its code. -/
structure Pull where
  seq : Nat
  org : Origin
  via : Via
  hdr : Header
  vc : Fvc
  qty : Nat
  job : Nat
  matrix : Nat
  epoch : Nat
  first : Nat
  total : Nat
  chunks : List OwedChunk
  status : Nat
  closed : Bool
  completed : Bool
  fetchTag : Option Nat
  peer : Option (Nat × Nat)
  img : Option Nat
  nextBlk : Nat
  outs : PMap Nat Bytes
  fail : Option (Nat × Nat)
  deriving DecidableEq, Repr

/-! ## Rendezvous cells (R121 to R139) and reduction (R141 to R173) -/

/-- R124: the cell states. -/
inductive CellSt where
  | free | armed | gathering | complete | harvested | mismatch | timeout | tainted
  deriving DecidableEq, Repr

/-- R64: one accumulated contribution chunk with its content check. -/
structure Taken where
  member : Nat
  chunk : Nat
  check : Nat
  deriving DecidableEq, Repr

/-- R152: one taken record chunk, by the fields that identify it, with its VALUE_CHECK. -/
structure RecTaken where
  kind : Nat
  level : Nat
  src : Nat
  shard : Nat
  chunk : Nat
  flags : Nat
  vcheck : Nat
  deriving DecidableEq, Repr

/-- R153, R154, R166: a record that was sent and is kept until its RACK. -/
structure Kept where
  rcd : Record
  line : Option (Fin 4)
  sends : Nat
  sf : Nat
  acked : Bool
  silent : Bool
  deriving DecidableEq, Repr

/-- R160, R161: the final value of one shard as this gateway holds it: a mark, or chunks with their VALUE_CHECKs. -/
structure ShardFin where
  mark : Bool
  count : Nat
  src : Nat
  chunks : PMap Nat (Bytes × Nat)
  deriving DecidableEq, Repr

/-- R164: the projection of an instance at a holder: the corrected partial m_s, the sums of the factors at the owner by
element, and the factors. `stage` counts the kernels done: 0 none, 1 p_s formed, 2 ph known and v_s formed, 3 qn known and
the result formed. -/
structure Proj where
  stage : Nat
  m : List Nat
  pAcc : PMap Nat Nat
  vAcc : PMap Nat Nat
  ph : List Nat
  qn : List Nat
  deriving DecidableEq, Repr

/-- R163: where the projection state of a matrix stands in pond memory (its error feedback e_s in EF_TYPE and its basis q):
the address of the copy in force, none where no state exists, and the step with the address of the new copy that it has written
beside. -/
structure PState where
  cur : Option Nat
  next : Option (Nat × Nat)
  deriving DecidableEq, Repr

/-- R157, R158, R190: how a crystalliser encodes a value: the mode, the type, the coordinates of the rounding point, and the
count by whose reciprocal it multiplies first (MEAN). -/
structure Enc where
  strict : Bool
  round : Nat
  seed : Nat
  point : Nat
  gw : Nat
  shard : Nat
  typ : Nat
  mean : Option Nat
  deriving DecidableEq, Repr

/-- R170, R171: what a formed value is computed from: copied bytes; decoded inputs added in order, each with its type and first
element; operands of the tensor unit (m × k and k × n); a matrix that is orthonormalised; the factors that are expanded. -/
inductive XSrc where
  | copy (bs : Bytes)
  | adds (redOp : Nat) (strict : Bool) (ins : List (Nat × Nat × List Nat))
  | prod (m k n : Nat) (a b : List Nat)
  | ortho (rows r : Nat) (p : List Nat)
  | expand (rows cols r : Nat) (ph qn : List Nat)
  deriving DecidableEq, Repr

/-- R171, R431, R432: a sampled chunk whose shadow recomputation, and after a disagreement whose referee's, is under way:
its index, the operand pattern class of its inputs, what it is formed from (its source, first element, length, and encoding), the
bits that the primary formed (FP32 accumulation, then encoded output), and those of the shadow once it has ended. -/
structure Xchk where
  id : Nat
  cell : Nat
  ciid : BitVec 64
  level : Nat
  chunk : Nat
  pat : Nat
  tile : Fin 64
  shadow : Fin 64
  referee : Option (Fin 64)
  src : XSrc
  lo : Nat
  n : Nat
  enc : Enc
  bits : Bytes
  sh : Bytes
  deriving DecidableEq, Repr

/-- R124: one rendezvous cell. `acc` holds the accumulator elements in FP32, by element of the reduced tensor, and
`raw` the bytes of an ALL_GATHER; `ins` the decoded inputs with their types and first elements, for R432; `asked` the record chunks asked for again (R152 order 7); `deliv` the result chunks owed to each rank and `answered` the ranks whose COMPLETE
has gone. -/
structure Cell where
  st : CellSt
  ciid : BitVec 64
  digest : BitVec 64
  armSf : Nat
  harvSf : Nat
  stopped : Bool
  cause : Nat
  remote : Bool
  taint : Nat
  bound : PMap Nat (Origin × BitVec 8)
  taken : List Taken
  recs : List RecTaken
  acc : PMap Nat Nat
  raw : PMap Nat Byte
  ins : List (Nat × Nat × List Nat)
  sent : List (Nat × Nat)
  ready : PMap (Nat × Nat) (List Record)
  finals : PMap Nat ShardFin
  kept : List Kept
  racks : List Record
  asked : List (Nat × Nat × Nat × Nat × Nat)
  deliv : PMap Nat (List OwedChunk)
  answered : List Nat
  proj : Option Proj
  recheck : Bool
  trays : List TrayId
  deriving DecidableEq, Repr

def Cell.free : Cell :=
  { st := .free, ciid := 0, digest := 0, armSf := 0, harvSf := 0, stopped := false, cause := 0, remote := false,
    taint := 0, bound := [], taken := [], recs := [], acc := [], raw := [], ins := [], sent := [], ready := [], finals := [],
    kept := [], racks := [], asked := [], deliv := [], answered := [], proj := none, recheck := false, trays := [] }

/-- The plan's record of an instance of an attempt, beside its cell (R128, R131, R499): harvested, a state decided while the
cell held another instance, the ranks answered, CELL_HELD reported, and the bindings of the members of a cell that has become
FREE after its harvest. -/
structure InstRec where
  harvested : Bool
  decided : Option CellSt
  answered : List Nat
  heldSeen : Bool
  bound : PMap Nat (Origin × BitVec 8)
  deriving DecidableEq, Repr

def InstRec.none : InstRec := ⟨false, .none, [], false, []⟩

/-- R130, R401: the master's decision window for one instance, which keeps the D it was opened under. -/
structure Window where
  opened : Nat
  d : Nat
  notices : List CellSt
  decided : Option CellSt
  late : Nat
  deriving DecidableEq, Repr

/-! ## Plans and tiles (R200 to R235) -/

/-- R116: the fields of a canonical descriptor, with its 64 bytes. -/
structure Desc where
  bytes : Bytes
  digest : BitVec 64
  cell : Nat
  timed2 : Bool
  timed3 : Bool
  ranks : List Nat
  peers : List Nat
  inst : Option Nat
  shadow : Nat
  sramRes : Nat
  pondRes : Nat
  deriving DecidableEq, Repr

/-- R204: an instance record. -/
structure PlanInst where
  matrix : Nat
  rows : Nat
  cols : Nat
  efType : Nat
  addr : Nat
  deriving DecidableEq, Repr

/-- R204: one step of a plan, with the word stream of each tile. -/
structure PlanStep where
  step : Nat
  descs : List Desc
  seed : Nat
  mode : Nat
  streams : List (List (BitVec 64))
  deriving DecidableEq, Repr

/-- R203: a plan image, read. -/
structure Plan where
  job : Nat
  gateway : Nat
  tsm : Nat
  first : Nat
  count : Nat
  rampTile : Nat
  tileMask : Nat
  insts : List PlanInst
  steps : List PlanStep
  deriving DecidableEq, Repr

/-- R206: the states of a plan slot. -/
inductive SlotSt where
  | empty | loading | loaded | active | next | held | done
  deriving DecidableEq, Repr

/-- R384: what a loaded plan sets aside in its loader's account: SRAM trays in each tile, and pond trays. -/
structure Aside where
  req : Nat
  sram : List Nat
  pond : Nat
  deriving DecidableEq, Repr

/-- R206: one plan slot. `prior` is the state before a load that is under way, `stopping` marks a PLAN_STOP
under way, `begun` the steps begun and `lastEnded` the tiles that have ended the last step. -/
structure Slot where
  st : SlotSt
  plan : Option Plan
  prior : SlotSt
  base : Nat
  aside : Aside
  trays : List TrayId
  stopping : Bool
  begun : List Nat
  lastEnded : List Nat
  deriving DecidableEq, Repr

def Slot.empty : Slot :=
  ⟨.empty, none, .empty, 0, ⟨0, [], 0⟩, [], false, [], []⟩

/-- R218: the 16-byte tile or gateway record of a step, field by field; flags as bits [8:0] of bytes 4 to 5. -/
structure StepRec where
  step : Nat
  replay : Nat
  flags : Nat
  startSf : Nat
  endSf : Nat
  deriving DecidableEq, Repr

def StepRec.zero : StepRec := ⟨0, 0, 0, 0, 0⟩

/-- R235: SEQ_STATUS.STATE. -/
inductive SeqSt where
  | idle | issue | waitLt | waitCell | waitEvt | sync | fetch | boundary | stopped
  deriving DecidableEq, Repr

/-- The engines of R209 that take plan words. -/
inductive Engine where
  | power | dma | launch | tensor | crys | kernel
  deriving DecidableEq, Repr

/-- A plan word in an engine's queue (R212), with the memory it writes, as first address and length: what a halt
poisons (R216). `behind` marks a DMA word that waits behind the block its tile decodes (R276). -/
structure InFlight where
  eng : Engine
  dst : Nat
  len : Nat
  behind : Bool
  deriving DecidableEq, Repr

/-- R213: a SIGNAL held for an attempt that its target has not begun. -/
structure HeldSignal where
  step : Nat
  replay : Nat
  ctr : Nat
  deriving DecidableEq, Repr

/-- One tile: sequencer, engines, event counters, tile record and arithmetic exception registers (R198, R235). `todo` is
the slot and step it is to begin next; `beganSf` the superframe in which it began the attempt (R218) and `startSf` S (R211); `held` says that the recovery sequencer holds it; `excSeen` the attempts (step and replay
count as EXC_FIRST_STEP holds them) whose first INVALID has come, of which the one that runs and the one before it count (R199). -/
structure Tile where
  seq : SeqSt
  slot : Nat
  todo : Option (Nat × Nat)
  active : Bool
  failed : Bool
  step : Nat
  replay : Nat
  pc : Nat
  beganSf : Nat
  startSf : Nat
  waitArg : Word
  flight : List InFlight
  evt : PMap Nat Nat
  signals : List HeldSignal
  flags : Nat
  pass : Nat
  bufFull : Bool
  held : Bool
  srec : StepRec
  excSticky : Nat
  excCaptured : Bool
  excSeen : List Nat
  excStep : Word
  excWhere : Word
  excKind : Word
  xchkMiss : Nat
  deriving DecidableEq, Repr

def Tile.reset : Tile :=
  { seq := .idle, slot := 0, todo := none, active := false, failed := false, step := 0, replay := 0, pc := 0,
    beganSf := 0, startSf := 0, waitArg := 0, flight := [], evt := [], signals := [], flags := 0, pass := 0, bufFull := false, held := false,
    srec := StepRec.zero, excSticky := 0, excCaptured := false, excSeen := [], excStep := 0, excWhere := 0,
    excKind := 0, xchkMiss := 0 }

/-- R214: a pending launch of a line launcher or timed fabric queue. -/
structure Launch where
  quad : Fin 4
  line : Bool
  index : Nat
  tile : Nat
  cell : Nat
  ciid : BitVec 64
  shard : Nat
  level : Nat
  sf : Nat
  slot : Nat
  late : Bool
  deriving DecidableEq, Repr

/-- A gateway record of a step that is open (R218): flags and start taken from the tiles so far. -/
structure OpenRec where
  slot : Nat
  job : Nat
  step : Nat
  replay : Nat
  flags : Nat
  startSf : Nat
  ended : List Nat
  deriving DecidableEq, Repr

/-- R229 to R231: the power manager's ceiling. `ramp` is the ramp under way or declared: start, target, rate. -/
structure Ramp where
  start : Nat
  target : Nat
  rate : Nat
  tileStep : Nat
  deriving DecidableEq, Repr

/-! ## Egress (R375 to R381) -/

/-- R87, R89: the addresses of a datagram that the gateway sends to a source, an IPv4 address as ::FFFF:a.b.c.d (R103), the DF
flag and the UDP checksum field. -/
structure UdpHdr where
  srcIp : BitVec 128
  dstIp : BitVec 128
  srcPort : BitVec 16
  dstPort : BitVec 16
  df : Bool
  sum : BitVec 16
  deriving DecidableEq, Repr

/-- What a fabric port sends: a command packet to a source, a record, state record, control or recovery message to a
quadrant address of another gateway at a UDP port (R149, R250), or a PTP event message. -/
inductive Body where
  | cmd (u : UdpHdr) (p : Packet)
  | rcd (gw : Nat) (quad : Nat) (port : Nat) (r : Record)
  | srec (gw : Nat) (port : Nat) (r : StRec)
  | ctl (gw : Nat) (port : Nat) (m : Ctl)
  | rcv (gw : Nat) (port : Nat) (m : Rcv)
  | ptp (id : Nat) (kind : Nat)
  deriving DecidableEq, Repr

/-- What a line link carries in a frame (R294): a unit by its kind. A key message of R331 stands as its kind and bytes. -/
inductive LUnit where
  | rcd (r : Record)
  | srec (r : StRec)
  | ctl (m : Ctl)
  | rcv (m : Rcv)
  | key (bytes : Bytes)
  deriving DecidableEq, Repr

/-- A message between gateways that the master or every gateway is owed (R426). -/
inductive Msg where
  | ctl (m : Ctl)
  | rcv (m : Rcv)
  deriving DecidableEq, Repr

/-- R375: the traffic classes, by their queue-map field. -/
inductive Tclass where
  | fast | ptp | site | mgmt | bulk | peer | weight
  deriving DecidableEq, Repr

/-- A packet in an egress queue: its wire size (R377) and the superframe in which it entered. -/
structure EgPkt where
  cls : Tclass
  body : Body
  wire : Nat
  sf : Nat
  deriving DecidableEq, Repr

/-- R377, R378, R381: one egress queue of one port: packets, packets of producers that wait for room (R376), tokens,
deficit, and the sampled maxima and average. -/
structure EgQueue where
  pkts : List EgPkt
  waiting : List EgPkt
  tokens : Int
  deficit : Nat
  depthMax : Nat
  delayMax : Nat
  depthAvg : Nat
  deriving DecidableEq, Repr

/-! ## The window, the completion ring and the I3C view (R52 to R59) -/

/-- R52 to R54: what the CPW page holds beside its registers: the head of each submission queue, the completion ring's
tail, the completions held while the ring is full with the superframe since which it is full, CQ_STALL raised for this
hold, and a tail advance not yet reported by vector 1. -/
structure Cpw where
  heads : PMap (Fin 4) Nat
  tail : Nat
  held : List Packet
  fullSf : Option Nat
  stalled : Bool
  intWait : Bool
  deriving DecidableEq, Repr

def Cpw.reset : Cpw := ⟨[], 0, [], none, false, false⟩

/-- R57 to R59: the I3C target: whether it answers yet, its dynamic address, the register index, I3C_STATUS.REFUSED,
PWR_CAP, whether in-band interrupts are enabled (not before the board controller has enabled them: DESIGN CHOICE, entry 85),
and the sticky bits of ALARM_SUM. -/
structure I3c where
  up : Bool
  dyn : Option (BitVec 7)
  index : BitVec 16
  refused : Bool
  cap : Nat
  ibiOn : Bool
  alarmSeen : Bool
  class4Seen : Bool
  deriving DecidableEq, Repr

def I3c.reset : I3c := ⟨false, none, 0, false, 2800, false, false, false⟩

/-! ## MSI-X (R35, R56) -/

/-- R56: the MSI-X table as the words written to it, by their offset in the table, and the pending-bit array. An entry is four
words, as PCI Express lays them out: address low and high, message data, and vector control with MASK as bit 0 (PRESUMED,
entry 86). -/
structure Msix where
  words : PMap Nat Word
  pend : BitVec 8
  deriving DecidableEq, Repr

def Msix.reset : Msix := ⟨[], 0⟩

/-- A word of the MSI-X table; vector control resets to MASK = 1 and the others to 0 (PRESUMED, entry 86). -/
def Msix.word (m : Msix) (off : Nat) : Word := mget m.words off (if off % 16 = 12 then 1 else 0)

/-! ## The site fabric -/

/-- R102, R103, R69: the gateway's number and addresses, the admission rules, the source table, the packets under way,
the FENCEs and the packets held behind them, what each FENCE not yet taken found on its arrival (the packets
it waits for, and how often its step had been rolled back), the pulls, the chunks of MGMT parameter blocks by source and function, and
the free packets by source of the superframe `freeSf` (R109). `seq` numbers packets in order of arrival. -/
structure Fab where
  net : Net
  rules : List SrcRule
  srcs : List Source
  seq : Nat
  flights : List Flight
  fences : List Fence
  fwaits : PMap Nat (List Nat × Nat)
  held : List HeldPkt
  pulls : List Pull
  params : PMap (Origin × Nat) LoadBuf
  freeSf : Nat
  free : PMap Origin Nat
  deriving DecidableEq, Repr

/-- R102: after reset the gateway has no number, PORT holds 47,444 and no address is in use. -/
def Net.reset : Net := ⟨none, 47444, List.replicate 4 ⟨none, none, 0, 0⟩⟩

def Fab.reset : Fab := ⟨Net.reset, [], [], 0, [], [], [], [], [], [], 0, []⟩

/-! ## Trays -/

/-- R388: who holds a tray; `aside` is the plan slot whose set-aside it was allocated against (R384), or none. -/
structure TrayHold where
  req : Nat
  aside : Option Nat
  deriving DecidableEq, Repr

/-- R382 to R389: trays that are not FREE, set-asides by plan slot, transfers in flight, tiles whose trays have left the
pool (R389). -/
structure Trays where
  held : PMap TrayId TrayHold
  asides : PMap Nat Aside
  xfers : List TrayId
  removed : List (Fin 64)
  deriving DecidableEq, Repr

def Trays.reset : Trays := ⟨[], [], [], []⟩

/-! ## Collectives -/

/-- Cells, the plan's records of instances, inputs held in order of arrival, decision windows of a master, cross-checks
under way and their windows (R170): the window's number and the chunks formed in it, by quadrant; the projection states
by job and matrix (R163). -/
structure Coll where
  cells : PMap Nat Cell
  insts : PMap (BitVec 64) InstRec
  held : List HeldInput
  windows : PMap (BitVec 64) Window
  xchks : List Xchk
  xseq : Nat
  formed : PMap (Fin 4) (Nat × Nat)
  psts : PMap (Nat × Nat) PState
  deriving DecidableEq, Repr

def Coll.reset : Coll := ⟨[], [], [], [], [], 0, [], []⟩

/-! ## Plans -/

/-- R206 to R218: the plan slots, the tiles, pending launches, open and closed gateway records (oldest first, at most
64), the replay count of the attempt that runs, and the steps committed, the attempts begun
and not rolled back, and those rolled back, by job; the plan loads under way
by source. -/
structure Plans where
  slot0 : Slot
  slot1 : Slot
  tiles : PMap (Fin 64) Tile
  launches : List Launch
  opens : List OpenRec
  records : List StepRec
  qrec : PMap (Fin 4) StepRec
  replay : PMap (Nat × Nat) Nat
  committed : List (Nat × Nat)
  tried : List (Nat × Nat × Nat)
  rolled : List (Nat × Nat × Nat)
  loads : PMap Origin LoadBuf
  deriving DecidableEq, Repr

def Plans.reset : Plans := ⟨Slot.empty, Slot.empty, [], [], [], [], [], [], [], [], [], []⟩

/-! ## Power (R229 to R231) -/

/-- The ceiling c in units of 1/1375 of 0.5 % (so that W/ms over a superframe is whole), the ramp that runs, the ramps
declared and not begun, the power figures of the latest sample, and the tiles' temperatures in 1/16 °C. -/
structure Power where
  ceil : Nat
  running : Option Ramp
  queued : List Ramp
  lastRamp : Ramp
  module : Nat
  tensor : Nat
  demand : Nat
  avg1s : Nat
  capHold : Bool
  slewHold : Bool
  throttle : Nat
  overSf : Option Nat
  temps : PMap (Fin 64) Int
  deriving DecidableEq, Repr

/-- R232: whether a declared ramp is moving the ceiling, which is in units of 0.5 % of 1,100 W ÷ 1,375. -/
def Power.ramping (p : Power) : Bool := match p.running with | some r => p.ceil != 1375 * r.target | none => false

def Power.reset : Power := ⟨0, none, [], ⟨0, 0, 0, 0⟩, 0, 0, 0, 0, false, false, 100, none, []⟩

/-! ## What leaves the gateway -/

/-- R286: a dual-polarisation symbol: the levels of I and Q on X and on Y. -/
structure Symbol where
  xi : Int
  xq : Int
  yi : Int
  yq : Int
  deriving DecidableEq, Repr

/-- One thing the gateway does to the outside, in order: an MSI-X message with its address and data, a write of a completion slot
or of the tail to host memory, the answer to a register read, a word read over I3C, a packet on a fabric port, an in-band
interrupt of the I3C target,
an edge of a pulse output (its superframe and the nanoseconds into it), the answers to PCIe configuration requests (retry
status, or a value), a superframe header or a frame on a transmit slot of the line, and the symbols of a whole superframe there. -/
inductive Emission where
  | msix (v addr : Nat) (data : Word)
  | hostSlot (addr : Nat) (p : Packet)
  | hostTail (addr : Nat) (tail : Nat)
  | readAnswer (off : Nat) (v : Word)
  | unsupported (off : Nat)
  | i3cWord (w : Word)
  | fabric (port : Fin 64) (p : EgPkt)
  | ibi
  | pulse (o : Fin 16) (level : Bool) (sf ns : Nat)
  | retry
  | config (off : Nat) (v : Word)
  | header (slot : Fin 4 × Fin 18) (bytes : Bytes)
  | frame (slot : Fin 4 × Fin 18) (bytes : Bytes)
  | symbols (pair : Fin 4) (slot : Fin 4 × Fin 18) (sf : Nat) (l : List Symbol)
  deriving DecidableEq, Repr

/-! ## Recovery and the error log (R418 to R441) -/

/-- R435: one entry of the device error log. `extra` holds bytes 32 to 63. -/
structure LogEnt where
  sf : Nat
  code : Nat
  kind : Nat
  level : Nat
  page : Nat
  info : Word
  serial : Nat
  ciid : BitVec 64
  extra : Bytes
  deriving DecidableEq, Repr

/-- R434, R441: the error log: the ring and the flash store, oldest entry first, and EL_STATUS.WRAPPED. -/
structure Elog where
  ring : List LogEnt
  flash : List LogEnt
  wrapped : Bool
  deriving DecidableEq, Repr

def Elog.reset : Elog := ⟨[], [], false⟩

/-- R420: an event in the recovery sequencer: the level it enters, its code, the attempt it names and its subject. -/
structure SeqEvent where
  level : Nat
  code : Nat
  ciid : BitVec 64
  subject : Nat
  deriving DecidableEq, Repr

/-- R436: one roster entry: 0 NONE, 1 ACTIVE, 2 PROVING, 3 RETIRED, and the fingerprint. -/
structure RosterEnt where
  st : Nat
  fp : BitVec 64
  deriving DecidableEq, Repr

/-- R420 to R423: the recovery of one job at the master: its level (0: none), code, subject and serial, the step z rolled
back, the replay count assigned and the superframe of its RECOVER, the requests waiting (newest last), the gateways whose
RECOVER_DONE it holds with the step each reports, the step y of R423, the counts reported by step, and the spans of steps
rolled back so far with the count that replaced them: a request for such an attempt is covered (R421). -/
structure JobRec where
  level : Nat
  code : Nat
  subject : Nat
  serial : Nat
  step : Nat
  count : Nat
  startSf : Nat
  waiting : List SeqEvent
  done : PMap Nat Nat
  maxCount : PMap Nat Nat
  cover : List (Nat × Nat × Nat)
  started : PMap Nat Nat
  deriving DecidableEq, Repr

def JobRec.none : JobRec :=
  { level := 0, code := 0, subject := 0, serial := 0, step := 0, count := 0, startSf := 0, waiting := [], done := [],
    maxCount := [], cover := [], started := [] }

/-- R427: a RESUME received whose Rz has not come: job, step z, count, Rz and y. -/
structure Resume where
  job : Nat
  step : Nat
  count : Nat
  rz : Nat
  last : Nat
  deriving DecidableEq, Repr

/-- R438: a proving under way at the master: the subject, the phase (0 none, 1 to 4, 5 failed), the reason, the incumbent,
the superframe in which the phase began, the digests received by sender, phase, matrix or step and quantity, and the pairs that differed once. -/
structure Prove where
  subject : Nat
  phase : Nat
  reason : Nat
  incumbent : Nat
  startSf : Nat
  digests : PMap (Nat × Nat × Nat × Nat) Nat
  differed : List (Nat × Nat)
  deriving DecidableEq, Repr

def Prove.none : Prove := ⟨0, 0, 0, 0, 0, [], []⟩

/-- R420 to R440: the recovery sequencer: the level in force by job at this gateway, the master's recoveries by job, the
highest serial seen, the gateway's own message serial, messages already acted on (R426), messages owed to a master not
known, messages the master owes itself, messages a master without quorum holds (R428), the LIVE
messages received (superframe and D_link by gateway), the gateways declared lost, RESUMEs that wait for Rz, the step,
count, subject and code that RS_STEP and RS_SUBJECT show, the charges of each tile (R433), the run of failed audits with
whether a rollback came since the last, the superframes since which plans are held, and a proving. `quarGws` are the
gateways that have reported a quarantined tile, `fpNew` the roster entries whose fingerprint has been written since their state
was, `watchSf` the superframe since which this gateway is master, `adopted` the announcement it last reported to (R429);
`compute` the slot of a proving plan that runs and `pdig` the digests of its steps (R438); `repFor` the candidates this gateway
has begun to replicate to, `stDue` the digests it owes once its replicas are acknowledged (job, matrix, quantity, candidate), and
`stSent` the quantities whose digests it has sent as a candidate. -/
structure Rseq where
  level : PMap Nat Nat
  jobs : PMap Nat JobRec
  serial : Nat
  msgSerial : Nat
  dups : List (Nat × Nat × Nat)
  ctls : List Ctl
  owed : List Msg
  loop : List Msg
  held : List Msg
  live : PMap Nat (Nat × Nat)
  lost : List Nat
  resumes : List Resume
  halted : List Nat
  showStep : Nat
  showCount : Nat
  showSubject : Nat
  showCode : Nat
  charges : PMap (Fin 64) (List Nat)
  auditRun : Nat
  rolledSince : Bool
  heldSf : PMap Nat Nat
  lastDone : PMap Nat Rcv
  prove : Prove
  quarGws : List Nat
  fpNew : List Nat
  watchSf : Option Nat
  adopted : Option Nat
  compute : Option Nat
  pdig : PMap Nat Nat
  repFor : List Nat
  stDue : List (Nat × Nat × Nat × Nat)
  stSent : List (Nat × Nat × Nat)
  deriving DecidableEq, Repr

def Rseq.reset : Rseq :=
  { level := [], jobs := [], serial := 0, msgSerial := 0, dups := [], ctls := [], owed := [], loop := [], held := [],
    live := [], lost := [], resumes := [], halted := [], showStep := 0, showCount := 0, showSubject := 0, showCode := 0,
    charges := [], auditRun := 0, rolledSince := false, heldSf := [], lastDone := [], prove := Prove.none, quarGws := [],
    fpNew := [], watchSf := none, adopted := none, compute := none, pdig := [], repFor := [], stDue := [], stSent := [] }

/-! ## Line time (R399 to R406) -/

/-- R399: the line time states. -/
inductive LtSt where
  | free | acquiring | locked | holdover | master
  deriving DecidableEq, Repr

/-- R402: an announcement. -/
structure Ann where
  serial : BitVec 32
  prio : Nat
  gw : Nat
  deriving DecidableEq, Repr



/-- R399 to R406: line time: state, announcement held, parent link, hop count, the domain's D and the largest SERIAL
seen; θ of the parent and the run of superframes with it within LOCK_NS; the rate adjustment in 10^−12 and its last 1,024
values as a follower; the superframes since which the parent offers nothing and since which no header carried a HOPS other
than 0xFF; an episode of slewing; a hand-over and a change of domain that wait for the boundary; the D that a former parent
carried; whether the first boundary in ACQUIRING, and the boundary that takes the count from PTP time (R406), are still to
come. -/
structure Lt where
  st : LtSt
  ann : Option Ann
  parent : Option LinkId
  hops : Nat
  d : Nat
  maxSerial : BitVec 32
  ofs : Nat
  theta : Int
  lockRun : Nat
  freq : Int
  freqs : List Int
  lossSf : Option Nat
  quietSf : Option Nat
  slewing : Bool
  take : Bool
  toFree : Bool
  parentD : Option Nat
  join : Bool
  ptpSet : Bool
  deriving DecidableEq, Repr

def Lt.reset : Lt :=
  { st := .free, ann := none, parent := none, hops := 0xFF, d := 0, maxSerial := 0, ofs := 0, theta := 0, lockRun := 0,
    freq := 0, freqs := [], lossSf := none, quietSf := none, slewing := false, take := false, toFree := false,
    parentD := none, join := false, ptpSet := false }

/-- R407, R408: PTP: whether the servo is locked, the chosen port, the mapping at the latest boundary (seconds, nanoseconds,
rate in 10^−12, superframe), and the time stamps of the exchange under way: t1 of Sync, t2 of its receipt, t3 of Delay_Req,
t4 of Delay_Resp; a two-step Sync that waits for its Follow_Up; the sequence numbers of the latest Sync and
Delay_Req; the exchanges completed; the announcements held by port. -/
structure Ptp where
  valid : Bool
  port : Option (Fin 64)
  s : Nat
  ns : Nat
  rate : Int
  sf : Nat
  t1 : Option Nat
  t2 : Option Nat
  t3 : Option Nat
  t4 : Option Nat
  twoStep : Bool
  syncSeq : Nat
  reqSeq : Nat
  runs : Nat
  foreign : PMap (Fin 64) Bytes
  deriving DecidableEq, Repr

def Ptp.reset : Ptp :=
  { valid := false, port := none, s := 0, ns := 0, rate := 0, sf := 0, t1 := none, t2 := none, t3 := none, t4 := none,
    twoStep := false, syncSeq := 0, reqSeq := 0, runs := 0, foreign := [] }

/-- R409, R411: a time stamp: an identifier (or the edge's direction with the FREE bit), superframe and offset. -/
structure Stamp where
  id : Nat
  sf : Nat
  ofs : Nat
  deriving DecidableEq, Repr

/-- R409: a port's transmit time-stamp queue. -/
structure Tsq where
  ents : List Stamp
  ovf : Bool
  deriving DecidableEq, Repr

/-- R410, R411: the timing pins: the pulse outputs whose one-shot has been given since its registers applied, the superframe in which
the present values of each output applied, the level of each output, the trailing edge that an output's pulse in progress still
owes (its instant in ns and the level it takes), and the queues of the timing inputs. -/
structure Tio where
  fired : List (Fin 16)
  since : PMap (Fin 16) Nat
  level : PMap (Fin 16) Bool
  ends : PMap (Fin 16) (Int × Bool)
  evts : PMap (Fin 4) Tsq
  deriving DecidableEq, Repr

def Tio.reset : Tio := ⟨[], [], [], [], []⟩

/-! ## The outer-step service (R237 to R259) -/

/-- R237: one entry of a job table. -/
structure Matrix where
  matrix : Nat
  rows : Nat
  cols : Nat
  home : Nat
  partner : Nat
  rule : Nat
  wType : Nat
  dType : Nat
  delivType : Nat
  mu : Nat
  keep : Nat
  stepw : Nat
  hW0 : Nat
  hW1 : Nat
  hM : Nat
  hD : Nat
  pW0 : Nat
  pW1 : Nat
  pM : Nat
  pD : Nat
  deriving DecidableEq, Repr

/-- R237 to R239: a job table: its digest, MODE.STRICT, the matrices, and the pond trays reserved for it. -/
structure JobTab where
  digest : BitVec 64
  strict : Bool
  mats : List Matrix
  req : Nat
  trays : List TrayId
  deriving DecidableEq, Repr

/-- R251: a state record that was sent and is kept until it is answered: REPL until its SACK, FETCH until its WDATA. -/
structure StSend where
  rcd : StRec
  sends : Nat
  sf : Nat
  deriving DecidableEq, Repr

/-- R253: a READY that the master holds. -/
structure Ready where
  gw : Nat
  epoch : Nat
  digest : BitVec 64
  deriving DecidableEq, Repr

/-- The outer-step service of one job. `epoch` is the current epoch c, `lost` says that a level 5 has withdrawn it until SET_EPOCH, `prev` whether c − 1 is readable, `pub` a publish notice held (epoch, P); `loads` what STATE_WRITE collects and `written` the
quantities whose initial write is complete, each by quantity, matrix and the epoch named; `outer` the outer step that runs (step, replay);
`momWritten` the momentum chunks its update has written; `marks` the partner's marks; `repl` the REPL chunks taken
with their VALUE_CHECK; `restore` the momentum chunks still to be restored after a rollback. -/
structure Job where
  tab : Option JobTab
  epoch : Nat
  prev : Bool
  switchSf : Nat
  pub : Option (Nat × Nat)
  loads : PMap (Nat × Nat × Nat) LoadBuf
  written : List (Nat × Nat × Nat)
  outer : Option (Nat × Nat)
  momWritten : List (Nat × Nat)
  marks : List (Nat × Nat)
  repl : PMap (Nat × Nat × Nat × Nat) Nat
  restore : List (Nat × Nat)
  readies : List Ready
  readySent : List Nat
  lost : Bool
  deriving DecidableEq, Repr

def Job.none : Job :=
  { tab := .none, epoch := 0, prev := false, switchSf := 0, pub := .none, loads := [], written := [],
    outer := .none, momWritten := [], marks := [], repl := [], restore := [], readies := [], readySent := [],
    lost := false }

/-! ## Compressed weight blocks (R260 to R282) -/

/-- R270: the states of a decode-table slot. -/
inductive TSt where
  | free | loading | resident | retiring
  deriving DecidableEq, Repr

/-- R270: one decode-table slot of a tile. -/
structure TSlot where
  st : TSt
  gen : Nat
  refs : Nat
  sym : Bytes
  deriving DecidableEq, Repr

def TSlot.reset : TSlot := ⟨.free, 0, 0, []⟩

/-- R271: a TABLE_LOAD that is being built, or waits its turn. -/
structure TLoad where
  seq : Nat
  org : Origin
  hdr : Header
  mask : Nat
  gen : Nat
  retire : Nat
  sym : Bytes
  slot : Nat
  deriving DecidableEq, Repr

/-- R260 to R264: a block image: its blocks in order, as header and payload bytes. `old` marks an image that is to be
released once the pulls accepted from it are harvested. -/
structure Image where
  id : Nat
  job : Nat
  matrix : Nat
  epoch : Nat
  elemType : Nat
  blocks : List Bytes
  old : Bool
  deriving DecidableEq, Repr

/-- What a block is expanded for: a pull under way, or the check of an image write (R262). -/
inductive DFor where
  | pull (seq : Nat)
  | check (id : Nat)
  deriving DecidableEq, Repr

/-- R273: a block in a tile's decoder queue, with the slot it references. -/
structure DBlock where
  what : DFor
  index : Nat
  bytes : Bytes
  slot : Option Nat
  deriving DecidableEq, Repr

/-- R262: an image write whose blocks are being expanded. -/
structure ImgCheck where
  seq : Nat
  org : Origin
  hdr : Header
  img : Image
  next : Nat
  outs : PMap Nat Bytes
  deriving DecidableEq, Repr

/-- R270 to R273: decode tables, decoder queues, images and their checks; and by tile the slot and generation of the table that
last became resident, as CFG_EPOCH holds them (R46). -/
structure Tdec where
  slots : PMap (Fin 64 × Nat) TSlot
  loads : List TLoad
  queues : PMap (Fin 64) (List DBlock)
  images : List Image
  checks : List ImgCheck
  imgSeq : Nat
  lastGen : PMap (Fin 64) Nat
  deriving DecidableEq, Repr

def Tdec.reset : Tdec := ⟨[], [], [], [], [], 0, []⟩

/-- R79, R253: what the master collects for a step: the HARVEST reports held. -/
structure Commit where
  job : Nat
  step : Nat
  replay : Nat
  gws : List Nat
  deriving DecidableEq, Repr

/-! ## The Llyn line (R283 to R315) -/

/-- A wavelength slot: its line group and its number (R283). -/
abbrev SlotId := Fin 4 × Fin 18

/-- R308: transmit states of a slot. -/
inductive TxSt where
  | off | train | up
  deriving DecidableEq, Repr

/-- R308: receive states of a slot. -/
inductive RxSt where
  | off | hunt | ready | up
  deriving DecidableEq, Repr

/-- R400: the TIME field of a superframe header. -/
structure TimeHdr where
  masterGw : Nat
  prio : Nat
  hops : Nat
  serial : BitVec 32
  hstate : Nat
  domain : Nat
  ptpS : Nat
  ptpNs : Nat
  ptpValid : Bool
  d : Nat
  deriving DecidableEq, Repr

/-- What a valid header said of its slot (R288, R312): its superframe and when it came, the peer's states of the slot, the
echo of our header, and the dispersion the peer measured; with the arrival timestamp against its superframe in ps and our
own dispersion measurement. -/
structure HdrIn where
  sf : Nat
  atSf : Nat
  txs : Nat
  rxs : Nat
  echoSf : Nat
  echoRx : Int
  cdPeer : Int
  echoAt : Nat
  cmd : Nat
  cmdSf : Nat
  rx : Int
  cd : Int
  time : TimeHdr
  deriving DecidableEq, Repr

/-- One wavelength slot: states and reasons (R308, R309), the superframe of the last change, the latest valid header,
headers missed since, whether a header came in this superframe, the runs of clean and of bad superframes, decoding figures of
the current and the last superframe (R316), failed slots as superframe and slot (R292), whether the receiver has lost delineation
(R289), the UP_AT launched (R310), the deskew, the header of the superframe under way, and the transmit buffer: the size of what is left
of the frame in progress, the sizes of the frames behind it, and the bytes of all of them. -/
structure LSlot where
  tx : TxSt
  rx : RxSt
  txWhy : Nat
  rxWhy : Nat
  changeSf : Nat
  last : Option HdrIn
  missing : Nat
  seen : Bool
  clean : Nat
  bad : Nat
  flips : Nat
  fails : Nat
  itmax : Nat
  ber : Nat
  lastFails : Nat
  lastIt : Nat
  failed : List (Nat × Nat)
  hunting : Bool
  upAt : Option Nat
  skew : Nat
  txHdr : Bytes
  txRes : Nat
  txq : List Nat
  txData : Bytes
  deriving DecidableEq, Repr

def LSlot.reset : LSlot :=
  { tx := .off, rx := .off, txWhy := 0, rxWhy := 0, changeSf := 0, last := none, missing := 0, seen := false, clean := 0,
    bad := 0, flips := 0, fails := 0, itmax := 0, ber := 0, lastFails := 0, lastIt := 0, failed := [], hunting := true,
    upAt := none, skew := 0, txHdr := [], txRes := 0, txq := [], txData := [] }

/-- R300, R303: a DATA frame that is retained until it is acknowledged. -/
structure RetFrame where
  vc : Nat
  seq : BitVec 32
  body : Bytes
  sf : Nat
  retx : Nat
  queued : Bool
  deriving DecidableEq, Repr

/-- R305, R306: a received frame some units of which have not been taken: its VC, SEQ and cost. A frame above a gap of VC0 or
VC6 waits with its units. -/
structure RxFrame where
  vc : Nat
  seq : BitVec 32
  cost : Nat
  bytes : Nat
  units : List LUnit
  deriving DecidableEq, Repr

/-- A delivered unit that its layer has not yet taken (R305, R307); `unver` marks one released before its tag verified
(R338). -/
structure Unit where
  link : LinkId
  vc : Nat
  seq : BitVec 32
  unver : Bool
  body : LUnit
  deriving DecidableEq, Repr

/-- The counts of one sequenced virtual channel of a link (R299, R306); `topSf` is the latest transmission of a frame that an ACK
has reported as received (R303); `recv` sums the costs of the distinct frames received (R390). -/
structure VcLine where
  nextSeq : BitVec 32
  sent : BitVec 32
  returned : BitVec 32
  grant : Nat
  acked : BitVec 32
  cum : BitVec 32
  above : List (BitVec 32)
  ret : BitVec 32
  held : Nat
  topSf : Nat
  recv : BitVec 32
  deriving DecidableEq, Repr

/-- One link (R311): LOST, the retained frames, the counts by VC, frames received with units not taken, whether a DATA frame
came in this superframe and when the last ACK went (R302), the RET_FULL episode, and the figures of R312. -/
structure LLink where
  lost : Bool
  en : Bool
  ret : List RetFrame
  vcs : PMap Nat VcLine
  rx : List RxFrame
  gotData : Bool
  ackSf : Nat
  validSf : Nat
  theta : Int
  delay : Int
  domainSeen : Bool
  deriving DecidableEq, Repr

def LLink.reset : LLink :=
  { lost := false, en := false, ret := [], vcs := [], rx := [], gotData := false, ackSf := 0, validSf := 0, theta := 0,
    delay := 0, domainSeen := false }

/-- The line: slots, links, delivered units, RET_FULL episodes by line group, and what the scheduler of R137 keeps by line
group and VC: the bytes that shaped VC0 and VC1 may still launch in this superframe, and the bytes that each weighted VC has
launched in it. -/
structure Line where
  slots : PMap SlotId LSlot
  links : PMap LinkId LLink
  inbox : List Unit
  retFull : List (Fin 4)
  tokens : PMap (Fin 4 × Nat) Int
  served : PMap (Fin 4 × Nat) Nat
  deriving DecidableEq, Repr

def Line.reset : Line := ⟨[], [], [], [], [], []⟩

/-! ## Line encryption (R318 to R343) -/

/-- A derived line key with its salt (R333), and the superframe in which it took effect. -/
structure LKey where
  id : Nat
  key : Bytes
  salt : Bytes
  since : Nat
  deriving DecidableEq, Repr

/-- R336: where a handshake stands. -/
inductive HsSt where
  | signHello | sentHello | verifyHello | signAccept | sentAccept | verifyAccept | sentConfirm | sentDone
  deriving DecidableEq, Repr

/-- R334: a handshake of a link: whether this gateway is its initiator, its session, the proposed KEY_ID, messages and nonces,
the ML-KEM decapsulation key, the 140 derived bytes, the switch superframe, when the last message went, and whether CONFIRM
was checked. -/
structure Hs where
  st : HsSt
  init : Bool
  session : Nat
  keyId : Nat
  hello : Bytes
  accept : Bytes
  dk : Bytes
  derived : Bytes
  sw : Option Nat
  lastSf : Nat
  confirmed : Bool
  deriving DecidableEq, Repr

/-- The cipher state of one link: transmit key and counters (R322), receive keys and last counters (R323, R330), the slots on
which a frame under the new key has verified and the end of the drain interval (R335), the handshake and the fragments of
key messages, the retry time, HS_STATUS, the session serial, whether an alarm ended a session, and a switch that waits for its
superframe with the new keys of both directions (R334). -/
structure LCiph where
  tx : Option LKey
  ctr : PMap Nat Nat
  due : Bool
  exhausted : List Nat
  rx : Option LKey
  rxOther : Option LKey
  last : PMap (Nat × Nat) Nat
  verified : List Nat
  drain : Option Nat
  hs : Option Hs
  frags : PMap (Nat × Nat × Nat) Bytes
  retrySf : Option Nat
  result : Nat
  reason : Nat
  count : Nat
  session : Nat
  alarmed : Bool
  pendSw : Option (Nat × LKey × LKey)
  deriving DecidableEq, Repr

def LCiph.reset : LCiph :=
  { tx := none, ctr := [], due := false, exhausted := [], rx := none, rxOther := none, last := [], verified := [],
    drain := none, hs := none, frags := [], retrySf := none, result := 0, reason := 0, count := 0, session := 0,
    alarmed := false, pendSw := none }

/-- R337: a frame in a quadrant's tag-hold buffer, or one released early (R338) whose tag is still checked. -/
structure HeldFrame where
  link : LinkId
  slot : Fin 18
  hdr : Bytes
  cipher : Bytes
  tag : Bytes
  early : Bool
  deriving DecidableEq, Repr

/-- The cipher farms: links, held frames by quadrant, clusters out of service by quadrant and direction (R327), early-release
episodes and high-water marks by quadrant, and the alarm state: sources seen and active, ERASED, and the superframe in
which a source was last active while an erasure lasts (R341, R342), and the number of random bytes drawn. -/
structure Ciph where
  links : PMap LinkId LCiph
  hold : PMap (Fin 4) (List HeldFrame)
  out : PMap (Fin 4 × Fin 2) Nat
  early : List (Fin 4)
  maxKib : PMap (Fin 4) Nat
  src : BitVec 4
  active : BitVec 4
  erased : Bool
  erasing : Option Nat
  draws : Nat
  deriving DecidableEq, Repr

def Ciph.reset : Ciph := ⟨[], [], [], [], [], 0, 0, false, none, 0⟩


/-! ## Light (R345 to R374) -/

/-- R349: the states of a cartridge bay. -/
inductive CartSt where
  | empty | powering | auth | ready | refused | releasing | safe
  deriving DecidableEq, Repr

/-- R349: a cartridge bay: state, presence, certification, serial and laser count of its cartridge, the nonce sent, the
superframe in which it was sent, and the feed's power in 0.1 W. -/
structure Cart where
  st : CartSt
  present : Bool
  certified : Bool
  serial : BitVec 64
  lasers : Nat
  nonce : Bytes
  sinceSf : Nat
  power : Nat
  deriving DecidableEq, Repr

def Cart.empty : Cart := ⟨.empty, false, false, 0, 0, [], 0, 0⟩

/-- R370: the states of a laser. -/
inductive LaserSt where
  | absent | dark | tuning | lit | failed
  deriving DecidableEq, Repr

/-- R351, R352: a laser: state, the last 64 samples of its power in 0.01 dBm, newest first, P0, whether the next lock is a
commissioning lock, the fade level reached (0 to 3), and the frequency in MHz. -/
structure Laser where
  st : LaserSt
  hist : List Int
  p0 : Option Int
  fresh : Bool
  level : Nat
  mhz : Nat
  deriving DecidableEq, Repr

def Laser.absent : Laser := ⟨.absent, [], none, false, 0, 0⟩

/-- R353 to R357: the ring of one slot on one bus: its number, the stored shift in GHz with the die temperature in 1/16 °C at
the search, whether it is locked, failed relocks since the loss, and whether RING_DEAD was raised for this loss. -/
structure Ring where
  ring : Nat
  shift : Nat
  temp : Int
  locked : Bool
  lost : Bool
  fails : Nat
  deriving DecidableEq, Repr

def Ring.none : Ring := ⟨31, 0, 0, false, false, 0⟩

/-- R361 to R363: a spare insertion of a link. `early` marks an end whose slot k left UP; the lists hold the DATA frames that
arrived on k and on s in the comparison, by VC and SEQ, with their bodies. -/
structure Insert where
  phase : Nat
  slot : Fin 18
  spare : Fin 18
  init : Bool
  w : Nat
  d : Nat
  accLocal : Bool
  accPeer : Bool
  spareBad : Bool
  early : Bool
  onK : List (Nat × BitVec 32 × Bytes)
  onS : List (Nat × BitVec 32 × Bytes)
  miss : Nat
  diff : Nat
  deriving DecidableEq, Repr

/-- R372: one fabric port's physical layer: link state (0 DOWN, 1 TRAINING, 2 UP), locked lanes, relocks, received power. -/
structure Phy where
  link : Nat
  locked : BitVec 4
  relocks : Nat
  rxp : Word
  fails : Nat
  deriving DecidableEq, Repr

def Phy.reset : Phy := ⟨0, 0, 0, 0, 0⟩

/-- R368: an apply of the router that runs: bank, changed entries, start, and whether the previous entries are restored. -/
structure WrtRun where
  bank : Nat
  changed : List (Fin 4 × Fin 18)
  startSf : Nat
  restoring : Bool
  deriving DecidableEq, Repr

/-- R366 to R368, R373: the wavelength router, whose entries stand in the WRT page's registers: the active bank, the last reason, the run, and
the last apply's duration in µs and changed entries. -/
structure Wrt where
  active : Nat
  reason : Nat
  run : Option WrtRun
  lastUs : Nat
  lastChanged : Nat
  deriving DecidableEq, Repr

def Wrt.reset : Wrt := ⟨0, 0, none, 0, 0⟩

/-- Light: bays (0 fabric, 1 line), lasers by bay and number, P0 values kept in flash by bay, serial and laser; rings by slot
and bus, relocks by slot, retired slots, slots that no search assigned, groups that search, the received power and OSNR by
slot; insertions, crossings that wait, retries and lasers to switch off with their superframes; the feed-forward shift in kHz by
group; the fabric ports, the source of each half engine (0 working, 1 spare, 2 none), and the router. -/
structure Light where
  carts : PMap (Fin 2) Cart
  lasers : PMap (Fin 2 × Nat) Laser
  p0s : PMap (Nat × Nat × Nat) Int
  rings : PMap (SlotId × Fin 4) Ring
  relocks : PMap SlotId Nat
  retired : List SlotId
  dropped : List SlotId
  searching : List (Fin 4)
  rxInfo : PMap SlotId Word
  ins : PMap LinkId Insert
  waits : List (LinkId × Fin 18)
  retries : List (LinkId × Fin 18 × Nat)
  offs : List (SlotId × Nat)
  ff : PMap (Fin 4) Int
  phys : PMap (Fin 64) Phy
  halves : PMap (Fin 4 × Fin 2 × Fin 2) Nat
  wrt : Wrt
  deriving DecidableEq, Repr

def Light.reset : Light :=
  { carts := [], lasers := [], p0s := [], rings := [], relocks := [], retired := [], dropped := [], searching := [],
    rxInfo := [], ins := [], waits := [], retries := [], offs := [], ff := [], phys := [], halves := [],
    wrt := Wrt.reset }

/-! ## Audits (R390 to R392) and the module (R489 to R494) -/

/-- R391, R392, R397: the ledger: the superframe of the snapshot of the audit under way, the boundary last handled, the latest
audit's superframe, its result, the audits passed, its duration in µs, and the cells it counted as pending and as unlimited;
what the checks on the snapshot find (row, quadrant, instance), in the order of R390; and what the next snapshot is compared
with: the trays in transfer, the cipher counters by link, direction, slot and KEY_ID, and the superframes in which steps were
committed here. -/
structure Ledger where
  running : Option Nat
  atSf : Option Nat
  last : Nat
  ok : Bool
  passed : Nat
  us : Nat
  pending : Nat
  unlimited : Nat
  fails : List (Nat × Nat × Nat)
  xfers : List TrayId
  ctrs : PMap (LinkId × Nat × Nat × Nat) Nat
  commitSf : PMap (Nat × Nat) Nat
  deriving DecidableEq, Repr

def Ledger.reset : Ledger :=
  { running := none, atSf := none, last := 0, ok := false, passed := 0, us := 0, pending := 0, unlimited := 0, fails := [],
    xfers := [], ctrs := [], commitSf := [] }

/-- R491: the temperatures of the three sensor classes in 1/16 °C (die, pond, line engine) and of each quadrant's hottest sensor, the
classes at or above their warning, the classes whose limit holds the ceiling down, whether ALARM_SUM bit 2 stands (R59), and the
input voltage in mV and current in mA. -/
structure Therm where
  die : Int
  pond : Int
  line : Int
  quads : PMap (Fin 4) Int
  warn : List (Fin 3)
  limit : List (Fin 3)
  alarm : Bool
  vIn : Nat
  iIn : Nat
  deriving DecidableEq, Repr

def Therm.reset : Therm := ⟨0, 0, 0, [], [], [], false, 0, 0⟩

/-! ## Start-up (R443 to R469, R482) -/

/-- R451, R454: a committed object: its interface epoch, key index, build, body hash, body, and the whole container. -/
structure ImgObj where
  epoch : Nat
  key : Nat
  build : Nat
  hash : Bytes
  body : Bytes
  whole : Bytes
  deriving DecidableEq, Repr

/-- R443 to R469: the running microcode's interface epoch (R203); whether VIN is present, regulation has been reached, the
fuse is open and a thermal trip holds the switch open; the boot stage; the identity: state, further reads, cause, worst block,
fingerprint and flash key; staged and committed objects by kind, kinds whose last commit was refused; the last BOOT_GO with its
status and the start-up it began (mode); times in ms; the objects stored in flash, records ignored, the module serial;
GDDR7 devices trained by quadrant; the application cores, CCF and the superframes since it started; PERST# and the host link;
the flash records that a loss of power tore (0 the P0 table, 1 the error log). -/
structure Boot where
  tsmEpoch : Nat
  vin : Bool
  reg : Bool
  fuse : Bool
  trip : Bool
  stage : Nat
  idState : Nat
  reads : Nat
  cause : Nat
  worst : Nat
  fp : BitVec 64
  flashKey : Bytes
  attest : Bytes
  helper : Bytes
  chain : Bytes
  staged : PMap Nat LoadBuf
  objs : PMap Nat ImgObj
  refused : List Nat
  lastMode : Nat
  lastCode : Nat
  going : Option Mode
  waiver : Bool
  bareMs : Nat
  goMs : Nat
  stored : PMap Nat Bytes
  macFail : Nat
  serial : BitVec 64
  wear : Nat
  devOk : PMap (Fin 4) (BitVec 8)
  cores : BitVec 8
  ccf : Bool
  beat : Nat
  perst : Bool
  hostUp : Bool
  torn : List Nat
  deriving DecidableEq, Repr

def Boot.reset : Boot :=
  { tsmEpoch := 0, vin := false, reg := false, fuse := false, trip := false, stage := 0, idState := 0, reads := 0,
    cause := 0, worst := 0, fp := 0, flashKey := [], attest := [], helper := [], chain := [], staged := [], objs := [],
    refused := [], lastMode := 0, lastCode := 0, going := none, waiver := false, bareMs := 0, goMs := 0, stored := [],
    macFail := 0, serial := 0, wear := 0, devOk := [], cores := 0, ccf := false, beat := 0, perst := false,
    hostUp := false, torn := [] }

/-! ## The whole state -/

/-- The gateway. `late` is MAX_LATE by quadrant (R415), `rr` the weighted queue under visit by port (R136), `pondBw` the units of
64 bytes that line and other traffic moved in the last superframe, and `pondCtr` their counters at its end (R395). `clk` lists,
while the events of one clock are raised, the pages that have captured a first error in it (R49). -/
structure State where
  pending : List Instr
  mode : Option Mode
  sf : Nat
  pages : PMap PageId Page
  ctr : PMap (PageId × Nat) Nat
  out : List Emission
  cpw : Cpw
  i3c : I3c
  fab : Fab
  trays : Trays
  mem : List Host.Cell
  win : List Host.Cell
  poison : List (Nat × Nat)
  coll : Coll
  plans : Plans
  power : Power
  egress : PMap (Fin 64 × Fin 32) EgQueue
  elog : Elog
  rseq : Rseq
  lt : Lt
  refills : Nat
  police : PMap (Fin 64 × Nat) Int
  rr : PMap (Fin 64) Nat
  lineTx : PMap (LinkId × Nat) (List LUnit)
  outer : PMap Nat Job
  stTx : List StSend
  stTag : Nat
  tdec : Tdec
  commits : List Commit
  line : Line
  ciph : Ciph
  boot : Boot
  ptp : Ptp
  tsq : PMap (Fin 64) Tsq
  tio : Tio
  late : PMap (Fin 4) Nat
  light : Light
  ledger : Ledger
  therm : Therm
  pondBw : PMap (Fin 4) (Nat × Nat)
  pondCtr : PMap (Fin 4) (Nat × Nat)
  pondPrio : List (Fin 4)
  msix : Msix
  clk : Option (List PageId)
  deriving DecidableEq, Repr

namespace State

/-- The machine right after reset. -/
def reset : State :=
  { pending := [], mode := none, sf := 0, pages := [], ctr := [], out := [], cpw := Cpw.reset, i3c := I3c.reset,
    fab := Fab.reset, trays := Trays.reset, mem := [], win := [], poison := [], coll := Coll.reset,
    plans := Plans.reset, power := Power.reset, egress := [], elog := Elog.reset,
    rseq := Rseq.reset, lt := Lt.reset, refills := 0, police := [], rr := [], lineTx := [],
    outer := [], stTx := [], stTag := 0, tdec := Tdec.reset, commits := [], line := Line.reset,
    ciph := Ciph.reset, boot := Boot.reset, ptp := Ptp.reset, tsq := [], tio := Tio.reset, late := [],
    light := Light.reset, ledger := Ledger.reset, therm := Therm.reset, pondBw := [],
    pondCtr := [], pondPrio := [], msix := Msix.reset, clk := none }

end State

/-- Reasons a step faults. -/
inductive Fault where
  /-- Raised by no meaning: every access the commands of this block make lies inside memory the spec gives it, or is
  refused with the code the spec gives. Safe: a fault never stands for an effect. -/
  | none
  deriving DecidableEq, Repr

/-- Reasons a step is refused. -/
inductive Refusal where
  /-- Raised by the arm of a command that has no meaning yet, under the command's name. Safe: nothing is proved of it. -/
  | notModelled (mnemonic : String)
  deriving DecidableEq, Repr

end Sys2Proof.Machine
end

