-- ==== Sys2Proof/Machine/Puf.lean ====
section
/-! DEFINITION. Machine/Puf.lean: the helper data and the reconstruction of the root from the PUF array (R446, R447): the binary
BCH(255, 131) code over GF(2^8), decoded up to 18 errors. -/
namespace Sys2Proof.Machine
open Sys2Proof

/-! ## GF(2^8) with x^8 + x^4 + x^3 + x^2 + 1 -/

/-- The product with x. -/
def gfX (a : Nat) : Nat := if a ≥ 128 then (2 * a) ^^^ 0x11D else 2 * a

/-- The product of two elements. -/
def gfMul (a b : Nat) : Nat :=
  ((List.range 8).foldl (fun (r : Nat × Nat) i => (if bit b i then r.1 ^^^ r.2 else r.1, gfX r.2)) (0, a)).1

/-- A power by repeated squaring over the bits of a byte. -/
def gfPow (a n : Nat) : Nat :=
  ((List.range 8).foldl (fun (r : Nat × Nat) i => (if bit n i then gfMul r.1 r.2 else r.1, gfMul r.2 r.2)) (1, a)).1

def gfInv (a : Nat) : Nat := gfPow a 254

/-- The primitive element's powers. -/
def alpha (n : Nat) : Nat := gfPow 2 (n % 255)

/-- A polynomial at a point, lowest degree first. -/
def polyAt (p : List Nat) (x : Nat) : Nat := p.foldr (fun c acc => gfMul acc x ^^^ c) 0

/-- A polynomial times an element and a power of x, added to another. -/
def polyAdd : List Nat → List Nat → List Nat
  | [], q => q
  | p, [] => p
  | a :: p, b :: q => (a ^^^ b) :: polyAdd p q

def polyScale (k m : Nat) (p : List Nat) : List Nat := List.replicate m 0 ++ p.map (gfMul k)

/-! ## Decoding -/

/-- The 36 syndromes of a word whose bit j is the coefficient of x^j. -/
def syndromes (w : List Bool) : List Nat :=
  (List.range 36).map (fun j => polyAt (w.map b2n) (alpha (j + 1)))

/-- What the Berlekamp–Massey iteration keeps: the error locator with its length, and the locator and discrepancy before the
length last changed, with the steps since. -/
structure Bm where
  c : List Nat
  b : List Nat
  l : Nat
  m : Nat
  d : Nat

/-- The discrepancy of the locator at a step. -/
def discrepancy (syn c : List Nat) (n l : Nat) : Nat :=
  (List.range (l + 1)).foldl (fun x i => if i ≤ n then x ^^^ gfMul (c.getD i 0) (syn.getD (n - i) 0) else x) 0

def bmStep (syn : List Nat) (s : Bm) (n : Nat) : Bm :=
  let d := discrepancy syn s.c n s.l
  if d = 0 then { s with m := s.m + 1 }
  else
    let c := polyAdd s.c (polyScale (gfMul d (gfInv s.d)) s.m s.b)
    if 2 * s.l ≤ n then ⟨c, s.c, n + 1 - s.l, 1, d⟩ else { s with c := c, m := s.m + 1 }

/-- R447: the codeword within 18 errors of a word, with the number of errors; none where there is no such codeword. -/
def bchDecode (w : List Bool) : Option (List Bool × Nat) :=
  let syn := syndromes w
  if syn.all (· == 0) then some (w, 0)
  else
    let r := (List.range 36).foldl (bmStep syn) ⟨[1], [1], 0, 1, 1⟩
    let errs := (List.range 255).filter (fun i => polyAt r.c (alpha (255 - i)) == 0)
    if r.l ≤ 18 && errs.length == r.l then
      let fixed := (List.range 255).map (fun i => w.getD i false != errs.contains i)
      if (syndromes fixed).all (· == 0) then some (fixed, errs.length) else none
    else none

/-- R447: the 131 information bits of a systematic codeword, highest degree first. -/
def infoBits (w : List Bool) : List Bool := (w.drop 124).reverse

/-- R446: cells in their order: cell j is bit j mod 8 of byte j ÷ 8. -/
def cellBits (b : Bytes) : List Bool := b.flatMap (fun x => (List.range 8).map (fun i => bit x.toNat i))

/-- Bits as bytes, the first bit the most significant. -/
def packBits : Nat → List Bool → Bytes
  | 0, _ => []
  | n + 1, l => BitVec.ofNat 8 ((l.take 8).foldl (fun a b => 2 * a + b2n b) 0) :: packBits n (l.drop 8)

/-- The blocks decoded in order: the information bits and the most errors corrected in one, up to the first that fails. -/
def decodeBlocks : Nat → List Bool → List Bool → Nat → Option (List Bool × Nat)
  | 0, _, acc, worst => some (acc, worst)
  | n + 1, l, acc, worst =>
    match bchDecode (l.take 255) with
    | none => none
    | some (w, e) => decodeBlocks n (l.drop 255) (acc ++ infoBits w) (max worst e)

/-! ## The helper data (R446) -/

/-- R446: whether a helper data record is well formed. -/
def helperOk (h : Bytes) : Bool :=
  h.length == 4132 && beAt h 0 4 == 0x42505546 && byteAt h 4 == 1 && beAt h 4128 4 == crc32c (h.take 4128)

def sgCheck : Bytes := [0x53, 0x47, 0x34, 0x34, 0x20, 0x63, 0x68, 0x65, 0x63, 0x6B]
def sgAttest : Bytes := [0x53, 0x47, 0x34, 0x34, 0x20, 0x61, 0x74, 0x74, 0x65, 0x73, 0x74, 0x20, 0x76, 0x31]
def sgFlash : Bytes := [0x53, 0x47, 0x34, 0x34, 0x20, 0x66, 0x6C, 0x61, 0x73, 0x68, 0x20, 0x76, 0x31]

/-- R447: the root from a read of the array, with the most errors corrected in one block; none where a block or KEY_CHECK
fails. -/
def reconstruct (helper cells : Bytes) : Option (Bytes × Nat) :=
  let word := (cellBits (cells.take 4080)).zip (cellBits (slice helper 8 4080))
  match decodeBlocks 128 (word.map (fun x => x.1 != x.2)) [] 0 with
  | none => none
  | some (bits, worst) =>
    let root := hmac (slice helper 4088 32) (packBits 2096 bits)
    if (hmac root sgCheck).take 8 = slice helper 4120 8 then some (root, worst) else none

end Sys2Proof.Machine
end

