-- ==== Sys2Proof/Machine/Num.lean ====
section
/-! DEFINITION. Machine/Num.lean: number formats and arithmetic (the spec's file 07): element types, decoding to
FP32, crystalliser and tensor-unit arithmetic, scale selection, rounding, the draw generator and encoding. FP32
values are held as their 32-bit patterns; in between every value is exact. -/
namespace Sys2Proof.Machine
open Sys2Proof

/-- R197: how many elements raised each arithmetic flag, and the unit and cause of the first INVALID
(R198: unit 0 to 4; cause 0 when there was none), with its block and the index of its element. -/
structure Flg where
  inv : Nat
  sat : Nat
  ovf : Nat
  unf : Nat
  inx : Nat
  fls : Nat
  unit : Nat
  cause : Nat
  blk : Nat
  idx : Nat
  deriving DecidableEq, Repr

def Flg.zero : Flg := ⟨0, 0, 0, 0, 0, 0, 0, 0, 0, 0⟩

/-- R199: whether the INVALID of `a` is captured before that of `b`: the lower UNIT, then the lower BLOCK, then the lower KGROUP. The
INVALIDs that one command raises count as those of one clock (DEDUCED, entry 89). -/
def Flg.leads (a b : Flg) : Bool :=
  a.cause != 0 && (b.cause == 0 || a.unit < b.unit ||
    (a.unit == b.unit && (a.blk < b.blk || (a.blk == b.blk && a.idx / 32 ≤ b.idx / 32))))

/-- The INVALID of a pair of flags that is captured, with the counts of the first. -/
def Flg.lead (a b : Flg) : Flg :=
  if a.leads b then a else { a with unit := b.unit, cause := b.cause, blk := b.blk, idx := b.idx }

/-- Flags of operations on different elements. -/
def Flg.add (a b : Flg) : Flg :=
  { a.lead b with inv := a.inv + b.inv, sat := a.sat + b.sat, ovf := a.ovf + b.ovf, unf := a.unf + b.unf,
                  inx := a.inx + b.inx, fls := a.fls + b.fls }

/-- R197: flags of the steps of one operation on one element, which counts once for each flag. -/
def Flg.or (a b : Flg) : Flg :=
  { a.lead b with inv := max a.inv b.inv, sat := max a.sat b.sat, ovf := max a.ovf b.ovf, unf := max a.unf b.unf,
                  inx := max a.inx b.inx, fls := max a.fls b.fls }

/-- The flags of one operation at an element index. -/
def Flg.at (f : Flg) (i : Nat) : Flg := { f with idx := i }

/-- Flags whose element indexes count from a later element on. -/
def Flg.shift (f : Flg) (n : Nat) : Flg := { f with idx := f.idx + n }

/-- Flags of an operation block (R198). -/
def Flg.inBlk (f : Flg) (n : Nat) : Flg := { f with blk := n }

/-- The flags of a list of results, each at its own index. -/
def flgSum {α : Type} (rs : List (α × Flg)) : Flg :=
  (rs.foldl (fun (p : Flg × Nat) r => (p.1.add (r.2.at p.2), p.2 + 1)) (Flg.zero, 0)).1

/-- The flags of a list of groups of 32 elements, each at its first element. -/
def flgSum32 {α : Type} (rs : List (α × Flg)) : Flg :=
  (rs.foldl (fun (p : Flg × Nat) r => (p.1.add (r.2.at p.2), p.2 + 32)) (Flg.zero, 0)).1

def Flg.invalid (unit cause : Nat) : Flg := { Flg.zero with inv := 1, unit := unit, cause := cause }
def Flg.satur : Flg := { Flg.zero with sat := 1 }

/-- The exact value (-1)^neg × m × 2^e. -/
structure Dy where
  neg : Bool
  m : Nat
  e : Int
  deriving DecidableEq, Repr

/-- A decoded number: an exact finite value, an infinity, or a NaN with its sign and its 23 FP32 mantissa bits. -/
inductive Num where
  | fin (d : Dy)
  | inf (neg : Bool)
  | nan (neg : Bool) (mant : Nat)
  deriving DecidableEq, Repr

/-- R177: the layout of a floating-point type: exponent and mantissa widths, bias, the largest finite magnitude
code, and whether the all-ones exponent holds infinities and NaNs (`ieee`), one NaN code only (`top`) or neither. -/
structure Fmt where
  eb : Nat
  mb : Nat
  bias : Int
  maxCode : Nat
  ieee : Bool
  top : Bool
  deriving DecidableEq, Repr

def fmtFp32 : Fmt := ⟨8, 23, 127, 0x7F7FFFFF, true, false⟩
def fmtBf16 : Fmt := ⟨8, 7, 127, 0x7F7F, true, false⟩
def fmtFp16 : Fmt := ⟨5, 10, 15, 0x7BFF, true, false⟩
def fmtE4M3 : Fmt := ⟨4, 3, 7, 0x7E, false, true⟩
def fmtE5M2 : Fmt := ⟨5, 2, 15, 0x7B, true, false⟩
def fmtE3M2 : Fmt := ⟨3, 2, 3, 0x1F, false, false⟩
def fmtE2M3 : Fmt := ⟨2, 3, 1, 0x1F, false, false⟩
def fmtE2M1 : Fmt := ⟨2, 1, 1, 0x7, false, false⟩

/-- R175: the element types, by code: bits of an element, whether it is an MX type (groups of 32 under a scale). -/
def typeOk (t : Nat) : Bool := t ∈ [0x01, 0x02, 0x03, 0x10, 0x11, 0x12, 0x13, 0x14, 0x15]
def isMx (t : Nat) : Bool := 0x10 ≤ t && t ≤ 0x15
def elemBits (t : Nat) : Nat :=
  match t with
  | 0x01 => 32 | 0x02 => 16 | 0x03 => 16 | 0x10 => 8 | 0x11 => 8 | 0x12 => 6 | 0x13 => 6 | 0x14 => 4 | 0x15 => 8
  | _ => 0

/-- R175: elements in a group and the bytes of an encoded group. -/
def groupElems (t : Nat) : Nat := if isMx t then 32 else 1
def groupBytes (t : Nat) : Nat := if isMx t then 1 + 4 * elemBits t else elemBits t / 8

/-- R181: the encoded size of E elements of a type. -/
def encSize (t e : Nat) : Nat := cdiv e (groupElems t) * groupBytes t

/-- R175: the bytes of the largest record chunk of a type: the largest whole number of groups in 8,192 bytes. -/
def recChunk (t : Nat) : Nat := if groupBytes t = 0 then 1 else 8192 / groupBytes t * groupBytes t

def fmtOf (t : Nat) : Fmt :=
  match t with
  | 0x01 => fmtFp32 | 0x02 => fmtBf16 | 0x03 => fmtFp16 | 0x10 => fmtE4M3 | 0x11 => fmtE5M2 | 0x12 => fmtE3M2
  | 0x13 => fmtE2M3 | _ => fmtE2M1

/-- R177: the number a code of a floating-point type stands for. NaN mantissas are widened to FP32's 23 bits. -/
def unpack (f : Fmt) (code : Nat) : Num :=
  let neg := code.testBit (f.eb + f.mb)
  let ex := fld code (f.eb + f.mb - 1) f.mb
  let man := code % 2 ^ f.mb
  let mag := code % 2 ^ (f.eb + f.mb)
  if f.ieee && ex + 1 == 2 ^ f.eb then
    if man = 0 then .inf neg else .nan neg (man * 2 ^ (23 - f.mb))
  else if f.top && mag + 1 == 2 ^ (f.eb + f.mb) then .nan neg (man * 2 ^ (23 - f.mb))
  else if ex = 0 then .fin ⟨neg, man, 1 - f.bias - f.mb⟩
  else .fin ⟨neg, man + 2 ^ f.mb, ex - f.bias - f.mb⟩

/-- The exponent of the leading bit of m × 2^e, for m > 0. -/
def dyLog (d : Dy) : Int := (d.m.log2 : Int) + d.e

/-- The largest code of a format, continued beyond its top, whose magnitude is at most |d|; with the remainder and
the distance to the next code. -/
def floorCode (f : Fmt) (d : Dy) : Nat × Nat × Nat :=
  if d.m = 0 then (0, 0, 1) else
  let lo : Int := 1 - f.bias - f.mb
  let u : Int := max (dyLog d - f.mb) lo
  let base := (u - lo).toNat * 2 ^ f.mb
  if u ≤ d.e then (base + d.m * 2 ^ (d.e - u).toNat, 0, 1)
  else
    let k := 2 ^ (u - d.e).toNat
    (base + d.m / k, d.m % k, k)

/-- R189: whether rounding goes up from the lower code: nearest with ties to even, toward zero, or stochastic under
the drawn value u. -/
def roundUp (mode code r den u : Nat) : Bool :=
  match mode with
  | 0 => 2 * r > den || (2 * r == den && code % 2 == 1)
  | 1 => false
  | _ => r * 2 ^ 32 / den + u ≥ 2 ^ 32

/-- R190: the mixing function. -/
def mix (z : Nat) : Nat :=
  let w := 2 ^ 64
  let z := ((z ^^^ (z >>> 30)) * 0xBF58476D1CE4E5B9) % w
  let z := ((z ^^^ (z >>> 27)) * 0x94D049BB133111EB) % w
  z ^^^ (z >>> 31)

/-- R190: the 32-bit number drawn for an element. -/
def draw (seed point gw shard elem : Nat) : Nat :=
  let c := (elem % 2 ^ 32) ||| ((shard % 64) <<< 32) ||| ((gw % 2048) <<< 38) ||| ((point % 8) <<< 49)
  (mix ((seed % 2 ^ 64) ^^^ mix c)) >>> 32

def signBit (neg : Bool) : Nat := if neg then 0x80000000 else 0
def fpInf (neg : Bool) : Nat := signBit neg + 0x7F800000
def fpNan : Nat := 0x7FC00000
def fpMax (neg : Bool) : Nat := signBit neg + 0x7F7FFFFF

/-- The FP32 pattern of a number, for numbers FP32 holds exactly (R184). -/
def packExact (n : Num) : Nat :=
  match n with
  | .inf neg => fpInf neg
  | .nan neg man => signBit neg + 0x7F800000 + man
  | .fin d => signBit d.neg + (floorCode fmtFp32 d).1

def un32 (w : Nat) : Num := unpack fmtFp32 w
def isNan32 (w : Nat) : Bool := match un32 w with | .nan _ _ => true | _ => false
def isSub32 (w : Nat) : Bool := fld w 30 23 == 0 && w % 2 ^ 23 != 0
def isZero32 (w : Nat) : Bool := w % 2 ^ 31 == 0
def sNan32 (w : Nat) : Bool := isNan32 w && !w.testBit 22

/-- R194: a NaN result: canonical in fast mode; in strict mode the first NaN operand, quieted. -/
def nanOf (strict : Bool) (ops : List Nat) : Nat :=
  if strict then
    match ops.find? isNan32 with
    | some w => w ||| 0x00400000
    | none => fpNan
  else fpNan

/-- R195: INVALID for a signalling NaN operand, in strict mode only. -/
def snFlag (strict : Bool) (unit : Nat) (ops : List Nat) : Flg :=
  if strict && ops.any sNan32 then Flg.invalid unit 3 else Flg.zero

/-- R186: the fast-mode flush of a subnormal pattern to +0, and the fast-mode zero. -/
def flush (strict : Bool) (w : Nat) : Nat × Flg :=
  if strict then (w, Flg.zero)
  else if isSub32 w then (0, { Flg.zero with fls := 1 })
  else if isZero32 w then (0, Flg.zero)
  else (w, Flg.zero)

/-- R186, R193: an exact value rounded once to FP32, nearest with ties to even, with the overflow and underflow rules
of the mode; `zneg` is the sign of an exact zero. -/
def round32 (strict : Bool) (zneg : Bool) (d : Dy) : Nat × Flg :=
  if d.m = 0 then (if strict && zneg then 0x80000000 else 0, Flg.zero)
  else
    let (a, r, den) := floorCode fmtFp32 d
    let c := if roundUp 0 a r den 0 then a + 1 else a
    if c ≥ 0x7F800000 then
      if strict then (fpInf d.neg, { Flg.zero with ovf := 1, inx := 1 }) else (fpMax d.neg, Flg.satur)
    else if strict then
      (signBit d.neg + c,
       { Flg.zero with inx := if r = 0 then 0 else 1, unf := if r ≠ 0 ∧ c < 0x800000 then 1 else 0 })
    else flush false (signBit d.neg + c)

/-- The exact sum of two exact values. -/
def dyAdd (a b : Dy) : Dy :=
  let e := min a.e b.e
  let x : Int := (if a.neg then -1 else 1) * (a.m * 2 ^ (a.e - e).toNat : Nat)
  let y : Int := (if b.neg then -1 else 1) * (b.m * 2 ^ (b.e - e).toNat : Nat)
  let z := x + y
  ⟨z < 0, z.natAbs, e⟩

def dyMul (a b : Dy) : Dy := ⟨a.neg != b.neg, a.m * b.m, a.e + b.e⟩

/-- R186: one FP32 addition under the mode. -/
def fpAdd (strict : Bool) (x y : Nat) : Nat × Flg :=
  let (x, f1) := flush strict x
  let (y, f2) := flush strict y
  let f := f1.or f2
  if isNan32 x || isNan32 y then (nanOf strict [x, y], f.or (snFlag strict 1 [x, y])) else
  match un32 x, un32 y with
  | .inf a, .inf b => if a = b then (fpInf a, f) else (fpNan, f.or (Flg.invalid 1 2))
  | .inf a, _ => (fpInf a, f)
  | _, .inf b => (fpInf b, f)
  | .fin a, .fin b =>
    let (w, g) := round32 strict (a.m == 0 && b.m == 0 && a.neg && b.neg) (dyAdd a b)
    (w, f.or g)
  | _, _ => (fpNan, f)

/-- R186: one FP32 product under the mode. -/
def fpMul (strict : Bool) (x y : Nat) : Nat × Flg :=
  let (x, f1) := flush strict x
  let (y, f2) := flush strict y
  let f := f1.or f2
  if isNan32 x || isNan32 y then (nanOf strict [x, y], f.or (snFlag strict 1 [x, y])) else
  match un32 x, un32 y with
  | .inf a, .fin b => if b.m = 0 then (fpNan, f.or (Flg.invalid 1 1)) else (fpInf (a != b.neg), f)
  | .fin a, .inf b => if a.m = 0 then (fpNan, f.or (Flg.invalid 1 1)) else (fpInf (a.neg != b), f)
  | .inf a, .inf b => (fpInf (a != b), f)
  | .fin a, .fin b =>
    let (w, g) := round32 strict (a.neg != b.neg) (dyMul a b)
    (w, f.or g)
  | _, _ => (fpNan, f)

/-- A quotient of exact values to 64 bits beyond FP32's precision, with a sticky bit, so that one rounding of it is
the rounding of the quotient. -/
def dyDiv (a b : Dy) : Dy :=
  if a.m = 0 then ⟨a.neg != b.neg, 0, 0⟩ else
  let k := 64 + b.m.log2
  let n := a.m * 2 ^ k
  let q := n / b.m
  ⟨a.neg != b.neg, 2 * q + (if n % b.m = 0 then 0 else 1), a.e - b.e - k - 1⟩

/-- One FP32 quotient under the mode (the kernels of R226 and R228). R198 lists no CAUSE for an invalid quotient or root: 0 ÷ 0 takes
cause 1, ∞ ÷ ∞ and the root of a negative value cause 2 (DESIGN CHOICE, entry 90). -/
def fpDiv (strict : Bool) (x y : Nat) : Nat × Flg :=
  let (x, f1) := flush strict x
  let (y, f2) := flush strict y
  let f := f1.or f2
  if isNan32 x || isNan32 y then (nanOf strict [x, y], f.or (snFlag strict 1 [x, y])) else
  match un32 x, un32 y with
  | .inf a, .fin b => (fpInf (a != b.neg), f)
  | .fin a, .inf b => (if strict && (a.neg != b) then 0x80000000 else 0, f)
  | .fin a, .fin b =>
    if b.m = 0 then
      if a.m = 0 then (fpNan, f.or (Flg.invalid 1 1)) else (fpInf (a.neg != b.neg), f)
    else
      let (w, g) := round32 strict (a.neg != b.neg) (dyDiv a b)
      (w, f.or g)
  | _, _ => (fpNan, f.or (Flg.invalid 1 2))

/-- One FP32 square root under the mode; the root of a negative value is invalid with cause 2 (DESIGN CHOICE, entry 90). -/
def fpSqrt (strict : Bool) (x : Nat) : Nat × Flg :=
  let (x, f) := flush strict x
  match un32 x with
  | .nan _ _ => (nanOf strict [x], f.or (snFlag strict 1 [x]))
  | .inf neg => if neg then (fpNan, f.or (Flg.invalid 1 2)) else (fpInf false, f)
  | .fin d =>
    if d.m = 0 then (x, f)
    else if d.neg then (fpNan, f.or (Flg.invalid 1 2))
    else
      let k : Nat := if (d.e % 2 = 0) then 64 else 65
      let n := d.m * 2 ^ k
      let r := n.sqrt
      let (w, g) := round32 strict false ⟨false, 2 * r + (if r * r = n then 0 else 1), (d.e - k) / 2 - 1⟩
      (w, f.or g)

/-- The order of two FP32 patterns that are no NaN, -0 below +0: the key is larger for the larger value. -/
def ordKey (w : Nat) : Int := if w.testBit 31 then -((w % 2 ^ 31 : Nat) : Int) - 1 else (w : Int)

/-- R186: MAX or MIN of two FP32 patterns. -/
def fpPick (strict wantMax : Bool) (x y : Nat) : Nat × Flg :=
  if isNan32 x || isNan32 y then (nanOf strict [x, y], snFlag strict 2 [x, y]) else
  let x := if !strict && isZero32 x then 0 else x
  let y := if !strict && isZero32 y then 0 else y
  if wantMax then (if ordKey x < ordKey y then y else x, Flg.zero)
  else (if ordKey y < ordKey x then y else x, Flg.zero)

/-- R186, R146: one input added into an accumulator element that holds a value. -/
def accumulate (redOp : Nat) (strict : Bool) (acc x : Nat) : Nat × Flg :=
  if redOp = 3 then fpPick strict true acc x
  else if redOp = 4 then fpPick strict false acc x
  else fpAdd strict acc x

/-- R146, R186: the first input of an accumulator element. -/
def initAcc (redOp : Nat) (strict : Bool) (x : Nat) : Nat × Flg :=
  if redOp = 3 || redOp = 4 then (x, Flg.zero) else flush strict x

/-! Decoding (R184, R185). -/

/-- R184: a decoded number as the decoder writes it. -/
def decNum (strict quietAll : Bool) (n : Num) : Nat × Flg :=
  match n with
  | .nan neg man =>
    let sig := !quietAll && !man.testBit 22
    if strict then (signBit neg + 0x7F800000 + (man ||| 0x400000), if sig then Flg.invalid 3 3 else Flg.zero)
    else (fpNan, Flg.zero)
  | .fin d => if !strict && d.m == 0 then (0, Flg.zero) else (packExact n, Flg.zero)
  | .inf _ => (packExact n, Flg.zero)

/-- R180: the code of element j of an MX group of a type. -/
def mxCode (t : Nat) (g : Bytes) (j : Nat) : Nat :=
  if elemBits t = 8 then byteAt g (1 + j)
  else if elemBits t = 6 then
    let w := leAt g (1 + 3 * (j / 4)) 3
    fld w (6 * (j % 4) + 5) (6 * (j % 4))
  else
    let b := byteAt g (1 + j / 2)
    if j % 2 = 0 then b % 16 else b / 16

/-- R177, R178: the number of an MX element code under scale code X. -/
def mxNum (t x code : Nat) : Num :=
  if t = 0x15 then
    let i : Int := if code ≥ 128 then (code : Int) - 256 else code
    .fin ⟨i < 0, i.natAbs, (x : Int) - 127 - 6⟩
  else
    match unpack (fmtOf t) code with
    | .fin d => .fin { d with e := d.e + (x : Int) - 127 }
    | n => n

/-- R185: an element whose magnitude under its scale is 2^128 or more. -/
def mxTooBig (n : Num) : Bool :=
  match n with
  | .fin d => d.m != 0 && dyLog d ≥ 128
  | _ => false

/-- R179, R181, R184, R185: an MX group decoded to n FP32 patterns; its padding positions are ignored. -/
def decGroup (strict : Bool) (t n : Nat) (g : Bytes) : List Nat × Flg :=
  let x := byteAt g 0
  let nums := (List.range n).map (fun j => mxNum t x (mxCode t g j))
  if x = 0xFF then (List.replicate n fpNan, Flg.zero)
  else if nums.any mxTooBig then
    (List.replicate n fpNan, { Flg.invalid 3 5 with inv := n })
  else
    let rs := nums.map (decNum strict (t == 0x10 || t == 0x11))
    (rs.map (·.1), flgSum rs)

/-- R184: n elements of a type decoded from a byte string. -/
def decodeElems (strict : Bool) (t : Nat) (n : Nat) (l : Bytes) : List Nat × Flg :=
  if isMx t then
    let gb := groupBytes t
    let rs := (List.range (cdiv n 32)).map (fun i => decGroup strict t (min 32 (n - 32 * i)) (slice l (i * gb) gb))
    (rs.flatMap (·.1), flgSum32 rs)
  else
    let eb := elemBits t / 8
    let rs := (List.range n).map fun i =>
      let code := leAt l (i * eb) eb
      if t = 0x01 then
        match un32 code with
        | .nan _ _ => (if strict then code else fpNan, Flg.zero)
        | .fin d => (if !strict && d.m == 0 then 0 else code, Flg.zero)
        | .inf _ => (code, Flg.zero)
      else decNum strict false (unpack (fmtOf t) code)
    (rs.map (·.1), flgSum rs)

/-! Encoding (R188 to R194). -/

/-- R188: the exponent of the largest normal value of an MX element type. -/
def emax (t : Nat) : Int :=
  match t with
  | 0x10 => 8 | 0x11 => 15 | 0x12 => 4 | 0x13 => 2 | 0x14 => 2 | _ => 0

/-- The magnitude of an FP32 pattern that takes part in scale selection (R188, R194), as its exact value. -/
def scaleMag (strict : Bool) (w : Nat) : Option Dy :=
  match un32 w with
  | .fin d => if d.m = 0 then none else some d
  | .inf _ => if strict then none else (match un32 0x7F7FFFFF with | .fin d => some d | _ => none)
  | .nan _ _ => none

/-- R188: the scale exponent x of a group. -/
def scaleExp (strict : Bool) (t : Nat) (ws : List Nat) : Int :=
  let lg := ws.foldl (fun (m : Option Int) w =>
    match scaleMag strict w with
    | some d => some (match m with | some a => max a (dyLog d) | none => dyLog d)
    | none => m) none
  match lg with
  | none => -127
  | some l => max (-127) (min 127 (l - emax t))

/-- R189 to R195: one exact finite value encoded to a magnitude code of a floating-point type; flags by the mode. -/
def encFin (strict : Bool) (round u : Nat) (t : Nat) (d : Dy) : Nat × Bool × Flg :=
  let f := fmtOf t
  let (a, r, den) := floorCode f d
  if a > f.maxCode || (a == f.maxCode && 2 * r ≥ den) then
    if strict && !isMx t then
      if round = 1 then (f.maxCode, true, { Flg.satur with ovf := 1, inx := 1 })
      else (f.maxCode + 1, true, { Flg.zero with ovf := 1, inx := 1 })
    else (f.maxCode, true, { Flg.satur with inx := if strict then 1 else 0 })
  else
    let c := if a = f.maxCode then a else if r ≠ 0 && roundUp round a r den u then a + 1 else a
    (c, c != 0 || strict,
     if strict then { Flg.zero with inx := if r = 0 then 0 else 1,
                                    unf := if r ≠ 0 ∧ c < 2 ^ f.mb then 1 else 0 }
     else Flg.zero)

/-- R194: the code of a NaN in a type that has one. -/
def encNan (strict : Bool) (t w : Nat) : Nat :=
  let neg := strict && w.testBit 31
  match t with
  | 0x02 => if strict then (w >>> 16) ||| 0x40 else 0x7FC0
  | 0x03 => if strict then (b2n neg <<< 15) + 0x7C00 + (fld w 22 13 ||| 0x200) else 0x7E00
  | 0x10 => (b2n neg <<< 7) + 0x7F
  | _ => (b2n neg <<< 7) + 0x7E

/-- The sign position of an element code. -/
def signPos (t : Nat) : Nat := elemBits t - 1

/-- R189 to R195: one FP32 pattern, scaled down by 2^x, encoded to a code of a type other than FP32. `none` asks for
group scale 0xFF (R191, R194). -/
def encElem (strict : Bool) (round u : Nat) (t : Nat) (x : Int) (w : Nat) : Option (Nat × Flg) :=
  match un32 w with
  | .nan _ _ => if t == 0x02 || t == 0x03 || t == 0x10 || t == 0x11 then some (encNan strict t w, Flg.zero) else none
  | .inf neg =>
    if strict then
      match t with
      | 0x02 => some ((b2n neg <<< 15) + 0x7F80, Flg.zero)
      | 0x03 => some ((b2n neg <<< 15) + 0x7C00, Flg.zero)
      | 0x10 => some ((b2n neg <<< 7) + 0x7F, Flg.invalid 4 4)
      | 0x11 => some ((b2n neg <<< 7) + 0x7C, Flg.zero)
      | _ => none
    else if t = 0x15 then some (if neg then 0x81 else 0x7F, Flg.satur)
    else some ((b2n neg <<< signPos t) + (fmtOf t).maxCode, Flg.satur)
  | .fin d =>
    let d := { d with e := d.e - x }
    if t = 0x15 then
      let (q, r, den) : Nat × Nat × Nat :=
        if (0 : Int) ≤ d.e + 6 then (d.m * 2 ^ (d.e + 6).toNat, 0, 1)
        else (d.m / 2 ^ (-(d.e + 6)).toNat, d.m % 2 ^ (-(d.e + 6)).toNat, 2 ^ (-(d.e + 6)).toNat)
      let (i, f) : Nat × Flg :=
        if q > 127 || (q == 127 && 2 * r ≥ den) then (127, { Flg.satur with inx := if strict then 1 else 0 })
        else
          let i := if q = 127 then 127 else if r ≠ 0 && roundUp round q r den u then q + 1 else q
          (i, if strict then { Flg.zero with inx := if r = 0 then 0 else 1,
                                             unf := if r ≠ 0 ∧ i = 0 then 1 else 0 } else Flg.zero)
      some (if d.neg && i != 0 then 256 - i else i, f)
    else
      let (c, sgn, f) := encFin strict round u t d
      some ((if d.neg && sgn then 2 ^ signPos t else 0) + c, f)

/-- R180: 32 element codes packed after a scale byte. -/
def packGroup (t scale : Nat) (codes : List Nat) : Bytes :=
  let c := fun j => codes.getD j 0
  BitVec.ofNat 8 scale ::
  (if elemBits t = 8 then (List.range 32).map (fun j => BitVec.ofNat 8 (c j))
   else if elemBits t = 6 then
     (List.range 8).flatMap (fun i =>
       leBytes 3 (c (4 * i) + c (4 * i + 1) * 2 ^ 6 + c (4 * i + 2) * 2 ^ 12 + c (4 * i + 3) * 2 ^ 18))
   else (List.range 16).map (fun i => BitVec.ofNat 8 (c (2 * i) + 16 * c (2 * i + 1))))

/-- R190: the coordinates of a rounding point: seed, point, gateway number, shard or tensor number, and the element
index of the first element. -/
structure Draws where
  seed : Nat
  point : Nat
  gw : Nat
  shard : Nat
  base : Nat
  deriving DecidableEq, Repr

def Draws.at (c : Draws) (i : Nat) : Nat := draw c.seed c.point c.gw c.shard (c.base + i)

/-- R188 to R195: one MX group of at most 32 FP32 patterns encoded. -/
def encGroup (strict : Bool) (round : Nat) (c : Draws) (t off : Nat) (ws : List Nat) : Bytes × Flg :=
  let x := scaleExp strict t ws
  let es := (List.range ws.length).map (fun j => encElem strict round (c.at (off + j)) t x (ws.getD j 0))
  if es.any (·.isNone) then
    (packGroup t 0xFF [], { Flg.invalid 4 4 with inv := ws.length })
  else
    let rs := es.map (·.getD (0, Flg.zero))
    (packGroup t (x + 127).toNat (rs.map (·.1)), flgSum rs)

/-- R157: FP32 patterns encoded into a type; a copy for FP32. -/
def encodeElems (strict : Bool) (round : Nat) (c : Draws) (t : Nat) (ws : List Nat) : Bytes × Flg :=
  if t = 0x01 then (ws.flatMap (leBytes 4), Flg.zero)
  else if isMx t then
    let rs := (List.range (cdiv ws.length 32)).map
      (fun i => encGroup strict round c t (32 * i) ((ws.drop (32 * i)).take 32))
    (rs.flatMap (·.1), flgSum32 rs)
  else
    let rs := (List.range ws.length).map (fun j => (encElem strict round (c.at j) t 0 (ws.getD j 0)).getD (0, Flg.zero))
    (rs.flatMap (fun r => leBytes (elemBits t / 8) r.1), flgSum rs)

/-- R186: 1 ÷ N rounded to FP32, nearest with ties to even. -/
def recipN (n : Nat) : Nat := (round32 true false (dyDiv ⟨false, 1, 0⟩ ⟨false, n, 0⟩)).1

/-! The tensor unit (R187). -/

/-- R187, R195: one k group of a dot product added to the accumulator; `none` is an accumulator before its first group. An invalid
product or sum raises INVALID beside a NaN operand too; where a group has both, the product is the one captured (entry 89). -/
def tensorGroup (acc : Option Nat) (ps : List (Nat × Nat)) : Nat × Flg :=
  let a0 := acc.getD 0
  let nanIn := isNan32 a0 || ps.any (fun p => isNan32 p.1 || isNan32 p.2)
  let zi := ps.any fun p =>
    match un32 p.1, un32 p.2 with
    | .inf _, .fin d => d.m == 0
    | .fin d, .inf _ => d.m == 0
    | _, _ => false
  let infs := ps.filterMap fun p =>
    match un32 p.1, un32 p.2 with
    | .inf a, .inf b => some (a != b)
    | .inf a, .fin d => some (a != d.neg)
    | .fin d, .inf b => some (d.neg != b)
    | _, _ => none
  let infs := (match un32 a0 with | .inf a => [a] | _ => []) ++ infs
  if zi then (fpNan, Flg.invalid 0 1)
  else if infs.any id && infs.any (fun b => !b) then (fpNan, Flg.invalid 0 2)
  else if nanIn then (fpNan, Flg.zero)
  else match infs with
  | n :: _ => (fpInf n, Flg.zero)
  | [] =>
    let sum := ps.foldl (fun s p =>
      match un32 p.1, un32 p.2 with
      | .fin a, .fin b => dyAdd s (dyMul a b)
      | _, _ => s) (match un32 a0 with | .fin d => d | _ => ⟨false, 0, 0⟩)
    if sum.m = 0 then (0, Flg.zero) else
    let (a, r, den) := floorCode fmtFp32 sum
    let c := if roundUp 0 a r den 0 then a + 1 else a
    if c ≥ 0x7F800000 then (fpMax sum.neg, Flg.satur)
    else (if c = 0 then 0 else signBit sum.neg + c, Flg.zero)

/-- R187: a dot product over k in groups of 32 in ascending k, continuing an accumulator where one is given. -/
def tensorDot : Nat → Option Nat → List Nat → List Nat → Nat × Flg
  | 0, acc, _, _ => (acc.getD 0, Flg.zero)
  | n + 1, acc, a, b =>
    let (w, f) := tensorGroup acc ((a.take 32).zip (b.take 32))
    let (w', f') := tensorDot n (some w) (a.drop 32) (b.drop 32)
    (w', f.or (f'.shift 32))

/-- An FP32 pattern rounded once to BF16, to nearest with ties to even, and widened again (R164, R224), with the encoder's flags: the
top of the range follows R191 under the mode (DEDUCED, entry 91). -/
def bf16Of (strict : Bool) (w : Nat) : Nat × Flg :=
  match encElem strict 0 0 0x02 0 w with
  | some (c, f) => ((c % 0x10000) <<< 16, f)
  | none => (fpNan, Flg.zero)

end Sys2Proof.Machine
end

