-- ==== Sys2Proof/Machine/Kernels.lean ====
section
/-! DEFINITION. Machine/Kernels.lean: the fixed kernels of R224 to R228 on row-major FP32 matrices: matrix products on the
tensor unit (operands rounded once to BF16), orthonormalisation, the starting basis, expansion and Newton-Schulz. -/
namespace Sys2Proof.Machine
open Sys2Proof

/-- A value with the flags of the operations that formed it. -/
abbrev Fl (α : Type) := α × Flg

def fneg (w : Nat) : Nat := w ^^^ 0x80000000

/-- x − y under the mode; a NaN operand keeps its sign (R194). -/
def fpSub (strict : Bool) (x y : Nat) : Fl Nat :=
  if isNan32 x || isNan32 y then fpAdd strict x y else fpAdd strict x (fneg y)

def el (cols : Nat) (m : List Nat) (i j : Nat) : Nat := m.getD (i * cols + j) 0
def rowOf (cols : Nat) (m : List Nat) (i : Nat) : List Nat := (m.drop (i * cols)).take cols
def colOf (rows cols : Nat) (m : List Nat) (j : Nat) : List Nat := (List.range rows).map (fun i => el cols m i j)

/-- The transpose of a rows × cols matrix. -/
def transpose (rows cols : Nat) (m : List Nat) : List Nat :=
  (List.range cols).flatMap (fun j => colOf rows cols m j)

/-- Results with the sum of their flags, each flag at its element. -/
def gather (rs : List (Fl Nat)) : Fl (List Nat) := (rs.map (·.1), flgSum rs)

/-- R187: the product of an m × k and a k × n matrix on the tensor unit. -/
def matprod (m k n : Nat) (a b : List Nat) : Fl (List Nat) :=
  let rs := (List.range m).flatMap fun i => (List.range n).map fun j =>
    tensorDot (cdiv k 32) none (rowOf k a i) (colOf k n b j)
  (rs.map (·.1), rs.foldl (fun f r => f.add r.2) Flg.zero)

/-- R224: a product whose FP32 operands are rounded once to BF16. -/
def matmul (strict : Bool) (m k n : Nat) (a b : List Nat) : Fl (List Nat) :=
  let a := gather (a.map (bf16Of strict))
  let b := gather (b.map (bf16Of strict))
  let r := matprod m k n a.1 b.1
  (r.1, (r.2.add a.2).add b.2)

/-- A sum of products in ascending order, each product and each sum rounded once; none for no terms. The flags of a chain of
operations count once for the element that it forms (R197). -/
def sumProd (strict : Bool) : List (Nat × Nat) → Option (Fl Nat)
  | [] => none
  | p :: l =>
    some (l.foldl (fun (acc : Fl Nat) q =>
      let x := fpMul strict q.1 q.2
      let y := fpAdd strict acc.1 x.1
      (y.1, (acc.2.or x.2).or y.2)) (fpMul strict p.1 p.2))

/-- x minus a sum of products. -/
def subSum (strict : Bool) (x : Nat) (ps : List (Nat × Nat)) : Fl Nat :=
  match sumProd strict ps with
  | none => (x, Flg.zero)
  | some y => let z := fpSub strict x y.1; (z.1, y.2.or z.2)

/-- x ≤ y for FP32 patterns; a NaN compares false. -/
def fpLe (x y : Nat) : Bool :=
  !isNan32 x && !isNan32 y && (isZero32 x && isZero32 y || decide (ordKey x ≤ ordKey y))

/-- R226: one column of the Cholesky factor: the factor so far, the zeroed columns, and the flags. -/
def cholCol (strict : Bool) (r : Nat) (g : List Nat) (gmax : Nat) (st : List Nat × List Nat × Flg) (j : Nat) :
    List Nat × List Nat × Flg :=
  let (l, zero, f) := st
  let d := subSum strict (el r g j j) ((List.range j).map (fun i => (el r l j i, el r l j i)))
  let lim := fpMul strict 0x33800000 gmax
  let diag := (d.2.or lim.2).at (j * r + j)
  if fpLe d.1 lim.1 then
    let l := (List.range r).foldl (fun l k => l.set (k * r + j) (if k = j then 0x3F800000 else (if k < j then el r l k j else 0))) l
    (l, if zero.contains j then zero else zero ++ [j], f.add diag)
  else
    let sq := fpSqrt strict d.1
    let l := l.set (j * r + j) sq.1
    let (l, f) := ((List.range r).filter (· > j)).foldl (fun (p : List Nat × Flg) k =>
      let n := subSum strict (el r g k j) ((List.range j).map (fun i => (el r p.1 k i, el r p.1 j i)))
      let q := fpDiv strict n.1 sq.1
      (p.1.set (k * r + j) q.1, p.2.add ((n.2.or q.2).at (k * r + j)))) (l, f.add ((diag.or sq.2).at (j * r + j)))
    (l, zero, f)

/-- R226: forward substitution of one row, ascending column. -/
def substRow (strict : Bool) (r : Nat) (l row : List Nat) : Fl (List Nat) :=
  (List.range r).foldl (fun (p : List Nat × Flg) j =>
    let n := subSum strict (row.getD j 0) ((List.range j).map (fun i => (p.1.getD i 0, el r l j i)))
    let q := fpDiv strict n.1 (el r l j j)
    (p.1 ++ [q.1], p.2.add ((n.2.or q.2).at j))) ([], Flg.zero)

/-- R226: one pass of Cholesky QR over a rows × r matrix with the columns zeroed before: the matrix, the columns zeroed so far, the
flags. -/
def orthoPass (strict : Bool) (rows r : Nat) (p zero : List Nat) : List Nat × List Nat × Flg :=
  let (g, f1) := matmul strict r rows r (transpose rows r p) p
  let gmax := (List.range r).foldl (fun m i => (fpPick strict true m (el r g i i)).1) (el r g 0 0)
  let (l, zero, f2) := (List.range r).foldl (cholCol strict r g gmax) (List.replicate (r * r) 0, zero, Flg.zero)
  let rs := (List.range rows).map (fun i => (i, substRow strict r l (rowOf r p i)))
  let q := rs.flatMap (·.2.1)
  let q := (List.range q.length).map (fun i => if zero.contains (i % r) then 0 else q.getD i 0)
  (q, zero, rs.foldl (fun f e => f.add (e.2.2.shift (e.1 * r))) (f1.add f2))

/-- R226: ORTHO without its final encode: the matrix, the columns zeroed in either pass, the flags. -/
def ortho (strict : Bool) (rows r : Nat) (p : List Nat) : List Nat × List Nat × Flg :=
  let (p, zero, f1) := orthoPass strict rows r p []
  let (p, zero, f2) := orthoPass strict rows r p zero
  (p, zero, f1.add f2)

/-- R225: the element of the starting matrix before orthonormalisation. -/
def basisElem (job matrix i : Nat) : Nat :=
  let u := draw (job * 2 ^ 32 + matrix) 5 0 0 i
  let v : Int := if u ≥ 2 ^ 31 then ((u : Int) - 2 ^ 32) / 256 else (u : Int) / 256
  packExact (.fin ⟨v < 0, v.natAbs, -23⟩)

/-- R225: BASIS. -/
def basis (strict : Bool) (job matrix cols r : Nat) : List Nat × List Nat × Flg :=
  ortho strict cols r ((List.range (cols * r)).map (basisElem job matrix))

/-- R227: EXPAND: ph (rows × r) times the transpose of qn (cols × r), both held in BF16. -/
def expand (rows cols r : Nat) (ph qn : List Nat) : Fl (List Nat) := matprod rows r cols ph (transpose cols r qn)

/-- a × x + b × y by element, each product and the sum rounded once (R210, R228). -/
def lincomb (strict : Bool) (a b : Nat) (x y : List Nat) : Fl (List Nat) :=
  gather ((List.range x.length).map fun i =>
    let p := fpMul strict a (x.getD i 0)
    let q := fpMul strict b (y.getD i 0)
    let z := fpAdd strict p.1 q.1
    (z.1, (p.2.or q.2).or z.2))

/-- R228: one quintic Newton-Schulz step on an a × b matrix. -/
def ns5Step (strict : Bool) (a b : Nat) (x : Fl (List Nat)) : Fl (List Nat) :=
  let g := matmul strict a b a x.1 (transpose a b x.1)
  let h := matmul strict a a a g.1 g.1
  let c := lincomb strict 0xBFA00000 0x3EC00000 g.1 h.1
  let y := matmul strict a a b c.1 x.1
  let z := lincomb strict 0x3FF00000 0x3F800000 x.1 y.1
  (z.1, ((((x.2.add g.2).add h.2).add c.2).add y.2).add z.2)

/-- R228: NS5 without its final encode. -/
def ns5 (strict : Bool) (rows cols : Nat) (m : List Nat) : Fl (List Nat) :=
  let t := rows > cols
  let x := if t then transpose rows cols m else m
  let a := min rows cols
  let b := max rows cols
  match sumProd strict (x.map (fun v => (v, v))) with
  | none => (m, Flg.zero)
  | some s2 =>
    let nrm := fpSqrt strict s2.1
    if isZero32 nrm.1 then (List.replicate (rows * cols) 0, s2.2.or nrm.2)
    else
      let sc := fpDiv strict 0x3F800000 nrm.1
      let y := gather (x.map (fun v => fpMul strict sc.1 v))
      let f0 := ((s2.2.or nrm.2).or sc.2).add y.2
      let z := (List.range 5).foldl (fun acc _ => ns5Step strict a b acc) (y.1, f0)
      (if t then transpose a b z.1 else z.1, z.2)

end Sys2Proof.Machine
end

