-- ==== Sys2Proof/Machine/Regs.lean ====
section
/-! DEFINITION. Machine/Regs.lean: the register tables of the chapters as data: for every page type the writable registers
with their fields, ranges, reset values and change classes. Read-only registers are views of the state
(Machine/View.lean). The common header of R43 is handled in Machine/Pages.lean. -/
namespace Sys2Proof.Machine
open Sys2Proof

/-- R11: the access codes of writable fields. -/
inductive Acc where
  | rw | w1c | wo
  deriving DecidableEq, Repr

/-- R14: the change classes. -/
inductive Cls where
  | live | epoch | idle
  deriving DecidableEq, Repr

/-- The stated range of a field: none, an interval, or a list of values. -/
inductive Rng where
  | any
  | within (lo hi : Nat)
  | oneOf (l : List Nat)
  deriving DecidableEq, Repr

/-- A writable field: bits [hi:lo], access, reset value by bank, class and range. -/
structure Fld where
  hi : Nat
  lo : Nat
  acc : Acc
  reset : Nat → Nat
  cls : Cls
  rng : Rng

/-- A register with writable fields. `sel` is the selector register and field that picks the bank, for registers that
exist once per queue, requester, class or the like. -/
structure RegDef where
  off : Nat
  sel : Option (Nat × Nat × Nat)
  flds : List Fld

def rwL (hi lo reset : Nat) (rng : Rng := .any) : Fld := ⟨hi, lo, .rw, fun _ => reset, .live, rng⟩
def rwE (hi lo reset : Nat) (rng : Rng := .any) : Fld := ⟨hi, lo, .rw, fun _ => reset, .epoch, rng⟩
def rwI (hi lo reset : Nat) (rng : Rng := .any) : Fld := ⟨hi, lo, .rw, fun _ => reset, .idle, rng⟩
def rwEb (hi lo : Nat) (reset : Nat → Nat) (rng : Rng := .any) : Fld := ⟨hi, lo, .rw, reset, .epoch, rng⟩
def w1c (hi lo : Nat) : Fld := ⟨hi, lo, .w1c, fun _ => 0, .live, .any⟩
def wo (hi lo : Nat) : Fld := ⟨hi, lo, .wo, fun _ => 0, .live, .any⟩
def woI (hi lo : Nat) : Fld := ⟨hi, lo, .wo, fun _ => 0, .idle, .any⟩
def reg (off : Nat) (flds : List Fld) : RegDef := ⟨off, none, flds⟩
def regB (off : Nat) (sel : Nat × Nat × Nat) (flds : List Fld) : RegDef := ⟨off, some sel, flds⟩

/-- R52: CPW. -/
def regsCpw : List RegDef :=
  ((List.range 4).flatMap fun q =>
    [reg (0x40 + 0x10 * q) [rwL 15 0 0 (.within 0 511)],
     reg (0x48 + 0x10 * q) [rwI 0 0 0, rwI 2 1 (match q with | 0 => 3 | 1 => 1 | 2 => 2 | _ => 0)]]) ++
  [reg 0x80 [rwI 31 12 0], reg 0x84 [rwI 31 0 0], reg 0x88 [rwI 3 0 4 (.within 4 12)], reg 0x8C [rwL 11 0 0],
   reg 0x94 [rwI 31 3 0], reg 0x98 [rwI 31 0 0], reg 0x9C [rwL 23 0 10000 (.within 1 16777215)],
   reg 0xA0 [rwL 15 0 0]]

/-- R138: FFE. -/
def regsFfe : List RegDef :=
  [reg 0x44 [rwE 10 0 1100 (.within 100 2000)], reg 0x48 [wo 31 31], reg 0x60 [rwL 7 0 0]]

/-- R198, R235: TILE. -/
def regsTile : List RegDef :=
  [reg 0x54 [rwL 4 0 0], reg 0x60 [rwL 7 0 0 (.within 0 239)],
   reg 0x400 [w1c 0 0, w1c 1 1, w1c 2 2, w1c 3 3, w1c 4 4, w1c 5 5, wo 31 31]]

/-- R233: QUAD. The value 0 of XCHK_CFG.N is accepted in TEST mode only (R170). -/
def regsQuad : List RegDef :=
  [reg 0x44 [rwE 16 0 4096 (.oneOf [0, 256, 512, 1024, 2048, 4096, 8192, 16384, 32768, 65536])]]

/-- R232, R493: PWR. -/
def regsPwr : List RegDef :=
  [reg 0x48 [rwL 9 0 500 (.within 50 500)], reg 0x4C [rwL 6 0 4 (.within 4 64)], reg 0x64 [rwL 7 0 95 (.within 70 100)]]

/-- R380: reset RATE, BURST and EN of the policers, by class. -/
def polRate (c : Nat) : Nat := match c with | 0 => 25600 | 3 => 6400 | _ => 204800
def polBurst (c : Nat) : Nat := match c with | 0 => 262144 | 3 => 65536 | _ => 1048575
def polEn (c : Nat) : Nat := match c with | 0 => 1 | 3 => 1 | _ => 0

/-- R393: TM. -/
def regsTm : List RegDef :=
  [reg 0x44 [rwE 4 0 0, rwE 9 5 1, rwE 14 10 2, rwE 19 15 3, rwE 24 20 4, rwE 29 25 5],
   reg 0x48 [rwE 4 0 6], reg 0x4C [rwL 4 0 0],
   regB 0x50 (0x4C, 4, 0) [rwEb 7 0 (fun q => match q with | 4 => 8 | 5 => 8 | 6 => 4 | _ => 0)],
   regB 0x54 (0x4C, 4, 0) [rwE 11 0 512 (.within 16 2048)],
   reg 0x58 [rwL 2 0 0 (.within 0 4)],
   regB 0x5C (0x58, 2, 0) [rwEb 17 0 polRate (.within 1 204800), rwEb 31 31 polEn],
   regB 0x60 (0x58, 2, 0) [rwEb 19 0 polBurst (.within 1024 1048575)]]

/-- R378: reset RATE, BURST and EN of the shapers, by queue. -/
def shRate (q : Nat) : Nat := match q with | 0 => 25600 | 1 => 256 | 2 => 2560 | 3 => 6400 | _ => 204800
def shBurst (q : Nat) : Nat := match q with | 0 => 262144 | 1 => 16384 | _ => 65536
def shEn (q : Nat) : Nat := if q < 4 then 1 else 0

/-- R395: POND. -/
def regsPond : List RegDef := [reg 0x44 [rwI 4 0 6 (.within 2 16), rwI 12 8 2 (.within 0 8)]]

/-- R396: TPOOL. -/
def regsTpool : List RegDef :=
  [reg 0x44 [rwI 4 0 8 (.within 0 20)], reg 0x50 [rwL 7 0 0],
   regB 0x54 (0x50, 7, 0) [rwE 18 0 0x7FFFF], regB 0x58 (0x50, 7, 0) [rwE 20 0 0x1FFFFF],
   regB 0x5C (0x50, 7, 0) [rwE 18 0 0],
   regB 0x60 (0x50, 7, 0) [rwEb 20 0 (fun r => if r = 0 then 16384 else 0)],
   reg 0x70 [rwE 7 0 0, rwE 15 8 0, rwE 23 16 0, rwE 31 24 0], reg 0x74 [wo 15 0, wo 31 31]]

/-- R397: LEDGER. -/
def regsLedger : List RegDef := [reg 0x44 [rwE 0 0 1]]

/-- R137: reset weight and rate of the line's virtual channels. -/
def vcWeight (v : Nat) : Nat := match v with | 2 => 8 | 3 => 4 | 4 => 3 | _ => 1
def vcRate (v : Nat) : Nat := match v with | 0 => 125 | _ => 1000

/-- R307: the default grants of the line's virtual channels, in credits of 256 bytes. -/
def vcGrant (v : Nat) : Nat :=
  match v with
  | 0 => 65536 | 1 => 262144 | 2 => 33554432 | 3 => 16777216 | 4 => 16777216 | 6 => 65536 | _ => 0

/-- R315: LINE. -/
def regsLine (grant : Nat → Nat) : List RegDef :=
  [reg 0x44 [rwL 4 0 0 (.within 0 17)], reg 0x50 [rwL 1 0 0],
   regB 0x54 (0x50, 1, 0) [rwI 10 0 0, rwI 28 11 0, rwL 31 31 0],
   regB 0x64 (0x50, 1, 0) [rwE 31 0 0], regB 0x68 (0x50, 1, 0) [rwE 18 0 288235 (.within 200000 400000)],
   regB 0x6C (0x50, 1, 0) [rwE 31 0 0],
   reg 0x70 [rwE 3 0 1 (.within 1 15), rwE 11 4 8 (.within 4 255), rwE 16 12 16 (.within 4 31),
             rwE 31 24 64 (.within 8 255)],
   reg 0x74 [rwL 2 0 0 (.oneOf [0, 1, 2, 3, 4, 6])],
   regB 0x78 (0x74, 2, 0) [⟨31, 0, .rw, grant, .idle, .within 256 0x80000000⟩],
   regB 0x7C (0x74, 2, 0) [rwEb 7 0 vcWeight (.within 1 255), rwEb 31 8 vcRate (.within 1 8000)],
   reg 0x84 [wo 1 0, wo 8 8], reg 0x8C [rwI 12 0 1024 (.within 64 6144)]]

/-- R280: TDEC. -/
def regsTdec : List RegDef := [reg 0x44 [rwE 4 0 16 (.within 1 16)], reg 0x48 [wo 2 0, wo 8 8]]

/-- R316: FEC. -/
def regsFec : List RegDef :=
  [reg 0x40 [rwE 3 0 12 (.within 4 15)],
   reg 0x44 [rwE 8 0 16 (.within 1 320), rwE 15 12 4 (.within 1 15), rwE 31 16 1000 (.within 100 3300)],
   reg 0x48 [rwL 4 0 0 (.within 0 17)]]

/-- R343: CIPH; index 0 is the transmit page, 1 the receive page. -/
def regsCiph (i : Fin 2) : List RegDef :=
  [reg 0x44 [rwE 1 0 2, rwE 2 2 1], reg 0x48 [rwL 1 0 0], reg 0x54 [rwL 4 0 0 (.within 0 17)]] ++
  (if i = 0 then [reg 0x60 [rwE 5 0 39 (.within 32 39), rwE 13 8 28 (.within 20 32)]] else [reg 0x68 [rwE 0 0 0]])

/-- R370: CART; index 0 is the fabric cartridge, 1 the line cartridge. -/
def regsCart (i : Fin 2) : List RegDef :=
  [reg 0x44 [wo 0 0, woI 1 1], reg 0x50 [rwL 6 0 0 (.within 0 (if i = 0 then 19 else 71))]]

/-- R371: LENG. -/
def regsLeng : List RegDef :=
  [reg 0x44 [rwL 4 0 0 (.within 0 17)], reg 0x54 [rwI 31 0 0x9190],
   reg 0x58 [rwE 7 0 15 (.within 5 50), rwE 15 8 30 (.within 0 80), rwE 23 16 60 (.within 0 120)],
   reg 0x5C [rwE 11 0 120, rwE 19 12 20 (.within 1 255), rwE 20 20 1], reg 0x60 [rwE 7 0 0], reg 0x6C [woI 0 0]]

/-- R372: FPE. -/
def regsFpe : List RegDef := [reg 0x44 [rwL 2 0 0], reg 0x50 [rwL 0 0 1, rwL 1 1 0, wo 8 8]]

/-- R366: the reset code of a router entry in a bank selected as MAP_SEL does: TERM f in bank 0, DARK elsewhere, in n
nibbles. -/
def wrtReset (n sel : Nat) : Nat := if sel % 4 = 0 then (sel / 4 % 4 + 1) * ((16 ^ n - 1) / 15) else 0

/-- R373: WRT. -/
def regsWrt : List RegDef :=
  [reg 0x44 [rwL 3 0 0], regB 0x48 (0x44, 3, 0) [⟨31, 0, .rw, wrtReset 8, .live, .any⟩],
   regB 0x4C (0x44, 3, 0) [⟨31, 0, .rw, wrtReset 8, .live, .any⟩],
   regB 0x50 (0x44, 3, 0) [⟨7, 0, .rw, wrtReset 2, .live, .any⟩], reg 0x54 [wo 1 0, wo 8 8]]

/-- R394, R415: FPORT. -/
def regsFport : List RegDef :=
  [reg 0x44 [rwL 4 0 0], regB 0x48 (0x44, 4, 0) [rwEb 17 0 shRate (.within 1 204800), rwEb 31 31 shEn],
   regB 0x4C (0x44, 4, 0) [rwEb 19 0 shBurst (.within 1024 1048575)], reg 0x64 [rwE 3 0 3, wo 31 31],
   reg 0x100 [rwE 0 0 0], reg 0x104 [w1c 8 8, wo 31 31]]

/-- R413: TIME. -/
def regsTime : List RegDef :=
  [reg 0x50 [rwE 7 0 255], reg 0x54 [rwI 15 0 0], reg 0x60 [rwE 9 0 100 (.within 1 1000), rwE 23 16 10 (.within 1 50)],
   reg 0x68 [rwE 15 0 100 (.within 10 10000), rwE 31 16 1000 (.within 100 65535)],
   reg 0x6C [rwE 15 0 64 (.within 16 4096), rwE 31 16 1024 (.within 256 65535)], reg 0x70 [wo 0 0],
   reg 0x80 [rwE 6 0 0, rwE 8 8 0], reg 0xA0 [rwL 1 0 0, rwL 3 2 0]]

/-- R414: TIO. -/
def regsTio : List RegDef :=
  [reg 0x40 [rwL 3 0 0], regB 0x44 (0x40, 3, 0) [rwE 0 0 0, rwE 1 1 0, rwE 2 2 0, rwE 3 3 0],
   regB 0x48 (0x40, 3, 0) [rwE 31 0 0], regB 0x4C (0x40, 3, 0) [rwE 31 0 0], regB 0x50 (0x40, 3, 0) [rwE 31 0 0],
   regB 0x54 (0x40, 3, 0) [rwE 31 0 1000000000 (.within 1000 4294967295)],
   regB 0x58 (0x40, 3, 0) [rwE 31 0 100 (.within 8 4294967295)], reg 0x60 [rwL 1 0 0],
   regB 0x64 (0x60, 1, 0) [rwE 0 0 0, rwE 2 1 0 (.within 0 2), w1c 13 13, wo 31 31]]

/-- R415: LAUNCH. -/
def regsLaunch : List RegDef :=
  [reg 0x4C [rwL 2 0 0], regB 0x50 (0x4C, 2, 0) [⟨3, 0, .rw, fun q => 2 * q, .idle, .any⟩], reg 0x54 [wo 31 31]]

/-- R440: RSEQ. -/
def regsRseq : List RegDef :=
  [reg 0x4C [rwL 7 0 16 (.within 1 254), rwL 11 8 2 (.within 1 15), rwL 15 12 4 (.within 1 8),
             rwL 19 16 2 (.within 2 15)],
   reg 0x50 [rwL 4 0 21 (.within 16 26), rwL 12 8 23 (.within 20 28), rwL 20 16 24 (.within 16 30),
             rwL 28 24 17 (.within 12 24)],
   reg 0x54 [wo 2 0, wo 8 8, wo 31 16], reg 0x58 [rwL 5 0 0], reg 0x60 [rwL 10 0 0],
   regB 0x64 (0x60, 10, 0) [rwL 1 0 0], regB 0x68 (0x60, 10, 0) [rwL 31 0 0], regB 0x6C (0x60, 10, 0) [rwL 31 0 0]]

/-- R441: ELOG. -/
def regsElog : List RegDef :=
  [reg 0x40 [w1c 16 16], reg 0x44 [rwL 0 0 0, rwL 1 1 0], reg 0x48 [rwL 11 0 0, rwL 16 16 0], reg 0x4C [wo 0 0]]

end Sys2Proof.Machine
end

