-- ==== Sys2Proof/Machine/Ops.lean ====
section
/-! DEFINITION. Machine/Ops.lean: the operations every chapter shares: memory, register values, pages, counters, messages to
the master, and raising a code (R49, R50, R419, R420, R434). -/
namespace Sys2Proof.Machine
open Sys2Proof

/-! ## Memory: address and byte pairs in canonical form -/

/-- The byte at an address; an unlisted address reads 0. -/
def memRead : List Host.Cell → Nat → Byte
  | [], _ => 0
  | c :: m, a => if a = c.1 then c.2 else if a < c.1 then 0 else memRead m a

/-- Memory with one byte written: addresses stay strictly rising and no zero byte is listed. -/
def memWrite : List Host.Cell → Nat → Byte → List Host.Cell
  | [], a, b => if b = 0 then [] else [(a, b)]
  | c :: m, a, b =>
    if a < c.1 then (if b = 0 then c :: m else (a, b) :: c :: m)
    else if a = c.1 then (if b = 0 then m else (a, b) :: m)
    else c :: memWrite m a b

/-- The canonical form: every address above `lo` and above the one before it, no byte 0. -/
def Memory.wfFrom : Nat → List Host.Cell → Bool
  | _, [] => true
  | lo, c :: m => decide (lo ≤ c.1) && (c.2 != 0) && Memory.wfFrom (c.1 + 1) m

/-- The canonical form of memory. -/
def Memory.wf (m : List Host.Cell) : Bool := Memory.wfFrom 0 m

/-- n bytes of memory from an address on. -/
def memBytes (m : List Host.Cell) (a : Nat) : Nat → Bytes
  | 0 => []
  | n + 1 => memRead m a :: memBytes m (a + 1) n

/-- Memory with a byte string written from an address on. -/
def memPut (m : List Host.Cell) (a : Nat) : Bytes → List Host.Cell
  | [] => m
  | b :: l => memPut (memWrite m a b) (a + 1) l

/-! ## Register values -/

/-- The reset word of a register in a bank. -/
def RegDef.resetWord (d : RegDef) (bank : Nat) : Nat :=
  d.flds.foldl (fun w f => setFld w f.hi f.lo (f.reset bank)) 0

/-- The writable registers of a page (R43 header apart). -/
def regDefs : PageId → List RegDef
  | .cpw => regsCpw | .ffe _ => regsFfe | .tile _ => regsTile | .quad _ => regsQuad | .pwr => regsPwr
  | .tm _ => regsTm | .pond _ => regsPond | .tpool => regsTpool | .ledger => regsLedger
  | .line _ => regsLine vcGrant | .fec _ => regsFec | .tdec _ => regsTdec
  | .ciph _ i => regsCiph i | .cart i => regsCart i | .leng _ => regsLeng | .fpe _ _ => regsFpe | .wrt => regsWrt
  | .fport _ _ => regsFport | .time => regsTime | .tio => regsTio | .launch _ => regsLaunch | .rseq => regsRseq
  | .elog => regsElog
  | _ => []

def regDef? (pg : PageId) (off : Nat) : Option RegDef := (regDefs pg).find? (fun d => d.off = off)

def pageOf (s : State) (pg : PageId) : Page := mget s.pages pg Page.reset

def setPage (s : State) (pg : PageId) (p : Page) : State := { s with pages := mset s.pages pg p }

/-- The reset word of a register by page, offset and bank. -/
def resetWord (pg : PageId) (off bank : Nat) : Word :=
  match regDef? pg off with
  | some d => BitVec.ofNat 32 (d.resetWord bank)
  | none => 0

/-- The active value of a register in a bank. -/
def regActive (p : Page) (pg : PageId) (off bank : Nat) : Word :=
  match mget? p.regs (off, bank) with
  | some w => w
  | none => resetWord pg off bank

/-- R47: the last accepted value of a register in a bank, pending or active. -/
def regAccepted (p : Page) (pg : PageId) (off bank : Nat) : Word :=
  match mget? p.pend (off, bank) with
  | some w => w
  | none => regActive p pg off bank

/-- The active value of a field of a register in a bank, as the block uses it. -/
def fldB (s : State) (pg : PageId) (off bank hi lo : Nat) : Nat :=
  fld (regActive (pageOf s pg) pg off bank).toNat hi lo

/-- The active value of a field of a register without banks. -/
def fldV (s : State) (pg : PageId) (off hi lo : Nat) : Nat := fldB s pg off 0 hi lo

/-- Sets the active value of a field, as hardware does (a mode change that resets a register, a counter). -/
def setFldB (s : State) (pg : PageId) (off bank hi lo v : Nat) : State :=
  let p := pageOf s pg
  let w := BitVec.ofNat 32 (setFld (regActive p pg off bank).toNat hi lo v)
  setPage s pg { p with regs := mset p.regs (off, bank) w }

/-! ## Counters, output -/

/-- R470, R471: a counter of 48 bits with its WRAP bit as bit 48, after n more events: it wraps, and a carry sets WRAP. -/
def ctrAdd (v n : Nat) : Nat :=
  let x := v % 2 ^ 48 + n
  if x ≥ 2 ^ 48 then x % 2 ^ 48 + 2 ^ 48 else x + v / 2 ^ 48 * 2 ^ 48

/-- R471, R478: an event counter of a page rises by n (its index within the page's counter region). -/
def count (s : State) (pg : PageId) (i n : Nat) : State :=
  if n = 0 then s else { s with ctr := mset s.ctr (pg, i) (ctrAdd (mget s.ctr (pg, i) 0) n) }

def emit (s : State) (e : Emission) : State := { s with out := s.out ++ [e] }

/-! ## Pond bandwidth (R29, R395) -/

/-- The quadrant of a pond address. -/
def pondOf (a : Nat) : Fin 4 := ⟨a / 2 ^ 35 % 4, by omega⟩

/-- R395, R478: the bytes that an access moves in a pond, counted in units of 64 as traffic other than the line's. -/
def countPond (s : State) (x : Nat × Nat) : State := if bit x.1 39 then count s (.pond (pondOf x.1)) 1 (cdiv x.2 64) else s

/-- Bytes stored in memory from an address on, with their pond traffic. -/
def storeMem (s : State) (a : Nat) (b : Bytes) : State := countPond { s with mem := memPut s.mem a b } (a, b.length)

/-- R395: the units of 64 bytes that a pond has moved since the last boundary, for the line and otherwise. -/
def pondMoved (s : State) (q : Fin 4) : Nat × Nat :=
  let old := mget s.pondCtr q (0, 0)
  let d := fun (a b : Nat) => (a % 2 ^ 48 + 2 ^ 48 - b % 2 ^ 48) % 2 ^ 48
  (d (mget s.ctr (.pond q, 0) 0) old.1, d (mget s.ctr (.pond q, 1) 0) old.2)

/-- R29: whether a tray request at an address finds no bandwidth: the pond has moved the 1.152 TB/s of the superframe under way, of
which the line takes its part first (DESIGN CHOICE, entry 112: bandwidth is reckoned by the superframe). -/
def pondSpent (s : State) (a : Nat) : Bool :=
  let m := pondMoved s (pondOf a)
  bit a 39 && m.1 + m.2 ≥ 144000

/-! ## The gateway's number and the master -/

/-- R142: the gateway's number g, if it has one. -/
def gwNum (s : State) : Option Nat := s.fab.net.number.map (fun n => 64 * n.1 + n.2)

/-- The gateway's number, 0 where it has none. -/
def gw (s : State) : Nat := (gwNum s).getD 0

def site (s : State) : Nat := gw s / 64

/-- The wire size of a datagram of n UDP payload bytes that the gateway sends (R377): Ethernet, IP, UDP, FCS and
inter-frame bytes. -/
def wireSize (v6 tagged : Bool) (n : Nat) : Nat := n + 66 + (if v6 then 20 else 0) + (if tagged then 4 else 0)

def EgQueue.empty : EgQueue := ⟨[], [], 0, 0, 0, 0, 0⟩

/-- R378: the tokens of a queue after reset, 16 × BURST. -/
def EgQueue.reset (q : Nat) : EgQueue := { EgQueue.empty with tokens := 16 * (shBurst q : Int) }

def egQ (s : State) (p : Fin 64) (q : Fin 32) : EgQueue := mget s.egress (p, q) (EgQueue.reset q)

def setEgQ (s : State) (p : Fin 64) (q : Fin 32) (e : EgQueue) : State :=
  { s with egress := mset s.egress (p, q) e }

def quadOf (p : Fin 64) : Fin 4 := ⟨p.val / 16, by omega⟩
def portOf (p : Fin 64) : Fin 16 := ⟨p.val % 16, by omega⟩
def fportOf (p : Fin 64) : PageId := .fport (quadOf p) (portOf p)

def sumWire (l : List EgPkt) : Nat := l.foldl (fun n p => n + p.wire) 0

/-- The bytes queued on a port. -/
def portBytes (s : State) (p : Fin 64) : Nat :=
  (List.finRange 32).foldl (fun n q => n + sumWire (egQ s p q).pkts) 0


/-- R375, R393: the queue a class maps to. -/
def queueOf (s : State) (q : Fin 4) (c : Tclass) : Fin 32 :=
  let v := match c with
    | .fast => fldV s (.tm q) 0x44 4 0 | .ptp => fldV s (.tm q) 0x44 9 5 | .site => fldV s (.tm q) 0x44 14 10
    | .mgmt => fldV s (.tm q) 0x44 19 15 | .bulk => fldV s (.tm q) 0x44 24 20 | .peer => fldV s (.tm q) 0x44 29 25
    | .weight => fldV s (.tm q) 0x48 4 0
  ⟨v % 32, by omega⟩

/-- R376: whether a packet of a wire size fits a queue of a port: the queue's limit and the port's 2 MiB. -/
def egFits (s : State) (p : Fin 64) (q : Fin 32) (wire : Nat) : Bool :=
  sumWire (egQ s p q).pkts + wire ≤ 1024 * fldB s (.tm (quadOf p)) 0x54 q.val 11 0 &&
  portBytes s p + wire ≤ 2097152

/-- R43, R44: whether a block takes new work: it is enabled, it does not quiesce, and it is neither halted nor quarantined. -/
def takesWork (s : State) (pg : PageId) : Bool :=
  let p := pageOf s pg
  p.enable && !p.quiesce && !p.halted && !p.quarantined

/-- R44, R376: whether a port takes another packet of a wire size into a queue. -/
def egTakes (s : State) (p : Fin 64) (q : Fin 32) (wire : Nat) : Bool :=
  takesWork s (.tm (quadOf p)) && takesWork s (fportOf p) && egFits s p q wire

/-- R376: a packet enters a queue, or waits at its producer until it fits and the traffic manager and port take work (R44).
Nothing is dropped. -/
def egPush (s : State) (p : Fin 64) (c : Tclass) (b : Body) (wire : Nat) : State :=
  let q := queueOf s (quadOf p) c
  let e := egQ s p q
  let pk : EgPkt := ⟨c, b, wire, s.sf⟩
  if e.waiting.isEmpty && egTakes s p q wire then setEgQ s p q { e with pkts := e.pkts ++ [pk] }
  else setEgQ s p q { e with waiting := e.waiting ++ [pk] }

/-- R149, R250: the peer port and the state-record port follow the command port. -/
def peerPort (s : State) : Nat := s.fab.net.port + 1
def statePort (s : State) : Nat := s.fab.net.port + 2

/-- R295, R424: a message to another gateway of the site, in the SITE class, at the peer port. -/
def sendSite (s : State) (g : Nat) (m : Msg) : State :=
  let p := Config.sitePort g
  match m with
  | .ctl c => egPush s p .site (.ctl g (peerPort s) c) (wireSize true true 48)
  | .rcv r => egPush s p .site (.rcv g (peerPort s) r) (wireSize true true 64)

/-- A unit enters the transmit queue of a link's virtual channel. -/
def lineSend (s : State) (l : LinkId) (vc : Nat) (u : LUnit) : State :=
  { s with lineTx := mset s.lineTx (l, vc) (mget s.lineTx (l, vc) [] ++ [u]) }

/-- A message on a line link: control messages on VC0, recovery messages on VC6 (R294). -/
def sendLink (s : State) (l : LinkId) (m : Msg) : State :=
  match m with
  | .ctl c => lineSend s l 0 (.ctl c)
  | .rcv r => lineSend s l 6 (.rcv r)

/-- A message held for a master that is not known, or not reached (R426). -/
def owe (s : State) (m : Msg) : State := { s with rseq := { s.rseq with owed := s.rseq.owed ++ [m] } }

/-- R426: a message toward the master: to itself where the gateway is the master, over the site fabric at the master's
site, on the parent link elsewhere, and without one to a LOCKED gateway of its own site; held where there is no
announcement or no path. -/
def sendMaster (s : State) (m : Msg) : State :=
  if s.lt.st = .master then { s with rseq := { s.rseq with loop := s.rseq.loop ++ [m] } }
  else
    match s.lt.ann with
    | none => owe s m
    | some a =>
      if (gwNum s).isSome && a.gw / 64 == site s then sendSite s a.gw m
      else match s.lt.parent with
        | some l => sendLink s l m
        | none => match Config.siteLocked (gw s) s.sf with
          | some g => sendSite s g m
          | none => owe s m

/-- The gateway number of the master this gateway follows, 0xFFFF where none is known. -/
def masterGw (s : State) : Nat :=
  if s.lt.st = .master then gw s else match s.lt.ann with
    | some a => a.gw
    | none => 0xFFFF

/-! ## Addresses of pages (R35, R39) -/

/-- The BAR0 offset of a page. -/
def pageAddr : PageId → Nat
  | .dir => 0x0 | .kazsy => 0x1000 | .secp => 0x2000 | .pwr => 0x3000 | .boot => 0x4000 | .pcie => 0x5000
  | .cpw => 0x6000 | .i3c => 0x7000 | .time => 0x8000 | .tio => 0x9000 | .wrt => 0xA000 | .rseq => 0xB000
  | .elog => 0xC000 | .ledger => 0xD000 | .tpool => 0xE000 | .cart i => 0xF000 + i.val * 0x1000 | .mfl => 0x11000
  | .quad q => 0x40000 * (q.val + 1) | .fpe q i => 0x40000 * (q.val + 1) + 0x1000 + i.val * 0x1000
  | .tm q => 0x40000 * (q.val + 1) + 0x3000 | .ffe q => 0x40000 * (q.val + 1) + 0x4000
  | .leng q => 0x40000 * (q.val + 1) + 0x5000 | .line q => 0x40000 * (q.val + 1) + 0x6000
  | .fec q => 0x40000 * (q.val + 1) + 0x7000 | .ciph q i => 0x40000 * (q.val + 1) + 0x8000 + i.val * 0x1000
  | .pond q => 0x40000 * (q.val + 1) + 0xA000 | .launch q => 0x40000 * (q.val + 1) + 0xB000
  | .fport q p => 0x40000 * (q.val + 1) + 0x10000 + p.val * 0x1000
  | .tile t => 0x200000 + t.val * 0x2000 | .tdec t => 0x201000 + t.val * 0x2000

/-! ## Raising a code -/

/-- R19: the class of a code. -/
def codeClass (c : Nat) : Nat := c / 4096

/-- R419: the level a code enters. -/
def codeLevel (c : Nat) : Nat :=
  if c ∈ [0x3201, 0x3202, 0x3203, 0x3901] then 2
  else if c ∈ [0x3102, 0x3703, 0x3704] then 5
  else if c ∈ [0x3702, 0x3705, 0x3706, 0x3707] then 4
  else match codeClass c with | 2 => 1 | 3 => 3 | 4 => 4 | _ => 0

/-- R434: an entry joins the error log, and the flash store when it is of class 4 or of level 4 or 5. -/
def logPush (s : State) (e : LogEnt) : State :=
  let full := decide (s.elog.ring.length ≥ 4096)
  let ring := (if full then s.elog.ring.drop 1 else s.elog.ring) ++ [e]
  let fl := s.elog.flash ++ [e]
  let toFlash := codeClass e.code == 4 && e.kind == 0 || e.level ≥ 4
  let s := count s .elog 0 1
  { s with elog := { ring := ring, wrapped := s.elog.wrapped || full,
                     flash := if toFlash then fl.drop (fl.length - 64) else s.elog.flash } }

/-- CIID fields (R15). -/
def ciidJob (c : BitVec 64) : Nat := fld c.toNat 63 48
def ciidStep (c : BitVec 64) : Nat := fld c.toNat 47 24
def ciidOrd (c : BitVec 64) : Nat := fld c.toNat 23 8
def ciidReplay (c : BitVec 64) : Nat := fld c.toNat 7 0
def mkCiid (job step ord replay : Nat) : BitVec 64 :=
  BitVec.ofNat 64 (((job % 65536 * 2 ^ 24 + step % 2 ^ 24) * 65536 + ord % 65536) * 256 + replay % 256)

/-- The slot of an index. -/
def slotOf (s : State) (i : Nat) : Slot := if i = 0 then s.plans.slot0 else s.plans.slot1

def setSlot (s : State) (i : Nat) (x : Slot) : State :=
  if i = 0 then { s with plans := { s.plans with slot0 := x } } else { s with plans := { s.plans with slot1 := x } }

/-- Whether a step of a job is committed (R79). -/
def committed (s : State) (job step : Nat) : Bool := s.plans.committed.contains (job, step)

/-- The replay count of the attempt of a step that the gateway runs or last ran. -/
def replayOf (s : State) (job step : Nat) : Nat := mget s.plans.replay (job, step) 0

/-- The oldest uncommitted step that has begun at the gateway, with its job and replay count (R419). -/
def oldestBegun (s : State) : Option (Nat × Nat) :=
  let f := fun (x : Slot) => match x.plan with
    | some p => (x.begun.filter (fun st => !committed s p.job st)).map (fun st => (p.job, st))
    | none => []
  let order := if s.plans.slot1.st = .active || s.plans.slot0.st = .next then
      f s.plans.slot1 ++ f s.plans.slot0 else f s.plans.slot0 ++ f s.plans.slot1
  match order with
  | x :: _ => some x
  | [] => none

/-- R419: the step attempt a code names: that of the CIID given, otherwise the oldest uncommitted begun step. -/
def attemptOf (s : State) (c : BitVec 64) : Option (BitVec 64) :=
  if c ≠ 0 then some (mkCiid (ciidJob c) (ciidStep c) 0 (ciidReplay c))
  else (oldestBegun s).map (fun x => mkCiid x.1 x.2 0 (replayOf s x.1 x.2))

/-- R424, R425: a recovery message of this gateway with its CHECK left to `sealRcv`. -/
def mkRcv (s : State) (kind dst level serial code : Nat) (ciid : BitVec 64) (subject arg sf value matrix : Nat) : Rcv :=
  { mkind := BitVec.ofNat 8 kind, mver := 1, srcGw := BitVec.ofNat 16 (gw s), dstGw := BitVec.ofNat 16 dst, ttl := 32,
    level := BitVec.ofNat 8 level, serial := BitVec.ofNat 32 serial, code := BitVec.ofNat 32 code, ciid := ciid,
    subjectGw := BitVec.ofNat 16 subject, arg := BitVec.ofNat 8 arg, rsvd1 := 0, sf := BitVec.ofNat 64 sf,
    value := BitVec.ofNat 64 value, matrix := BitVec.ofNat 32 matrix, rsvd2 := 0, check := 0 }

/-- R424: bytes 0 to 59 of a recovery message. -/
def rcvBody (m : Rcv) : Bytes :=
  [m.mkind, m.mver] ++ beBytes 2 m.srcGw.toNat ++ beBytes 2 m.dstGw.toNat ++ [m.ttl, m.level] ++
  beBytes 4 m.serial.toNat ++ beBytes 4 m.code.toNat ++ beBytes 8 m.ciid.toNat ++ beBytes 2 m.subjectGw.toNat ++
  [m.arg, m.rsvd1] ++ beBytes 8 m.sf.toNat ++ beBytes 8 m.value.toNat ++ beBytes 4 m.matrix.toNat ++
  beBytes 12 m.rsvd2.toNat

/-- R424: CHECK is the CRC-32C of bytes 0 to 59. -/
def sealRcv (m : Rcv) : Rcv := { m with check := BitVec.ofNat 32 (crc32c (rcvBody m)) }

/-- R295: bytes 0 to 43 of a control message. -/
def ctlBody (m : Ctl) : Bytes :=
  [m.cver, m.ctype, m.state, m.rsvd1] ++ beBytes 2 m.srcGw.toNat ++ beBytes 2 m.rsvd2.toNat ++
  beBytes 8 m.ciid.toNat ++ beBytes 4 m.epoch.toNat ++ beBytes 4 m.rsvd3.toNat ++ beBytes 8 m.sf.toNat ++
  beBytes 8 m.digest.toNat ++ beBytes 4 m.rsvd4.toNat

/-- R295: a control message of this gateway, with its CHECK. -/
def mkCtl (s : State) (ctype st : Nat) (ciid : BitVec 64) (epoch sf digest : Nat) : Ctl :=
  let m : Ctl :=
    { cver := 2, ctype := BitVec.ofNat 8 ctype, state := BitVec.ofNat 8 st, rsvd1 := 0,
      srcGw := BitVec.ofNat 16 (gw s), rsvd2 := 0, ciid := ciid, epoch := BitVec.ofNat 32 epoch, rsvd3 := 0,
      sf := BitVec.ofNat 64 sf, digest := BitVec.ofNat 64 digest, rsvd4 := 0, check := 0 }
  { m with check := BitVec.ofNat 32 (crc32c (ctlBody m)) }

/-- R420: a RECOVER_REQ to the master, under the gateway's next message serial. -/
def sendRecoverReq (s : State) (level code : Nat) (ciid : BitVec 64) (subject : Nat) : State :=
  let n := s.rseq.msgSerial + 1
  let s1 := { s with rseq := { s.rseq with msgSerial := n } }
  sendMaster s1 (.rcv (sealRcv (mkRcv s1 0x10 (masterGw s1) level n code ciid subject 0 s1.sf 0 0)))

/-- R49: of two events of one clock the one captured is that of the higher class, and within a class that of the lower code. -/
def outranks (a b : Nat) : Bool := codeClass b < codeClass a || (codeClass a == codeClass b && a < b)

/-- R49: a first error captured. -/
def Page.capture (p : Page) (code info sf : Nat) : Page :=
  { p with firstValid := true, firstCode := BitVec.ofNat 16 code, firstSf := BitVec.ofNat 16 sf,
           firstInfo := BitVec.ofNat 32 info }

/-- R49: one error event in the record of a page: class bit, first error or count. `sameClk` says that the first error held was
captured in this clock, and gives way to an event that outranks it. -/
def Page.record (p : Page) (code info sf : Nat) (sameClk : Bool) : Page :=
  let p := { p with classSeen := p.classSeen ||| BitVec.ofNat 5 (2 ^ codeClass code) }
  if p.firstValid then
    let p := { p with errCount := if p.errCount = 0xFFFF then 0xFFFF else p.errCount + 1 }
    if sameClk && outranks code p.firstCode.toNat then p.capture code info sf else p
  else p.capture code info sf

/-- R49: whether a page has captured its first error in the clock whose events are being raised. -/
def inClock (s : State) (pg : PageId) : Bool :=
  match s.clk with
  | some l => l.contains pg
  | none => false

/-- R49: a page that captures a first error joins the pages of this clock. -/
def noteClock (s : State) (pg : PageId) : State :=
  match s.clk with
  | some l => if (pageOf s pg).firstValid then s else { s with clk := some (pg :: l) }
  | none => s

/-- R49: the events that an operation raises arrive in one clock. -/
def oneClock (f : State → State) (s : State) : State := { f { s with clk := some [] } with clk := none }

/-- R56: an MSI-X message on a vector: sent, or pending while the vector's entry is masked. -/
def notify (s : State) (v : Nat) : State :=
  if (s.msix.word (16 * v + 12)).getLsbD 0 then
    { s with msix := { s.msix with pend := s.msix.pend ||| BitVec.ofNat 8 (2 ^ v) } }
  else emit s (.msix v ((s.msix.word (16 * v)).toNat + (s.msix.word (16 * v + 4)).toNat * 2 ^ 32) (s.msix.word (16 * v + 8)))

def tileOf (s : State) (t : Fin 64) : Tile := mget s.plans.tiles t Tile.reset

/-- R46: the value that a page's epoch boundary writes to CFG_EPOCH. -/
def epochNow (s : State) : PageId → Nat
  | .tm _ | .fport _ _ => s.refills % 2 ^ 32
  | .tile t => (tileOf s t).replay % 256 * 2 ^ 24 + (tileOf s t).step % 2 ^ 24
  | .tdec t => mget s.tdec.lastGen t 0
  | _ => s.sf % 2 ^ 32

/-- R47: every pending value of a page becomes active, under an epoch value. -/
def Page.apply (p : Page) (epoch : Nat) : Page :=
  if p.pend.isEmpty then p
  else { p with regs := p.pend.foldr (fun e r => mset r e.1 e.2) p.regs, pend := [], appliedValid := true,
                cfgEpoch := BitVec.ofNat 32 epoch }

/-- R44, R47: a class 4 error halts its block, unless the block is OFF; entering HALTED applies pending values. -/
def Page.halt (p : Page) (epoch : Nat) : Page :=
  if p.enable || p.halted then ({ p with halted := true, quiescing := false }).apply epoch else p

/-- R49, R50, R419, R420, R434: a block raises a code on a page, with the detail of ERR_FIRST_INFO (0 where the chapter gives the
code no detail: DESIGN CHOICE, entry 87) and the CIID of the
instance or step attempt it concerns (0 for none): the page's record, the MSI-X message, the error log, the bits of
ALARM_SUM, and for classes 3 and 4 the recovery sequencer, which sends the master a RECOVER_REQ unless the code enters
level 2 (R130, R239) or concerns no job, naming the subject gateway. -/
def raiseSubj (s : State) (pg : PageId) (code info : Nat) (ciid : BitVec 64) (subject : Nat) : State :=
  let cls := codeClass code
  let p := (pageOf s pg).record code info s.sf (inClock s pg)
  let p := if cls = 4 then p.halt (epochNow s pg) else p
  let s := setPage (noteClock s pg) pg p
  let s := if p.irq.getLsbD cls then notify s 0 else s
  let s := if cls = 4 && !s.i3c.class4Seen then
      let s := { s with i3c := { s.i3c with class4Seen := true } }
      if s.i3c.ibiOn then emit s .ibi else s
    else s
  let at? := attemptOf s ciid
  let logged := cls ≥ 3 || (cls == 1 && fldV s .elog 0x44 0 0 == 1) || (cls == 2 && fldV s .elog 0x44 1 1 == 1)
  let s := if logged then
      logPush s { sf := s.sf, code := code, kind := 0, level := codeLevel code, page := fld (pageAddr pg) 27 12,
                  info := BitVec.ofNat 32 info, serial := s.rseq.serial, ciid := if ciid ≠ 0 then ciid else at?.getD 0,
                  extra := List.replicate 32 0 }
    else s
  if cls < 3 || codeLevel code = 2 then s
  else match at? with
    | some a => sendRecoverReq s (codeLevel code) code a subject
    | none => if cls = 4 then sendRecoverReq s 4 code 0 subject else s

/-- Raising a code whose recovery, if any, concerns this gateway. -/
def raiseFor (s : State) (pg : PageId) (code info : Nat) (ciid : BitVec 64) : State := raiseSubj s pg code info ciid (gw s)

/-- Raising a code that names no instance. -/
def raise (s : State) (pg : PageId) (code info : Nat) : State := raiseFor s pg code info 0

end Sys2Proof.Machine
end

