-- ==== Sys2Proof/Machine/Links.lean ====
section
/-! DEFINITION. Machine/Links.lean: slots and links of the line (R283, R308 to R314) as other chapters see them: link states,
delays, and the delivered units that their layers take (R305 to R307). -/
namespace Sys2Proof.Machine
open Sys2Proof

def lslot (s : State) (q : Fin 4) (k : Fin 18) : LSlot := mget s.line.slots (q, k) LSlot.reset
def setLSlot (s : State) (q : Fin 4) (k : Fin 18) (x : LSlot) : State :=
  { s with line := { s.line with slots := mset s.line.slots (q, k) x } }

def llink (s : State) (l : LinkId) : LLink := mget s.line.links l LLink.reset
def setLLink (s : State) (l : LinkId) (x : LLink) : State :=
  { s with line := { s.line with links := mset s.line.links l x } }

def lciph (s : State) (l : LinkId) : LCiph := mget s.ciph.links l LCiph.reset
def setLCiph (s : State) (l : LinkId) (x : LCiph) : State :=
  { s with ciph := { s.ciph with links := mset s.ciph.links l x } }

def allLinks : List LinkId := (List.finRange 4).flatMap (fun g => (List.finRange 4).map (fun l => (g, l)))
def groupLinks (g : Fin 4) : List LinkId := (List.finRange 4).map (fun l => (g, l))

/-- R314, R315: the fields of LINK_CFG. -/
def linkPeer (s : State) (l : LinkId) : Nat := fldB s (.line l.1) 0x54 l.2.val 10 0
def linkLanes (s : State) (l : LinkId) : Nat := fldB s (.line l.1) 0x54 l.2.val 28 11
def laneIn (s : State) (l : LinkId) (k : Fin 18) : Bool := bit (linkLanes s l) k.val

/-- The slots of a link. -/
def linkSlots (s : State) (l : LinkId) : List (Fin 18) := (List.finRange 18).filter (laneIn s l)

/-- The link a slot belongs to. -/
def slotLink (s : State) (q : Fin 4) (k : Fin 18) : Option LinkId := (groupLinks q).find? (fun l => laneIn s l k)

/-- R443: LT_DOMAIN as the gateway sends and compares it: bit 15 set in TEST, clear in RECOVERY and SERVICE. -/
def ltDomain (s : State) : Nat := fldV s .time 0x54 14 0 + (if s.mode = some .test then 0x8000 else 0)

/-! ## Light under a slot (R348, R353) -/

def laserOf (s : State) (b : Fin 2) (n : Nat) : Laser := mget s.light.lasers (b, n) Laser.absent
def setLaser (s : State) (b : Fin 2) (n : Nat) (x : Laser) : State :=
  { s with light := { s.light with lasers := mset s.light.lasers (b, n) x } }

/-- R348: the line laser of a slot. -/
def laserNum (g : Fin 4) (k : Fin 18) : Nat := 18 * g.val + k.val
def slotLaser (s : State) (g : Fin 4) (k : Fin 18) : Laser := laserOf s 1 (laserNum g k)

def ringOf (s : State) (g : Fin 4) (k : Fin 18) (b : Fin 4) : Ring := mget s.light.rings ((g, k), b) Ring.none
def setRing (s : State) (g : Fin 4) (k : Fin 18) (b : Fin 4) (x : Ring) : State :=
  { s with light := { s.light with rings := mset s.light.rings ((g, k), b) x } }

/-- Whether a slot's laser is lit, and whether its transmit optics are ready: laser and transmit rings (R309, R310). -/
def lit (s : State) (g : Fin 4) (k : Fin 18) : Bool := (slotLaser s g k).st == .lit
def txOptics (s : State) (g : Fin 4) (k : Fin 18) : Bool :=
  lit s g k && (ringOf s g k 0).locked && (ringOf s g k 1).locked

/-- R366: the code of pair f, slot k in a bank of the wavelength router. -/
def mapCode (s : State) (bank : Nat) (f : Fin 4) (k : Fin 18) : Nat :=
  fldB s .wrt (0x48 + 4 * (k.val / 8)) (bank + 4 * f.val) (4 * (k.val % 8) + 3) (4 * (k.val % 8))

/-- R366, R368: the fibre pair on which a slot of a group terminates: by the active bank, entries that a running apply has blanked
apart. None where no pair carries the slot to the group. -/
def pairOf (s : State) (g : Fin 4) (k : Fin 18) : Option (Fin 4) :=
  let w := s.light.wrt
  let blank := match w.run with | some r => r.changed | none => []
  (List.finRange 4).find? (fun f => mapCode s w.active f k == g.val + 1 && !blank.contains (f, k))

/-- The spare insertion of a link, if one runs (R359). -/
def insertOf (s : State) (l : LinkId) : Option Insert :=
  match mget? s.light.ins l with
  | some i => if 1 ≤ i.phase ∧ i.phase ≤ 4 then some i else none
  | none => none

/-- The slots of a link whose transmit side is UP, and those whose receive side is. -/
def txUp (s : State) (l : LinkId) : List (Fin 18) := (linkSlots s l).filter (fun k => (lslot s l.1 k).tx == .up)
def rxUp (s : State) (l : LinkId) : List (Fin 18) := (linkSlots s l).filter (fun k => (lslot s l.1 k).rx == .up)

/-- R328, R334: whether derived keys of a link are in force in both directions. -/
def linkKeyed (s : State) (l : LinkId) : Bool := (lciph s l).tx.isSome && (lciph s l).rx.isSome

/-- R311: LINK_STATE.STATE: 0 DOWN, 1 TRAIN, 2 UP, 3 LOST. -/
def linkState (s : State) (l : LinkId) : Nat :=
  if !(llink s l).en then 0 else if (llink s l).lost then 3
  else if !(txUp s l).isEmpty && linkKeyed s l then 2 else 1

def linkUp (s : State) (l : LinkId) : Bool := linkState s l == 2

/-- R312: D_link in whole superframes: the larger delay and the 3.5 µs of device latency, rounded up. -/
def dLink (s : State) (l : LinkId) : Nat := cdiv ((llink s l).delay.toNat + 3500000) 8000000

/-- R299, R306: the counts of a virtual channel when its link first comes up. No ACK has brought a grant yet: the default
grant of R307 stands for it. -/
def VcLine.reset (vc : Nat) : VcLine := ⟨0, 0, 0, vcGrant vc, 0, 0, [], 0, 0, 0, 0⟩
def vcLine (x : LLink) (vc : Nat) : VcLine := mget x.vcs vc (VcLine.reset vc)
def LLink.setVc (x : LLink) (vc : Nat) (v : VcLine) : LLink := { x with vcs := mset x.vcs vc v }

/-- R306: a received frame whose last unit has been taken or discarded returns its credits. -/
def freeRx (s : State) (l : LinkId) (vc : Nat) (seq : BitVec 32) : State :=
  if s.line.inbox.any (fun u => u.link == l && u.vc == vc && u.seq == seq) then s
  else
    let x := llink s l
    match x.rx.find? (fun f => f.vc == vc && f.seq == seq) with
    | none => s
    | some f =>
      let v := vcLine x vc
      let v := { v with held := v.held - f.cost, ret := v.ret + BitVec.ofNat 32 f.cost }
      setLLink s l ({ x with rx := x.rx.filter (fun y => !(y.vc == vc && y.seq == seq)) }.setVc vc v)

/-- A delivered unit of a link, in its place in the list. -/
def unitAt (s : State) (l : LinkId) (b : LUnit) : Option Nat :=
  s.line.inbox.findIdx? (fun u => u.link == l && u.body == b && !u.unver)

/-- R305: whether a unit stands first among the units of its link and virtual channel. -/
def isFirst (s : State) (i : Nat) (u : Unit) : Bool :=
  (s.line.inbox.take i).all (fun w => !(w.link == u.link && w.vc == u.vc))

/-- R305, R307, R338: a delivered unit taken by its layer: units of VC0 and VC6 in order, units of other channels in any
order, a unit released UNVERIFIED not before its tag verifies. None where the unit does not stand there. -/
def takeUnit (s : State) (l : LinkId) (b : LUnit) : Option State :=
  match unitAt s l b with
  | none => none
  | some i =>
    match s.line.inbox[i]? with
    | none => none
    | some u =>
      if (u.vc == 0 || u.vc == 6) && !isFirst s i u then none
      else
        let s := { s with line := { s.line with inbox := s.line.inbox.eraseIdx i } }
        some (freeRx s l u.vc u.seq)

end Sys2Proof.Machine
end

