-- ==== Sys2Proof/Machine/Trays.lean ====
section
/-! DEFINITION. Machine/Trays.lean: the tray pools (R382 to R389): sizes, policies, allocation, set-asides and frees. -/
namespace Sys2Proof.Machine
open Sys2Proof

/-- R382, R396: SRAM trays of one tile. -/
def sramPerTile (s : State) : Nat := fldV s .tpool 0x44 4 0 * 256

/-- R382, R395: pond trays of one quadrant, GEN_TRAYS. -/
def genTrays (s : State) (q : Fin 4) : Nat := (32 - fldV s (.pond q) 0x44 4 0 - fldV s (.pond q) 0x44 12 8) * 16384

/-- R201, R382: the end of the general region in the address space of a pond. The spec does not place the three regions of a pond: the
general region, whose trays are numbered from 0, begins at offset 0 here, and the line and staging regions lie above it (DESIGN CHOICE,
entry 104). -/
def generalTop (s : State) (q : Fin 4) : Nat := genTrays s q * 65536

def isSram : TrayId → Bool
  | .sram _ _ => true
  | .pond _ _ => false

def trayTile : TrayId → Option (Fin 64)
  | .sram t _ => some t
  | .pond _ _ => none

def trayQuad : TrayId → Option (Fin 4)
  | .sram _ _ => none
  | .pond q _ => some q

/-- R384: whether a held tray counts inside a standing set-aside. -/
def insideAside (s : State) (h : TrayHold) : Bool :=
  match h.aside with
  | none => false
  | some n => (mget? s.trays.asides n).isSome

/-- Trays held outside set-asides that meet a condition. -/
def heldWhere (s : State) (f : TrayId → TrayHold → Bool) : Nat :=
  (s.trays.held.filter (fun e => !insideAside s e.2 && f e.1 e.2)).length

/-- R384: what set-asides take of a tile's SRAM trays and of the pond. -/
def asideSram (s : State) (t : Fin 64) : Nat := s.trays.asides.foldl (fun n a => n + a.2.sram.getD t.val 0) 0
def asidePond (s : State) : Nat := s.trays.asides.foldl (fun n a => n + a.2.pond) 0

/-- R388, R389: free SRAM trays of a tile; none in a tile whose trays have left the pool. -/
def freeSramIn (s : State) (t : Fin 64) : Nat :=
  if s.trays.removed.contains t then 0
  else sramPerTile s - heldWhere s (fun i _ => trayTile i == some t) - asideSram s t

def freeSram (s : State) : Nat := (List.finRange 64).foldl (fun n t => n + freeSramIn s t) 0

/-- Pond trays of a quadrant with no holder. -/
def freePondIn (s : State) (q : Fin 4) : Nat :=
  genTrays s q - (s.trays.held.filter (fun e => trayQuad e.1 == some q)).length

/-- Free pond trays: those without a holder, less what set-asides have not yet taken (R384). -/
def freePond (s : State) : Nat :=
  (List.finRange 4).foldl (fun n q => n + genTrays s q) 0 - heldWhere s (fun i _ => !isSram i) - asidePond s

/-- R384, R396: trays a requester holds, set-asides included. -/
def reqSram (s : State) (r : Nat) : Nat :=
  heldWhere s (fun i h => isSram i && h.req == r) +
  s.trays.asides.foldl (fun n a => if a.2.req = r then n + a.2.sram.foldl (· + ·) 0 else n) 0
def reqPond (s : State) (r : Nat) : Nat :=
  heldWhere s (fun i h => !isSram i && h.req == r) +
  s.trays.asides.foldl (fun n a => if a.2.req = r then n + a.2.pond else n) 0

def quotaSram (s : State) (r : Nat) : Nat := fldB s .tpool 0x54 r 18 0
def quotaPond (s : State) (r : Nat) : Nat := fldB s .tpool 0x58 r 20 0
def minSram (s : State) (r : Nat) : Nat := fldB s .tpool 0x5C r 18 0
def minPond (s : State) (r : Nat) : Nat := fldB s .tpool 0x60 r 20 0

/-- R385: whether the pool's policy lets a requester take n more trays of a pool: the quota in SERVICE, the minima in every
other mode. -/
def policyOk (s : State) (sram : Bool) (r n : Nat) : Bool :=
  let held := if sram then reqSram s r else reqPond s r
  let free := if sram then freeSram s else freePond s
  if s.mode = some .service then
    let q := if sram then quotaSram s r else quotaPond s r
    (q == (if sram then 0x7FFFF else 0x1FFFFF) || held + n ≤ q) && n ≤ free
  else
    let mn := fun r => if sram then minSram s r else minPond s r
    let hd := fun r => if sram then reqSram s r else reqPond s r
    if held + n ≤ mn r then n ≤ free
    else
      let kept := (List.range 256).foldl (fun k x => if x = r then k else k + (mn x - hd x)) 0
      n + kept ≤ free

/-- The lowest index of a numbering whose tray nobody holds. -/
def firstFree (s : State) (mk : Nat → TrayId) : Nat → Nat → Option TrayId
  | 0, _ => none
  | n + 1, i => if (mget? s.trays.held (mk i)).isSome then firstFree s mk n (i + 1) else some (mk i)

/-- R388: the quadrant a pond request is served from: the one named, or the one with most free trays, the lower number
winning a tie. -/
def pondChoice (s : State) (q : Fin 4) : Fin 4 :=
  if freePondIn s q > 0 then q
  else (List.finRange 4).foldl (fun b x => if freePondIn s x > freePondIn s b then x else b) 0

/-- R395: n bytes that move into or out of a tray; those of a pond tray are pond traffic. -/
def trayMoved (s : State) (i : TrayId) (n : Nat) : State :=
  match i with
  | .pond q _ => count s (.pond q) 1 (cdiv n 64)
  | .sram _ _ => s

def holdTray (s : State) (i : TrayId) (r : Nat) (aside : Option Nat) : State :=
  { s with trays := { s.trays with held := mset s.trays.held i ⟨r, aside⟩ } }

/-- R385, R388: a pond tray for a requester, or none (POOL_EMPTY). -/
def allocPond (s : State) (r : Nat) (q : Fin 4) : Option (State × TrayId) :=
  if policyOk s false r 1 then
    let q := pondChoice s q
    (firstFree s (.pond q) (s.trays.held.length + 1) 0).map (fun i => (holdTray s i r none, i))
  else none

/-- R385: n pond trays for a requester. -/
def allocPonds (s : State) (r : Nat) (q : Fin 4) : Nat → Option (State × List TrayId)
  | 0 => some (s, [])
  | n + 1 => do
    let (s, i) ← allocPond s r q
    let (s, l) ← allocPonds s r q n
    pure (s, i :: l)

/-- R238, R385: the pond trays of a list taken by number for a requester: none where one is held, lies outside the general region, or
the policy does not grant them. -/
def takePonds (s : State) (r : Nat) (l : List Nat) : Option (State × List TrayId) :=
  let ids := l.map (fun n => TrayId.pond ⟨n / 2 ^ 19 % 4, by omega⟩ (n % 2 ^ 19))
  let fits := fun (i : TrayId) => match i with
    | .pond q n => decide (n < genTrays s q) && (mget? s.trays.held i).isNone
    | .sram _ _ => false
  if ids.all fits && policyOk s false r ids.length then some (ids.foldl (fun s i => holdTray s i r none) s, ids) else none

/-- R388: a free names one tray and its requester; a free of another's tray or of a FREE one raises TRAY_DOUBLE_FREE. -/
def trayNumber (s : State) : TrayId → Nat
  | .sram t i => t.val * sramPerTile s + i
  | .pond q i => ((List.finRange 4).filter (· < q)).foldl (fun n x => n + genTrays s x) 0 + i

def freeTray (s : State) (i : TrayId) (r : Nat) : State :=
  match mget? s.trays.held i with
  | some h =>
    if h.req = r then { s with trays := { s.trays with held := mdel s.trays.held i } }
    else raise (count s .tpool 1 1) .tpool 0x2E01 (trayNumber s i % 2 ^ 21 + (if isSram i then 0 else 2 ^ 21) + r % 256 * 2 ^ 22)
  | none => raise (count s .tpool 1 1) .tpool 0x2E01 (trayNumber s i % 2 ^ 21 + (if isSram i then 0 else 2 ^ 21) + r % 256 * 2 ^ 22)

/-- Frees a tray to whoever holds it. -/
def releaseTray (s : State) (i : TrayId) : State :=
  match mget? s.trays.held i with
  | some h => freeTray s i h.req
  | none => s

def releaseTrays (s : State) (l : List TrayId) : State := l.foldl releaseTray s

def releaseOpt (s : State) (i : Option TrayId) : State := match i with | some t => releaseTray s t | none => s

/-- R384: whether a loader's account covers a set-aside, and the set-aside made. -/
def makeAside (s : State) (slot : Nat) (a : Aside) : Option State :=
  let total := a.sram.foldl (· + ·) 0
  let tilesOk := (List.finRange 64).all (fun t => a.sram.getD t.val 0 ≤ freeSramIn s t)
  if tilesOk && policyOk s true a.req total && policyOk s false a.req a.pond then
    some { s with trays := { s.trays with asides := mset s.trays.asides slot a } }
  else none

def dropAside (s : State) (slot : Nat) : State :=
  { s with trays := { s.trays with asides := mdel s.trays.asides slot } }

/-- R166, R384: trays for an arming cell, taken one by one against the plan's set-aside: SRAM trays in the cell's tile, pond
trays from its quadrant's pond. None when trays of an earlier step still fill the set-aside. -/
def asideLeftSram (s : State) (slot : Nat) (a : Aside) (t : Fin 64) : Nat :=
  a.sram.getD t.val 0 - (s.trays.held.filter (fun e => e.2.aside == some slot && trayTile e.1 == some t)).length
def asideLeftPond (s : State) (slot : Nat) (a : Aside) : Nat :=
  a.pond - (s.trays.held.filter (fun e => e.2.aside == some slot && !isSram e.1)).length

def takeAside (s : State) (slot : Nat) (a : Aside) (t : Fin 64) (q : Fin 4) : Nat → Nat → Option (State × List TrayId)
  | 0, 0 => some (s, [])
  | 0, n + 1 => do
    if asideLeftPond s slot a = 0 then none
    else
      let i ← firstFree s (.pond (pondChoice s q)) (s.trays.held.length + 1) 0
      let (s, l) ← takeAside (holdTray s i a.req (some slot)) slot a t q 0 n
      pure (s, i :: l)
  | m + 1, n => do
    if asideLeftSram s slot a t = 0 then none
    else
      let i ← firstFree s (.sram t) (s.trays.held.length + 1) 0
      let (s, l) ← takeAside (holdTray s i a.req (some slot)) slot a t q m n
      pure (s, i :: l)

/-- R385: whether the minima of a pool, with one replaced, stay within the pool; pending values count (R47). -/
def minimaOk (s : State) (sram : Bool) (r v : Nat) : Bool :=
  let off := if sram then 0x5C else 0x60
  let hi := if sram then 18 else 20
  let acc := fun x => fld (regAccepted (pageOf s .tpool) .tpool off x).toNat hi 0
  let total := (List.range 256).foldl (fun n x => n + if x = r then v else acc x) 0
  let pool := if sram then 64 * sramPerTile s else (List.finRange 4).foldl (fun n q => n + genTrays s q) 0
  total ≤ pool

end Sys2Proof.Machine
end

