-- ==== Sys2Proof/Machine/Pages.lean ====
section
/-! DEFINITION. Machine/Pages.lean: the register pages (R35 to R51): block states, permissions, the checks of a write and its
effect on the fields, and the address map. Effects of writes beyond the fields stand with their chapters. -/
namespace Sys2Proof.Machine
open Sys2Proof


def setTile (s : State) (t : Fin 64) (x : Tile) : State :=
  { s with plans := { s.plans with tiles := mset s.plans.tiles t x } }

def cellOf (s : State) (c : Nat) : Cell := mget s.coll.cells c Cell.free

def setCell (s : State) (c : Nat) (x : Cell) : State :=
  { s with coll := { s.coll with cells := mset s.coll.cells c x } }

/-- R18: the page that holds a cell. -/
def cellPage (c : Nat) : PageId :=
  if c < 15360 then .tile ⟨c / 240 % 64, by omega⟩ else .ffe ⟨(c - 15360) / 256 % 4, by omega⟩

/-- R18: the quadrant that holds a cell. -/
def cellQuad (c : Nat) : Fin 4 :=
  if c < 15360 then ⟨c / 240 / 16 % 4, by omega⟩ else ⟨(c - 15360) / 256 % 4, by omega⟩

/-- The tile of a tile cell. For a fast cell, which belongs to no tile, the number that R173 reports comes from the same formula (DESIGN
CHOICE, entry 102). -/
def cellTile (c : Nat) : Fin 64 := ⟨c / 240 % 64, by omega⟩

def isFastCell (c : Nat) : Bool := 15360 ≤ c

/-- R55: SQq_CFG.EN and VC as the gateway uses them: in BARE mode SQ1 alone is enabled, with VC MGMT. -/
def sqEn (s : State) (q : Fin 4) : Bool :=
  if s.mode = some .bare then q = 1 else fldV s .cpw (0x48 + 0x10 * q.val) 0 0 = 1
def sqVc (s : State) (q : Fin 4) : Nat :=
  if s.mode = some .bare && q = 1 then 3 else fldV s .cpw (0x48 + 0x10 * q.val) 2 1

def anySlot (s : State) (l : List SlotSt) : Bool := l.contains s.plans.slot0.st || l.contains s.plans.slot1.st

/-- Whether a tile is inside a step: it has begun one and not yet ended it. -/
def tileBusy (t : Tile) : Bool := t.active && t.seq != .boundary && t.seq != .stopped

/-- R44: whether a block has work in flight, as its chapter defines it. -/
def busy (s : State) (pg : PageId) : Bool :=
  match pg with
  | .cpw => s.mode != some .bare && (List.finRange 4).any (sqEn s) || !s.cpw.held.isEmpty
  | .ffe q => s.coll.cells.any fun e =>
      15360 + 256 * q.val ≤ e.1 && e.1 < 15616 + 256 * q.val &&
      (e.2.st == .armed || e.2.st == .gathering || e.2.st == .complete)
  | .tm q => s.egress.any fun e => quadOf e.1.1 == q && !(e.2.pkts.isEmpty && e.2.waiting.isEmpty)
  | .fport q p => s.egress.any fun e => quadOf e.1.1 == q && portOf e.1.1 == p && !(e.2.pkts.isEmpty && e.2.waiting.isEmpty)
  | .pond q => s.trays.held.any (fun e => trayQuad e.1 == some q) ||
      (groupLinks q).any (fun l => linkState s l != 0 || !(llink s l).rx.isEmpty)
  | .cart i => s.light.lasers.any fun e => e.1.1 == i && (e.2.st == .tuning || e.2.st == .lit)
  | .leng q => (groupLinks q).any (fun l => linkState s l != 0) || s.light.searching.contains q ||
      s.light.ins.any (fun e => e.1.1 == q && 1 ≤ e.2.phase && e.2.phase ≤ 4)
  | .tio => (List.range 16).any (fun o => fldB s .tio 0x44 o 0 0 == 1) ||
      (List.range 4).any (fun i => fldB s .tio 0x64 i 0 0 == 1)
  | .tpool => s.plans.slot0.st != .empty || s.plans.slot1.st != .empty || s.trays.held.any (fun e => isSram e.1)
  | .tile t => tileBusy (tileOf s t)
  | .time => anySlot s [.active, .next, .held]
  | .launch q => s.plans.launches.any (fun l => l.quad == q)
  | .line q => (groupLinks q).any (fun l => linkState s l != 0)
  | .tdec t => s.tdec.slots.any (fun e => e.1.1 == t && e.2.st == .loading) || !(mget s.tdec.queues t []).isEmpty
  | .fec q => (List.finRange 18).any (fun k => (lslot s q k).rx != .off)
  | .ciph q _ => (groupLinks q).any (fun l => (lciph s l).tx.isSome || (lciph s l).rx.isSome || (lciph s l).hs.isSome)
  | .rseq => s.rseq.level.any (fun e => e.2 != 0)
  | _ => false

/-- R43: BLK_STATE.STATE: 0 OFF, 1 IDLE, 2 BUSY, 3 QUIESCING, 4 HALTED, 5 QUARANTINED. The CPW page is BUSY while a queue is
enabled or a completion held, whatever its ENABLE holds (R54, R55). -/
def blkState (s : State) (pg : PageId) : Nat :=
  let p := pageOf s pg
  if p.halted then 4 else if p.quarantined then 5
  else if !p.enable && !(pg == .cpw && busy s pg) then 0
  else if busy s pg then (if p.quiescing then 3 else 2) else 1

/-- R44: a block whose last work in flight has completed is no longer QUIESCING. -/
def calm (s : State) (pg : PageId) : State :=
  let p := pageOf s pg
  if p.quiescing && !busy s pg then setPage s pg { p with quiescing := false } else s

/-- R43: BLK_STATE.IDLE. -/
def blkIdle (s : State) (pg : PageId) : Bool := blkState s pg ∈ [0, 1, 4]

/-- R39: the owner of a page: 0 host, 1 CCF, 2 security processor. -/
def owner : PageId → Nat
  | .kazsy | .pwr | .rseq | .elog | .ledger | .cart _ => 1
  | .secp | .boot | .mfl | .ciph _ _ => 2
  | _ => 0

/-- R43: PERM.KEYED. -/
def keyed : PageId → Bool
  | .secp | .boot | .mfl | .ciph _ _ => true
  | _ => false

def agentNum : Agent → Nat
  | .host => 0 | .ccf => 1 | .sec => 2

/-- R51: whether an agent may write every field of a page. -/
def mayWriteAll (ag : Agent) (pg : PageId) : Bool :=
  match ag with
  | .host => owner pg = 0
  | .ccf => owner pg ≠ 2
  | .sec => true

/-- R51: whether an agent may write the fields that the host may write on every page. -/
def mayWriteCommon (ag : Agent) (pg : PageId) : Bool := ag = .host || mayWriteAll ag pg


/-- R47: while the block is idle every clock is an epoch boundary: pending values apply. -/
def applyIfIdle (s : State) (pg : PageId) : State :=
  if blkIdle s pg then setPage s pg ((pageOf s pg).apply (epochNow s pg)) else s

/-- R44, R47: a block that may have run out of work: it is no longer QUIESCING then, and its pending values apply. -/
def settlePage (s : State) (pg : PageId) : State :=
  let p := pageOf s pg
  if p.quiescing || !p.pend.isEmpty then applyIfIdle (calm s pg) pg else s

/-- R48: the layout of ERR_FIRST_INFO for a refused write. -/
def refusalInfo (ag : Agent) (off : Nat) (perm : Bool) : Nat :=
  off % 4096 + agentNum ag * 4096 + (if perm then 16384 else 0)

/-- R51: a write refused for permission: PERM_DENIED, PERM_REFUSED. -/
def refusePerm (s : State) (ag : Agent) (pg : PageId) (off : Nat) : State × Nat :=
  let s := raise s pg 0x2002 (refusalInfo ag off true)
  (setPage s pg { pageOf s pg with permRefused := true }, 0x2002)

/-- R48: a write refused with CFG_RANGE or CFG_BUSY, or under a chapter's own code. -/
def refuseCfg (s : State) (ag : Agent) (pg : PageId) (off code : Nat) : State × Nat :=
  let s := raise s pg code (refusalInfo ag off false)
  if code = 0x2008 || code = 0x2001 then (setPage s pg { pageOf s pg with cfgRefused := true }, code) else (s, code)

/-- The bank a register shows: the accepted value of its selector field (R396). -/
def bankOf (p : Page) (pg : PageId) (d : RegDef) : Nat :=
  match d.sel with
  | some (o, hi, lo) => fld (regAccepted p pg o 0).toNat hi lo
  | none => 0

/-- R48: whether a value lies in a field's stated range. -/
def inRange (r : Rng) (v : Nat) : Bool :=
  match r with
  | .any => true
  | .within lo hi => lo ≤ v && v ≤ hi
  | .oneOf l => l.contains v

/-- Refusals that a chapter states for a register beyond its field ranges: the code, or 0. `v` is the value written and
`bank` the bank it reaches. -/
def extraRefusal (s : State) (pg : PageId) (off bank v : Nat) : Nat :=
  match pg with
  | .cpw =>
    if off < 0x80 && off % 16 = 0 then
      -- R53: a TAIL write that would lower the occupancy
      let q : Fin 4 := ⟨(off - 0x40) / 16 % 4, by omega⟩
      let head := mget s.cpw.heads q 0
      let old := fldV s .cpw off 15 0
      if (v % 65536 + 512 - head) % 512 < (old + 512 - head) % 512 then 0x2004 else 0
    else if off = 0x58 && s.mode = some .bare then 0x2001  -- R55: SQ1_CFG in BARE
    else 0
  | .tm q =>
    if off = 0x44 || off = 0x48 then
      -- R375: FAST and PTP map to a strict queue; no class maps to a weighted queue of weight 0
      let qs := if off = 0x44 then (List.range 6).map (fun i => fld v (5 * i + 4) (5 * i)) else [fld v 4 0]
      let strict := off = 0x48 || (qs.getD 0 0 < 4 && qs.getD 1 0 < 4)
      let w := fun x => fld (regAccepted (pageOf s pg) pg 0x50 x).toNat 7 0
      if strict && qs.all (fun x => x < 4 || w x > 0) then 0 else 0x2008
    else if off = 0x50 then
      -- R393: weight 0 for a mapped queue
      let lo := (regAccepted (pageOf s pg) pg 0x44 0).toNat
      let qs := (List.range 6).map (fun i => fld lo (5 * i + 4) (5 * i)) ++
                [fld (regAccepted (pageOf s pg) pg 0x48 0).toNat 4 0]
      if bank ≥ 4 && v % 256 = 0 && qs.contains bank then 0x2008 else 0
    else let _ := q; 0
  | .pond q =>
    -- R382, R395: a general region of at least 8 GiB, and a line region of STAGE_MAX and 1 GiB more
    let stage := fld (regAccepted (pageOf s (.line q)) (.line q) 0x8C 0).toNat 12 0
    if off = 0x44 && (fld v 4 0 + fld v 12 8 > 24 || 1024 * fld v 4 0 < stage + 1024) then 0x2008 else 0
  | .tpool =>
    if off = 0x44 then
      -- R200, R385: the SRAM pool never shrinks below its minima
      let total := (List.range 256).foldl
        (fun n r => n + fld (regAccepted (pageOf s pg) pg 0x5C r).toNat 18 0) 0
      if total ≤ 64 * (fld v 4 0 * 256) then 0 else 0x2008
    else if off = 0x5C then (if minimaOk s true bank (fld v 18 0) then 0 else 0x2008)
    else if off = 0x60 then (if minimaOk s false bank (fld v 20 0) then 0 else 0x2008)
    else if off = 0x74 then
      -- R396: JOB_DROP.GO while a plan of the job is in a slot
      let job := fld v 15 0
      let used := fun (x : Slot) => x.st != .empty && (match x.plan with | some p => p.job == job | none => false)
      if bit v 31 && (used s.plans.slot0 || used s.plans.slot1) then 0x2001 else 0
    else 0
  | .line g =>
    -- R315: a slot named by two links
    if off = 0x54 && (List.range 4).any (fun l => l != bank &&
        fld v 28 11 &&& fld (regAccepted (pageOf s (.line g)) (.line g) 0x54 l).toNat 28 11 != 0) then 0x2008
    -- R102: no link is enabled before the gateway has a number
    else if off = 0x54 && bit v 31 && (gwNum s).isNone then 0x2001
    -- R382: STAGE_MAX and 1 GiB within the line region
    else if off = 0x8C && fld v 12 0 + 1024 > 1024 * fld (regAccepted (pageOf s (.pond g)) (.pond g) 0x44 0).toNat 4 0 then 0x2008
    -- R315: LINK_RESET of a link in TRAIN or UP
    else if off = 0x84 && bit v 8 && (let st := linkState s (g, ⟨v % 4, by omega⟩); st == 1 || st == 2) then 0x2001
    else 0
  | .ciph _ _ =>
    -- R324, R325: DUMMY 0 and SHUFFLE 0 in TEST mode only
    if off = 0x44 && s.mode ≠ some .test && (fld v 1 0 = 0 || !bit v 2) then 0x2008 else 0
  | .leng g =>
    if off = 0x54 then
      -- R371: two enabled entries of one slot, a slot above 17, or a slot in a link's LANES
      let es := ((List.range 4).map (fun i => fld v (8 * i + 7) (8 * i))).filter (fun e => bit e 7)
      let lanes := (List.range 4).foldl (fun m l => m ||| fld (regAccepted (pageOf s (.line g)) (.line g) 0x54 l).toNat 28 11) 0
      let slots := es.map (fun e => e % 32)
      if (List.range es.length).any (fun i => (List.range i).any (fun j => slots.getD i 0 == slots.getD j 0)) ||
        slots.any (fun k => k > 17 || bit lanes k) then 0x2008 else 0
    else if off = 0x58 then (if fld v 15 8 > fld v 7 0 && fld v 23 16 > fld v 15 8 then 0 else 0x2008)
    else if off = 0x60 then (if v % 256 ≤ 30 || v % 256 ≥ 226 then 0 else 0x2008)
    else 0
  | .wrt =>
    -- R373: a write to the active bank
    if (off = 0x48 || off = 0x4C || off = 0x50) && bank % 4 = s.light.wrt.active then 0x2001 else 0
  | .time =>
    -- R413: LT_ELECT.TAKE
    if off = 0x70 && bit v 0 && !(s.lt.st == .locked && fldV s .time 0x50 7 0 < 255) then 0x2001 else 0
  | .tio =>
    -- R410: START_NS by its base; WIDTH below PERIOD
    let acc := fun o => (regAccepted (pageOf s .tio) .tio o bank).toNat
    if off = 0x50 then (if v < (if bit (acc 0x44) 3 then 1000000000 else 8000) then 0 else 0x2008)
    else if off = 0x54 then (if acc 0x58 < v then 0 else 0x2008)
    else if off = 0x58 then (if v < acc 0x54 then 0 else 0x2008)
    else 0
  | .rseq =>
    -- R440: RS_CMD.LEVEL
    if off = 0x54 && fld v 2 0 ≠ 3 && fld v 2 0 ≠ 5 then 0x2008
    -- R436: ACTIVE only over NONE; PROVING only over NONE or RETIRED, with a new fingerprint
    else if off = 0x64 then
      let st := fld (regAccepted (pageOf s .rseq) .rseq 0x64 bank).toNat 1 0
      if v % 4 = 1 && st ≠ 0 then 0x2008
      else if v % 4 = 2 && !((st == 0 || st == 3) && s.rseq.fpNew.contains bank) then 0x2008 else 0
    else 0
  | .elog =>
    -- R441: an index of the flash store
    if off = 0x48 && bit v 16 && fld v 11 0 > 63 then 0x2008 else 0
  | .ledger => if off = 0x44 && !bit v 0 && s.mode ≠ some .test then 0x2008 else 0   -- R391
  | .quad _ => if off = 0x44 && fld v 16 0 = 0 && s.mode ≠ some .test then 0x2008 else 0   -- R170
  | _ => 0

/-- R43, R44, R48, R51: a write of BLK_CTRL. -/
def writeBlkCtrl (s : State) (ag : Agent) (pg : PageId) (v : Nat) : State × Nat :=
  let p := pageOf s pg
  let en := bit v 0
  let qu := bit v 1
  let clr := bit v 2
  let abort := bit v 3
  if (en != p.enable || qu != p.quiesce || abort) && !mayWriteAll ag pg then refusePerm s ag pg 8
  else if clr && !mayWriteCommon ag pg then refusePerm s ag pg 8
  else if en != p.enable && (blkState s pg = 2 || blkState s pg = 3) then refuseCfg s ag pg 8 0x2001
  else
    let st := blkState s pg
    let p := { p with enable := en, quiesce := qu, quiescing := st == 3 || (st == 2 && qu) }
    let p := if abort then { p with pend := [] } else p
    let p := if clr then
        { p with classSeen := 0, firstValid := false, cfgRefused := false, permRefused := false, firstCode := 0,
                 firstSf := 0, firstInfo := 0, errCount := 0 }
      else p
    (applyIfIdle (setPage s pg p) pg, 0)

/-- R43: a write of ERR_STATUS: each bit written as 1 is cleared; FIRST_VALID clears the captured first error. -/
def writeErrStatus (s : State) (ag : Agent) (pg : PageId) (v : Nat) : State × Nat :=
  let p := pageOf s pg
  if (v % 32 != 0 || bit v 8 || bit v 9 || bit v 10) && !mayWriteCommon ag pg then refusePerm s ag pg 0x10
  else
    let p := { p with classSeen := p.classSeen &&& ~~~(BitVec.ofNat 5 v),
                      cfgRefused := p.cfgRefused && !bit v 9, permRefused := p.permRefused && !bit v 10 }
    let p := if bit v 8 then { p with firstValid := false, firstCode := 0, firstSf := 0, firstInfo := 0 } else p
    (setPage s pg p, 0)

/-- R43: a write of a header register. -/
def writeHeader (s : State) (ag : Agent) (pg : PageId) (off v : Nat) : State × Nat :=
  let p := pageOf s pg
  if off = 0x8 then writeBlkCtrl s ag pg v
  else if off = 0x10 then writeErrStatus s ag pg v
  else if off = 0x14 then
    if BitVec.ofNat 5 v ≠ p.irq && !mayWriteCommon ag pg then refusePerm s ag pg off
    else (setPage s pg { p with irq := BitVec.ofNat 5 v }, 0)
  else if off = 0x2C then
    let up := bit v 1 && !keyed pg
    if (bit v 0 != p.uctr || bit v 1 != p.upage) && !mayWriteCommon ag pg then refusePerm s ag pg off
    else (setPage s pg { p with uctr := bit v 0, upage := up }, 0)
  else (s, 0)

/-- R11, R47, R48, R51: a write of a block-specific register, up to its effect on the fields: permission, range, change
class; then L-class and I-class fields at once, E-class fields pending until the boundary. -/
def writeField (s : State) (ag : Agent) (pg : PageId) (off v : Nat) : State × Nat :=
  match regDef? pg off with
  | none => (s, 0)
  | some d =>
    let p := pageOf s pg
    let bank := bankOf p pg d
    let old := (regAccepted p pg off bank).toNat
    let changes := d.flds.any fun f =>
      match f.acc with
      | .rw => fld v f.hi f.lo != fld old f.hi f.lo
      | _ => fld v f.hi f.lo != 0
    let x := extraRefusal s pg off bank v
    let rangeBad := d.flds.any (fun f => f.acc == .rw && !inRange f.rng (fld v f.hi f.lo))
    let busyBad := d.flds.any (fun f => f.cls == .idle &&
      (if f.acc = .rw then fld v f.hi f.lo != fld old f.hi f.lo else fld v f.hi f.lo != 0))
    if changes && !mayWriteAll ag pg then refusePerm s ag pg off
    else if rangeBad || x = 0x2008 then refuseCfg s ag pg off 0x2008
    else if x ≠ 0 then refuseCfg s ag pg off x
    else if busyBad && (blkState s pg = 2 || blkState s pg = 3) then refuseCfg s ag pg off 0x2001
    else
      let rws := d.flds.filter (fun f => f.acc == .rw)
      let act0 := (regActive p pg off bank).toNat
      let act := rws.foldl (fun w f => if f.cls = .epoch then w else setFld w f.hi f.lo (fld v f.hi f.lo)) act0
      let acc := rws.foldl (fun w f => setFld w f.hi f.lo (fld v f.hi f.lo)) old
      let p := { p with regs := mset p.regs (off, bank) (BitVec.ofNat 32 act) }
      let waits := rws.any (fun f => f.cls == .epoch && fld acc f.hi f.lo != fld act f.hi f.lo) ||
                   (mget? p.pend (off, bank)).isSome
      let p := if waits then { p with pend := mset p.pend (off, bank) (BitVec.ofNat 32 acc) } else p
      (applyIfIdle (setPage s pg p) pg, 0)

/-- R42: whether a page responds in the current boot mode. -/
def pageUp (s : State) (pg : PageId) : Bool :=
  if s.mode = some .test || s.mode = some .recovery || s.mode = some .service then true
  else pg ∈ [.dir, .boot, .pcie, .cpw, .elog, .mfl]

/-- A register write up to its effect on the fields of the page, with the status of R102 (0 when applied). -/
def writeReg (s : State) (ag : Agent) (pg : PageId) (off v : Nat) : State × Nat :=
  if off < 0x40 then writeHeader s ag pg off v
  else if pg = .dir then (s, 0)
  else match pg with
    | .tm _ =>
      -- R393: writes of QWEIGHT for queues 0 to 3 are ignored
      if off = 0x50 && fld (regAccepted (pageOf s pg) pg 0x4C 0).toNat 4 0 < 4 then (s, 0) else writeField s ag pg off v
    | .line _ =>
      -- R315: VC_SCHED has a weight for VC2, VC3, VC4 and VC6, and a rate for VC0 and VC1; writes of the other are ignored
      if off = 0x7C then
        let vc := fld (regAccepted (pageOf s pg) pg 0x74 0).toNat 2 0
        let old := (regAccepted (pageOf s pg) pg 0x7C vc).toNat
        writeField s ag pg off (if vc < 2 then setFld v 7 0 (fld old 7 0) else setFld v 31 8 (fld old 31 8))
      else writeField s ag pg off v
    | _ => writeField s ag pg off v

/-! ## The address map (R35, R39) -/

/-- All 258 pages. -/
def allPages : List PageId :=
  [.dir, .kazsy, .secp, .pwr, .boot, .pcie, .cpw, .i3c, .time, .tio, .wrt, .rseq, .elog, .ledger, .tpool, .cart 0, .cart 1,
   .mfl] ++
  (List.finRange 4).flatMap (fun q =>
    [.quad q, .fpe q 0, .fpe q 1, .tm q, .ffe q, .leng q, .line q, .fec q, .ciph q 0, .ciph q 1, .pond q, .launch q] ++
    (List.finRange 16).map (fun p => .fport q p)) ++
  (List.finRange 64).flatMap (fun t => [.tile t, .tdec t])

/-- The page at a BAR0 offset below 0x0100_0000, if one is implemented there. -/
def pageAt (a : Nat) : Option PageId :=
  let b := a / 4096 * 4096
  if b < 0x20000 then
    ([.dir, .kazsy, .secp, .pwr, .boot, .pcie, .cpw, .i3c, .time, .tio, .wrt, .rseq, .elog, .ledger, .tpool, .cart 0,
      .cart 1, .mfl] : List PageId)[b / 4096]?
  else if 0x40000 ≤ b && b < 0x140000 then
    let q : Fin 4 := ⟨(b / 0x40000 - 1) % 4, by omega⟩
    let o := b % 0x40000
    if 0x10000 ≤ o && o < 0x20000 then some (.fport q ⟨(o / 0x1000) % 16, by omega⟩)
    else ([.quad q, .fpe q 0, .fpe q 1, .tm q, .ffe q, .leng q, .line q, .fec q, .ciph q 0, .ciph q 1, .pond q,
           .launch q] : List PageId)[o / 0x1000]?
  else if 0x200000 ≤ b && b < 0x280000 then
    let t : Fin 64 := ⟨(b - 0x200000) / 0x2000 % 64, by omega⟩
    some (if b % 0x2000 = 0 then .tile t else .tdec t)
  else none

/-- R36, R495: UNMAPPED_ACCESS on the PCIE page, with the layout of its first-error detail. -/
def unmapped (s : State) (off : Nat) (write : Bool) (len : Nat) : State :=
  raise (count s .pcie 0 1) .pcie 0x0001 (off % 2 ^ 26 + (if write then 2 ^ 26 else 0) + min len 15 * 2 ^ 27)

end Sys2Proof.Machine
end

