-- ==== Sys2Proof/Machine/Operands.lean ====
section
/-! DEFINITION. Machine/Operands.lean: the byte forms of what travels: command packet headers (R90), reduction record
headers (R150) and state record headers (R250), written and read, with their checks. -/
namespace Sys2Proof.Machine
open Sys2Proof

/-- R90: bytes 0 to 55 of a command packet header. -/
def hdrBody (h : Header) : Bytes :=
  beBytes 1 h.version.toNat ++ beBytes 1 h.opcode.toNat ++ beBytes 1 h.flags.toNat ++ beBytes 1 h.vc.toNat ++
  beBytes 2 h.sourceId.toNat ++ beBytes 1 h.stream.toNat ++ beBytes 1 h.elemType.toNat ++ beBytes 8 h.ciid.toNat ++
  beBytes 2 h.member.toNat ++ beBytes 2 h.payloadLen.toNat ++ beBytes 4 h.chunkIndex.toNat ++
  beBytes 4 h.chunkCount.toNat ++ beBytes 2 h.cell.toNat ++ beBytes 1 h.redOp.toNat ++ beBytes 1 h.aux.toNat ++
  beBytes 8 h.arg1.toNat ++ beBytes 4 h.reqTag.toNat ++ beBytes 4 h.credit.toNat ++ beBytes 2 h.status.toNat ++
  beBytes 2 h.rsvd.toNat ++ beBytes 4 h.arg0.toNat

/-- R90: the 64 bytes of a command packet header. -/
def hdrBytes (h : Header) : Bytes := hdrBody h ++ beBytes 8 h.check.toNat

/-- R90: a header read from 64 bytes. -/
def parseHdr (l : Bytes) : Header :=
  { version := BitVec.ofNat 8 (beAt l 0 1), opcode := BitVec.ofNat 8 (beAt l 1 1), flags := BitVec.ofNat 8 (beAt l 2 1),
    vc := BitVec.ofNat 8 (beAt l 3 1), sourceId := BitVec.ofNat 16 (beAt l 4 2), stream := BitVec.ofNat 8 (beAt l 6 1),
    elemType := BitVec.ofNat 8 (beAt l 7 1), ciid := BitVec.ofNat 64 (beAt l 8 8),
    member := BitVec.ofNat 16 (beAt l 16 2), payloadLen := BitVec.ofNat 16 (beAt l 18 2),
    chunkIndex := BitVec.ofNat 32 (beAt l 20 4), chunkCount := BitVec.ofNat 32 (beAt l 24 4),
    cell := BitVec.ofNat 16 (beAt l 28 2), redOp := BitVec.ofNat 8 (beAt l 30 1), aux := BitVec.ofNat 8 (beAt l 31 1),
    arg1 := BitVec.ofNat 64 (beAt l 32 8), reqTag := BitVec.ofNat 32 (beAt l 40 4),
    credit := BitVec.ofNat 32 (beAt l 44 4), status := BitVec.ofNat 16 (beAt l 48 2), rsvd := BitVec.ofNat 16 (beAt l 50 2),
    arg0 := BitVec.ofNat 32 (beAt l 52 4), check := BitVec.ofNat 64 (beAt l 56 8) }

/-- R92: the CHECK of a packet: the CRC-64/XZ of the header with bytes 56 to 63 zero, then the payload. -/
def packetCheck (p : Packet) : Nat := crc64 (hdrBody p.hdr ++ List.replicate 8 0 ++ p.payload)

/-- R92: a packet with its CHECK computed afresh. -/
def sealPacket (p : Packet) : Packet := { p with hdr := { p.hdr with check := BitVec.ofNat 64 (packetCheck p) } }

/-- R150: bytes 0 to 55 of a reduction record header. -/
def recBody (h : RecHdr) : Bytes :=
  beBytes 1 h.rver.toNat ++ beBytes 1 h.kind.toNat ++ beBytes 1 h.level.toNat ++ beBytes 1 h.flags.toNat ++
  beBytes 2 h.srcGw.toNat ++ beBytes 2 h.dstGw.toNat ++ beBytes 8 h.ciid.toNat ++ beBytes 8 h.digest.toNat ++
  beBytes 2 h.shard.toNat ++ beBytes 1 h.elemType.toNat ++ beBytes 1 h.subject.toNat ++ beBytes 4 h.chunkIndex.toNat ++
  beBytes 4 h.chunkCount.toNat ++ beBytes 2 h.payloadLen.toNat ++ beBytes 2 h.rsvd1.toNat ++ beBytes 2 h.hopGw.toNat ++
  beBytes 6 h.rsvd2.toNat ++ beBytes 8 h.valueCheck.toNat

/-- R150: the CHECK of a record. -/
def recCheck (r : Record) : Nat := crc64 (recBody r.hdr ++ List.replicate 8 0 ++ r.payload)

def sealRec (r : Record) : Record := { r with hdr := { r.hdr with check := BitVec.ofNat 64 (recCheck r) } }

/-- R250: bytes 0 to 55 of a state record header. -/
def stBody (h : StHdr) : Bytes :=
  beBytes 1 h.sver.toNat ++ beBytes 1 h.kind.toNat ++ beBytes 1 h.qty.toNat ++ beBytes 1 h.flags.toNat ++
  beBytes 2 h.srcGw.toNat ++ beBytes 2 h.dstGw.toNat ++ beBytes 2 h.job.toNat ++ beBytes 1 h.elemType.toNat ++
  beBytes 1 h.rsvd1.toNat ++ beBytes 4 h.epoch.toNat ++ beBytes 4 h.matrix.toNat ++ beBytes 4 h.chunkIndex.toNat ++
  beBytes 4 h.chunkCount.toNat ++ beBytes 2 h.payloadLen.toNat ++ beBytes 2 h.status.toNat ++ beBytes 4 h.tag.toNat ++
  beBytes 12 h.rsvd2.toNat ++ beBytes 8 h.valueCheck.toNat

/-- R250: the CHECK of a state record. -/
def stCheck (r : StRec) : Nat := crc64 (stBody r.hdr ++ List.replicate 8 0 ++ r.payload)

def sealSt (r : StRec) : StRec := { r with hdr := { r.hdr with check := BitVec.ofNat 64 (stCheck r) } }

/-- The header with every field 0, for packets the gateway builds. -/
def Header.zero : Header :=
  { version := 1, opcode := 0, flags := 0, vc := 0, sourceId := 0, stream := 0, elemType := 0, ciid := 0, member := 0,
    payloadLen := 0, chunkIndex := 0, chunkCount := 0, cell := 0, redOp := 0, aux := 0, arg1 := 0, reqTag := 0,
    credit := 0, status := 0, rsvd := 0, arg0 := 0, check := 0 }

def vcNum : Fvc → Nat
  | .fast => 0 | .bulk => 1 | .weight => 2 | .mgmt => 3

def vcOf (n : Nat) : Fvc := match n % 4 with | 0 => .fast | 1 => .bulk | 2 => .weight | _ => .mgmt

def Vc4.get {α : Type} (v : Vc4 α) : Fvc → α
  | .fast => v.fast | .bulk => v.bulk | .weight => v.weight | .mgmt => v.mgmt

def Vc4.set {α : Type} (v : Vc4 α) (c : Fvc) (x : α) : Vc4 α :=
  match c with
  | .fast => { v with fast := x } | .bulk => { v with bulk := x }
  | .weight => { v with weight := x } | .mgmt => { v with mgmt := x }

def classOf : Fvc → Tclass
  | .fast => .fast | .bulk => .bulk | .weight => .weight | .mgmt => .mgmt

end Sys2Proof.Machine
end

