-- ==== Sys2Proof/Machine/Packets.lean ====
section
/-! DEFINITION. Machine/Packets.lean: command packets: policing (R380), the checks of R91, attachment, permission and
credits (R103 to R109), completions and refusals (R54, R89, R110), and holding behind a FENCE (R70). -/
namespace Sys2Proof.Machine
open Sys2Proof

/-! ## Sources -/

def isSrc (ip : BitVec 128) (id : BitVec 16) (x : Source) : Bool := x.ip == ip && x.id == id

def findSrc (s : State) (ip : BitVec 128) (id : BitVec 16) : Option Source := s.fab.srcs.find? (isSrc ip id)

/-- The source-table entry replaced, in its place. -/
def putSrc (s : State) (x : Source) : State :=
  { s with fab := { s.fab with srcs := s.fab.srcs.map (fun y => if isSrc x.ip x.id y then x else y) } }

def dropSrc (s : State) (ip : BitVec 128) (id : BitVec 16) : State :=
  { s with fab := { s.fab with srcs := s.fab.srcs.filter (fun y => !isSrc ip id y) } }

/-- The source entry of an origin: none for a window queue or an unattached source. -/
def srcOf (s : State) : Origin → Option Source
  | .fabric ip id => findSrc s ip id
  | .win _ => none

def Credit.zero : Credit := ⟨0, 0, 0, 0, 0, 0, [], 0, 0⟩
def Vc4.all {α : Type} (x : α) : Vc4 α := ⟨x, x, x, x⟩

/-- R383: the requester an origin's trays are charged to. -/
def reqOf (s : State) : Origin → Nat
  | .fabric ip id => match findSrc s ip id with | some x => x.req | none => 0
  | .win q => fldV s .tpool 0x70 (8 * q.val + 7) (8 * q.val)

/-- The source identifier of R68 for a packet from a place. -/
def originOf (via : Via) (h : Header) : Origin :=
  match via with
  | .fabric d => .fabric d.ip h.sourceId
  | .window q => .win q

/-- The quadrant a packet came in at: that of its fabric port, or Q0 for a window queue. -/
def viaQuad : Via → Fin 4
  | .fabric d => quadOf d.port
  | .window _ => 0

/-- R498: the page of the block that received a packet. -/
def viaPage : Via → PageId
  | .fabric d => fportOf d.port
  | .window _ => .cpw

/-! ## Completions -/

/-- R52: the slot count of the completion ring. -/
def cqSlots (s : State) : Nat := 2 ^ fldV s .cpw 0x88 3 0

/-- R52, R54: whether the ring has a free slot; it is full when one more slot would make TAIL meet HEAD. -/
def cqRoom (s : State) : Bool := (s.cpw.tail + 1) % cqSlots s != fldV s .cpw 0x8C 11 0 % cqSlots s

def cqBase (s : State) : Nat := fldV s .cpw 0x84 31 0 * 2 ^ 32 + fldV s .cpw 0x80 31 12 * 4096
def cqWb (s : State) : Nat := fldV s .cpw 0x98 31 0 * 2 ^ 32 + fldV s .cpw 0x94 31 3 * 8

/-- R54: one completion packet into the next slot, then the tail write-back, and vector 1 at once or after the batching
delay (R52). -/
def cqWrite (s : State) (p : Packet) : State :=
  let tail := (s.cpw.tail + 1) % cqSlots s
  let s := count s .cpw 1 1
  let s := emit (emit s (.hostSlot (cqBase s + s.cpw.tail * 16384) p)) (.hostTail (cqWb s) tail)
  if fldV s .cpw 0xA0 15 0 = 0 then notify { s with cpw := { s.cpw with tail := tail } } 1
  else { s with cpw := { s.cpw with tail := tail, intWait := true } }

/-- R54: a completion for a window queue: written while the ring has room, held while it is full. -/
def cqPush (s : State) (p : Packet) : State :=
  if s.cpw.held.isEmpty && cqRoom s then cqWrite s p
  else { s with cpw := { s.cpw with held := s.cpw.held ++ [p],
                                    fullSf := if s.cpw.fullSf.isSome then s.cpw.fullSf else some s.sf } }

/-- R89: whether a source address stands in IPv6; an IPv4 address appears as ::FFFF:a.b.c.d. -/
def isV6 (ip : BitVec 128) : Bool := ip.toNat / 2 ^ 32 != 0xFFFF

/-- The 16-bit words of a byte string, an odd last byte padded with 0. -/
def words16 : Bytes → List Nat
  | [] => []
  | [a] => [a.toNat * 256]
  | a :: b :: l => (a.toNat * 256 + b.toNat) :: words16 l

/-- The one's complement sum of 16-bit words. -/
def onesSum (l : List Nat) : Nat := l.foldl (fun n w => let m := n + w; m % 65536 + m / 65536) 0

/-- R87: the UDP checksum over IPv6: pseudo-header, UDP header and payload; a sum of 0 is sent as all ones. -/
def udpSum (src dst : BitVec 128) (sport dport : BitVec 16) (data : Bytes) : BitVec 16 :=
  let n := data.length + 8
  let ps := beBytes 16 src.toNat ++ beBytes 16 dst.toNat ++ beBytes 4 n ++ beBytes 4 17
  let u := beBytes 2 sport.toNat ++ beBytes 2 dport.toNat ++ beBytes 2 n ++ [0, 0]
  let x := 0xFFFF - onesSum (words16 (ps ++ u ++ data))
  BitVec.ofNat 16 (if x = 0 then 0xFFFF else x)

/-- R89, R102: the gateway address of a quadrant in the family of a destination; 0 where it has none of that family. -/
def quadIp (s : State) (q : Fin 4) (v6 : Bool) : BitVec 128 :=
  match s.fab.net.quads[q.val]? with
  | some a => if v6 then a.v6.getD 0 else BitVec.ofNat 128 (0xFFFF * 2 ^ 32 + (a.v4.getD 0).toNat)
  | none => 0

/-- R87, R89: the IP and UDP headers of a packet that a port sends to an address and UDP port: from its quadrant's address and the
command port; with the UDP checksum over IPv6, and checksum 0 and DF over IPv4. -/
def udpHdr (s : State) (port : Fin 64) (ip : BitVec 128) (udpPort : BitVec 16) (p : Packet) : UdpHdr :=
  let src := quadIp s (quadOf port) (isV6 ip)
  let cmd := BitVec.ofNat 16 s.fab.net.port
  ⟨src, ip, cmd, udpPort, !isV6 ip, if isV6 ip then udpSum src ip cmd udpPort (hdrBytes p.hdr ++ p.payload) else 0⟩

/-- A packet sealed and sent to an address through a fabric port (R87, R89, R92). -/
def sendDgram (s : State) (port : Fin 64) (ip : BitVec 128) (udpPort : BitVec 16) (tagged : Bool) (vc : Fvc) (p : Packet) : State :=
  let p := sealPacket p
  egPush s port (classOf vc) (.cmd (udpHdr s port ip udpPort p) p) (wireSize (isV6 ip) tagged (64 + p.payload.length))

/-- R89, R92, R105: a header and payload sent to an origin on a VC: CREDIT_RETURN filled in, CHECK computed afresh; to the
completion ring for a window queue, to the source's port and address for a fabric source. Nothing is sent to a source that is no
longer attached. -/
def sendHdr (s : State) (org : Origin) (vc : Fvc) (h : Header) (payload : Bytes) : State :=
  match org with
  | .win _ => cqPush s (sealPacket ⟨{ h with credit := 0 }, payload⟩)
  | .fabric ip id =>
    match findSrc s ip id with
    | none => s
    | some x =>
      let c := x.credit.get vc
      let s := putSrc s { x with credit := x.credit.set vc { c with unrep := 0 } }
      sendDgram s x.port ip x.udpPort x.tagged vc ⟨{ h with credit := c.ret }, payload⟩

/-- R90: the SOURCE_ID of a packet to an origin: that of the source, 0 for a window queue. -/
def originId : Origin → BitVec 16
  | .fabric _ id => id
  | .win _ => 0

/-- R89, R90: a packet sent to an origin on a VC, addressed to it and with its payload's length. -/
def sendTo (s : State) (org : Origin) (vc : Fvc) (h : Header) (payload : Bytes) : State :=
  sendHdr s org vc { h with vc := BitVec.ofNat 8 (vcNum vc), sourceId := originId org,
                            payloadLen := BitVec.ofNat 16 payload.length } payload

/-- R110: the header-only COMPLETE that echoes a header under a status. -/
def echo (h : Header) (status : Nat) : Header :=
  { h with opcode := 0x80, status := BitVec.ofNat 16 status, payloadLen := 0 }

/-- R89, R110: a refusal to the datagram's own address, with CREDIT 0: for an unattached source or a failed check. -/
def refuseRaw (s : State) (via : Via) (h : Header) (code : Nat) : State :=
  let s := count s (.tm (viaQuad via)) 1 1
  match via with
  | .window _ => cqPush s (sealPacket ⟨{ echo h code with credit := 0 }, []⟩)
  | .fabric d => sendDgram s d.port d.ip d.udpPort d.tagged (vcOf h.vc.toNat) ⟨{ echo h code with credit := 0 }, []⟩

/-! ## Credits -/

/-- R104: what a packet costs. -/
def creditCost (op len : Nat) : Nat := if op = 0x0B || op = 0x0C || op = 0x0D then 0 else cdiv (64 + len) 256

/-- Serial-number difference a − b modulo 2^32, as a signed number. -/
def serialDiff (a b : BitVec 32) : Int := (a - b).toInt

/-- R108: gaps that meet a packet's range, cut by it; with whether the packet fills part of a gap whole. -/
def fillGaps (gaps : List Gap) (lo hi : BitVec 32) : List Gap :=
  gaps.flatMap fun g =>
    if serialDiff lo g.hi > 0 || serialDiff hi g.lo < 0 then [g]
    else (if serialDiff lo g.lo > 0 then [{ g with hi := lo - 1 }] else []) ++
         (if serialDiff hi g.hi < 0 then [{ g with lo := hi + 1 }] else [])

/-- R108: whether a packet's credits all lie in one gap. -/
def inGap (gaps : List Gap) (lo hi : BitVec 32) : Bool :=
  gaps.any (fun g => serialDiff lo g.lo ≥ 0 && serialDiff hi g.hi ≤ 0)

/-- R108: the boundary W: below the lowest gap, or at the highest credit received. -/
def creditW (c : Credit) : BitVec 32 :=
  match c.gaps with
  | [] => c.top
  | g :: _ => g.lo - 1

/-- R107, R108: the credit check of a costed packet: CREDIT_OVERRUN, CREDIT_STALE, or 0. -/
def creditCheck (c : Credit) (grant cost : Nat) (sent : BitVec 32) : Nat :=
  let lo := sent - BitVec.ofNat 32 cost + 1
  if serialDiff sent c.ret > grant then 0x220B
  else if serialDiff lo c.top > 0 then 0
  else if inGap c.gaps lo sent then 0
  else 0x220C

/-- R106, R108: a packet's credits received: W and the gaps move, and the credits are held until the packet is taken. -/
def creditRecv (c : Credit) (cost : Nat) (sent : BitVec 32) (sf : Nat) : Credit :=
  let lo := sent - BitVec.ofNat 32 cost + 1
  let c := { c with recv := c.recv + cost, held := c.held + cost }
  let c :=
    if serialDiff lo c.top > 0 then
      { c with top := sent, gaps := if lo = c.top + 1 then c.gaps else c.gaps ++ [⟨c.top + 1, lo - 1, sf⟩] }
    else { c with gaps := fillGaps c.gaps lo sent }
  { c with w := creditW c }

/-- R106: credits released: CREDIT_RETURN rises and the release is to be reported. -/
def creditRelease (c : Credit) (cost sf : Nat) : Credit :=
  if cost = 0 then c else
  { c with held := c.held - cost, ret := c.ret + BitVec.ofNat 32 cost, unrep := c.unrep + cost,
           unrepSf := if c.unrep = 0 then sf else c.unrepSf }

/-- A CREDIT packet to a source on a VC (R106). -/
def sendCredit (s : State) (ip : BitVec 128) (id : BitVec 16) (vc : Fvc) (stream : BitVec 8) (tag : BitVec 32) : State :=
  sendTo s (.fabric ip id) vc { Header.zero with opcode := 0x82, stream := stream, reqTag := tag } []

/-- The credit counts of an origin's VC changed; a window queue has none. -/
def updCredit (s : State) (org : Origin) (vc : Fvc) (f : Credit → Credit) : State :=
  match srcOf s org with
  | some x => putSrc s { x with credit := x.credit.set vc (f (x.credit.get vc)) }
  | none => s

/-- R106: a CREDIT packet goes at once when the unreported credits of a source and VC reach half the grant. -/
def reportHalf (s : State) (org : Origin) (vc : Fvc) : State :=
  match srcOf s org with
  | some x =>
    let n := (x.credit.get vc).unrep
    if n > 0 && 2 * n ≥ x.grant.get vc then sendCredit s x.ip x.id vc 0 0 else s
  | none => s

/-- R106: the credits of a packet released, with the report that this may ask for. -/
def releaseCredits (s : State) (org : Origin) (vc : Fvc) (cost : Nat) : State :=
  if cost = 0 then s else reportHalf (updCredit s org vc (fun c => creditRelease c cost s.sf)) org vc

/-! ## The checks of R91 -/

/-- R93: opcodes defined as requests. -/
def isRequest (op : Nat) : Bool := (0x01 ≤ op && op ≤ 0x0D) || (0x70 ≤ op && op ≤ 0x75)

def isImageOp (op : Nat) : Bool := 0x70 ≤ op && op ≤ 0x7F

/-- R93: whether an opcode carries a payload. -/
def hasPayload (op : Nat) : Bool := op ∈ [0x01, 0x07, 0x08, 0x0A] || isImageOp op

/-- R94: every field the table does not name for an opcode is 0. -/
def unusedZero (h : Header) : Bool :=
  let op := h.opcode.toNat
  let z := fun (b : Bool) (n : Nat) => b || n == 0
  let inst := op ∈ [0x01, 0x02, 0x03, 0x04]
  let jobOnly := op ∈ [0x05, 0x06, 0x08, 0x09]
  (inst || (jobOnly && h.ciid.toNat % 2 ^ 48 == 0) || h.ciid == 0) &&
  z (op ∈ [0x01, 0x03, 0x04]) h.member.toNat &&
  z (op ∈ [0x01, 0x03, 0x04, 0x06, 0x07, 0x08, 0x09, 0x0A]) (h.chunkIndex.toNat + h.chunkCount.toNat) &&
  z (op == 0x01) (h.cell.toNat + h.redOp.toNat) &&
  z (op ∈ [0x01, 0x06, 0x08, 0x09]) h.elemType.toNat &&
  z (op ∈ [0x02, 0x03, 0x04, 0x08, 0x09]) h.aux.toNat &&
  z (op ∈ [0x01, 0x06, 0x07, 0x08, 0x09]) h.arg1.toNat &&
  z (op ∈ [0x06, 0x07, 0x08, 0x09, 0x0A]) h.arg0.toNat

/-- R453: every header field that the image-load opcodes do not name is 0; kind, mode and chunk lengths are in range. -/
def imageFieldsOk (h : Header) : Bool :=
  let op := h.opcode.toNat
  let last := h.chunkIndex.toNat + 1 == h.chunkCount.toNat
  h.ciid == 0 && h.member == 0 && h.cell == 0 && h.redOp == 0 && h.elemType == 0 && h.arg1 == 0 &&
  (if op = 0x70 || op = 0x71 then 1 ≤ h.aux.toNat && h.aux.toNat ≤ 7 else h.aux == 0) &&
  (if op = 0x70 then 1 ≤ h.payloadLen.toNat && (last || h.payloadLen == 8192)
   else h.chunkIndex == 0 && h.chunkCount == 0 && h.payloadLen == 0) &&
  (if op = 0x72 then 1 ≤ h.arg0.toNat && h.arg0.toNat ≤ 3 else h.arg0 == 0)

/-- R91 order 5, R94, R176: field ranges of a request. Image-load opcodes have their own rules (R453). -/
def fieldsOk (h : Header) : Bool :=
  let op := h.opcode.toNat
  h.flags.toNat / 4 == 0 && !bit h.flags.toNat 0 && h.status == 0 && h.vc.toNat / 4 == 0 && h.rsvd == 0 &&
  h.cell.toNat / 16384 == 0 &&
  (if isImageOp op then imageFieldsOk h else
   (unusedZero h &&
    (op != 0x01 || (typeOk h.elemType.toNat && h.redOp.toNat ≤ 4)) &&
    (op != 0x02 || (h.aux.toNat ≤ 2 &&
      (if h.aux = 2 then h.ciid.toNat % 2 ^ 24 == 0 else h.ciid == 0))) &&
    (!(op == 0x03 || op == 0x04) || (h.aux.toNat ≤ 1 &&
      (h.aux != 1 || (h.ciid == 0 && h.member == 0)))) &&
    (!(op ∈ [0x03, 0x04, 0x06, 0x09]) || (1 ≤ h.chunkCount.toNat && h.chunkCount.toNat ≤ 65536)) &&
    (!(op ∈ [0x06, 0x08, 0x09]) || h.arg1.toNat < 2 ^ 32) &&
    (op != 0x06 || typeOk h.elemType.toNat) &&
    -- R237, R240: the quantity codes, and ELEM_TYPE, ARG1 and ARG0 of each
    (op != 0x08 || (h.aux == 0 && h.elemType == 0 && h.arg1 == 0 && h.arg0 == 0) ||
      (h.aux.toNat ∈ [1, 2, 4] && typeOk h.elemType.toNat)) &&
    (op != 0x09 || (h.aux.toNat ∈ [1, 2, 4] && typeOk h.elemType.toNat)) &&
    (!(op ∈ [0x07, 0x0A]) || h.arg0.toNat < 65536)))

/-- R93: whether a VC is permitted for an opcode. The VC of an ACK or RESEND is checked in R98. -/
def vcPermitted (h : Header) : Bool :=
  let op := h.opcode.toNat
  let v := h.vc.toNat % 4
  if op = 0x01 then v == (if isFastCell (h.cell.toNat % 16384) then 0 else 1)
  else if op = 0x05 then v == 2 || v == 3
  else if op = 0x06 then v == 2
  else if op ∈ [0x07, 0x08, 0x09, 0x0A, 0x0B, 0x0C] || isImageOp op then v == 3
  else true

/-- R91, R112: the first status of R91 that applies to a packet, or 0. -/
def headerCheck (s : State) (via : Via) (p : Packet) : Nat :=
  let h := p.hdr
  let op := h.opcode.toNat
  if h.check.toNat ≠ packetCheck p then 0x2201
  else if h.version ≠ 1 then 0x2202
  else if !isRequest op then 0x2203
  else if (match via with | .fabric d => d.udpLen != 72 + h.payloadLen.toNat | .window _ => false) ||
      h.payloadLen.toNat > 8192 || p.payload.length ≠ h.payloadLen.toNat ||
      (!hasPayload op && h.payloadLen ≠ 0) then 0x2204
  else if !fieldsOk h then 0x2206
  else match via with
    | .window q =>
      if h.credit ≠ 0 then 0x2206
      else if h.vc.toNat % 4 ≠ sqVc s q then 0x2205
      else if !vcPermitted h then 0x2205 else 0
    | .fabric _ => if vcPermitted h then 0 else 0x2205

/-- R93, R103, R55, R443: the mode, attachment and permission checks, or 0. -/
def permCheck (s : State) (via : Via) (h : Header) : Nat :=
  let op := h.opcode.toNat
  let priv := op ∈ [0x07, 0x08, 0x09, 0x0A]
  match via with
  | .window q =>
    if s.mode = some .bare && !(isImageOp op && q = 1) then 0x220F else 0
  | .fabric d =>
    if s.mode = some .bare then 0x220F
    else match findSrc s d.ip h.sourceId with
      | none => if op = 0x0B then 0 else 0x2208
      | some x =>
        if isImageOp op then 0x2209
        else if !x.admitted && !(op ∈ [0x03, 0x04, 0x0C, 0x0D]) && op ≠ 0x0B then 0x2209
        else if priv && !x.priv then 0x2209
        else if s.mode = some .recovery && !(priv || op ∈ [0x0B, 0x0C, 0x0D]) then 0x220F else 0

/-! ## Packets under way -/

/-- What a handler gets: the place, the origin, the packet, its number in order of arrival. -/
structure Ctx where
  via : Via
  org : Origin
  pkt : Packet
  seq : Nat
  deriving DecidableEq, Repr

def Ctx.h (c : Ctx) : Header := c.pkt.hdr
def Ctx.vc (c : Ctx) : Fvc := vcOf c.pkt.hdr.vc.toNat
def Ctx.cost (c : Ctx) : Nat := creditCost c.pkt.hdr.opcode.toNat c.pkt.payload.length

/-- What a handler answers: the packet is taken and its completion follows later; taken and completed under a status; to be
refused under a code; copied into a tray, its credits released but not yet taken (R123); or it waits upstream. -/
inductive Disp where
  | taken
  | held
  | done (status : Nat)
  | refuse (code : Nat)
  | waits
  deriving DecidableEq, Repr

/-- A flight changed. -/
def updFlight (s : State) (f : Flight → Bool) (g : Flight → Flight) : State :=
  { s with fab := { s.fab with flights := s.fab.flights.map (fun x => if f x then g x else x) } }

/-- R69, R71: a packet's completion is sent, with a status. -/
def markDone (s : State) (f : Flight → Bool) (status : Nat) : State :=
  updFlight s f (fun x => { x with accepted := true, done := true, bad := x.bad || codeClass status ≥ 2 })

/-- How often a step of a job has been rolled back. -/
def rollCount (s : State) (job step : Nat) : Nat :=
  (s.plans.rolled.filter (fun x => x.1 == job && x.2.1 == step)).length

/-- R69: what a FENCE finds on its arrival: the packets of its source and stream that have not yet reached the point of its
scope, and how often its step has been rolled back. -/
def fenceFinds (s : State) (c : Ctx) : List Nat × Nat :=
  ((s.fab.flights.filter (fun x => x.org == c.org && x.stream == c.h.stream &&
      (if c.h.aux.toNat = 0 then !x.accepted else !x.done))).map (·.seq),
   rollCount s (ciidJob c.h.ciid) (ciidStep c.h.ciid))

/-- Flights that no FENCE waits for and that are done leave the list. -/
def pruneFlights (s : State) : State :=
  let keep := s.fab.flights.filter (fun x => !x.done || s.fab.fences.any (fun f => f.waits.contains x.seq) ||
    s.fab.fwaits.any (fun e => e.2.1.contains x.seq))
  { s with fab := { s.fab with flights := keep } }

/-- R107, R108, R110: the refusal of a packet that holds no credits. -/
def refuseBare (s : State) (c : Ctx) (code : Nat) : State :=
  match c.org, srcOf s c.org with
  | .fabric _ _, none => refuseRaw s c.via c.h code
  | _, _ => sendHdr (count s (.tm (viaQuad c.via)) 1 1) c.org c.vc (echo c.h code) []

/-- R106, R110: the refusal of a packet: a header-only COMPLETE, its credits released at once and reported in it. -/
def refusePkt (s : State) (c : Ctx) (code : Nat) : State :=
  refuseBare (updCredit s c.org c.vc (fun x => creditRelease x c.cost s.sf)) c code

/-- The completion of a request, with a payload, under SUCCESS or a refusal code its handler gives. -/
def sendComplete (s : State) (org : Origin) (h : Header) (status : Nat) (payload : Bytes) : State :=
  sendTo s org (vcOf h.vc.toNat) (echo h status) payload

/-- R106: a packet that waits upstream keeps its credits: what was released for its handler is held again. -/
def holdAgain (c : Ctx) (s : State) : State :=
  if c.cost = 0 then s else
    updCredit s c.org c.vc (fun x =>
      { x with held := x.held + c.cost, ret := x.ret - BitVec.ofNat 32 c.cost, unrep := x.unrep - c.cost })

/-- The outcome of a handler that ran with the packet's credits released: the flight, the refusal, the report of credits. -/
def settle (c : Ctx) (r : State × Disp) : State :=
  let s := r.1
  let me := fun (x : Flight) => x.seq == c.seq
  let report := fun (s : State) => if c.cost = 0 then s else reportHalf s c.org c.vc
  match r.2 with
  | .taken => updFlight (report s) me (fun x => { x with accepted := true })
  | .done st => pruneFlights (markDone (report s) me st)
  | .refuse code =>
    let s := refuseBare s c code
    pruneFlights (markDone { s with fab := { s.fab with fwaits := mdel s.fab.fwaits c.seq } } me code)
  | .held => report s
  | .waits => holdAgain c s

/-- R106: the credits of a packet released. -/
def released (c : Ctx) (s : State) : State :=
  if c.cost = 0 then s else updCredit s c.org c.vc (fun x => creditRelease x c.cost s.sf)

/-- R106: a packet handled: its credits are released as it is taken or refused, so that every packet its handler sends carries
them; a packet that waits upstream keeps them. -/
def handle (c : Ctx) (f : Ctx → State → State × Disp) (s : State) : State := settle c (f c (released c s))

/-- R69: whether a FENCE of a packet's source and stream has not completed. -/
def fenced (s : State) (org : Origin) (stream : BitVec 8) : Bool :=
  s.fab.fences.any (fun f => f.org == org && f.stream == stream)

/-- R380: the policer of an ingress port for a class: tokens after reset are 16 × BURST. -/
def polTokens (s : State) (p : Fin 64) (c : Nat) : Int := mget s.police (p, c) (16 * (polBurst c : Int))

/-- R380: one frame of a wire size at a policer: pass, with the tokens charged, or drop. -/
def policeIn (s : State) (p : Fin 64) (c wire : Nat) : State × Bool :=
  let tm := PageId.tm (quadOf p)
  if fldB s tm 0x5C c 31 31 = 0 then (s, true)
  else
    let t := polTokens s p c
    if t > 0 then ({ s with police := mset s.police (p, c) (t - 16 * (wire : Int)) }, true)
    else (s, false)

/-- R102: whether a quadrant has an address in use. -/
def quadAddressed (s : State) (q : Fin 4) : Bool :=
  match s.fab.net.quads[q.val]? with
  | some a => a.v6.isSome || a.v4.isSome
  | none => false

/-- R109: the free packets of a source, attached or not, in this superframe. -/
def freeCount (s : State) (org : Origin) : Nat := if s.fab.freeSf = s.sf then mget s.fab.free org 0 else 0

/-- R109: one more free packet of a source. -/
def countFree (s : State) (org : Origin) : State :=
  let m := if s.fab.freeSf = s.sf then s.fab.free else []
  { s with fab := { s.fab with freeSf := s.sf, free := mset m org (freeCount s org + 1) } }

/-- R86: whether a frame is a command packet for the gateway: in the encapsulation, to the command port, with the 64 bytes of a
header, at a quadrant with an address in use (R102). -/
def admitsFrame (s : State) (d : Dgram) : Bool :=
  d.conforms s.fab.net.port && 72 ≤ d.udpLen && quadAddressed s (quadOf d.port)


/-- R149, R380: a datagram of n bytes on a port of the gateways of a site, 0 from the peer port on: taken, or dropped and counted when
it is foreign or the PEER class has no tokens. -/
def peerIn (s : State) (d : Dgram) (port n : Nat) : State × Bool :=
  if !(d.conforms port && d.peer) then (count s (fportOf d.port) 0 1, false)
  else
    let p := policeIn s d.port 4 (wireSize true d.tagged n)
    if p.2 then (p.1, true) else (count s (fportOf d.port) 5 1, false)

/-- R109: whether a packet is one of the opcodes that cost nothing. -/
def isFree (h : Header) : Bool := h.opcode.toNat ∈ [0x0B, 0x0C, 0x0D]

/-- R86, R380, R109: what happens to a packet before its checks: dropped, or on to R91. Counter 0 of the FPORT page counts
datagrams dropped without reply, counters 1 to 5 policed packets by class (R478). A free packet counts toward the 64 of its source
before its CHECK is verified (DESIGN CHOICE, entry 88). -/
def ingress (s : State) (via : Via) (p : Packet) : Option State :=
  match via with
  | .window _ => some s
  | .fabric d =>
    if !admitsFrame s d then none
    else
      let r := policeIn s d.port (p.hdr.vc.toNat % 4) (wireSize (isV6 d.ip) d.tagged (d.udpLen - 8))
      let org := originOf via p.hdr
      if !r.2 then none
      else if !isFree p.hdr then some r.1
      else if freeCount s org < 64 then some (countFree r.1 org) else none

/-- R106 to R108: the credit accounting of a packet whose CHECK verifies: the refusal code, or 0 with the credits held. -/
def creditStep (s : State) (org : Origin) (h : Header) (cost : Nat) : State × Nat :=
  match org with
  | .win _ => (s, 0)
  | .fabric ip id =>
    match findSrc s ip id with
    | none => (s, 0)
    | some x =>
      if cost = 0 then (s, 0)
      else
        let vc := vcOf h.vc.toNat
        let c := x.credit.get vc
        let code := creditCheck c (x.grant.get vc) cost h.credit
        if code ≠ 0 then (s, code)
        else (putSrc s { x with credit := x.credit.set vc (creditRecv c cost h.credit s.sf) }, 0)

/-- A new packet under way, numbered; a FENCE with what it finds. -/
def newFlight (s : State) (c : Ctx) : State :=
  let f : Flight := ⟨c.seq, c.org, c.h.stream, c.h.opcode.toNat, c.h.ciid, c.h.member, c.h.reqTag, false, false, false⟩
  { s with fab := { s.fab with
      seq := s.fab.seq + 1, flights := s.fab.flights ++ [f],
      fwaits := if c.h.opcode = 2 then mset s.fab.fwaits c.seq (fenceFinds s c) else s.fab.fwaits } }

/-- R70: a packet held behind a FENCE, copied into a tray of its requester; POOL_EMPTY where the quota or the pool is
exhausted. -/
def holdPkt (s : State) (c : Ctx) : State × Disp :=
  match allocPond s (reqOf s c.org) (viaQuad c.via) with
  | none => (count s .tpool 0 1, .refuse 0x2301)
  | some (s, t) =>
    (trayMoved { s with fab := { s.fab with held := s.fab.held ++ [⟨c.seq, c.org, c.via, c.pkt, some t⟩] } } t
      (64 + c.pkt.payload.length), .waits)

/-- R86 to R110: a command packet from its arrival to its handler. -/
def receive (via : Via) (p : Packet) (serve : Ctx → State → State × Disp) (s : State) : State :=
  match ingress s via p with
  | none => match via with
    | .fabric d =>
      if !admitsFrame s d then count s (fportOf d.port) 0 1
      else if !(policeIn s d.port (p.hdr.vc.toNat % 4) 0).2 then count s (fportOf d.port) (1 + p.hdr.vc.toNat % 4) 1
      else count s (fportOf d.port) 0 1
    | .window _ => s
  | some s =>
    let c : Ctx := ⟨via, originOf via p.hdr, p, s.fab.seq⟩
    let bad := headerCheck s via p
    if bad = 0x2201 then refuseRaw s via p.hdr bad
    else
      let bad := if bad ≠ 0 then bad else permCheck s via p.hdr
      let (s', cr) := creditStep s c.org p.hdr c.cost
      if bad ≠ 0 then
        if cr ≠ 0 then refuseBare s c bad else refusePkt s' c bad
      else if cr ≠ 0 then refuseBare s c cr
      else
        let s' := newFlight s' c
        if fenced s' c.org c.h.stream then handle c (fun c s => holdPkt s c) s'
        else handle c serve s'

end Sys2Proof.Machine
end

