-- ==== Sys2Proof/Machine/Flags.lean ====
section
/-! DEFINITION. Machine/Flags.lean: where the arithmetic flags of R197 land: the tile's sticky bits and capture (R198,
R199), the open gateway record of the step (R218), the counters, and the FFE counters of a fast cell. -/
namespace Sys2Proof.Machine
open Sys2Proof

/-- The flags of a step record (R218) that an operation's flags set. -/
def Flg.recBits (f : Flg) : Nat :=
  (if f.inv > 0 then 1 else 0) + (if f.sat > 0 then 2 else 0) + (if f.ovf > 0 then 4 else 0) + (if f.unf > 0 then 8 else 0)

/-- R198: the sticky bits of EXC_STATUS that an operation's flags set. -/
def Flg.sticky (f : Flg) : Nat :=
  (if f.inv > 0 then 1 else 0) + (if f.ovf > 0 then 2 else 0) + (if f.unf > 0 then 4 else 0) +
  (if f.inx > 0 then 8 else 0) + (if f.sat > 0 then 16 else 0) + (if f.fls > 0 then 32 else 0)

/-- The step attempt an operation belongs to, and the type of what it was forming: for the capture of R198; `shadow` marks a
recomputation. -/
structure OpAt where
  job : Nat
  step : Nat
  replay : Nat
  outType : Nat
  shadow : Bool
  deriving DecidableEq, Repr

/-- The attempt of an operation as EXC_FIRST_STEP holds it. -/
def OpAt.attempt (o : OpAt) : Nat := o.step % 2 ^ 24 + o.replay % 256 * 2 ^ 24

/-- The attempt that a tile runs or ran last, in the same form. -/
def Tile.attempt (t : Tile) : Nat := t.step % 2 ^ 24 + t.replay % 256 * 2 ^ 24

/-- R218: flags of a step join the gateway record that is open for the step. -/
def orOpen (s : State) (step replay bits : Nat) : State :=
  if bits = 0 then s else
  let f := fun (r : OpenRec) => if r.step = step ∧ r.replay = replay then { r with flags := r.flags ||| bits } else r
  { s with plans := { s.plans with opens := s.plans.opens.map f } }

/-- R199: the capture of the first INVALID of a step. One of a step other than the tile's present one does not displace the capture of
that present step. -/
def capture (t : Tile) (f : Flg) (o : OpAt) : Tile :=
  if f.cause = 0 ∨ t.excSeen.contains o.attempt then t
  else
    let t := { t with excSeen := o.attempt :: t.excSeen }
    if t.excCaptured && t.excStep.toNat == t.attempt && o.attempt != t.attempt then t
    else { t with excCaptured := true, excStep := BitVec.ofNat 32 o.attempt,
                  excWhere := BitVec.ofNat 32 (f.unit + f.blk % 65536 * 16 + min (f.idx / 32) 0xFFF * 2 ^ 20),
                  excKind := BitVec.ofNat 32 (f.cause + o.outType % 16 * 16 + (if o.shadow then 256 else 0)) }

/-- R197: the flags of an operation of a tile's engine land on the tile and in the step's records. -/
def landTile (s : State) (t : Fin 64) (f : Flg) (o : OpAt) : State :=
  let x := tileOf s t
  let x := { capture x f o with excSticky := x.excSticky ||| f.sticky }
  let own := x.active && x.step == o.step && x.replay == o.replay
  let x := if own then { x with flags := x.flags ||| f.recBits } else x
  let s := orOpen (setTile s t x) o.step o.replay f.recBits
  count (count (count (count (count s (.tile t) 6 f.inv) (.tile t) 7 f.sat) (.tile t) 8 f.ovf) (.tile t) 9 f.unf)
    (.tile t) 10 f.fls

/-- R197: the flags of a fast cell's arithmetic: counters of its FFE page, and the step's record. -/
def landFast (s : State) (q : Fin 4) (f : Flg) (o : OpAt) : State :=
  orOpen (count (count (count s (.ffe q) 2 f.inv) (.ffe q) 3 f.sat) (.ffe q) 4 f.fls) o.step o.replay f.recBits

/-- The attempt that cell arithmetic belongs to: that of the instance's CIID (R199). -/
def opCell (ciid : BitVec 64) (outType : Nat) (shadow : Bool) : OpAt :=
  ⟨ciidJob ciid, ciidStep ciid, ciidReplay ciid, outType, shadow⟩

/-- R197, R199: the flags of cell arithmetic. -/
def landCell (s : State) (cell : Nat) (f : Flg) (ciid : BitVec 64) (outType : Nat) : State :=
  let o := opCell ciid outType false
  if isFastCell cell then landFast s (cellQuad cell) f o else landTile s (cellTile cell) f o

end Sys2Proof.Machine
end

