-- ==== Sys2Proof/Machine/Plans.lean ====
section
/-! DEFINITION. Machine/Plans.lean: canonical descriptors (R113 to R118, R134, R496), the geometry of an instance (R142 to
R145), plan images (R203, R204), plan words as checked at load (R209, R210) and the load check (R205). -/
namespace Sys2Proof.Machine
open Sys2Proof

/-! ## Descriptor fields (R116) -/

def Desc.coll (d : Desc) : Nat := byteAt d.bytes 1
def Desc.redOp (d : Desc) : Nat := byteAt d.bytes 2
def Desc.inT (d : Desc) : Nat := byteAt d.bytes 3
def Desc.outT (d : Desc) : Nat := byteAt d.bytes 4
def Desc.l2T (d : Desc) : Nat := byteAt d.bytes 5
def Desc.l3T (d : Desc) : Nat := byteAt d.bytes 6
def Desc.mode (d : Desc) : Nat := byteAt d.bytes 7
def Desc.round (d : Desc) : Nat := d.mode % 4
def Desc.strict (d : Desc) : Bool := bit d.mode 2
def Desc.fast (d : Desc) : Bool := bit d.mode 3
def Desc.ciid (d : Desc) : Nat := beAt d.bytes 8 8
def Desc.n (d : Desc) : Nat := beAt d.bytes 16 2 + 1
def Desc.root (d : Desc) : Nat := beAt d.bytes 18 2
def Desc.inBytes (d : Desc) : Nat := beAt d.bytes 20 4
def Desc.outBytes (d : Desc) : Nat := beAt d.bytes 24 4
def Desc.inChunk (d : Desc) : Nat := beAt d.bytes 28 2
def Desc.outChunk (d : Desc) : Nat := beAt d.bytes 30 2
def Desc.waitLimit (d : Desc) : Nat := beAt d.bytes 32 4
def Desc.siteMask (d : Desc) : Nat := beAt d.bytes 36 4
def Desc.gateways (d : Desc) : Nat := beAt d.bytes 40 2
def Desc.proj (d : Desc) : Nat := beAt d.bytes 42 2
def Desc.seed (d : Desc) : Nat := beAt d.bytes 44 8
/-- The ordinal of an instance within its step (R15). -/
def Desc.ord (d : Desc) : Nat := fld d.ciid 23 8

/-- R118: the digest of descriptor bytes. -/
def digestOf (l : Bytes) : BitVec 64 := BitVec.ofNat 64 (beAt (sha256 l) 0 8)

/-- Whether a type has elements of their own, without group scale. -/
def unscaled (t : Nat) : Bool := 1 ≤ t && t ≤ 3

/-- R496: the element count E of an instance, by its record's ROWS × COLS where it has one. -/
def elemsOf (d : Desc) (inst : Option PlanInst) : Nat :=
  if unscaled d.inT then d.inBytes / (elemBits d.inT / 8)
  else match inst with
    | some i => i.rows * i.cols
    | none =>
      if unscaled d.outT && (d.coll == 1 || d.coll == 2) then d.outBytes / (elemBits d.outT / 8)
      else if unscaled d.outT && d.coll == 3 then d.n * d.outBytes / (elemBits d.outT / 8)
      else 32 * d.inBytes / groupBytes d.inT

/-- R113, R115: whether the type codes of a descriptor fit its operation. -/
def typesFit (d : Desc) : Bool :=
  typeOk d.inT && typeOk d.outT && typeOk d.l2T && typeOk d.l3T &&
  (d.coll != 4 || (d.outT == d.inT && d.l2T == d.inT && d.l3T == d.inT))

/-- R114, R117, R496: whether the byte counts follow from E. -/
def sizesFit (d : Desc) (e : Nat) : Bool :=
  e > 0 && d.inBytes == encSize d.inT e &&
  (if d.coll == 3 then
     e % d.n == 0 && e / d.n % groupElems d.outT == 0 && d.outBytes == encSize d.outT (e / d.n)
   else if d.coll == 4 then d.outBytes == encSize d.outT (d.n * e)
   else d.outBytes == encSize d.outT e)

/-- R134: the limits of the fast path. -/
def fastFits (d : Desc) : Bool :=
  d.coll != 3 && d.n ≤ 64 && d.inBytes ≤ 256 && d.inChunk == d.inBytes && d.outBytes ≤ 256 &&
  d.outChunk == d.outBytes && (d.coll != 4 || d.n * d.inBytes ≤ 256) &&
  (d.coll == 4 || (unscaled d.inT && unscaled d.outT && d.l2T == 1 && d.l3T == 1)) && !d.strict && d.proj == 0

/-- The number of bits set in a mask of 32. -/
def popCount (n w : Nat) : Nat := ((List.range n).filter (fun i => bit w i)).length

/-- R117: whether a descriptor is canonical. -/
def canonical (d : Desc) (inst : Option PlanInst) : Bool :=
  d.bytes.length == 64 && byteAt d.bytes 0 == 1 && d.mode / 16 == 0 && d.ciid % 256 == 0 &&
  (slice d.bytes 52 12).all (· == 0) && 1 ≤ d.coll && d.coll ≤ 4 &&
  (d.redOp == 0) == (d.coll == 4) && d.redOp ≤ 4 && typesFit d &&
  (if d.coll == 2 then decide (d.root < d.n) else d.root == 0) &&
  d.round != 3 && (d.round == 2 || d.seed == 0) && d.inBytes ≥ 1 &&
  1 ≤ d.inChunk && d.inChunk ≤ 8192 && d.inChunk % groupBytes d.inT == 0 &&
  1 ≤ d.outChunk && d.outChunk ≤ 8192 && d.outChunk % groupBytes d.outT == 0 &&
  sizesFit d (elemsOf d inst) && d.waitLimit ≤ 0xFFFFFF &&
  d.siteMask != 0 && popCount 32 d.siteMask ≤ d.gateways && d.gateways ≤ 2048 &&
  (d.proj == 0 || (d.proj % 16 == 0 && d.proj ≤ 512 && (d.redOp == 1 || d.redOp == 2) &&
    (d.coll == 1 || d.coll == 3) && !d.fast && !d.strict)) &&
  (!d.fast || fastFits d)

/-! ## Geometry (R142 to R144) -/

/-- The gateways of an instance: this one and those of its PEERS entries. -/
def Desc.gws (d : Desc) (me : Nat) : List Nat := me :: d.peers.map (· % 2048)

/-- R142: the participating sites, ascending. -/
def Desc.sites (d : Desc) : List Nat := (List.range 32).filter (fun i => bit d.siteMask i)

/-- The instance's gateways at a site, by ascending site position: their place is the local index. -/
def Desc.siteGws (d : Desc) (me st : Nat) : List Nat :=
  ((List.range 64).map (fun q => 64 * st + q)).filter (fun g => (d.gws me).contains g)

def Desc.m (d : Desc) : Nat := d.sites.length
def Desc.p (d : Desc) : Nat := d.gateways / d.m

/-- R142: whether every participating site has P gateways, and no other site any. -/
def Desc.placed (d : Desc) (me : Nat) : Bool :=
  d.gateways % d.m == 0 && (d.gws me).length == d.gateways && d.sites.all (fun st => (d.siteGws me st).length == d.p) &&
  (d.gws me).all (fun g => d.sites.contains (g / 64))

/-- R142: this gateway's local index. -/
def Desc.index (d : Desc) (me : Nat) : Nat := ((d.siteGws me (me / 64)).findIdx? (· == me)).getD 0

/-- R143: elements of the reduced tensor. -/
def Desc.eRed (d : Desc) (inst : Option PlanInst) : Nat := if d.coll = 4 then d.n * elemsOf d inst else elemsOf d inst

/-- R143: the shard count S. -/
def Desc.shards (d : Desc) (inst : Option PlanInst) : Nat :=
  if d.proj > 0 then 1 else min d.p (cdiv (d.eRed inst) 32)

/-- R143: the first element of a shard, and one past its last. -/
def Desc.shardLo (d : Desc) (inst : Option PlanInst) (k : Nat) : Nat :=
  k * cdiv (d.eRed inst) 32 / d.shards inst * 32
def Desc.shardHi (d : Desc) (inst : Option PlanInst) (k : Nat) : Nat :=
  min ((k + 1) * cdiv (d.eRed inst) 32 / d.shards inst * 32) (d.eRed inst)
def Desc.shardLen (d : Desc) (inst : Option PlanInst) (k : Nat) : Nat := d.shardHi inst k - d.shardLo inst k

/-- R144: h, bits [47:8] of the CIID. -/
def Desc.h (d : Desc) : Nat := fld d.ciid 47 8

/-- R144: the local index of the holder of a shard. -/
def Desc.holderIdx (d : Desc) (inst : Option PlanInst) (k : Nat) : Nat :=
  if d.proj > 0 then (match inst with | some i => i.matrix % d.p | none => 0) else (k + d.h) % d.p

/-- R144: the holder of a shard at a site. -/
def Desc.holder (d : Desc) (me : Nat) (inst : Option PlanInst) (k st : Nat) : Nat :=
  (d.siteGws me st).getD (d.holderIdx inst k) 0

/-- R144: the owner site and the owner of a shard. -/
def Desc.ownerSite (d : Desc) (k : Nat) : Nat := d.sites.getD ((k + d.h) % d.m) 0
def Desc.owner (d : Desc) (me : Nat) (inst : Option PlanInst) (k : Nat) : Nat := d.holder me inst k (d.ownerSite k)

/-- The PEERS entry of a gateway of the instance (R204). -/
def Desc.peer (d : Desc) (g : Nat) : Nat := (d.peers.find? (fun e => e % 2048 == g)).getD 0

/-- The record chunk count of n elements in a type (R150). -/
def recChunks (t n : Nat) : Nat := cdiv (encSize t n) (recChunk t)

/-! ## Plan words (R209, R210) -/

/-- The extension words of an operation, or none for an undefined OP. -/
def wordLen (op : Nat) : Option Nat :=
  if 1 ≤ op && op ≤ 7 then some 0 else if op = 8 || op = 9 then some 1
  else if op = 0xA || op = 0xB || op = 0xC then some 3 else none

/-- One instruction of a stream: its first word and its extension words. -/
def wordAt (ws : List (BitVec 64)) (i : Nat) : List Nat :=
  match ws[i]? with
  | none => []
  | some w => w.toNat :: ((ws.drop (i + 1)).take (fld w.toNat 57 56)).map (·.toNat)

def wOp (w : List Nat) : Nat := fld (w.getD 0 0) 63 58
def wF (w : List Nat) (i hi lo : Nat) : Nat := fld (w.getD i 0) hi lo

/-- R210: whether every bit outside the listed fields is 0. -/
def reservedZero (w : List Nat) : Bool :=
  match wOp w with
  | 1 | 2 => wF w 0 55 0 == 0
  | 3 => wF w 0 55 49 == 0
  | 4 => wF w 0 55 18 == 0
  | 5 => wF w 0 55 11 == 0
  | 6 => wF w 0 55 21 == 0
  | 7 => wF w 0 55 42 == 0
  | 8 => wF w 0 55 40 == 0
  | 9 => wF w 0 55 27 == 0 && wF w 1 63 49 == 0
  | 0xA => wF w 1 63 42 == 0 && wF w 2 63 40 == 0 && wF w 3 63 56 == 0
  | 0xB => wF w 0 29 0 == 0 && wF w 2 63 40 == 0
  | 0xC => wF w 0 51 40 == 0 && wF w 1 63 40 == 0 && wF w 2 63 40 == 0 && wF w 3 63 56 == 0
  | _ => false

/-- The end of the operand region (R200). -/
def operandTop (s : State) : Nat := 0x1800000 - sramPerTile s * 4096

/-- R200, R201, R205: whether n bytes from a plan address lie in memory that plan words may name: the operand region of a tile of
TILE_MASK, or pond trays. -/
def addrOk (s : State) (tileMask a n : Nat) : Bool :=
  a % 64 == 0 &&
  (if bit a 39 then fld a 38 37 == 0 && fld a 34 0 + n ≤ generalTop s ⟨fld a 36 35 % 4, by omega⟩
   else fld a 38 31 == 0 && bit tileMask (fld a 30 25) && 0x40000 ≤ fld a 24 0 && fld a 24 0 + n ≤ operandTop s)

/-- A byte count rounded up to 64 (R221). -/
def pitch (n : Nat) : Nat := cdiv n 64 * 64

/-- R210, R221, R224: the operands a word names: address and bytes, sources first, then the destination. -/
def wordSpans (w : List Nat) : List (Nat × Nat) × List (Nat × Nat) :=
  match wOp w with
  | 8 => let n := 64 * wF w 1 63 40
         ([(wF w 0 39 0, n)], [(wF w 1 39 0, n)])
  | 0xA =>
    let m := wF w 3 15 0 + 1; let n := wF w 3 31 16 + 1; let k := wF w 3 55 32 + 1
    let a := m * pitch (encSize (wF w 0 47 40) k)
    let b := if bit (w.getD 1 0) 41 then k * pitch (2 * n) else n * pitch (encSize (wF w 0 55 48) k)
    ([(wF w 0 39 0, a), (wF w 1 39 0, b)], [(wF w 2 39 0, m * pitch (4 * n))])
  | 0xB =>
    let e := 32 * wF w 1 63 40
    let st := if wF w 0 55 52 = 6 then 1 else wF w 0 51 44
    ([(wF w 1 39 0, encSize st e)], [(wF w 2 39 0, encSize (wF w 0 43 36) e)])
  | 0xC =>
    let rows := wF w 3 15 0 + 1; let cols := wF w 3 31 16 + 1; let r := 16 * wF w 3 41 32
    let x := wF w 0 39 0; let y := wF w 1 39 0; let z := wF w 2 39 0; let ot := wF w 3 49 42
    match wF w 0 55 52 with
    | 1 => ([], [(y, 8 * r * r), (z, 4 * cols * r)])
    | 2 => ([(x, 4 * rows * r)], [(y, 8 * r * r), (z, encSize ot (rows * r))])
    | 3 => ([(x, 2 * rows * r), (y, 2 * cols * r)], [(z, 4 * rows * cols)])
    | _ => let a := min rows cols; let b := max rows cols
           ([(x, 4 * rows * cols)], [(y, 12 * a * a + 8 * a * b), (z, encSize ot (rows * cols))])
  | _ => ([], [])

/-- R210: the fields of one instruction against their ranges and the plan. `descs` are the descriptors of the plan at this
gateway. -/
def wordOk (s : State) (rampTile tileMask t : Nat) (descs : List Desc) (w : List Nat) : Bool :=
  let fits := fun (l : List (Nat × Nat)) => l.all (fun x => addrOk s tileMask x.1 x.2)
  let sp := wordSpans w
  reservedZero w && fits sp.1 && fits sp.2 &&
  match wOp w with
  | 1 | 2 | 3 => true
  | 4 => descs.any (fun d => d.cell == wF w 0 13 0) && 1 ≤ wF w 0 17 14 && wF w 0 17 14 ≤ 4
  | 5 => bit tileMask (wF w 0 5 0)
  | 6 => 1 ≤ wF w 0 20 5
  | 7 => t == rampTile && wF w 0 7 0 ≤ 200 && 1 ≤ wF w 0 17 8 && wF w 0 17 8 ≤ 500 && 2 ≤ wF w 0 41 18
  | 8 => 1 ≤ wF w 1 63 40
  | 9 =>
    let lv := wF w 0 21 20
    (lv == 2 || lv == 3) && wF w 0 26 23 ≤ (if bit (w.getD 0 0) 22 then 7 else 3) &&
    descs.any (fun d => d.cell == wF w 0 13 0 && (if lv = 2 then d.timed2 else d.timed3))
  | 0xA =>
    let okT := fun x => x == 0x02 || isMx x
    okT (wF w 0 47 40) && okT (wF w 0 55 48) && (wF w 3 55 32 + 1) % 32 == 0 &&
    (!bit (w.getD 1 0) 41 || wF w 0 55 48 == 0x02)
  | 0xB =>
    let fn := wF w 0 55 52; let st := wF w 0 51 44; let dt := wF w 0 43 36
    1 ≤ fn && fn ≤ 7 && 1 ≤ wF w 1 63 40 &&
    (if fn = 6 then typeOk dt else if fn = 7 then st == 1 && dt == 1 else typeOk st && dt == 1)
  | 0xC =>
    let kd := wF w 0 55 52; let r := wF w 3 41 32
    1 ≤ kd && kd ≤ 4 && 1 ≤ r && r ≤ 32 && (kd == 1 || kd == 3 || typeOk (wF w 3 49 42))
  | _ => false

/-- R210, R213: the descriptors of a plan that a step's words may name, the step's own first, then those of earlier steps,
latest first, then those of later ones; each with its step. -/
def Plan.placings (p : Plan) (step : Nat) : List (Nat × Desc) :=
  let up := p.steps.filter (fun x => x.step ≤ step)
  let down := p.steps.filter (fun x => x.step > step)
  (up.reverse ++ down).flatMap (fun x => x.descs.map (fun d => (x.step, d)))

/-- R205 reason 8: the first instruction of a stream that breaks a rule, by its index, or none. -/
def streamBad (s : State) (rampTile tileMask t : Nat) (descs : List Desc) (ws : List (BitVec 64)) :
    Nat → Nat → Option Nat
  | 0, _ => none
  | fuel + 1, i =>
    if i ≥ ws.length then (if ws.isEmpty then none else some (ws.length - 1))
    else
      let w := wordAt ws i
      match wordLen (wOp w) with
      | none => some i
      | some n =>
        if fld (w.getD 0 0) 57 56 ≠ n || w.length ≠ n + 1 then some i
        else if !wordOk s rampTile tileMask t descs w then some i
        else if wOp w = 1 then (if i + 1 = ws.length then none else some i)
        else streamBad s rampTile tileMask t descs ws fuel (i + 1 + n)

/-- The instructions of a well-formed stream, each with the index of its first word. -/
def instrsOf (ws : List (BitVec 64)) : Nat → Nat → List (Nat × List Nat)
  | 0, _ => []
  | fuel + 1, i =>
    let w := wordAt ws i
    if w.isEmpty then [] else (i, w) :: instrsOf ws fuel (i + w.length)

/-- The pond trays that n bytes from an address meet, numbered by quadrant and then by place (R382). -/
def pondTrays (x : Nat × Nat) : List Nat :=
  if bit x.1 39 && x.2 ≠ 0 then (List.range (cdiv (fld x.1 15 0 + x.2) 65536)).map (· + fld x.1 36 16) else []

/-! ## Plan images (R203, R204) -/

/-- R205: what a refused image's payload names. -/
structure PRef where
  reason : Nat
  sec : Nat
  tile : Nat
  step : Nat
  idx : Nat
  deriving DecidableEq, Repr

/-- R205: the 16-byte payload of a refusal. -/
def PRef.bytes (r : PRef) : Bytes :=
  beBytes 1 r.reason ++ beBytes 1 r.sec ++ beBytes 2 r.tile ++ beBytes 4 r.step ++ beBytes 4 r.idx ++ beBytes 4 0

/-- R497: ERR_FIRST_INFO of PLAN_REFUSED. -/
def PRef.info (r : PRef) : Nat := r.reason + r.sec * 256 + r.tile * 65536

def firstSome {α : Type} : List (Option α) → Option α
  | [] => none
  | some x :: _ => some x
  | none :: l => firstSome l

/-- Numbered records of n bytes of a section. -/
def records (img : Bytes) (off len n : Nat) : List (Nat × Bytes) :=
  (List.range (len / n)).map (fun i => (i, slice img (off + i * n) n))

def secOff (img : Bytes) (i : Nat) : Nat := beAt img (32 + 8 * i) 4
def secLen (img : Bytes) (i : Nat) : Nat := beAt img (36 + 8 * i) 4

/-- R203, R205 reason 1: the header. -/
def headerBad (img : Bytes) : Option PRef :=
  let zero := fun o n => (slice img o n).all (· == 0)
  let bad : Option PRef := some ⟨1, 0, 0xFFFF, 0, 0⟩
  if img.length < 128 || img.length > 2 ^ 30 || beAt img 0 4 ≠ 0x4759504C || beAt img 4 2 ≠ 1 ||
      beAt img 80 4 ≠ img.length then bad
  else if crc32c (img.take 84 ++ [0, 0, 0, 0] ++ img.drop 88) ≠ beAt img 84 4 then bad
  else if byteAt img 12 ≠ 0 || beAt img 16 4 = 0 || beAt img 16 4 > 65536 || byteAt img 20 > 63 || !zero 21 3 ||
      !zero 88 40 then bad
  else
    let sizes := [112, 32, 32, 8, 2, 2]
    match (List.range 6).find? (fun i => secOff img i + secLen img i > img.length ||
        secLen img i % sizes.getD i 1 ≠ 0 || (secLen img i ≠ 0 && secOff img i < 128)) with
    | some i => some ⟨1, i + 1, 0xFFFF, 0, 0⟩
    | none => if secLen img 2 / 32 ≠ beAt img 16 4 then some ⟨1, 3, 0xFFFF, 0, 0⟩ else none

def parseInst (b : Bytes) : PlanInst :=
  ⟨beAt b 0 4, beAt b 4 4, beAt b 8 4, byteAt b 12, beAt b 16 5⟩

def parseDesc (img b : Bytes) : Desc :=
  { bytes := b.take 64, digest := BitVec.ofNat 64 (beAt b 64 8), cell := beAt b 72 2, timed2 := bit (beAt b 74 2) 0,
    timed3 := bit (beAt b 74 2) 1,
    ranks := (List.range (beAt b 80 2)).map (fun i => beAt img (secOff img 4 + 2 * (beAt b 76 4 + i)) 2),
    peers := (List.range (beAt b 82 2)).map (fun i => beAt img (secOff img 5 + 2 * (beAt b 84 4 + i)) 2),
    inst := if beAt b 88 2 = 0xFFFF then none else some (beAt b 88 2), shadow := beAt b 90 2, sramRes := beAt b 92 4,
    pondRes := beAt b 96 4 }

/-- R204: the word stream of a tile in a step. -/
def parseStream (img : Bytes) (tab t : Nat) : List (BitVec 64) :=
  let e := beAt img (secOff img 3 + 8 * (tab + t)) 8
  (List.range (fld e 47 32)).map (fun i => BitVec.ofNat 64 (beAt img (secOff img 3 + 8 * (fld e 31 0 + i)) 8))

def parseStep (img b : Bytes) : PlanStep :=
  let ds := (records img (secOff img 0) (secLen img 0) 112).map (fun x => parseDesc img x.2)
  { step := beAt b 0 4, descs := (ds.drop (beAt b 4 4)).take (beAt b 8 4), seed := beAt b 16 8, mode := byteAt b 24,
    streams := (List.range 64).map (parseStream img (beAt b 12 4)) }

/-- R204, R205 reason 1: reserved fields and the bounds of offsets in the sections. -/
def sectionsBad (img : Bytes) : Option PRef :=
  let zero := fun (b : Bytes) o n => (slice b o n).all (· == 0)
  let dBad := fun (x : Nat × Bytes) =>
    let b := x.2
    if beAt b 74 2 / 4 ≠ 0 || !zero b 100 12 then some (⟨1, 1, 0xFFFF, 0, x.1⟩ : PRef)
    else if 2 * (beAt b 76 4 + beAt b 80 2) > secLen img 4 then some ⟨1, 5, 0xFFFF, 0, x.1⟩
    else if 2 * (beAt b 84 4 + beAt b 82 2) > secLen img 5 then some ⟨1, 6, 0xFFFF, 0, x.1⟩
    else if beAt b 88 2 ≠ 0xFFFF && 32 * (beAt b 88 2 + 1) > secLen img 1 then some ⟨1, 2, 0xFFFF, 0, x.1⟩
    else none
  let iBad := fun (x : Nat × Bytes) =>
    if !zero x.2 13 3 || !zero x.2 21 11 then some (⟨1, 2, 0xFFFF, 0, x.1⟩ : PRef) else none
  let wBad := fun (step tab idx : Nat) =>
    if 8 * (tab + 64) > secLen img 3 then some (⟨1, 4, 0xFFFF, step, idx⟩ : PRef)
    else firstSome ((List.range 64).map fun t =>
      let e := beAt img (secOff img 3 + 8 * (tab + t)) 8
      if fld e 63 48 ≠ 0 || fld e 47 32 > 16384 || 8 * (fld e 31 0 + fld e 47 32) > secLen img 3 then
        some (⟨1, 4, t, step, idx⟩ : PRef) else none)
  let sBad := fun (x : Nat × Bytes) =>
    let b := x.2
    let st := beAt b 0 4
    if byteAt b 0 ≠ 0 || byteAt b 24 / 8 ≠ 0 || byteAt b 24 % 4 = 3 || !zero b 25 7 ||
        st ≠ (beAt img 12 4 + x.1) % 2 ^ 24 || 112 * (beAt b 4 4 + beAt b 8 4) > secLen img 0 then
      some (⟨1, 3, 0xFFFF, st, x.1⟩ : PRef)
    else wBad st (beAt b 12 4) x.1
  firstSome ((records img (secOff img 0) (secLen img 0) 112).map dBad ++
    (records img (secOff img 1) (secLen img 1) 32).map iBad ++ (records img (secOff img 2) (secLen img 2) 32).map sBad)

/-- R203, R204: a plan read from an image whose header and sections are well formed. -/
def parsePlan (img : Bytes) : Plan :=
  { job := beAt img 6 2, gateway := beAt img 8 2, tsm := beAt img 10 2, first := beAt img 12 4, count := beAt img 16 4,
    rampTile := byteAt img 20, tileMask := beAt img 24 8,
    insts := (records img (secOff img 1) (secLen img 1) 32).map (fun x => parseInst x.2),
    steps := (records img (secOff img 2) (secLen img 2) 32).map (fun x => parseStep img x.2) }

def Plan.inst (p : Plan) (d : Desc) : Option PlanInst :=
  match d.inst with
  | some i => p.insts[i]?
  | none => none

def jobOf (s : State) (j : Nat) : Job := mget s.outer j Job.none
def setJob (s : State) (j : Nat) (x : Job) : State := { s with outer := mset s.outer j x }

/-- The matrix of a job's table with a number. -/
def matrixOf (s : State) (job m : Nat) : Option Matrix :=
  match (jobOf s job).tab with
  | some t => t.mats.find? (fun e => e.matrix == m)
  | none => none

/-- R145: the links of a line group, enabled, whose peer is a gateway. -/
def routeTo (s : State) (grp : Fin 4) (g : Nat) : Bool :=
  (List.range 4).any fun l => fldB s (.line grp) 0x54 l 31 31 == 1 && fldB s (.line grp) 0x54 l 10 0 == g

def Desc.peerGroup (d : Desc) (g : Nat) : Fin 4 := ⟨d.peer g / 8192 % 4, by omega⟩

/-- Whether a tile is QUARANTINED. -/
def quarantined (s : State) (t : Nat) : Bool := (pageOf s (.tile ⟨t % 64, by omega⟩)).quarantined

/-- R205 reason 5: placement. -/
def placementBad (s : State) (tileMask me : Nat) (d : Desc) : Bool :=
  let t := d.cell / 240
  !(d.cell < 16384 && d.fast == isFastCell d.cell) ||
  (!d.fast && (!bit tileMask t || quarantined s t || d.shadow == t ||
    (d.shadow == 0xFFFF && quarantined s (t ^^^ 1)))) ||
  !(d.shadow == 0xFFFF || (d.shadow < 64 && !quarantined s d.shadow)) ||
  d.ranks.length > 2048 || d.ranks.any (fun r => r ≥ d.n) || !decide d.ranks.Nodup ||
  d.peers.any (fun e => bit e 15 != (e % 2048 / 64 == me / 64)) || !d.placed me

/-- R205 reasons 3 to 7 for one descriptor of a step, in the order of the reasons. -/
def descBad (s : State) (p : Plan) (me : Nat) (st : PlanStep) (reason : Nat) (i : Nat) (d : Desc) : Bool :=
  let inst := p.inst d
  match reason with
  | 3 => !canonical d inst || fld d.ciid 63 48 != p.job || fld d.ciid 47 24 != st.step ||
         (st.descs.take i).any (fun e => e.ord == d.ord)
  | 4 => digestOf d.bytes != d.digest
  | 5 => placementBad s p.tileMask me d || (st.descs.take i).any (fun e => e.cell == d.cell)
  | 6 => d.sites.any (fun x => x != me / 64 &&
           (let g := (d.siteGws me x).getD (d.index me) 0
            !routeTo s (d.peerGroup g) g))
  | 7 => d.proj > 0 && (match inst with
           | some x => d.proj > min x.rows x.cols || x.rows * x.cols != elemsOf d inst ||
                       !(x.efType ∈ [0x01, 0x02, 0x10])
           | none => true)
  | _ => false

/-- R239, R243: reason 12 for one descriptor: the job table and the pseudo-gradient conditions. -/
def pseudoBad (s : State) (p : Plan) (d : Desc) : Bool :=
  match d.inst with
  | none => false
  | some _ =>
    match p.inst d with
    | none => true
    | some x =>
      match matrixOf s p.job x.matrix with
      | none => true
      | some m =>
        -- the placement of the members is known here for this gateway alone: elsewhere than at the home, the home must be a
        -- gateway of the instance, and ROOT must not stand here
        let rooted := if m.home = p.gateway then (if d.coll = 2 then d.ranks.contains d.root else !d.ranks.isEmpty)
          else (d.gws p.gateway).contains m.home && (d.coll != 2 || !d.ranks.contains d.root)
        !(d.coll == 1 || d.coll == 2 || (d.coll == 3 && d.proj > 0)) || (d.proj > 0 && d.coll != 1) || !rooted ||
        !(d.redOp == 1 || d.redOp == 2) || elemsOf d (some x) != m.rows * m.cols || d.outT != m.dType

/-! ## The areas of a job's matrices (R242, R258) -/

def wSize (m : Matrix) : Nat := m.rows * m.cols * (if m.wType = 1 then 4 else 2)
def mSize (m : Matrix) : Nat := if m.rule = 1 then 0 else m.rows * m.cols * 4
def dSize (m : Matrix) : Nat := encSize m.dType (m.rows * m.cols)

/-- R242, R258: the areas of a matrix: holder, address and bytes. -/
def areasOf (m : Matrix) : List (Nat × Nat × Nat) :=
  [(m.home, m.hW0, wSize m), (m.home, m.hW1, wSize m), (m.home, m.hD, dSize m),
   (m.partner, m.pW0, wSize m), (m.partner, m.pW1, wSize m), (m.partner, m.pD, dSize m)] ++
  (if m.rule = 1 then [] else [(m.home, m.hM, mSize m), (m.partner, m.pM, mSize m)])

/-- R238: the trays that cover the areas which a gateway holds of a job's matrices. -/
def areaTrays (s : State) (job me : Nat) : List Nat :=
  match (jobOf s job).tab with
  | some t => ((t.mats.flatMap areasOf).filter (fun a => a.1 == me)).flatMap (fun a => pondTrays a.2)
  | none => []

/-- R384: the largest sums of a plan's reservations over one step: SRAM trays in each tile, and pond trays. -/
def asideOf (p : Plan) (req : Nat) : Aside :=
  let sram := (List.range 64).map fun t => p.steps.foldl (fun a st =>
    max a (st.descs.foldl (fun n d => if !d.fast && d.cell / 240 = t then n + d.sramRes else n) 0)) 0
  let pond := p.steps.foldl (fun a st => max a (st.descs.foldl (fun n d => n + d.pondRes) 0)) 0
  ⟨req, sram, pond⟩

/-- R201, R384: the pond trays that the words of a step name beside the areas of the job's matrices, with the instruction that
names each. A plan reserves a number of trays and no numbered ones (R384), so they are as many as it reserves (DESIGN CHOICE, entry
33). -/
def wordTrays (s : State) (p : Plan) (st : PlanStep) : List ((Nat × Nat) × Nat) :=
  let areas := areaTrays s p.job p.gateway
  (List.range 64).flatMap fun t =>
    let ws := st.streams.getD t []
    (instrsOf ws (ws.length + 1) 0).flatMap fun e =>
      let sp := wordSpans e.2
      (((sp.1 ++ sp.2).flatMap pondTrays).filter (fun i => !areas.contains i)).map (fun i => ((t, e.1), i))

/-- R201, R205 reason 8: the first instruction of a step whose pond addresses go beyond the trays that the plan reserves. -/
def trayBad (s : State) (p : Plan) (st : PlanStep) (reserved : Nat) : Option PRef :=
  let l := wordTrays s p st
  if (l.map (·.2)).eraseDups.length ≤ reserved then none
  else l.head?.map (fun e => ⟨8, 4, e.1.1, st.step, e.1.2⟩)

/-- R205: the check of a plan in the order of the reasons: the first that fails, or the plan with its set-aside made. -/
def checkPlan (s : State) (slot req : Nat) (img : Bytes) : PRef ⊕ (Plan × State × Aside) :=
  match headerBad img with
  | some r => .inl r
  | none => match sectionsBad img with
    | some r => .inl r
    | none =>
      let p := parsePlan img
      let r2 : Option PRef := if gwNum s != some p.gateway || p.tsm != s.boot.tsmEpoch then
        some ⟨2, 0, 0xFFFF, 0, 0⟩ else none
      let overDescs := fun (f : PlanStep → Nat → Desc → Bool) (reason : Nat) =>
        firstSome (p.steps.flatMap fun st => (List.range st.descs.length).map fun i =>
          match st.descs[i]? with
          | some d => if f st i d then some (⟨reason, 1, 0xFFFF, st.step, i⟩ : PRef) else none
          | none => none)
      -- R234: a plan that names a quarantined tile in its TILE_MASK
      let r5 : Option PRef := ((List.range 64).find? (fun t => bit p.tileMask t && quarantined s t)).map
        (fun t => ⟨5, 0, t, 0, 0⟩)
      let r37 := (List.range 5).flatMap (fun i =>
        (if i = 2 then [r5] else []) ++ [overDescs (fun st => descBad s p p.gateway st (i + 3)) (i + 3)])
      let allDescs := p.steps.flatMap (fun st => st.descs)
      let a := asideOf p req
      let r8 := firstSome (p.steps.flatMap fun st => (List.range 64).map fun t =>
        let ws := st.streams.getD t []
        if !ws.isEmpty && !bit p.tileMask t then some (⟨8, 4, t, st.step, 0⟩ : PRef)
        else match streamBad s p.rampTile p.tileMask t allDescs ws (ws.length + 1) 0 with
          | some i => some ⟨8, 4, t, st.step, i⟩
          | none => none)
      match firstSome ([r2] ++ r37 ++ [r8] ++ p.steps.map (fun st => trayBad s p st a.pond)) with
      | some r => .inl r
      | none =>
        match makeAside (dropAside s slot) slot a with
        | none => .inl ⟨9, 0, 0xFFFF, 0, 0⟩
        | some s' =>
          let r12a : Option PRef := match (jobOf s p.job).tab with
            | none => if p.insts.isEmpty then none else some ⟨12, 2, 0xFFFF, 0, 0⟩
            | some _ => firstSome ((List.range p.insts.length).map fun i =>
                match p.insts[i]? with
                | some x => (match matrixOf s p.job x.matrix with
                    | some m => if m.rows = x.rows ∧ m.cols = x.cols then none else some (⟨12, 2, 0xFFFF, 0, i⟩ : PRef)
                    | none => some ⟨12, 2, 0xFFFF, 0, i⟩)
                | none => none)
          match firstSome [r12a, overDescs (fun _ _ => pseudoBad s p) 12] with
          | some r => .inl r
          | none => .inr (p, s', a)

/-! ## Instances of the plans in force -/

/-- R206: whether a slot's plan is in force: it can run or be rolled back to. -/
def inForce (x : Slot) : Bool := x.st ∈ [SlotSt.active, .next, .held, .done]

/-- The step of a plan with a number. -/
def Plan.stepOf (p : Plan) (n : Nat) : Option PlanStep := p.steps.find? (fun st => st.step == n)

/-- An instance as a plan in force places it: the slot, the plan, its step and descriptor. -/
structure Placed where
  slot : Nat
  plan : Plan
  step : PlanStep
  desc : Desc
  deriving DecidableEq, Repr

/-- The instance of a slot's plan that a CIID names, replay count left out. -/
def findInSlot (s : State) (i : Nat) (c : BitVec 64) : Option Placed :=
  let x := slotOf s i
  if !inForce x then none else
  match x.plan with
  | none => none
  | some p =>
    if p.job ≠ ciidJob c then none else
    match p.stepOf (ciidStep c) with
    | none => none
    | some st => (st.descs.find? (fun d => d.ord == ciidOrd c)).map (fun d => ⟨i, p, st, d⟩)

/-- R95: the descriptor that the plan in force holds for a CIID; a running plan goes before one that is DONE. -/
def findInst (s : State) (c : BitVec 64) : Option Placed :=
  let order := if (slotOf s 0).st = .done then [1, 0] else [0, 1]
  firstSome (order.map (fun i => findInSlot s i c))

/-- The full CIID of a descriptor under a replay count. -/
def Desc.full (d : Desc) (replay : Nat) : BitVec 64 := BitVec.ofNat 64 (d.ciid + replay % 256)

def Placed.inst (x : Placed) : Option PlanInst := x.plan.inst x.desc

end Sys2Proof.Machine
end

