-- ==== Sys2Proof/Machine/Cells.lean ====
section
/-! DEFINITION. Machine/Cells.lean: rendezvous cells: arming and failing (R121 to R133), what a cell holds and expects, and the
records between gateways as they are formed, sent and kept (R141 to R161, R170). -/
namespace Sys2Proof.Machine
open Sys2Proof

/-! ## Attempts (R81, R82) -/

/-- What an attempt is at this gateway: stale (rolled back or committed), the one that runs or ran last, or a later one. Between
a RECOVER and its Rz the attempts the RECOVER assigns have not begun. -/
inductive Attempt where
  | stale | now | later
  deriving DecidableEq, Repr

def attempt (s : State) (c : BitVec 64) : Attempt :=
  let j := ciidJob c; let st := ciidStep c; let r := ciidReplay c
  if committed s j st || s.plans.rolled.contains (j, st, r) || r < replayOf s j st then .stale
  else if r = replayOf s j st && !s.rseq.halted.contains j then .now else .later

def instRec (s : State) (c : BitVec 64) : InstRec := mget s.coll.insts c InstRec.none
def setInst (s : State) (c : BitVec 64) (x : InstRec) : State :=
  { s with coll := { s.coll with insts := mset s.coll.insts c x } }

/-! ## Raising on the page of a cell -/

/-- A code raised on the page that holds a cell. -/
def raiseCell (s : State) (cell code info : Nat) (c : BitVec 64) : State := raiseFor s (cellPage cell) code info c

/-- R498: the page where a code about an input is captured. -/
def inputPage (s : State) (c : BitVec 64) (other : PageId) : PageId :=
  match findInst s c with
  | some x => cellPage x.desc.cell
  | none => other

def recPage : RecVia → PageId
  | .site d => fportOf d.port
  | .link g _ => .line g
  | .own => .rseq

/-! ## What a cell expects and has taken -/

/-- FP32 patterns as bytes in memory (R221, R181: little-endian). -/
def fp32Bytes (l : List Nat) : Bytes := l.flatMap (leBytes 4)
def memF32 (mem : List Host.Cell) (a n : Nat) : List Nat := (List.range n).map (fun i => fromLe (memBytes mem (a + 4 * i) 4))

/-- R474: one clock of a tile's issue ledger: positions issued, wasted, starved, blocked, and those of them that wait. -/
def charge (s : State) (t : Fin 64) (issued wasted starved blocked wait : Nat) : State :=
  let pg := PageId.tile t
  count (count (count (count (count (count s pg 0 1) pg 1 issued) pg 2 wasted) pg 3 starved) pg 4 blocked) pg 5 wait

/-- Chunks of a contribution (R95). -/
def Desc.inChunks (d : Desc) : Nat := cdiv d.inBytes d.inChunk

/-- Whether this gateway holds a shard. -/
def Placed.holds (x : Placed) (me k : Nat) : Bool := x.desc.holder me x.inst k (me / 64) == me
/-- Whether this gateway owns a shard. -/
def Placed.owns (x : Placed) (me k : Nat) : Bool := x.desc.owner me x.inst k == me
def Placed.shardList (x : Placed) : List Nat := List.range (x.desc.shards x.inst)

/-- The other gateways of this gateway's site in the instance. -/
def Placed.siteMates (x : Placed) (me : Nat) : List Nat := (x.desc.siteGws me (me / 64)).filter (· != me)
/-- The holders of a shard at the other sites. -/
def Placed.farHolders (x : Placed) (me k : Nat) : List Nat :=
  (x.desc.sites.filter (· != me / 64)).map (fun st => x.desc.holder me x.inst k st)

def Placed.rows (x : Placed) : Nat := match x.inst with | some i => i.rows | none => 0
def Placed.cols (x : Placed) : Nat := match x.inst with | some i => i.cols | none => 0

/-- R157, R164: the element type and the element count of what a record of a kind, level and flags carries. -/
def Placed.recShape (x : Placed) (kind level flags k : Nat) : Nat × Nat :=
  let d := x.desc
  if bit flags 1 then
    (if kind = 2 then 0x02 else d.l3T, (if bit flags 2 then x.cols else x.rows) * d.proj)
  else (if kind = 2 then d.outT else if level = 2 then d.l2T else d.l3T, d.shardLen x.inst k)

/-- The records of a sender's partial that are complete input: EMPTY, or every chunk. -/
def partialDone (x : Placed) (cl : Cell) (level src k pflags : Nat) : Bool :=
  let mine := cl.recs.filter (fun r => r.kind == 1 && r.level == level && r.src == src && r.shard == k &&
    (bit r.flags 3 || r.flags % 8 / 2 * 2 == pflags))
  let sh := x.recShape 1 level pflags k
  mine.any (fun r => bit r.flags 3) || mine.length ≥ recChunks sh.1 sh.2

/-- R148: whether a sender's partial was EMPTY. -/
def partialEmpty (cl : Cell) (level src k : Nat) : Bool :=
  cl.recs.any (fun r => r.kind == 1 && r.level == level && r.src == src && r.shard == k && bit r.flags 3)

/-- Whether every contribution of the ranks placed here has been taken. -/
def lvl1Done (x : Placed) (cl : Cell) : Bool := cl.taken.length ≥ x.desc.ranks.length * x.desc.inChunks

/-- R155: whether the site partial of a held shard is complete. -/
def lvl2Done (x : Placed) (me : Nat) (cl : Cell) (k : Nat) : Bool :=
  lvl1Done x cl && (x.siteMates me).all (fun g => partialDone x cl 2 g k 0)

/-- R156, R164: whether every other site's partial (or factor partial) of an owned shard has been taken. -/
def lvl3Done (x : Placed) (me : Nat) (cl : Cell) (k pflags : Nat) : Bool :=
  (x.farHolders me k).all (fun g => partialDone x cl 3 g k pflags)

/-- R125: whether every input of this cell has been taken. -/
def inputsDone (x : Placed) (me : Nat) (cl : Cell) : Bool :=
  lvl1Done x cl && x.shardList.all (fun k =>
    (!x.holds me k || lvl2Done x me cl k) &&
    (!x.owns me k || (if x.desc.proj > 0 then lvl3Done x me cl k 2 && lvl3Done x me cl k 6 else lvl3Done x me cl k 0)))

/-- The number of inputs the plan routes to the cell, and of those taken (R138). -/
def inputCounts (x : Placed) (me : Nat) (cl : Cell) : Nat × Nat :=
  let d := x.desc
  let sender := fun (level g k pf : Nat) => if partialEmpty cl level g k then 1 else
    (let sh := x.recShape 1 level pf k; recChunks sh.1 sh.2)
  let sides := if d.proj > 0 then [2, 6] else [0]
  let want := x.shardList.foldl (fun n k =>
    n + (if x.holds me k then (x.siteMates me).foldl (fun n g => n + sender 2 g k 0) 0 else 0) +
    (if x.owns me k then (x.farHolders me k).foldl
      (fun n g => if partialEmpty cl 3 g k then n + 1 else sides.foldl (fun n pf => n + sender 3 g k pf) n) 0 else 0))
    (d.ranks.length * d.inChunks)
  (want, cl.taken.length + (cl.recs.filter (fun r => r.kind == 1)).length)

/-- R235: senders the plan routes to the cell, and those whose every input has been taken. -/
def senderCounts (x : Placed) (me : Nat) (cl : Cell) : Nat × Nat :=
  let d := x.desc
  let lv2 := if x.shardList.any (fun k => x.holds me k) then x.siteMates me else []
  let owned := x.shardList.filter (fun k => x.owns me k)
  let far := (owned.flatMap (fun k => x.farHolders me k)).eraseDups
  let doneRank := d.ranks.filter (fun r => (cl.taken.filter (fun t => t.member == r)).length ≥ d.inChunks)
  let done2 := lv2.filter (fun g => x.shardList.all (fun k => !x.holds me k || partialDone x cl 2 g k 0))
  let done3 := far.filter (fun g => owned.all (fun k => !(x.farHolders me k).contains g ||
    (if d.proj > 0 then partialDone x cl 3 g k 2 && partialDone x cl 3 g k 6 else partialDone x cl 3 g k 0)))
  (d.ranks.length + lv2.length + far.length, doneRank.length + done2.length + done3.length)

/-- The senders of the inputs taken so far (R124). -/
def senders (cl : Cell) : Nat :=
  (cl.taken.map (·.member)).eraseDups.length + ((cl.recs.filter (fun r => r.kind == 1)).map (·.src)).eraseDups.length

/-! ## Control messages to the master (R130) -/

/-- R130: a failure notice of a cell in an error state. -/
def errCode : CellSt → Nat
  | .mismatch => 0x3201 | .timeout => 0x3202 | .tainted => 0x3203 | _ => 0
def stNum : CellSt → Nat
  | .free => 0 | .armed => 1 | .gathering => 2 | .complete => 3 | .harvested => 4 | .mismatch => 5 | .timeout => 6
  | .tainted => 7
def stOf (n : Nat) : CellSt := if n = 5 then .mismatch else if n = 6 then .timeout else .tainted
def isErr (st : CellSt) : Bool := st == .mismatch || st == .timeout || st == .tainted

def sendNotice (s : State) (cl : Cell) : State :=
  sendMaster s (.ctl (mkCtl s 1 (stNum cl.st) cl.ciid 0 s.sf cl.digest.toNat))

/-! ## Arming (R126, R166) -/

/-- The set-aside of a slot, with how a cell takes its trays from it. -/
def armTrays (s : State) (x : Placed) : Option (State × List TrayId) :=
  if isFastCell x.desc.cell then some (s, [])
  else match mget? s.trays.asides x.slot with
    | none => some (s, [])
    | some a => takeAside s x.slot a (cellTile x.desc.cell) (cellQuad x.desc.cell) x.desc.sramRes x.desc.pondRes

/-- R138: whether a FREE cell may arm: a fast front end that is enabled and not quiesced. -/
def mayArm (s : State) (cell : Nat) : Bool :=
  !isFastCell cell || ((pageOf s (cellPage cell)).enable && !(pageOf s (cellPage cell)).quiesce)

/-- R126: the cell armed for an instance, with its trays; none where it must wait (R138, R166). -/
def arm (s : State) (x : Placed) (c : BitVec 64) : Option State :=
  if !mayArm s x.desc.cell then none
  else match armTrays s x with
    | none => none
    | some (s, l) =>
      some (setCell s x.desc.cell
        { Cell.free with st := .armed, ciid := c, digest := x.desc.digest, armSf := s.sf, trays := l })

/-! ## Errors (R129, R139, R173) -/

/-- Harvest, failure and rollback return a cell's trays (R166). -/
def freeCellTrays (s : State) (cell : Nat) : State :=
  let cl := cellOf s cell
  releaseTrays (setCell s cell { cl with trays := [] }) cl.trays

/-- A cell enters an error state it detected: it raises the code, stops taking inputs, stops sending what waits for a LAUNCH
(R127) and sends its notice (R130). -/
def enterError (s : State) (cell : Nat) (c : BitVec 64) (st : CellSt) (cause info : Nat) : State :=
  let cl := cellOf s cell
  let cl := { cl with st := st, ciid := c, remote := false, cause := if st = .mismatch then cause else 0,
                      taint := if st = .tainted then cause else 0, recheck := false, ready := [] }
  let s := raiseCell (setCell s cell cl) cell (errCode st) (cell % 16384 + info * 65536) c
  sendNotice s cl

/-- R129: MISMATCH with a cause, refusing an input of a rank (0xFFFF for another gateway). -/
def mismatch (s : State) (x : Placed) (c : BitVec 64) (cause rank : Nat) : State :=
  let cl := cellOf s x.desc.cell
  let s := if cl.st = .free || cl.ciid ≠ c then
      setCell s x.desc.cell { Cell.free with ciid := c, digest := x.desc.digest } else s
  enterError s x.desc.cell c .mismatch cause rank

/-- R172, R173: TAINTED with a cause, a level and the tile that detected it. -/
def taint (s : State) (cell : Nat) (c : BitVec 64) (cause level tile : Nat) : State :=
  enterError s cell c .tainted cause (level + cause * 4 + tile % 64 * 16)

/-! ## Records: forming, sending, keeping -/

/-- Cuts bytes into chunks. -/
def splitChunks (n : Nat) (l : Bytes) : List Bytes :=
  if l.isEmpty || n = 0 then [] else (List.range (cdiv l.length n)).map (fun i => slice l (i * n) n)

/-- R150: a record of this gateway for an instance, its CHECKs computed. -/
def mkRec (s : State) (x : Placed) (c : BitVec 64) (kind level flags src dst k t idx count : Nat) (payload : Bytes) :
    Record :=
  sealRec { hdr := { rver := 1, kind := BitVec.ofNat 8 kind, level := BitVec.ofNat 8 level, flags := BitVec.ofNat 8 flags,
                     srcGw := BitVec.ofNat 16 src, dstGw := BitVec.ofNat 16 dst, ciid := c, digest := x.desc.digest,
                     shard := BitVec.ofNat 16 k, elemType := BitVec.ofNat 8 t, subject := 0,
                     chunkIndex := BitVec.ofNat 32 idx, chunkCount := BitVec.ofNat 32 count,
                     payloadLen := BitVec.ofNat 16 payload.length, rsvd1 := 0, hopGw := BitVec.ofNat 16 (gw s), rsvd2 := 0,
                     valueCheck := BitVec.ofNat 64 (if payload.isEmpty then 0 else crc64 payload), check := 0 },
            payload := payload }

/-- The first enabled link of a line group whose peer is a gateway (R315). -/
def linkTo (s : State) (grp : Fin 4) (g : Nat) : Option LinkId :=
  ((List.finRange 4).find? fun l =>
    fldB s (.line grp) 0x54 l.val 31 31 == 1 && fldB s (.line grp) 0x54 l.val 10 0 == g).map (fun l => (grp, l))

/-- R149: a record goes out: over the site fabric to the quadrant of the peer's cell, or on the line. -/
def emitRec (s : State) (x : Placed) (r : Record) : State :=
  let dst := r.hdr.dstGw.toNat
  let d := x.desc
  if dst / 64 = site s then
    egPush s (Config.sitePort dst) (if d.fast then .site else .peer) (.rcd dst (d.peer dst / 2048 % 4) (peerPort s) r)
      (wireSize true true (64 + r.payload.length))
  else match linkTo s (d.peerGroup dst) dst with
    | some l => lineSend s l (if d.fast then 1 else 2) (.rcd r)
    | none => s

/-- A record sent for the first time and kept until its RACK (R153, R166). -/
def sendKept (s : State) (x : Placed) (r : Record) : State :=
  let s := emitRec s x r
  let dst := r.hdr.dstGw.toNat
  let cl := cellOf s x.desc.cell
  let ln := if dst / 64 = site s then none else some (x.desc.peerGroup dst)
  setCell s x.desc.cell { cl with kept := cl.kept ++ [⟨r, ln, 1, s.sf, false, false⟩] }

def sendAll (s : State) (x : Placed) (rs : List Record) : State := rs.foldl (fun s r => sendKept s x r) s

/-- R170: the sampling of formed chunks in a quadrant: one draw per window of N. -/
def xchkN (s : State) (q : Fin 4) : Nat := fldV s (.quad q) 0x44 16 0

/-- The binade of a nonzero FP32 magnitude. -/
def binade (w : Nat) : Nat := if fld w 30 23 = 0 then Nat.log2 (fld w 22 0) else fld w 30 23 + 22

/-! ## Adding into the accumulators (R146) -/

/-- R146: values added into accumulator elements from `lo` on; the first input of an element initialises it. -/
def addElems (redOp : Nat) (strict : Bool) (acc : PMap Nat Nat) (lo : Nat) (vs : List Nat) : PMap Nat Nat × Flg :=
  let r := vs.foldl (fun (p : PMap Nat Nat × Flg × Nat) v =>
    let (m, f, i) := p
    let y := match mget? m (lo + i) with
      | some a => accumulate redOp strict a v
      | none => initAcc redOp strict v
    (mset m (lo + i) y.1, f.add (y.2.at i), i + 1)) (acc, Flg.zero, 0)
  (r.1, r.2.1)

/-- The values of accumulator elements, +0 where nothing was added. -/
def accVals (acc : PMap Nat Nat) (lo n : Nat) : List Nat := (List.range n).map (fun i => mget acc (lo + i) 0)

/-- Bytes of an ALL_GATHER merged in: positions not yet copied hold 0. -/
def addRaw (raw : PMap Nat Byte) (lo : Nat) (bs : Bytes) : PMap Nat Byte :=
  (bs.foldl (fun (p : PMap Nat Byte × Nat) b => (mset p.1 (lo + p.2) (mget p.1 (lo + p.2) 0 ||| b), p.2 + 1)) (raw, 0)).1

/-! ## Formed chunks and their cross-check (R157, R170, R171) -/

/-- R432: the operand pattern class of decoded inputs with their types. -/
def patternClass (l : List (Nat × List Nat)) : Nat :=
  let vs := l.flatMap (·.2)
  let nz := (vs.filter (fun v => fld v 30 0 != 0)).map binade
  let spread := nz.foldl max 0 - nz.foldl min 1000
  let special := vs.any (fun v => fld v 30 23 == 255 || (fld v 30 23 == 0 && fld v 22 0 != 0))
  let width := fun (t : Nat) => if elemBits t ≥ 16 then 0 else if elemBits t = 8 then 1 else if elemBits t = 6 then 2 else 3
  (if spread ≤ 8 then 0 else if spread ≤ 32 then 1 else if spread ≤ 96 then 2 else 3) +
  (if 2 * (vs.length - nz.length) > vs.length then 4 else 0) + (if special then 8 else 0) +
  16 * (l.map (fun e => width e.1)).foldl max 0

/-- The part of a source that reaches elements [lo, lo + n). -/
def XSrc.clip (lo n : Nat) : XSrc → XSrc
  | .adds op strict ins => .adds op strict (ins.filterMap fun e =>
      let a := max lo e.2.1
      let z := min (lo + n) (e.2.1 + e.2.2.length)
      if a < z then some (e.1, a, (e.2.2.drop (a - e.2.1)).take (z - a)) else none)
  | src => src

/-- The decoded inputs of a source, with their types. -/
def XSrc.inputs : XSrc → List (Nat × List Nat)
  | .copy _ => []
  | .adds _ _ ins => ins.map (fun e => (e.1, e.2.2))
  | .prod _ _ _ a b => [(0x01, a), (0x01, b)]
  | .ortho _ _ p => [(0x01, p)]
  | .expand _ _ _ ph qn => [(0x02, ph), (0x02, qn)]

/-- R171: n FP32 values from `lo` on, computed from their source. -/
def XSrc.values (lo n : Nat) : XSrc → Fl (List Nat)
  | .copy _ => ([], Flg.zero)
  | .adds op strict ins =>
    let r := ins.foldl (fun (p : PMap Nat Nat × Flg) e =>
      let a := addElems op strict p.1 e.2.1 e.2.2
      (a.1, p.2.add a.2)) ([], Flg.zero)
    (accVals r.1 lo n, r.2)
  | .prod m k w a b => let r := matmul false m k w a b; ((r.1.drop lo).take n, r.2)
  | .ortho rows r p => let o := Sys2Proof.Machine.ortho false rows r p; ((o.1.drop lo).take n, o.2.2)
  | .expand rows cols r ph qn => let a := Sys2Proof.Machine.expand rows cols r ph qn; ((a.1.drop lo).take n, a.2)

/-- R157: one chunk of FP32 values, the first of them element `base` of the shard, multiplied for MEAN and encoded. -/
def Enc.chunk (e : Enc) (base : Nat) (vs : List Nat) : Bytes × Flg :=
  let v := match e.mean with
    | some n => gather (vs.map (fun w => fpMul e.strict w (recipN n)))
    | none => (vs, Flg.zero)
  let r := encodeElems e.strict e.round ⟨e.seed, e.point, e.gw, e.shard, base⟩ e.typ v.1
  (r.1, v.2.add r.2)

/-- Elements of one record chunk in a type. -/
def chunkElems (t : Nat) : Nat := recChunk t / groupBytes t * groupElems t

/-- R171: a sampled chunk computed again: its FP32 accumulation and encoded output, with the flags. -/
def Xchk.again (k : Xchk) : Bytes × Flg :=
  match k.src with
  | .copy bs => (bs, Flg.zero)
  | src =>
    let v := src.values k.lo k.n
    let r := k.enc.chunk (k.chunk * chunkElems k.enc.typ) v.1
    (fp32Bytes v.1 ++ r.1, v.2.add r.2)

/-- R171: the shadow of an instance's cross-checks: the tile that the plan names, or tile t XOR 1. -/
def shadowOf (x : Placed) : Fin 64 :=
  let sh := if x.desc.shadow = 0xFFFF then (cellTile x.desc.cell).val ^^^ 1 else x.desc.shadow
  ⟨sh % 64, by omega⟩

/-- R170, R171: one formed chunk of a tile cell, of n elements from `lo` on, with the values and the bytes formed: counted in its
quadrant's window, and sampled when it stands at the drawn position. No sample is taken while the shadow is quarantined, until the
plan that names another is loaded (DESIGN CHOICE, entry 96). -/
def formed (s : State) (x : Placed) (c : BitVec 64) (level : Nat) (src : XSrc) (e : Enc) (lo n idx : Nat) (vs : List Nat)
    (out : Bytes) : State :=
  let cell := x.desc.cell
  let q := cellQuad cell
  let m := xchkN s q
  if isFastCell cell || m = 0 then s
  else
    let w := mget s.coll.formed q (0, 0)
    let hit := w.2 == Config.samplePos q.val w.1 m % m
    let w' := if w.2 + 1 ≥ m then (w.1 + 1, 0) else (w.1, w.2 + 1)
    let s := { s with coll := { s.coll with formed := mset s.coll.formed q w' } }
    if !hit || (pageOf s (.tile (shadowOf x))).quarantined then s
    else
      let t := cellTile cell
      let src := src.clip lo n
      let xk : Xchk :=
        { id := s.coll.xseq, cell := cell, ciid := c, level := level, chunk := idx, pat := patternClass src.inputs, tile := t,
          shadow := shadowOf x, referee := none, src := src, lo := lo, n := n, enc := e, bits := fp32Bytes vs ++ out, sh := [] }
      let s := count (count s (.tile t) 11 1) (.quad q) 0 1
      { s with coll := { s.coll with xchks := s.coll.xchks ++ [xk], xseq := s.coll.xseq + 1 } }

/-- R157, R170: a value formed chunk by chunk: each chunk encoded, its flags counted, and formed. `lo` is the place of the value's
first element among those of its source. -/
def formChunks (s : State) (x : Placed) (c : BitVec 64) (level lo : Nat) (src : XSrc) (e : Enc) (vs : List Nat) :
    State × List Bytes :=
  let per := chunkElems e.typ
  (List.range (recChunks e.typ vs.length)).foldl (fun (p : State × List Bytes) i =>
    let v := (vs.drop (i * per)).take per
    let r := e.chunk (i * per) v
    let s := landCell p.1 x.desc.cell (r.2.inBlk i) c e.typ
    (formed s x c level src e (lo + i * per) v.length i v r.1, p.2 ++ [r.1])) (s, [])

/-- R157, R170: the chunks of an ALL_GATHER value, whose bits are copied. -/
def formCopies (s : State) (x : Placed) (c : BitVec 64) (level : Nat) (e : Enc) (bs : Bytes) : State × List Bytes :=
  let ch := splitChunks (recChunk e.typ) bs
  ((List.range ch.length).foldl (fun s i =>
    formed s x c level (.copy (ch.getD i [])) e 0 0 i [] (ch.getD i [])) s, ch)

/-- The gathered bytes of a range. -/
def rawRange (cl : Cell) (lo n : Nat) : Bytes := (List.range n).map (fun i => mget cl.raw (lo + i) 0)

/-- Bytes before element e in a type (e a multiple of its group). -/
def byteOff (t e : Nat) : Nat := e / groupElems t * groupBytes t

/-- R157: a shard's value at a rounding point (1 level 2, 2 level 3, 3 final) in a type, as record chunks; a copy of bits for
ALL_GATHER. -/
def formShard (s : State) (x : Placed) (c : BitVec 64) (k point t : Nat) : State × List Bytes :=
  let d := x.desc
  let cl := cellOf s d.cell
  let lo := d.shardLo x.inst k
  let n := d.shardLen x.inst k
  let e : Enc := ⟨d.strict, d.round, d.seed, point, gw s, k, t, if point = 3 && d.redOp = 2 then some d.n else none⟩
  if d.coll = 4 then formCopies s x c point e (rawRange cl (byteOff t lo) (encSize t n))
  else formChunks s x c point lo (.adds d.redOp d.strict cl.ins) e (accVals cl.acc lo n)

/-- The chunks of a shard's value as records of a kind to one gateway. -/
def shardRecs (s : State) (x : Placed) (c : BitVec 64) (kind level flags src dst k t : Nat) (ch : List Bytes) : List Record :=
  (List.range ch.length).map (fun i => mkRec s x c kind level flags src dst k t i ch.length (ch.getD i []))

/-- Holds records of a timed level for their LAUNCH, or sends them (R148, R214). -/
def sendOrHold (s : State) (x : Placed) (k level : Nat) (rs : List Record) : State :=
  let timed := if level = 2 then x.desc.timed2 else x.desc.timed3
  if timed then
    let cl := cellOf s x.desc.cell
    setCell s x.desc.cell { cl with ready := mset cl.ready (k, level) (mget cl.ready (k, level) [] ++ rs) }
  else sendAll s x rs

def markSent (s : State) (cell k level : Nat) : State :=
  let cl := cellOf s cell
  setCell s cell { cl with sent := cl.sent ++ [(k, level)] }

/-- R148, R155: the level-2 partial of a shard that this gateway does not hold. -/
def sendLevel2 (s : State) (x : Placed) (c : BitVec 64) (k : Nat) : State :=
  let me := gw s
  let d := x.desc
  let dst := d.holder me x.inst k (me / 64)
  if d.ranks.isEmpty then
    sendOrHold (markSent s d.cell k 2) x k 2 [mkRec s x c 1 2 8 me dst k d.l2T 0 0 []]
  else
    let (s, ch) := formShard (markSent s d.cell k 2) x c k 1 d.l2T
    sendOrHold s x k 2 (shardRecs s x c 1 2 0 me dst k d.l2T ch)

/-- R148: whether a site has no member, as its holder knows it. -/
def siteEmpty (x : Placed) (me : Nat) (cl : Cell) (k : Nat) : Bool :=
  x.desc.ranks.isEmpty && (x.siteMates me).all (fun g => partialEmpty cl 2 g k)

/-- R156: the level-3 partial of a held shard, to its owner at another site. -/
def sendLevel3 (s : State) (x : Placed) (c : BitVec 64) (k : Nat) : State :=
  let me := gw s
  let cl := cellOf s x.desc.cell
  let d := x.desc
  let dst := d.owner me x.inst k
  if siteEmpty x me cl k then
    sendOrHold (markSent s d.cell k 3) x k 3 [mkRec s x c 1 3 8 me dst k d.l3T 0 0 []]
  else
    let (s, ch) := formShard (markSent s d.cell k 3) x c k 2 d.l3T
    sendOrHold s x k 3 (shardRecs s x c 1 3 0 me dst k d.l3T ch)

/-! ## Final values (R159, R160) -/

/-- R159: the ranks that consume a shard. -/
def consumes (x : Placed) (k r : Nat) : Bool :=
  let d := x.desc
  if d.coll = 2 then r == d.root
  else if d.coll = 3 then
    let per := elemsOf d x.inst / d.n
    decide (r * per < d.shardHi x.inst k ∧ d.shardLo x.inst k < (r + 1) * per)
  else true

/-- R125, R159: whether a rank that consumes a shard stands at a gateway that meets `f`. A plan gives the ranks of its own gateway
alone; where another rank stands is free (entry 26). Every member of an ALL_REDUCE or ALL_GATHER consumes every shard. -/
def consumerAt (x : Placed) (k : Nat) (f : Nat → Bool) : Bool :=
  x.desc.coll = 1 || x.desc.coll = 4 ||
  (List.range x.desc.n).any (fun r => consumes x k r && !x.desc.ranks.contains r && f (Config.rankGw x.desc.ciid r))

/-- R159: whether another gateway of the holder's site is owed a shard: one with a member there that consumes it. -/
def owedGw (x : Placed) (cl : Cell) (k g : Nat) : Bool := !partialEmpty cl 2 g k && consumerAt x k (· == g)

/-- R160: whether another site has a gateway that is owed a shard, as the owner knows its holder g. -/
def owedSite (x : Placed) (cl : Cell) (k g : Nat) : Bool := !partialEmpty cl 3 g k && consumerAt x k (fun a => a / 64 == g / 64)

/-- R150: the LEVEL of finals and marks. -/
def finLevel (d : Desc) : Nat := if d.m > 1 then 3 else 2

/-- R160: the records by which a gateway passes a shard's final value to the gateways below it: FINAL, or one MARK to those
owed nothing. -/
def distribute (s : State) (x : Placed) (c : BitVec 64) (k flags src level : Nat) (t : Nat) (chunks : List Bytes)
    (owed notOwed : List Nat) : State :=
  let fin := owed.flatMap fun g => (List.range chunks.length).map fun i =>
    mkRec s x c 2 level flags src g k t i chunks.length (chunks.getD i [])
  let mk := notOwed.map fun g => mkRec s x c 3 level flags src g k t 0 0 []
  sendAll s x (fin ++ mk)

/-- A final value stored at this gateway with its VALUE_CHECKs. -/
def storeFinal (s : State) (cell k src : Nat) (chunks : List Bytes) : State :=
  let cl := cellOf s cell
  let m : PMap Nat (Bytes × Nat) := (List.range chunks.length).map fun i =>
    (i, (chunks.getD i [], crc64 (chunks.getD i [])))
  setCell s cell { cl with finals := mset cl.finals k ⟨false, chunks.length, src, m⟩ }

/-- R157, R160: the owner forms the final value of a shard once and distributes it. -/
def formFinal (s : State) (x : Placed) (c : BitVec 64) (k : Nat) : State :=
  let me := gw s
  let cl := cellOf s x.desc.cell
  let d := x.desc
  let (s, ch) := formShard (markSent s d.cell k 4) x c k 3 d.outT
  let here := x.siteMates me
  let far := x.farHolders me k
  distribute (storeFinal s d.cell k me ch) x c k 0 me (finLevel d) d.outT ch
    (here.filter (owedGw x cl k) ++ far.filter (owedSite x cl k))
    (here.filter (fun g => !owedGw x cl k g) ++ far.filter (fun g => !owedSite x cl k g))

/-! ## Projection (R162 to R165) -/

def Proj.new : Proj := ⟨0, [], [], [], [], []⟩
def projOf (cl : Cell) : Proj := cl.proj.getD Proj.new
def setProj (s : State) (cell : Nat) (p : Proj) : State :=
  let cl := cellOf s cell
  setCell s cell { cl with proj := some p }

/-- The number, EF_TYPE and pond address of the matrix of a projected instance. -/
def Placed.matrix (x : Placed) : Nat := match x.inst with | some i => i.matrix | none => 0
def Placed.efType (x : Placed) : Nat := match x.inst with | some i => i.efType | none => 1
def Placed.stAddr (x : Placed) : Nat := match x.inst with | some i => i.addr | none => 0

/-- Where the projection state of a matrix stands. -/
def pState (s : State) (x : Placed) : PState := mget s.coll.psts (x.plan.job, x.matrix) ⟨none, none⟩

def setPState (s : State) (x : Placed) (p : PState) : State :=
  { s with coll := { s.coll with psts := mset s.coll.psts (x.plan.job, x.matrix) p } }

/-- R163: the pond bytes of e_s and of a copy of the state, each padded to 64 bytes, e_s first (DESIGN CHOICE, entry 95). -/
def efSpan (x : Placed) : Nat := pitch (encSize x.efType (x.rows * x.cols))
def stateSpan (x : Placed) : Nat := efSpan x + pitch (4 * x.cols * x.desc.proj)

/-- R163: e_s in FP32 and q; zero and the starting basis where no state exists. -/
def stateNow (s : State) (x : Placed) : List Nat × List Nat :=
  let n := x.rows * x.cols
  match (pState s x).cur with
  | some a => ((decodeElems false x.efType n (memBytes s.mem a (encSize x.efType n))).1,
               memF32 s.mem (a + efSpan x) (x.cols * x.desc.proj))
  | none => (List.replicate n 0, (basis false x.plan.job x.matrix x.cols x.desc.proj).1)

/-- R163: the new e_s (or the old bytes where the step leaves it) and q written beside the copy in force. -/
def writeState (s : State) (x : Placed) (step : Nat) (ef : Option Bytes) (qn : List Nat) : State :=
  let p := pState s x
  let a := if p.cur = some x.stAddr then x.stAddr + stateSpan x else x.stAddr
  let n := encSize x.efType (x.rows * x.cols)
  let old := match p.cur with
    | some b => memBytes s.mem b n
    | none => List.replicate n 0
  setPState (storeMem (storeMem s a (ef.getD old)) (a + efSpan x) (fp32Bytes qn)) x
    { p with next := some (step, a) }

/-- R164: a factor partial: added to the owner's sum, or sent to the owner in L3_TYPE. -/
def giveFactor (s : State) (x : Placed) (c : BitVec 64) (q : Bool) (src : XSrc) (vs : List Nat) : State :=
  let me := gw s
  let d := x.desc
  let flags := if q then 6 else 2
  if x.owns me 0 then
    let p := projOf (cellOf s d.cell)
    let a := addElems 1 false (if q then p.vAcc else p.pAcc) 0 vs
    landCell (setProj s d.cell (if q then { p with vAcc := a.1 } else { p with pAcc := a.1 })) d.cell a.2 c d.outT
  else
    let (s, ch) := formChunks s x c 2 0 src ⟨d.strict, d.round, d.seed, 2, me, 0, d.l3T, none⟩ vs
    sendOrHold s x 0 3 (shardRecs s x c 1 3 flags me (d.owner me x.inst 0) 0 d.l3T ch)

/-- R164: a factor in its final form: rounded to BF16 once, by the owner, and sent to every other holder; the factor as every holder
decodes it. -/
def sendFactorFinal (s : State) (x : Placed) (c : BitVec 64) (flags : Nat) (src : XSrc) (vs : List Nat) : State × List Nat :=
  let me := gw s
  let (s, ch) := formChunks s x c 3 0 src ⟨false, 0, 0, 0, me, 0, 0x02, none⟩ vs
  (distribute s x c 0 flags me (finLevel x.desc) 0x02 ch (x.farHolders me 0) [],
   (decodeElems false 0x02 vs.length (ch.flatMap id)).1)

/-- FP32 of a count. -/
def fp32Of (n : Nat) : Nat := (round32 true false ⟨false, n, 0⟩).1

/-- R164: the result at a holder, from the factors: the new error feedback and basis, the result encoded under the owner's
number, and its distribution at the site. At a site without a member, which fed nothing into the factors, e_s stays as it is
(DESIGN CHOICE, entry 98). -/
def projResult (s : State) (x : Placed) (c : BitVec 64) (p : Proj) : State :=
  let me := gw s
  let d := x.desc
  let cl := cellOf s d.cell
  let a := expand x.rows x.cols d.proj p.ph p.qn
  let dm := gather (a.1.map (fun v => fpDiv false v (fp32Of d.m)))
  let e := gather ((List.range p.m.length).map (fun i => fpSub false (p.m.getD i 0) (dm.1.getD i 0)))
  let ef := encodeElems false 0 ⟨0, 0, 0, 0, 0⟩ x.efType e.1
  let bare := siteEmpty x me cl 0
  let s := writeState s x (ciidStep c) (if bare then none else some ef.1) p.qn
  let s := landCell (markSent s d.cell 0 4) d.cell (if bare then a.2 else ((a.2.add dm.2).add e.2).add ef.2) c d.outT
  let (s, ch) := formChunks s x c 3 0 (.expand x.rows x.cols d.proj p.ph p.qn)
    ⟨d.strict, d.round, d.seed, 3, d.owner me x.inst 0, 0, d.outT, if d.redOp = 2 then some d.n else none⟩ a.1
  let here := x.siteMates me
  distribute (storeFinal s d.cell 0 me ch) x c 0 0 me (finLevel d) d.outT ch (here.filter (owedGw x cl 0))
    (here.filter (fun g => !owedGw x cl 0 g))

/-- R148, R164: the first stage at a holder: m_s and its factor partial; one EMPTY record, or nothing at the owner, for a site
without a member. -/
def projFirst (s : State) (x : Placed) (c : BitVec 64) : State :=
  let me := gw s
  let d := x.desc
  let cl := cellOf s d.cell
  let p := projOf cl
  if siteEmpty x me cl 0 then
    let s := setProj s d.cell { p with stage := 1 }
    if x.owns me 0 then s else sendOrHold s x 0 3 [mkRec s x c 1 3 8 me (d.owner me x.inst 0) 0 d.l3T 0 0 []]
  else
    let st := stateNow s x
    let g := accVals cl.acc 0 (x.rows * x.cols)
    let m := gather ((List.range g.length).map (fun i => fpAdd false (g.getD i 0) (st.1.getD i 0)))
    let f := matmul false x.rows x.cols d.proj m.1 st.2
    let s := landCell s d.cell (m.2.add f.2) c d.l3T
    giveFactor (setProj s d.cell { p with stage := 1, m := m.1 }) x c false (.prod x.rows x.cols d.proj m.1 st.2) f.1

/-- R164: the second stage: the orthonormal factor, formed by the owner, and the holder's partial of the other one. -/
def projSecond (s : State) (x : Placed) (c : BitVec 64) : State :=
  let me := gw s
  let d := x.desc
  let p := projOf (cellOf s d.cell)
  let (s, ph) := if x.owns me 0 then
      let sum := accVals p.pAcc 0 (x.rows * d.proj)
      let o := ortho false x.rows d.proj sum
      let s := landCell s d.cell o.2.2 c 0x02
      let s := o.2.1.foldl (fun s _ => raiseCell s d.cell 0x0803 0 c) s
      sendFactorFinal s x c 2 (.ortho x.rows d.proj sum) o.1
    else (s, p.ph)
  let s := setProj s d.cell { projOf (cellOf s d.cell) with stage := 2, ph := ph }
  if siteEmpty x me (cellOf s d.cell) 0 then s
  else
    let mt := transpose x.rows x.cols p.m
    let v := matmul false x.cols x.rows d.proj mt ph
    giveFactor (landCell s d.cell v.2 c d.l3T) x c true (.prod x.cols x.rows d.proj mt ph) v.1

/-- R164: the third stage: the new basis, formed by the owner, and the result. -/
def projThird (s : State) (x : Placed) (c : BitVec 64) : State :=
  let d := x.desc
  let p := projOf (cellOf s d.cell)
  let (s, qn) := if x.owns (gw s) 0 then
      let sum := accVals p.vAcc 0 (x.cols * d.proj)
      sendFactorFinal s x c 6 (.adds 1 false [(0x01, 0, sum)]) sum
    else (s, p.qn)
  let p := { projOf (cellOf s d.cell) with stage := 3, qn := qn }
  projResult (setProj s d.cell p) x c p

/-- R164: one stage of a projected instance at a holder, if it can be taken. -/
def projStage (s : State) (x : Placed) (c : BitVec 64) : State :=
  let me := gw s
  let cl := cellOf s x.desc.cell
  let p := projOf cl
  let own := x.owns me 0
  match p.stage with
  | 0 => if lvl2Done x me cl 0 then projFirst s x c else s
  | 1 => if (if own then lvl3Done x me cl 0 2 else !p.ph.isEmpty) then projSecond s x c else s
  | 2 => if (if own then lvl3Done x me cl 0 6 else !p.qn.isEmpty) then projThird s x c else s
  | _ => s

/-! ## Progress of a cell -/

/-- R161: whether a FINAL or MARK of a shard is complete here. -/
def finDone (cl : Cell) (k : Nat) : Bool :=
  match mget? cl.finals k with
  | some f => f.mark || (f.count > 0 && f.chunks.length ≥ f.count)
  | none => false

def sentAt (cl : Cell) (k level : Nat) : Bool := cl.sent.contains (k, level)

/-- The sends of one shard that have become possible: level 2, level 3, the final value. -/
def progressShard (x : Placed) (c : BitVec 64) (s : State) (k : Nat) : State :=
  let me := gw s
  let cl := cellOf s x.desc.cell
  if !x.holds me k then
    if lvl1Done x cl && !sentAt cl k 2 then sendLevel2 s x c k else s
  else if x.desc.proj > 0 then projStage (projStage (projStage s x c) x c) x c
  else if !lvl2Done x me cl k then s
  else if !x.owns me k then (if sentAt cl k 3 then s else sendLevel3 s x c k)
  else if lvl3Done x me cl k 0 && !sentAt cl k 4 then formFinal s x c k
  else s

/-- R166: whether every value that the accumulators form is encoded. -/
def allEncoded (x : Placed) (me : Nat) (cl : Cell) : Bool :=
  x.shardList.all fun k =>
    sentAt cl k (if !x.holds me k then 2 else if x.desc.proj > 0 || x.owns me k then 4 else 3)

/-- The bytes that a cell still retains: records without their RACK, and the result. -/
def retained (x : Placed) (cl : Cell) : Nat :=
  let sent := cl.kept.foldl (fun n k => n + k.rcd.payload.length) 0
  sent + (if x.shardList.all (finDone cl) then
      cl.finals.foldl (fun n e => e.2.chunks.foldl (fun n ch => n + ch.2.1.length) n) 0
    else encSize x.desc.outT (x.desc.eRed x.inst))

/-- R166: once the values are encoded the trays of the accumulators are free, and of the pond trays those that what is still retained
does not fill (DESIGN CHOICE, entry 97). -/
def trimTrays (s : State) (x : Placed) : State :=
  let cl := cellOf s x.desc.cell
  if !allEncoded x (gw s) cl then s
  else
    let ponds := cl.trays.filter (fun t => !isSram t)
    let stay := ponds.take (cdiv (retained x cl) 65536)
    releaseTrays (setCell s x.desc.cell { cl with trays := stay }) (cl.trays.filter (fun t => !stay.contains t))

/-- R124 to R126: what follows from the inputs taken so far: sends, GATHERING, the timer's stop, COMPLETE. -/
def progress (s : State) (x : Placed) (c : BitVec 64) : State :=
  let cell := x.desc.cell
  let s := x.shardList.foldl (progressShard x c) s
  let cl := cellOf s cell
  let cl := if cl.st = .armed && senders cl ≥ 2 then { cl with st := .gathering } else cl
  let done := inputsDone x (gw s) cl
  let cl := { cl with stopped := cl.stopped || done }
  let cl := if (cl.st = .armed || cl.st = .gathering) && done && x.shardList.all (finDone cl) then
      { cl with st := .complete } else cl
  trimTrays (setCell s cell cl) x

end Sys2Proof.Machine
end

