-- ==== Sys2Proof/Machine/Reduce.lean ====
section
/-! DEFINITION. Machine/Reduce.lean: contributions (R95, R96, R64), result delivery, acknowledgement and resend (R97 to R99,
R167), reduction records received (R152 to R161), harvest (R168), decisions (R131, R499). -/
namespace Sys2Proof.Machine
open Sys2Proof

/-! ## Completions to members -/

/-- R97, R131: a COMPLETE of an instance to a member under a status, with its chunk count. -/
def memberComplete (s : State) (x : Placed) (c : BitVec 64) (rank : Nat) (dst : Origin × BitVec 8) (status count : Nat) :
    State :=
  sendTo s dst.1 (if x.desc.fast then .fast else .bulk)
    { Header.zero with opcode := 0x80, stream := dst.2, ciid := c, member := BitVec.ofNat 16 rank,
                       chunkCount := BitVec.ofNat 32 count, status := BitVec.ofNat 16 status } []

/-- The flights of a member's contributions to an instance. -/
def flightOf (c : BitVec 64) (rank : Nat) (f : Flight) : Bool := f.op == 1 && f.ciid == c && f.member.toNat == rank

/-- R97: how many result chunks a rank is owed, with the place of its bytes in the result. -/
def owedSpan (x : Placed) (rank : Nat) : Option (Nat × Nat) :=
  let d := x.desc
  if d.coll = 2 then (if rank = d.root then some (0, d.outBytes) else none)
  else if d.coll = 3 then some (byteOff d.outT (rank * (elemsOf d x.inst / d.n)), d.outBytes)
  else some (0, d.outBytes)

def owedChunks (x : Placed) (rank : Nat) : Nat :=
  match owedSpan x rank with
  | some sp => cdiv sp.2 x.desc.outChunk
  | none => 0

/-- The bytes of a shard's final value as this gateway holds them. -/
def finBytes (cl : Cell) (k : Nat) : Bytes :=
  match mget? cl.finals k with
  | some f => (List.range f.count).flatMap (fun i => (mget f.chunks i ([], 0)).1)
  | none => []

/-- R161: n bytes of the result from an offset on, assembled from the shards held. -/
def resultBytes (x : Placed) (cl : Cell) (lo n : Nat) : Bytes :=
  x.shardList.flatMap fun k =>
    let b := finBytes cl k
    let o := byteOff x.desc.outT (x.desc.shardLo x.inst k)
    let a := max lo o
    let e := min (lo + n) (o + b.length)
    if a < e then slice b (a - o) (e - a) else []

/-- R167: whether every retained record chunk that a byte range of the result touches still meets its VALUE_CHECK. -/
def rangeIntact (x : Placed) (cl : Cell) (lo n : Nat) : Bool :=
  x.shardList.all fun k =>
    match mget? cl.finals k with
    | none => true
    | some f =>
      let o := byteOff x.desc.outT (x.desc.shardLo x.inst k)
      let cs := recChunk x.desc.outT
      f.chunks.all fun e =>
        o + e.1 * cs + e.2.1.length ≤ lo || lo + n ≤ o + e.1 * cs || crc64 e.2.1 == e.2.2

/-- R97: one result chunk sent to a consumer. -/
def sendResult (s : State) (x : Placed) (c : BitVec 64) (rank : Nat) (dst : Origin × BitVec 8) (count : Nat)
    (o : OwedChunk) (resent : Bool) : State :=
  sendTo s dst.1 (if x.desc.fast then .fast else .bulk)
    { Header.zero with opcode := 0x81, stream := dst.2, ciid := c, member := BitVec.ofNat 16 rank,
                       flags := (if resent then 2 else 0) + (if o.poison.isSome then 1 else 0),
                       chunkIndex := BitVec.ofNat 32 o.idx, chunkCount := BitVec.ofNat 32 count,
                       elemType := BitVec.ofNat 8 x.desc.outT, status := BitVec.ofNat 16 (o.poison.getD 0) } o.bytes

/-- R97: delivery to one member: every chunk it is owed, then its COMPLETE. -/
def deliverTo (x : Placed) (c : BitVec 64) (s : State) (rank : Nat) : State :=
  let cell := x.desc.cell
  let cl := cellOf s cell
  if cl.answered.contains rank then s else
  match mget? cl.bound rank with
  | none => s
  | some dst =>
    let n := owedChunks x rank
    let lo := (owedSpan x rank).getD (0, 0)
    let os : List OwedChunk := (List.range n).map fun i =>
      let a := i * x.desc.outChunk
      ⟨i, resultBytes x cl (lo.1 + a) (min x.desc.outChunk (lo.2 - a)), none, true, 1, s.sf, false, false⟩
    let s := os.foldl (fun s o => sendResult s x c rank dst n o false) s
    let s := memberComplete s x c rank dst 0 n
    let s := markDone s (flightOf c rank) 0
    let cl := cellOf s cell
    setCell s cell { cl with deliv := mset cl.deliv rank os, answered := cl.answered ++ [rank] }

/-! ## Harvest (R168) -/

/-- R126, R168: whether nothing is owed any more: every consumer has acknowledged, every record is acknowledged, no
cross-check is outstanding. -/
def owesNothing (s : State) (x : Placed) (c : BitVec 64) : Bool :=
  let cl := cellOf s x.desc.cell
  cl.st == .complete && cl.ciid == c && x.desc.ranks.all (fun r => cl.answered.contains r) &&
  cl.deliv.all (fun e => e.2.all (fun o => o.acked)) && cl.kept.all (fun k => k.acked) &&
  s.coll.xchks.all (fun k => k.ciid != c)

/-- R168: the re-check starts once nothing is owed. -/
def tryHarvest (s : State) (x : Placed) (c : BitVec 64) : State :=
  let cl := cellOf s x.desc.cell
  if owesNothing s x c && !cl.recheck then setCell s x.desc.cell { cl with recheck := true } else s

/-- R79, R295: HARVEST to the master once every instance of a step is harvested here. -/
def reportHarvest (s : State) (x : Placed) (c : BitVec 64) : State :=
  if x.step.descs.all (fun d => (instRec s (d.full (ciidReplay c))).harvested) then
    sendMaster s (.ctl (mkCtl s 3 0 (mkCiid (ciidJob c) (ciidStep c) 0 (ciidReplay c)) 0 0 0))
  else s

/-- R243: the matrix whose pseudo-gradient an instance reduces, where this gateway is its home. -/
def homeMatrix (s : State) (x : Placed) : Option Matrix :=
  match x.inst with
  | none => none
  | some i => (matrixOf s x.plan.job i.matrix).filter (fun m => m.home == gw s)

/-- R243: at the home, the result of a pseudo-gradient instance stands in the pseudo-gradient area once COMPLETE. -/
def storePseudo (s : State) (x : Placed) : State :=
  let cl := cellOf s x.desc.cell
  if cl.st ≠ .complete then s else
  match homeMatrix s x with
  | none => s
  | some m => storeMem s m.hD (resultBytes x cl 0 (encSize m.dType (m.rows * m.cols)))

/-- R168: whether every retained chunk of the cell meets its VALUE_CHECK. -/
def retainedIntact (s : State) (x : Placed) (cl : Cell) : Bool :=
  cl.finals.all (fun e => e.2.chunks.all (fun k => crc64 k.2.1 == k.2.2)) &&
  cl.kept.all (fun k => k.rcd.payload.isEmpty || crc64 k.rcd.payload == k.rcd.hdr.valueCheck.toNat) &&
  (match homeMatrix s x with
   | some m =>
     let n := encSize m.dType (m.rows * m.cols)
     memBytes s.mem m.hD n == resultBytes x cl 0 n
   | none => true)

/-- R126: the outcome of the re-check: HARVESTED with its trays returned, or TAINTED with cause 1. -/
def harvestCell (s : State) (x : Placed) (c : BitVec 64) : State :=
  let cell := x.desc.cell
  let cl := cellOf s cell
  if !retainedIntact s x cl then taint s cell c 1 0 (cellTile cell).val
  else
    let s := freeCellTrays s cell
    let cl := cellOf s cell
    let s := setCell s cell
      { cl with st := .harvested, harvSf := s.sf, recheck := false, acc := [], raw := [], ins := [], finals := [], kept := [],
                deliv := [], ready := [], proj := none }
    let s := setInst s c { instRec s c with harvested := true }
    let s := if isFastCell cell then count s (.ffe (cellQuad cell)) 0 1 else s
    reportHarvest s x c

/-! ## Contributions -/

/-- R123, R82: an input copied into a tray charged to a requester, in order of arrival. -/
def holdInput (s : State) (cell : Nat) (c : BitVec 64) (i : Input) (req : Nat) : Option State :=
  match allocPond s req (cellQuad cell) with
  | none => none
  | some (s, t) => 
    some (trayMoved { s with coll := { s.coll with held := s.coll.held.concat ⟨cell, c, i, some t, false⟩ } } t i.bytes)

/-- R138, R166: an input that waits under back-pressure. -/
def holdUpstream (s : State) (cell : Nat) (c : BitVec 64) (i : Input) : State :=
  { s with coll := { s.coll with held := s.coll.held.concat ⟨cell, c, i, none, true⟩ } }

/-- R138, R166: the input that would arm a cell waits under back-pressure, which for want of a tray is counted as back-starved at the
cell's tile. -/
def armWait (s : State) (x : Placed) (c : BitVec 64) (i : Input) : State :=
  let s := if isFastCell x.desc.cell then s else charge s (cellTile x.desc.cell) 0 0 0 4 0
  holdUpstream s x.desc.cell c i

/-- R123: CELL_HELD, once per instance. -/
def noteHeld (s : State) (cell : Nat) (c : BitVec 64) : State :=
  let r := instRec s c
  if r.heldSeen then s else raiseCell (setInst s c { r with heldSeen := true }) cell 0x0501 (cell % 16384) c

/-- R96: a rank bound to a source and stream where it is not yet. -/
def bindRank (cl : Cell) (rank : Nat) (dst : Origin × BitVec 8) : Cell :=
  if (mget? cl.bound rank).isSome then cl else { cl with bound := mset cl.bound rank dst }

/-- R95, R129: the cause of a descriptor mismatch of a contribution, or 0. -/
def fieldCause (d : Desc) (h : Header) : Nat :=
  if h.arg1 ≠ d.digest then 1
  else if h.elemType.toNat ≠ d.inT || h.redOp.toNat ≠ d.redOp || h.cell.toNat ≠ d.cell then 2 else 0

/-- R114: the elements of one chunk of a member's MX groups placed in the groups of an ALL_GATHER result, bit for bit. `t` is the type,
`e` the elements of a member and n the members; the chunk begins with element `first` of member `rank`. The scale of a result group
whose elements come from more than one group of the contributions is free (entry 27). -/
def gatherMx (c : Nat) (t e n rank first : Nat) (payload : Bytes) (raw : PMap Nat Byte) : PMap Nat Byte :=
  let gb := groupBytes t
  let cnt := min (payload.length / gb * 32) (e - first)
  let lo := rank * e + first
  (List.range (if cnt = 0 then 0 else (lo + cnt - 1) / 32 - lo / 32 + 1)).foldl (fun raw i =>
    let g := lo / 32 + i
    let from_ := fun (p : Nat) => slice payload ((32 * g + p - lo) / 32 * gb) gb
    let codes := (List.range 32).map fun p =>
      if lo ≤ 32 * g + p && 32 * g + p < lo + cnt then mxCode t (from_ p) ((32 * g + p - lo) % 32) else 0
    let src := fun (p : Nat) => ((32 * g + p) / e, (32 * g + p) % e / 32)
    let shared := (List.range (min 32 (n * e - 32 * g))).any (fun p => src p != src 0)
    let scale := if shared then (Config.gatherByte c (g * gb)).toNat else byteAt (from_ (lo - 32 * g)) 0
    addRaw raw (g * gb) (packGroup t scale codes)) raw

/-- R146: a contribution chunk added into the accumulators. -/
def addContrib (s : State) (x : Placed) (c : BitVec 64) (h : Header) (payload : Bytes) : State :=
  let d := x.desc
  let cell := d.cell
  let cl := cellOf s cell
  let rank := h.member.toNat
  let k := h.chunkIndex.toNat
  let cl := { cl with taken := cl.taken.concat ⟨rank, k, crc64 payload⟩ }
  let per := d.inChunk / groupBytes d.inT * groupElems d.inT
  if d.coll = 4 then
    let raw := if isMx d.inT then gatherMx d.ciid d.inT (elemsOf d x.inst) d.n rank (k * per) payload cl.raw
      else addRaw cl.raw (rank * d.inBytes + k * d.inChunk) payload
    setCell s cell { cl with raw := raw }
  else
    let n := min per (elemsOf d x.inst - k * per)
    let vs := decodeElems d.strict d.inT n payload
    let r := addElems d.redOp d.strict cl.acc (k * per) vs.1
    landCell (setCell s cell { cl with acc := r.1, ins := cl.ins.concat (d.inT, k * per, vs.1) }) cell ((vs.2.add r.2).inBlk k) c d.outT

/-- R131, R499: the one failure COMPLETE of a member, if it has not had it. -/
def answerFailed (s : State) (x : Placed) (c : BitVec 64) (st : CellSt) (rank : Nat) (dst : Origin × BitVec 8) : State :=
  let r := instRec s c
  if r.answered.contains rank then s
  else
    let s := memberComplete s x c rank dst (errCode st) 0
    markDone (setInst s c { r with answered := r.answered ++ [rank] }) (flightOf c rank) (errCode st)

/-- The COMPLETE that a member already had, sent again (R99). -/
def repeatComplete (s : State) (x : Placed) (c : BitVec 64) (rank : Nat) : State :=
  let cl := cellOf s x.desc.cell
  if !cl.answered.contains rank then s else
  match mget? cl.bound rank with
  | some dst => memberComplete s x c rank dst 0 (owedChunks x rank)
  | none => s

/-- R95, R96, R64, R128: a contribution chunk whose cell is armed for its instance. -/
def contribArmed (s : State) (x : Placed) (k : Ctx) : State × Disp :=
  let h := k.h
  let c := h.ciid
  let cell := x.desc.cell
  let cl := cellOf s cell
  let rank := h.member.toNat
  let dst : Origin × BitVec 8 := (k.org, h.stream)
  let fail := fun (cause : Nat) =>
    let s := setCell s cell (bindRank cl rank dst)
    (mismatch s x c cause rank, Disp.taken)
  let cause := fieldCause x.desc h
  let other := match mget? cl.bound rank with | some b => b != dst | none => false
  if cause ≠ 0 then fail cause
  else if other then fail 4
  else match cl.taken.find? (fun t => t.member == rank && t.chunk == h.chunkIndex.toNat) with
    | some t =>
      if t.check = crc64 k.pkt.payload then
        let s := raiseCell s cell 0x0101 0 c
        (repeatComplete (sendComplete s k.org h 0x0101 []) x c rank, .done 0x0101)
      else fail 3
    | none =>
      let s := setCell s cell (bindRank cl rank dst)
      let s := addContrib s x c h k.pkt.payload
      (tryHarvest (storePseudo (progress s x c) x) x c, .taken)

/-- R95, R122, R128: a contribution of the attempt that runs. -/
def contribNow (s : State) (x : Placed) (k : Ctx) : State × Disp :=
  let h := k.h
  let c := h.ciid
  let d := x.desc
  let cell := d.cell
  let cl := cellOf s cell
  let rank := h.member.toNat
  let idx := h.chunkIndex.toNat
  let dst : Origin × BitVec 8 := (k.org, h.stream)
  let r := instRec s c
  let holds := cl.st ≠ .free && cl.ciid = c
  if !holds && r.harvested && r.decided.isNone then (s, .refuse 0x220D)
  else if rank ≥ d.n then (s, .refuse 0x2206)
  else if !d.ranks.contains rank then (raiseCell s cell 0x2501 0 c, .refuse 0x2501)
  else if holds && isErr cl.st || !holds && r.decided.isSome then
    let s := if holds then setCell s cell (bindRank cl rank dst) else s
    match r.decided with
    | some st => (answerFailed s x c st rank dst, .done (errCode st))
    | none => (s, .taken)
  else if h.chunkCount.toNat ≠ d.inChunks || idx ≥ d.inChunks then (s, .refuse 0x2207)
  else if h.payloadLen.toNat ≠ min d.inChunk (d.inBytes - idx * d.inChunk) then (s, .refuse 0x2204)
  else if holds then contribArmed s x k
  else if cl.st ≠ .free then
    match holdInput s cell c (.contrib k.seq k.org k.via k.pkt) (reqOf s k.org) with
    | some s => (noteHeld s cell c, .held)
    | none => (count s .tpool 0 1, .refuse 0x2301)
  else
    let cause := fieldCause d h
    if cause ≠ 0 then
      let s := setCell s cell (bindRank { Cell.free with ciid := c, digest := d.digest, st := .armed } rank dst)
      (mismatch s x c cause rank, .taken)
    else match arm s x c with
      | some s => contribArmed s x k
      | none => (armWait s x c (.contrib k.seq k.org k.via k.pkt), .waits)

/-- R81, R82, R95: a contribution that has passed the checks of R91. -/
def contribCore (k : Ctx) (s : State) : State × Disp :=
  let c := k.h.ciid
  match attempt s c, findInst s c with
  | .stale, _ => (raiseFor s (inputPage s c (viaPage k.via)) 0x2103 0 c, .refuse 0x2103)
  | _, none => (s, .refuse 0x220D)
  | .later, some x =>
    (match holdInput s x.desc.cell c (.contrib k.seq k.org k.via k.pkt) (reqOf s k.org) with
     | some s => (s, .held)
     | none => (count s .tpool 0 1, .refuse 0x2301))
  | .now, some x => contribNow s x k

/-- The outcome of an input that was held: its credits are released already. -/
def settleHeld (k : Ctx) (r : State × Disp) : State :=
  let me := fun (x : Flight) => x.seq == k.seq
  match r.2 with
  | .taken => updFlight r.1 me (fun x => { x with accepted := true })
  | .done st => pruneFlights (markDone r.1 me st)
  | .refuse code => pruneFlights (markDone (refuseBare r.1 k code) me code)
  | _ => r.1

/-! ## Acknowledgements of records (R153) -/

/-- R151: a RACK or RRESEND to the hop that a record came from. -/
def mkAnswer (s : State) (kind : Nat) (r : Record) : Record :=
  let h := r.hdr
  let empty := h.payloadLen = 0
  sealRec { hdr := { h with kind := BitVec.ofNat 8 kind, flags := h.flags &&& 6, srcGw := BitVec.ofNat 16 (gw s),
                            dstGw := h.hopGw, elemType := 0, subject := h.kind,
                            chunkIndex := if empty then 0 else h.chunkIndex, chunkCount := 1, payloadLen := 0,
                            hopGw := BitVec.ofNat 16 (gw s), valueCheck := 0, check := 0 }, payload := [] }

/-- R153: a RACK gathered at the cell until its gathering time ends. -/
def rack (s : State) (x : Placed) (r : Record) : State :=
  let cl := cellOf s x.desc.cell
  setCell s x.desc.cell { cl with racks := cl.racks ++ [mkAnswer s 4 r] }

def sameRun (a b : RecHdr) : Bool :=
  a.dstGw == b.dstGw && a.ciid == b.ciid && a.level == b.level && a.flags == b.flags && a.shard == b.shard &&
  a.subject == b.subject && a.chunkIndex.toNat + a.chunkCount.toNat == b.chunkIndex.toNat

/-- R153: gathered RACKs joined where they name contiguous chunks. -/
def joinRacks : List Record → List Record
  | [] => []
  | r :: l =>
    match joinRacks l with
    | [] => [r]
    | q :: m =>
      if sameRun r.hdr q.hdr && r.hdr.chunkCount.toNat + q.hdr.chunkCount.toNat ≤ 65536 then
        sealRec { r with hdr := { r.hdr with chunkCount := r.hdr.chunkCount + q.hdr.chunkCount } } :: m
      else r :: q :: m

def flushRacks (s : State) (x : Placed) : State :=
  let cl := cellOf s x.desc.cell
  (joinRacks cl.racks).foldl (fun s r => emitRec s x r) (setCell s x.desc.cell { cl with racks := [] })

/-! ## Records received (R152) -/

/-- R152 order 2: RVER, KIND, the length or a reserved field is invalid; so are the SUBJECT and the range of an answer (R150). -/
def recMalformed (r : Record) : Bool :=
  let h := r.hdr
  let k := h.kind.toNat
  h.rver != 1 || k == 0 || k > 5 || h.flags.toNat / 32 != 0 || h.rsvd1 != 0 || h.rsvd2 != 0 ||
  h.payloadLen.toNat != r.payload.length || h.payloadLen.toNat > 8192 ||
  (k ≤ 3 && h.subject != 0) || (k == 4 && !(h.subject.toNat ∈ [1, 2, 3])) || (k == 5 && !(h.subject.toNat ∈ [1, 2])) ||
  (k ≥ 4 && (h.chunkCount == 0 || h.chunkCount.toNat > 65536))

/-- R152 order 4: whether the plan routes a record's shard, level and sender to this gateway. -/
def recRouted (x : Placed) (me : Nat) (r : Record) : Bool :=
  let h := r.hdr
  let d := x.desc
  let k := h.shard.toNat
  let src := h.srcGw.toNat
  let pj := bit h.flags.toNat 1
  h.dstGw.toNat == me &&
  (match h.kind.toNat with
   | 1 =>
     if k ≥ d.shards x.inst || !(h.level == 2 || h.level == 3) then false
     else if h.level = 2 then x.holds me k && (x.siteMates me).contains src && !pj
     else x.owns me k && (x.farHolders me k).contains src &&
       (pj == (d.proj > 0 && !bit h.flags.toNat 3))
   | 2 | 3 =>
     k < d.shards x.inst && h.level.toNat == finLevel d &&
     (if pj then d.proj > 0 && x.holds me 0 && src == d.owner me x.inst 0 && src != me && h.kind == 2
      else if d.proj > 0 then !x.holds me 0 && src == d.holder me x.inst 0 (me / 64)
      else src != me && src == d.owner me x.inst k)
   | _ => k < d.shards x.inst && (h.level == 2 || h.level == 3) && src != me && (d.gws me).contains src)

/-- R152 order 6, R176: whether a record's type, chunk fields and length differ from what its instance gives: no code outside the table
of types, no payload in an answer, EMPTY in a PARTIAL alone. -/
def recShapeBad (x : Placed) (r : Record) : Bool :=
  let h := r.hdr
  if !(typeOk h.elemType.toNat || h.elemType == 0) || (bit h.flags.toNat 3 && h.kind != 1) then true
  else if h.kind.toNat ≥ 4 then h.payloadLen != 0
  else
    let sh := x.recShape h.kind.toNat h.level.toNat h.flags.toNat h.shard.toNat
    if h.kind = 3 || bit h.flags.toNat 3 then
      h.chunkCount != 0 || h.chunkIndex != 0 || h.payloadLen != 0
    else
      let total := encSize sh.1 sh.2
      let cs := recChunk sh.1
      h.elemType.toNat != sh.1 || h.chunkCount.toNat != recChunks sh.1 sh.2 || h.chunkIndex.toNat ≥ h.chunkCount.toNat ||
      h.payloadLen.toNat != min cs (total - h.chunkIndex.toNat * cs)

def recKey (r : Record) : RecTaken :=
  let h := r.hdr
  ⟨h.kind.toNat, h.level.toNat, h.srcGw.toNat, h.shard.toNat, h.chunkIndex.toNat, h.flags.toNat / 2 * 2,
   h.valueCheck.toNat⟩

def sameChunk (a b : RecTaken) : Bool :=
  a.kind == b.kind && a.level == b.level && a.src == b.src && a.shard == b.shard && a.chunk == b.chunk &&
  a.flags == b.flags

/-- R160: a record relayed by a holder to one gateway of its site. -/
def relayTo (s : State) (x : Placed) (r : Record) (g : Nat) : State :=
  sendKept s x (sealRec { r with hdr := { r.hdr with dstGw := BitVec.ofNat 16 g, hopGw := BitVec.ofNat 16 (gw s),
                                                     flags := (r.hdr.flags &&& 0xFE) ||| 16 } })

/-- R160: a holder at another site than the owner's relays a FINAL to the gateways owed it and MARKs to the rest, and a
MARK to all. -/
def relay (s : State) (x : Placed) (r : Record) : State :=
  let me := gw s
  let k := r.hdr.shard.toNat
  if bit r.hdr.flags.toNat 1 || x.desc.proj > 0 || !x.holds me k || x.owns me k then s
  else
    let cl := cellOf s x.desc.cell
    let mates := x.siteMates me
    if r.hdr.kind = 3 then mates.foldl (fun s g => relayTo s x r g) s
    else
      let s := (mates.filter (owedGw x cl k)).foldl (fun s g => relayTo s x r g) s
      if r.hdr.chunkIndex = 0 then
        let mk := mkRec s x r.hdr.ciid 3 r.hdr.level.toNat 16 r.hdr.srcGw.toNat 0 k x.desc.outT 0 0 []
        (mates.filter (fun g => !owedGw x cl k g)).foldl (fun s g => relayTo s x mk g) s
      else s

/-- R152 order 10: a record taken into its cell. -/
def takeRecord (s : State) (x : Placed) (r : Record) : State :=
  let h := r.hdr
  let d := x.desc
  let cell := d.cell
  let cl := cellOf s cell
  let k := h.shard.toNat
  let fl := h.flags.toNat
  let i := h.chunkIndex.toNat
  let sh := x.recShape h.kind.toNat h.level.toNat fl k
  let key := recKey r
  let tag := (key.kind, key.src, k, i, key.flags)
  let s := if bit fl 0 && cl.asked.contains tag then raiseCell s cell 0x1601 0 h.ciid else s
  let cl := { cl with recs := cl.recs ++ [key], asked := cl.asked.filter (· != tag) }
  let cs := recChunk sh.1
  let per := cs / groupBytes sh.1 * groupElems sh.1
  let n := min per (sh.2 - i * per)
  if h.kind = 1 then
    if bit fl 3 then setCell s cell cl
    else if bit fl 1 then
      let vs := decodeElems d.strict sh.1 n r.payload
      let p := projOf cl
      let q := bit fl 2
      let a := addElems 1 false (if q then p.vAcc else p.pAcc) (i * per) vs.1
      let p := if q then { p with vAcc := a.1 } else { p with pAcc := a.1 }
      landCell (setCell s cell { cl with proj := some p }) cell ((vs.2.add a.2).inBlk i) h.ciid d.outT
    else if d.coll = 4 then
      setCell s cell { cl with raw := addRaw cl.raw (byteOff sh.1 (d.shardLo x.inst k) + i * cs) r.payload }
    else
      let vs := decodeElems d.strict sh.1 n r.payload
      let a := addElems d.redOp d.strict cl.acc (d.shardLo x.inst k + i * per) vs.1
      landCell (setCell s cell { cl with acc := a.1, ins := cl.ins.concat (sh.1, d.shardLo x.inst k + i * per, vs.1) }) cell
        ((vs.2.add a.2).inBlk i) h.ciid d.outT
  else
    let slot := if bit fl 1 then (if bit fl 2 then 65 else 64) else k
    let f0 : ShardFin := (mget? cl.finals slot).getD ⟨false, h.chunkCount.toNat, h.srcGw.toNat, []⟩
    let f := if h.kind = 3 then { f0 with mark := true } else
      { f0 with chunks := mset f0.chunks i (r.payload, h.valueCheck.toNat) }
    let cl := { cl with finals := mset cl.finals slot f }
    let full := f.chunks.length ≥ f.count
    let cl := if slot < 64 || !full then cl else
      let vs := (decodeElems false 0x02 sh.2 (finBytes cl slot)).1
      let p := projOf cl
      { cl with proj := some (if slot = 64 then { p with ph := vs } else { p with qn := vs }) }
    relay (setCell s cell cl) x r

/-- R153: the records of this cell that a RACK or RRESEND names. -/
def namedKept (r : Record) (k : Kept) : Bool :=
  let h := r.hdr
  let q := k.rcd.hdr
  q.kind == h.subject && q.level == h.level && q.shard == h.shard && q.dstGw == h.srcGw &&
  (q.flags &&& 6) == (h.flags &&& 6) && h.chunkIndex.toNat ≤ q.chunkIndex.toNat &&
  q.chunkIndex.toNat < h.chunkIndex.toNat + h.chunkCount.toNat

/-- R153, R166: RACK: a PARTIAL's copy is released; a final's stays until harvest. -/
def takeRack (s : State) (x : Placed) (r : Record) : State :=
  let cl := cellOf s x.desc.cell
  let kept := cl.kept.filterMap fun k =>
    if !namedKept r k then some k else if k.rcd.hdr.kind = 1 then none else some { k with acked := true }
  tryHarvest (trimTrays (setCell s x.desc.cell { cl with kept := kept }) x) x r.hdr.ciid

/-- R153, R154: one kept record sent again from its copy, or PEER_SILENT after the eighth sending, or TAINTED where the
copy fails its VALUE_CHECK. -/
def resendKept (s : State) (x : Placed) (k : Kept) : State :=
  let cell := x.desc.cell
  let upd := fun (s : State) (g : Kept → Kept) =>
    let cl := cellOf s cell
    setCell s cell { cl with kept := cl.kept.map (fun y => if y = k then g y else y) }
  let c := k.rcd.hdr.ciid
  if k.acked then s
  else if k.sends ≥ 8 then
    if k.silent then s else raiseCell (upd s (fun y => { y with silent := true })) cell 0x3601 0 c
  else if !k.rcd.payload.isEmpty && crc64 k.rcd.payload ≠ k.rcd.hdr.valueCheck.toNat then
    taint s cell c 1 0 (cellTile cell).val
  else
    let r := sealRec { k.rcd with hdr := { k.rcd.hdr with flags := k.rcd.hdr.flags ||| 1 } }
    emitRec (upd s (fun y => { y with sends := y.sends + 1, sf := s.sf })) x r

def takeRresend (s : State) (x : Placed) (r : Record) : State :=
  ((cellOf s x.desc.cell).kept.filter (namedKept r)).foldl (fun s k => resendKept s x k) s

/-- Whether a record's payload meets its VALUE_CHECK. -/
def recIntact (r : Record) : Bool := r.payload.isEmpty || crc64 r.payload == r.hdr.valueCheck.toNat

/-- R152 orders 6 to 10, for a record whose cell holds its instance. -/
def recordInCell (s : State) (x : Placed) (r : Record) : State :=
  let h := r.hdr
  let c := h.ciid
  let cell := x.desc.cell
  let cl := cellOf s cell
  if recShapeBad x r then raiseCell s cell 0x2601 0 c
  else if !recIntact r then
    let key := recKey r
    let s := setCell s cell { cl with asked := cl.asked ++ [(key.kind, key.src, key.shard, key.chunk, key.flags)] }
    emitRec s x (mkAnswer s 5 r)
  else if isErr cl.st then rack s x r
  else match cl.recs.find? (sameChunk (recKey r)) with
    | some k => if k.vcheck = h.valueCheck.toNat then rack s x r else taint s cell c 1 0 (cellTile cell).val
    | none => tryHarvest (storePseudo (progress (rack (takeRecord s x r) x r) x c) x) x c

/-- R152 orders 6 to 8, for a record of an instance that is harvested or has failed and left its cell. -/
def recordAfter (s : State) (x : Placed) (r : Record) : State :=
  if recShapeBad x r then raiseCell s x.desc.cell 0x2601 0 r.hdr.ciid
  else if !recIntact r then emitRec s x (mkAnswer s 5 r)
  else emitRec s x (mkAnswer s 4 r)

/-- R153: RACK and RRESEND: an answer has no effect once its cell is not in service for the instance. -/
def answerNow (s : State) (x : Placed) (r : Record) (live : Bool) : State :=
  if recShapeBad x r then raiseCell s x.desc.cell 0x2601 0 r.hdr.ciid
  else if !live then s
  else if r.hdr.kind = 4 then takeRack s x r else takeRresend s x r

/-- R152: a record of an attempt that runs, for an instance that the plan places here. A first record that passes the digest check arms
a FREE cell (R126) before the later checks look at it (DESIGN CHOICE, entry 94). -/
def recordNow (s : State) (via : RecVia) (x : Placed) (r : Record) : State :=
  let c := r.hdr.ciid
  let cell := x.desc.cell
  let cl := cellOf s cell
  let ir := instRec s c
  let holds := cl.st ≠ .free && cl.ciid = c
  let err := isErr cl.st
  let past := ir.harvested || ir.decided.isSome && !holds
  let answer := r.hdr.kind.toNat ≥ 4
  if !recRouted x (gw s) r then raiseCell s cell 0x2602 0 c
  else if !holds && !past && cl.st ≠ .free then
    if answer then s
    else match holdInput s cell c (.record via r) (slotOf s x.slot).aside.req with
      | some s => noteHeld s cell c
      | none => count s .tpool 0 1
  else if (holds && !err || cl.st = .free && !past) && r.hdr.digest ≠ x.desc.digest then mismatch s x c 5 0xFFFF
  else if answer then answerNow s x r (holds && !err)
  else if past && !(holds && err) then recordAfter s x r
  else if holds then recordInCell s x r
  else match arm s x c with
    | some s => recordInCell s x r
    | none => armWait s x c (.record via r)

/-- R152: a record from its arrival. -/
def recordCore (via : RecVia) (r : Record) (s : State) : State :=
  let c := r.hdr.ciid
  if r.hdr.check.toNat ≠ recCheck r then
    (match via with
     | .site d => count s (fportOf d.port) 0 1
     | .link g _ => count s (.line g) 3 1
     | .own => s)
  else if recMalformed r then raiseFor s (inputPage s c (recPage via)) 0x2601 0 c
  else match attempt s c, findInst s c with
    | .stale, _ => raiseFor s (inputPage s c (recPage via)) 0x2103 0 c
    | _, none => raise s (recPage via) 0x2602 0
    | .later, some x =>
      (match holdInput s x.desc.cell c (.record via r) (slotOf s x.slot).aside.req with
       | some s => emitRec s x (mkAnswer s 4 r)
       | none => count s .tpool 0 1)
    | .now, some x => recordNow s via x r

/-- R149, R169, R380: a record as it comes in: a foreign datagram is dropped, the PEER class is policed, and one released
UNVERIFIED is not taken before its tag verifies. -/
def recordRx (via : RecVia) (r : Record) (s : State) : State :=
  match via with
  | .site d =>
    let p := peerIn s d (peerPort s) (64 + r.payload.length)
    if p.2 then recordCore via r p.1 else p.1
  | .link g l => match takeUnit s (g, l) (.rcd r) with
    | some s => recordCore via r s
    | none => s
  | .own => s

/-! ## Held inputs (R82, R123) -/

/-- One held input served as if it had just arrived. -/
def serveHeld (s : State) (i : HeldInput) : State :=
  let s := releaseOpt s i.tray
  match i.input with
  | .contrib n org via p =>
    let k : Ctx := ⟨via, org, p, n⟩
    if i.upstream then handle k contribCore s else settleHeld k (contribCore k s)
  | .record via r => recordCore via r s

/-- R123: the held inputs of a cell that meet a condition are taken in order of arrival. -/
def takeHeldIf (s : State) (f : HeldInput → Bool) : State :=
  let mine := s.coll.held.filter f
  let s := { s with coll := { s.coll with held := s.coll.held.filter (fun i => !f i) } }
  mine.foldl serveHeld s

/-- R82: held inputs that meet a condition are refused: contributions with STALE_REPLAY; records are dropped. -/
def refuseHeld (s : State) (f : HeldInput → Bool) : State :=
  let mine := s.coll.held.filter f
  let s := { s with coll := { s.coll with held := s.coll.held.filter (fun i => !f i) } }
  mine.foldl (fun s i =>
    let s := releaseOpt s i.tray
    match i.input with
    | .contrib n org via p =>
      let k : Ctx := ⟨via, org, p, n⟩
      let stale := fun (_ : Ctx) (s : State) => (raiseFor s (inputPage s i.ciid (viaPage via)) 0x2103 0 i.ciid, Disp.refuse 0x2103)
      if i.upstream then handle k stale s else settleHeld k (stale k s)
    | .record _ _ => s) s

def takeHeld (s : State) (cell : Nat) : State := takeHeldIf s (fun i => i.cell == cell && attempt s i.ciid == .now)

/-- R148: the cells of a step at which no member is placed arm from the plan. -/
def armEmpty (i : Nat) (p : Plan) (st : PlanStep) (replay : Nat) (s : State) (d : Desc) : State :=
  let c := d.full replay
  let cl := cellOf s d.cell
  if !d.ranks.isEmpty || cl.st ≠ .free || (instRec s c).harvested || (instRec s c).decided.isSome then s
  else
    let x : Placed := ⟨i, p, st, d⟩
    match arm s x c with
    | none => s
    | some s => tryHarvest (storePseudo (progress s x c) x) x c

/-! ## Decisions (R130, R131, R499) -/

/-- R131: every bound member of an instance gets its failure COMPLETE. -/
def failMembers (s : State) (x : Placed) (c : BitVec 64) (st : CellSt) (bound : PMap Nat (Origin × BitVec 8)) : State :=
  bound.foldl (fun s e => answerFailed s x c st e.1 e.2) s

/-- R499: inputs held for a failed instance are discarded, their trays freed and their senders answered. -/
def dropHeldFor (s : State) (x : Placed) (c : BitVec 64) (st : CellSt) : State :=
  let mine := s.coll.held.filter (fun i => i.ciid == c)
  let s := { s with coll := { s.coll with held := s.coll.held.filter (fun i => i.ciid != c) } }
  mine.foldl (fun s i =>
    let s := releaseOpt s i.tray
    match i.input with
    | .contrib n org via p =>
      let k : Ctx := ⟨via, org, p, n⟩
      let s := if i.upstream then releaseCredits s org k.vc k.cost else s
      answerFailed s x c st p.hdr.member.toNat (org, p.hdr.stream)
    | .record _ _ => s) s

/-- R130, R131, R499: the master's decision applied. -/
def applyDecision (s : State) (c : BitVec 64) (st : CellSt) : State :=
  match attempt s c != .stale && ciidReplay c == replayOf s (ciidJob c) (ciidStep c), findInst s c with
  | true, some x =>
    let cell := x.desc.cell
    let cl := cellOf s cell
    let ir := instRec s c
    if ir.decided.isSome then s
    else
      let s := setInst s c { ir with decided := some st }
      let away := cl.st ≠ .free && cl.ciid ≠ c
      let n := inputCounts x (gw s) (if away then Cell.free else cl)
      let detail := if st = .mismatch then 0xFFFF else if st = .timeout then min 0xFFFF (n.1 - n.2) else 0
      let info := cell % 16384 + 16384 + detail * 65536
      if away then dropHeldFor (failMembers (raiseCell s cell (errCode st) info c) x c st ir.bound) x c st
      else
        let fresh := cl.st = .free
        let old := cl.st
        let cl := if fresh then { Cell.free with ciid := c, digest := x.desc.digest, bound := ir.bound } else cl
        let here := old == st
        let cl := { cl with st := st, remote := !here, recheck := false, ready := [],
                            cause := if st = .mismatch then (if here then cl.cause else 6) else 0 }
        let s := setCell s cell cl
        let s := if isErr old && !here then raiseCell s cell 0x0503 (cell % 16384) c else s
        let s := if here || isErr old then s else raiseCell s cell (errCode st) info c
        dropHeldFor (failMembers s x c st cl.bound) x c st
  | _, _ => s

/-! ## Rollback of cells (R80, R126) -/

/-- Cells of steps under way at which no member is placed arm once they are FREE (R148). -/
def armOpen (s : State) (cell : Nat) : State :=
  s.plans.opens.foldl (fun s o =>
    match (slotOf s o.slot).plan with
    | none => s
    | some p => match p.stepOf o.step with
      | none => s
      | some st =>
        if o.replay ≠ replayOf s o.job o.step then s
        else (st.descs.filter (fun d => d.cell == cell)).foldl (armEmpty o.slot p st o.replay) s) s

/-- R80: a cell returned to FREE by rollback: its trays and its outstanding requests, which complete with STEP_REPLAYED. -/
def rollCell (s : State) (cell : Nat) : State :=
  let cl := cellOf s cell
  if cl.st = .free then s
  else
    let c := cl.ciid
    let ir := instRec s c
    let s := match findInst s c with
      | none => s
      | some x => cl.bound.foldl (fun s e =>
          if ir.answered.contains e.1 || cl.answered.contains e.1 then s
          else
            let r := instRec s c
            markDone (memberComplete (setInst s c { r with answered := r.answered ++ [e.1] }) x c e.1 e.2 0x3101 0)
              (flightOf c e.1) 0x3101) s
    let s := freeCellTrays s cell
    setCell s cell Cell.free

end Sys2Proof.Machine
end

