-- ==== Sys2Proof/Machine/Tiles.lean ====
section
/-! DEFINITION. Machine/Tiles.lean: tiles: beginning and ending steps (R215 to R218), halting (R216), the plan functions of
MGMT (R206 to R208), quarantine (R234) and guarded areas (R249). -/
namespace Sys2Proof.Machine
open Sys2Proof

def tileIx (n : Nat) : Fin 64 := ⟨n % 64, by omega⟩

/-! ## Poison -/

/-- Whether a span meets poisoned memory. -/
def poisoned (s : State) (a n : Nat) : Bool := s.poison.any (fun p => a < p.1 + p.2 && p.1 < a + n)

/-- The poison ranges outside a span. -/
def clearPoison (s : State) (a n : Nat) : State :=
  { s with poison := s.poison.flatMap fun p =>
      if a < p.1 + p.2 && p.1 < a + n then
        (if p.1 < a then [(p.1, a - p.1)] else []) ++
        (if a + n < p.1 + p.2 then [(a + n, p.1 + p.2 - (a + n))] else [])
      else [p] }

def addPoison (s : State) (a n : Nat) : State :=
  let s := clearPoison s a n
  if n = 0 then s else { s with poison := s.poison ++ [(a, n)] }

/-! ## The attempt a tile runs -/

def slotPlan (s : State) (i : Nat) : Option Plan := (slotOf s i).plan

/-- The plan step that a tile runs. -/
def tileStep (s : State) (t : Fin 64) : Option (Plan × PlanStep) :=
  let x := tileOf s t
  match slotPlan s x.slot with
  | none => none
  | some p => (p.stepOf x.step).map (fun st => (p, st))

/-- R245: whether a step is an outer step. -/
def isOuter (st : PlanStep) : Bool := st.descs.any (fun d => d.inst.isSome)

/-- R438: whether a tile is to begin a step of the proving plan that the recovery sequencer runs. -/
def provingTile (s : State) (t : Fin 64) : Bool :=
  match s.rseq.compute, (tileOf s t).todo with
  | some i, some (j, _) => i == j
  | _, _ => false

/-- R215, R216, R234: whether a tile may begin a step. -/
def mayBegin (s : State) (t : Fin 64) : Bool :=
  let p := pageOf s (.tile t)
  let x := tileOf s t
  p.enable && !p.quiesce && !p.quarantined && (!(x.held || p.halted) || (x.held && provingTile s t)) && !x.failed &&
  (x.seq == .idle || x.seq == .boundary || x.seq == .stopped)


/-- R264: released images whose accepted pulls are harvested go. -/
def sweepImages (s : State) : State :=
  { s with tdec := { s.tdec with images := s.tdec.images.filter (fun i =>
      !i.old || s.fab.pulls.any (fun p => p.img == some i.id)) } }

/-- R264: the images of a job that meet a condition are released. -/
def releaseImages (s : State) (f : Image → Bool) : State :=
  sweepImages { s with tdec := { s.tdec with images := s.tdec.images.map (fun i => if f i then { i with old := true } else i) } }

/-- The attempt of a step begins at the gateway, with its first tile: the gateway record opens, the inputs held for other
attempts of the step are refused (R82), cells without members
arm (R148), and an outer step retires epoch c − 1 (R248). -/
def gatewayBegins (s : State) (i : Nat) (p : Plan) (st : PlanStep) (replay : Nat) : State :=
  if s.plans.opens.any (fun o => o.job == p.job && o.step == st.step && o.replay == replay) then s
  else
    let o : OpenRec := ⟨i, p.job, st.step, replay, 0, s.sf, []⟩
    let x := slotOf s i
    let s := if s.rseq.compute = some i then s else
      let s := setSlot s i { x with begun := if x.begun.contains st.step then x.begun else x.begun ++ [st.step] }
      { s with plans := { s.plans with tried := (p.job, st.step, replay) :: s.plans.tried } }
    let s := { s with plans := { s.plans with opens := s.plans.opens ++ [o] } }
    let s := refuseHeld s (fun h => ciidJob h.ciid == p.job && ciidStep h.ciid == st.step && ciidReplay h.ciid != replay)
    let s := if isOuter st then
        let j := jobOf s p.job
        let s := setJob s p.job { j with prev := false, outer := some (st.step, replay), momWritten := [] }
        releaseImages s (fun i => i.job == p.job && i.epoch + 1 == j.epoch)
      else s
    st.descs.foldl (armEmpty i p st replay) s

/-- R213: held signals for an attempt counted into fresh counters. -/
def applySignals (l : List HeldSignal) (step replay : Nat) : PMap Nat Nat :=
  l.foldl (fun m g => if g.step = step ∧ g.replay = replay then
    mset m g.ctr (min 65535 (mget m g.ctr 0 + 1)) else m) []

/-- R218: a tile's record as it ends a step. -/
def tileRec (x : Tile) (sf : Nat) : StepRec := ⟨x.step, x.replay, x.flags, x.beganSf % 2 ^ 32, sf % 2 ^ 32⟩

def nextStep (n : Nat) : Nat := (n + 1) % 2 ^ 24
def Plan.last (p : Plan) : Nat := (p.first + p.count - 1) % 2 ^ 24

/-- R208: an ACTIVE slot whose plan's last step every tile has ended becomes DONE, and the NEXT plan ACTIVE; PLAN_END without one. A
slot that PLAN_STOP stops becomes HELD instead (R207). -/
def slotEnded (s : State) (i : Nat) : State :=
  let x := slotOf s i
  match x.plan with
  | none => s
  | some p =>
  let all := (List.finRange 64).all (fun t => !bit p.tileMask t.val || x.lastEnded.contains t.val)
  if !all || x.st ≠ .active || x.stopping then s
  else
    let s := setSlot s i { x with st := .done }
    let j := 1 - i
    let y := slotOf s j
    if y.st = .next then
      let s := setSlot s j { y with st := .active }
      match y.plan with
      | none => s
      | some q => (List.finRange 64).foldl (fun s t =>
          if bit q.tileMask t.val && !bit p.tileMask t.val then
            setTile s t { tileOf s t with todo := some (j, q.first) } else s) s
    else raise s (.quad 0) 0x0804 0

/-- R208: the slot of a plan that a tile has ended, and then the NEXT plan's, which all of its tiles may have ended before. -/
def planEnded (s : State) (i : Nat) : State := slotEnded (slotEnded s i) (1 - i)

/-- R207: PLAN_STOP: every tile stops at its next step boundary; the slot becomes HELD when all have. -/
def stopDone (s : State) (i : Nat) : State :=
  let x := slotOf s i
  match x.plan with
  | none => s
  | some p =>
    let quiet := (List.finRange 64).all (fun t => !bit p.tileMask t.val || !tileBusy (tileOf s t) || (tileOf s t).slot != i)
    if x.stopping && x.st == .active && quiet then setSlot s i { x with st := .held, stopping := false } else s

/-- R208, R215: a tile ends the step it runs: its record, and the step it is to begin next. -/
def endStep (s : State) (t : Fin 64) : State :=
  let x := tileOf s t
  match tileStep s t with
  | none => s
  | some (p, st) =>
    let lst := st.step = p.last
    let nx := slotOf s (1 - x.slot)
    let todo := if !lst then some (x.slot, nextStep st.step)
      else match nx.plan with
        | some q => if nx.st = .next && bit q.tileMask t.val then some (1 - x.slot, q.first) else none
        | none => none
    let x' := { x with seq := if todo.isSome then .boundary else .idle, active := todo.isSome, todo := todo,
                       srec := tileRec x s.sf, waitArg := 0 }
    let s := setTile s t x'
    let f := fun (o : OpenRec) => if o.job = p.job ∧ o.step = st.step ∧ o.replay = x.replay then
        { o with flags := o.flags ||| x.flags, ended := o.ended ++ [t.val] } else o
    let s := { s with plans := { s.plans with opens := s.plans.opens.map f } }
    let sl := slotOf s x.slot
    let s := if lst then setSlot s x.slot { sl with lastEnded := sl.lastEnded ++ [t.val] } else s
    let s := settlePage s (.tile t)
    stopDone (if lst then planEnded s x.slot else s) x.slot

/-- R207, R208, R438: whether the slot a tile is to begin in lets it: ACTIVE, NEXT behind an ACTIVE plan, neither of which PLAN_STOP
stops, or that of a proving plan. -/
def slotRuns (s : State) (i : Nat) : Bool :=
  let x := slotOf s i
  let y := slotOf s (1 - i)
  !x.stopping && (x.st == .active || (x.st == .next && y.st == .active && !y.stopping) || s.rseq.compute == some i)

/-- R27, R245: whether a step must wait: an outer step, while an earlier one of its job has not been published and its epoch has not
become current. -/
def outerWaits (s : State) (p : Plan) (st : PlanStep) : Bool :=
  isOuter st && (match (jobOf s p.job).outer with | some x => x.1 != st.step | none => false)

/-- R46, R213, R215: a tile begins its next step attempt; a tile with an empty stream ends it at once. -/
def beginStep (s : State) (t : Fin 64) : State :=
  let x := tileOf s t
  match x.todo with
  | none => s
  | some (i, n) =>
    if !mayBegin s t || !slotRuns s i then s
    else match slotPlan s i with
      | none => s
      | some p => match p.stepOf n with
        | none => s
        | some st =>
          if outerWaits s p st then s else
          let r := replayOf s p.job n
          let s := { s with plans := { s.plans with replay := mset s.plans.replay (p.job, n) r } }
          let s := gatewayBegins s i p st r
          let keep := x.signals.filter (fun g => !(g.step == n && g.replay == r))
          let x := { tileOf s t with
            seq := .issue, slot := i, todo := none, active := true, failed := false, step := n, replay := r, pc := 0,
            beganSf := s.sf, startSf := s.sf, waitArg := 0, flight := [], evt := applySignals x.signals n r, signals := keep, flags := 0,
            pass := 0, bufFull := false,
            excSeen := x.excSeen.filter (fun a => a == x.attempt || a == n % 2 ^ 24 + r % 256 * 2 ^ 24) }
          let s := setTile s t x
          let s := setPage s (.tile t) ((pageOf s (.tile t)).apply (r % 256 * 2 ^ 24 + n))
          if (st.streams.getD t.val []).isEmpty then endStep s t else s

/-- R216: a halt or quarantine: the sequencer stops, engine words in flight are abandoned and their outputs poisoned. -/
def haltTile (s : State) (t : Fin 64) : State :=
  let x := tileOf s t
  let s := x.flight.foldl (fun s f => addPoison s f.dst f.len) s
  setTile s t { x with seq := if x.active then .stopped else x.seq, flight := [], waitArg := 0 }

/-- R218: flags set in a tile's step and in the gateway record. -/
def tileFlag (s : State) (t : Fin 64) (bits : Nat) : State :=
  let x := tileOf s t
  orOpen (setTile s t { x with flags := x.flags ||| bits }) x.step x.replay bits

/-! ## Plan functions (R206, R207, R208) -/

def slotNum : SlotSt → Nat
  | .empty => 0 | .loading => 1 | .loaded => 2 | .active => 3 | .next => 4 | .held => 5 | .done => 6

/-- R497: a refusal for the slot's state. -/
def slotRefuse (s : State) (code slot fn : Nat) : State × Disp :=
  (raise s (.quad 0) code (slot % 2 + fn % 256 * 256 + slotNum (slotOf s slot).st * 65536), .refuse code)

/-- R206: whether a slot's plan has begun a step that is not committed. -/
def uncommitted (s : State) (x : Slot) : Bool :=
  match x.plan with
  | none => false
  | some p => x.begun.any (fun n => !committed s p.job n)

/-- R384, R388: a slot emptied: its image trays and its set-aside return to the pool. -/
def clearSlot (s : State) (i : Nat) : State :=
  let x := slotOf s i
  dropAside (releaseTrays (setSlot s i Slot.empty) x.trays) i

/-- R205: an image or a start refused, with the refusal payload. -/
def refusePlan (s : State) (k : Ctx) (r : PRef) : State × Disp :=
  (sendComplete (raise s (.quad 0) 0x2801 r.info) k.org k.h 0x2801 r.bytes, .done 0x2801)

/-- R206: pond trays for the bytes of a load; none when the quota or the pool is exhausted. -/
def growLoad (s : State) (req : Nat) (b : LoadBuf) (idx : Nat) (bytes : Bytes) : Option (State × LoadBuf) :=
  let b := { b with chunks := mset b.chunks idx bytes }
  let total := b.chunks.foldl (fun n e => n + e.2.length) 0
  let more := cdiv total 65536 - b.trays.length
  (allocPonds s req 0 more).map (fun r =>
    let l := b.trays ++ r.2
    (match l.getLast? with | some i => trayMoved r.1 i bytes.length | none => r.1, { b with trays := l }))

/-- The bytes of a complete load, chunk after chunk. -/
def LoadBuf.bytes (b : LoadBuf) : Bytes := (List.range b.count).flatMap (fun i => mget b.chunks i [])
def LoadBuf.full (b : LoadBuf) : Bool := b.count > 0 && (List.range b.count).all (fun i => (mget? b.chunks i).isSome)

def loadable (s : State) (x : Slot) : Bool := (x.st == .empty || x.st == .loaded || x.st == .done) && !uncommitted s x

def setLoads (s : State) (m : PMap Origin LoadBuf) : State := { s with plans := { s.plans with loads := m } }

/-- The slot a load names in its prefix, once chunk 0 has arrived. -/
def loadSlot (b : LoadBuf) : Option Nat := (mget? b.chunks 0).map (fun l => byteAt l 0)

/-- A load ends: its buffer goes, and the slot it had taken returns to its prior state. -/
def endLoad (s : State) (org : Origin) (b : LoadBuf) : State :=
  let s := setLoads s (mdel s.plans.loads org)
  match loadSlot b with
  | some i => let x := slotOf s i
              if x.st = .loading then setSlot s i { x with st := x.prior } else s
  | none => s

/-- R205, R207: PLAN_LOAD once its last chunk has arrived. -/
def finishLoad (s : State) (k : Ctx) (b : LoadBuf) : State × Disp :=
  let s := endLoad s k.org b
  let blk := b.bytes
  let i := byteAt blk 0
  match checkPlan s i (reqOf s k.org) (blk.drop 16) with
  | .inl r => refusePlan (releaseTrays s b.trays) k r
  | .inr (p, s', a) =>
    let old := slotOf s' i
    let s := releaseTrays s' old.trays
    let s := setSlot s i { Slot.empty with st := .loaded, plan := some p, aside := a, trays := b.trays }
    (sendComplete s k.org k.h 0 [], .done 0)

/-- R207: one chunk of a PLAN_LOAD. -/
def planLoad (k : Ctx) (s : State) : State × Disp :=
  let h := k.h
  let idx := h.chunkIndex.toNat
  let p := k.pkt.payload
  if h.chunkCount = 0 || idx ≥ h.chunkCount.toNat then (s, .refuse 0x2207)
  else if idx = 0 && (p.length < 16 || byteAt p 0 > 1 || (slice p 1 15).any (· != 0)) then (s, .refuse 0x2206)
  else
    let b0 := mget s.plans.loads k.org LoadBuf.none
    let b := if b0.count ≠ h.chunkCount.toNat then LoadBuf.none else b0
    let i := byteAt p 0
    let mine := b.count ≠ 0 && loadSlot b == some i && (slotOf s i).st == .loading
    if idx = 0 && !mine && !loadable s (slotOf s i) then slotRefuse s 0x2802 i 0
    else match growLoad s (reqOf s k.org) { b with count := h.chunkCount.toNat } idx p with
      | none => (count s .tpool 0 1, .refuse 0x2301)
      | some (s, b) =>
        let s := setLoads s (mset s.plans.loads k.org b)
        let s := if idx = 0 && !mine then
            let x := slotOf s i
            setSlot s i { x with st := .loading, prior := x.st } else s
        if b.full then finishLoad s k b else (sendComplete s k.org h 0 [], .done 0)

/-- R399: whether the gateway has joined line time or is in holdover. -/
def joined (s : State) : Bool := s.lt.st == .locked || s.lt.st == .holdover || s.lt.st == .master

/-- R208: tiles of a plan set to begin a step and begun where they may. -/
def startTiles (s : State) (i : Nat) (p : Plan) (n : Nat) : State :=
  (List.finRange 64).foldl (fun s t =>
    if bit p.tileMask t.val then
      beginStep (setTile s t { tileOf s t with todo := some (i, n), failed := false, seq := .idle, active := false }) t
    else s) s

def otherJob (s : State) (i : Nat) (p : Plan) : Bool :=
  let y := slotOf s (1 - i)
  (y.st == .active || y.st == .next || y.st == .held) &&
  (match y.plan with | some q => q.job != p.job | none => false)

/-- R208: PLAN_START in mode START. -/
def planStart (k : Ctx) (s : State) : State × Disp :=
  let b := k.pkt.payload
  if b.length ≠ 16 || byteAt b 0 > 1 || byteAt b 1 ≠ 0 || (slice b 2 6).any (· != 0) then (s, .refuse 0x2206)
  else
    let i := byteAt b 0
    let x := slotOf s i
    let y := slotOf s (1 - i)
    if x.st = .empty || x.st = .loading then slotRefuse s 0x2803 i 1
    else match x.st, x.plan with
      | .loaded, some p =>
        if otherJob s i p || y.st = .held || y.st = .next then slotRefuse s 0x2802 i 1
        else if y.st = .active && (match y.plan with | some q => p.first != nextStep q.last | none => false) then
          refusePlan s k ⟨10, 0, 0xFFFF, p.first, 0⟩
        else if !joined s then refusePlan s k ⟨11, 0, 0xFFFF, p.first, 0⟩
        else
          let x := { x with base := beAt b 8 8, begun := [], lastEnded := [] }
          if y.st = .active then
            let s := setSlot s i { x with st := .next }
            -- R208: a tile that has already ended the active plan's last step begins the NEXT plan
            let s := (List.finRange 64).foldl (fun s t =>
              if bit p.tileMask t.val && y.lastEnded.contains t.val then
                beginStep (setTile s t { tileOf s t with todo := some (i, p.first) }) t else s) s
            (sendComplete s k.org k.h 0 [], .done 0)
          else
            let s := startTiles (setSlot s i { x with st := .active }) i p p.first
            (sendComplete s k.org k.h 0 [], .done 0)
      | _, _ => slotRefuse s 0x2802 i 1

/-- The oldest uncommitted step that a slot's plan has begun, or the step it is to begin first. -/
def oldestStep (s : State) (p : Plan) : Option Nat :=
  (p.steps.map (·.step)).find? (fun n => !committed s p.job n)

/-- R205 reason 13: the first step from z on that a REPLACE plan lacks (section STEP), or whose descriptors are not
byte-identical (section DESC). -/
def replaceBad (q p : Plan) (z : Nat) : Option PRef :=
  firstSome ((q.steps.dropWhile (fun st => st.step != z)).map fun st =>
    match p.stepOf st.step with
    | none => some ⟨13, 3, 0xFFFF, st.step, 0⟩
    | some st' =>
      if st.descs.length == st'.descs.length && st.descs.all (fun d => st'.descs.any (fun e => e.bytes == d.bytes)) then none
      else some ⟨13, 1, 0xFFFF, st.step, 0⟩)

/-- R208: PLAN_START in mode REPLACE. -/
def planReplace (k : Ctx) (s : State) : State × Disp :=
  let b := k.pkt.payload
  if b.length ≠ 16 || byteAt b 0 > 1 || byteAt b 1 ≠ 1 || (slice b 2 6).any (· != 0) then (s, .refuse 0x2206)
  else
    let i := byteAt b 0
    let x := slotOf s i
    let y := slotOf s (1 - i)
    if x.st = .empty || x.st = .loading then slotRefuse s 0x2803 i 1
    else match x.st, x.plan, y.st, y.plan with
      | .loaded, some p, .held, some q =>
        -- a plan whose every step has committed asks nothing of the new one, which begins at its first step
        let z := (oldestStep s q).getD p.first
        if !joined s then refusePlan s k ⟨11, 0, 0xFFFF, p.first, 0⟩
        else if p.job ≠ q.job then refusePlan s k ⟨13, 0, 0xFFFF, z, 0⟩
        else match (if (oldestStep s q).isSome then replaceBad q p z else none) with
        | some r => refusePlan s k r
        | none =>
          let s := setSlot s (1 - i) { y with st := .done, stopping := false }
          let s := setSlot s i { x with st := .active, base := beAt b 8 8, begun := [], lastEnded := [] }
          let s := startTiles s i p z
          (sendComplete s k.org k.h 0 [], .done 0)
      | _, _, _, _ => slotRefuse s 0x2802 i 1

/-- R207: the parameter block of PLAN_STOP, PLAN_DROP and TILE_RELEASE. -/
def blockBad (b : Bytes) (top : Nat) : Bool := b.length != 16 || byteAt b 0 > top || (slice b 1 15).any (· != 0)

/-- R207: PLAN_STOP. -/
def planStop (k : Ctx) (s : State) : State × Disp :=
  let b := k.pkt.payload
  if blockBad b 1 then (s, .refuse 0x2206)
  else
    let i := byteAt b 0
    let x := slotOf s i
    if x.st = .active then
      (sendComplete (stopDone (setSlot s i { x with stopping := true }) i) k.org k.h 0 [], .done 0)
    else if x.st = .next && x.begun.isEmpty then
      let s := setSlot s i { x with st := .loaded }
      let s := (List.finRange 64).foldl (fun s t =>
        match (tileOf s t).todo with
        | some (j, _) => if j = i then setTile s t { tileOf s t with todo := none, seq := .idle, active := false } else s
        | none => s) s
      (sendComplete s k.org k.h 0 [], .done 0)
    else slotRefuse s 0x2802 i 2

def planDrop (k : Ctx) (s : State) : State × Disp :=
  let b := k.pkt.payload
  if blockBad b 1 then (s, .refuse 0x2206)
  else
    let i := byteAt b 0
    let x := slotOf s i
    if (x.st = .loaded || x.st = .done) && !uncommitted s x then
      (sendComplete (clearSlot s i) k.org k.h 0 [], .done 0)
    else slotRefuse s 0x2802 i 3

/-- R218: the 16 bytes of a step record. -/
def StepRec.bytes (r : StepRec) : Bytes :=
  beBytes 4 (r.step % 2 ^ 24 + r.replay % 256 * 2 ^ 24) ++ beBytes 2 r.flags ++ [0, 0] ++ beBytes 4 r.startSf ++
  beBytes 4 r.endSf

/-- R207: the step that PLAN_STATUS shows for a slot: the latest begun, else the plan's first, else 0. -/
def statusStep (x : Slot) : Nat :=
  match x.begun.getLast?, x.plan with
  | some n, _ => n
  | none, some p => p.first
  | none, none => 0

/-- R207: PLAN_STATUS: per slot one byte of state and three of step, then the records, oldest first. -/
def planStatus (k : Ctx) (s : State) : State × Disp :=
  if !k.pkt.payload.isEmpty then (s, .refuse 0x2206)
  else
    let one := fun (x : Slot) => beBytes 1 (slotNum x.st) ++ beBytes 3 (statusStep x)
    let body := one s.plans.slot0 ++ one s.plans.slot1 ++ s.plans.records.flatMap (·.bytes)
    (sendComplete s k.org k.h 0 body, .done 0)

/-- R207, R235, R389: TILE_RELEASE: a QUARANTINED tile returns to OFF, in TEST mode only. -/
def tileRelease (k : Ctx) (s : State) : State × Disp :=
  let b := k.pkt.payload
  if blockBad b 63 then (s, .refuse 0x2206)
  else if s.mode ≠ some .test then (s, .refuse 0x220F)
  else
    let t := tileIx (byteAt b 0)
    let p := pageOf s (.tile t)
    let s := if p.quarantined then
        let s := setPage s (.tile t) { p with quarantined := false, enable := false, halted := false }
        let x := tileOf s t
        let s := setTile s t { x with xchkMiss := 0, seq := .idle, active := false, todo := none }
        -- R433: the tile's charges are cleared
        let s := { s with rseq := { s.rseq with charges := mdel s.rseq.charges t } }
        { s with trays := { s.trays with removed := s.trays.removed.filter (· != t) } }
      else s
    (sendComplete s k.org k.h 0 [], .done 0)

/-! ## Quarantine (R234) -/

/-- R234: whether a plan names a tile: in its TILE_MASK, or as a shadow of one of its cells. -/
def planNames (p : Plan) (t : Fin 64) : Bool :=
  bit p.tileMask t.val || p.steps.any (fun st => st.descs.any (fun d =>
    d.shadow == t.val || (d.shadow == 0xFFFF && !d.fast && (cellTile d.cell).val ^^^ 1 == t.val)))

/-- R234: an ACTIVE plan that names a quarantined tile is held. -/
def holdPlans (t : Fin 64) (s : State) : State :=
  let f := fun (s : State) (i : Nat) => let x := slotOf s i
    if x.st = .active && (match x.plan with | some p => planNames p t | none => false) then
      let s := setSlot s i { x with st := .held, stopping := false }
      { s with rseq := { s.rseq with heldSf := mset s.rseq.heldSf i s.sf } }
    else s
  f (f s 0) 1

/-- R234: a tile enters QUARANTINED; one beyond QUAR_MAX raises QUAR_LIMIT instead (R433). -/
def quarantineTile (s : State) (t : Fin 64) : State :=
  let n := ((List.finRange 64).filter (fun x => (pageOf s (.tile x)).quarantined)).length
  let limit := decide (n + 1 > fldV s .rseq 0x4C 15 12)
  let x := tileOf s t
  let job := match slotPlan s x.slot with | some p => p.job | none => 0
  let att := if x.active then mkCiid job x.step 0 x.replay else 0
  let s := haltTile s t
  let s := setPage s (.tile t) { pageOf s (.tile t) with quarantined := true, quiescing := false }
  let s := { s with trays := { s.trays with removed := t :: s.trays.removed.filter (· != t) } }
  holdPlans t (if limit then raiseFor s .rseq 0x3705 0 att else raiseFor s (.tile t) 0x3801 0 att)

/-! ## Guarded areas (R249) -/


/-- R242: the bank of an epoch at the home and at the partner. -/
def homeBank (m : Matrix) (e : Nat) : Nat := if e % 2 = 0 then m.hW0 else m.hW1
def partBank (m : Matrix) (e : Nat) : Nat := if e % 2 = 0 then m.pW0 else m.pW1

def meets (a n b k : Nat) : Bool := decide (a < b + k ∧ b < a + n)

/-- Whether a pull or fetch of an epoch is not yet harvested (R77). -/
def pullsOpen (s : State) (job epoch : Nat) : Bool :=
  s.fab.pulls.any (fun p => p.job == job && p.epoch == epoch && p.qty == 1)

/-- What becomes of a plan word's write: it goes on, waits, or is abandoned. -/
inductive Guard where
  | go | wait | stop
  deriving DecidableEq, Repr

/-- The momentum chunks (R241) that a span of a momentum area meets. -/
def momChunks (m : Matrix) (base a n : Nat) : List Nat :=
  (List.range (cdiv (mSize m) 8192)).filter (fun i => meets a n (base + 8192 * i) 8192)

/-- R241, R254: whether a chunk's REPL of a quantity is not yet acknowledged by the partner. -/
def replOpen (s : State) (job matrix qty chunk : Nat) : Bool :=
  s.stTx.any (fun r => r.rcd.hdr.kind == 1 && r.rcd.hdr.job.toNat == job && r.rcd.hdr.matrix.toNat == matrix &&
    r.rcd.hdr.qty.toNat == qty && r.rcd.hdr.chunkIndex.toNat == chunk)

def initialOpen (s : State) (job : Nat) : Bool :=
  s.stTx.any (fun r => r.rcd.hdr.kind == 1 && r.rcd.hdr.job.toNat == job && bit r.rcd.hdr.flags.toNat 1)

/-- The outcome of a write that several areas judge: abandoned where one abandons it, else waiting where one waits. -/
def guardAll (gs : List Guard) : Guard := if gs.contains .stop then .stop else if gs.contains .wait then .wait else .go

/-- R248, R249: a write of n bytes at an address against one matrix of a job: against each area it meets. -/
def guardMatrix (s : State) (job : Nat) (j : Job) (a n : Nat) (m : Matrix) : Guard :=
  let me := gw s
  let at_ := fun (b k : Nat) (g : Guard) => if meets a n b k then g else .go
  let oth := if j.outer.isNone then .stop
    else if initialOpen s job || (j.epoch > 0 && pullsOpen s job (j.epoch - 1)) then .wait else .go
  let mom := if initialOpen s job || (momChunks m m.hM a n).any (replOpen s job m.matrix 2) then .wait else .go
  if me = m.home then
    guardAll [at_ (homeBank m j.epoch) (wSize m) .stop, at_ m.hD (dSize m) .stop,
              at_ (homeBank m (j.epoch + 1)) (wSize m) oth, at_ m.hM (mSize m) mom]
  else if me = m.partner then
    guardAll [at_ m.pW0 (wSize m) .stop, at_ m.pW1 (wSize m) .stop, at_ m.pD (dSize m) .stop, at_ m.pM (mSize m) .stop]
  else .go

def guardOf (s : State) (a n : Nat) : Guard :=
  guardAll (s.outer.flatMap fun e => match e.2.tab with
    | some t => t.mats.map (guardMatrix s e.1 e.2 a n)
    | none => [])

/-- R256: the momentum chunks that an update writes are noted at the home. -/
def noteMomentum (s : State) (a n : Nat) : State :=
  { s with outer := s.outer.map fun e => match e.2.tab with
      | none => e
      | some t =>
        let w := t.mats.flatMap fun m =>
          if m.home = gw s && m.rule ≠ 1 then (momChunks m m.hM a n).map (fun i => (m.matrix, i)) else []
        (e.1, { e.2 with momWritten := e.2.momWritten ++ w.filter (fun x => !e.2.momWritten.contains x) }) }

end Sys2Proof.Machine
end

