-- ==== Sys2Proof/Machine/Seq.lean ====
section
/-! DEFINITION. Machine/Seq.lean: the plan words (R209 to R228) as a tile's sequencer issues them, one word per command, with
the issue ledger (R474 to R476), and the completion of engine words. -/
namespace Sys2Proof.Machine
open Sys2Proof

/-! ## Issue -/


/-- Whether a tile's sequencer may issue words: inside a step, and neither at the boundary nor stopped. -/
def issuing (s : State) (t : Fin 64) : Bool := tileBusy (tileOf s t) && (tileOf s t).seq != .idle

/-- The instruction a tile issues next, with its plan and step. -/
def nextWord (s : State) (t : Fin 64) : Option (Plan × PlanStep × List Nat) :=
  if !issuing s t then none else
  match tileStep s t with
  | none => none
  | some (p, st) =>
    let w := wordAt (st.streams.getD t.val []) (tileOf s t).pc
    if w.isEmpty then none else some (p, st, w)

/-- The meaning of a plan word: nothing where the tile's next instruction is another. -/
def onWord (s : State) (t : Fin 64) (is : List Nat → Bool) (f : Plan → PlanStep → List Nat → State) : State :=
  match nextWord s t with
  | some (p, st, w) => if is w then f p st w else s
  | none => s

/-- R475: the sequencer does not issue: its state, SEQ_WAIT_ARG, and the clock's positions, blocked. -/
def stall (s : State) (t : Fin 64) (q : SeqSt) (arg : Nat) (wait : Bool) : State :=
  charge (setTile s t { tileOf s t with seq := q, waitArg := BitVec.ofNat 32 arg }) t 0 0 0 4 (if wait then 4 else 0)

/-- R475: STEP_END before the next stream is copied. -/
def starve (s : State) (t : Fin 64) : State :=
  charge (setTile s t { tileOf s t with seq := .fetch, waitArg := 0 }) t 0 0 4 0 0

/-- R475, R476: an instruction issues. -/
def issue (s : State) (t : Fin 64) (w : List Nat) (poisonSrc : Bool) : State :=
  let x := tileOf s t
  let n := min w.length 4
  let waste := x.replay ≥ 1 || poisonSrc
  -- R211: S is the superframe in which the attempt's first word issues
  let first := if x.pc = 0 then s.sf else x.startSf
  charge (setTile s t { x with pc := x.pc + w.length, seq := .issue, waitArg := 0, startSf := first }) t
    (if waste then 0 else n) (if waste then n else 0) (4 - n) 0 0

/-- R212: whether every earlier engine word of a tile has completed. -/
def drained (s : State) (t : Fin 64) : Bool := (tileOf s t).flight.isEmpty

/-- R212: whether an engine takes a word: its queue holds 8, and a kernel runs alone. -/
def engineRoom (s : State) (t : Fin 64) (e : Engine) : Bool :=
  let f := (tileOf s t).flight
  if e = .kernel then f.isEmpty else !f.any (fun w => w.eng == .kernel) && (f.filter (fun w => w.eng == e)).length < 8

def enqueue (s : State) (t : Fin 64) (w : InFlight) : State :=
  let x := tileOf s t
  setTile s t { x with flight := x.flight.concat w }

/-- The step attempt that a tile runs, as a CIID without an ordinal. -/
def tileAttempt (s : State) (t : Fin 64) (p : Plan) : BitVec 64 :=
  mkCiid p.job (tileOf s t).step 0 (tileOf s t).replay

/-- R249: what becomes of the word's write to any of its destinations. -/
def guardSpans (s : State) (l : List (Nat × Nat)) : Guard := guardAll (l.map (fun x => guardOf s x.1 x.2))

/-- R438: an engine word of a proving step joins the step's digest: its tile, its index and its output bytes. -/
def noteProof (s : State) (t : Fin 64) (ix : Nat) (dst : Nat × Nat) : State :=
  let x := tileOf s t
  if s.rseq.compute = some x.slot then
    let d := crc64 (beBytes 1 t.val ++ beBytes 2 ix ++ memBytes s.mem dst.1 dst.2)
    { s with rseq := { s.rseq with pdig := mset s.rseq.pdig x.step (mget s.rseq.pdig x.step 0 ^^^ d) } }
  else s


/-- R276: whether a word goes to the DMA while its tile decodes a block. -/
def behindBlock (s : State) (t : Fin 64) (e : Engine) : Bool := e == .dma && !(mget s.tdec.queues t []).isEmpty

/-- R29, R212, R249: an engine word: it waits for its engine, for guarded memory and for pond bandwidth, or issues with its effect; a write into a
guarded area is abandoned, its output poisoned and STATE_PROTECTED raised. -/
def engineWord (s : State) (t : Fin 64) (p : Plan) (e : Engine) (w : List Nat) (effect : State → State) : State :=
  let sp := wordSpans w
  let g := guardSpans s sp.2
  let spent := (sp.1 ++ sp.2).filter (fun x => pondSpent s x.1)
  if !engineRoom s t e || g = .wait then stall s t .issue 0 false
  else if !spent.isEmpty then
    (spent.map (fun x => pondOf x.1)).eraseDups.foldl (fun s q => count s (.pond q) 2 1) (stall s t .issue 0 false)
  else
    let dst := sp.2.getLast?.getD (0, 0)
    let pc := (tileOf s t).pc
    let s := issue s t w (sp.1.any (fun x => poisoned s x.1 x.2))
    if g = .stop then
      let s := sp.2.foldl (fun s x => addPoison s x.1 x.2) s
      enqueue (raiseFor s (.tile t) 0x3902 0 (tileAttempt s t p)) t ⟨e, dst.1, 0, behindBlock s t e⟩
    else
      let s := (sp.1 ++ sp.2).foldl countPond s
      let s := sp.2.foldl (fun s x => noteMomentum (clearPoison s x.1 x.2) x.1 x.2) s
      enqueue (noteProof (effect s) t pc dst) t ⟨e, dst.1, dst.2, behindBlock s t e⟩

/-- R212: an engine word completes; words of one engine in issue order, and a DMA word after the block that it waits behind (R276). -/
def execEngineWordDone (t : Fin 64) (i : Nat) (s : State) : Host.Outcome State Fault Refusal :=
  let x := tileOf s t
  .next (match x.flight[i]? with
    | none => s
    | some w =>
      if w.behind || (x.flight.take i).any (fun y => y.eng == w.eng) then s
      else setTile s t { x with flight := x.flight.eraseIdx i })

/-! ## Sequencer words -/

/-- R211: the instant of a TIME field, in nanoseconds of line time from SF 0. For the attempt's first word, when nothing has issued,
S is the superframe in which the attempt began (DEDUCED, entry 105). -/
def instant (s : State) (t : Fin 64) (time : Nat) : Nat :=
  let x := tileOf s t
  let base := if bit time 48 then x.startSf else (slotOf s x.slot).base
  (base + fld time 41 0) * 8000 + fld time 47 42 * 125

/-- R215: whether a step follows the one a tile runs, in its plan or in a NEXT plan that names the tile, and so a stream to copy. -/
def hasNext (s : State) (t : Fin 64) (p : Plan) (st : PlanStep) : Bool :=
  let y := slotOf s (1 - (tileOf s t).slot)
  st.step != p.last || (y.st == .next && (match y.plan with | some q => bit q.tileMask t.val | none => false))

/-- STEP_END: after the tile's engine words and once the next stream is in the buffer, the tile ends its step. -/
def execStepEnd (t : Fin 64) (s : State) : Host.Outcome State Fault Refusal :=
  .next <| onWord s t (fun w => wOp w == 1) fun p st w =>
    if !drained s t then stall s t .sync 0 false
    else if hasNext s t p st && !(tileOf s t).bufFull then starve s t
    else endStep (issue s t w false) t

/-- SYNC: waits for the tile's engine words. -/
def execSync (t : Fin 64) (s : State) : Host.Outcome State Fault Refusal :=
  .next <| onWord s t (fun w => wOp w == 2) fun _ _ w =>
    if drained s t then issue s t w false else stall s t .sync 0 false

/-- WAIT_LT (R211, R213): at `ns` nanoseconds of the superframe; late when the word is first reached after its instant. -/
def execWaitLt (t : Fin 64) (ns : Fin 8000) (s : State) : Host.Outcome State Fault Refusal :=
  .next <| onWord s t (fun w => wOp w == 3) fun p _ w =>
    let i := instant s t (wF w 0 48 0)
    let now := s.sf * 8000 + ns.val
    if now < i then stall s t .waitLt (i / 8000 % 2 ^ 32) true
    else
      let late := now > i && (tileOf s t).seq != .waitLt
      let s := issue s t w false
      if late then tileFlag (raiseFor s (.tile t) 0x0801 0 (tileAttempt s t p)) t 32 else s

/-- R210, R213: the instance that a word of a tile names by its cell: its descriptor and CIID. -/
def namedInst (s : State) (t : Fin 64) (p : Plan) (is : Desc → Bool) : Option (Desc × BitVec 64) :=
  let x := tileOf s t
  ((p.placings x.step).find? (fun e => is e.2)).map (fun e =>
    (e.2, e.2.full (if e.1 = x.step then x.replay else replayOf s p.job e.1)))

/-- R213: whether the instance a plan places in a cell has reached a condition of WAIT_CELL, or passed it. -/
def condReached (s : State) (d : Desc) (c : BitVec 64) (cond : Nat) : Bool :=
  let cl := cellOf s d.cell
  let mine := cl.ciid == c && cl.st != .free
  let harv := (instRec s c).harvested
  match cond with
  | 1 => harv || (mine && (cl.stopped || cl.st == .complete))
  | 2 => harv || (mine && cl.st == .complete)
  | 3 => harv
  | _ => harv && !mine

/-- R213, R216: whether the instance is in an error state here. -/
def instFailed (s : State) (d : Desc) (c : BitVec 64) : Bool :=
  let cl := cellOf s d.cell
  (instRec s c).decided.isSome || (cl.ciid == c && isErr cl.st)

/-- R216: a tile marks its step FAILED and waits at the boundary. -/
def failStep (s : State) (t : Fin 64) (p : Plan) : State :=
  let s := tileFlag s t 16
  let x := tileOf s t
  let s := setTile s t { x with seq := .boundary, failed := true, waitArg := 0, todo := none }
  let f := fun (o : OpenRec) => if o.job = p.job ∧ o.step = x.step ∧ o.replay = x.replay then
      { o with ended := o.ended ++ [t.val] } else o
  charge { s with plans := { s.plans with opens := s.plans.opens.map f } } t 0 0 0 4 0

/-- WAIT_CELL (R213, R216). -/
def execWaitCell (t : Fin 64) (s : State) : Host.Outcome State Fault Refusal :=
  .next <| onWord s t (fun w => wOp w == 4) fun p _ w =>
    match namedInst s t p (fun d => d.cell == wF w 0 13 0) with
    | none => s
    | some (d, c) =>
      if instFailed s d c then failStep s t p
      else if condReached s d c (wF w 0 17 14) then issue s t w false
      else stall s t .waitCell d.cell true

/-- R213: a SIGNAL as it reaches its target: counted in the attempt that runs, held for one not begun, discarded where the
attempt has ended or was rolled back. -/
def signalTo (s : State) (t : Fin 64) (step replay ctr : Nat) : State :=
  let x := tileOf s t
  if x.active && x.step == step && x.replay == replay then
    if x.seq == .boundary then s
    else setTile s t { x with evt := mset x.evt ctr (min 65535 (mget x.evt ctr 0 + 1)) }
  else if x.srec.step == step && x.srec.replay == replay && x.srec.endSf != 0 then s
  else setTile s t { x with signals := x.signals.concat ⟨step, replay, ctr⟩ }

/-- SIGNAL: after the tile's engine words. -/
def execSignal (t : Fin 64) (s : State) : Host.Outcome State Fault Refusal :=
  .next <| onWord s t (fun w => wOp w == 5) fun p _ w =>
    if !drained s t then stall s t .sync 0 false
    else
      let x := tileOf s t
      let s := issue s t w false
      if x.replay < replayOf s p.job x.step then s
      else signalTo s (tileIx (wF w 0 5 0)) x.step x.replay (wF w 0 10 6)

/-- WAIT_EVT. -/
def execWaitEvt (t : Fin 64) (s : State) : Host.Outcome State Fault Refusal :=
  .next <| onWord s t (fun w => wOp w == 6) fun _ _ w =>
    let c := wF w 0 4 0
    let v := wF w 0 20 5
    if mget (tileOf s t).evt c 0 ≥ v then issue s t w false else stall s t .waitEvt (c + v * 65536) true

/-! ## Power, DMA, launches -/

/-- RAMP (R229): the power manager takes the ramp's start, target and rate at the word's issue. -/
def execRamp (t : Fin 64) (s : State) : Host.Outcome State Fault Refusal :=
  .next <| onWord s t (fun w => wOp w == 7) fun p _ w =>
    engineWord s t p .power w fun s =>
      let r : Ramp := ⟨s.sf + wF w 0 41 18, wF w 0 7 0, wF w 0 17 8, (tileOf s t).step % 2 ^ 14⟩
      { s with power := { s.power with queued := s.power.queued.concat r } }

/-- DMA (R202): a copy. -/
def execDma (t : Fin 64) (s : State) : Host.Outcome State Fault Refusal :=
  .next <| onWord s t (fun w => wOp w == 8) fun p _ w =>
    engineWord s t p .dma w fun s =>
      { s with mem := memPut s.mem (wF w 1 39 0) (memBytes s.mem (wF w 0 39 0) (64 * wF w 1 63 40)) }

/-- LAUNCH (R214): a pending launch of a launcher or queue of the tile's quadrant, at `ns` nanoseconds of the superframe;
one that issues less than 8 slots before its instant is late. -/
def execLaunch (t : Fin 64) (ns : Fin 8000) (s : State) : Host.Outcome State Fault Refusal :=
  .next <| onWord s t (fun w => wOp w == 9) fun p _ w =>
    let q : Fin 4 := ⟨t.val / 16, by omega⟩
    let line := !bit (w.getD 0 0) 22
    let ix := wF w 0 26 23
    let cell := wF w 0 13 0
    let full := (s.plans.launches.filter (fun l => l.quad == q && l.line == line && l.index == ix)).length ≥ 64 || !takesWork s (.launch q)
    if full then stall s t .issue 0 false
    else engineWord s t p .launch w fun s =>
      let i := instant s t (wF w 1 48 0)
      let late := s.sf * 8000 + ns.val + 1000 > i
      let timed := fun (d : Desc) => d.cell == cell && (if wF w 0 21 20 = 2 then d.timed2 else d.timed3)
      let c := match namedInst s t p timed with
        | some x => x.2
        | none => 0
      let l : Launch :=
        { quad := q, line := line, index := ix, tile := t.val, cell := cell, ciid := c, shard := wF w 0 19 14,
          level := wF w 0 21 20, sf := i / 8000, slot := i % 8000 / 125, late := late }
      let s := { s with plans := { s.plans with launches := s.plans.launches.concat l } }
      if late then tileFlag (raiseFor s (.tile t) 0x0802 0 (tileAttempt s t p)) t 64 else s

/-! ## The tensor unit (R219 to R221) -/

/-- R219: k values of one stationary block for an operand pair. -/
def kBlock (a b : Nat) : Nat :=
  if a = 0x02 || b = 0x02 then 128 else if a = 0x14 && b = 0x14 then 512 else 256

/-- R221: the rows of A as FP32 patterns. -/
def mmaRows (strict : Bool) (mem : List Host.Cell) (a t m k : Nat) : List (Fl (List Nat)) :=
  (List.range m).map fun i => decodeElems strict t k (memBytes mem (a + i * pitch (encSize t k)) (encSize t k))

/-- The flags of decoded rows, at the element of the operand, whose rows hold n each. -/
def rowFlags (n : Nat) (rows : List (Fl (List Nat))) : Flg :=
  (rows.foldl (fun (p : Flg × Nat) r => (p.1.add (r.2.shift p.2), p.2 + n)) (Flg.zero, 0)).1

/-- R221: the columns of B: stored k-contiguous, or as rows in BF16. -/
def mmaCols (strict : Bool) (mem : List Host.Cell) (b t n k : Nat) (bt : Bool) : List (Fl (List Nat)) :=
  if bt then
    let rows := mmaRows strict mem b t k n
    (List.range n).map fun j => (rows.map (fun r => r.1.getD j 0), if j = 0 then rowFlags n rows else Flg.zero)
  else mmaRows strict mem b t n k


/-- MMA: each output element is the dot product of a row of A and a column of B in ascending k, over what C held where ACC
is set. The passes of an MMA (R220) are counted over the blocks of its output, row bands outermost and then column blocks, and in
each over the blocks of k (DESIGN CHOICE, entry 92); `pass` is the ordinal of the first. -/
def mmaRun (strict : Bool) (mem : List Host.Cell) (w : List Nat) (pass : Nat) : List (List Nat) × Flg :=
  let at_ := wF w 0 47 40; let bt_ := wF w 0 55 48
  let m := wF w 3 15 0 + 1; let n := wF w 3 31 16 + 1; let k := wF w 3 55 32 + 1
  let rows := mmaRows strict mem (wF w 0 39 0) at_ m k
  let cols := mmaCols strict mem (wF w 1 39 0) bt_ n k (bit (w.getD 1 0) 41)
  let acc := bit (w.getD 1 0) 40
  let c0 := wF w 2 39 0
  let kb := kBlock at_ bt_
  let cell := fun (i j : Nat) (r c : Fl (List Nat)) =>
    let old := if acc then some (leAt (memBytes mem (c0 + i * pitch (4 * n) + 4 * j) 4) 0 4) else none
    let x := tensorDot (k / 32) old r.1 c.1
    (x.1, x.2.inBlk (pass + (i / 384 * cdiv n 384 + j / 384) * cdiv k kb + x.2.idx / kb))
  let out := (List.range m).map fun i => (List.range n).map fun j =>
    cell i j (rows.getD i ([], Flg.zero)) (cols.getD j ([], Flg.zero))
  let dec := (rowFlags k rows).add (rowFlags (if bit (w.getD 1 0) 41 then 0 else k) cols)
  (out.map (fun r => r.map (·.1)), (out.flatMap id).foldl (fun f x => f.add x.2) dec)

/-- The attempt an operation of a tile belongs to (R198). -/
def opAt (s : State) (t : Fin 64) (p : Plan) (outType : Nat) : OpAt :=
  ⟨p.job, (tileOf s t).step, (tileOf s t).replay, outType, false⟩


/-- MMA (R219 to R221, R187). -/
def execMma (t : Fin 64) (s : State) : Host.Outcome State Fault Refusal :=
  .next <| onWord s t (fun w => wOp w == 0xA) fun p st w =>
    engineWord s t p .tensor w fun s =>
      let r := mmaRun (bit st.mode 2) s.mem w (tileOf s t).pass
      let m := wF w 3 15 0 + 1; let n := wF w 3 31 16 + 1; let k := wF w 3 55 32 + 1
      let passes := cdiv m 384 * cdiv n 384 * cdiv k (kBlock (wF w 0 47 40) (wF w 0 55 48))
      let x := tileOf s t
      let mem := (List.range r.1.length).foldl
        (fun mm i => memPut mm (wF w 2 39 0 + i * pitch (4 * n)) (fp32Bytes (r.1.getD i []))) s.mem
      let s := landTile { s with mem := mem } t r.2 (opAt s t p 0x01)
      setTile s t { tileOf s t with pass := x.pass + passes }

/-! ## The crystalliser (R210) -/

/-- The elements of a CRYS word. -/
def crysN (w : List Nat) : Nat := 32 * wF w 1 63 40

/-- A CRYS word with FP32 result: its source decoded, combined with the destination's FP32 elements. A word has no chunk index: its
INVALIDs are captured under BLOCK 0 (DESIGN CHOICE, entry 92). -/
def crysWord (s : State) (t : Fin 64) (fn : Nat) (f : Bool → List Nat → List Nat → List Nat → Fl (List Nat)) : State :=
  onWord s t (fun w => wOp w == 0xB && wF w 0 55 52 == fn) fun p st w =>
    engineWord s t p .crys w fun s =>
      let strict := bit st.mode 2
      let n := crysN w
      let ty := wF w 0 51 44
      let src := decodeElems strict ty n (memBytes s.mem (wF w 1 39 0) (encSize ty n))
      let r := f strict w (memF32 s.mem (wF w 2 39 0) n) src.1
      landTile { s with mem := memPut s.mem (wF w 2 39 0) (fp32Bytes r.1) } t (src.2.add r.2) (opAt s t p 0x01)

/-- A function of two elements over two lists. -/
def zipFl (f : Nat → Nat → Fl Nat) (x y : List Nat) : Fl (List Nat) :=
  gather ((List.range x.length).map (fun i => f (x.getD i 0) (y.getD i 0)))

/-- CRYS ADD: dst += decode(src). -/
def execCrysAdd (t : Fin 64) (s : State) : Host.Outcome State Fault Refusal :=
  .next (crysWord s t 1 fun strict _ dst src => zipFl (fpAdd strict) dst src)
/-- CRYS LOAD: dst = decode(src). -/
def execCrysLoad (t : Fin 64) (s : State) : Host.Outcome State Fault Refusal :=
  .next (crysWord s t 2 fun _ _ _ src => (src, Flg.zero))
/-- CRYS MAX: dst = max(dst, decode(src)). -/
def execCrysMax (t : Fin 64) (s : State) : Host.Outcome State Fault Refusal :=
  .next (crysWord s t 3 fun strict _ dst src => zipFl (fpPick strict true) dst src)
/-- CRYS MIN: dst = min(dst, decode(src)). -/
def execCrysMin (t : Fin 64) (s : State) : Host.Outcome State Fault Refusal :=
  .next (crysWord s t 4 fun strict _ dst src => zipFl (fpPick strict false) dst src)
/-- CRYS AXPBY: dst = A × dst + B × decode(src), each product and the sum rounded once. -/
def execCrysAxpby (t : Fin 64) (s : State) : Host.Outcome State Fault Refusal :=
  .next (crysWord s t 5 fun strict w dst src => lincomb strict (wF w 3 63 32) (wF w 3 31 0) dst src)
/-- CRYS SCALE: dst = A × src. -/
def execCrysScale (t : Fin 64) (s : State) : Host.Outcome State Fault Refusal :=
  .next (crysWord s t 7 fun strict w _ src => gather (src.map (fpMul strict (wF w 3 63 32))))

/-- CRYS ENCODE: dst = encode(DTYPE, src) under the step's MODE, at point 4 of R190; the word's first element is element 0 of its output
tensor (DESIGN CHOICE, entry 93). -/
def execCrysEncode (t : Fin 64) (s : State) : Host.Outcome State Fault Refusal :=
  .next <| onWord s t (fun w => wOp w == 0xB && wF w 0 55 52 == 6) fun p st w =>
    engineWord s t p .crys w fun s =>
      let dt := wF w 0 43 36
      let src := memF32 s.mem (wF w 1 39 0) (crysN w)
      let r := encodeElems (bit st.mode 2) (st.mode % 4) ⟨st.seed, 4, gw s, wF w 0 35 30, 0⟩ dt src
      landTile { s with mem := memPut s.mem (wF w 2 39 0) r.1 } t r.2 (opAt s t p dt)

/-! ## Kernels (R224 to R228) -/

/-- The scratch space of a kernel, left with contents the spec does not give. -/
def scratch (s : State) (a n : Nat) : List Host.Cell :=
  memPut s.mem a ((List.range n).map (fun i => Config.scratchByte s.sf (a + i)))

/-- A KERNEL word: its effect computes from memory the bytes of Z, the columns it zeroed, each of which raises ORTHO_DEFICIENT (R226),
and its flags; Y is scratch except in EXPAND. -/
def kernelWord (s : State) (t : Fin 64) (kd : Nat)
    (f : State → Plan → PlanStep → List Nat → Bytes × List Nat × Flg × Nat) : State :=
  onWord s t (fun w => wOp w == 0xC && wF w 0 55 52 == kd) fun p st w =>
    if !drained s t then stall s t .sync 0 false
    else engineWord s t p .kernel w fun s =>
      let r := f s p st w
      let ys := match (wordSpans w).2 with
        | [y, _] => scratch s y.1 y.2
        | _ => s.mem
      let s := landTile { s with mem := memPut ys (wF w 2 39 0) r.1 } t r.2.2.1 (opAt s t p r.2.2.2)
      r.2.1.foldl (fun s _ => raiseFor s (.tile t) 0x0803 0 (tileAttempt s t p)) s

/-- R225: KERNEL BASIS. -/
def execKernelBasis (t : Fin 64) (s : State) : Host.Outcome State Fault Refusal :=
  .next <| kernelWord s t 1 fun _ p st w =>
    let r := basis (bit st.mode 2) p.job (wF w 0 31 0) (wF w 3 31 16 + 1) (16 * wF w 3 41 32)
    (fp32Bytes r.1, r.2.1, r.2.2, 0x01)

/-- R224: the output encode of a kernel, under the step's MODE. -/
def kernelEncode (s : State) (st : PlanStep) (w : List Nat) (vs : List Nat) : Bytes × Flg :=
  encodeElems (bit st.mode 2) (st.mode % 4) ⟨st.seed, 4, gw s, wF w 3 55 50, 0⟩ (wF w 3 49 42) vs

/-- R226: KERNEL ORTHO. -/
def execKernelOrtho (t : Fin 64) (s : State) : Host.Outcome State Fault Refusal :=
  .next <| kernelWord s t 2 fun s _ st w =>
    let rows := wF w 3 15 0 + 1; let r := 16 * wF w 3 41 32
    let o := ortho (bit st.mode 2) rows r (memF32 s.mem (wF w 0 39 0) (rows * r))
    let e := kernelEncode s st w o.1
    (e.1, o.2.1, o.2.2.add e.2, wF w 3 49 42)

/-- R227: KERNEL EXPAND. -/
def execKernelExpand (t : Fin 64) (s : State) : Host.Outcome State Fault Refusal :=
  .next <| kernelWord s t 3 fun s _ st w =>
    let rows := wF w 3 15 0 + 1; let cols := wF w 3 31 16 + 1; let r := 16 * wF w 3 41 32
    let strict := bit st.mode 2
    let ph := decodeElems strict 0x02 (rows * r) (memBytes s.mem (wF w 0 39 0) (2 * rows * r))
    let qn := decodeElems strict 0x02 (cols * r) (memBytes s.mem (wF w 1 39 0) (2 * cols * r))
    let a := expand rows cols r ph.1 qn.1
    (fp32Bytes a.1, [], (ph.2.add qn.2).add a.2, 0x01)

/-- R228: KERNEL NS5. -/
def execKernelNs5 (t : Fin 64) (s : State) : Host.Outcome State Fault Refusal :=
  .next <| kernelWord s t 4 fun s _ st w =>
    let rows := wF w 3 15 0 + 1; let cols := wF w 3 31 16 + 1
    let o := ns5 (bit st.mode 2) rows cols (memF32 s.mem (wF w 0 39 0) (rows * cols))
    let e := kernelEncode s st w o.1
    (e.1, [], o.2.add e.2, wF w 3 49 42)

/-! ## The plan buffer and the boundary -/

/-- TILE_STEP_BEGIN (R215): the tile begins its next step where it may; a tile held at the boundary is charged as
back-starved (R475). -/
def execTileStepBegin (t : Fin 64) (s : State) : Host.Outcome State Fault Refusal :=
  let x := tileOf s t
  .next (if x.todo.isSome && mayBegin s t then beginStep s t
    else if x.seq = .boundary && x.active then charge s t 0 0 0 4 0 else s)

/-- PLAN_BUFFER_COPY_DONE (R215): the stream of the next step stands in the idle half of the plan buffer. -/
def execPlanBufferCopyDone (t : Fin 64) (s : State) : Host.Outcome State Fault Refusal :=
  let x := tileOf s t
  .next (match tileStep s t with
    | some (p, st) => if issuing s t && hasNext s t p st then setTile s t { x with bufFull := true } else s
    | none => s)

/-! ## Power (R229, R231) -/

/-- RAMP_START (R229): the first declared ramp whose start has come replaces the running one. -/
def execRampStart (s : State) : Host.Outcome State Fault Refusal :=
  .next (match s.power.queued.find? (fun r => r.start ≤ s.sf) with
    | none => s
    | some r => { s with power := { s.power with running := some r, lastRamp := r,
                                                 queued := s.power.queued.erase r } })

/-- PWR_CAP_UNMET (R231): once each second while module power stays above PWR_CAP after both measures. -/
def execPwrCapUnmet (s : State) : Host.Outcome State Fault Refusal :=
  let p := s.power
  let due := match p.overSf with
    | some f => decide (s.sf ≥ f + 125000)
    | none => true
  .next (if p.module > 10 * s.i3c.cap && p.ceil = 0 && p.throttle ≤ 25 && due then
      raise { s with power := { p with overSf := some s.sf } } .pwr 0x0805 0
    else s)

end Sys2Proof.Machine
end

