-- ==== Sys2Proof/Machine/Messages.lean ====
section
/-! DEFINITION. Machine/Messages.lean: control messages (R295) and recovery messages (R424 to R426) between gateways: their
checks, duplicates, the way to the master and from it, and the quorum of a master (R428). -/
namespace Sys2Proof.Machine
open Sys2Proof

/-! ## Checks -/

/-- R295: whether a control message meets its table. -/
def ctlOk (m : Ctl) : Bool :=
  let t := m.ctype.toNat
  let inst := t == 1 || t == 2
  m.cver == 2 && 1 ≤ t && t ≤ 7 && m.rsvd1 == 0 && m.rsvd2 == 0 && m.rsvd3 == 0 && m.rsvd4 == 0 &&
  m.check.toNat == crc32c (ctlBody m) &&
  (if inst then m.state == 5 || m.state == 6 || m.state == 7 else m.state == 0) &&
  (inst || ciidOrd m.ciid == 0) && (t < 5 || m.ciid.toNat % 2 ^ 48 == 0) &&
  (t == 5 || t == 6 || m.epoch == 0) && (t ∈ [1, 2, 4, 6] || m.sf == 0) && (t == 1 || t == 5 || m.digest == 0)

/-- R424: whether a recovery message meets its table. -/
def rcvOk (m : Rcv) : Bool :=
  let k := m.mkind.toNat
  0x10 ≤ k && k ≤ 0x16 && m.mver == 1 && 1 ≤ m.ttl.toNat && m.ttl.toNat ≤ 32 && m.level.toNat ≤ 5 &&
  ciidOrd m.ciid == 0 && m.rsvd1 == 0 && m.rsvd2 == 0 && m.check.toNat == crc32c (rcvBody m) &&
  (if k = 0x15 then m.arg.toNat ≤ 3 else k == 0x16 || m.arg == 0) &&
  (match k with
   | 0x12 | 0x13 => m.value.toNat < 2 ^ 24
   | 0x14 | 0x15 | 0x16 => true
   | _ => m.value == 0) &&
  ((k == 0x16 && m.arg == 2) || m.matrix == 0)

/-- R317, R498: the LINE page on which a malformed message is captured. -/
def badPage : RecVia → PageId
  | .site d => .line (quadOf d.port)
  | .link g _ => .line g
  | .own => .rseq

/-- R421, R424: whether a message about a job names a step attempt. Step 0 under count 0, and the count 0xFF that no CIID
carries (R16), name none. -/
def namesStep (c : BitVec 64) : Bool := c.toNat % 2 ^ 48 != 0 && ciidReplay c != 0xFF

/-! ## The gateways of the domain -/

/-- R436, R440: the roster's entries stand in the RSEQ roster registers: state 0 NONE, 1 ACTIVE, 2 PROVING, 3 RETIRED, and
the fingerprint. -/
def rosterSt (s : State) (g : Nat) : Nat := fldB s .rseq 0x64 g 1 0
def rosterFp (s : State) (g : Nat) : Nat := fldB s .rseq 0x68 g 31 0 + fldB s .rseq 0x6C g 31 0 * 2 ^ 32

/-- The gateways that the roster lists in a state that meets a condition. -/
def rosterGws (s : State) (f : Nat → Bool) : List Nat :=
  ((pageOf s .rseq).regs.filter (fun e => e.1.1 == 0x64 && f (e.2.toNat % 4))).map (·.1.2)

/-- The gateways of the job: those ACTIVE in the roster, this one included. -/
def activeGws (s : State) : List Nat :=
  let l := rosterGws s (· == 1)
  if l.contains (gw s) then l else gw s :: l

/-- The other gateways of this gateway's site. -/
def siteGateways (s : State) : List Nat :=
  (rosterGws s (fun x => x == 1 || x == 2)).filter (fun g => g / 64 == site s && g != gw s)

/-- R391: superframes of an audit period. -/
def auditPeriod : Nat := 1024

/-- R428: whether a gateway's LIVE came within the last 4 audit periods. -/
def isLive (s : State) (g : Nat) : Bool :=
  match mget? s.rseq.live g with
  | some e => decide (s.sf ≤ e.1 + 4 * auditPeriod)
  | none => false

/-- R428: whether the master holds quorum. -/
def quorum (s : State) : Bool :=
  s.lt.st == .master && decide (2 * ((activeGws s).filter (isLive s)).length > (activeGws s).length)

/-! ## From the master -/

def upLinks (s : State) : List LinkId := allLinks.filter (linkUp s)

/-- R426: a message relayed on every UP link but the one it arrived on, and to every gateway of the site. -/
def flood (s : State) (m : Msg) (via : RecVia) : State :=
  let skip : Option LinkId := match via with | .link g l => some (g, l) | _ => none
  let s := ((upLinks s).filter (fun l => some l != skip)).foldl (fun s l => sendLink s l m) s
  (siteGateways s).foldl (fun s g => sendSite s g m) s

/-- R426: the master floods a message and applies it itself. -/
def masterSends (s : State) (m : Msg) : State :=
  let s := flood s m .own
  { s with rseq := { s.rseq with loop := s.rseq.loop ++ [m] } }

/-! ## Arrival -/

/-- R86, R305, R380: whether a unit stands where it is said to come from, and the state after it is taken there: a datagram
of n bytes that is not for the gateway's port is dropped and counted, the PEER class is policed, and a unit of a link leaves its
channel. -/
def takeIn (s : State) (via : RecVia) (port n : Nat) (u : LUnit) : State × Bool :=
  match via with
  | .site d => peerIn s d port n
  | .link g l => match takeUnit s (g, l) u with
    | some s => (s, true)
    | none => (s, false)
  | .own => (s, false)

/-- How a message came in: the state after its unit, datagram or own copy is taken, and whether there was one. -/
def takeMsg (s : State) (via : RecVia) (m : Msg) : State × Bool :=
  if via = .own then
    (if s.rseq.loop.contains m then ({ s with rseq := { s.rseq with loop := s.rseq.loop.erase m } }, true) else (s, false))
  else match m with
    | .ctl c => takeIn s via (peerPort s) 48 (.ctl c)
    | .rcv r => takeIn s via (peerPort s) 64 (.rcv r)

/-- R428: a message held by a master without quorum as not yet received. -/
def holdMsg (s : State) (m : Msg) : State := { s with rseq := { s.rseq with held := s.rseq.held ++ [m] } }

/-- R428: the messages held are received once there is quorum. -/
def freeHeld (s : State) : State :=
  if quorum s then { s with rseq := { s.rseq with loop := s.rseq.loop ++ s.rseq.held, held := [] } } else s

/-- R426, R428: a control message from its arrival: forwarded toward the master, held, or relayed, and whether the gateway
acts on it. `toMaster` marks the types that the master receives. -/
def arriveCtl (via : RecVia) (m : Ctl) (toMaster : Bool) (s : State) : State × Bool :=
  match takeMsg s via (.ctl m) with
  | (s, false) => (s, false)
  | (s, true) =>
    if !ctlOk m then (raise s (badPage via) 0x2B01 0, false)
    else if toMaster then
      if s.lt.st ≠ .master then (sendMaster s (.ctl m), false)
      else if !quorum s then (holdMsg s (.ctl m), false)
      else (s, true)
    else if s.rseq.ctls.contains m then (s, false)
    else
      let s := { s with rseq := { s.rseq with ctls := m :: s.rseq.ctls } }
      (if via = .own then s else flood s (.ctl m) via, true)

/-- R424: a relayed copy: one TTL less, CHECK computed again. -/
def relayed (m : Rcv) : Option Rcv := if m.ttl.toNat ≤ 1 then none else some (sealRcv { m with ttl := m.ttl - 1 })

/-- R424, R426: a recovery message from its arrival. A master holds RECOVER_REQ and RECOVER_DONE until it has quorum. -/
def arriveRcv (via : RecVia) (m : Rcv) (toMaster : Bool) (s : State) : State × Bool :=
  match takeMsg s via (.rcv m) with
  | (s, false) => (s, false)
  | (s, true) =>
    let key := (m.srcGw.toNat, m.mkind.toNat, m.serial.toNat)
    if !rcvOk m then (raise s (badPage via) 0x2B01 0, false)
    else if via ≠ .own && s.rseq.dups.contains key then (s, false)
    else
      let s := { s with rseq := { s.rseq with dups := if s.rseq.dups.contains key then s.rseq.dups else key :: s.rseq.dups } }
      if toMaster then
        if s.lt.st ≠ .master then (match relayed m with | some r => (sendMaster s (.rcv r), false) | none => (s, false))
        else if !quorum s && (m.mkind == 0x10 || m.mkind == 0x12) then (holdMsg s (.rcv m), false)
        else (s, true)
      else if via = .own then (s, true)
      else (match relayed m with | some r => (flood s (.rcv r) via, true) | none => (s, true))

end Sys2Proof.Machine
end

