-- ==== Sys2Proof/Machine/Master.lean ====
section
/-! DEFINITION. Machine/Master.lean: the recoveries that the line time master directs (R417 to R423, R427, R437): requests,
their beginning and their end; the level at a gateway. -/
namespace Sys2Proof.Machine
open Sys2Proof

def jobRec (s : State) (job : Nat) : JobRec := mget s.rseq.jobs job JobRec.none
def setJobRec (s : State) (job : Nat) (r : JobRec) : State :=
  { s with rseq := { s.rseq with jobs := mset s.rseq.jobs job r } }

/-- The place of a plan slot among those in force, the older first (R208). -/
def slotAge (st : SlotSt) : Nat := match st with | .done => 0 | .held => 1 | .active => 2 | _ => 3

/-- R16: where a step of a job stands in the plans in force: the age of the newest slot that holds it, the slot, its place there. -/
def planPos (s : State) (job step : Nat) : Option (Nat × Nat × Nat) :=
  let at_ := fun (i : Nat) => match (slotOf s i).plan with
    | some p => if p.job = job && inForce (slotOf s i) && (p.stepOf step).isSome then
        some (slotAge (slotOf s i).st, i, (step + 2 ^ 24 - p.first) % 2 ^ 24) else none
    | none => none
  match at_ 0, at_ 1 with
  | some a, some b => some (if a.1 < b.1 then b else a)
  | some a, none => some a
  | none, b => b

/-- R16: plan order of the steps of a job: whether step a stands before step b. Steps that no plan in force orders stand as their
numbers follow each other (DEDUCED, entry 100). -/
def stepBefore (s : State) (job a b : Nat) : Bool :=
  let near := a != b && decide ((b + 2 ^ 24 - a) % 2 ^ 24 < 2 ^ 23)
  match planPos s job a, planPos s job b with
  | some p, some q => if p.1 ≠ q.1 then decide (p.1 < q.1) else if p.2.1 = q.2.1 then decide (p.2.2 < q.2.2) else near
  | _, _ => near

/-- R56, R420, R434: a level change at this gateway. -/
def setLevel (s : State) (job level code subject : Nat) (att : BitVec 64) : State :=
  let old := mget s.rseq.level job 0
  if old = level then s
  else
    let s := { s with rseq := { s.rseq with level := mset s.rseq.level job level } }
    let s := notify (raise s .rseq 0x0701 0) 2
    logPush s { sf := s.sf, code := code, kind := 1, level := level, page := fld (pageAddr .rseq) 27 12, info := 0,
                serial := s.rseq.serial, ciid := att,
                extra := beBytes 1 old ++ beBytes 1 level ++ beBytes 2 subject ++ List.replicate 28 0 }

/-- R436: the log entry of a roster entry. -/
def logRoster (s : State) (g : Nat) (e : RosterEnt) : State :=
  logPush s { sf := s.sf, code := 0, kind := 4, level := 0, page := fld (pageAddr .rseq) 27 12, info := 0,
              serial := s.rseq.serial, ciid := 0,
              extra := beBytes 1 e.st ++ [0] ++ beBytes 2 g ++ beBytes 8 e.fp.toNat ++ List.replicate 20 0 }

/-- R436: a roster entry set, with its log entry. -/
def setRoster (s : State) (g : Nat) (e : RosterEnt) : State :=
  let s := setFldB s .rseq 0x64 g 1 0 e.st
  let s := setFldB s .rseq 0x68 g 31 0 (e.fp.toNat % 2 ^ 32)
  let s := setFldB s .rseq 0x6C g 31 0 (e.fp.toNat / 2 ^ 32)
  logRoster s g e

/-- The next serial of this gateway's own messages (R424). -/
def nextSerial (s : State) : State × Nat :=
  ({ s with rseq := { s.rseq with msgSerial := s.rseq.msgSerial + 1 } }, s.rseq.msgSerial + 1)

/-- R436: a roster entry of the master flooded as ROSTER. -/
def floodRoster (s : State) (g : Nat) (e : RosterEnt) : State :=
  let r := nextSerial s
  masterSends r.1 (.rcv (sealRcv (mkRcv r.1 0x15 0xFFFF 0 r.2 0 0 g e.st r.1.sf e.fp.toNat 0)))

/-- The oldest step of a job that has begun at this gateway and is not committed. -/
def oldestOf (s : State) (job : Nat) : Option Nat :=
  let f := fun (x : Slot) => match x.plan with
    | some p => if p.job = job then x.begun.filter (fun st => !committed s job st) else []
    | none => []
  match f s.plans.slot0 ++ f s.plans.slot1 with
  | [] => none
  | a :: l => some (l.foldl (fun b x => if stepBefore s job x b then x else b) a)

/-- The latest step of a job, in plan order, that this gateway has begun (R424); 0 where it has begun none. -/
def latestOf (s : State) (job : Nat) : Nat :=
  let f := fun (x : Slot) => match x.plan with
    | some p => if p.job = job then x.begun else []
    | none => []
  match f s.plans.slot0 ++ f s.plans.slot1 with
  | [] => 0
  | a :: l => l.foldl (fun b x => if stepBefore s job b x then x else b) a

/-- R421: whether a request names a step attempt that an ended recovery rolled back, or a committed step. -/
def covered (s : State) (job : Nat) (r : JobRec) (c : BitVec 64) : Bool :=
  committed s job (ciidStep c) ||
  r.cover.any (fun k => !stepBefore s job (ciidStep c) k.1 && !stepBefore s job k.2.1 (ciidStep c) && ciidReplay c < k.2.2)

/-- R421: a request that is not begun is logged. -/
def noteWait (s : State) : State := raise s .rseq 0x0702 0

/-- R423: the oldest uncommitted step that the master knows of, with a request's own step. -/
def rollFrom (s : State) (job : Nat) (c : BitVec 64) : Nat :=
  let named := if namesStep c && !committed s job (ciidStep c) then [ciidStep c] else []
  let known := ((jobRec s job).started.filter (fun e => !committed s job e.2)).map (·.2)
  match (match oldestOf s job with | some z => [z] | none => []) ++ named ++ known with
  | [] => ciidStep c
  | a :: l => l.foldl (fun b x => if stepBefore s job x b then x else b) a

/-- R423: the highest count of a step that this gateway has begun. -/
def ownCount (s : State) (job z : Nat) : Nat :=
  (s.plans.tried ++ s.plans.rolled).foldl (fun m k => if k.1 = job ∧ k.2.1 = z then max m k.2.2 else m) 0

/-- R420, R423, R437: the master begins a recovery: it assigns the count, retires the subject of level 4, and floods
RECOVER; a count beyond its limit makes it level 5, whose CIID carries no count above 0xFE (R16). -/
def beginRecovery (s : State) (job : Nat) (e : SeqEvent) : State :=
  let r := jobRec s job
  let z := rollFrom s job e.ciid
  let seen := max (max (mget r.maxCount z 0) (ownCount s job z)) (if namesStep e.ciid && ciidStep e.ciid == z then ciidReplay e.ciid else 0)
  let count := min (seen + 1) 0xFE
  let above := e.level < 5 && (seen + 1 > fldV s .rseq 0x4C 7 0 || seen + 1 > 0xFE)
  let s := if above then raiseFor s .rseq 0x3704 0 (mkCiid job z 0 (min seen 0xFE)) else s
  let level := if above then 5 else e.level
  let code := if above then 0x3704 else e.code
  let serial := s.rseq.serial + 1
  let s := { s with rseq := { s.rseq with serial := serial } }
  let r := { jobRec s job with level := level, code := code, subject := e.subject, serial := serial, step := z,
                               count := count, startSf := s.sf, done := [] }
  let s := setJobRec s job r
  let s := if level = 4 then
      let ent : RosterEnt := ⟨3, BitVec.ofNat 64 (rosterFp s e.subject)⟩
      floodRoster (setRoster s e.subject ent) e.subject ent
    else s
  let s := if level = 4 then { s with rseq := { s.rseq with prove := { Prove.none with subject := e.subject } } } else s
  masterSends s (.rcv (sealRcv (mkRcv s 0x11 0xFFFF level serial code (mkCiid job z 0 count) e.subject 0 s.sf 0 0)))

/-- R421: a request taken by the master. -/
def masterRequest (s : State) (e : SeqEvent) : State :=
  let job := ciidJob e.ciid
  let r := jobRec s job
  let names := namesStep e.ciid
  if e.level < 5 && names && covered s job r e.ciid then noteWait s
  else if e.level = 3 && !names && (oldestOf s job).isNone && r.started.all (fun x => committed s job x.2) then noteWait s
  else if r.level = 0 || e.level > r.level then beginRecovery s job e
  else noteWait (setJobRec s job { r with waiting := r.waiting ++ [e] })

/-- The first of the waiting requests of the highest level (R421). -/
def nextWaiting (l : List SeqEvent) : Option SeqEvent :=
  match l with
  | [] => none
  | a :: m => some (m.foldl (fun b x => if x.level > b.level then x else b) a)

/-- R421: a recovery ends: waiting requests that it covers are discarded, and the highest remaining one begins. -/
def endRecovery (s : State) (job last : Nat) : State :=
  let r := jobRec s job
  let all := r.level = 5
  let r := { r with level := 0, cover := r.cover ++ [(r.step, last, r.count)] }
  let gone := r.waiting.filter (fun e => namesStep e.ciid && (all || covered s job r e.ciid))
  let rest := r.waiting.filter (fun e => !(namesStep e.ciid && (all || covered s job r e.ciid)))
  let s := gone.foldl (fun s _ => noteWait s) (setJobRec s job { r with waiting := rest })
  match nextWaiting rest with
  | none => s
  | some e => beginRecovery (setJobRec s job { jobRec s job with waiting := rest.erase e }) job e

/-- R427 order 3: RESUME is launched: Rz = L + D + 64, with the step y of R423; the recovery ends with it. -/
def launchResume (s : State) (job : Nat) : State :=
  let r := jobRec s job
  let y := r.done.foldl (fun b e => if stepBefore s job b e.2 then e.2 else b) r.step
  let rz := s.sf + s.lt.d + 64
  let s := masterSends s (.rcv (sealRcv
    (mkRcv s 0x13 0xFFFF r.level r.serial r.code (mkCiid job r.step 0 r.count) r.subject 0 rz y 0)))
  endRecovery s job y

/-- The gateways whose RECOVER_DONE a recovery waits for: every gateway of the job that is not lost, apart from the subject of
level 4 (R427, R437). -/
def awaited (s : State) (r : JobRec) : List Nat :=
  (activeGws s).filter (fun g => !s.rseq.lost.contains g && !(r.level == 4 && g == r.subject))

/-- R427, R430: what follows once every gateway has reported: RESUME at level 3; at level 4 once the candidate has passed
proving; at level 5 the level returns to 0. -/
def checkDone (s : State) (job : Nat) : State :=
  let r := jobRec s job
  if r.level < 3 || !(awaited s r).all (fun g => (mget? r.done g).isSome) then s
  else if r.level = 3 then launchResume s job
  else if r.level = 4 then (if s.rseq.prove.phase = 4 then launchResume s job else s)
  else setLevel (endRecovery s job r.step) job 0 r.code r.subject (mkCiid job r.step 0 r.count)

end Sys2Proof.Machine
end

