-- ==== Sys2Proof/Machine/Collect.lean ====
section
/-! DEFINITION. Machine/Collect.lean: acknowledgement and resend of results (R98, R99), delivery (R97, R135), waits and
harvest (R126, R132, R168), records of reduction as commands (R152 to R154), failure decisions (R130, R131), and
cross-checks with their referee (R171, R431). -/
namespace Sys2Proof.Machine
open Sys2Proof

/-! ## Pulls (R100) -/

def putPull (s : State) (p : Pull) : State :=
  { s with fab := { s.fab with pulls := s.fab.pulls.map (fun y => if y.seq = p.seq then p else y) } }

/-- R97, R100: one chunk of a pull sent to its node. -/
def pullResult (s : State) (p : Pull) (o : OwedChunk) (resent : Bool) : State :=
  sendTo s p.org p.vc
    { Header.zero with opcode := 0x81, stream := p.hdr.stream, ciid := p.hdr.ciid, reqTag := p.hdr.reqTag,
                       flags := (if resent then 2 else 0) + (if o.poison.isSome then 1 else 0),
                       chunkIndex := BitVec.ofNat 32 o.idx, chunkCount := p.hdr.chunkCount, elemType := p.hdr.elemType,
                       status := BitVec.ofNat 16 (o.poison.getD 0) } o.bytes

/-- R100: a pull is harvested once its COMPLETE has gone and every chunk has been acknowledged. -/
def harvestPull (s : State) (seq : Nat) : State :=
  sweepImages { s with fab := { s.fab with pulls := s.fab.pulls.filter (fun p =>
      !(p.seq == seq && p.completed && p.chunks.all (fun o => o.acked))) } }

/-- The pull that an ACK or RESEND names by its REQ_TAG (R94). -/
def namedPull (s : State) (k : Ctx) : Option Pull :=
  s.fab.pulls.find? (fun p => p.org == k.org && p.hdr.reqTag == k.h.reqTag && p.peer.isNone)

/-! ## ACK and RESEND -/

/-- The chunks a range names. -/
def inRange_ (h : Header) (i : Nat) : Bool := h.chunkIndex.toNat ≤ i && i < h.chunkIndex.toNat + h.chunkCount.toNat

/-- R98: the first refusal of an ACK or RESEND of an instance, or 0. -/
def ackRefusal (x : Placed) (h : Header) (vc : Nat) : Nat :=
  let rank := h.member.toNat
  if vc ≠ (if x.desc.fast then 0 else 1) then 0x2205
  else if rank ≥ x.desc.n then 0x2206
  else if !x.desc.ranks.contains rank then 0x2501
  else if h.chunkIndex.toNat + h.chunkCount.toNat > owedChunks x rank then 0x2207
  else 0

/-- R98: ACK and RESEND of an instance: `f` acts on the chunks owed to the rank. -/
def onInstance (k : Ctx) (s : State) (f : State → Placed → Nat → State) : State × Disp :=
  let c := k.h.ciid
  match attempt s c, findInst s c with
  | .now, some x =>
    let ir := instRec s c
    let cl := cellOf s x.desc.cell
    let bad := ackRefusal x k.h (k.h.vc.toNat % 4)
    if ir.harvested then (s, .refuse 0x220D)
    else if bad ≠ 0 then (s, .refuse bad)
    else if ir.decided.isSome || cl.ciid ≠ c || isErr cl.st then (s, .done 0)
    else (f s x k.h.member.toNat, .done 0)
  | _, _ => (s, .refuse 0x220D)

/-- R98: ACK and RESEND of a pull. -/
def onPull (k : Ctx) (s : State) (f : State → Pull → State) : State × Disp :=
  match namedPull s k with
  | none => (s, .refuse 0x220D)
  | some p =>
    if k.h.vc.toNat % 4 ≠ vcNum p.vc then (s, .refuse 0x2205)
    else if k.h.chunkIndex.toNat < p.first ||
        k.h.chunkIndex.toNat + k.h.chunkCount.toNat > p.first + p.total then (s, .refuse 0x2207)
    else (f s p, .done 0)

/-- R98: ACK. -/
def ackCore (k : Ctx) (s : State) : State × Disp :=
  let mark := fun (o : OwedChunk) => if inRange_ k.h o.idx && o.sends > 0 then { o with acked := true } else o
  if k.h.aux = 1 then
    onPull k s fun s p => harvestPull (putPull s { p with chunks := p.chunks.map mark }) p.seq
  else
    onInstance k s fun s x rank =>
      let cl := cellOf s x.desc.cell
      let os := (mget cl.deliv rank []).map mark
      tryHarvest (setCell s x.desc.cell { cl with deliv := if os.isEmpty then cl.deliv else mset cl.deliv rank os }) x k.h.ciid


/-- R98, R99, R167: one result chunk of a rank sent again, after its VALUE_CHECKs are compared; a sending after the eighth
does not restart the timer. -/
def resendChunk (x : Placed) (c : BitVec 64) (rank : Nat) (s : State) (idx : Nat) : State :=
  let cell := x.desc.cell
  let cl := cellOf s cell
  let os := mget cl.deliv rank []
  match os.find? (fun o => o.idx == idx), mget? cl.bound rank with
  | some o, some dst =>
    let lo := (owedSpan x rank).getD (0, 0)
    if isErr cl.st then s
    else if !rangeIntact x cl (lo.1 + idx * x.desc.outChunk) o.bytes.length then taint s cell c 1 0 (cellTile cell).val
    else
      let o' := { o with sends := o.sends + 1, sf := if o.sends < 8 then s.sf else o.sf }
      let s := setCell s cell { cl with deliv := mset cl.deliv rank (os.map (fun y => if y.idx = idx then o' else y)) }
      sendResult s x c rank dst os.length o true
  | _, _ => s

/-- R98: one chunk of a pull sent again, or left to its first sending where it has not gone. -/
def resendPull (seq : Nat) (s : State) (idx : Nat) : State :=
  match s.fab.pulls.find? (fun p => p.seq == seq) with
  | none => s
  | some p =>
    match p.chunks.find? (fun o => o.idx == idx) with
    | none => s
    | some o =>
      if o.sends = 0 then s
      else
        let o' := { o with sends := o.sends + 1, sf := if o.sends < 8 then s.sf else o.sf }
        pullResult (putPull s { p with chunks := p.chunks.map (fun y => if y.idx = idx then o' else y) }) p o true

/-- R98: RESEND. -/
def resendCore (k : Ctx) (s : State) : State × Disp :=
  let idxs := (List.range k.h.chunkCount.toNat).map (· + k.h.chunkIndex.toNat)
  if k.h.aux = 1 then onPull k s fun s p => idxs.foldl (resendPull p.seq) s
  else onInstance k s fun s x rank => idxs.foldl (resendChunk x k.h.ciid rank) s

/-- A header by which the gateway answers a consumer about a pull. -/
def pullEcho (p : Pull) (status : Nat) : Header := echo p.hdr status

/-- R99: the TM page of the quadrant that reaches a source. -/
def tmOf (s : State) (org : Origin) : PageId :=
  match srcOf s org with
  | some x => .tm (quadOf x.port)
  | none => .tm 0

/-- R99, R112, R462: whether a chunk's 200 µs (25 superframes) without an acknowledgement have passed; a chunk owed to a window
queue has none of this timing. -/
def resendDue (s : State) (o : OwedChunk) (org : Origin) : Bool :=
  !o.acked && !o.silent && o.sends ≥ 1 && decide (s.sf ≥ o.sf + 25) && (match org with | .win _ => false | .fabric _ _ => true)

/-- RESULT_RESEND_TIMER (R99): a chunk unacknowledged for 200 µs is sent again, up to 8 sendings; then CONSUMER_SILENT. -/
def execResultResendTimer (dst : OwedTo) (chunk : Nat) (s : State) : Host.Outcome State Fault Refusal :=
  .next (match dst with
    | .cell cell rank =>
      let cl := cellOf s cell.val
      let r := rank.toNat
      match findInst s cl.ciid, (mget cl.deliv r []).find? (fun o => o.idx == chunk), mget? cl.bound r with
      | some x, some o, some b =>
        if cl.st ≠ .complete || !resendDue s o b.1 then s
        else if o.sends < 8 then resendChunk x cl.ciid r s chunk
        else
          let os := (mget cl.deliv r []).map (fun y => if y.idx = chunk then { y with silent := true, sf := s.sf } else y)
          let s := setCell s cell.val { cl with deliv := mset cl.deliv r os }
          memberComplete (raiseFor s (tmOf s b.1) 0x2211 0 cl.ciid) x cl.ciid r b 0x2211 0
      | _, _, _ => s
    | .pull seq =>
      match s.fab.pulls.find? (fun p => p.seq == seq) with
      | none => s
      | some p =>
        match p.chunks.find? (fun o => o.idx == chunk) with
        | none => s
        | some o =>
          if !resendDue s o p.org then s
          else if o.sends < 8 then resendPull seq s chunk
          else
            let os := p.chunks.map (fun y => if y.idx = chunk then { y with silent := true, sf := s.sf } else y)
            sendComplete (raise (putPull s { p with chunks := os }) (tmOf s p.org) 0x2211 0) p.org p.hdr 0x2211 [])

/-! ## Delivery, waits, harvest -/

/-- RESULT_DELIVERY (R97, R135): a COMPLETE cell delivers to each consumer; a fast instance's interval is recorded, and
counted late beyond LIMIT. -/
def execResultDelivery (cell : Fin 16384) (ns : Nat) (s : State) : Host.Outcome State Fault Refusal :=
  let cl := cellOf s cell.val
  let q := cellQuad cell.val
  .next (match findInst s cl.ciid with
    | none => s
    | some x =>
      if cl.st ≠ .complete || x.desc.ranks.all (fun r => cl.answered.contains r) then s
      else
        let s := x.desc.ranks.foldl (deliverTo x cl.ciid) s
        let s := if isFastCell cell.val then
            let p := pageOf s (.ffe q)
            let m := max (mget p.latch 0x48 0).toNat (min ns 0xFFFF)
            let s := setPage s (.ffe q) { p with latch := mset p.latch 0x48 (BitVec.ofNat 32 m) }
            if ns > fldV s (.ffe q) 0x44 10 0 then raiseCell (count s (.ffe q) 1 1) cell.val 0x0502 0 cl.ciid else s
          else s
        tryHarvest s x cl.ciid)

/-- CELL_WAIT_TIMEOUT (R132, R139): the wait limit ends before every input is taken. -/
def execCellWaitTimeout (cell : Fin 16384) (s : State) : Host.Outcome State Fault Refusal :=
  let cl := cellOf s cell.val
  .next (match findInst s cl.ciid with
    | none => s
    | some x =>
      let l := x.desc.waitLimit
      if (cl.st ≠ .armed && cl.st ≠ .gathering) || cl.stopped || l = 0 || s.sf < cl.armSf + l + 1 then s
      else
        let n := inputCounts x (gw s) cl
        enterError s cell.val cl.ciid .timeout 0 (min 0xFFFF (n.1 - n.2)))


/-- CELL_FREE_AFTER_HARVEST (R126): 64 superframes after its harvest the cell is FREE, and the inputs held for it are
taken (R123). -/
def execCellFreeAfterHarvest (cell : Fin 16384) (s : State) : Host.Outcome State Fault Refusal :=
  let cl := cellOf s cell.val
  .next (if cl.st ≠ .harvested || s.sf < cl.harvSf + 64 then s
    else
      let s := setInst s cl.ciid { instRec s cl.ciid with bound := cl.bound }
      takeHeld (armOpen (setCell s cell.val Cell.free) cell.val) cell.val)

/-- HARVEST_RECHECK_DONE (R168): the re-check ends. -/
def execHarvestRecheckDone (cell : Fin 16384) (s : State) : Host.Outcome State Fault Refusal :=
  let cl := cellOf s cell.val
  .next (match findInst s cl.ciid with
    | none => s
    | some x => if cl.recheck && owesNothing s x cl.ciid then harvestCell s x cl.ciid else s)

/-! ## Records -/

/-- A record of the kind that a command names. -/
def onKind (k : Nat) (via : RecVia) (r : Record) (s : State) : State :=
  if r.hdr.kind.toNat = k then recordRx via r s else s

/-- PARTIAL_RX (R152, R153). -/
def execPartialRx (via : RecVia) (r : Record) (s : State) : Host.Outcome State Fault Refusal := .next (onKind 1 via r s)
/-- FINAL_RX (R152, R160). -/
def execFinalRx (via : RecVia) (r : Record) (s : State) : Host.Outcome State Fault Refusal := .next (onKind 2 via r s)
/-- MARK_RX (R152, R160). -/
def execMarkRx (via : RecVia) (r : Record) (s : State) : Host.Outcome State Fault Refusal := .next (onKind 3 via r s)
/-- RACK_RX (R153). -/
def execRackRx (via : RecVia) (r : Record) (s : State) : Host.Outcome State Fault Refusal := .next (onKind 4 via r s)
/-- RRESEND_RX (R153). -/
def execRresendRx (via : RecVia) (r : Record) (s : State) : Host.Outcome State Fault Refusal := .next (onKind 5 via r s)

/-- RACK_GATHER_EXPIRY (R153): the RACKs gathered at a cell go out. -/
def execRackGatherExpiry (cell : Fin 16384) (s : State) : Host.Outcome State Fault Refusal :=
  .next (match findInst s (cellOf s cell.val).ciid with
    | none => s
    | some x => if (cellOf s cell.val).racks.isEmpty then s else flushRacks s x)

/-- RECORD_RESEND_TIMER (R154): a record unacknowledged for 100 µs (13 superframes) on the site fabric, or for
2 × D + 16 superframes on the line, is sent again, or PEER_SILENT raised after the eighth sending. -/
def execRecordResendTimer (cell : Fin 16384) (i : Nat) (s : State) : Host.Outcome State Fault Refusal :=
  let cl := cellOf s cell.val
  .next (match findInst s cl.ciid, cl.kept[i]? with
    | some x, some k =>
      let due := if k.line.isSome then k.sf + 2 * s.lt.d + 16 else k.sf + 13
      if isErr cl.st || k.acked || s.sf < due then s else resendKept s x k
    | _, _ => s)

/-! ## Decisions (R130, R131) -/

/-- FAIL_NOTICE_RX (R130): the master notes a failure notice, and opens a window on the first. -/
def execFailNoticeRx (via : RecVia) (m : Ctl) (s : State) : Host.Outcome State Fault Refusal :=
  .next (if m.ctype ≠ 1 then s else
    let r := arriveCtl via m true s
    let s := r.1
    if !r.2 then s
    else
      let st := stOf m.state.toNat
      let set := fun (w : Window) =>
        { s with coll := { s.coll with windows := mset s.coll.windows m.ciid w } }
      match mget? s.coll.windows m.ciid with
      | none => set ⟨s.sf, s.lt.d, [st], none, 0⟩
      | some w => if w.decided.isSome then set { w with late := w.late + 1 }
                  else set { w with notices := w.notices.concat st })

/-- R131: MISMATCH before TAINTED before TIMEOUT. -/
def decide_ (l : List CellSt) : CellSt :=
  if l.contains .mismatch then .mismatch else if l.contains .tainted then .tainted else .timeout

/-- DECISION_WINDOW_EXPIRY (R130, R401, R417): the master decides, sends the decision, and level 3 for the step begins. A window that
is open when the gateway loses mastership stays, and counts on from its opening if the gateway becomes master again (DESIGN CHOICE,
entry 99). -/
def execDecisionWindowExpiry (ciid : BitVec 64) (s : State) : Host.Outcome State Fault Refusal :=
  .next (match mget? s.coll.windows ciid with
    | none => s
    | some w =>
      if w.decided.isSome || !quorum s || s.sf < w.opened + 2 * w.d + 4 then s
      else
        let st := decide_ w.notices
        let s := { s with coll := { s.coll with windows := mset s.coll.windows ciid { w with decided := some st } } }
        let s := masterSends s (.ctl (mkCtl s 2 (stNum st) ciid 0 s.sf 0))
        let att := mkCiid (ciidJob ciid) (ciidStep ciid) 0 (ciidReplay ciid)
        masterRequest s ⟨3, errCode st, att, gw s⟩)

/-- DECISION_RX (R130, R131, R499); one for an attempt already rolled back is discarded and logged (R421). -/
def execDecisionRx (via : RecVia) (m : Ctl) (s : State) : Host.Outcome State Fault Refusal :=
  .next (if m.ctype ≠ 2 then s else
    let r := arriveCtl via m false s
    if !r.2 then r.1
    else if attempt r.1 m.ciid == .stale then noteWait r.1
    else applyDecision r.1 m.ciid (stOf m.state.toNat))

/-! ## Cross-checks (R171, R431) -/

def temp16 (s : State) (t : Nat) : Nat := ((mget s.power.temps (tileIx t) 0) % 65536).toNat

/-- R431: TILE_CHARGED on a tile's page, and R433: the charge counted in the quarantine window, with what follows. -/
def chargeTile (s : State) (t : Fin 64) : State :=
  let win := 2 ^ fldV s .rseq 0x50 20 16
  let l := (mget s.rseq.charges t []).filter (fun f => s.sf < f + win) ++ [s.sf]
  let s := raise { s with rseq := { s.rseq with charges := mset s.rseq.charges t l } } (.tile t) 0x1701 0
  if l.length < fldV s .rseq 0x4C 11 8 || (pageOf s (.tile t)).quarantined then s
  else quarantineTile s t

/-- R431, R434, R435: the verdict: 0 charges the primary, 1 the shadow, 2 both; its log entry. -/
def chargeBy (s : State) (k : Xchk) (verdict : Nat) : State :=
  let ref := match k.referee with | some t => t.val | none => 0xFF
  let tmp := match k.referee with | some t => temp16 s t.val | none => 0
  let s := logPush s { sf := s.sf, code := 0x1701, kind := 2, level := 0, page := fld (pageAddr (.tile k.tile)) 27 12,
                       info := 0, serial := s.rseq.serial, ciid := k.ciid,
                       extra := [BitVec.ofNat 8 k.tile.val, BitVec.ofNat 8 k.shadow.val, BitVec.ofNat 8 ref,
                                 BitVec.ofNat 8 verdict] ++ beBytes 2 (temp16 s k.tile.val) ++
                                beBytes 2 (temp16 s k.shadow.val) ++ beBytes 2 tmp ++
                                [BitVec.ofNat 8 (s.power.ceil / 1375), BitVec.ofNat 8 k.pat] ++ beBytes 2 s.power.module ++
                                [1, 0] ++ beBytes 4 k.chunk ++ List.replicate 12 0 }
  let s := if verdict ≠ 1 then chargeTile s k.tile else s
  if verdict ≠ 0 then chargeTile s k.shadow else s

def dropXchk (s : State) (id : Nat) : State :=
  { s with coll := { s.coll with xchks := s.coll.xchks.filter (fun k => k.id != id) } }

/-- R431: the lowest-numbered tile of the quadrant that may referee. -/
def refereeOf (s : State) (k : Xchk) : Option (Fin 64) :=
  (List.finRange 64).find? fun t =>
    t.val / 16 == k.shadow.val / 16 && t != k.tile && t != k.shadow && !(pageOf s (.tile t)).quarantined

/-- Bytes with the bits flipped that a fault of the computing tile has changed. -/
def flipBytes (l : Bytes) (err : List (Nat × Byte)) : Bytes :=
  err.foldl (fun l e => l.set e.1 (l.getD e.1 0 ^^^ e.2)) l

/-- R171, R431: a tile computes a sampled chunk again, as wasted slots; `err` is what a fault of the tile changes in the bits it
forms. The state, with the flags of the recomputation, and the bits. -/
def recompute (s : State) (k : Xchk) (t : Fin 64) (err : List (Nat × Byte)) : State × Bytes :=
  let r := k.again
  let s := charge s t 0 4 0 0 0
  (landTile s t (r.2.inBlk k.chunk) (opCell k.ciid k.enc.typ true), flipBytes r.1 err)

/-- XCHK_COMPARE (R171): a shadow ends its recomputation, and compares FP32 accumulation and encoded output bit for bit with the
primary's: agreement ends the check; a disagreement taints the cell and calls a referee, or charges both tiles where the quadrant
has none. -/
def execXchkCompare (id : Nat) (err : List (Nat × Byte)) (s : State) : Host.Outcome State Fault Refusal :=
  .next (match s.coll.xchks.find? (fun k => k.id == id && k.referee.isNone) with
    | none => s
    | some k =>
      let (s, sh) := recompute s k k.shadow err
      let done := dropXchk s id
      if sh = k.bits then
        (match findInst done k.ciid with
         | some x => tryHarvest done x k.ciid
         | none => done)
      else
        let miss := fun (s : State) (t : Fin 64) => setTile s t { tileOf s t with xchkMiss := min 0xFFFF ((tileOf s t).xchkMiss + 1) }
        let s := count (miss (miss s k.tile) k.shadow) (.quad (cellQuad k.cell)) 1 1
        let cl := cellOf s k.cell
        let s := if cl.ciid = k.ciid && cl.st ≠ .free && !isErr cl.st then
            taint s k.cell k.ciid 2 k.level k.shadow.val else s
        match refereeOf s k with
        | none => chargeBy (dropXchk s id) k 2
        | some t => { s with coll := { s.coll with xchks := s.coll.xchks.map (fun y => if y.id = id then { y with referee := some t, sh := sh } else y) } })

/-- REFEREE_VERDICT (R431): the referee's bits agree with the shadow's (the primary is charged), with the primary's (the shadow is), or
with neither (both are). -/
def execRefereeVerdict (id : Nat) (err : List (Nat × Byte)) (s : State) : Host.Outcome State Fault Refusal :=
  .next (match s.coll.xchks.find? (fun k => k.id == id) with
    | none => s
    | some k => match k.referee with
      | none => s
      | some t =>
        let (s, rb) := recompute s k t err
        chargeBy (dropXchk s id) k (if rb = k.sh then 0 else if rb = k.bits then 1 else 2))


end Sys2Proof.Machine
end

