-- ==== Sys2Proof/Machine/Blocks.lean ====
section
/-! DEFINITION. Machine/Blocks.lean: compressed weight blocks (R260 to R282): decode tables, block images, the decoder queues
of the tiles, and the pulls that are served from images or banks (R100, R255). -/
namespace Sys2Proof.Machine
open Sys2Proof

/-! ## Block headers and decoding -/

/-- R265: a block header's fields, of a block's bytes. -/
def bMode (b : Bytes) : Nat := byteAt b 1
def bElem (b : Bytes) : Nat := byteAt b 2
def bSlot (b : Bytes) : Nat := byteAt b 3 % 8
def bGen (b : Bytes) : Nat := beAt b 4 2
def bStates (b : Bytes) : Nat := beAt b 6 6
def bIndex (b : Bytes) : Nat := beAt b 12 4
def bOut (b : Bytes) : Nat := beAt b 16 4
def bPlen (b : Bytes) : Nat := beAt b 20 4
def bPbits (b : Bytes) : Nat := beAt b 24 4

/-- R266: whether a block's CHECK verifies. -/
def bCheckOk (b : Bytes) : Bool := beAt b 28 4 == crc32c (b.take 28 ++ [0, 0, 0, 0] ++ b.drop 32)

/-- R265, R267: whether a block's fields are well formed. -/
def bFieldsOk (b : Bytes) : Bool :=
  let pl := b.drop 32
  byteAt b 0 == 1 && byteAt b 3 / 8 == 0 && 1 ≤ bOut b && bOut b ≤ 65536 && bPlen b ≤ 65536 && pl.length == bPlen b &&
  (match bMode b with
   | 1 => 1 ≤ bGen b && bPbits b ≤ 8 * bPlen b && (if bPlen b = 0 then bPbits b == 0 else bPbits b > 8 * (bPlen b - 1)) &&
          (bPbits b % 8 == 0 || (byteAt pl (bPlen b - 1)) / 2 ^ (bPbits b % 8) == 0)
   | 2 => bSlot b == 0 && bGen b == 0 && bStates b == 0 && bPbits b == 0
   | _ => false)

/-- R269: a decode entry of a state: the symbol, the bits read and the base of the next state. -/
def buildTable (sym : Bytes) : List (Byte × Nat × Nat) :=
  let cnt := (List.range 256).map (fun v => (sym.filter (fun b => b.toNat == v)).length)
  (sym.foldl (fun (p : List (Byte × Nat × Nat) × List Nat) b =>
    let v := p.2.getD b.toNat 0
    let nb := 12 - Nat.log2 v
    (p.1.concat (b, nb, v * 2 ^ nb - 4096), p.2.set b.toNat (v + 1))) ([], cnt)).1

/-- R275: decoding of n more bytes: the output so far, the lane states and the position; the code when the bits run out. -/
def tansLoop (tab : List (Byte × Nat × Nat)) (stream pbits : Nat) :
    Nat → Nat → List Nat → Nat → Bytes → Bytes × List Nat × Nat × Bool
  | 0, _, st, pos, out => (out, st, pos, false)
  | n + 1, i, st, pos, out =>
    let k := i % 4
    let e := tab.getD (st.getD k 0) (0, 0, 0)
    if pos + e.2.1 > pbits then (out, st, pos, true)
    else
      let x := e.2.2 + (stream >>> pos) % 2 ^ e.2.1
      tansLoop tab stream pbits n (i + 1) (st.set k x) (pos + e.2.1) (out.concat e.1)

/-- R274, R275, R277: a block expanded: its output and the code of its failure, or 0. -/
def expandBlock (b sym : Bytes) : Bytes × Nat :=
  let n := bOut b
  let pl := b.drop 32
  if !bCheckOk b then (List.replicate n 0, 0x2A01)
  else if !bFieldsOk b then (List.replicate n 0, 0x2A02)
  else if bMode b = 2 then
    (padTo n (pl.take n), if bPlen b > n then 0x2303 else if bPlen b < n then 0x2304 else 0)
  else
    let st := (List.range 4).map (fun k => bStates b / 4096 ^ k % 4096)
    let r := tansLoop (buildTable sym) (fromLe pl) (bPbits b) n 0 st 0 []
    if r.2.2.2 then (padTo n r.1, 0x2304)
    else if r.2.2.1 ≠ bPbits b || r.2.1.any (· != 0) then (r.1, 0x2303)
    else (r.1, 0)

/-- R281: ERR_FIRST_INFO of a block failure. -/
def blockInfo (b : Bytes) (check : Bool) : Nat :=
  bGen b + bSlot b * 65536 + (if check then 2 ^ 19 else 0) + bIndex b % 4096 * 2 ^ 20

/-! ## Table slots (R270 to R272) -/

def tslot (s : State) (t : Fin 64) (i : Nat) : TSlot := mget s.tdec.slots (t, i) TSlot.reset
def setTslot (s : State) (t : Fin 64) (i : Nat) (x : TSlot) : State :=
  { s with tdec := { s.tdec with slots := mset s.tdec.slots (t, i) x } }
def tqueue (s : State) (t : Fin 64) : List DBlock := mget s.tdec.queues t []
def setTqueue (s : State) (t : Fin 64) (l : List DBlock) : State :=
  { s with tdec := { s.tdec with queues := mset s.tdec.queues t l } }

/-- R270, R272: a RETIRING slot without references becomes FREE. -/
def freeIfIdle (s : State) (t : Fin 64) (i : Nat) : State :=
  let x := tslot s t i
  if x.st = .retiring && x.refs = 0 then raise (setTslot s t i TSlot.reset) (.tdec t) 0x0A01 0 else s

/-- R270: a RESIDENT slot becomes RETIRING. -/
def retireSlot (s : State) (t : Fin 64) (i : Nat) : State :=
  let x := tslot s t i
  if x.st = .resident then freeIfIdle (setTslot s t i { x with st := .retiring }) t i else s

/-- R273: a block's reference released. -/
def unref (s : State) (t : Fin 64) (b : DBlock) : State :=
  match b.slot with
  | none => s
  | some i => let x := tslot s t i
              freeIfIdle (setTslot s t i { x with refs := x.refs - 1 }) t i

/-- The tiles of a mask. -/
def maskTiles (m : Nat) : List (Fin 64) := (List.finRange 64).filter (fun t => bit m t.val)

/-- R271: a generation held in any tile of a mask. -/
def genInUse (s : State) (m gen : Nat) : Bool :=
  (maskTiles m).any (fun t => (List.range 8).any (fun i => (tslot s t i).st != .free && (tslot s t i).gen == gen))

/-- R271: the lowest slot FREE in every tile of a mask. -/
def freeIn (s : State) (m : Nat) : Option Nat :=
  (List.range 8).find? (fun i => (maskTiles m).all (fun t => (tslot s t i).st == .free))

/-- R271: a TABLE_LOAD takes its slot in every tile of its mask, or is refused. -/
def beginLoad (s : State) (l : TLoad) : State ⊕ Nat :=
  if genInUse s l.mask l.gen then .inr 0x2306
  else match freeIn s l.mask with
    | none => .inr 0x2305
    | some i =>
      let s := (maskTiles l.mask).foldl (fun s t => setTslot s t i ⟨.loading, l.gen, 0, l.sym⟩) s
      .inl { s with tdec := { s.tdec with loads := s.tdec.loads.concat { l with slot := i } } }

/-- R268, R271: TABLE_LOAD. -/
def tableLoad (k : Ctx) (s : State) : State × Disp :=
  let h := k.h
  let p := k.pkt.payload
  let m := h.arg1.toNat
  if h.chunkIndex ≠ 0 || h.chunkCount ≠ 1 then (s, .refuse 0x2207)
  else if p.length ≠ 4112 then (s, .refuse 0x2204)
  else if beAt p 0 4 ≠ 0x42544142 || byteAt p 4 ≠ 1 || byteAt p 5 ≠ 12 || (slice p 8 8).any (· != 0) || h.arg0 = 0 ||
      m = 0 || (maskTiles m).any (fun t => quarantined s t.val) then (s, .refuse 0x2206)
  else
    let l : TLoad := ⟨k.seq, k.org, h, m, h.arg0.toNat, beAt p 6 2, p.drop 16, 8⟩
    if s.tdec.loads.isEmpty then
      (match beginLoad s l with
       | .inl s => (s, .taken)
       | .inr code => (s, .refuse code))
    else ({ s with tdec := { s.tdec with loads := s.tdec.loads.concat l } }, .taken)

/-- The loads that wait their turn, taken until one begins. -/
def nextLoad : Nat → State → State
  | 0, s => s
  | n + 1, s =>
    match s.tdec.loads with
    | [] => s
    | l :: rest =>
      if l.slot < 8 then s
      else
        let s := { s with tdec := { s.tdec with loads := [] } }
        match beginLoad s l with
        | .inl s => { s with tdec := { s.tdec with loads := s.tdec.loads ++ rest } }
        | .inr code =>
          let s := markDone (sendComplete s l.org l.hdr code []) (fun f => f.seq == l.seq) code
          nextLoad n { s with tdec := { s.tdec with loads := rest } }

/-- TABLE_BUILD_DONE (R270, R271): the table becomes RESIDENT in every tile of the mask, the slots that were RESIDENT under RETIRE_GEN
retire, the TDEC pages pass their epoch boundary, and the COMPLETE goes. -/
def execTableBuildDone (s : State) : Host.Outcome State Fault Refusal :=
  .next (match s.tdec.loads with
    | [] => s
    | l :: rest =>
      if l.slot ≥ 8 then s
      else
        let s := { s with tdec := { s.tdec with loads := rest } }
        let s := (maskTiles l.mask).foldl (fun s t =>
          let old := (List.range 8).filter (fun i => l.retire != 0 && (tslot s t i).gen == l.retire)
          let e := l.slot * 65536 + l.gen
          let s := old.foldl (fun s i => retireSlot s t i) s
          let s := setTslot s t l.slot { tslot s t l.slot with st := .resident }
          let s := { s with tdec := { s.tdec with lastGen := mset s.tdec.lastGen t e } }
          calm (setPage s (.tdec t) { (pageOf s (.tdec t)).apply e with cfgEpoch := BitVec.ofNat 32 e }) (.tdec t)) s
        let s := markDone (sendTo s l.org .mgmt { echo l.hdr 0 with arg0 := BitVec.ofNat 32 l.slot } [])
          (fun f => f.seq == l.seq) 0
        nextLoad (s.tdec.loads.length + 1) s)

/-! ## Decoder queues (R273) -/

/-- How a block is placed: in a tile's queue, upstream while every candidate is full, or nowhere. -/
inductive Place where
  | queued (s : State)
  | full
  | miss

/-- R273: the candidate tiles of a block. -/
def candidates (s : State) (b : Bytes) : List (Fin 64) :=
  (List.finRange 64).filter fun t => !quarantined s t.val &&
    (bMode b != 1 || ((tslot s t (bSlot b)).st == .resident && (tslot s t (bSlot b)).gen == bGen b))

/-- R273: the choice among tiles: fewest blocks, then the block's quadrant, then the lowest number. -/
def betterTile (s : State) (q : Nat) (a b : Fin 64) : Bool :=
  let n := (tqueue s a).length; let m := (tqueue s b).length
  n < m || (n == m && a.val / 16 == q && b.val / 16 != q)

def placeBlock (s : State) (what : DFor) (idx : Nat) (b : Bytes) : Place :=
  let cs := candidates s b
  match cs.filter (fun t => takesWork s (.tdec t) && (tqueue s t).length < fldV s (.tdec t) 0x44 4 0) with
  | [] => if cs.isEmpty then .miss else .full
  | a :: l =>
    let t := l.foldl (fun x y => if betterTile s (idx % 4) y x then y else x) a
    let tans := bMode b = 1
    let s := setTqueue s t (tqueue s t ++ [⟨what, idx, b, if tans then some (bSlot b) else none⟩])
    .queued (if tans then
      let x := tslot s t (bSlot b)
      setTslot s t (bSlot b) { x with refs := x.refs + 1 } else s)

/-- R273, R278: queued blocks that meet a condition leave their queues. -/
def withdraw (s : State) (f : DBlock → Bool) : State :=
  (List.finRange 64).foldl (fun s t =>
    let q := tqueue s t
    if q.any f then (q.filter f).foldl (fun s b => unref s t b) (setTqueue s t (q.filter (fun b => !f b))) else s) s

/-! ## Pulls from banks and images -/

/-- R255: chunk k of a matrix's weights in DELIV_TYPE, from a bank's address. -/
def bankChunk (s : State) (m : Matrix) (bank k : Nat) : Bytes :=
  let n := m.rows * m.cols
  let per := chunkElems m.delivType
  let lo := k * per
  let cnt := min per (n - lo)
  let w := if m.wType = 1 then 4 else 2
  let raw := memBytes s.mem (bank + lo * w) (cnt * w)
  if m.wType = m.delivType then raw
  else (encodeElems false 0 ⟨0, 0, 0, 0, 0⟩ m.delivType (decodeElems false m.wType cnt raw).1).1

/-- R241: the chunks of a matrix in a type. -/
def matChunks (m : Matrix) (t : Nat) : Nat := recChunks t (m.rows * m.cols)

def imageOf (s : State) (id : Nat) : Option Image := s.tdec.images.find? (fun i => i.id == id)

/-- R264: the image in force of a matrix and epoch. -/
def imageFor (s : State) (job matrix epoch : Nat) : Option Image :=
  s.tdec.images.find? (fun i => i.job == job && i.matrix == matrix && i.epoch == epoch && !i.old)

/-- R251: a state record between gateways: over the site fabric to a gateway of the site, else on a link to it. -/
def emitSt (s : State) (vc : Nat) (r : StRec) : State :=
  let dst := r.hdr.dstGw.toNat
  if dst / 64 = site s then
    egPush s (Config.sitePort dst) .weight (.srec dst (statePort s) r) (wireSize true true (64 + r.payload.length))
  else match (List.finRange 4).findSome? (fun g => linkTo s g dst) with
    | some l => lineSend s l vc (.srec r)
    | none => s

/-- R250: a state record of this gateway, its CHECKs computed. -/
def mkSt (s : State) (kind qty flags dst job t epoch matrix idx count status tag : Nat) (payload : Bytes) : StRec :=
  sealSt { hdr := { sver := 1, kind := BitVec.ofNat 8 kind, qty := BitVec.ofNat 8 qty, flags := BitVec.ofNat 8 flags,
                    srcGw := BitVec.ofNat 16 (gw s), dstGw := BitVec.ofNat 16 dst, job := BitVec.ofNat 16 job,
                    elemType := BitVec.ofNat 8 t, rsvd1 := 0, epoch := BitVec.ofNat 32 epoch,
                    matrix := BitVec.ofNat 32 matrix, chunkIndex := BitVec.ofNat 32 idx,
                    chunkCount := BitVec.ofNat 32 count, payloadLen := BitVec.ofNat 16 payload.length,
                    status := BitVec.ofNat 16 status, tag := BitVec.ofNat 32 tag, rsvd2 := 0,
                    valueCheck := BitVec.ofNat 64 (if payload.isEmpty then 0 else crc64 payload), check := 0 },
           payload := payload }

/-- R294: the line VC of a state record. -/
def stVc (r : StRec) : Nat :=
  let k := r.hdr.kind.toNat
  if k = 1 || k = 2 then 4 else if k = 3 then (if r.hdr.qty = 1 && r.hdr.tag ≠ 0 then 3 else 4)
  else if r.hdr.qty = 2 then 4 else 3

def sendSt (s : State) (r : StRec) : State := emitSt s (stVc r) r

/-- R278, R279: the first chunk of a pull that a failed block reaches. -/
def failChunk (p : Pull) (t blk : Nat) : Nat := max p.first (blk * 65536 / recChunk t)

/-- The bytes of chunk k of a pull from the blocks expanded so far, if all of them are there. -/
def chunkFrom (p : Pull) (t total k : Nat) : Option Bytes :=
  let cs := recChunk t
  let a := k * cs
  let n := min cs (total - a)
  let bs := (List.range (cdiv (a + n) 65536 - a / 65536)).map (· + a / 65536)
  if bs.all (fun b => (mget? p.outs b).isSome) then
    some (slice (bs.flatMap (fun b => mget p.outs b [])) (a % 65536) n)
  else none

/-- R278: the bytes of a poisoned chunk: what the failed blocks put out, and no meaning elsewhere. -/
def poisonBytes (p : Pull) (t total k : Nat) : Bytes :=
  let cs := recChunk t
  let a := k * cs
  (List.range (min cs (total - a))).map fun i =>
    match mget? p.outs ((a + i) / 65536) with
    | some o => o.getD ((a + i) % 65536) 0
    | none => Config.poisonByte p.seq (a + i)

/-- R100, R279: a ready chunk goes: as a RESULT to the node, or as WDATA to the gateway that fetches. -/
def pushChunk (s : State) (seq : Nat) (o : OwedChunk) : State :=
  match s.fab.pulls.find? (fun p => p.seq == seq) with
  | none => s
  | some p =>
    let o := { o with ready := true, sends := 1, sf := s.sf }
    let s := putPull s { p with chunks := p.chunks.map (fun y => if y.idx = o.idx then o else y) }
    match p.peer with
    | none => pullResult s p o false
    | some (g, tag) =>
      sendSt s (mkSt s 5 p.qty 0 g p.job p.hdr.elemType.toNat p.epoch p.matrix o.idx p.hdr.chunkCount.toNat 0 tag o.bytes)

/-- R100, R279: a pull whose every chunk has gone ends: its COMPLETE, or FETCH_END to the gateway that fetches. -/
def closePull (s : State) (seq : Nat) : State :=
  match s.fab.pulls.find? (fun p => p.seq == seq) with
  | none => s
  | some p =>
    if p.completed || !p.chunks.all (fun o => o.sends > 0) then s
    else match p.peer with
      | none =>
        let s := putPull s { p with completed := true }
        let s := sendComplete s p.org p.hdr p.status []
        harvestPull (markDone s (fun f => f.seq == p.seq) p.status) p.seq
      | some (g, tag) =>
        let s := sendSt s (mkSt s 6 p.qty 0 g p.job p.hdr.elemType.toNat p.epoch p.matrix 0 0 0 tag [])
        sweepImages { s with fab := { s.fab with pulls := s.fab.pulls.filter (fun y => y.seq != seq) } }

/-- R278, R279: a pull that a failed block ends: every chunk below f has gone; those from f on go poisoned to a node, and a
gateway that fetches is told f. -/
def endPoisoned (s : State) (seq f code total : Nat) : State :=
  match s.fab.pulls.find? (fun p => p.seq == seq) with
  | none => s
  | some p =>
    match p.peer with
    | some (g, tag) =>
      let s := sendSt s (mkSt s 6 p.qty 0 g p.job p.hdr.elemType.toNat p.epoch p.matrix f 0 code tag [])
      sweepImages { s with fab := { s.fab with pulls := s.fab.pulls.filter (fun y => y.seq != seq) } }
    | none =>
      let s := putPull s { p with status := code }
      let s := (p.chunks.filter (fun o => o.idx ≥ f)).foldl (fun s o =>
        pushChunk s seq { o with bytes := poisonBytes p p.hdr.elemType.toNat total o.idx, poison := some code }) s
      closePull s seq

/-- The image bytes of a matrix in DELIV_TYPE. -/
def imageBytes (i : Image) : Nat := i.blocks.foldl (fun n b => n + bOut b) 0

/-- R264, R278: what a pull from an image can send now, and its end: chunks go in order, so that none stands after one that a failed
block may poison. -/
def imageProgress (s : State) (seq : Nat) : State :=
  match s.fab.pulls.find? (fun p => p.seq == seq) with
  | none => s
  | some p =>
    match p.img.bind (imageOf s) with
    | none => s
    | some i =>
      if p.completed then s
      else
        let t := i.elemType
        let total := imageBytes i
        let f := match p.fail with | some x => failChunk p t x.1 | none => p.first + p.total
        let s := ((p.chunks.filter (fun o => o.idx < f && o.sends == 0)).takeWhile
            (fun o => (chunkFrom p t total o.idx).isSome)).foldl (fun s o =>
          pushChunk s seq { o with bytes := (chunkFrom p t total o.idx).getD [] }) s
        match s.fab.pulls.find? (fun p => p.seq == seq) with
        | none => s
        | some p' =>
          match p.fail with
          | none => closePull s seq
          | some x => if p'.chunks.all (fun o => o.idx ≥ f || o.sends > 0) then endPoisoned s seq f x.2 total else s

/-- R277, R278: a block of a pull fails: the first in the pull's order counts, and blocks behind it leave their queues. -/
def failPull (s : State) (seq blk code : Nat) : State :=
  match s.fab.pulls.find? (fun p => p.seq == seq) with
  | none => s
  | some p =>
    let x := match p.fail with | some y => if y.1 ≤ blk then y else (blk, code) | none => (blk, code)
    let s := putPull s { p with fail := some x }
    withdraw s (fun b => b.what == .pull seq && b.index > x.1)

/-- R273: the blocks of a pull from an image queued, in order, until its range is covered, a block fails or waits. -/
def queueBlocks (seq : Nat) : Nat → State → State
  | 0, s => s
  | n + 1, s =>
    match s.fab.pulls.find? (fun p => p.seq == seq) with
    | none => s
    | some p =>
      match p.img.bind (imageOf s) with
      | none => s
      | some i =>
        let last := ((p.first + p.total) * recChunk i.elemType - 1) / 65536
        if p.fail.isSome || p.nextBlk > last then s
        else match i.blocks[p.nextBlk]? with
          | none => s
          | some b =>
            match placeBlock s (.pull seq) p.nextBlk b with
            | .queued s => queueBlocks seq n (putPull s { p with nextBlk := p.nextBlk + 1 })
            | .full => s
            | .miss =>
              -- R277: the bytes of a block that no table can expand are 0x00
              let s := raise s (.quad ⟨p.nextBlk % 4, by omega⟩) 0x2302 (blockInfo b false)
              failPull (putPull s { p with outs := mset p.outs p.nextBlk (List.replicate (bOut b) 0) }) seq p.nextBlk 0x2302

/-- Blocks queued for a pull as far as they go, and what it can send. -/
def drivePull (s : State) (seq : Nat) : State := imageProgress (queueBlocks seq 131072 s) seq

/-! ## Image writes (R261 to R263) -/

/-- The byte string of an image cut into blocks, with the bytes that are no whole block. -/
def cutBlocks : Nat → Bytes → List Bytes × Bytes
  | 0, l => ([], l)
  | n + 1, l =>
    if l.length < 32 || l.length < 32 + bPlen l then ([], l)
    else
      let r := cutBlocks n (l.drop (32 + bPlen l))
      (l.take (32 + bPlen l) :: r.1, r.2)

/-- R262 order 2: the block that breaks the sequence, if it is broken: the first whose own fields do, or the bytes left over, or the
last block where the OUT_LEN values do not add up (DESIGN CHOICE, entry 108). -/
def seqBad (t total : Nat) (bs : List Bytes) (rest : Bytes) : Option Bytes :=
  let bad := fun (i : Nat) => match bs[i]? with
    | some b => !bFieldsOk b || bElem b != t || bIndex b != i || (i + 1 < bs.length && bOut b != 65536)
    | none => false
  match (List.range bs.length).find? bad with
  | some i => bs[i]?
  | none => if !rest.isEmpty then some rest
            else if bs.foldl (fun n b => n + bOut b) 0 != total then some (bs.getLast?.getD []) else none

/-- R263: staging frames of a quadrant, and those in use. -/
def frames (s : State) (q : Fin 4) : Nat := fldV s (.pond q) 0x44 12 8 * 2 ^ 30 / 65600
def framesOf (n : Nat) (q : Fin 4) : Nat := (List.range n).foldl (fun k b => if b % 4 = q.val then k + 1 else k) 0
def framesUsed (s : State) (q : Fin 4) : Nat :=
  (s.tdec.images ++ s.tdec.checks.map (·.img)).foldl (fun n i => n + framesOf i.blocks.length q) 0

/-- R262: an image refused: its staging goes and its COMPLETE carries the code. -/
def endCheck (s : State) (c : ImgCheck) (code : Nat) : State :=
  let s := withdraw s (fun b => b.what == .check c.img.id)
  let s := { s with tdec := { s.tdec with checks := s.tdec.checks.filter (fun y => y.img.id != c.img.id) } }
  markDone (sendComplete s c.org c.hdr code []) (fun f => f.seq == c.seq) code

/-- R262 orders 4 and 5: the blocks of an image under check queued in order. -/
def driveCheck (id : Nat) : Nat → State → State
  | 0, s => s
  | n + 1, s =>
    match s.tdec.checks.find? (fun c => c.img.id == id) with
    | none => s
    | some c =>
      match c.img.blocks[c.next]? with
      | none => s
      | some b =>
        match placeBlock s (.check id) c.next b with
        | .full => s
        | .miss => endCheck (raise s (.quad ⟨c.next % 4, by omega⟩) 0x2302 (blockInfo b true)) c 0x2302
        | .queued s => driveCheck id n
            { s with tdec := { s.tdec with checks := s.tdec.checks.map (fun y => if y.img.id = id then { y with next := y.next + 1 } else y) } }

/-- R273, R430: a level 5 withdraws the job's pulls and its images under check: their blocks leave the queues, and they complete with
STEP_REPLAYED. A rollback of steps withdraws no pull, since a pull belongs to no step (DEDUCED, entry 107). -/
def withdrawJob (s : State) (job : Nat) : State :=
  let ps := s.fab.pulls.filter (fun p => p.job == job && !p.completed)
  let s := withdraw s (fun b => match b.what with | .pull q => ps.any (fun p => p.seq == q) | .check _ => false)
  let s := ps.foldl (fun s p => match p.peer with
    | none => markDone (sendComplete s p.org p.hdr 0x3101 []) (fun f => f.seq == p.seq) 0x3101
    | some (g, tag) =>
      sendSt s (mkSt s 6 p.qty 0 g p.job p.hdr.elemType.toNat p.epoch p.matrix 0 0 0x3101 tag [])) s
  let s := { s with fab := { s.fab with pulls := s.fab.pulls.filter (fun p => p.job != job) } }
  (s.tdec.checks.filter (fun c => c.img.job == job)).foldl (fun s c => endCheck s c 0x3101) s
/-- R262 order 5: every block expanded: the image is compared with the bank and comes into force, or is refused. -/
def judgeImage (s : State) (id : Nat) : State :=
  match s.tdec.checks.find? (fun c => c.img.id == id) with
  | none => s
  | some c =>
    let i := c.img
    if !(List.range i.blocks.length).all (fun b => (mget? c.outs b).isSome) then s
    else
      let got := (List.range i.blocks.length).flatMap (fun b => mget c.outs b [])
      let same := match matrixOf s i.job i.matrix with
        | some m => (List.range (matChunks m m.delivType)).flatMap (bankChunk s m (homeBank m i.epoch)) == got
        | none => false
      if !same then endCheck (raise s (.quad 0) 0x2A03 0) c 0x2A03
      else
        let s := releaseImages s (fun y => y.job == i.job && y.matrix == i.matrix && y.epoch == i.epoch)
        endCheck { s with tdec := { s.tdec with images := s.tdec.images.concat i } } c 0

/-- A block of a pull has expanded to `got`, or failed for `code`. -/
def pullBlockDone (s : State) (seq : Nat) (b : Nat) (got : List Byte) (code : Nat) : State :=
  let put := fun (p : Pull) => if p.seq = seq then { p with outs := mset p.outs b got } else p
  let s := { s with fab := { s.fab with pulls := s.fab.pulls.map put } }
  if code ≠ 0 then failPull s seq b code else s

/-- A block of an image under check has expanded to `got`, or failed for `code`. -/
def checkBlockDone (s : State) (id : Nat) (b : Nat) (got : List Byte) (code : Nat) : State :=
  match s.tdec.checks.find? (fun c => c.img.id == id) with
  | none => s
  | some c =>
    if code ≠ 0 then endCheck s c code
    else
      let put := fun (y : ImgCheck) => if y.img.id = id then { y with outs := mset y.outs b got } else y
      judgeImage { s with tdec := { s.tdec with checks := s.tdec.checks.map put } } id

/-- Every pull and every check that waits to place blocks goes on as far as it can (R273, R277). -/
def driveOnce (s : State) : State :=
  let go1 := fun (s : State) (p : Pull) => if p.img.isSome && !p.completed then drivePull s p.seq else s
  let s := s.fab.pulls.foldl go1 s
  s.tdec.checks.foldl (fun (s : State) (c : ImgCheck) => driveCheck c.img.id 131072 s) s

/-- A block that cannot be placed ends its pull or its check, whose blocks leave their queues: then those that wait go on again. -/
def driveN : Nat → State → State
  | 0, s => s
  | n + 1, s =>
    let open_ := fun (s : State) => (s.tdec.checks.map (·.seq), (s.fab.pulls.filter (fun p => p.img.isSome && p.fail.isNone)).map (·.seq))
    let t := driveOnce s
    if open_ t = open_ s then t else driveN n t

/-- Room in the queues, a new pull or a new check: what waits to place blocks goes on. -/
def driveAll (s : State) : State := driveN (s.fab.pulls.length + s.tdec.checks.length + 1) s

/-- BLOCK_DECODE_END (R273 to R277): the block at the head of a tile's decoder ends. -/
def execBlockDecodeEnd (t : Fin 64) (s : State) : Host.Outcome State Fault Refusal :=
  .next (match tqueue s t with
    | [] => s
    | b :: rest =>
      let sym := match b.slot with | some i => (tslot s t i).sym | none => []
      let r := expandBlock b.bytes sym
      let chk := match b.what with | .check _ => true | .pull _ => false
      let s := unref (setTqueue s t rest) t b
      let s := setTile s t { tileOf s t with flight := (tileOf s t).flight.map (fun w => { w with behind := false }) }
      let s := settlePage s (.tdec t)
      let s := count s (.tdec t) 0 1
      let s := if r.2 ≠ 0 then raise (count s (.tdec t) 1 1) (.tdec t) r.2 (blockInfo b.bytes chk) else s
      let s := match b.what with
        | .pull seq => pullBlockDone s seq b.index r.1 r.2
        | .check id => checkBlockDone s id b.index r.1 r.2
      driveAll s)

end Sys2Proof.Machine
end

