-- ==== Sys2Proof/Machine/Outer.lean ====
section
/-! DEFINITION. Machine/Outer.lean: the outer-step service as packets see it (R237 to R243, R255, R261, R262): job tables, the
writing and reading of state, weight epochs and weight pulls. -/
namespace Sys2Proof.Machine
open Sys2Proof

/-! ## The job table (R237, R238) -/

/-- R238, R240: whether a plan of a job is ACTIVE, NEXT or HELD. -/
def planRuns (s : State) (job : Nat) : Bool :=
  [s.plans.slot0, s.plans.slot1].any fun x =>
    (x.st == .active || x.st == .next || x.st == .held) && (match x.plan with | some p => p.job == job | none => false)

/-- R237: one table entry, read. -/
def parseMatrix (b : Bytes) : Matrix :=
  { matrix := beAt b 0 4, rows := beAt b 4 4, cols := beAt b 8 4, home := beAt b 12 2, partner := beAt b 14 2,
    rule := byteAt b 16, wType := byteAt b 17, dType := byteAt b 18, delivType := byteAt b 19, mu := beAt b 20 4,
    keep := beAt b 24 4, stepw := beAt b 28 4, hW0 := beAt b 40 8, hW1 := beAt b 48 8, hM := beAt b 56 8,
    hD := beAt b 64 8, pW0 := beAt b 72 8, pW1 := beAt b 80 8, pM := beAt b 88 8, pD := beAt b 96 8 }

/-- R237: whether the fields of an entry lie in their ranges. -/
def matrixOk (b : Bytes) : Bool :=
  let m := parseMatrix b
  1 ≤ m.rows && m.rows ≤ 65536 && 1 ≤ m.cols && m.cols ≤ 65536 && m.home < 2048 && m.partner < 2048 &&
  1 ≤ m.rule && m.rule ≤ 3 && (m.wType == 1 || m.wType == 2) && typeOk m.dType && typeOk m.delivType &&
  (m.rule != 1 || (m.mu == 0 && m.hM == 0 && m.pM == 0)) &&
  (slice b 32 8).all (· == 0) && (slice b 104 24).all (· == 0)


/-- R201, R238: whether an area lies in a pond and starts on a tray. -/
def areaOk (a : Nat × Nat × Nat) : Bool :=
  bit a.2.1 39 && a.2.1 < 2 ^ 40 && fld a.2.1 38 37 == 0 && a.2.1 % 65536 == 0 && fld a.2.1 34 0 + a.2.2 ≤ 2 ^ 35

/-- Whether two areas of one holder share a byte. -/
def areasMeet (a b : Nat × Nat × Nat) : Bool := a.1 == b.1 && meets a.2.1 a.2.2 b.2.1 b.2.2

/-- Areas that overlap within a list. -/
def overlapIn : List (Nat × Nat × Nat) → Bool
  | [] => false
  | a :: l => l.any (areasMeet a) || overlapIn l

/-- R237: the entries of a table. -/
def tableEntries (b : Bytes) : List Bytes :=
  (List.range (beAt b 4 4)).map (fun i => slice b (32 + 128 * i) 128)

/-- The areas that this gateway holds for other jobs. -/
def heldAreas (s : State) (job : Nat) : List (Nat × Nat × Nat) :=
  (s.outer.filter (fun e => e.1 != job)).flatMap fun e => match e.2.tab with
    | some t => (t.mats.flatMap areasOf).filter (fun a => a.1 == gw s)
    | none => []

/-- Numbers that rise strictly. -/
def rising : List Nat → Bool
  | a :: b :: l => a < b && rising (b :: l)
  | _ => true

/-- R238: a table with its bytes in order, refused (with a code) or read. -/
def tableBad (s : State) (job : Nat) (b : Bytes) : Bool :=
  let n := beAt b 4 4
  let es := tableEntries b
  let ms := es.map parseMatrix
  let areas := ms.flatMap areasOf
  b.length < 32 || n = 0 || n > 65536 || b.length ≠ 32 + 128 * n || beAt b 0 2 ≠ 1 || beAt b 2 2 ≠ job ||
  byteAt b 8 &&& 0xFB ≠ 0 || (slice b 9 23).any (· != 0) || !es.all matrixOk || !rising (ms.map (·.matrix)) ||
  ms.any (fun m => m.home / 64 == m.partner / 64) || !areas.all areaOk || overlapIn areas ||
  (areas.filter (fun a => a.1 == gw s)).any (fun a => (heldAreas s job).any (areasMeet a))

/-- R238, R258: the trays that cover the areas of the matrices this gateway homes or partners. -/
def reserveAreas (s : State) (req : Nat) (l : List (Nat × Nat × Nat)) : Option (State × List TrayId) :=
  takePonds s req ((l.filter (fun a => a.1 == gw s)).flatMap (fun a => pondTrays a.2))

/-- The load that a job collects under a key: the quantity, the matrix and the epoch named. -/
def jobLoad (s : State) (job : Nat) (q : Nat × Nat × Nat) : LoadBuf := mget (jobOf s job).loads q LoadBuf.none
def setJobLoad (s : State) (job : Nat) (q : Nat × Nat × Nat) (b : LoadBuf) : State :=
  let j := jobOf s job
  setJob s job { j with loads := mset j.loads q b }
def dropJobLoad (s : State) (job : Nat) (q : Nat × Nat × Nat) : State :=
  let j := jobOf s job
  setJob s job { j with loads := mdel j.loads q }

/-- A chunk joins the load of a quantity; a different CHUNK_COUNT starts the load anew. -/
def addLoad (s : State) (job : Nat) (q : Nat × Nat × Nat) (count idx : Nat) (p : Bytes) : LoadBuf :=
  let b0 := jobLoad s job q
  let b := if b0.count ≠ count then LoadBuf.none else b0
  { b with count := count, chunks := mset b.chunks idx p }

/-- A job table that passes its checks comes into force. -/
def installTable (s : State) (job req : Nat) (b : Bytes) (trays : List TrayId) : State :=
  let tab : JobTab := { digest := digestOf b, strict := bit (byteAt b 8) 2, mats := (tableEntries b).map parseMatrix,
                        req := req, trays := trays }
  setJob s job { jobOf s job with tab := some tab }

/-- A state request refused with OUTER_BUSY or OUTER_TABLE_BAD, captured on the QUAD page of Q0 (R259). -/
def refuseOuter (s : State) (code : Nat) : State × Disp := (raise s (.quad 0) code 0, .refuse code)

/-- STATE_WRITE of a job table (R237, R238). -/
def writeTable (k : Ctx) (s : State) : State × Disp :=
  let h := k.h
  let job := ciidJob h.ciid
  let idx := h.chunkIndex.toNat
  if h.elemType ≠ 0 || h.arg1 ≠ 0 || h.arg0 ≠ 0 then (s, .refuse 0x2206)
  else if h.chunkCount = 0 || idx ≥ h.chunkCount.toNat then (s, .refuse 0x2207)
  else
    let b := addLoad s job (0, 0, 0) h.chunkCount.toNat idx k.pkt.payload
    if !b.full then (sendComplete (setJobLoad s job (0, 0, 0) b) k.org h 0 [], .done 0)
    else
      let s := dropJobLoad s job (0, 0, 0)
      let bytes := b.bytes
      if tableBad s job bytes then refuseOuter s 0x2901
      else if (jobOf s job).tab.isSome || planRuns s job then refuseOuter s 0x2902
      else match reserveAreas s (reqOf s k.org) (((tableEntries bytes).map parseMatrix).flatMap areasOf) with
        | none => (count s .tpool 0 1, .refuse 0x2301)
        | some (s', l) => (sendComplete (installTable s' job (reqOf s k.org) bytes l) k.org h 0 [], .done 0)

/-! ## Writing state (R240, R241) -/

/-- The matrix that a state request names and this gateway homes, or the refusal of R240: UNKNOWN_MATRIX, WRONG_GATEWAY,
then an ELEM_TYPE that differs from its column. -/
def stateMatrix (k : Ctx) (s : State) (ty : Matrix → Nat) : Matrix ⊕ (State × Disp) :=
  match matrixOf s (ciidJob k.h.ciid) k.h.arg1.toNat with
  | none => .inr (s, .refuse 0x220E)
  | some m =>
    if m.home ≠ gw s then .inr (raise s (viaPage k.via) 0x2501 0, .refuse 0x2501)
    else if k.h.elemType.toNat ≠ ty m then .inr (s, .refuse 0x2206)
    else .inl m

/-- R241: the length of chunk i of n elements in a type. -/
def chunkLen (t n i : Nat) : Nat := min (recChunk t) (encSize t n - i * recChunk t)

/-- A state record sent that is kept until it is answered (R251). -/
def keepSt (s : State) (r : StRec) : State :=
  { sendSt s r with stTx := s.stTx ++ [⟨r, 1, s.sf⟩] }

/-- R241, R252, R254, R257: the chunks of a quantity of a matrix sent to a gateway as REPL records. -/
def replicateTo (s : State) (dst job : Nat) (m : Matrix) (qty flags epoch t n : Nat) (bytes : Nat → Bytes) : State :=
  (List.range n).foldl (fun s i => keepSt s (mkSt s 1 qty flags dst job t epoch m.matrix i n 0 0 (bytes i))) s

/-- R241, R252, R254: the chunks of an area of a matrix sent to its partner as REPL records. -/
def replicate (s : State) (job : Nat) (m : Matrix) (qty flags epoch t base size : Nat) : State :=
  let cs := recChunk t
  let n := cdiv size cs
  replicateTo s m.partner job m qty flags epoch t n (fun i => memBytes s.mem (base + i * cs) (min cs (size - i * cs)))

/-- STATE_WRITE of WEIGHTS or MOMENTUM (R240, R241): one chunk into the bank of the current epoch, or the momentum area. -/
def writeQty (k : Ctx) (qty : Nat) (s : State) : State × Disp :=
  match stateMatrix k s (fun m => if qty = 1 then m.wType else 1) with
  | .inr r => r
  | .inl m =>
    let h := k.h
    let job := ciidJob h.ciid
    let j := jobOf s job
    let t := if qty = 1 then m.wType else 1
    let n := recChunks t (m.rows * m.cols)
    let i := h.chunkIndex.toNat
    if planRuns s job || h.arg0.toNat ≠ j.epoch || (qty = 2 && m.rule = 1) then refuseOuter s 0x2902
    else if h.chunkCount.toNat ≠ n || i ≥ n then (s, .refuse 0x2207)
    else if k.pkt.payload.length ≠ chunkLen t (m.rows * m.cols) i then (s, .refuse 0x2204)
    else
      let base := if qty = 1 then homeBank m j.epoch else m.hM
      let size := if qty = 1 then wSize m else mSize m
      let s := storeMem s (base + i * recChunk t) k.pkt.payload
      let q := (qty, m.matrix, j.epoch)
      let b := addLoad s job q n i []
      let s := if !b.full then setJobLoad s job q b
        else
          let s := dropJobLoad s job q
          let j := jobOf s job
          let s := setJob s job { j with written := q :: j.written.filter (· != q) }
          replicate s job m qty 2 j.epoch t base size
      (sendComplete s k.org h 0 [], .done 0)

def writeWeights (k : Ctx) (s : State) : State × Disp := writeQty k 1 s
def writeMomentum (k : Ctx) (s : State) : State × Disp := writeQty k 2 s

/-- R262: an image whose last chunk has arrived: checks 1 to 3, and the blocks queued for checks 4 and 5. -/
def checkImage (k : Ctx) (s : State) (m : Matrix) (bytes : Bytes) : State × Disp :=
  let job := ciidJob k.h.ciid
  let total := encSize m.delivType (m.rows * m.cols)
  let cut := cutBlocks (bytes.length + 1) bytes
  let bs := cut.1
  match bs.find? (fun b => !bCheckOk b) with
  | some b => (raise s (.quad 0) 0x2A01 (blockInfo b true), .refuse 0x2A01)
  | none =>
    if let some b := seqBad m.delivType total bs cut.2 then
      (raise s (.quad 0) 0x2A02 (blockInfo b true), .refuse 0x2A02)
    else if (List.finRange 4).any (fun q => framesUsed s q + framesOf bs.length q > frames s q) then
      (count s .tpool 0 1, .refuse 0x2301)
    else
      let img : Image := ⟨s.tdec.imgSeq, job, m.matrix, k.h.arg0.toNat, m.delivType, bs, false⟩
      let c : ImgCheck := ⟨k.seq, k.org, k.h, img, 0, []⟩
      let s := { s with tdec := { s.tdec with imgSeq := s.tdec.imgSeq + 1, checks := s.tdec.checks.concat c } }
      (driveAll s, .taken)

/-- STATE_WRITE of WEIGHT_BLOCKS (R261, R262). -/
def writeBlocks (k : Ctx) (s : State) : State × Disp :=
  match stateMatrix k s (·.delivType) with
  | .inr r => r
  | .inl m =>
    let h := k.h
    let job := ciidJob h.ciid
    let i := h.chunkIndex.toNat
    let n := h.chunkCount.toNat
    if planRuns s job || h.arg0.toNat ≠ (jobOf s job).epoch || !(jobOf s job).written.contains (1, m.matrix, h.arg0.toNat) then
      refuseOuter s 0x2902
    else if n = 0 || i ≥ n then (s, .refuse 0x2207)
    else if i + 1 < n && k.pkt.payload.length ≠ 8192 then (s, .refuse 0x2204)
    else
      let q := (4, m.matrix, h.arg0.toNat)
      let b := addLoad s job q n i k.pkt.payload
      if !b.full then (sendComplete (setJobLoad s job q b) k.org h 0 [], .done 0)
      else checkImage k (dropJobLoad s job q) m b.bytes

/-! ## Reading state -/

/-- A pull of a range, with its chunks not yet filled. -/
def newPull (k : Ctx) (s : State) (vc : Fvc) (qty matrix epoch : Nat) : Pull :=
  let first := k.h.chunkIndex.toNat
  let n := k.h.chunkCount.toNat
  { seq := k.seq, org := k.org, via := k.via, hdr := k.h, vc := vc, qty := qty, job := ciidJob k.h.ciid, matrix := matrix,
    epoch := epoch, first := first, total := n,
    chunks := (List.range n).map (fun i => ⟨first + i, [], none, false, 0, s.sf, false, false⟩), status := 0,
    closed := false, completed := false, fetchTag := none, peer := none, img := none, nextBlk := first * recChunk k.h.elemType.toNat / 65536, outs := [], fail := none }

def addPull (s : State) (p : Pull) : State := { s with fab := { s.fab with pulls := s.fab.pulls ++ [p] } }

/-- A pull whose every chunk is at hand is sent in order, and ends. -/
def serveNow (s : State) (p : Pull) (bytes : Nat → Bytes) : State :=
  let s := addPull s p
  closePull (p.chunks.foldl (fun s o => pushChunk s p.seq { o with bytes := bytes o.idx }) s) p.seq

/-- R77, R248, R430: the refusal of an epoch at a gateway, or 0. -/
def epochRefusal (j : Job) (e : Nat) : Nat :=
  if j.lost then 0x2101
  else if e > j.epoch then 0x2102
  else if e = j.epoch || (e + 1 = j.epoch && j.prev) then 0
  else 0x2101

/-- An epoch refused, captured where the request came in (R85, R498). -/
def refuseEpoch (k : Ctx) (s : State) (code : Nat) : State × Disp := (raise s (viaPage k.via) code 0, .refuse code)

/-- STATE_READ of WEIGHTS or MOMENTUM (R240). -/
def readQty (k : Ctx) (qty : Nat) (s : State) : State × Disp :=
  match stateMatrix k s (fun m => if qty = 1 then m.wType else 1) with
  | .inr r => r
  | .inl m =>
    let job := ciidJob k.h.ciid
    let j := jobOf s job
    let t := if qty = 1 then m.wType else 1
    let e := k.h.arg0.toNat
    let bad := epochRefusal j e
    if j.lost then refuseEpoch k s 0x2101
    else if bad ≠ 0 || (qty = 2 && (e ≠ j.epoch || j.outer.isSome || m.rule = 1)) then refuseOuter s 0x2902
    else if k.h.chunkIndex.toNat + k.h.chunkCount.toNat > recChunks t (m.rows * m.cols) then (s, .refuse 0x2207)
    else
      let base := if qty = 1 then homeBank m e else m.hM
      (serveNow s (newPull k s .mgmt qty m.matrix e) (fun i =>
        memBytes s.mem (base + i * recChunk t) (chunkLen t (m.rows * m.cols) i)), .taken)

def readWeights (k : Ctx) (s : State) : State × Disp := readQty k 1 s
def readMomentum (k : Ctx) (s : State) : State × Disp := readQty k 2 s

/-- STATE_READ of WEIGHT_BLOCKS (R264): the image as it was written. -/
def readBlocks (k : Ctx) (s : State) : State × Disp :=
  match stateMatrix k s (·.delivType) with
  | .inr r => r
  | .inl m =>
    let job := ciidJob k.h.ciid
    let e := k.h.arg0.toNat
    if (jobOf s job).lost then refuseEpoch k s 0x2101
    else match imageFor s job m.matrix e with
      | none => (raise s (.quad 0) 0x2A04 0, .refuse 0x2A04)
      | some img =>
        let bytes := img.blocks.flatMap id
        if k.h.chunkIndex.toNat + k.h.chunkCount.toNat > cdiv bytes.length 8192 then (s, .refuse 0x2207)
        else (serveNow s { newPull k s .mgmt 4 m.matrix e with img := some img.id } (fun i => slice bytes (8192 * i) 8192), .taken)

/-- READ_EPOCH (R77, R101, R430). -/
def readEpoch (k : Ctx) (s : State) : State × Disp :=
  let j := jobOf s (ciidJob k.h.ciid)
  let cur := if j.lost then 0 else j.epoch
  let old := if j.lost then 0 else if j.prev then j.epoch - 1 else j.epoch
  (sendComplete s k.org k.h 0 (beBytes 4 cur ++ beBytes 4 old ++ beBytes 8 j.switchSf), .done 0)

/-! ## Weight pulls (R100, R255) -/

/-- R255, R436: the gateway that serves a matrix: its home, or its partner while the home is being replaced. -/
def serverOf (s : State) (m : Matrix) : Nat :=
  if rosterSt s m.home = 2 || rosterSt s m.home = 3 then m.partner else m.home

/-- R255: a FETCH of a range, with an entry per chunk kept until its WDATA. -/
def fetchRange (s : State) (dst job t epoch matrix qty first n tag : Nat) : State :=
  let s := sendSt s (mkSt s 4 qty 0 dst job t epoch matrix first n 0 tag [])
  let one := fun (i : Nat) => (⟨mkSt s 4 qty 0 dst job t epoch matrix (first + i) 1 0 tag [], 1, s.sf⟩ : StSend)
  { s with stTx := s.stTx ++ (List.range n).map one }

/-- R254, R257: the momentum of a chunk at the partner: as held where its mark is set, else its fold with the
pseudo-gradient. -/
def partnerMomentum (s : State) (job : Nat) (m : Matrix) (i : Nat) : Bytes :=
  let j := jobOf s job
  let held := memBytes s.mem (m.pM + 8192 * i) (chunkLen 1 (m.rows * m.cols) i)
  if j.marks.contains (m.matrix, i) then held
  else
    let strict := match j.tab with | some t => t.strict | none => false
    let n := held.length / 4
    let d := (decodeElems strict m.dType (m.rows * m.cols) (memBytes s.mem m.pD (dSize m))).1
    let old := (List.range n).map (fun e => fromLe (slice held (4 * e) 4))
    (lincomb strict m.mu 0x3F800000 old ((d.drop (2048 * i)).take n)).1.flatMap (leBytes 4)

/-- WEIGHT_PULL (R77, R100, R255). -/
def weightPull (k : Ctx) (s : State) : State × Disp :=
  let h := k.h
  let job := ciidJob h.ciid
  let j := jobOf s job
  match matrixOf s job h.arg1.toNat with
  | none => (s, .refuse 0x220E)
  | some m =>
    let e := h.arg0.toNat
    let srv := serverOf s m
    if h.elemType.toNat ≠ m.delivType then (s, .refuse 0x2206)
    else if h.chunkIndex.toNat + h.chunkCount.toNat > matChunks m m.delivType then (s, .refuse 0x2207)
    else if j.lost then refuseEpoch k s 0x2101
    else if srv = gw s then
      let bad := if srv ≠ m.home && e < j.epoch then 0x2101 else epochRefusal j e
      if bad ≠ 0 then refuseEpoch k s bad
      else if srv ≠ m.home then
        (serveNow s (newPull k s .weight 1 m.matrix e) (bankChunk s m (partBank m e)), .taken)
      else match imageFor s job m.matrix e with
        | some img => (driveAll (addPull s { newPull k s .weight 1 m.matrix e with img := some img.id }), .taken)
        | none => (serveNow s (newPull k s .weight 1 m.matrix e) (bankChunk s m (homeBank m e)), .taken)
    else
      let tag := (s.stTag + 1) % 2 ^ 32
      let s := addPull { s with stTag := tag } { newPull k s .weight 1 m.matrix e with fetchTag := some tag }
      (fetchRange s srv job m.delivType e m.matrix 1 h.chunkIndex.toNat h.chunkCount.toNat tag, .taken)

end Sys2Proof.Machine
end

