-- ==== Sys2Proof/Machine/StateRec.lean ====
section
/-! DEFINITION. Machine/StateRec.lean: state records between gateways (R250, R251): replication, weight fetches and momentum
restore (R252, R254 to R257, R279), and their timers. -/
namespace Sys2Proof.Machine
open Sys2Proof

/-- R250: the quantity chunks of a matrix in a type. -/
def qtyChunks (m : Matrix) (t : Nat) : Nat := recChunks t (m.rows * m.cols)

/-- R240: the type in which a quantity travels between a pair. -/
def qtyType (m : Matrix) (qty : Nat) : Nat := if qty = 1 then m.wType else if qty = 2 then 1 else m.dType

/-- R250, R251: whether a header breaks its table. -/
def stMalformed (r : StRec) : Bool :=
  let h := r.hdr
  let k := h.kind.toNat
  let q := h.qty.toNat
  let data := k == 1 || k == 5
  h.sver != 1 || k == 0 || k > 6 || q == 0 || q > 3 || h.flags.toNat / 4 != 0 || h.rsvd1 != 0 || h.rsvd2 != 0 ||
  (!data && h.payloadLen != 0) || h.payloadLen.toNat > 8192 || r.payload.length != h.payloadLen.toNat ||
  (k != 6 && h.status != 0) || (k != 1 && bit h.flags.toNat 1) || ((k == 1 || k == 2) && h.tag != 0) ||
  (!data && k != 6 && (h.chunkCount == 0 || h.chunkCount.toNat > 65536)) ||
  (data && h.chunkIndex.toNat ≥ h.chunkCount.toNat) || (!data && h.valueCheck != 0)

/-- R250, R251: a state record from its arrival, up to what its kind does: a foreign datagram and one that fails CHECK are
dropped, a malformed one is counted as RECORD_BAD. `ok` says that the rest of the header fits this gateway. -/
def onState (kind : Nat) (via : RecVia) (r : StRec) (ok : State → Bool) (f : State → State) (s : State) : State :=
  if r.hdr.kind.toNat ≠ kind then s else
  match takeIn s via (statePort s) (64 + r.payload.length) (.srec r) with
  | (s, false) => s
  | (s, true) =>
    if r.hdr.check.toNat ≠ stCheck r then
      (match via with
       | .site d => count s (fportOf d.port) 0 1
       | .link g _ => count s (.line g) 3 1
       | .own => s)
    else if stMalformed r || r.hdr.dstGw.toNat ≠ gw s || !ok s then raise s (recPage via) 0x2601 0
    else f s

/-- A record that answers another: SACK of one chunk, or SRESEND of it. -/
def answerSt (s : State) (kind : Nat) (r : StRec) : State :=
  let h := r.hdr
  sendSt s (mkSt s kind h.qty.toNat 0 h.srcGw.toNat h.job.toNat h.elemType.toNat h.epoch.toNat h.matrix.toNat
    h.chunkIndex.toNat 1 0 h.tag.toNat [])

/-- The matrix a record names. -/
def stMatrix (s : State) (r : StRec) : Option Matrix := matrixOf s r.hdr.job.toNat r.hdr.matrix.toNat

/-- Whether VALUE_CHECK holds for a record's payload. -/
def stIntact (r : StRec) : Bool := r.hdr.valueCheck.toNat == crc64 r.payload

/-! ## Commitments of READY (R253) -/

/-- R252, R253: whether every phase-1 chunk of every matrix that this gateway partners has been written. -/
def phase1Done (s : State) (j : Job) (e : Nat) : Bool :=
  match j.tab with
  | none => true
  | some t => t.mats.all fun m => m.partner != gw s ||
      [1, 3].all (fun q => (List.range (qtyChunks m (qtyType m q))).all (fun i => (mget? j.repl (e, m.matrix, q, i)).isSome))

/-- R253: whether a gateway partners a matrix of a job. -/
def partners (s : State) (j : Job) : Bool :=
  match j.tab with | none => false | some t => t.mats.any (fun m => m.partner == gw s)

/-- R253: READY for an epoch, once. -/
def sendReady (s : State) (job e : Nat) : State :=
  let j := jobOf s job
  if j.readySent.contains e then s
  else
    let digest := match j.tab with | some t => t.digest.toNat | none => 0
    let s := setJob s job { j with readySent := e :: j.readySent }
    sendMaster s (.ctl (mkCtl s 5 0 (mkCiid job 0 0 0) e 0 digest))

/-- R253: the READY of a partner that has every phase-1 chunk. -/
def readyIfDone (s : State) (job : Nat) : State :=
  let j := jobOf s job
  if partners s j && phase1Done s j (j.epoch + 1) then sendReady s job (j.epoch + 1) else s

/-! ## REPL (R251, R252, R254) -/

/-- R242, R254: where a partner writes a replicated chunk, if it may take it now: momentum of the current epoch, the weights
and the pseudo-gradient of the epoch being formed, and initial replicas of either bank. R257: a candidate home takes initial
replicas from the partner. -/
def replTarget (me : Nat) (m : Matrix) (j : Job) (r : StRec) : Option Nat :=
  let h := r.hdr
  let e := h.epoch.toNat
  let t := qtyType m h.qty.toNat
  let off := h.chunkIndex.toNat * recChunk t
  let ini := bit h.flags.toNat 1
  let home := m.partner ≠ me
  match h.qty.toNat with
  | 1 => if ini || e = j.epoch + 1 then some ((if home then homeBank m e else partBank m e) + off) else none
  | 2 => if ini || e = j.epoch then some ((if home then m.hM else m.pM) + off) else none
  | _ => if ini || e = j.epoch + 1 then some ((if home then m.hD else m.pD) + off) else none

/-- R251, R257: whether a REPL fits the table: from the home to the partner, or, while this gateway is a candidate, from the
partner to the home with INITIAL = 1. -/
def replFits (s : State) (r : StRec) : Bool :=
  let h := r.hdr
  match stMatrix s r with
  | none => false
  | some m =>
    let t := qtyType m h.qty.toNat
    let back := rosterSt s (gw s) = 2 && bit h.flags.toNat 1 && m.home == gw s && m.partner == h.srcGw.toNat
    (m.partner == gw s && m.home == h.srcGw.toNat || back) && h.elemType.toNat == t && (h.qty != 2 || m.rule != 1) &&
    h.chunkCount.toNat == qtyChunks m t && r.payload.length == chunkLen t (m.rows * m.cols) h.chunkIndex.toNat

/-- R438: a quantity whose digest a candidate has sent is replicated again: what it took of it before is forgotten. -/
def againRepl (s : State) (job matrix qty : Nat) : State :=
  if !s.rseq.stSent.contains (job, matrix, qty) then s
  else
    let j := jobOf s job
    let s := { s with rseq := { s.rseq with stSent := s.rseq.stSent.filter (· != (job, matrix, qty)) } }
    setJob s job { j with repl := j.repl.filter (fun e => !(e.1.2.1 == matrix && e.1.2.2.1 == qty)) }

/-- R251, R254: a REPL chunk at the gateway that keeps it; another of the same chunk with a different VALUE_CHECK is not taken. -/
def takeRepl (via : RecVia) (r : StRec) (s : State) : State :=
  let h := r.hdr
  let job := h.job.toNat
  let fresh := bit h.flags.toNat 1 && !bit h.flags.toNat 0
  match stMatrix s r with
  | none => s
  | some m =>
    let key := (h.epoch.toNat, m.matrix, h.qty.toNat, h.chunkIndex.toNat)
    if !stIntact r then answerSt s 3 r
    else
      let s := if fresh then againRepl s job m.matrix h.qty.toNat else s
      let j := jobOf s job
      match mget? j.repl key with
      | some v =>
        if v = h.valueCheck.toNat then answerSt s 2 r else raise s (recPage via) 0x3903 0
      | none =>
        match replTarget (gw s) m j r with
        | none => s
        | some a =>
          let mark := if h.qty = 2 && m.partner = gw s then
              (m.matrix, h.chunkIndex.toNat) :: j.marks.filter (· != (m.matrix, h.chunkIndex.toNat))
            else j.marks
          let s := setJob (storeMem s a r.payload) job
            { j with repl := mset j.repl key h.valueCheck.toNat, marks := mark }
          readyIfDone (answerSt s 2 r) job

/-- REPL_RX (R251). -/
def execReplRx (via : RecVia) (r : StRec) (s : State) : Host.Outcome State Fault Refusal :=
  .next (onState 1 via r (fun s => replFits s r) (takeRepl via r) s)

/-! ## SACK and SRESEND -/

/-- Whether a kept record is named by an answer of the gateway it was sent to. -/
def namesSt (r : StRec) (k : Nat) (x : StSend) : Bool :=
  let a := x.rcd.hdr
  let h := r.hdr
  a.kind.toNat == k && a.dstGw == h.srcGw && a.job == h.job && a.matrix == h.matrix && a.qty == h.qty &&
  a.epoch == h.epoch && h.chunkIndex.toNat ≤ a.chunkIndex.toNat &&
  a.chunkIndex.toNat < h.chunkIndex.toNat + h.chunkCount.toNat

/-- SACK_RX (R251): the home releases its copies of the chunks named. -/
def execSackRx (via : RecVia) (r : StRec) (s : State) : Host.Outcome State Fault Refusal :=
  .next (onState 2 via r (fun s => (stMatrix s r).isSome)
    (fun s => { s with stTx := s.stTx.filter (fun x => !namesSt r 1 x) }) s)

/-- R251: a kept record sent again. -/
def resendSt (x : StSend) : StRec :=
  if x.rcd.hdr.kind = 1 then sealSt { x.rcd with hdr := { x.rcd.hdr with flags := x.rcd.hdr.flags ||| 1 } } else x.rcd

/-- R251: WDATA of one chunk. -/
def sendWdata (s : State) (r : StRec) (m : Matrix) (job i count : Nat) (resent : Bool) : State :=
  let h := r.hdr
  let p := if h.qty = 2 then partnerMomentum s job m i
           else bankChunk s m (if m.home = gw s then homeBank m h.epoch.toNat else partBank m h.epoch.toNat) i
  sendSt s (mkSt s 5 h.qty.toNat (b2n resent) h.srcGw.toNat job h.elemType.toNat h.epoch.toNat m.matrix i count 0
    h.tag.toNat p)


/-! ## FETCH (R251, R255 to R257) -/

/-- R240, R255: the refusal of a FETCH at the gateway that serves it, or 0. -/
def fetchRefusal (s : State) (m : Matrix) (r : StRec) : Nat :=
  let h := r.hdr
  let j := jobOf s h.job.toNat
  let e := h.epoch.toNat
  let t := if h.qty = 1 then m.delivType else 1
  if m.home ≠ gw s && m.partner ≠ gw s then 0x2501
  else if h.elemType.toNat ≠ t || h.qty = 3 || (h.qty = 2 && (m.rule = 1 || m.partner ≠ gw s)) then 0x2206
  else if h.chunkIndex.toNat + h.chunkCount.toNat > qtyChunks m t then 0x2207
  else if j.lost then 0x2101
  else if m.home = gw s then epochRefusal j e
  else if e < j.epoch then 0x2101 else if e > j.epoch then 0x2102 else 0

/-- R85, R251, R255, R498: a FETCH refused with FETCH_END; a code about its epoch is captured where it came in. -/
def refuseFetch (via : RecVia) (r : StRec) (s : State) (code : Nat) : State :=
  let h := r.hdr
  let s := if code = 0x2101 || code = 0x2102 then raise s (recPage via) code 0 else s
  sendSt s (mkSt s 6 h.qty.toNat 0 h.srcGw.toNat h.job.toNat h.elemType.toNat h.epoch.toNat h.matrix.toNat 0 0 code
    h.tag.toNat [])

/-- SRESEND_RX (R251): REPL copies are sent again; fetched chunks are served again from their area, while its epoch may still be
fetched. -/
def execSresendRx (via : RecVia) (r : StRec) (s : State) : Host.Outcome State Fault Refusal :=
  .next (onState 3 via r (fun s => (stMatrix s r).isSome) (fun s =>
    let mine := s.stTx.filter (namesSt r 1)
    if !mine.isEmpty then
      -- a sending asked for counts toward the eight
      let again := fun (x : StSend) => namesSt r 1 x && x.sends < 8
      let s := { s with stTx := s.stTx.map (fun x => if again x then { x with sends := x.sends + 1, sf := s.sf } else x) }
      (mine.filter again).foldl (fun s x => sendSt s (resendSt x)) s
    else match stMatrix s r with
      | some m =>
        if r.hdr.tag = 0 then s
        else if fetchRefusal s m r ≠ 0 then refuseFetch via r s (fetchRefusal s m r)
        else (List.range r.hdr.chunkCount.toNat).foldl (fun s i =>
          sendWdata s r m r.hdr.job.toNat (r.hdr.chunkIndex.toNat + i) (qtyChunks m r.hdr.elemType.toNat) true) s
      | none => s) s)

/-- R251, R255, R264: a FETCH served: from an image, from a bank, or the partner's momentum; or refused. -/
def serveFetch (via : RecVia) (r : StRec) (s : State) : State :=
  let h := r.hdr
  let job := h.job.toNat
  let e := h.epoch.toNat
  match stMatrix s r with
  | none => refuseFetch via r s 0x220E
  | some m =>
    let bad := fetchRefusal s m r
    if bad ≠ 0 then refuseFetch via r s bad
    else
      let seq := s.fab.seq
      let n := h.chunkCount.toNat
      let first := h.chunkIndex.toNat
      let img := if h.qty = 1 && m.home == gw s then imageFor s job m.matrix e else none
      let hd : Header := { Header.zero with elemType := h.elemType,
                                            chunkCount := BitVec.ofNat 32 (qtyChunks m h.elemType.toNat) }
      let p : Pull :=
        { seq := seq, org := .win 0, via := .window 0, hdr := hd, vc := .weight, qty := h.qty.toNat, job := job,
          matrix := m.matrix, epoch := e, first := first, total := n,
          chunks := (List.range n).map (fun i => ⟨first + i, [], none, false, 0, s.sf, false, false⟩), status := 0,
          closed := false, completed := false, fetchTag := none, peer := some (h.srcGw.toNat, h.tag.toNat),
          img := img.map (·.id), nextBlk := first * recChunk h.elemType.toNat / 65536, outs := [], fail := none }
      let s := { s with fab := { s.fab with seq := seq + 1 } }
      match img with
      | some _ => driveAll (addPull s p)
      | none => serveNow s p (fun i =>
          if h.qty = 2 then partnerMomentum s job m i
          else bankChunk s m (if m.home = gw s then homeBank m e else partBank m e) i)

/-- FETCH_RX (R251, R255). -/
def execFetchRx (via : RecVia) (r : StRec) (s : State) : Host.Outcome State Fault Refusal :=
  .next (onState 4 via r (fun _ => true) (serveFetch via r) s)

/-! ## WDATA and FETCH_END (R255, R256, R279) -/

/-- R256: the RECOVER_DONE kept back until every restored chunk is written goes to the master. -/
def restoreDone (s : State) (job : Nat) : State :=
  if !(jobOf s job).restore.isEmpty then s
  else match mget? s.rseq.lastDone job with
    | some m => sendMaster s (.rcv m)
    | none => s

/-- R255, R256: a chunk that answers a FETCH: relayed as a RESULT, or written back into the momentum. -/
def takeWdata (r : StRec) (s : State) : State :=
  let h := r.hdr
  let job := h.job.toNat
  let i := h.chunkIndex.toNat
  let mine := fun (x : StSend) => x.rcd.hdr.kind == 4 && x.rcd.hdr.tag == h.tag && x.rcd.hdr.dstGw == h.srcGw &&
    x.rcd.hdr.matrix == h.matrix && x.rcd.hdr.qty == h.qty && x.rcd.hdr.epoch == h.epoch && x.rcd.hdr.chunkIndex == h.chunkIndex
  if !s.stTx.any mine then s
  else if !stIntact r then answerSt s 3 r
  else
    let s := { s with stTx := s.stTx.filter (fun x => !mine x) }
    if h.qty = 2 then
      (match matrixOf s job h.matrix.toNat with
       | none => s
       | some m =>
         let j := jobOf s job
         let s := storeMem s (m.hM + 8192 * i) r.payload
         restoreDone (setJob s job { j with restore := j.restore.filter (· != (m.matrix, i)) }) job)
    else match s.fab.pulls.find? (fun p => p.fetchTag == some h.tag.toNat && p.peer.isNone) with
      | none => s
      | some p =>
        match p.chunks.find? (fun o => o.idx == i) with
        | none => s
        | some o => if o.sends > 0 then s else closePull (pushChunk s p.seq { o with bytes := r.payload }) p.seq

/-- WDATA_RX (R251, R255). -/
def execWdataRx (via : RecVia) (r : StRec) (s : State) : Host.Outcome State Fault Refusal :=
  .next (onState 5 via r (fun s => (stMatrix s r).isSome) (takeWdata r) s)

/-- R277: the codes of a block that fails to expand. -/
def blockFailure (code : Nat) : Bool := code ∈ [0x2302, 0x2303, 0x2304, 0x2A01, 0x2A02]

/-- R255, R279: a pull that a FETCH_END ends: refused, its code the status of the COMPLETE and no chunk owed; failed from
chunk f on, those chunks poisoned under the status. -/
def endFetched (s : State) (p : Pull) (code f : Nat) : State :=
  if blockFailure code then
    let t := p.hdr.elemType.toNat
    let total := match matrixOf s p.job p.matrix with | some m => encSize t (m.rows * m.cols) | none => 0
    let s := putPull s { p with status := code, fail := some (f, code) }
    let s := (p.chunks.filter (fun o => o.idx ≥ f)).foldl (fun s o =>
      pushChunk s p.seq { o with bytes := poisonBytes p t total o.idx, poison := some code }) s
    closePull s p.seq
  else
    let s := sendComplete s p.org p.hdr code []
    let s := markDone s (fun x => x.seq == p.seq) code
    harvestPull (putPull s { p with status := code, completed := true, chunks := p.chunks.filter (fun o => o.sends > 0) }) p.seq

/-- R251, R255, R279: FETCH_END: SUCCESS closes the fetch, whose missing chunks their timers ask for; any other status ends
what has not come. -/
def takeFetchEnd (r : StRec) (s : State) : State :=
  let h := r.hdr
  let code := h.status.toNat
  let f := h.chunkIndex.toNat
  let blk := blockFailure code
  let mine := fun (x : StSend) => x.rcd.hdr.kind == 4 && x.rcd.hdr.tag == h.tag && x.rcd.hdr.dstGw == h.srcGw &&
    (!blk || x.rcd.hdr.chunkIndex.toNat ≥ f)
  if code = 0 then s
  else
    let s := { s with stTx := s.stTx.filter (fun x => !mine x) }
    match s.fab.pulls.find? (fun p => p.fetchTag == some h.tag.toNat && p.peer.isNone) with
    | some p => if p.completed then s else endFetched s p code f
    | none => s

/-- FETCH_END_RX (R251, R255, R279). -/
def execFetchEndRx (via : RecVia) (r : StRec) (s : State) : Host.Outcome State Fault Refusal :=
  .next (onState 6 via r (fun _ => true) (takeFetchEnd r) s)

/-! ## Timers (R251) -/

/-- R259: the LINE or FPORT page of the way to a gateway. -/
def pageTo (s : State) (dst : Nat) : PageId :=
  if dst / 64 = site s then fportOf (Config.sitePort dst)
  else match (List.finRange 4).findSome? (fun g => linkTo s g dst) with
    | some l => .line l.1
    | none => .line 0

/-- STATE_RECORD_TIMER (R154, R251): an unanswered REPL or FETCH chunk is sent again; after the eighth sending REPLICA_SILENT,
or the fetch ends with FETCH_SILENT. -/
def execStateRecordTimer (i : Nat) (s : State) : Host.Outcome State Fault Refusal :=
  .next (match s.stTx[i]? with
    | none => s
    | some x =>
      let dst := x.rcd.hdr.dstGw.toNat
      let due := if dst / 64 = site s then x.sf + 13 else x.sf + 2 * s.lt.d + 16
      if s.sf < due || x.sends > 8 then s
      else if x.sends < 8 then
        sendSt { s with stTx := s.stTx.set i { x with sends := x.sends + 1, sf := s.sf } } (resendSt x)
      else if x.rcd.hdr.kind = 1 then
        raise { s with stTx := s.stTx.set i { x with sends := 9 } } (pageTo s dst) 0x3903 0
      else
        let s := raise s (pageTo s dst) 0x2903 0
        let s := { s with stTx := s.stTx.filter (fun y => !(y.rcd.hdr.kind == 4 && y.rcd.hdr.tag == x.rcd.hdr.tag)) }
        match s.fab.pulls.find? (fun p => p.fetchTag == some x.rcd.hdr.tag.toNat && p.peer.isNone) with
        | some p => if p.completed then s else endFetched s p 0x2903 0
        | none => s)

end Sys2Proof.Machine
end

