-- ==== Sys2Proof/Machine/Publish.lean ====
section
/-! DEFINITION. Machine/Publish.lean: the end of a step: gateway records (R218), harvest reports and commit (R79), READY, publish
and the epoch switch (R74 to R76, R252 to R254), and table digests that differ (R239). -/
namespace Sys2Proof.Machine
open Sys2Proof

/-! ## Gateway records (R218, R252) -/

/-- R218: whether a cell of a step counts as ended for the step's record. -/
def cellEnded (s : State) (replay : Nat) (d : Desc) : Bool :=
  let c := d.full replay
  let ir := instRec s c
  let cl := cellOf s d.cell
  ir.harvested || ir.decided.isSome || (cl.ciid == c && (cl.st == .complete || cl.st == .harvested || isErr cl.st))

/-- R218: whether an open record can close. -/
def recordEnded (s : State) (o : OpenRec) : Bool :=
  match slotPlan s o.slot with
  | none => false
  | some p => match p.stepOf o.step with
    | none => false
    | some st => (List.finRange 64).all (fun t => !bit p.tileMask t.val || o.ended.contains t.val) &&
        st.descs.all (cellEnded s o.replay)

/-- R252: phase 1 at a home: the working bank and the pseudo-gradient of every matrix it homes go to the partner. -/
def phase1 (s : State) (job : Nat) : State :=
  let j := jobOf s job
  match j.tab with
  | none => s
  | some t => (t.mats.filter (fun m => m.home == gw s)).foldl (fun s m =>
      let e := j.epoch + 1
      let s := replicate s job m 1 0 e m.wType (homeBank m e) (wSize m)
      replicate s job m 3 0 e m.dType m.hD (dSize m)) s

/-- R438: a step of a proving plan has ended: its digest goes to the master, and the slot empties after the last. -/
def closeProof (s : State) (o : OpenRec) (p : Plan) : State :=
  let r := nextSerial s
  let v := mget s.rseq.pdig o.step 0
  let s := sendMaster r.1 (.rcv (sealRcv (mkRcv r.1 0x16 (masterGw r.1) 0 r.2 0 (mkCiid p.job o.step 0 0) (gw r.1) 3 r.1.sf v 0)))
  if o.step = p.last then
    let s := { s with rseq := { s.rseq with compute := none } }
    let s := (List.finRange 64).foldl (fun s t =>
      if (tileOf s t).slot = o.slot && bit p.tileMask t.val then
        setTile s t { tileOf s t with todo := none, active := false, seq := .idle } else s) s
    clearSlot s o.slot
  else s

/-- STEP_RECORD_CLOSE (R218, R252, R253): the first open record of a step that can close does. -/
def execStepRecordClose (step : BitVec 24) (s : State) : Host.Outcome State Fault Refusal :=
  .next (match s.plans.opens.find? (fun o => o.step == step.toNat && recordEnded s o) with
    | none => s
    | some o =>
      match slotPlan s o.slot with
      | none => s
      | some p =>
        let r : StepRec := ⟨o.step, o.replay, o.flags % 512, o.startSf % 2 ^ 32, s.sf % 2 ^ 32⟩
        let rs := s.plans.records ++ [r]
        let qs := (List.finRange 4).filter (fun q => fld p.tileMask (16 * q.val + 15) (16 * q.val) != 0)
        let s := { s with plans := { s.plans with opens := s.plans.opens.erase o, records := rs.drop (rs.length - 64),
                                                  qrec := qs.foldl (fun m q => mset m q r) s.plans.qrec } }
        if s.rseq.compute = some o.slot then closeProof s o p else
        let s := match p.stepOf o.step with
          | some st => if st.descs.isEmpty then
              sendMaster s (.ctl (mkCtl s 3 0 (mkCiid p.job o.step 0 o.replay) 0 0 0)) else s
          | none => s
        let j := jobOf s p.job
        if j.outer ≠ some (o.step, o.replay) then s
        else
          let s := if bit o.flags 4 then s else phase1 s p.job
          if partners s j then s else sendReady s p.job (j.epoch + 1))

/-! ## Commit (R79) -/

/-- R82: inputs held for a step that commits. -/
def dropHeldStep (s : State) (job step : Nat) : State :=
  refuseHeld s (fun i => ciidJob i.ciid == job && ciidStep i.ciid == step)

/-- R79, R163: a step commits at this gateway: its projection states come into force and its held inputs go. -/
def commitStep (s : State) (job step : Nat) : State :=
  if committed s job step then s
  else
    let s := { s with plans := { s.plans with committed := (job, step) :: s.plans.committed },
                      ledger := { s.ledger with commitSf := mset s.ledger.commitSf (job, step) s.sf } }
    let now := fun (e : (Nat × Nat) × PState) =>
      match e.2.next with
      | some n => if e.1.1 = job ∧ n.1 = step then (e.1, (⟨some n.2, none⟩ : PState)) else e
      | none => e
    dropHeldStep { s with coll := { s.coll with psts := s.coll.psts.map now } } job step


/-- R79: whether every gateway of the job has reported a step attempt harvested. -/
def allHarvested (s : State) (job step replay : Nat) : Bool :=
  match s.commits.find? (fun c => c.job == job && c.step == step && c.replay == replay) with
  | some c => (activeGws s).all (fun g => c.gws.contains g)
  | none => false

/-- R79: whether the recoveries of a job are ended at the master. -/
def jobQuiet (s : State) (job : Nat) : Bool := (jobRec s job).level == 0 && (jobRec s job).waiting.isEmpty

/-- R79, R253: whether every other step that has begun before one is committed. -/
def earlierCommitted (s : State) (job step : Nat) : Bool :=
  [s.plans.slot0, s.plans.slot1].all fun x => match x.plan with
    | some p => p.job != job || x.begun.all (fun st => !stepBefore s job st step || committed s job st)
    | none => true

/-- R253, R74, R239: the publish of epoch c + 1 at the master, once every condition holds; `pg` is the page of the block that received
what completed them (R498). -/
def tryPublish (pg : PageId) (s : State) (job : Nat) : State :=
  let j := jobOf s job
  match j.outer with
  | none => s
  | some (step, replay) =>
    let e := j.epoch + 1
    let rs := j.readies.filter (fun r => r.epoch == e)
    if !(activeGws s).all (fun g => rs.any (fun r => r.gw == g)) || committed s job step then s
    else
      let first := match rs with | r :: _ => r.digest | [] => 0
      if rs.any (fun r => r.digest != first) then
        let s := setJob s job { j with readies := [] }
        let s := masterSends s (.ctl (mkCtl s 7 0 (mkCiid job 0 0 0) 0 0 0))
        masterRequest s ⟨3, 0x3901, mkCiid job step 0 replay, gw s⟩
      else if !allHarvested s job step replay || !jobQuiet s job || !earlierCommitted s job step || j.pub.isSome then s
      else if e ≥ 0xFFFFFFFF then
        raiseFor (setJob s job { j with readies := [] }) pg 0x3102 0 (mkCiid job step 0 replay)
      else
        let s := { s with commits := s.commits.filter (fun c => !(c.job == job && c.step == step)) }
        let s := setJob s job { j with readies := [] }
        masterSends s (.ctl (mkCtl s 6 0 (mkCiid job 0 0 0) e (s.sf + s.lt.d + 64) 0))

/-- R79: the commit of a step without an outer update, once every gateway has harvested it. -/
def tryCommit (pg : PageId) (s : State) (job step replay : Nat) : State :=
  if (jobOf s job).outer = some (step, replay) then tryPublish pg s job
  else if committed s job step || !allHarvested s job step replay || !jobQuiet s job then s
  else
    let s := { s with commits := s.commits.filter (fun c => !(c.job == job && c.step == step)) }
    masterSends s (.ctl (mkCtl s 4 0 (mkCiid job step 0 replay) 0 s.sf 0))

/-- R79: a commit or the end of a recovery may free what the master has yet to commit or publish of a job. -/
def settleCommits (pg : PageId) (s : State) (job : Nat) : State :=
  if s.lt.st ≠ .master || !quorum s then s
  else (s.commits.filter (fun c => c.job == job)).foldl (fun s c => tryCommit pg s job c.step c.replay) s

/-- COMMIT_RX (R79). -/
def execCommitRx (via : RecVia) (m : Ctl) (s : State) : Host.Outcome State Fault Refusal :=
  .next (if m.ctype ≠ 4 then s else
    let r := arriveCtl via m false s
    let job := ciidJob m.ciid
    if r.2 then settleCommits (recPage via) (commitStep r.1 job (ciidStep m.ciid)) job else r.1)

/-- HARVEST_RX (R79, R428): the master notes a gateway's harvest report. -/
def execHarvestRx (via : RecVia) (m : Ctl) (s : State) : Host.Outcome State Fault Refusal :=
  .next (if m.ctype ≠ 3 then s else
    let r := arriveCtl via m true s
    let s := r.1
    if !r.2 then s
    else
      let job := ciidJob m.ciid
      let step := ciidStep m.ciid
      let rep := ciidReplay m.ciid
      let g := m.srcGw.toNat
      let mine := fun (c : Commit) => c.job == job && c.step == step && c.replay == rep
      let s := if s.commits.any mine then
          { s with commits := s.commits.map (fun c => if mine c && !c.gws.contains g then { c with gws := g :: c.gws } else c) }
        else { s with commits := s.commits.concat ⟨job, step, rep, [g]⟩ }
      tryCommit (recPage via) s job step rep)

/-- READY_RX (R253). -/
def execReadyRx (via : RecVia) (m : Ctl) (s : State) : Host.Outcome State Fault Refusal :=
  .next (if m.ctype ≠ 5 then s else
    let r := arriveCtl via m true s
    let s := r.1
    if !r.2 then s
    else
      let job := ciidJob m.ciid
      let j := jobOf s job
      let rs := j.readies.filter (fun x => x.gw != m.srcGw.toNat)
      tryPublish (recPage via) (setJob s job { j with readies := rs.concat ⟨m.srcGw.toNat, m.epoch.toNat, m.digest⟩ }) job)

/-! ## Publish and the switch (R76, R253, R254) -/

/-- R253 orders 5 to 7, R254: epoch e becomes current, with the superframe it was published for. -/
def switchEpoch (s : State) (job e p : Nat) : State :=
  let j := jobOf s job
  let s := setJob s job { j with epoch := e, prev := true, switchSf := p, pub := none, marks := [], outer := none,
                                 momWritten := [], readySent := [], repl := j.repl.filter (fun x => x.1.1 == e) }
  match j.tab with
  | none => s
  | some t => (t.mats.filter (fun m => m.home == gw s && m.rule != 1)).foldl (fun s m =>
      replicate s job m 2 0 e 1 m.hM (mSize m)) s

/-- PUBLISH_RX (R76, R253): the notice commits the outer step and holds the switch for SF P; one after P switches at once,
with PUBLISH_LATE. A notice of an epoch that is current or held already (R429) has no effect. -/
def execPublishRx (via : RecVia) (m : Ctl) (s : State) : Host.Outcome State Fault Refusal :=
  .next (if m.ctype ≠ 6 then s else
    let r := arriveCtl via m false s
    let s := r.1
    if !r.2 then s
    else
      let job := ciidJob m.ciid
      let j := jobOf s job
      let e := m.epoch.toNat
      let p := m.sf.toNat
      if e ≤ j.epoch || j.pub.isSome then s
      else
        let s := match j.outer with | some x => commitStep s job x.1 | none => s
        let s := if s.sf > p then switchEpoch (raise s (recPage via) 0x1101 0) job e p
          else setJob s job { jobOf s job with pub := some (e, p) }
        settleCommits (recPage via) s job)

/-- EPOCH_SWITCH (R76, R253): at SF P, slot 0, offset 0. -/
def execEpochSwitch (job : BitVec 16) (s : State) : Host.Outcome State Fault Refusal :=
  .next (match (jobOf s job.toNat).pub with
    | none => s
    | some (e, p) => if s.sf < p then s else switchEpoch s job.toNat e p)

/-- TABLE_MISMATCH_RX (R239): OUTER_TABLE_MISMATCH, and the instances of the outer step fail as TAINTED. -/
def execTableMismatchRx (via : RecVia) (m : Ctl) (s : State) : Host.Outcome State Fault Refusal :=
  .next (if m.ctype ≠ 7 then s else
    let r := arriveCtl via m false s
    let s := r.1
    if !r.2 then s
    else
      let job := ciidJob m.ciid
      match (jobOf s job).outer with
      | none => raise s (.quad 0) 0x3901 0
      | some (step, replay) =>
        let s := raiseFor s (.quad 0) 0x3901 0 (mkCiid job step 0 replay)
        let ds := [s.plans.slot0, s.plans.slot1].flatMap fun x => match x.plan with
          | some p => if p.job = job then (match p.stepOf step with | some st => st.descs | none => []) else []
          | none => []
        ds.foldl (fun s d => applyDecision s (d.full replay) .tainted) s)

end Sys2Proof.Machine
end

