-- ==== Sys2Proof/Machine/Fec.lean ====
section
/-! DEFINITION. Machine/Fec.lean: the line signal of one slot of 125 ns: the outer Reed–Solomon code (R290), the inner quasi-cyclic
LDPC code (R291), symbols and pilots (R285, R286), and the decoding of received soft bits (R292). -/
namespace Sys2Proof.Machine
open Sys2Proof

/-! ## Dealing and weaving lists -/

/-- A list cut into n pieces of k. -/
def cutList {α : Type} (k : Nat) : Nat → List α → List (List α)
  | 0, _ => []
  | n + 1, l => l.take k :: cutList k n (l.drop k)

/-- Every k-th element of a list, from the one numbered c on. -/
def stride {α : Type} (k : Nat) : Nat → List α → List α
  | _, [] => []
  | 0, a :: l => a :: stride k (k - 1) l
  | c + 1, _ :: l => stride k c l

/-- The first n columns of rows laid one above another. -/
def columns {α : Type} : Nat → List (List α) → List (List α)
  | 0, _ => []
  | n + 1, ls => ls.filterMap List.head? :: columns n (ls.map List.tail)

/-- The n low bits of a number, most significant first. -/
def msbBits (n v : Nat) : List Bool := (List.range n).map (fun i => v.testBit (n - 1 - i))

/-- The number that bits spell, most significant first. -/
def ofMsb (l : List Bool) : Nat := l.foldl (fun a b => 2 * a + b2n b) 0

/-! ## GF(2^10) (R290) -/

/-- Multiplication by α modulo x^10 + x^3 + 1. -/
def gfAlpha (a : Nat) : Nat := if a ≥ 512 then (2 * a) ^^^ 0x409 else 2 * a

def rsMul (a b : Nat) : Nat :=
  (msbBits 10 b).foldl (fun acc x => if x then gfAlpha acc ^^^ a else gfAlpha acc) 0

/-- α^n. -/
def gfExp (n : Nat) : Nat := (fun a => gfAlpha a)^[n % 1023] 1

/-- a^1022, the inverse of a nonzero a: the product of a^2, a^4 … a^512. -/
def rsInv (a : Nat) : Nat :=
  ((List.range 9).foldl (fun (p : Nat × Nat) _ => let q := rsMul p.1 p.1; (q, rsMul p.2 q)) (a, 1)).2

/-- A polynomial, lowest coefficient first, at a point. -/
def gfEval (p : List Nat) (x : Nat) : Nat := p.foldr (fun c acc => c ^^^ rsMul acc x) 0

/-! ## The outer code (R290) -/

/-- The generator (x − α^0) … (x − α^21) below its leading term, highest coefficient first. -/
def rsGen : List Nat :=
  ((List.range 22).foldl (fun g i => List.zipWith (fun a b => a ^^^ rsMul b (gfExp i)) (g ++ [0]) (0 :: g)) [1]).tail

/-- R290: the 22 parity symbols of 1,000 information symbols, the first of them the highest coefficient. -/
def rsParity (info : List Nat) : List Nat :=
  info.foldl (fun reg m =>
    let f := m ^^^ reg.headD 0
    List.zipWith (fun r c => r ^^^ rsMul f c) (reg.tail ++ [0]) rsGen) (List.replicate 22 0)

def rsEncode (info : List Nat) : List Nat := info ++ rsParity info

/-- The 22 syndromes of a word of 1,022 symbols. -/
def rsSyndromes (w : List Nat) : List Nat :=
  (List.range 22).map (fun i => let a := gfExp i; w.foldl (fun acc c => rsMul acc a ^^^ c) 0)

/-- Berlekamp–Massey: the locator of the shortest recurrence of the syndromes, with its length. The state is the locator, the one
before its last change with that change's discrepancy and the steps since, and the length. -/
def rsLocator (syn : List Nat) : List Nat × Nat :=
  let step := fun (p : List Nat × List Nat × Nat × Nat × Nat) (n : Nat) =>
    let (c, b, d0, m, len) := p
    let d := (List.range (len + 1)).foldl (fun a i => a ^^^ rsMul (c.getD i 0) (syn.getD (n - i) 0)) 0
    if d = 0 then (c, b, d0, m + 1, len)
    else
      let k := rsMul d (rsInv d0)
      let sh := List.replicate m 0 ++ b.map (rsMul k)
      let c' := (List.range (max c.length sh.length)).map (fun i => c.getD i 0 ^^^ sh.getD i 0)
      if 2 * len ≤ n then (c', c, d, 1, n + 1 - len) else (c', b, d0, m + 1, len)
  let r := (List.range 22).foldl step ([1], [1], 1, 1, 0)
  (r.1, r.2.2.2.2)

/-- The value of an error at the place whose locator is x: Forney's formula. -/
def rsError (syn loc : List Nat) (x : Nat) : Nat :=
  let y := rsInv x
  let omega := (List.range 22).map (fun i =>
    (List.range (i + 1)).foldl (fun a j => a ^^^ rsMul (loc.getD j 0) (syn.getD (i - j) 0)) 0)
  let deriv := (List.range (loc.length - 1)).map (fun i => if i % 2 = 0 then loc.getD (i + 1) 0 else 0)
  rsMul x (rsMul (gfEval omega y) (rsInv (gfEval deriv y)))

/-- R290, R292: a word of 1,022 symbols decoded: the codeword within 11 symbols of it with their number, or none. -/
def rsDecode (w : List Nat) : Option (List Nat × Nat) :=
  let syn := rsSyndromes w
  if syn.all (· == 0) then some (w, 0)
  else
    let (loc, len) := rsLocator syn
    let fixed := w.mapIdx (fun j c =>
      let x := gfExp (w.length - 1 - j)
      if gfEval loc (rsInv x) = 0 then c ^^^ rsError syn loc x else c)
    let n := ((List.zipWith (fun a b => a != b) w fixed).filter id).length
    if len ≤ 11 && n ≤ 11 && (rsSyndromes fixed).all (· == 0) then some (fixed, n) else none

/-- R290: the 5,000 symbols of a slot's payload, and its five outer codewords. -/
def slotSymbols (payload : Bytes) : List Nat := (cutList 10 5000 (payload.flatMap (fun b => msbBits 8 b.toNat))).map ofMsb
def outerWords (payload : Bytes) : List (List Nat) :=
  (List.range 5).map (fun c => rsEncode (stride 5 c (slotSymbols payload)))

/-- R290: the information of inner codeword c: symbol i of outer codeword (c − i) mod 5. -/
def innerInfo (rows : List (List Nat)) (c : Nat) : List Bool :=
  (rows.mapIdx (fun i r => r.getD ((c + 4 * i) % 5) 0)).flatMap (msbBits 10)

/-! ## The inner code (R291) -/

/-- The size of a circulant. -/
def qcZ : Nat := 511

/-- R291: the entries of a row of the base matrix: column and shift. -/
def baseRow (i : Nat) : List (Nat × Nat) :=
  (List.range 20).map (fun j => (j, 3 ^ i * (17 * j + 5) % qcZ)) ++
  (match i with
   | 0 => [(20, 1), (21, 0)]
   | 1 => [(21, 0), (22, 0)]
   | 2 => [(20, 0), (22, 0), (23, 0)]
   | _ => [(20, 1), (23, 0)])

/-- P^s applied to a block: its element r is the block's element (r + s) mod 511. -/
def turn {α : Type} (s : Nat) (l : List α) : List α := l.drop s ++ l.take s

def xorBits (a b : List Bool) : List Bool := List.zipWith (fun x y => x != y) a b

/-- The sum of the turned blocks that a list of entries names. -/
def rowSum (blocks : List (List Bool)) (row : List (Nat × Nat)) : List Bool :=
  row.foldl (fun a e => xorBits a (turn e.2 (blocks.getD e.1 []))) (List.replicate qcZ false)

/-- R291: H × c = 0, for the 24 blocks of c. -/
def ldpcOk (blocks : List (List Bool)) : Bool := (List.range 4).all (fun i => (rowSum blocks (baseRow i)).all (! ·))

/-- R291: the codeword of 10,220 information bits, as blocks. The four rows sum to the first parity block, since the other three each
stand in two rows; rows 0, 1 and 3 then give those. -/
def ldpcEncode (info : List Bool) : List (List Bool) :=
  let u := cutList qcZ 20 info
  let s := fun i => rowSum u ((baseRow i).take 20)
  let p0 := xorBits (xorBits (s 0) (s 1)) (xorBits (s 2) (s 3))
  let p1 := xorBits (s 0) (turn 1 p0)
  u ++ [p0, p1, xorBits (s 1) p1, xorBits (s 3) (turn 1 p0)]

/-! ## Symbols (R285, R286) -/

/-- R286: the 61,320 coded bits of a slot: bit ⌊j ÷ 5⌋ of inner codeword j mod 5. -/
def codedBits (payload : Bytes) : List Bool :=
  let rows := columns 1022 (outerWords payload)
  (columns 12264 ((List.range 5).map (fun c => (ldpcEncode (innerInfo rows c)).flatMap id))).flatMap id

/-- R286: the level of a pair of bits. -/
def level (a b : Bool) : Int := match a, b with
  | false, false => -3 | false, true => -1 | true, true => 1 | true, false => 3

/-- R286: the data symbol of eight coded bits. -/
def dataSymbol (b : List Bool) : Symbol :=
  let at_ := fun i => b.getD i false
  ⟨level (at_ 0) (at_ 1), level (at_ 2) (at_ 3), level (at_ 4) (at_ 5), level (at_ 6) (at_ 7)⟩

/-- R286: n bits of the PRBS15 sequence from a register: each is the sum of the bits 15 and 14 before it and enters at the low end
(DESIGN CHOICE, entry 111). -/
def prbs15 : Nat → Nat → List Bool
  | 0, _ => []
  | n + 1, st =>
    let b := bit st 14 != bit st 13
    b :: prbs15 n ((2 * st + b2n b) % 2 ^ 15)

/-- R286: the pilots of a superframe on wavelength slot k. -/
def pilots (k : Nat) : List Symbol :=
  let sign := fun (b : Bool) => if b then (3 : Int) else -3
  (cutList 4 (64 * 511) (prbs15 (64 * 511 * 4) ((0x7FFF ^^^ (k * 0x0101)) % 2 ^ 15))).map (fun b =>
    let at_ := fun i => sign (b.getD i false)
    ⟨at_ 0, at_ 1, at_ 2, at_ 3⟩)

/-- R285, R287: the symbols of a superframe on wavelength slot k that carries a payload of 400,000 bytes: 64 slots of 511 units, each a
pilot and 15 data symbols. -/
def lineSymbols (k : Nat) (payload : Bytes) : List Symbol :=
  let data := (cutList 6250 64 payload).flatMap (fun p => (cutList 8 7665 (codedBits p)).map dataSymbol)
  (List.zipWith (fun p u => p :: u) (pilots k) (cutList 15 (64 * 511) data)).flatMap id

/-! ## Decoding (R292) -/

/-- What a parity check tells each of its bits, from what the others tell it: the sign is the product of the other signs and the
magnitude the least of the other magnitudes. -/
def checkNode (xs : List Int) : List Int :=
  let mags := xs.map Int.natAbs
  let m1 := mags.foldl min (mags.headD 0)
  let rest := mags.erase m1
  let m2 := rest.foldl min (rest.headD 0)
  let odd := (xs.filter (· < 0)).length % 2 == 1
  xs.map (fun x =>
    let m : Int := if x.natAbs = m1 then m2 else m1
    if odd != decide (x < 0) then -m else m)

/-- One layer, a row of the base matrix: the soft values of the 24 blocks and the row's messages, before and after. -/
def layer (row : List (Nat × Nat)) (soft msgs : List (List Int)) : List (List Int) × List (List Int) :=
  let q := List.zipWith (fun e r => List.zipWith (· - ·) (turn e.2 (soft.getD e.1 [])) r) row msgs
  let new := columns row.length ((columns qcZ q).map checkNode)
  let put := fun (l : List (List Int)) (x : (Nat × Nat) × List Int) => l.set x.1.1 (turn (qcZ - x.1.2) x.2)
  ((row.zip (List.zipWith (List.zipWith (· + ·)) q new)).foldl put soft, new)

def hardBits (soft : List (List Int)) : List (List Bool) := soft.map (·.map (fun x => decide (x < 0)))

/-- R292: layered min-sum over the four rows in turn, until every check holds or the iterations run out: the soft values and the
iterations used. -/
def minSum : Nat → Nat → List (List Int) → List (List (List Int)) → List (List Int) × Nat
  | 0, used, soft, _ => (soft, used)
  | n + 1, used, soft, msgs =>
    if ldpcOk (hardBits soft) then (soft, used)
    else
      let r := (List.range 4).foldl (fun (p : List (List Int) × List (List (List Int))) i =>
        let x := layer (baseRow i) p.1 (msgs.getD i [])
        (x.1, p.2.concat x.2)) (soft, [])
      minSum n (used + 1) r.1 r.2

/-- R292: one inner codeword from its soft values, positive for a 0: its hard bits, the bits changed and the iterations used. -/
def innerDecode (iters : Nat) (soft : List Int) : List Bool × Nat × Nat :=
  let blocks := cutList qcZ 24 soft
  let none_ := (List.range 4).map (fun i => (baseRow i).map (fun _ => List.replicate qcZ (0 : Int)))
  let r := minSum iters 0 blocks none_
  let out := (hardBits r.1).flatMap id
  (out, ((List.zipWith (fun x b => decide (x < 0) != b) soft out).filter id).length, r.2)

/-- R292: what the decoding of a slot gives: its payload, the coded bits flipped, the most iterations of an inner codeword, the symbols
corrected and the outer codewords that fail. -/
structure SlotDecode where
  payload : Bytes
  flips : Nat
  iters : Nat
  fixed : Nat
  fails : Nat
  deriving DecidableEq, Repr

/-- R286: the soft values of a slot's coded bits, in their order, from those of the four components of its data symbols: each component
carries two bits of a symbol. -/
def softBits : List Int → List Int → List Int → List Int → List Int
  | a :: b :: xI, c :: d :: xQ, e :: f :: yI, g :: h :: yQ => a :: b :: c :: d :: e :: f :: g :: h :: softBits xI xQ yI yQ
  | _, _, _, _ => []

/-- R290 to R292: a slot decoded from the soft values of its 61,320 coded bits. -/
def decodeSlot (iters : Nat) (soft : List Int) : SlotDecode :=
  let inner := (List.range 5).map (fun c => innerDecode iters (stride 5 c soft))
  let rows := columns 1022 (inner.map (fun r => (cutList 10 1022 r.1).map ofMsb))
  let outer := (List.range 5).map (fun w => rows.mapIdx (fun i r => r.getD ((w + i) % 5) 0))
  let dec := outer.map (fun w => (w, rsDecode w))
  let words := dec.map (fun d => match d.2 with | some x => x.1 | none => d.1)
  let syms := (columns 1000 words).flatMap id
  { payload := (cutList 8 6250 (syms.flatMap (msbBits 10))).map (fun b => BitVec.ofNat 8 (ofMsb b)),
    flips := (inner.map (·.2.1)).foldl (· + ·) 0, iters := (inner.map (·.2.2)).foldl max 0,
    fixed := dec.foldl (fun n d => match d.2 with | some x => n + x.2 | none => n) 0,
    fails := (dec.filter (fun d => d.2.isNone)).length }

end Sys2Proof.Machine
end

