-- ==== Sys2Proof/Machine/Aes.lean ====
section
/-! DEFINITION. Machine/Aes.lean: AES-256 (FIPS 197) in Galois/Counter Mode with a 96-bit IV and a 128-bit tag (SP 800-38D),
as R318 and R319 use it. The S-box is computed from its definition; blocks are lists of 16 bytes as numbers. -/
namespace Sys2Proof.Machine
open Sys2Proof

/-! ## AES-256 -/

/-- Multiplication by x in GF(2^8). -/
def xtime (a : Nat) : Nat := ((a <<< 1) ^^^ (if a.testBit 7 then 0x11B else 0)) % 256

/-- Multiplication in GF(2^8), by the n low bits of b. -/
def gmulN : Nat → Nat → Nat → Nat
  | 0, _, _ => 0
  | n + 1, a, b => (if b % 2 = 1 then a else 0) ^^^ gmulN n (xtime a) (b / 2)

def gmul (a b : Nat) : Nat := gmulN 8 a b

/-- The inverse in GF(2^8): a to the power 254. -/
def ginv (a : Nat) : Nat :=
  let a2 := gmul a a; let a4 := gmul a2 a2; let a8 := gmul a4 a4; let a16 := gmul a8 a8
  let a32 := gmul a16 a16; let a64 := gmul a32 a32; let a128 := gmul a64 a64
  gmul a128 (gmul a64 (gmul a32 (gmul a16 (gmul a8 (gmul a4 a2)))))

/-- A byte rotated left. -/
def rotl8 (x n : Nat) : Nat := ((x <<< n) ||| (x >>> (8 - n))) % 256

/-- The S-box. -/
def sbox (a : Nat) : Nat :=
  let b := ginv a
  b ^^^ rotl8 b 1 ^^^ rotl8 b 2 ^^^ rotl8 b 3 ^^^ rotl8 b 4 ^^^ 0x63

/-- The S-box as a table. -/
def sboxTab : List Nat := (List.range 256).map sbox
def sub (a : Nat) : Nat := sboxTab.getD a 0

def xorL (a b : List Nat) : List Nat := List.zipWith (· ^^^ ·) a b

/-- The words of the key schedule, each of four bytes; the newest first. -/
def keyWords : Nat → Nat → Nat → List (List Nat) → List (List Nat)
  | 0, _, _, ws => ws
  | n + 1, i, rc, ws =>
    let t := ws.getD 0 []
    let t := if i % 8 = 0 then
        (match t with
         | [a, b, c, d] => [sub b ^^^ rc, sub c, sub d, sub a]
         | l => l)
      else if i % 8 = 4 then t.map sub else t
    keyWords n (i + 1) (if i % 8 = 0 then xtime rc else rc) (xorL (ws.getD 7 []) t :: ws)

def words4 : Nat → List Nat → List (List Nat)
  | 0, _ => []
  | n + 1, l => l.take 4 :: words4 n (l.drop 4)

/-- The 15 round keys of a 32-byte key. -/
def roundKeys (key : Bytes) : List (List Nat) :=
  let ws := (keyWords 52 8 1 (words4 8 (key.map BitVec.toNat)).reverse).reverse
  (List.range 15).map (fun r => (ws.drop (4 * r)).take 4 |>.flatten)

/-- ShiftRows: byte 4c + r of the result is byte 4(c + r) + r of the state. -/
def shiftRows (s : List Nat) : List Nat :=
  (List.range 16).map (fun i => s.getD ((i + 4 * (i % 4)) % 16) 0)

def mixCol : List Nat → List Nat
  | [a, b, c, d] =>
    [xtime a ^^^ xtime b ^^^ b ^^^ c ^^^ d, a ^^^ xtime b ^^^ xtime c ^^^ c ^^^ d,
     a ^^^ b ^^^ xtime c ^^^ xtime d ^^^ d, xtime a ^^^ a ^^^ b ^^^ c ^^^ xtime d]
  | l => l

def mixCols (s : List Nat) : List Nat := (words4 4 s).flatMap mixCol

/-- AES-256 of one block under its round keys. -/
def aesBlock (ks : List (List Nat)) (b : List Nat) : List Nat :=
  let s := xorL b (ks.getD 0 [])
  let s := (List.range 13).foldl (fun s r => xorL (mixCols (shiftRows (s.map sub))) (ks.getD (r + 1) [])) s
  xorL (shiftRows (s.map sub)) (ks.getD 14 [])

/-! ## GCM -/

/-- One step of the product in GF(2^128): bit 0 is the most significant. -/
def ghMul : Nat → Nat → Nat → Nat → Nat
  | 0, z, _, _ => z
  | n + 1, z, v, x =>
    let z := if x.testBit n then z ^^^ v else z
    ghMul n z (if v % 2 = 1 then (v >>> 1) ^^^ 0xE1000000000000000000000000000000 else v >>> 1) x

/-- GHASH of whole blocks. -/
def ghash (h : Nat) : Nat → Nat → Bytes → Nat
  | 0, y, _ => y
  | n + 1, y, l => ghash h n (ghMul 128 0 h (y ^^^ fromBe (l.take 16))) (l.drop 16)

def pad16 (l : Bytes) : Bytes := padTo (16 * cdiv l.length 16) l

/-- The key stream of n blocks after a counter block. -/
def gcmStream (ks : List (List Nat)) (iv : List Nat) : Nat → Nat → List Nat
  | 0, _ => []
  | n + 1, c => aesBlock ks (iv ++ (beBytes 4 c).map BitVec.toNat) ++ gcmStream ks iv n (c + 1)

/-- GCM in counter mode: plaintext to ciphertext and back. -/
def gcmXor (key iv data : Bytes) : Bytes :=
  let st := gcmStream (roundKeys key) (iv.map BitVec.toNat) (cdiv data.length 16) 2
  List.zipWith (fun (b : Byte) (x : Nat) => b ^^^ BitVec.ofNat 8 x) data st

/-- The tag of a ciphertext with its additional authenticated data. -/
def gcmTag (key iv aad cipher : Bytes) : Bytes :=
  let ks := roundKeys key
  let h := fromBe ((aesBlock ks (List.replicate 16 0)).map (BitVec.ofNat 8))
  let l := pad16 aad ++ pad16 cipher ++ beBytes 8 (8 * aad.length) ++ beBytes 8 (8 * cipher.length)
  let s := ghash h (l.length / 16) 0 l
  let e := aesBlock ks (iv.map BitVec.toNat ++ [0, 0, 0, 1])
  List.zipWith (fun (b : Byte) (x : Nat) => b ^^^ BitVec.ofNat 8 x) (beBytes 16 s) e

end Sys2Proof.Machine
end

