-- ==== Sys2Proof/Machine/Units.lean ====
section
/-! DEFINITION. Machine/Units.lean: what line frames carry, as bytes: reduction records, state records, control and recovery
messages and key messages as units of a frame's body (R294), written and read; the headers of frames (R293), ACK bodies
(R301) and superframe headers (R288). -/
namespace Sys2Proof.Machine
open Sys2Proof

/-! ## Records and messages -/

def recBytes (r : Record) : Bytes := recBody r.hdr ++ beBytes 8 r.hdr.check.toNat ++ r.payload
def stBytes (r : StRec) : Bytes := stBody r.hdr ++ beBytes 8 r.hdr.check.toNat ++ r.payload
def ctlBytes (m : Ctl) : Bytes := ctlBody m ++ beBytes 4 m.check.toNat
def rcvBytes (m : Rcv) : Bytes := rcvBody m ++ beBytes 4 m.check.toNat

/-- R150: a record header read from 64 bytes. -/
def parseRecHdr (l : Bytes) : RecHdr :=
  { rver := BitVec.ofNat 8 (beAt l 0 1), kind := BitVec.ofNat 8 (beAt l 1 1), level := BitVec.ofNat 8 (beAt l 2 1),
    flags := BitVec.ofNat 8 (beAt l 3 1), srcGw := BitVec.ofNat 16 (beAt l 4 2), dstGw := BitVec.ofNat 16 (beAt l 6 2),
    ciid := BitVec.ofNat 64 (beAt l 8 8), digest := BitVec.ofNat 64 (beAt l 16 8),
    shard := BitVec.ofNat 16 (beAt l 24 2), elemType := BitVec.ofNat 8 (beAt l 26 1),
    subject := BitVec.ofNat 8 (beAt l 27 1), chunkIndex := BitVec.ofNat 32 (beAt l 28 4),
    chunkCount := BitVec.ofNat 32 (beAt l 32 4), payloadLen := BitVec.ofNat 16 (beAt l 36 2),
    rsvd1 := BitVec.ofNat 16 (beAt l 38 2), hopGw := BitVec.ofNat 16 (beAt l 40 2),
    rsvd2 := BitVec.ofNat 48 (beAt l 42 6), valueCheck := BitVec.ofNat 64 (beAt l 48 8),
    check := BitVec.ofNat 64 (beAt l 56 8) }

def parseRec (l : Bytes) : Record := ⟨parseRecHdr l, l.drop 64⟩

/-- R250: a state record header read from 64 bytes. -/
def parseStHdr (l : Bytes) : StHdr :=
  { sver := BitVec.ofNat 8 (beAt l 0 1), kind := BitVec.ofNat 8 (beAt l 1 1), qty := BitVec.ofNat 8 (beAt l 2 1),
    flags := BitVec.ofNat 8 (beAt l 3 1), srcGw := BitVec.ofNat 16 (beAt l 4 2), dstGw := BitVec.ofNat 16 (beAt l 6 2),
    job := BitVec.ofNat 16 (beAt l 8 2), elemType := BitVec.ofNat 8 (beAt l 10 1), rsvd1 := BitVec.ofNat 8 (beAt l 11 1),
    epoch := BitVec.ofNat 32 (beAt l 12 4), matrix := BitVec.ofNat 32 (beAt l 16 4),
    chunkIndex := BitVec.ofNat 32 (beAt l 20 4), chunkCount := BitVec.ofNat 32 (beAt l 24 4),
    payloadLen := BitVec.ofNat 16 (beAt l 28 2), status := BitVec.ofNat 16 (beAt l 30 2),
    tag := BitVec.ofNat 32 (beAt l 32 4), rsvd2 := BitVec.ofNat 96 (beAt l 36 12),
    valueCheck := BitVec.ofNat 64 (beAt l 48 8), check := BitVec.ofNat 64 (beAt l 56 8) }

def parseSt (l : Bytes) : StRec := ⟨parseStHdr l, l.drop 64⟩

/-- R295: a control message read from 48 bytes. -/
def parseCtl (l : Bytes) : Ctl :=
  { cver := BitVec.ofNat 8 (beAt l 0 1), ctype := BitVec.ofNat 8 (beAt l 1 1), state := BitVec.ofNat 8 (beAt l 2 1),
    rsvd1 := BitVec.ofNat 8 (beAt l 3 1), srcGw := BitVec.ofNat 16 (beAt l 4 2), rsvd2 := BitVec.ofNat 16 (beAt l 6 2),
    ciid := BitVec.ofNat 64 (beAt l 8 8), epoch := BitVec.ofNat 32 (beAt l 16 4), rsvd3 := BitVec.ofNat 32 (beAt l 20 4),
    sf := BitVec.ofNat 64 (beAt l 24 8), digest := BitVec.ofNat 64 (beAt l 32 8),
    rsvd4 := BitVec.ofNat 32 (beAt l 40 4), check := BitVec.ofNat 32 (beAt l 44 4) }

/-- R424: a recovery message read from 64 bytes. -/
def parseRcv (l : Bytes) : Rcv :=
  { mkind := BitVec.ofNat 8 (beAt l 0 1), mver := BitVec.ofNat 8 (beAt l 1 1), srcGw := BitVec.ofNat 16 (beAt l 2 2),
    dstGw := BitVec.ofNat 16 (beAt l 4 2), ttl := BitVec.ofNat 8 (beAt l 6 1), level := BitVec.ofNat 8 (beAt l 7 1),
    serial := BitVec.ofNat 32 (beAt l 8 4), code := BitVec.ofNat 32 (beAt l 12 4), ciid := BitVec.ofNat 64 (beAt l 16 8),
    subjectGw := BitVec.ofNat 16 (beAt l 24 2), arg := BitVec.ofNat 8 (beAt l 26 1), rsvd1 := BitVec.ofNat 8 (beAt l 27 1),
    sf := BitVec.ofNat 64 (beAt l 28 8), value := BitVec.ofNat 64 (beAt l 36 8), matrix := BitVec.ofNat 32 (beAt l 44 4),
    rsvd2 := BitVec.ofNat 96 (beAt l 48 12), check := BitVec.ofNat 32 (beAt l 60 4) }

/-! ## Units (R294) -/

/-- R294: bytes behind the 4-byte prefix of their kind. -/
def prefixed (kind : Nat) (l : Bytes) : Bytes := beBytes 2 (256 * kind) ++ beBytes 2 l.length ++ l

/-- R294: a unit with its prefix. -/
def unitBytes : LUnit → Bytes
  | .rcd r => prefixed 1 (recBytes r)
  | .srec r => prefixed 2 (stBytes r)
  | .ctl m => prefixed 3 (ctlBytes m)
  | .rcv m => prefixed 4 (rcvBytes m)
  | .key l => prefixed 4 l

/-- R294: a pad of n bytes in all. -/
def padBytes (n : Nat) : Bytes := prefixed 0x0F (List.replicate (n - 4) 0)

/-- R294: a body padded to at least 64 bytes. -/
def padBody (l : Bytes) : Bytes := if l.length < 64 then l ++ padBytes (max 4 (64 - l.length)) else l

/-- R294: whether a state record may travel on a VC. -/
def stVcOk (r : StRec) (vc : Nat) : Bool :=
  let k := r.hdr.kind.toNat
  if k = 3 then vc == 3 || vc == 4 else if k = 1 || k = 2 || r.hdr.qty = 2 then vc == 4 else vc == 3

/-- R294, R331: the unit that a kind and its bytes spell on a VC; none where it breaks the table, `some none` for a pad. -/
def readUnit (vc kind : Nat) (l : Bytes) : Option (Option LUnit) :=
  match kind with
  | 1 => if l.length ≥ 64 && (vc == 1 || vc == 2) then some (some (.rcd (parseRec l))) else none
  | 2 => if l.length ≥ 64 && stVcOk (parseSt l) vc then some (some (.srec (parseSt l))) else none
  | 3 => if l.length = 48 && vc == 0 then some (some (.ctl (parseCtl l))) else none
  | 4 =>
    let k := byteAt l 0
    if vc ≠ 6 then none
    else if 0x40 ≤ k && k ≤ 0x44 then some (some (.key l))
    else if 0x10 ≤ k && k ≤ 0x16 && l.length = 64 then some (some (.rcv (parseRcv l)))
    else none
  | 0x0F => if l.all (· == 0) then some none else none
  | _ => none

/-- R331: whether a management unit is of no kind that exists: it alone is discarded. -/
def otherKind (vc kind : Nat) (l : Bytes) : Bool :=
  let k := byteAt l 0
  kind == 4 && vc == 6 && !(0x40 ≤ k && k ≤ 0x44) && !(0x10 ≤ k && k ≤ 0x16)

/-- R294: the units of a body in order, and whether every one was well formed. The first that breaks the table and every
later one are discarded. -/
def readUnits (vc : Nat) : Nat → Bytes → List LUnit × Bool
  | 0, _ => ([], true)
  | fuel + 1, l =>
    if l.isEmpty then ([], true)
    else
      let n := beAt l 2 2
      if l.length < 4 || byteAt l 1 ≠ 0 || l.length < 4 + n then ([], false)
      else
        let body := slice l 4 n
        let rest := l.drop (4 + n)
        if otherKind vc (byteAt l 0) body then ((readUnits vc fuel rest).1, false)
        else match readUnit vc (byteAt l 0) body with
          | none => ([], false)
          | some u =>
            let r := readUnits vc fuel rest
            (match u with | some x => x :: r.1 | none => r.1, r.2)

/-- The units of a frame's body. -/
def unitsOf (vc : Nat) (body : Bytes) : List LUnit × Bool := readUnits vc (body.length + 1) body

/-! ## Frames (R293, R301) -/

/-- R293: the header of a frame. -/
structure FrHdr where
  kind : Nat
  vc : Nat
  retx : Bool
  slot : Nat
  src : Nat
  dst : Nat
  seq : Nat
  len : Nat
  keyId : Nat
  ctr : Nat
  deriving DecidableEq, Repr

/-- R293: bytes 0 to 27 of a frame header. -/
def frBody (h : FrHdr) : Bytes :=
  [1] ++ beBytes 1 h.kind ++ beBytes 1 (h.vc + (if h.retx then 8 else 0)) ++ beBytes 1 h.slot ++ beBytes 2 h.src ++
  beBytes 2 h.dst ++ beBytes 4 h.seq ++ beBytes 2 h.len ++ beBytes 1 h.keyId ++ [0] ++ beBytes 5 h.ctr ++
  List.replicate 7 0

def frBytes (h : FrHdr) : Bytes := frBody h ++ beBytes 4 (crc32c (frBody h))

def parseFr (l : Bytes) : FrHdr :=
  { kind := byteAt l 1, vc := byteAt l 2 % 8, retx := bit (byteAt l 2) 3, slot := byteAt l 3 % 32, src := beAt l 4 2,
    dst := beAt l 6 2, seq := beAt l 8 4, len := beAt l 12 2, keyId := byteAt l 14, ctr := beAt l 16 5 }

/-- R293: whether HCHECK verifies. -/
def frCheckOk (l : Bytes) : Bool := l.length ≥ 32 && beAt l 28 4 == crc32c (l.take 28)

/-- R293, R296 order 2: whether version, kind, lengths and reserved fields are valid. -/
def frFieldsOk (l : Bytes) : Bool :=
  let h := parseFr l
  byteAt l 0 == 1 && h.kind ≤ 2 && byteAt l 2 / 16 == 0 && byteAt l 3 / 32 == 0 && byteAt l 15 == 0 &&
  (slice l 21 7).all (· == 0) &&
  (if h.kind = 0 then h.len ≤ 16384 && h.seq == 0 && h.keyId == 0 && h.ctr == 0
   else 64 ≤ h.len && h.len ≤ 16384 &&
     (if h.kind = 2 then h.vc == 0 && h.seq == 0 else h.vc ≤ 6 && h.vc != 5))

/-- R299: the sequenced virtual channels, in the order of the ACK's entries. -/
def seqVcs : List Nat := [0, 1, 2, 3, 4, 6]

/-- R301: one entry of an ACK: VC, its ranges, CUM, CREDIT_RETURN and GRANT. -/
structure AckEnt where
  vc : Nat
  cum : Nat
  ret : Nat
  grant : Nat
  ranges : List (Nat × Nat)
  deriving DecidableEq, Repr

/-- R301: the body of an ACK. -/
def ackBody (sf : Nat) (es : List AckEnt) : Bytes :=
  beBytes 8 sf ++ [6] ++ beBytes 1 ((es.map (fun e => e.ranges.length)).foldl (· + ·) 0) ++ List.replicate 6 0 ++
  es.flatMap (fun e => beBytes 1 e.vc ++ beBytes 1 e.ranges.length ++ [0, 0] ++ beBytes 4 e.cum ++ beBytes 4 e.ret ++
    beBytes 4 e.grant) ++
  es.flatMap (fun e => e.ranges.flatMap (fun r => beBytes 4 r.1 ++ beBytes 4 r.2))

/-- The ranges of n entries from a list of counts. -/
def readRanges (l : Bytes) : List Nat → List (List (Nat × Nat))
  | [] => []
  | n :: ns => (List.range n).map (fun i => (beAt l (8 * i) 4, beAt l (8 * i + 4) 4)) :: readRanges (l.drop (8 * n)) ns

/-- R301: an ACK's entries read from its body; none where it breaks the table. -/
def parseAck (l : Bytes) : Option (List AckEnt) :=
  let ent := fun i => slice l (16 + 16 * i) 16
  let ns := (List.range 6).map (fun i => byteAt (ent i) 1)
  let total := ns.foldl (· + ·) 0
  if byteAt l 8 ≠ 6 || byteAt l 9 ≠ total || total > 64 || l.length < 112 + 8 * total || (slice l 10 6).any (· != 0) ||
    (List.range 6).any (fun i => byteAt (ent i) 0 ≠ seqVcs.getD i 0 || beAt (ent i) 2 2 ≠ 0) then none
  else
    let rs := readRanges (l.drop 112) ns
    some ((List.range 6).map fun i =>
      let e := ent i
      ⟨byteAt e 0, beAt e 4 4, beAt e 8 4, beAt e 12 4, rs.getD i []⟩)

/-! ## Superframe headers (R288, R400) -/

/-- R288: a superframe header. -/
structure SfHdr where
  slot : Nat
  group : Nat
  src : Nat
  sf : Nat
  firstFrame : Nat
  txs : Nat
  rxs : Nat
  link : Nat
  cmd : Nat
  cmdSf : Nat
  echoSf : Nat
  echoRx : Int
  cd : Int
  time : TimeHdr
  deriving DecidableEq, Repr

/-- A signed number of n bytes. -/
def sBytes (n : Nat) (v : Int) : Bytes := beBytes n ((v % (256 ^ n : Nat)).toNat)
def sAt (l : Bytes) (off n : Nat) : Int :=
  let v := beAt l off n
  if v ≥ 256 ^ n / 2 then (v : Int) - (256 ^ n : Nat) else v

/-- R400: the TIME field. -/
def timeBytes (t : TimeHdr) : Bytes :=
  beBytes 2 t.masterGw ++ beBytes 1 t.prio ++ beBytes 1 t.hops ++ beBytes 4 t.serial.toNat ++ beBytes 1 t.hstate ++ [0] ++
  beBytes 2 t.domain ++ beBytes 6 t.ptpS ++ beBytes 4 t.ptpNs ++ beBytes 1 (b2n t.ptpValid) ++ beBytes 2 t.d ++ [0, 0, 0]

def parseTime (l : Bytes) : TimeHdr :=
  { masterGw := beAt l 0 2 % 2048, prio := byteAt l 2, hops := byteAt l 3, serial := BitVec.ofNat 32 (beAt l 4 4),
    hstate := byteAt l 8, domain := beAt l 10 2, ptpS := beAt l 12 6, ptpNs := beAt l 18 4,
    ptpValid := bit (byteAt l 22) 0, d := beAt l 23 2 }

/-- R288: bytes 0 to 123 of a superframe header. -/
def sfBody (h : SfHdr) : Bytes :=
  beBytes 4 0x4C4C594E ++ [1] ++ beBytes 1 (h.slot + 32 * h.group) ++ beBytes 2 h.src ++ beBytes 8 h.sf ++
  beBytes 4 h.firstFrame ++ beBytes 1 (h.txs + 4 * h.rxs + 16 * h.link) ++ beBytes 1 h.cmd ++ [0, 0] ++ beBytes 8 h.cmdSf ++
  beBytes 8 h.echoSf ++ sBytes 8 h.echoRx ++ sBytes 4 h.cd ++ timeBytes h.time ++ List.replicate 44 0

/-- R288: the 128 bytes of a superframe header. -/
def sfBytes (h : SfHdr) : Bytes := sfBody h ++ beBytes 4 (crc32c (sfBody h))

def parseSf (l : Bytes) : SfHdr :=
  let st := byteAt l 20
  { slot := byteAt l 5 % 32, group := byteAt l 5 / 32 % 4, src := beAt l 6 2, sf := beAt l 8 8, firstFrame := beAt l 16 4,
    txs := st % 4, rxs := st / 4 % 4, link := st / 16 % 4, cmd := byteAt l 21, cmdSf := beAt l 24 8, echoSf := beAt l 32 8,
    echoRx := sAt l 40 8, cd := sAt l 48 4, time := parseTime (slice l 52 28) }

/-- R289: whether SYNC, HVER and HCHECK verify. -/
def sfCheckOk (l : Bytes) : Bool :=
  l.length == 128 && beAt l 0 4 == 0x4C4C594E && byteAt l 4 == 1 && beAt l 124 4 == crc32c (l.take 124)

end Sys2Proof.Machine
end

