-- ==== Sys2Proof/Machine/Frames.lean ====
section
/-! DEFINITION. Machine/Frames.lean: the sending side of the Llyn line: keys in use (R318 to R330), encryption and launch of
frames (R293 to R306, R319, R322), lane states (R308 to R311), ACKs (R301, R302), and the scheduler of the virtual channels
(R137). -/
namespace Sys2Proof.Machine
open Sys2Proof

/-! ## Keys -/

/-- R328: the bootstrap key. -/
def bootKey : LKey := ⟨0, List.replicate 32 0, List.replicate 6 0, 0⟩

/-- R329: the key a transmitter uses: bootstrap while its direction has no derived key. -/
def txKey (s : State) (l : LinkId) : LKey := ((lciph s l).tx).getD bootKey

/-- R328, R330: the key a receiver holds for a KEY_ID. -/
def rxKey (s : State) (l : LinkId) (id : Nat) : Option LKey :=
  let c := lciph s l
  let at_ := fun (o : Option LKey) => match o with | some k => if k.id = id then some k else none | none => none
  if id = 0 then some bootKey else (at_ c.rx).orElse (fun _ => at_ c.rxOther)

/-- R319: the IV of a frame. -/
def frameIv (k : LKey) (h : FrHdr) : Bytes := k.salt ++ beBytes 1 h.slot ++ beBytes 5 h.ctr

/-- R327: AES blocks that a frame takes. -/
def aesBlocks (n : Nat) : Nat := cdiv n 16 + 1

/-! ## The farms (R324, R327) -/

/-- AES bytes that a farm of n engines computes in a superframe at a DUMMY setting. -/
def farmBytes (dummy engines : Nat) : Nat := engines * 153600 / (14 + (if dummy = 3 then 2 else dummy))

def clustersOut (s : State) (g : Fin 4) (d : Fin 2) : Nat := mget s.ciph.out (g, d) 0
def farmEngines (s : State) (g : Fin 4) (d : Fin 2) : Nat := 768 - 16 * clustersOut s g d
def farmRate (s : State) (g : Fin 4) (d : Fin 2) : Nat := farmBytes (fldV s (.ciph g d) 0x44 1 0) (farmEngines s g d)

/-- R30, R327: whether a group is paced for lack of engines: the farm sustains less than 800 GB/s. -/
def paced (s : State) (g : Fin 4) (d : Fin 2) : Bool := farmRate s g d < 6400000

/-! ## Lanes -/

/-- R361, R364: a spare in shadow is not scheduled. -/
def inShadow (s : State) (l : LinkId) (k : Fin 18) : Bool :=
  match insertOf s l with
  | some i => i.spare == k && !i.early
  | none => false

/-- R297, R322, R363: the transmit slots of a link that may carry a frame: UP, not in shadow, and with counters left. -/
def lanes (s : State) (l : LinkId) : List (Fin 18) :=
  let extra := match insertOf s l with
    | some i => if i.early && (lslot s l.1 i.spare).tx == .up && !laneIn s l i.spare then [i.spare] else []
    | none => []
  (txUp s l ++ extra).filter (fun k => !(lciph s l).exhausted.contains k.val && !inShadow s l k)

def bufLeft (s : State) (g : Fin 4) (k : Fin 18) : Nat := (lslot s g k).txRes + (lslot s g k).txq.foldl (· + ·) 0

/-- R297: the lane whose transmit buffer empties first, ties to the lowest slot. -/
def pickLane (s : State) (l : LinkId) : Option (Fin 18) :=
  match lanes s l with
  | [] => none
  | a :: m => some (m.foldl (fun b k =>
      if bufLeft s l.1 k < bufLeft s l.1 b || (bufLeft s l.1 k == bufLeft s l.1 b && k < b) then k else b) a)

/-- R308, R309: a slot's transmit side leaves UP with a reason. -/
def txDown (s : State) (g : Fin 4) (k : Fin 18) (why : Nat) : State :=
  let x := lslot s g k
  if x.tx ≠ .up then s
  else raise (setLSlot s g k { x with tx := .train, txWhy := why, changeSf := s.sf, upAt := none, txq := [], txRes := 0,
                                      txData := [] }) (.line g) 0x1B01 0

/-- R308, R309: a slot's receive side moves to HUNT with a reason. -/
def rxHunt (s : State) (g : Fin 4) (k : Fin 18) (why : Nat) : State :=
  let x := lslot s g k
  if x.rx = .off || x.rx = .hunt then setLSlot s g k { x with clean := 0, bad := 0 }
  else
    let s' := setLSlot s g k { x with rx := .hunt, rxWhy := why, changeSf := s.sf, clean := 0, bad := 0 }
    if x.rx = .up then raise s' (.line g) 0x1B01 0 else s'

/-! ## Handshakes begin (R334, R335) -/

/-- R328: the successor of a KEY_ID. -/
def nextKeyId (n : Nat) : Nat := if n ≥ 255 then 1 else n + 1

/-- R334, R335: a transmitter starts a handshake, unless one runs on the link or an erasure lasts. -/
def startHs (s : State) (l : LinkId) : State :=
  let c := lciph s l
  if c.hs.isSome || c.pendSw.isSome || s.ciph.erasing.isSome || !(llink s l).en then s
  else if s.boot.idState ≠ 1 then
    -- R449: a gateway without an identity keys no link
    raise (setLCiph s l { c with retrySf := some (s.sf + 1024) }) (.ciph l.1 0) 0x2C08 0
  else
    let cur := match c.tx with | some k => k.id | none => 0
    let n := c.session + 1
    let hs : Hs := ⟨.signHello, true, n % 65536, nextKeyId cur, [], [], [], [], none, s.sf, false⟩
    setLCiph s l { c with hs := some hs, session := n, retrySf := none }

/-! ## One frame -/

/-- R319 to R322: a frame's bytes under a key. -/
def sealFrame (k : LKey) (h : FrHdr) (body : Bytes) : Bytes :=
  let aad := frBytes h
  let iv := frameIv k h
  let c := gcmXor k.key iv body
  aad ++ c ++ gcmTag k.key iv aad c

/-- R287, R297: a frame stands whole in a slot's transmit buffer. -/
def putFrame (s : State) (g : Fin 4) (k : Fin 18) (b : Bytes) : State :=
  let x := lslot s g k
  emit (setLSlot s g k { x with txq := x.txq.concat b.length, txData := x.txData ++ b }) (.frame (g, k) b)

/-- R30, R327: line bytes that a group's farm has encrypted in this superframe. -/
def chargeFarm (s : State) (g : Fin 4) (n : Nat) : State :=
  { s with line := { s.line with served := mset s.line.served (g, 8) (mget s.line.served (g, 8) 0 + n) } }

/-- R293, R319 to R322: a DATA or ACK frame encrypted under the transmit key and its slot's next counter, and put on the slot.
A body outside the farm's limits is not launched (R321). -/
def sendFrame (s : State) (l : LinkId) (k : Fin 18) (kind vc : Nat) (retx : Bool) (seq : Nat) (body : Bytes) : State :=
  if body.length < 64 || body.length > 16384 then raise s (.ciph l.1 0) 0x4C01 0
  else
    let c := lciph s l
    let key := txKey s l
    let n := mget c.ctr k.val 0 + 1
    let h : FrHdr := ⟨kind, vc, retx, k.val, gw s, linkPeer s l, seq, body.length, key.id, n⟩
    let s := putFrame s l.1 k (sealFrame key h body)
    let s := chargeFarm s l.1 (body.length + 48)
    let s := count s (.ciph l.1 0) 0 (aesBlocks body.length)
    let above := n ≥ 2 ^ 40 - 1
    let due := n ≥ 2 ^ fldV s (.ciph l.1 0) 0x60 5 0 && !c.due && c.tx.isSome
    let s := setLCiph s l { c with ctr := mset c.ctr k.val n, due := c.due || due,
                                   exhausted := if above then k.val :: c.exhausted else c.exhausted }
    let s := if due then startHs (raise s (.ciph l.1 0) 0x0C02 0) l else s
    if above then raise s (.ciph l.1 0) 0x2C07 0 else s

/-! ## ACKs -/

/-- Insertion of a number into an ascending list. -/
def insertNat (n : Nat) : List Nat → List Nat
  | [] => [n]
  | a :: l => if n ≤ a then n :: a :: l else a :: insertNat n l

/-- The inclusive runs of an ascending list. -/
def runs : List Nat → List (Nat × Nat)
  | [] => []
  | a :: l => match runs l with
    | [] => [(a, a)]
    | (b, c) :: m => if b = a + 1 then (a, c) :: m else (a, a) :: (b, c) :: m

/-- R301: one entry of an ACK. -/
def ackEnt (s : State) (l : LinkId) (vc : Nat) : AckEnt :=
  let v := vcLine (llink s l) vc
  let offs := (v.above.map (fun q => (q - v.cum).toNat)).foldl (fun m n => insertNat n m) []
  ⟨vc, v.cum.toNat, v.ret.toNat, fldB s (.line l.1) 0x78 vc 31 0,
   (runs offs).map (fun r => ((v.cum.toNat + r.1) % 2 ^ 32, (v.cum.toNat + r.2) % 2 ^ 32))⟩

/-- R301: no more than 64 ranges in all. -/
def limitRanges : Nat → List AckEnt → List AckEnt
  | _, [] => []
  | n, e :: es => { e with ranges := e.ranges.take n } :: limitRanges (n - e.ranges.length) es

/-- R301, R302: an ACK on a link, where a lane and a key let it go. -/
def sendAck (s : State) (l : LinkId) : State :=
  match pickLane s l with
  | none => s
  | some k =>
    if s.ciph.erasing.isSome then s
    else
      let body := ackBody s.sf (limitRanges 64 (seqVcs.map (ackEnt s l)))
      let s := sendFrame s l k 2 0 false 0 body
      count (setLLink s l { llink s l with ackSf := s.sf, gotData := false }) (.line l.1) 5 1

/-! ## Retention (R300, R304) -/

/-- R382: the line region of a pond. -/
def lineRegion (s : State) (g : Fin 4) : Nat := fldV s (.pond g) 0x44 4 0 * 2 ^ 30

/-- R300: bytes of retention in use in a group: header fields and body of each frame. -/
def retBytes (s : State) (g : Fin 4) : Nat :=
  (groupLinks g).foldl (fun n l => (llink s l).ret.foldl (fun m f => m + 32 + f.body.length) n) 0

/-- R307: bytes staged in a group. -/
def stageBytes (s : State) (g : Fin 4) : Nat :=
  (groupLinks g).foldl (fun n l => (llink s l).rx.foldl (fun m f => m + f.bytes) n) 0

/-- R304: a transmission of a frame restarts the timers of the records it carries. -/
def restartTimers (s : State) (us : List LUnit) : State :=
  us.foldl (fun (s : State) (u : LUnit) => match u with
    | .rcd r =>
      let f := fun (e : Nat × Cell) =>
        if e.2.ciid = r.hdr.ciid then
          (e.1, { e.2 with kept := e.2.kept.map (fun k =>
            if k.rcd.hdr.kind = r.hdr.kind ∧ k.rcd.hdr.level = r.hdr.level ∧ k.rcd.hdr.shard = r.hdr.shard ∧
              k.rcd.hdr.chunkIndex = r.hdr.chunkIndex ∧ k.rcd.hdr.dstGw = r.hdr.dstGw then { k with sf := s.sf } else k) })
        else e
      { s with coll := { s.coll with cells := s.coll.cells.map f } }
    | .srec r =>
      let f := fun (x : StSend) =>
        if x.rcd.hdr.kind = r.hdr.kind ∧ x.rcd.hdr.dstGw = r.hdr.dstGw ∧ x.rcd.hdr.tag = r.hdr.tag ∧
          x.rcd.hdr.matrix = r.hdr.matrix ∧ x.rcd.hdr.epoch = r.hdr.epoch ∧ x.rcd.hdr.qty = r.hdr.qty ∧
          x.rcd.hdr.chunkIndex = r.hdr.chunkIndex then { x with sf := s.sf } else x
      { s with stTx := s.stTx.map f }
    | _ => s) s

/-! ## Launching (R137, R297, R299, R300, R306) -/

def frameCost (body : Bytes) : Nat := cdiv (48 + body.length) 256

/-- Units packed into a body of at most 16,384 bytes, with those left. -/
def packUnits : Nat → List LUnit → Bytes × List LUnit
  | _, [] => ([], [])
  | room, u :: us =>
    let b := unitBytes u
    if b.length ≤ room then
      let r := packUnits (room - b.length) us
      (b ++ r.1, r.2)
    else ([], u :: us)

/-- The queue of a virtual channel on a link; channels 9 and 10 are the launchers' queues of VC1 and VC2 (R412). -/
def vcQueue (s : State) (l : LinkId) (vc : Nat) : List LUnit := mget s.lineTx (l, vc) []

def realVc (vc : Nat) : Nat := if vc ≥ 8 then vc - 8 else vc

/-- R299, R306: whether window and credits let a channel launch a body. -/
def vcRoom (s : State) (l : LinkId) (vc : Nat) (body : Bytes) : Bool :=
  let v := vcLine (llink s l) (realVc vc)
  decide ((v.nextSeq - v.acked).toNat < 2 ^ 22) && decide ((v.sent - v.returned).toNat + frameCost body ≤ v.grant)

/-- R300: whether retention holds one more body. -/
def retRoom (s : State) (g : Fin 4) (body : Bytes) : Bool := retBytes s g + 32 + body.length ≤ lineRegion s g

/-- R137: the tokens of shaped VC0 or VC1: one superframe's worth at first. -/
def shaped (s : State) (g : Fin 4) (vc : Nat) : Int :=
  mget s.line.tokens (g, vc) (800 * fldB s (.line g) 0x7C vc 31 8 : Nat)

def chargeLine (s : State) (g : Fin 4) (vc n : Nat) : State :=
  if vc < 2 then { s with line := { s.line with tokens := mset s.line.tokens (g, vc) (shaped s g vc - n) } }
  else { s with line := { s.line with served := mset s.line.served (g, vc) (mget s.line.served (g, vc) 0 + n) } }

/-- R30, R327: whether a paced group may still launch in this superframe: either farm may pace it. -/
def paceOk (s : State) (g : Fin 4) : Bool :=
  (List.finRange 2).all (fun d => !paced s g d || mget s.line.served (g, 8) 0 < farmRate s g d)

/-- R361: whether frames that a link launches on slot k are launched again on the spare. -/
def duplicating (s : State) (l : LinkId) (k : Fin 18) : Option (Fin 18) :=
  match insertOf s l with
  | some i => if i.slot = k ∧ i.w - 2 * i.d - 72 ≤ s.sf ∧ s.sf ≤ i.w - 2 * i.d - 9 ∧ !i.early ∧
      (lslot s l.1 i.spare).tx = .up then some i.spare else none
  | none => none

/-- R361: a DATA frame on a lane, with its duplicate on the spare. -/
def sendData (s : State) (l : LinkId) (k : Fin 18) (vc : Nat) (retx : Bool) (seq : Nat) (body : Bytes) : State :=
  let s := sendFrame s l k 1 vc retx seq body
  let s := restartTimers s (unitsOf vc body).1
  match duplicating s l k with
  | some d => sendFrame s l d 1 vc retx seq body
  | none => s

/-- A new DATA frame of a channel. -/
def launchNew (s : State) (l : LinkId) (k : Fin 18) (vc : Nat) (body : Bytes) (rest : List LUnit) : State :=
  let v := realVc vc
  let x := llink s l
  let c := vcLine x v
  let seq := c.nextSeq
  let x := { x with ret := x.ret.concat ⟨v, seq, body, s.sf, 0, false⟩ }.setVc v
    { c with nextSeq := seq + 1, sent := c.sent + BitVec.ofNat 32 (frameCost body) }
  let s := setLLink { s with lineTx := mset s.lineTx (l, vc) rest } l x
  let s := sendData s l k v false seq.toNat body
  let s := count (count s (.line l.1) 0 1) (.pond l.1) 0 (cdiv (32 + body.length) 64)
  chargeLine s l.1 v (body.length + 48)

/-- The body a channel would launch next, with the units left; none where it has nothing that may go. -/
def nextBody (s : State) (l : LinkId) (vc : Nat) : Option (Bytes × List LUnit) :=
  let q := vcQueue s l vc
  if q.isEmpty then none
  else
    let r := packUnits 16384 q
    let body := padBody r.1
    if vcRoom s l vc body then some (body, r.2) else none

/-- R329: on a link without a derived key, key messages alone go. -/
def keyBody (s : State) (l : LinkId) : Option (Bytes × List LUnit) :=
  let isKey := fun (u : LUnit) => match u with | .key _ => true | _ => false
  let q := vcQueue s l 6
  if (q.filter isKey).isEmpty then none
  else
    let r := packUnits 16384 (q.filter isKey)
    let body := padBody r.1
    if vcRoom s l 6 body then some (body, r.2 ++ q.filter (fun u => !isKey u)) else none

/-- R137: among the weighted channels that may launch, the one that has had least for its weight; ties to the lowest. -/
def pickWeighted (s : State) (l : LinkId) : Option Nat :=
  let w := fun v => fldB s (.line l.1) 0x7C v 7 0
  let got := fun v => mget s.line.served (l.1, v) 0
  let ok := [2, 3, 4, 6].filter (fun v => (nextBody s l v).isSome)
  match ok with
  | [] => none
  | a :: m => some (m.foldl (fun b v => if got v * w b < got b * w v then v else b) a)

/-- R137, R412: the channel a link serves next: frames of a launch, which R412 puts before every frame of every VC that has not yet
started and which are then charged to the shaper or weight of their own VC; VC0, VC1, retransmissions (5), then the weighted channels. -/
def pickVc (s : State) (l : LinkId) : Option Nat :=
  let ready := fun v => (nextBody s l v).isSome
  if ready 9 then some 9 else if ready 10 then some 10
  else if shaped s l.1 0 > 0 && ready 0 then some 0
  else if shaped s l.1 1 > 0 && ready 1 then some 1
  else if (llink s l).ret.any (·.queued) then some 5
  else pickWeighted s l

/-- R29: a retransmission read or a reorder write takes pond bandwidth. -/
def pondFirst (s : State) (g : Fin 4) (n : Nat) : State :=
  count { s with pondPrio := if s.pondPrio.contains g then s.pondPrio else g :: s.pondPrio } (.pond g) 0 (cdiv n 64)

/-- R300, R303: the first frame queued for retransmission is launched again. -/
def launchRetx (s : State) (l : LinkId) (k : Fin 18) (only : RetFrame → Bool) : State :=
  let x := llink s l
  match x.ret.find? (fun f => f.queued && only f) with
  | none => s
  | some f =>
    let g := fun (y : RetFrame) => if y.vc = f.vc ∧ y.seq = f.seq then { y with sf := s.sf, retx := y.retx + 1, queued := false } else y
    let s := setLLink s l { x with ret := x.ret.map g }
    let s := sendData s l k f.vc true f.seq.toNat f.body
    pondFirst (count s (.line l.1) 2 1) l.1 (32 + f.body.length)

/-- R300: retention is full while a new frame waits: RET_FULL once per episode. -/
def noteFull (s : State) (g : Fin 4) : State :=
  if s.line.retFull.contains g then s
  else raise { s with line := { s.line with retFull := g :: s.line.retFull } } (.line g) 0x0B02 0

def clearFull (s : State) (g : Fin 4) : State :=
  { s with line := { s.line with retFull := s.line.retFull.filter (· != g) } }

/-- Launches the body chosen for a channel, where retention holds it. -/
def launchOr (s : State) (l : LinkId) (k : Fin 18) (vc : Nat) (b : Option (Bytes × List LUnit)) : State :=
  match b with
  | none => s
  | some (body, rest) =>
    if retRoom s l.1 body then launchNew (clearFull s l.1) l k vc body rest else noteFull s l.1

/-- FRAME_LAUNCH: a link launches its next DATA frame: a new one, or a retransmission in VC5. -/
def execFrameLaunch (g : Fin 4) (i : Fin 4) (s : State) : Host.Outcome State Fault Refusal :=
  let l : LinkId := (g, i)
  .next (match pickLane s l with
    | none => s
    | some k =>
      if s.ciph.erasing.isSome || !paceOk s g || (llink s l).lost || !(llink s l).en then s
      else if !linkKeyed s l then
        let key := fun (f : RetFrame) => (unitsOf f.vc f.body).1.all (fun u => match u with | .key _ => true | _ => false)
        if (lciph s l).tx.isNone && (llink s l).ret.any (fun f => f.queued && f.vc == 6 && key f) then
          launchRetx s l k (fun f => f.vc == 6 && key f)
        else launchOr s l k 6 (keyBody s l)
      else match pickVc s l with
        | none => s
        | some 5 => launchRetx s l k (fun _ => true)
        | some vc =>
          let r := launchOr s l k vc (nextBody s l vc)
          if (llink s l).ret.any (·.queued) && !retRoom s g ((nextBody s l vc).map (·.1) |>.getD []) then
            launchRetx r l k (fun _ => true)
          else r)

end Sys2Proof.Machine
end

