-- ==== Sys2Proof/Machine/Line.lean ====
section
/-! DEFINITION. Machine/Line.lean: the receiving side of the Llyn line: superframe headers and lanes (R288, R289, R308 to
R312), FEC (R292), frames and their tags (R296, R323, R329, R337 to R339), delivery, ACKs and retransmission (R299 to R307),
links (R311). -/
namespace Sys2Proof.Machine
open Sys2Proof

/-! ## Time transfer (R312, R313) -/

/-- Insertion of an integer into an ascending list. -/
def insertInt (n : Int) : List Int → List Int
  | [] => [n]
  | a :: l => if n ≤ a then n :: a :: l else a :: insertInt n l

/-- The median of a list: of an even number of values the lower of the middle two; 0 of none. -/
def median (l : List Int) : Int :=
  (l.foldl (fun m n => insertInt n m) []).getD ((l.length - 1) / 2) 0

/-- R312: whether a slot's two directions carry valid headers with echoes no older than 4 superframes. -/
def qualifies (s : State) (g : Fin 4) (k : Fin 18) : Bool :=
  match (lslot s g k).last with
  | some h => s.sf ≤ h.atSf + 4 && s.sf ≤ h.echoAt + 4 && h.echoSf ≠ 0 && (lslot s g k).missing < 4 && (lslot s g k).rx != .off
  | none => false

/-- A 32-bit register value as a signed number. -/
def signed32 (v : Nat) : Int := if v ≥ 2 ^ 31 then (v : Int) - 2 ^ 32 else v

/-- R313: the asymmetry of a link in ps. -/
def linkAlpha (s : State) (l : LinkId) : Int :=
  let hs := (linkSlots s l).filterMap (fun k => if qualifies s l.1 k then (lslot s l.1 k).last else none)
  let f := fun off hi => fldB s (.line l.1) off l.2.val hi 0
  signed32 (f 0x64 31) + (f 0x68 18 : Int) * (median (hs.map (·.cdPeer)) - median (hs.map (·.cd)) - signed32 (f 0x6C 31)) / 10

/-- R312: θ and the larger delay of a link, as medians over its qualifying slots; the old values where none qualifies. -/
def measureLink (s : State) (l : LinkId) : State :=
  let hs := (linkSlots s l).filterMap (fun k => if qualifies s l.1 k then (lslot s l.1 k).last else none)
  if hs.isEmpty then s
  else
    let a := linkAlpha s l
    let th := median (hs.map (fun h => (h.echoRx - h.rx - a) / 2))
    let ab := median (hs.map (fun h => (h.echoRx + h.rx + a) / 2))
    let ba := median (hs.map (fun h => (h.echoRx + h.rx - a) / 2))
    setLLink s l { llink s l with theta := th, delay := max ab ba }

/-! ## Slots -/

/-- The slots that light keeps for a link: its lanes while it is enabled, and the spare of its insertion. -/
def slotOwner (s : State) (g : Fin 4) (k : Fin 18) : Option LinkId :=
  (groupLinks g).find? (fun l => ((llink s l).en && laneIn s l k) ||
    (match insertOf s l with | some i => i.spare == k | none => false) ||
    -- R363: frames on a slot that leaves its link are received until its laser goes off
    (s.light.offs.any (fun o => o.1 == (g, k)) &&
      (match mget? s.light.ins l with | some i => i.slot == k || i.spare == k | none => false)))

/-- R308: a slot's states follow its light: dark slots neither send nor listen; a lit slot sends headers and hunts. -/
def refreshSlot (s : State) (g : Fin 4) (k : Fin 18) : State :=
  let s := if (lslot s g k).tx = .up && !txOptics s g k then txDown s g k 3
    else if (slotOwner s g k).isNone then txDown s g k 7 else s
  let x := lslot s g k
  if !lit s g k || (slotOwner s g k).isNone then
    if x.tx = .off && x.rx = .off then s
    else setLSlot s g k { x with tx := .off, rx := .off, changeSf := s.sf, upAt := none, last := none, clean := 0, txq := [],
                                 txRes := 0, txData := [], txHdr := [] }
  else
    let tx := if x.tx = .off && txOptics s g k then TxSt.train else x.tx
    let rx := if x.rx = .off then RxSt.hunt else x.rx
    if tx = x.tx && rx = x.rx then s else setLSlot s g k { x with tx := tx, rx := rx, changeSf := s.sf, missing := 0 }

/-- R309 reason 1: a superframe without a valid header. -/
def missHeader (s : State) (g : Fin 4) (k : Fin 18) : State :=
  let x := lslot s g k
  if x.rx = .off then s
  else
    let s := setLSlot s g k { x with missing := x.missing + 1, clean := 0 }
    if x.missing + 1 ≥ 4 then rxHunt s g k 1 else s

/-- R316: the figures of the superframe that a header ends: pre-FEC BER in 10^−8, outer failures, iterations. -/
def endFec (x : LSlot) : LSlot :=
  { x with ber := min (x.flips * 100000000 / 3924480) 0xFFFFFF, lastFails := min x.fails 320, lastIt := min x.itmax 15,
           flips := 0, fails := 0, itmax := 0 }

/-- R309 reason 2: consecutive superframes with DOWN_THR outer failures or more. -/
def judgeFec (s : State) (g : Fin 4) (k : Fin 18) : State :=
  let x := lslot s g k
  let bad := if x.lastFails ≥ fldV s (.fec g) 0x44 8 0 then x.bad + 1 else 0
  let s := setLSlot s g k { x with bad := bad }
  if x.rx = .up && bad ≥ fldV s (.fec g) 0x44 15 12 then rxHunt s g k 2 else s

/-- R308: whether the superframe before a header was clean. -/
def cleanSf (s : State) (g : Fin 4) (x : LSlot) : Bool :=
  x.lastFails == 0 && x.ber ≤ 1000 * fldV s (.fec g) 0x44 31 16

/-- R283: whether one more transmit lane of a group may carry frames: at most 16 do at once, spares in an insertion apart. -/
def laneFree (s : State) (g : Fin 4) : Bool :=
  let busy := fun (k : Fin 18) => ((lslot s g k).tx == .up || (lslot s g k).upAt.isSome) &&
    !(groupLinks g).any (fun l => match insertOf s l with | some i => i.spare == k | none => false)
  ((List.finRange 18).filter busy).length < 16

/-- R314: a lane whose accumulated dispersion, in 0.1 ps/nm, lies beyond ±10,000 ps/nm stays in HUNT. -/
def cdOk (x : LSlot) : Bool := match x.last with | some h => h.cd.natAbs ≤ 100000 | none => true

/-- R308, R310, R314: what a valid header of the link's peer does to the slot's states. -/
def headerStates (s : State) (g : Fin 4) (k : Fin 18) (h : SfHdr) : State :=
  let x := lslot s g k
  let clean := if cleanSf s g x then x.clean + 1 else 0
  let x := { x with clean := clean }
  let x := if x.rx = .hunt && clean ≥ 64 && x.skew ≤ 2048 && cdOk x then { x with rx := .ready, changeSf := s.sf } else x
  let goesUp := x.rx == .ready && h.cmd == 1 && h.cmdSf == h.sf
  let x := if goesUp then { x with rx := .up, changeSf := s.sf } else x
  let s := setLSlot s g k x
  let s := if goesUp then raise s (.line g) 0x0B01 0 else s
  -- R309 reason 4, R310 order 2
  if x.tx = .up && h.rxs = 1 then txDown s g k 4
  else if x.tx = .train && txOptics s g k && h.rxs = 2 && x.upAt.isNone && laneFree s g then
    setLSlot s g k { x with upAt := some (s.sf + 9) }
  else s

/-- SF_HEADER_RX (R288 to R290, R308 to R312): a header arrives on a slot, with its arrival timestamp against its superframe in
ps, the dispersion its receiver measures, and the skew that its lane needs. -/
def execSfHeaderRx (g : Fin 4) (k : Fin 18) (hdr : Bytes) (rx cd : Int) (skew : Nat) (s : State) :
    Host.Outcome State Fault Refusal :=
  let x := lslot s g k
  let h := parseSf hdr
  .next (if x.rx = .off || (pairOf s g k).isNone then s
    else match slotOwner s g k with
      | none => s
      | some l =>
        let follows := match x.last with
          | some p => x.missing ≥ 4 || h.sf == p.sf + 1 + x.missing
          | none => true
        let s := setLSlot s g k (endFec { x with seen := true })
        if !sfCheckOk hdr || !follows || x.failed.contains (h.sf, 0) then missHeader s g k
        else
          let x := lslot s g k
          let old := match x.last with | some p => (p.echoSf, p.echoAt) | none => (0, s.sf)
          let e : HdrIn :=
            { sf := h.sf, atSf := s.sf, txs := h.txs, rxs := h.rxs, echoSf := h.echoSf, echoRx := h.echoRx, cdPeer := h.cd,
              echoAt := if h.echoSf = old.1 then old.2 else s.sf, cmd := h.cmd, cmdSf := h.cmdSf, rx := rx, cd := cd,
              time := h.time }
          -- R289: delineation resumes at FIRST_FRAME
          let s := setLSlot s g k { x with last := some e, missing := 0, skew := skew,
                                           hunting := x.hunting && h.firstFrame = 0xFFFFFFFF }
          let y := llink s l
          let s := setLLink s l { y with validSf := s.sf, lost := false,
                                         ret := if y.lost then y.ret.map (fun f => { f with retx := 0 }) else y.ret }
          -- R400: a header of another domain
          let other := h.time.domain ≠ ltDomain s
          let s := if other && !y.domainSeen then
              raise (setLLink s l { llink s l with domainSeen := true }) .time 0x2F03 0 else s
          let s := judgeFec s g k
          if h.src ≠ linkPeer s l then rxHunt s g k 6
          else if skew > 2048 then rxHunt s g k 5
          else headerStates s g k h)

/-- R289, R292: what the decoding of a slot of a superframe leaves: its figures and counters; where an outer codeword fails, the slot
stands among those that failed and delineation is lost. -/
def fecSlotDone (s : State) (g : Fin 4) (k : Fin 18) (sf : Nat) (slot : Fin 64) (d : SlotDecode) : State :=
  let x := lslot s g k
  let x := { x with flips := x.flips + d.flips, fails := x.fails + d.fails, itmax := max x.itmax d.iters,
                    failed := (if d.fails > 0 then [(sf, slot.val)] else []) ++ x.failed.filter (fun f => f.1 + 2 ≥ sf),
                    hunting := x.hunting || d.fails > 0 }
  let s := setLSlot s g k x
  let s := count (count (count s (.fec g) 0 d.flips) (.fec g) 1 d.fixed) (.fec g) 2 d.fails
  count s (.fec g) 3 (if d.fails > 0 then 1 else 0)

/-- FEC_SLOT_DECODE (R286, R290 to R292): one slot of a superframe is decoded from the soft values of its data symbols: inner
codewords in at most ITER iterations, then outer codewords. -/
def execFecSlotDecode (g : Fin 4) (k : Fin 18) (slot : Nat × Fin 64) (xI xQ yI yQ : List Int) (s : State) :
    Host.Outcome State Fault Refusal :=
  .next (if (lslot s g k).rx = .off || (pairOf s g k).isNone then s
    else fecSlotDone s g k slot.1 slot.2 (decodeSlot (fldV s (.fec g) 0x40 3 0) (softBits xI xQ yI yQ)))

/-! ## Delivery (R299, R305, R306, R307) -/

/-- R305: the units of a frame stand among the delivered units; a frame without any is done. -/
def pushUnits (s : State) (l : LinkId) (vc : Nat) (seq : BitVec 32) (us : List LUnit) : State :=
  let s := { s with line := { s.line with inbox := s.line.inbox ++ us.map (fun u => ⟨l, vc, seq, false, u⟩) } }
  freeRx s l vc seq

/-- R305: frames of VC0 and VC6 whose gap has filled, from a SEQ on. -/
def pushRun (s : State) (l : LinkId) (vc : Nat) : BitVec 32 → Nat → State
  | _, 0 => s
  | q, n + 1 =>
    let x := llink s l
    let s := match x.rx.find? (fun f => f.vc == vc && f.seq == q) with
      | some f =>
        pushUnits (setLLink s l { x with rx := x.rx.map (fun y => if y.vc = vc ∧ y.seq = q then { y with units := [] } else y) })
          l vc q f.units
      | none => s
    pushRun s l vc (q + 1) n

/-- R299, R301: CUM after a SEQ is received, with the SEQs received above it; by at most n steps. -/
def advance (cum : BitVec 32) (above : List (BitVec 32)) : Nat → BitVec 32 × List (BitVec 32)
  | 0 => (cum, above)
  | n + 1 => if above.contains cum then advance (cum + 1) (above.filter (· != cum)) n else (cum, above)

/-- R306, R307: whether a frame's cost and bytes fit the grant and the staging space: 0, or the code. -/
def stageCheck (s : State) (l : LinkId) (vc cost bytes : Nat) : Nat :=
  let v := vcLine (llink s l) vc
  if v.held + cost > fldB s (.line l.1) 0x78 vc 31 0 then 0x2B03
  else
    let room := min (fldV s (.line l.1) 0x8C 12 0 * 2 ^ 20) (lineRegion s l.1 - retBytes s l.1)
    if stageBytes s l.1 + bytes > room then 0x1B02 else 0

/-- R296 orders 6 and 7: 6 outside the window, 7 received already, 0 otherwise. -/
def seqCheck (s : State) (l : LinkId) (vc : Nat) (seq : BitVec 32) : Nat :=
  let v := vcLine (llink s l) vc
  let d := (seq - v.cum).toNat
  if d ≥ 2 ^ 31 || v.above.contains seq then 7 else if d ≥ 2 ^ 22 then 6 else 0

def gotFrame (s : State) (l : LinkId) : State := setLLink s l { llink s l with gotData := true }

/-- R362: a verified DATA frame on a slot of an insertion is noted for the comparison. -/
def noteCopy (s : State) (l : LinkId) (slot : Fin 18) (vc : Nat) (seq : BitVec 32) (body : Bytes) : State :=
  match insertOf s l with
  | none => s
  | some i =>
    if i.w - i.d - 72 ≤ s.sf && s.sf ≤ i.w - i.d - 9 then
      let i := if slot = i.slot then { i with onK := i.onK.concat (vc, seq, body) }
        else if slot = i.spare then { i with onS := i.onS.concat (vc, seq, body) } else i
      { s with light := { s.light with ins := mset s.light.ins l i } }
    else s

/-- R329: the units of a bootstrap frame that are not key messages are discarded. -/
def bootUnits (s : State) (l : LinkId) (id : Nat) (us : List LUnit) : State × List LUnit :=
  if id ≠ 0 then (s, us)
  else
    let isKey := fun (u : LUnit) => match u with | .key _ => true | _ => false
    ((us.filter (fun u => !isKey u)).foldl (fun s _ => raise s (.ciph l.1 1) 0x2C04 0) s, us.filter isKey)

/-- R294, R299, R305, R306: a frame is received: its SEQ, its credits, and its units. -/
def acceptFrame (s : State) (l : LinkId) (h : FrHdr) (body : Bytes) : State :=
  let seq := BitVec.ofNat 32 h.seq
  let x := llink s l
  let v := vcLine x h.vc
  let a := advance v.cum (seq :: v.above) (v.above.length + 1)
  let u := unitsOf h.vc body
  let cost := frameCost body
  let s := if u.2 then s else raise s (.line l.1) 0x2B01 0
  let b := bootUnits s l h.keyId u.1
  let ordered := h.vc == 0 || h.vc == 6
  let f : RxFrame := ⟨h.vc, seq, cost, 32 + body.length, if ordered then b.2 else []⟩
  let s := setLLink b.1 l ({ x with gotData := true, rx := x.rx.concat f }.setVc h.vc
    { v with cum := a.1, above := a.2, held := v.held + cost, recv := v.recv + BitVec.ofNat 32 cost })
  let s := count s (.line l.1) 1 1
  -- R29, R305: a frame above a gap waits in the pond
  let s := if ordered && seq != v.cum then pondFirst s l.1 (32 + body.length) else s
  if ordered then pushRun s l h.vc v.cum (a.1 - v.cum).toNat else pushUnits s l h.vc seq b.2

/-- R296 orders 6 to 8: a frame whose tag has verified. -/
def finishFrame (s : State) (l : LinkId) (slot : Fin 18) (h : FrHdr) (body : Bytes) : State :=
  let seq := BitVec.ofNat 32 h.seq
  let s := noteCopy s l slot h.vc seq body
  match seqCheck s l h.vc seq with
  | 7 => count (gotFrame s l) (.line l.1) 4 1
  | 6 => count s (.line l.1) 3 1
  | _ =>
    match stageCheck s l h.vc (frameCost body) (32 + body.length) with
    | 0 => acceptFrame s l h body
    | 0x1B02 => raise (count s (.line l.1) 7 1) (.line l.1) 0x1B02 0
    | c => raise s (.line l.1) c 0

/-! ## Frames arrive (R292, R296, R323, R329, R337, R338) -/

/-- R337: bytes in a quadrant's tag-hold buffer, those released early apart. -/
def holdBytes (s : State) (g : Fin 4) : Nat :=
  (mget s.ciph.hold g []).foldl (fun n f => if f.early then n else n + f.cipher.length) 0

/-- R323, R329: why the cipher refuses a frame before decryption: a code, or 0. -/
def cipherRefusal (s : State) (l : LinkId) (slot : Fin 18) (h : FrHdr) : Nat :=
  if h.keyId = 0 && !(h.kind = 2 || h.vc = 6) then 0x2C04
  else match rxKey s l h.keyId with
    | none => 0x2C03
    | some _ =>
      if h.slot ≠ slot.val || h.ctr = 0 || h.ctr ≤ mget (lciph s l).last (slot.val, h.keyId) 0 then 0x2C02 else 0

/-- R289, R296 order 1: delineation is lost at a frame header that fails its HCHECK, and regained at one that verifies. -/
def delineate (s : State) (g : Fin 4) (k : Fin 18) (bytes : Bytes) : State :=
  let x := lslot s g k
  if x.rx = .off || (pairOf s g k).isNone then s else setLSlot s g k { x with hunting := !frCheckOk bytes }

/-- R296: a frame is discarded. -/
def dropFrame (s : State) (g : Fin 4) : State := count s (.line g) 3 1

/-- R296 orders 1 to 3: the link and header of a frame; or the state after its discard. `whole` says that its length is that which
its header gives, `touched` that a byte of it lies in a slot that the FEC could not correct. -/
def frameLink (s : State) (g : Fin 4) (k : Fin 18) (bytes : Bytes) (whole touched : Bool) : State ⊕ (LinkId × FrHdr) :=
  match slotOwner s g k with
  | none => .inl s
  | some l =>
    let h := parseFr bytes
    if (lslot s g k).rx = .off || (pairOf s g k).isNone || !frCheckOk bytes then .inl s
    else if touched then .inl (dropFrame s g)
    else if !frFieldsOk bytes || !whole then .inl (raise (dropFrame s g) (.line g) 0x2B01 0)
    else if h.src ≠ linkPeer s l || h.dst ≠ gw s then .inl (raise (dropFrame s g) (.line g) 0x2B02 0)
    else .inr (l, h)

/-- R296 orders 1 to 5 up to decryption: the link and header of a frame that is to be decrypted; or the state after its
discard. -/
def takeFrame (s : State) (g : Fin 4) (k : Fin 18) (bytes : Bytes) (touched : Bool) : State ⊕ (LinkId × FrHdr) :=
  match frameLink s g k bytes (bytes.length == (parseFr bytes).len + 48) touched with
  | .inl s => .inl s
  | .inr (l, h) =>
    if (lslot s g k).rx ≠ .up then .inl (dropFrame s g)
    else if h.len < 64 || h.len > 16384 then .inl (raise (dropFrame s g) (.ciph g 1) 0x2C05 0)
    else match cipherRefusal s l k h with
      | 0 => .inr (l, h)
      | c => .inl (raise (count (dropFrame s g) (.ciph g 1) 2 (if c = 0x2C02 then 1 else 0)) (.ciph g 1) c 0)

/-- Whether a frame's span meets a slot that failed. -/
def spanFailed (s : State) (g : Fin 4) (k : Fin 18) (span : List (Nat × Fin 64)) : Bool :=
  span.any (fun p => (lslot s g k).failed.contains (p.1, p.2.val))

/-- R319, R337: the tag of a frame under the key it names, and its plaintext; none where the key is gone or the tag fails. -/
def openFrame (s : State) (l : LinkId) (hdr cipher tag : Bytes) : Option Bytes :=
  let h := parseFr hdr
  match rxKey s l h.keyId with
  | none => none
  | some k => if gcmTag k.key (frameIv k h) hdr cipher = tag then some (gcmXor k.key (frameIv k h) cipher) else none

/-- R323, R335: a tag has verified: L_s,k, and the slots that have verified a frame under the newer key. -/
def noteVerified (s : State) (l : LinkId) (slot : Fin 18) (h : FrHdr) : State :=
  let c := lciph s l
  let new := match (if c.drain.isSome then c.rx else c.rxOther) with | some k => k.id == h.keyId | none => false
  setLCiph s l { c with last := mset c.last (slot.val, h.keyId) (max h.ctr (mget c.last (slot.val, h.keyId) 0)),
                        verified := if new && !c.verified.contains slot.val then slot.val :: c.verified else c.verified }

def setHold (s : State) (g : Fin 4) (l : List HeldFrame) : State :=
  { s with ciph := { s.ciph with hold := mset s.ciph.hold g l } }

/-- R338: the high-water mark, and the end of an early-release episode. -/
def noteHold (s : State) (g : Fin 4) : State :=
  let n := holdBytes s g
  { s with ciph := { s.ciph with maxKib := mset s.ciph.maxKib g (max (mget s.ciph.maxKib g 0) (cdiv n 1024)),
                                 early := if n < 4194304 then s.ciph.early.filter (· != g) else s.ciph.early } }

/-- R338: a frame released UNVERIFIED. -/
def releaseEarly (s : State) (l : LinkId) (h : FrHdr) (f : HeldFrame) : State :=
  let g := l.1
  let s := if s.ciph.early.contains g then s
    else raise { s with ciph := { s.ciph with early := g :: s.ciph.early } } (.ciph g 1) 0x0C03 0
  let s := setHold (count s (.ciph g 1) 3 1) g ((mget s.ciph.hold g []).concat { f with early := true })
  let seq := BitVec.ofNat 32 h.seq
  let there := s.line.inbox.any (fun u => u.link == l && u.vc == h.vc && u.seq == seq)
  match rxKey s l h.keyId with
  | none => s
  | some k =>
    if there || seqCheck s l h.vc seq ≠ 0 || stageCheck s l h.vc (cdiv (h.len + 48) 256) (32 + h.len) ≠ 0 then s
    else
      let us := (unitsOf h.vc (gcmXor k.key (frameIv k h) f.cipher)).1
      { s with line := { s.line with inbox := s.line.inbox ++ us.map (fun u => ⟨l, h.vc, seq, true, u⟩) } }

/-- DATA_FRAME_RX (R292, R296 orders 1 to 5, R337, R338): a frame arrives whole on a slot, over the slots of superframes that its
span lists. -/
def execDataFrameRx (g : Fin 4) (k : Fin 18) (bytes : Bytes) (span : List (Nat × Fin 64)) (s : State) :
    Host.Outcome State Fault Refusal :=
  .next (if (parseFr bytes).kind ≠ 1 && frCheckOk bytes && frFieldsOk bytes then s
    else
      let s := delineate s g k bytes
      match takeFrame s g k bytes (spanFailed s g k span) with
      | .inl s => s
      | .inr (l, h) =>
        let f : HeldFrame := ⟨l, k, bytes.take 32, slice bytes 32 h.len, bytes.drop (32 + h.len), false⟩
        let full := holdBytes s g + h.len > 8388608
        let fall := fldV s (.ciph g 1) 0x68 0 0 == 1 && 1 ≤ h.vc && h.vc ≤ 4 && h.keyId ≠ 0
        if fall && (full || s.ciph.early.contains g) then releaseEarly s l h f
        else if full then raise s (.ciph g 1) 0x2C06 0
        else noteHold (setHold s g ((mget s.ciph.hold g []).concat f)) g)

/-- R339: the units of a frame released early are taken as if it had been held. -/
def verifyEarly (s : State) (l : LinkId) (slot : Fin 18) (h : FrHdr) (body : Bytes) : State :=
  let seq := BitVec.ofNat 32 h.seq
  let mine := fun (u : Unit) => u.link == l && u.vc == h.vc && u.seq == seq && u.unver
  if s.line.inbox.any mine then
    finishFrame { s with line := { s.line with inbox := s.line.inbox.filter (fun u => !mine u) } } l slot h body
  else finishFrame s l slot h body

/-- R339: the tag of a frame released early fails: reduction records taint their cells, with cause 3 and
the LEVEL of the record as the level at detection (DESIGN CHOICE, entry 103). -/
def failEarly (s : State) (l : LinkId) (h : FrHdr) : State :=
  let seq := BitVec.ofNat 32 h.seq
  let mine := fun (u : Unit) => u.link == l && u.vc == h.vc && u.seq == seq && u.unver
  let us := (s.line.inbox.filter mine).map (·.body)
  let s := { s with line := { s.line with inbox := s.line.inbox.filter (fun u => !mine u) } }
  us.foldl (fun (s : State) (u : LUnit) => match u with
    | .rcd r => match findInst s r.hdr.ciid with
      | some x =>
        let cl := cellOf s x.desc.cell
        if cl.ciid = r.hdr.ciid && (cl.st == .armed || cl.st == .gathering || cl.st == .complete) then
          taint s x.desc.cell r.hdr.ciid 3 (r.hdr.level.toNat % 4) (x.desc.cell / 240) else s
      | none => s
    | _ => s) s

/-- TAG_FINALISE (R337, R339): a finaliser completes the tag of a held frame. -/
def execTagFinalise (g : Fin 4) (i : Nat) (s : State) : Host.Outcome State Fault Refusal :=
  .next (match (mget s.ciph.hold g [])[i]? with
    | none => s
    | some f =>
      let s := noteHold (setHold s g ((mget s.ciph.hold g []).eraseIdx i)) g
      let h := parseFr f.hdr
      let s := count s (.ciph g 1) 0 (aesBlocks f.cipher.length)
      match openFrame s f.link f.hdr f.cipher f.tag with
      | some body =>
        let s := noteVerified s f.link f.slot h
        if f.early then verifyEarly s f.link f.slot h body else finishFrame s f.link f.slot h body
      | none =>
        let s := raise (count (count s (.ciph g 1) 1 1) (.line g) 3 1) (.ciph g 1) 0x2C01 0
        if f.early then failEarly s f.link h else s)

/-- FILL_FRAME_RX (R293, R296 orders 1 to 3): a FILL, of which the header is checked, is discarded. -/
def execFillFrameRx (arr : Arrival) (hdr : Bytes) (s : State) : Host.Outcome State Fault Refusal :=
  .next (if (parseFr hdr).kind ≠ 0 && frCheckOk hdr && frFieldsOk hdr then s
    else
      let s := delineate s arr.g arr.k hdr
      match frameLink s arr.g arr.k hdr true (spanFailed s arr.g arr.k arr.span) with
      | .inl s => s
      | .inr _ => s)

/-! ## ACKs (R301 to R303, R306) -/

/-- R303: retransmission is triggered for a frame; one that has had MAX_RETX of them takes the link to LOST (R311). -/
def loseLink (s : State) (l : LinkId) : State :=
  let x := llink s l
  if x.lost then s else raise (setLLink s l { x with lost := true }) (.line l.1) 0x3B01 0

def triggerRetx (s : State) (l : LinkId) (f : RetFrame) : State :=
  let x := llink s l
  if f.retx ≥ fldV s (.line l.1) 0x70 16 12 then loseLink s l
  else setLLink s l { x with ret := x.ret.map (fun y => if y.vc = f.vc ∧ y.seq = f.seq then { y with queued := true } else y) }

/-- R301: whether an ACK entry reports a SEQ as received. -/
def reports (e : AckEnt) (q : BitVec 32) : Bool :=
  (q - BitVec.ofNat 32 e.cum).toNat ≥ 2 ^ 31 ||
  e.ranges.any (fun r => (q - BitVec.ofNat 32 r.1).toNat ≤ (BitVec.ofNat 32 r.2 - BitVec.ofNat 32 r.1).toNat)

/-- One entry of an ACK: acknowledged frames are released, credits and grant updated, and gaps trigger retransmission. -/
def takeEnt (l : LinkId) (s : State) (e : AckEnt) : State :=
  let x := llink s l
  let v := vcLine x e.vc
  let cum := BitVec.ofNat 32 e.cum
  let done := fun (f : RetFrame) => f.vc == e.vc && reports e f.seq
  let top := (x.ret.filter done).foldl (fun t f => max t f.sf) v.topSf
  let newer := (cum - v.acked).toNat < 2 ^ 31
  let back := BitVec.ofNat 32 e.ret
  let v := { v with acked := if newer then cum else v.acked, topSf := top,
                    returned := if (back - v.returned).toNat < 2 ^ 31 then back else v.returned,
                    grant := if newer then e.grant else v.grant }
  let s := setLLink s l ({ x with ret := x.ret.filter (fun f => !done f) }.setVc e.vc v)
  let gap := fldV s (.line l.1) 0x70 3 0
  ((llink s l).ret.filter (fun f => f.vc == e.vc && !f.queued && top ≥ f.sf + gap)).foldl (fun s f => triggerRetx s l f) s

/-- ACK_FRAME_RX (R296, R301, R303, R306): an ARQ ACK, from its checks to its effect. -/
def execAckFrameRx (g : Fin 4) (k : Fin 18) (bytes : Bytes) (span : List (Nat × Fin 64)) (s : State) :
    Host.Outcome State Fault Refusal :=
  .next (if (parseFr bytes).kind ≠ 2 && frCheckOk bytes && frFieldsOk bytes then s
    else
      let s := delineate s g k bytes
      match takeFrame s g k bytes (spanFailed s g k span) with
      | .inl s => s
      | .inr (l, h) =>
        if holdBytes s g + h.len > 8388608 then raise s (.ciph g 1) 0x2C06 0
        else
          let s := count s (.ciph g 1) 0 (aesBlocks h.len)
          match openFrame s l (bytes.take 32) (slice bytes 32 h.len) (bytes.drop (32 + h.len)) with
          | none => raise (count (count s (.ciph g 1) 1 1) (.line g) 3 1) (.ciph g 1) 0x2C01 0
          | some body =>
            let s := noteVerified s l k h
            match parseAck body with
            | none => raise s (.line g) 0x2B01 0
            | some es => es.foldl (takeEnt l) s)

/-- ACK_IDLE_TIMER (R302): ACK_IDLE superframes have passed on an UP link without an ACK. -/
def execAckIdleTimer (g i : Fin 4) (s : State) : Host.Outcome State Fault Refusal :=
  .next (if linkUp s (g, i) && s.sf ≥ (llink s (g, i)).ackSf + fldV s (.line g) 0x70 31 24 then sendAck s (g, i) else s)

/-- ARQ_RTO_EXPIRY (R303): no ACK has covered a frame by 2 × D_link + RTO_EXTRA after its latest transmission. -/
def execArqRtoExpiry (g i : Fin 4) (vc : Nat) (seq : BitVec 32) (s : State) : Host.Outcome State Fault Refusal :=
  let l : LinkId := (g, i)
  .next (match (llink s l).ret.find? (fun f => f.vc == vc && f.seq == seq) with
    | none => s
    | some f =>
      if f.queued || s.sf < f.sf + 2 * dLink s l + fldV s (.line g) 0x70 11 4 then s else triggerRetx s l f)

/-! ## Links (R311) -/

/-- LINK_LOST: no valid header on any slot of an enabled link for 2 × D_link + 64 superframes. -/
def execLinkLost (g i : Fin 4) (s : State) : Host.Outcome State Fault Refusal :=
  let l : LinkId := (g, i)
  .next (if (llink s l).en && s.sf ≥ (llink s l).validSf + 2 * dLink s l + 64 then loseLink s l else s)

/-- R311: LINK_RESET: retention and staging go, and every SEQ and credit count of the link returns to 0. -/
def resetLink (s : State) (l : LinkId) : State :=
  let x := llink s l
  let s := setLLink s l { x with ret := [], vcs := [], rx := [], gotData := false }
  { s with line := { s.line with inbox := s.line.inbox.filter (fun u => u.link != l) } }

/-! ## The superframe (R289, R302, R310) -/

/-- R287: frames leave a slot's buffer: the bytes left of the one in progress, and those not begun. -/
def drain : Nat → List Nat → Nat × List Nat
  | _, [] => (0, [])
  | n, a :: l => if a ≤ n then drain (n - a) l else if n = 0 then (0, a :: l) else (a - n, l)

/-- R293: FILL frames over n bytes, of at most 16,384 fill bytes each; the last may run on into the next superframe. -/
def fillFrames (s : State) (g : Fin 4) (k : Fin 18) (peer : Nat) : Nat → Nat → State
  | 0, _ => s
  | fuel + 1, n =>
    if n = 0 then s
    else
      let len := min 16384 (n - 32)
      let s := putFrame s g k (frBytes ⟨0, 0, false, k.val, gw s, peer, 0, len, 0, 0⟩ ++ List.replicate len 0)
      fillFrames s g k peer fuel (n - 32 - len)

/-- R286, R287, R293: the superframe that ends on a lit slot: FILL where it had no frame to send, its symbols launched, and the bytes of
its frame area out of the buffer. -/
def sendArea (s : State) (g : Fin 4) (k : Fin 18) : State :=
  if (lslot s g k).txHdr.isEmpty then s
  else
    let peer := match slotOwner s g k with | some l => linkPeer s l | none => 0
    let s := fillFrames s g k peer 32 (399872 - (lslot s g k).txData.length)
    let x := lslot s g k
    let d := drain 399872 (if x.txRes > 0 then x.txRes :: x.txq else x.txq)
    let s := setLSlot s g k { x with txRes := d.1, txq := d.2, txHdr := [], txData := x.txData.drop 399872 }
    -- R366: the light leaves on the fibre pair to which the router carries the slot
    match pairOf s g k with
    | some f => emit s (.symbols f (g, k) (s.sf - 1) (lineSymbols k.val (x.txHdr ++ x.txData.take 399872)))
    | none => s

/-- One slot at a superframe boundary: its superframe is sent, one without a received header is missed, and a slot whose UP_AT has
come carries frames. -/
def slotTick (s : State) (g : Fin 4) (k : Fin 18) : State :=
  let s := sendArea s g k
  let s := if (lslot s g k).seen then setLSlot s g k { lslot s g k with seen := false } else missHeader s g k
  let s := refreshSlot s g k
  let x := lslot s g k
  match x.upAt with
  | some n =>
    if s.sf > n then setLSlot s g k { x with upAt := none }
    else if s.sf = n && x.tx = .train then raise (setLSlot s g k { x with tx := .up, changeSf := s.sf }) (.line g) 0x0B01 0
    else s
  | none => s

/-- R44, R315: LINK_CFG.EN takes effect at a superframe boundary, for a link that is DOWN while the LINE block takes work; an enabled link
without a key starts a handshake (R334). -/
def linkEnable (s : State) (l : LinkId) : State :=
  let x := llink s l
  let en := fldB s (.line l.1) 0x54 l.2.val 31 31 == 1 && (x.en || takesWork s (.line l.1))
  let s := if en != x.en then setLLink s l { x with en := en, lost := x.lost && en, validSf := if en then s.sf else x.validSf } else s
  if en && !x.en && (lciph s l).tx.isNone then startHs s l else s

/-- One link at a superframe boundary: θ and delay (R312), and the ACK that R302 sends. -/
def linkTick (s : State) (l : LinkId) : State :=
  let s := measureLink s l
  if (llink s l).gotData then sendAck s l else s

/-- The line at a superframe boundary. -/
def lineTick (s : State) : State :=
  let s := { s with line := { s.line with served := [], tokens := [] } }
  let s := s.line.retFull.foldl (fun s g => count s (.line g) 6 1) s
  let s := allLinks.foldl linkEnable s
  let s := (List.finRange 4).foldl (fun s g => (List.finRange 18).foldl (fun s k => slotTick s g k) s) s
  allLinks.foldl linkTick s

end Sys2Proof.Machine
end

