-- ==== Sys2Proof/Machine/Cipher.lean ====
section
/-! DEFINITION. Machine/Cipher.lean: line keys (R328 to R336): the handshake and its messages, the switch to a new key and the
draining of the old one, alarms and erasure (R340 to R342), engine clusters (R327). -/
namespace Sys2Proof.Machine
open Sys2Proof

/-! ## Random bytes -/

/-- n bytes of the random source, each drawn once. -/
def drawBytes (s : State) (n : Nat) : State × Bytes :=
  ({ s with ciph := { s.ciph with draws := s.ciph.draws + n } },
   (List.range n).map (fun i => Config.randomByte (s.ciph.draws + i)))

/-- A byte string of exactly n bytes: what a standard's function gives, whose length the standard fixes. -/
def sized (n : Nat) (l : Bytes) : Bytes := padTo n (l.take n)

/-! ## Key messages (R331, R332) -/

/-- R331: a fragment with its header. -/
def fragment (kind session f n len : Nat) (data : Bytes) : Bytes :=
  beBytes 1 kind ++ [1] ++ beBytes 2 session ++ beBytes 2 f ++ beBytes 2 n ++ beBytes 4 len ++ List.replicate 4 0 ++ data

/-- R331: a key message queued on VC6, in fragments of 8,192 bytes. -/
def sendKey (s : State) (l : LinkId) (kind session : Nat) (m : Bytes) : State :=
  let n := cdiv m.length 8192
  (List.range n).foldl (fun s f =>
    lineSend s l 6 (.key (fragment kind session f n m.length (slice m (8192 * f) 8192)))) s

/-- R331: whether a fragment meets its table. -/
def fragOk (l : Bytes) : Bool :=
  let f := beAt l 4 2; let n := beAt l 6 2; let len := beAt l 8 4
  l.length ≥ 16 && byteAt l 1 == 1 && 1 ≤ n && n ≤ 16 && f < n && 1 ≤ len && len ≤ 131072 && n == cdiv len 8192 &&
  (slice l 12 4).all (· == 0) && (l.drop 16).length == min 8192 (len - 8192 * f)

/-- R336: the reason a handshake ends with, at the gateway that ends it: ABORT goes out, the keys of the session are
discarded, HANDSHAKE_FAIL is raised, and the initiator tries again after 1,024 superframes. -/
def dropSession (c : LCiph) (sf : Nat) : LCiph :=
  let init := match c.hs with | some h => h.init | none => false
  { c with hs := none, pendSw := none, rxOther := if c.drain.isSome then c.rxOther else none, frags := [],
           retrySf := if init then some (sf + 1024) else c.retrySf }

def abortHs (s : State) (l : LinkId) (session reason : Nat) : State :=
  let s := sendKey s l 0x44 session (beBytes 2 reason)
  let s := raise s (.ciph l.1 0) 0x2C08 0
  setLCiph s l { dropSession (lciph s l) s.sf with result := 2, reason := reason }

/-- R331: a fragment taken from the link's delivered units: the whole message once every fragment is there. -/
def takeKey (s : State) (l : LinkId) (kind : Nat) (b : Bytes) : State × Option Bytes :=
  match (if byteAt b 0 = kind then takeUnit s l (.key b) else none) with
  | none => (s, none)
  | some s =>
    let ses := beAt b 2 2
    if !fragOk b then (abortHs s l ses 8, none)
    else
      let c := lciph s l
      let fr := mset c.frags (ses, kind, beAt b 4 2) b
      let n := beAt b 6 2
      let parts := (List.range n).map (fun i => mget? fr (ses, kind, i))
      let whole := parts.all (fun p => match p with | some x => beAt x 8 4 == beAt b 8 4 | none => false)
      if whole then
        (setLCiph s l { c with frags := fr.filter (fun e => !(e.1.1 == ses && e.1.2.1 == kind)) },
         some (parts.flatMap (fun p => match p with | some x => x.drop 16 | none => [])))
      else (setLCiph s l { c with frags := fr }, none)

/-! ## Keys of a session (R333) -/

/-- R333: the 140 derived bytes. -/
def deriveKeys (ni nr ss : Bytes) (init resp keyId : Nat) : Bytes :=
  hkdfExpand (hkdfExtract (ni ++ nr) ss)
    ([0x53, 0x47, 0x34, 0x34, 0x20, 0x6C, 0x69, 0x6E, 0x65, 0x20, 0x76, 0x31] ++ beBytes 2 init ++ beBytes 2 resp ++
      beBytes 1 keyId) 140

/-- R333: the key of a direction of a session: 0 initiator to responder, 1 responder to initiator. -/
def dirKey (h : Hs) (dir : Nat) (sf : Nat) : LKey :=
  ⟨h.keyId, slice h.derived (32 * dir) 32, slice h.derived (64 + 6 * dir) 6, sf⟩

def sendKeyOf (h : Hs) (sf : Nat) : LKey := dirKey h (if h.init then 0 else 1) sf
def recvKeyOf (h : Hs) (sf : Nat) : LKey := dirKey h (if h.init then 1 else 0) sf

/-- R332: the tag of CONFIRM or DONE. -/
def confTag (h : Hs) (confI : Bool) (sw : Nat) : Bytes :=
  hmac (slice h.derived (if confI then 76 else 108) 32) (sha256 (h.hello ++ h.accept) ++ beBytes 8 sw)

def curKeyId (s : State) (l : LinkId) : Nat := match (lciph s l).tx with | some k => k.id | none => 0

def setHs (s : State) (l : LinkId) (h : Hs) : State := setLCiph s l { lciph s l with hs := some h }

/-! ## The messages' parts (R332) -/

def sigLen : Nat := 17088
def chainAt (m : Bytes) (off : Nat) : Bytes := slice m (off + 4) (beAt m off 4)
def signedPart (m : Bytes) : Bytes := m.take (m.length - sigLen)
def sigPart (m : Bytes) : Bytes := m.drop (m.length - sigLen)

/-- R332: whether a HELLO or ACCEPT is well formed, its chain's length at an offset. -/
def msgForm (m : Bytes) (off : Nat) : Bool := m.length ≥ off + 4 && m.length == off + 4 + beAt m off 4 + sigLen

def helloOk (m : Bytes) : Bool := msgForm m 1608 && (slice m 5 3).all (· == 0)

/-- R336 reasons 1 and 2: the chain validates, the roster admits its leaf as the peer's, and the signature verifies. -/
def chainCheck (s : State) (l : LinkId) (m : Bytes) (off : Nat) : Nat :=
  let chain := chainAt m off
  let peer := linkPeer s l
  let st := rosterSt s peer
  if !Config.chainValid chain || !(st == 1 || st == 2) ||
    fromBe ((sha256 (Config.leafSpki chain)).take 8) ≠ rosterFp s peer then 1
  else if !Config.slhVerify (Config.leafKey chain) (signedPart m) (sigPart m) then 2
  else 0

/-- R336: the checks of a HELLO after its form: a reason, or 0. -/
def helloReason (s : State) (l : LinkId) (m : Bytes) : Nat :=
  if beAt m 2 2 ≠ gw s || beAt m 0 2 ≠ linkPeer s l then 3
  else match chainCheck s l m 1608 with
    | 0 => if byteAt m 4 ≠ nextKeyId (curKeyId s l) then 4 else 0
    | r => r

/-- R336: the checks of an ACCEPT after its form. -/
def acceptReason (s : State) (l : LinkId) (h : Hs) (m : Bytes) : Nat :=
  if m.take 32 ≠ sha256 h.hello then 3 else chainCheck s l m 1632

/-! ## The handshake (R334, R336) -/

/-- R332: the chain with its length and the signature that close a HELLO or ACCEPT. -/
def signMsg (s : State) (m : Bytes) : Bytes :=
  let m := m ++ beBytes 4 s.boot.chain.length ++ s.boot.chain
  m ++ sized sigLen (Config.slhSign s.boot.attest m)

/-- HANDSHAKE_SIGN_DONE (R334, R336): a signing engine finishes, and the HELLO or ACCEPT goes out. -/
def execHandshakeSignDone (g i : Fin 4) (s : State) : Host.Outcome State Fault Refusal :=
  let l : LinkId := (g, i)
  .next (match (lciph s l).hs with
    | none => s
    | some h =>
      if h.st = .signHello then
        let r := drawBytes s 96
        let k := Config.kemKeys (r.2.drop 32)
        let m := signMsg s (beBytes 2 (gw s) ++ beBytes 2 (linkPeer s l) ++ beBytes 1 h.keyId ++ List.replicate 3 0 ++
          r.2.take 32 ++ sized 1568 k.1)
        sendKey (setHs r.1 l { h with st := .sentHello, hello := m, dk := k.2, lastSf := s.sf }) l 0x40 h.session m
      else if h.st = .signAccept then
        let m := signMsg s h.accept
        sendKey (setHs s l { h with st := .sentAccept, accept := m, lastSf := s.sf }) l 0x41 h.session m
      else s)

/-- HELLO_RX (R331, R334): a fragment of a HELLO. Where HELLOs cross, the lower gateway's stands. -/
def execHelloRx (g i : Fin 4) (b : Bytes) (s : State) : Host.Outcome State Fault Refusal :=
  let l : LinkId := (g, i)
  let r := takeKey s l 0x40 b
  let s := r.1
  .next (match r.2 with
    | none => s
    | some m =>
      let ses := beAt b 2 2
      let own := match (lciph s l).hs with | some h => h.init | none => false
      if own && gw s < linkPeer s l then s
      else if !helloOk m then abortHs s l ses 8
      else
        let c := dropSession { lciph s l with hs := none } s.sf
        setLCiph s l { c with hs := some ⟨.verifyHello, false, ses, byteAt m 4, m, [], [], [], none, s.sf, false⟩ })

/-- R336 reason 7: a message of a session that an alarm ended. -/
def lateKey (s : State) (l : LinkId) (ses : Nat) : State :=
  if (lciph s l).alarmed then
    let s := raise (sendKey s l 0x44 ses (beBytes 2 7)) (.ciph l.1 0) 0x2C08 0
    setLCiph s l { lciph s l with alarmed := false, result := 2, reason := 7 }
  else s

/-- ACCEPT_RX (R331, R334): a fragment of an ACCEPT. -/
def execAcceptRx (g i : Fin 4) (b : Bytes) (s : State) : Host.Outcome State Fault Refusal :=
  let l : LinkId := (g, i)
  let r := takeKey s l 0x41 b
  let s := r.1
  let ses := beAt b 2 2
  .next (match r.2, (lciph s l).hs with
    | some m, some h =>
      if h.st = .sentHello && h.session = ses then
        if msgForm m 1632 then setHs s l { h with st := .verifyAccept, accept := m } else abortHs s l ses 8
      else lateKey s l ses
    | some _, none => lateKey s l ses
    | none, _ => s)

/-- R323, R330, R334: a session's receive key stands beside the current one; no frame under it has verified yet. -/
def installRx (s : State) (l : LinkId) (h : Hs) : State :=
  let c := lciph s l
  setLCiph s l { c with hs := some h, rxOther := some (recvKeyOf h s.sf), drain := none, verified := [],
                        last := c.last.filter (fun e => e.1.2 != h.keyId) }

/-- HANDSHAKE_VERIFY_DONE (R334, R336): the security processor has verified a HELLO or an ACCEPT. -/
def execHandshakeVerifyDone (g i : Fin 4) (s : State) : Host.Outcome State Fault Refusal :=
  let l : LinkId := (g, i)
  .next (match (lciph s l).hs with
    | none => s
    | some h =>
      if h.st = .verifyHello then
        match helloReason s l h.hello with
        | 0 =>
          let r := drawBytes s 64
          let nr := r.2.take 32
          let e := Config.kemEncaps (r.2.drop 32) (slice h.hello 40 1568)
          let d := deriveKeys (slice h.hello 8 32) nr (sized 32 e.2) (linkPeer s l) (gw s) h.keyId
          installRx r.1 l { h with st := .signAccept, derived := d, accept := sha256 h.hello ++ nr ++ sized 1568 e.1 }
        | n => abortHs s l h.session n
      else if h.st = .verifyAccept then
        match acceptReason s l h h.accept with
        | 0 =>
          let ss := sized 32 (Config.kemDecaps h.dk (slice h.accept 64 1568))
          let d := deriveKeys (slice h.hello 8 32) (slice h.accept 32 32) ss (gw s) (linkPeer s l) h.keyId
          let sw := s.sf + dLink s l + 16
          let h := { h with st := .sentConfirm, derived := d, dk := [], sw := some sw, lastSf := s.sf }
          let s := installRx s l h
          let s := setLCiph s l { lciph s l with pendSw := some (sw, sendKeyOf h s.sf, recvKeyOf h s.sf) }
          sendKey s l 0x42 h.session (beBytes 8 sw ++ confTag h true sw)
        | n => abortHs s l h.session n
      else s)

/-- R343: a handshake has succeeded. -/
def succeed (c : LCiph) : LCiph := { c with hs := none, frags := [], result := 1, count := min (c.count + 1) 0xFFFF }

/-- CONFIRM_RX (R334): the responder checks CONFIRM and sends DONE; it switches at SW, or in the superframe after the check. -/
def execConfirmRx (g i : Fin 4) (b : Bytes) (s : State) : Host.Outcome State Fault Refusal :=
  let l : LinkId := (g, i)
  let r := takeKey s l 0x42 b
  let s := r.1
  let ses := beAt b 2 2
  .next (match r.2, (lciph s l).hs with
    | some m, some h =>
      if h.st = .sentAccept && h.session = ses then
        let sw := beAt m 0 8
        if m.length ≠ 40 then abortHs s l ses 8
        else if m.drop 8 ≠ confTag h true sw then abortHs s l ses 5
        else
          let s := sendKey s l 0x43 ses (confTag h false sw)
          let at_ := if s.sf < sw then sw else s.sf + 1
          setLCiph s l { succeed (lciph s l) with pendSw := some (at_, sendKeyOf h s.sf, recvKeyOf h s.sf) }
      else lateKey s l ses
    | some _, none => lateKey s l ses
    | none, _ => s)

/-- DONE_RX (R334): the initiator checks DONE; where it fails, both sides keep the new key and a new handshake starts. -/
def execDoneRx (g i : Fin 4) (b : Bytes) (s : State) : Host.Outcome State Fault Refusal :=
  let l : LinkId := (g, i)
  let r := takeKey s l 0x43 b
  let s := r.1
  let ses := beAt b 2 2
  .next (match r.2, (lciph s l).hs with
    | some m, some h =>
      if h.st = .sentConfirm && h.session = ses then
        let sw := h.sw.getD 0
        if m.length = 32 && m = confTag h false sw then setLCiph s l (succeed (lciph s l))
        else
          let why := if m.length = 32 then 5 else 8
          let s := raise (sendKey s l 0x44 ses (beBytes 2 why)) (.ciph l.1 0) 0x2C08 0
          let s := setLCiph s l { lciph s l with hs := none, frags := [], result := 2, reason := why, retrySf := some s.sf }
          startHs s l
      else lateKey s l ses
    | some _, none => lateKey s l ses
    | none, _ => s)

/-- ABORT_RX (R336): an ABORT ends a handshake; the keys of its session are discarded. -/
def execAbortRx (g i : Fin 4) (b : Bytes) (s : State) : Host.Outcome State Fault Refusal :=
  let l : LinkId := (g, i)
  let r := takeKey s l 0x44 b
  let s := r.1
  .next (match r.2, (lciph s l).hs with
    | some m, some h =>
      if h.session = beAt b 2 2 then
        if m.length ≠ 2 then abortHs s l h.session 8 else
        let s := raise s (.ciph l.1 0) 0x2C08 0
        setLCiph s l { dropSession (lciph s l) s.sf with result := 3, reason := beAt m 0 2 }
      else s
    | _, _ => s)

/-- HANDSHAKE_TIMEOUT (R336 reason 6): 4,096 superframes have passed since the last message sent, without the next. -/
def execHandshakeTimeout (g i : Fin 4) (s : State) : Host.Outcome State Fault Refusal :=
  let l : LinkId := (g, i)
  .next (match (lciph s l).hs with
    | some h =>
      if (h.st == .sentHello || h.st == .sentAccept || h.st == .sentConfirm) && s.sf ≥ h.lastSf + 4096 then
        abortHs s l h.session 6
      else s
    | none => s)

/-- HANDSHAKE_RETRY (R336): the initiator tries again. -/
def execHandshakeRetry (g i : Fin 4) (s : State) : Host.Outcome State Fault Refusal :=
  let l : LinkId := (g, i)
  .next (match (lciph s l).retrySf with
    | some n => if s.sf ≥ n then startHs s l else s
    | none => s)

/-- KEY_SWITCH (R334): at SF SW the transmitter switches; its counters start again, and the old receive key drains. -/
def execKeySwitch (g i : Fin 4) (s : State) : Host.Outcome State Fault Refusal :=
  let l : LinkId := (g, i)
  let c := lciph s l
  .next (match c.pendSw with
    | none => s
    | some (w, tx, rx) =>
      if s.sf < w then s
      else
        let c := { c with tx := some { tx with since := s.sf }, ctr := [], due := false, exhausted := [],
                          rx := some { rx with since := s.sf }, rxOther := c.rx,
                          drain := if c.rx.isSome then some (w + 2 * dLink s l + 16) else none, pendSw := none }
        raise (setLCiph s l c) (.ciph g 0) 0x0C01 0)

/-- KEY_DRAIN_END (R335): the old key is erased. -/
def execKeyDrainEnd (g i : Fin 4) (s : State) : Host.Outcome State Fault Refusal :=
  let l : LinkId := (g, i)
  let c := lciph s l
  .next (match c.drain with
    | none => s
    | some n =>
      if s.sf ≥ n && (rxUp s l).all (fun k => c.verified.contains k.val) then
        let old := match c.rxOther with | some k => k.id | none => 0
        setLCiph s l { c with drain := none, rxOther := none, last := c.last.filter (fun e => e.1.2 != old) }
      else s)

/-- KEY_AGE_EXPIRY (R335): the transmit key has been in force for 2^SF_LOG2 superframes. -/
def execKeyAgeExpiry (g i : Fin 4) (s : State) : Host.Outcome State Fault Refusal :=
  let l : LinkId := (g, i)
  let c := lciph s l
  .next (match c.tx with
    | some k => if s.sf ≥ k.since + 2 ^ fldV s (.ciph g 0) 0x60 13 8 && c.retrySf.isNone then startHs s l else s
    | none => s)

/-! ## Alarms and erasure (R340 to R342) -/

/-- R341, R437: every key of a link and its handshake are erased. -/
def eraseLink (c : LCiph) (alarm : Bool) : LCiph :=
  { c with tx := none, ctr := [], due := false, exhausted := [], rx := none, rxOther := none, last := [], verified := [],
           drain := none, hs := none, frags := [], retrySf := none, pendSw := none,
           alarmed := c.alarmed || (alarm && c.hs.isSome) }

/-- R341: the tag-hold buffers lose their contents, and frames released early fail. -/
def dropHolds (s : State) : State :=
  (List.finRange 4).foldl (fun s g =>
    let fs := mget s.ciph.hold g []
    let s := noteHold (setHold s g []) g
    (fs.filter (·.early)).foldl (fun s f =>
      failEarly (raise (count (dropFrame s g) (.ciph g 1) 1 1) (.ciph g 1) 0x2C01 0) f.link (parseFr f.hdr)) s) s

/-- LINE_ALARM (R340, R341): a source raises an alarm; for the duplicate-round checker with its quadrant, direction and engine. -/
def execLineAlarm (src : Fin 4) (q : Fin 4) (dir : Fin 2) (engine : Fin 768) (s : State) :
    Host.Outcome State Fault Refusal :=
  let s := { s with ciph := { s.ciph with links := s.ciph.links.map (fun e => (e.1, eraseLink e.2 true)) } }
  let s := dropHolds s
  let bits := s.ciph.src ||| BitVec.ofNat 4 (2 ^ src.val)
  let s := { s with ciph := { s.ciph with src := bits, active := s.ciph.active ||| BitVec.ofNat 4 (2 ^ src.val),
                                          erased := true, erasing := some s.sf },
                    i3c := { s.i3c with alarmSeen := true } }
  let info := bits.toNat + (if src = 3 then q.val * 16 + dir.val * 64 + engine.val * 128 else 0)
  .next (notify (raise s (.ciph 0 0) 0x3C01 info) 5)

/-- ALARM_ERASE_END (R342): no source has been active for 1,024 superframes. -/
def execAlarmEraseEnd (s : State) : Host.Outcome State Fault Refusal :=
  .next (match s.ciph.erasing with
    | none => s
    | some n =>
      if s.ciph.active ≠ 0 || s.sf < n + 1024 then s
      else
        let s := { s with ciph := { s.ciph with erasing := none, src := 0 } }
        allLinks.foldl (fun s l => if (llink s l).en then startHs s l else s) s)

/-- CIPHER_CLUSTER_OUT (R327): clusters of a farm leave service; FARM_DEGRADED where the group is paced from now on. -/
def execCipherClusterOut (g : Fin 4) (d : Fin 2) (n : Fin 49) (s : State) : Host.Outcome State Fault Refusal :=
  let was := paced s g d
  let s := { s with ciph := { s.ciph with out := mset s.ciph.out (g, d) (min 48 (clustersOut s g d + n.val)) } }
  .next (if paced s g d && !was then raise s (.ciph g d) 0x1C01 0 else s)

/-- The cipher at a superframe boundary: the sources that stand active, and ERASED until every enabled link is keyed. -/
def cipherTick (s : State) (active : BitVec 4) : State :=
  let s := { s with ciph := { s.ciph with active := active,
                                          erasing := if active ≠ 0 && s.ciph.erasing.isSome then some s.sf else s.ciph.erasing } }
  let keyed := allLinks.all (fun l => !(llink s l).en || linkKeyed s l)
  { s with ciph := { s.ciph with erased := s.ciph.erased && !(s.ciph.erasing.isNone && keyed) } }

end Sys2Proof.Machine
end

