-- ==== Sys2Proof/Machine/Light.lean ====
section
/-! DEFINITION. Machine/Light.lean: cartridges and lasers (R348 to R352), rings (R353 to R358), spare insertion (R359 to R365),
the wavelength router (R366 to R368). -/
namespace Sys2Proof.Machine
open Sys2Proof

/-! ## Lasers and slots -/

/-- R349: the lasers of a cartridge that suits its bay. -/
def bayLasers (i : Fin 2) : Nat := if i = 0 then 20 else 72

def bay (s : State) (i : Fin 2) : Cart := mget s.light.carts i Cart.empty
def setBay (s : State) (i : Fin 2) (c : Cart) : State :=
  { s with light := { s.light with carts := mset s.light.carts i c } }

/-- R283: the centre frequency of a slot in MHz. -/
def slotMhz (k : Nat) : Nat := 192462500 + 75000 * k

/-- R360: the enabled spare entries of a group, as slot and link. -/
def spareEntries (s : State) (g : Fin 4) : List (Nat × Nat) :=
  (List.range 4).filterMap fun i =>
    let e := fldV s (.leng g) 0x54 (8 * i + 7) (8 * i)
    if bit e 7 then some (e % 32, e / 32 % 4) else none

def isSpare (s : State) (g : Fin 4) (k : Fin 18) : Bool := (spareEntries s g).any (fun e => e.1 == k.val)

/-- R348: whether a slot is in use: in a link in TRAIN, UP or LOST, or in a spare insertion. -/
def slotInUse (s : State) (g : Fin 4) (k : Fin 18) : Bool :=
  (groupLinks g).any (fun l => ((llink s l).en && laneIn s l k) ||
    (match insertOf s l with | some i => i.spare == k | none => false))

/-- R348: a slot goes dark: its laser off, its rings parked. -/
def darken (s : State) (g : Fin 4) (k : Fin 18) : State :=
  let x := slotLaser s g k
  let s := if x.st = .lit ∨ x.st = .tuning then setLaser s 1 (laserNum g k) { x with st := .dark, hist := [] } else s
  let s := (List.finRange 4).foldl (fun s b =>
    let r := ringOf s g k b
    if r.locked || r.lost then setRing s g k b { r with locked := false, lost := false, fails := 0 } else s) s
  refreshSlot s g k

/-- A laser that is off starts to tune. -/
def tune (s : State) (g : Fin 4) (k : Fin 18) : State :=
  let x := slotLaser s g k
  if x.st = .dark then setLaser s 1 (laserNum g k) { x with st := .tuning, hist := [] } else s

/-- R351: a laser locks: its power average starts again, and a commissioning lock has P0 taken anew. -/
def Laser.lock (x : Laser) : Laser :=
  { x with st := .lit, hist := [], p0 := if x.fresh then none else x.p0, fresh := false }

/-- R348, R351: the laser of a slot locks at the slot's centre. -/
def lockLaser (s : State) (g : Fin 4) (k : Fin 18) : State :=
  let x := slotLaser s g k
  if x.st = .tuning then setLaser s 1 (laserNum g k) { x.lock with mhz := slotMhz k.val } else s

/-- R354: a full search of a group starts: the lasers of its slots, retired slots and enabled spares apart, are tuned. -/
def startSearch (s : State) (g : Fin 4) : State :=
  if (bay s 1).st ≠ .ready || s.light.searching.contains g then s
  else
    let s := { s with light := { s.light with searching := g :: s.light.searching } }
    (List.finRange 18).foldl (fun s k => if s.light.retired.contains (g, k) || isSpare s g k then s else tune s g k) s

/-! ## Fabric engines (R345, R348) -/

def halfOf (s : State) (q : Fin 4) (j h : Fin 2) : Nat := mget s.light.halves (q, j, h) 2
def setHalf (s : State) (q : Fin 4) (j h : Fin 2) (v : Nat) : State :=
  { s with light := { s.light with halves := mset s.light.halves (q, j, h) v } }

def phy (s : State) (p : Fin 64) : Phy := mget s.light.phys p Phy.reset
def setPhy (s : State) (p : Fin 64) (x : Phy) : State := { s with light := { s.light with phys := mset s.light.phys p x } }

/-- R345, R348: the four ports of a half of an engine. -/
def halfPorts (q : Fin 4) (j h : Fin 2) : List (Fin 64) :=
  (List.finRange 64).filter (fun p => p.val / 16 == q.val && p.val % 16 / 8 == j.val && p.val % 8 / 4 == h.val)

/-- R345: the engine page of a fabric port. -/
def fpeOf (p : Fin 64) : PageId := .fpe ⟨p.val / 16, by omega⟩ ⟨p.val % 16 / 8, by omega⟩

/-- The half of an engine that a port belongs to. -/
def portHalf (p : Fin 64) : Fin 4 × Fin 2 × Fin 2 := (⟨p.val / 16, by omega⟩, ⟨p.val % 16 / 8, by omega⟩, ⟨p.val % 8 / 4, by omega⟩)

/-- Links of a half set to a state, with no ring locked. -/
def dropHalf (s : State) (q : Fin 4) (j h : Fin 2) (link : Nat) : State :=
  (halfPorts q j h).foldl (fun s p => setPhy s p { phy s p with link := link, locked := 0 }) s

def allHalves : List (Fin 4 × Fin 2 × Fin 2) :=
  (List.finRange 4).flatMap (fun q => (List.finRange 2).flatMap (fun j => (List.finRange 2).map (fun h => (q, j, h))))

/-- R348: the working laser of a half. -/
def halfLaser (q : Fin 4) (j h : Fin 2) : Nat := 4 * q.val + 2 * j.val + h.val

/-- R348, R365: the halves that a fabric laser feeds. -/
def fedBy (s : State) (n : Nat) : List (Fin 4 × Fin 2 × Fin 2) :=
  allHalves.filter (fun x =>
    (halfOf s x.1 x.2.1 x.2.2 == 0 && halfLaser x.1 x.2.1 x.2.2 == n) ||
    (halfOf s x.1 x.2.1 x.2.2 == 1 && 16 + x.1.val == n))

/-- The page on which a fabric laser's codes are captured: that of the engine it feeds. -/
def fpePage (s : State) (n : Nat) : PageId :=
  match fedBy s n with
  | x :: _ => .fpe x.1 x.2.1
  | [] => if n ≥ 16 then .fpe ⟨(n - 16) % 4, by omega⟩ 0 else .fpe ⟨n / 4 % 4, by omega⟩ ⟨n % 4 / 2, by omega⟩

/-- R365: the spare laser of a quadrant takes over a half: its four links drop and retrain. SPARE_NONE where it is in use. -/
def swapFabric (s : State) (q : Fin 4) (j h : Fin 2) : State :=
  let sp := laserOf s 0 (16 + q.val)
  if allHalves.any (fun x => x.1 == q && halfOf s x.1 x.2.1 x.2.2 == 1) || !(sp.st == .dark || sp.st == .lit) then
    raise s (.fpe q j) 0x1D05 0
  else
    let old := laserOf s 0 (halfLaser q j h)
    let s := if old.st = .lit then setLaser s 0 (halfLaser q j h) { old with st := .dark, hist := [] } else s
    let s := setLaser s 0 (16 + q.val) sp.lock
    raise (dropHalf (setHalf s q j h 1) q j h 1) (.fpe q j) 0x1D06 0

/-! ## Spare insertion (R359 to R364) -/

def setIns (s : State) (l : LinkId) (i : Insert) : State :=
  { s with light := { s.light with ins := mset s.light.ins l i } }

/-- R360: the lowest spare slot that is eligible for a slot of a link. -/
def eligible (s : State) (l : LinkId) : Option (Fin 18) :=
  (List.finRange 18).find? (fun k => (spareEntries s l.1).contains (k.val, l.2.val) && (slotLaser s l.1 k).st == .dark)

/-- R361: an insertion begins at one end: the spare is lit. -/
def beginInsert (s : State) (l : LinkId) (k sp : Fin 18) (init : Bool) (w : Nat) : State :=
  let i : Insert := ⟨1, k, sp, init, w, dLink s l, false, false, false, false, [], [], 0, 0⟩
  count (tune (setIns s l i) l.1 sp) (.leng l.1) 1 1

/-- R359, R361: the initiator's side: an insertion for a slot whose laser has reached SPARE, or its place among those that wait;
SPARE_NONE where no spare is eligible. -/
def startInsert (s : State) (l : LinkId) (k : Fin 18) : State :=
  if (insertOf s l).isSome then
    if s.light.waits.contains (l, k) then s else { s with light := { s.light with waits := s.light.waits.concat (l, k) } }
  else match eligible s l with
    | none => raise s (.leng l.1) 0x1D05 k.val
    | some sp => beginInsert s l k sp true (s.sf + 1 + 6 * dLink s l + 2048)

/-- R359: the crossing of a link that waits with the lowest slot begins. -/
def nextInsert (s : State) (l : LinkId) : State :=
  let ks := (List.finRange 18).filter (fun k => s.light.waits.contains (l, k))
  match ks with
  | [] => s
  | k :: _ => startInsert { s with light := { s.light with waits := s.light.waits.filter (· != (l, k)) } } l k

/-- R363: an insertion cancels at this end. -/
def cancelInsert (s : State) (l : LinkId) (i : Insert) : State :=
  let s := txDown s l.1 i.spare 7
  let s := rxHunt s l.1 i.spare 7
  let s := { setIns s l { i with phase := 5 } with
             light := { (setIns s l { i with phase := 5 }).light with
                        offs := s.light.offs.concat ((l.1, i.spare), i.w + i.d + 16)
                        retries := if i.init then s.light.retries.concat (l, i.slot, i.w + 65536) else s.light.retries } }
  raise s (.leng l.1) 0x1D04 i.slot.val

/-- R363: the lanes of a link with the spare in the place of a slot, and the entry's EN cleared. -/
def swapLanes (s : State) (l : LinkId) (k sp : Fin 18) : State :=
  let m := linkLanes s l
  let s := setFldB s (.line l.1) 0x54 l.2.val 28 11 (setFld (setFld m k.val k.val 0) sp.val sp.val 1)
  (List.range 4).foldl (fun s i =>
    let e := fldV s (.leng l.1) 0x54 (8 * i + 7) (8 * i)
    if bit e 7 && e % 32 == sp.val then setFldB s (.leng l.1) 0x54 0 (8 * i + 7) (8 * i + 7) 0 else s) s

/-- R363: an insertion swaps at this end. -/
def swapInsert (s : State) (l : LinkId) (i : Insert) : State :=
  let s := txDown s l.1 i.slot 7
  let s := swapLanes s l i.slot i.spare
  let s := setIns s l { i with phase := 6 }
  let s := { s with light := { s.light with
    offs := s.light.offs.concat ((l.1, i.slot), i.w + i.d + 16)
    retired := if i.init && !s.light.retired.contains (l.1, i.slot) then (l.1, i.slot) :: s.light.retired else s.light.retired } }
  raise s (.leng l.1) 0x0D02 i.slot.val

/-- SPARE_SWAP_AT_W (R363, R364): at superframe W each end swaps or cancels. -/
def execSpareSwapAtW (g i : Fin 4) (s : State) : Host.Outcome State Fault Refusal :=
  let l : LinkId := (g, i)
  .next (match insertOf s l with
    | none => s
    | some x =>
      if s.sf < x.w then s
      else
        let s := if x.early || (x.accLocal && x.accPeer) then swapInsert s l x else cancelInsert s l x
        nextInsert s l)

/-- SPARE_LASER_OFF (R363): at W + D + 16 the laser that an insertion leaves is switched off. -/
def execSpareLaserOff (g : Fin 4) (k : Fin 18) (s : State) : Host.Outcome State Fault Refusal :=
  .next (match s.light.offs.find? (fun o => o.1 == (g, k)) with
    | none => s
    | some o =>
      if s.sf < o.2 then s
      else darken { s with light := { s.light with offs := s.light.offs.erase o } } g k)

/-- SPARE_RETRY (R363): 65,536 superframes after a cancelled insertion the initiator tries again, while the fade stays below
FAIL. -/
def execSpareRetry (g i : Fin 4) (k : Fin 18) (s : State) : Host.Outcome State Fault Refusal :=
  let l : LinkId := (g, i)
  .next (match s.light.retries.find? (fun r => r.1 == l && r.2.1 == k) with
    | none => s
    | some r =>
      if s.sf < r.2.2 then s
      else
        let s := { s with light := { s.light with retries := s.light.retries.erase r } }
        let x := slotLaser s g k
        if x.st = .lit && x.level < 3 then startInsert s l k else s)

/-! ## Fade (R351, R352) -/

/-- R351: P, the mean of the samples held. -/
def meanPower (x : Laser) : Int := if x.hist.isEmpty then 0 else x.hist.foldl (· + ·) 0 / x.hist.length

/-- R351: P0 − P in 0.01 dB. -/
def fade (x : Laser) : Int := match x.p0 with
  | some p => if x.hist.isEmpty then 0 else p - meanPower x
  | none => 0

/-- R352: WARN, SPARE and FAIL of a laser in 0.01 dB: LENG.FADE_THR, or the fixed thresholds of a fabric laser. -/
def fadeThr (s : State) (b : Fin 2) (n : Nat) : Nat × Nat × Nat :=
  if b = 0 then (150, 300, 600)
  else
    let g : Fin 4 := ⟨n / 18 % 4, by omega⟩
    (10 * fldV s (.leng g) 0x58 7 0, 10 * fldV s (.leng g) 0x58 15 8, 10 * fldV s (.leng g) 0x58 23 16)

def groupOfLaser (n : Nat) : Fin 4 := ⟨n / 18 % 4, by omega⟩
def slotOfLaser (n : Nat) : Fin 18 := ⟨n % 18, by omega⟩

/-- R374: the page and detail of a code of a laser. -/
def laserRaise (s : State) (b : Fin 2) (n code : Nat) : State :=
  if b = 0 then raise s (fpePage s n) code 0 else raise s (.leng (groupOfLaser n)) code (n % 18)

/-- R352: FAIL, or a fault that the laser reports: it goes off, and what it lights goes down. -/
def failLaser (s : State) (b : Fin 2) (n : Nat) : State :=
  let s := laserRaise s b n 0x1D02
  let fed := fedBy s n
  let s := setLaser s b n { laserOf s b n with st := .failed, hist := [], level := 3 }
  if b = 0 then fed.foldl (fun s x => dropHalf (setHalf s x.1 x.2.1 x.2.2 2) x.1 x.2.1 x.2.2 0) s
  else
    let g := groupOfLaser n
    let k := slotOfLaser n
    let s := txDown s g k 3
    let s := (List.finRange 4).foldl (fun s r => setRing s g k r { ringOf s g k r with locked := false, lost := false }) s
    refreshSlot s g k

/-- R352, R365: what the crossing of SPARE starts. -/
def crossSpare (s : State) (b : Fin 2) (n : Nat) : State :=
  let s := laserRaise s b n 0x1D01
  if b = 0 then
    (fedBy s n).foldl (fun s x =>
      if n < 16 then (if fldV s (.fpe x.1 x.2.1) 0x50 0 0 = 1 then swapFabric s x.1 x.2.1 x.2.2 else s)
      else raise s (.fpe x.1 x.2.1) 0x1D05 0) s
  else match slotLink s (groupOfLaser n) (slotOfLaser n) with
    | some l => if (llink s l).en then startInsert s l (slotOfLaser n) else s
    | none => s

/-- R352: the crossings of one laser: each acts once. -/
def judgeFade (s : State) (b : Fin 2) (n : Nat) : State :=
  let x := laserOf s b n
  if x.st ≠ .lit then s
  else
    let f := fade x
    let t := fadeThr s b n
    let now := if f ≥ t.2.2 then 3 else if f ≥ t.2.1 then 2 else if f ≥ t.1 then 1 else 0
    if now > x.level then
      let s := setLaser s b n { x with level := now }
      let s := if x.level < 1 then count (laserRaise s b n 0x0D01) (.cart b) 0 1 else s
      let s := if x.level < 2 && now ≥ 2 then crossSpare s b n else s
      if now = 3 then failLaser s b n else s
    else if x.level > 0 && f < (t.1 : Int) - 30 then setLaser s b n { x with level := 0 }
    else s

/-- R351: one sample of a lit laser's power in 0.01 dBm; P0 once 64 samples stand after a commissioning lock. -/
def samplePower (s : State) (e : Fin 2 × Nat × Int) : State :=
  let x := laserOf s e.1 e.2.1
  if x.st ≠ .lit then s
  else
    let x := { x with hist := (e.2.2 :: x.hist).take 64 }
    if x.hist.length = 64 && x.p0.isNone then
      let p := meanPower x
      let s := setLaser s e.1 e.2.1 { x with p0 := some p }
      { s with light := { s.light with p0s := mset s.light.p0s (e.1.val, (bay s e.1).serial.toNat, e.2.1) p } }
    else setLaser s e.1 e.2.1 x

/-! ## Cartridges (R349, R350) -/

/-- CART_INSERT (R349, R443): presence is detected, and the bay applies power; in BARE the bays stay unpowered. -/
def execCartInsert (i : Fin 2) (s : State) : Host.Outcome State Fault Refusal :=
  .next (if (bay s i).st = .empty then
      setBay s i { Cart.empty with st := if s.mode.isSome && s.mode ≠ some .bare then .powering else .empty,
                                   present := true, sinceSf := s.sf }
    else s)

/-- CART_CONTROLLER_ANSWER (R349): the controller answers with its serial and laser count; the nonce goes out. -/
def execCartControllerAnswer (i : Fin 2) (serial : BitVec 64) (lasers : Nat) (s : State) : Host.Outcome State Fault Refusal :=
  let c := bay s i
  .next (if c.st ≠ .powering then s
    else
      let r := drawBytes s 32
      setBay r.1 i { c with st := .auth, serial := serial, lasers := min lasers 127, nonce := r.2, sinceSf := s.sf })

/-- R349: a bay refuses its cartridge. -/
def refuseCart (s : State) (i : Fin 2) (certified : Bool) : State :=
  raise (setBay s i { bay s i with st := .refused, certified := certified }) (.cart i) 0x2D06 0

/-- R349, R351, R354: a bay is READY: its lasers stand dark with their stored P0; the fabric lasers are switched on, the line
engines search. -/
def readyCart (s : State) (i : Fin 2) : State :=
  let c := bay s i
  let s := setBay s i { c with st := .ready, certified := true }
  let s := (List.range (bayLasers i)).foldl (fun s n =>
    let p := mget? s.light.p0s (i.val, c.serial.toNat, n)
    setLaser s i n ⟨if i = 0 ∧ n < 16 then .lit else .dark, [], p, false, 0, 0⟩) s
  if i = 0 then allHalves.foldl (fun s x => setHalf s x.1 x.2.1 x.2.2 0) s
  else (List.finRange 4).foldl startSearch s

/-- CART_AUTH_RESPONSE (R349): the security processor checks the cartridge's chain and its signature over nonce, cartridge
serial and module serial. -/
def execCartAuthResponse (i : Fin 2) (chain sig : Bytes) (s : State) : Host.Outcome State Fault Refusal :=
  let c := bay s i
  let msg := c.nonce ++ beBytes 8 c.serial.toNat ++ beBytes 8 s.boot.serial.toNat
  let ok := Config.cartChainValid chain && Config.slhVerify (Config.leafKey chain) msg sig
  .next (if c.st ≠ .auth then s
    else if ok && Config.cartType chain == i.val && c.lasers == bayLasers i then readyCart s i
    else refuseCart s i ok)

/-- CART_AUTH_TIMEOUT (R349): the cartridge has not signed within 1.5 s. -/
def execCartAuthTimeout (i : Fin 2) (s : State) : Host.Outcome State Fault Refusal :=
  .next (if (bay s i).st = .auth && s.sf ≥ (bay s i).sinceSf + 187500 then refuseCart s i false else s)

/-- The lasers of a bay lose their power: lit slots leave UP, and fabric ports go down. -/
def unpower (s : State) (i : Fin 2) : State :=
  let s := if i = 0 then allHalves.foldl (fun s x => dropHalf (setHalf s x.1 x.2.1 x.2.2 2) x.1 x.2.1 x.2.2 0) s
    else { s with light := { s.light with searching := [] } }
  let s := { s with light := { s.light with lasers := s.light.lasers.filter (fun e => e.1.1 != i) } }
  if i = 0 then s
  else
    let s := { s with light := { s.light with
      rings := s.light.rings.map (fun e => (e.1, { e.2 with locked := false, lost := false, fails := 0 })) } }
    (List.finRange 4).foldl (fun s g => (List.finRange 18).foldl (fun s k => refreshSlot (txDown s g k 3) g k) s) s

/-- CART_LOST (R349, R350): presence is lost. -/
def execCartLost (i : Fin 2) (s : State) : Host.Outcome State Fault Refusal :=
  let c := bay s i
  .next (if !c.present then s
    else
      let s := unpower (setBay s i Cart.empty) i
      if c.st = .ready then raise s (.cart i) 0x3D01 0 else s)

/-- R349: CART_CTRL.RELEASE in READY. -/
def releaseCart (s : State) (i : Fin 2) : State :=
  if (bay s i).st = .ready then setBay s i { bay s i with st := .releasing } else s

/-- CART_RELEASE_DONE (R349): every laser is off and the cartridge's power removed. -/
def execCartReleaseDone (i : Fin 2) (s : State) : Host.Outcome State Fault Refusal :=
  .next (if (bay s i).st = .releasing then unpower (setBay s i { bay s i with st := .safe }) i else s)

/-- R351: CART_CTRL.COMMISSION: each laser's P0 is taken anew at its next lock. -/
def commission (s : State) (i : Fin 2) : State :=
  { s with light := { s.light with lasers := s.light.lasers.map (fun e => if e.1.1 = i then (e.1, { e.2 with fresh := true }) else e) } }

/-- LASER_FAULT_REPORT (R352): a laser reports an internal fault. -/
def execLaserFaultReport (i : Fin 2) (n : Fin 72) (s : State) : Host.Outcome State Fault Refusal :=
  let st := (laserOf s i n.val).st
  .next (if (bay s i).st = .ready && n.val < bayLasers i && (st == .lit || st == .tuning || st == .dark) then failLaser s i n.val else s)

/-! ## Ring assignment (R355) -/

/-- The rings that meet a slot of a bus at a shift in [300, lim], ascending. -/
def ringsFor (ps : List Peak) (b : Fin 4) (lim : Nat) (k : Fin 18) : List Nat :=
  (List.range 20).filter (fun r => ps.any (fun p => p.bus == b && p.ring.val == r && p.slot == k && 300 ≤ p.shift && p.shift ≤ lim))

/-- A search for a free ring for slot k along alternating paths: whether it succeeds, the rings seen and the matching, by ring.
The fuel bounds the path. -/
def augment (adj : Fin 18 → List Nat) : Nat → Fin 18 → List Nat × PMap Nat (Fin 18) → Bool × List Nat × PMap Nat (Fin 18)
  | 0, _, (seen, m) => (false, seen, m)
  | n + 1, k, (seen, m) =>
    (adj k).foldl (fun (a : Bool × List Nat × PMap Nat (Fin 18)) r =>
      if a.1 || a.2.1.contains r then a
      else match mget? a.2.2 r with
        | none => (true, r :: a.2.1, mset a.2.2 r k)
        | some k' =>
          let x := augment adj n k' (r :: a.2.1, a.2.2)
          if x.1 then (true, x.2.1, mset x.2.2 r k) else (false, x.2.1, a.2.2)) (false, seen, m)

/-- Whether slots have a complete matching. -/
def matchable (adj : Fin 18 → List Nat) (ks : List (Fin 18)) : Bool :=
  (ks.foldl (fun (a : Bool × PMap Nat (Fin 18)) k =>
    let x := augment adj 20 k ([], a.2)
    (a.1 && x.1, x.2.2)) (true, [])).1

/-- R355: the least lim of a bus at which its slots have a complete matching. -/
def leastLim (ps : List Peak) (b : Fin 4) (ks : List (Fin 18)) : Option Nat :=
  ((List.range 61).map (fun i => 300 + 25 * i)).find? (fun lim => matchable (ringsFor ps b lim) ks)

/-- R355: the slots that can be assigned on every bus, and those dropped, highest first. -/
def dropSlots (ps : List Peak) : Nat → List (Fin 18) → List (Fin 18) × List (Fin 18)
  | 0, ks => ([], ks)
  | n + 1, ks =>
    if (List.finRange 4).all (fun b => (leastLim ps b ks).isSome) then (ks, [])
    else
      let r := dropSlots ps n ks.dropLast
      (r.1, ks.drop (ks.length - 1) ++ r.2)

/-- R355: the rings of a bus's slots, each the lowest that leaves the later slots a complete matching. -/
def assignBus (ps : List Peak) (b : Fin 4) (lim : Nat) : List (Fin 18) → List Nat → List (Fin 18 × Nat)
  | [], _ => []
  | k :: ks, used =>
    let free := (ringsFor ps b lim k).filter (fun r => !used.contains r)
    match free.find? (fun r => matchable (fun x => (ringsFor ps b lim x).filter (fun y => y != r && !used.contains y)) ks) with
    | some r => (k, r) :: assignBus ps b lim ks (r :: used)
    | none => assignBus ps b lim ks used

/-- The shift, from 300 to 1,800 GHz, at which a ring of a bus meets a slot. -/
def shiftOf (ps : List Peak) (b : Fin 4) (r : Nat) (k : Fin 18) : Nat :=
  match ps.find? (fun p => p.bus == b && p.ring.val == r && p.slot == k && 300 ≤ p.shift && p.shift ≤ 1800) with
  | some p => p.shift
  | none => 0

/-- R354: an assigned ring is locked at its shift, with the die temperature stored. -/
def fitRing (s : State) (g : Fin 4) (b : Fin 4) (ps : List Peak) (e : Fin 18 × Nat) : State :=
  setRing s g e.1 b ⟨e.2, shiftOf ps b e.2 e.1, s.therm.die, true, false, 0⟩

/-- RING_SEARCH_DONE (R354, R355): a full search of a group ends with the peaks that its sweep recorded. -/
def execRingSearchDone (g : Fin 4) (ps : List Peak) (s : State) : Host.Outcome State Fault Refusal :=
  .next (if !s.light.searching.contains g then s
    else
      let s := { s with light := { s.light with searching := s.light.searching.filter (· != g) } }
      let s := (List.finRange 18).foldl (fun s k => lockLaser s g k) s
      -- R352: a slot whose laser has failed or faded is left out and becomes retired
      let out := (List.finRange 18).filter (fun k => !isSpare s g k && !s.light.retired.contains (g, k) &&
        ((slotLaser s g k).st == .failed || (slotLaser s g k).level ≥ 2))
      let s := { s with light := { s.light with retired := out.map (fun k => (g, k)) ++ s.light.retired } }
      let ks := (List.finRange 18).filter (fun k => !isSpare s g k && !s.light.retired.contains (g, k) && lit s g k)
      let r := dropSlots ps 18 ks
      let s := r.2.foldl (fun s k => raise s (.leng g) 0x2D01 k.val) s
      let s := { s with light := { s.light with
        dropped := r.2.map (fun k => (g, k)) ++ s.light.dropped.filter (fun e => e.1 != g)
        rings := s.light.rings.filter (fun e => e.1.1.1 != g) } }
      let s := (List.finRange 4).foldl (fun s b =>
        match leastLim ps b r.1 with
        | some lim => (assignBus ps b lim r.1 []).foldl (fun s e => fitRing s g b ps e) s
        | none => s) s
      -- R354: slots that are dark under R348 go off
      (List.finRange 18).foldl (fun s k => if slotInUse s g k && !r.2.contains k then s else darken s g k) s)

/-! ## Relock (R356 to R358) -/

/-- R357: whether the shift that a ring needs now lies in the heater's range: the stored shift less 10 GHz for each °C that the
die has warmed. -/
def shiftOk (s : State) (r : Ring) : Bool :=
  let need := 16 * (r.shift : Int) - 10 * (s.therm.die - r.temp)
  0 ≤ need && need ≤ 32000

/-- R356: the detail of a LENG code of a ring. -/
def ringInfo (k : Fin 18) (b : Fin 4) : Nat := k.val + 32 * b.val

/-- R355: a ring of a bus for one slot among those unassigned: lim upward from 300, then the lowest ring. -/
def singleRing (s : State) (g : Fin 4) (k : Fin 18) (b : Fin 4) (ps : List Peak) : State :=
  let used := (List.finRange 18).filterMap (fun x => let r := ringOf s g x b; if r.ring < 31 ∧ x ≠ k then some r.ring else none)
  let free := fun lim => (ringsFor ps b lim k).filter (fun r => !used.contains r)
  match ((List.range 61).map (fun i => 300 + 25 * i)).find? (fun lim => !(free lim).isEmpty) with
  | some lim => fitRing s g b ps (k, (free lim).headD 0)
  | none => s

/-- LASER_LOCKED (R354, R357): the laser of a dark, spare or re-lit slot has locked, and its rings are relocked from their
stored shifts; a slot without rings gets them from the peaks of the sweep of its tone. -/
def execLaserLocked (g : Fin 4) (k : Fin 18) (ps : List Peak) (s : State) : Host.Outcome State Fault Refusal :=
  .next (if (slotLaser s g k).st ≠ .tuning || s.light.searching.contains g then s
    else
      let s := lockLaser s g k
      let s := (List.finRange 4).foldl (fun s b =>
        let r := ringOf s g k b
        if r.ring = 31 then singleRing s g k b ps
        else if shiftOk s r then setRing s g k b { r with locked := true, lost := false, fails := 0 }
        else setRing s g k b { r with locked := false, lost := true }) s
      refreshSlot s g k)

/-- RING_LOCK_LOSS (R356): a ring loses lock. -/
def execRingLockLoss (r : RingId) (s : State) : Host.Outcome State Fault Refusal :=
  .next (match r with
    | .line g k b =>
      let x := ringOf s g k b
      if !x.locked then s
      else
        let s := count (setRing s g k b { x with locked := false, lost := true, fails := 0 }) (.leng g) 0 1
        if b.val < 2 then txDown s g k 3 else s
    | .fabric p i =>
      let x := phy s p
      if !x.locked.getLsbD i.val then s
      else count (setPhy s p { x with locked := x.locked &&& ~~~(BitVec.ofNat 4 (2 ^ i.val)), fails := 0 }) (fpeOf p) 0 1)

/-- RING_RELOCK (R356, R357): a ring locks again. -/
def execRingRelock (r : RingId) (s : State) : Host.Outcome State Fault Refusal :=
  .next (match r with
    | .line g k b =>
      let x := ringOf s g k b
      if !x.lost || !lit s g k || !shiftOk s x then s
      else
        let s := setRing s g k b { x with locked := true, lost := false, fails := 0 }
        let s := { s with light := { s.light with relocks := mset s.light.relocks (g, k) (min (mget s.light.relocks (g, k) 0 + 1) 0xFFFF) } }
        refreshSlot (raise s (.leng g) 0x1D03 (ringInfo k b)) g k
    | .fabric p i =>
      let x := phy s p
      let h := portHalf p
      if x.locked.getLsbD i.val || halfOf s h.1 h.2.1 h.2.2 = 2 then s
      else raise (setPhy s p { x with locked := x.locked ||| BitVec.ofNat 4 (2 ^ i.val), fails := 0,
                                      relocks := min (x.relocks + 1) 0xFFFF }) (fpeOf p) 0x1D03 0)

/-- RING_RELOCK_RETRY (R357): a relock has failed; after the eighth failure RING_DEAD is raised once. -/
def execRingRelockRetry (r : RingId) (s : State) : Host.Outcome State Fault Refusal :=
  .next (match r with
    | .line g k b =>
      let x := ringOf s g k b
      if !x.lost then s
      else
        let s := setRing s g k b { x with fails := x.fails + 1 }
        if x.fails + 1 = 8 then raise s (.leng g) 0x2D02 (ringInfo k b) else s
    | .fabric p i =>
      let x := phy s p
      if x.locked.getLsbD i.val then s
      else
        let s := setPhy s p { x with fails := x.fails + 1 }
        if x.fails + 1 = 8 then raise s (fpeOf p) 0x2D02 0 else s)

/-- FABRIC_PORT_LINK_CHANGE (R346, R372): the link of a fabric port drops, trains or completes training, with the lanes locked
and the received powers. -/
def execFabricPortLinkChange (p : Fin 64) (link : Fin 3) (locked : BitVec 4) (rxp : Word) (s : State) :
    Host.Outcome State Fault Refusal :=
  let h := portHalf p
  .next (if link ≠ 0 && halfOf s h.1 h.2.1 h.2.2 = 2 then s
    else setPhy s p { phy s p with link := link.val, locked := locked, rxp := rxp })

/-! ## Feed-forward (R358) -/

/-- One superframe of a ramp: the ceiling moves toward its target by RATE. -/
def rampStep (c : Nat) (r : Ramp) : Nat :=
  let t := 1375 * r.target
  let d := 2 * r.rate
  if c < t then min t (c + d) else max t (c - d)

/-- R358: the tensor power, in mW, that the declared ramps give two superframes ahead. -/
def rampAhead (s : State) : Nat :=
  let p := s.power
  let next := p.queued.find? (fun r => r.start ≤ s.sf + 2)
  match next, p.running with
  | some r, _ => 4 * (if r.start ≤ s.sf + 1 then rampStep p.ceil r else p.ceil)
  | none, some r => 4 * rampStep (rampStep p.ceil r) r
  | none, none => 4 * (1375 * p.lastRamp.target)

/-- R358: f of a group in kHz. -/
def feedForward (s : State) (g : Fin 4) : State :=
  let gain : Int := fldV s (.leng g) 0x5C 11 0
  let tau : Int := fldV s (.leng g) 0x5C 19 12
  let f := mget s.light.ff g 0
  let f := if fldV s (.leng g) 0x5C 20 20 = 0 then 0 else f + 8 * (gain * rampAhead s - f) / (100 * tau)
  { s with light := { s.light with ff := mset s.light.ff g f } }

/-! ## Light at a superframe boundary -/

/-- R362: the comparison of an insertion ends: DUP_MISS, DUP_DIFF and this end's verdict. -/
def verdict (s : State) (l : LinkId) (i : Insert) : Insert :=
  let find := fun (e : Nat × BitVec 32 × Bytes) => i.onS.find? (fun f => f.1 == e.1 && f.2.1 == e.2.1)
  let miss := (i.onK.filter (fun e => (find e).isNone)).length
  let diff := (i.onK.filter (fun e => match find e with | some f => f.2.2 != e.2.2 | none => false)).length
  let ok := (lslot s l.1 i.spare).rx == .up && !i.spareBad && miss == 0 && diff == 0
  { i with miss := min miss 0xFFFF, diff := min diff 0xFFFF, accLocal := ok, onK := [], onS := [] }

/-- R361 to R364: one insertion at a superframe boundary. -/
def tickInsert (s : State) (l : LinkId) : State :=
  match insertOf s l with
  | none => if (llink s l).en then nextInsert s l else s
  | some i =>
    if !(llink s l).en then
      darken (raise (setIns s l { i with phase := 5 }) (.leng l.1) 0x1D04 i.slot.val) l.1 i.spare
    else
      let sp := lslot s l.1 i.spare
      let i := { i with early := i.early || (lslot s l.1 i.slot).tx != .up }
      -- R364: both ends sent SWAP_AT for the slot
      let i := match (lslot s l.1 i.slot).last with
        | some h => if i.init && h.cmd == 3 && h.cmdSf != i.w && linkPeer s l < gw s then { i with init := false, w := h.cmdSf } else i
        | none => i
      let inWin := i.w - i.d - 72 < s.sf && s.sf ≤ i.w - i.d - 8
      let fecBad := sp.fails > 0 || (s.sf > i.w - i.d - 71 && sp.lastFails > 0)
      let i := if inWin && (sp.missing > 0 || fecBad) then { i with spareBad := true } else i
      let i := if s.sf = i.w - i.d - 8 then verdict s l i else i
      let i := match sp.last with
        | some h => if h.cmd == 3 && h.cmdSf == i.w then { i with accPeer := true } else i
        | none => i
      let ph := if s.sf ≥ i.w - i.d - 7 then 4 else if s.sf ≥ i.w - 2 * i.d - 72 then 3
        else if sp.tx = .up && sp.rx = .up then 2 else 1
      setIns s l { i with phase := ph }

/-- R361: the peer's side: a SWAP_AT in a header of a slot of the link lights the spare that is eligible here. -/
def answerSwapAt (s : State) (l : LinkId) : State :=
  if (insertOf s l).isSome || !(llink s l).en then s
  else
    let ask := (linkSlots s l).filterMap (fun k => match (lslot s l.1 k).last with
      | some h => if h.cmd == 3 && h.cmdSf > s.sf && (lslot s l.1 k).missing == 0 then some (k, h.cmdSf) else none
      | none => none)
    match ask, eligible s l with
    | (k, w) :: _, some sp => beginInsert s l k sp false w
    | _, _ => s

/-- R348, R354: the lasers of slots that a link in use needs are lit; those of slots it no longer needs go dark. -/
def tickSlot (s : State) (g : Fin 4) (k : Fin 18) : State :=
  if s.light.searching.contains g || s.light.offs.any (fun o => o.1 == (g, k)) then s
  else
    let use := slotInUse s g k
    let x := slotLaser s g k
    if use && x.st == .dark && !s.light.retired.contains (g, k) && !s.light.dropped.contains (g, k) then tune s g k
    else if !use && (x.st == .lit || x.st == .tuning) then darken s g k
    else s

/-- Light at a superframe boundary, with the sampled powers and the received power and OSNR by slot. -/
def lightTick (s : State) (powers : List (Fin 2 × Nat × Int)) (rx : List (SlotId × Word)) : State :=
  let s := powers.foldl samplePower s
  let s := { s with light := { s.light with rxInfo := rx.foldl (fun m e => mset m e.1 e.2) s.light.rxInfo } }
  let s := (List.range 20).foldl (fun s n => judgeFade s 0 n) s
  let s := (List.range 72).foldl (fun s n => judgeFade s 1 n) s
  let s := allLinks.foldl tickInsert s
  let s := allLinks.foldl answerSwapAt s
  let s := (List.finRange 4).foldl (fun s g => (List.finRange 18).foldl (fun s k => tickSlot s g k) s) s
  (List.finRange 4).foldl feedForward s

/-! ## The wavelength router (R366 to R368) -/


def mapKeys : List (Fin 4 × Fin 18) := (List.finRange 4).flatMap (fun f => (List.finRange 18).map (fun k => (f, k)))

/-- R368: the entries of a bank that differ from the active bank. -/
def mapChanged (s : State) (bank : Nat) : List (Fin 4 × Fin 18) :=
  mapKeys.filter (fun e => mapCode s bank e.1 e.2 != mapCode s s.light.wrt.active e.1 e.2)

/-- R367 reason 6: whether an entry concerns a slot that is lit, or of a link not in DOWN, before or after the change. -/
def entryBusy (s : State) (bank : Nat) (e : Fin 4 × Fin 18) : Bool :=
  [mapCode s bank e.1 e.2, mapCode s s.light.wrt.active e.1 e.2].any (fun c =>
    1 ≤ c && c ≤ 4 &&
    (let g : Fin 4 := ⟨(c - 1) % 4, by omega⟩
     lit s g e.2 || (slotLaser s g e.2).st == .tuning || (match slotLink s g e.2 with | some l => linkState s l != 0 | none => false)))

/-- R367: the first reason to refuse a bank, with the pair and slot, or none. -/
def mapRefusal (s : State) (bank : Nat) : Option (Nat × Nat × Nat) :=
  let c := fun (e : Fin 4 × Fin 18) => mapCode s bank e.1 e.2
  let hit := fun (n : Nat) (f : Fin 4 × Fin 18 → Bool) => (mapKeys.find? f).map (fun e => (n, e.1.val, e.2.val))
  let plan := anySlot s [.active, .next]
  let run := s.light.ins.any (fun e => 1 ≤ e.2.phase && e.2.phase ≤ 4) || !s.light.searching.isEmpty
  (hit 1 (fun e => c e > 8)).orElse fun _ =>
  (hit 2 (fun e => c e == e.1.val + 5)).orElse fun _ =>
  (hit 3 (fun e => 5 ≤ c e && mapCode s bank ⟨(c e - 5) % 4, by omega⟩ e.2 != e.1.val + 5)).orElse fun _ =>
  (hit 4 (fun e => 1 ≤ c e && c e ≤ 4 &&
    (List.finRange 4).any (fun f => f.val < e.1.val && mapCode s bank f e.2 == c e))).orElse fun _ =>
  (if plan then some (5, 0, 0) else none).orElse fun _ =>
  (((mapChanged s bank).find? (entryBusy s bank)).map (fun e => (6, e.1.val, e.2.val))).orElse fun _ =>
  if run then some (7, 0, 0) else none

/-- R367, R368: APPLY.GO for a bank. A GO while an apply runs changes nothing. -/
def applyMap (s : State) (bank : Nat) : State :=
  let w := s.light.wrt
  if w.run.isSome then s
  else match mapRefusal s bank with
    | some (n, f, k) =>
      raise { s with light := { s.light with wrt := { w with reason := n } } } .wrt (if n ≤ 4 then 0x2D03 else 0x2D04)
        (n + 16 * f + 64 * k)
    | none =>
      count { s with light := { s.light with wrt := { w with run := some ⟨bank, mapChanged s bank, s.sf, false⟩ } } } .wrt 0 1

/-- WRT_APPLY_DONE (R23, R368): the apply ends: the bank becomes active 4,610 µs after GO, or verification has failed and the
previous entries are being restored. A change never takes effect while a plan runs: where one has begun since GO, the bank waits until
no plan slot is ACTIVE or NEXT (DESIGN CHOICE, entry 113). -/
def execWrtApplyDone (ok : Bool) (s : State) : Host.Outcome State Fault Refusal :=
  let w := s.light.wrt
  .next (match w.run with
    | none => s
    | some r =>
      if r.restoring || s.sf < r.startSf + (if ok then 576 else 513) || (ok && anySlot s [.active, .next]) then s
      else if ok then
        raise { s with light := { s.light with wrt := { w with active := r.bank, run := none, lastUs := 4610,
                                                               lastChanged := r.changed.length } } } .wrt 0x0D03 0
      else
        raise { s with light := { s.light with wrt := { w with reason := 8, run := some { r with restoring := true, startSf := s.sf } } } }
          .wrt 0x2D05 8)

/-- WRT_RESTORE_DONE (R368): the previous bank's entries are restored. -/
def execWrtRestoreDone (s : State) : Host.Outcome State Fault Refusal :=
  let w := s.light.wrt
  .next (match w.run with
    | some r =>
      if r.restoring && s.sf ≥ r.startSf + 513 then { s with light := { s.light with wrt := { w with run := none } } } else s
    | none => s)

end Sys2Proof.Machine
end

