-- ==== Sys2Proof/Machine/Time.lean ====
section
/-! DEFINITION. Machine/Time.lean: line time (R399 to R406), PTP (R407 to R409), pulse outputs and timing inputs (R410, R411),
timed launches (R412), and the superframe headers that carry VC7 (R288, R400). -/
namespace Sys2Proof.Machine
open Sys2Proof

/-! ## PTP time (R408) -/

/-- R408: the PTP time, in ns, of the boundary of a superframe: the mapping extrapolated at its rate. -/
def ptpAt (s : State) (n : Nat) : Nat :=
  if s.ptp.runs = 0 then 0
  else
    let base : Int := s.ptp.s * 1000000000 + s.ptp.ns
    (base + ((n : Int) - s.ptp.sf) * 8000 * (1000000000000 + s.ptp.rate) / 1000000000000).toNat

/-- R410: the line time, in ns, of a PTP time. -/
def ptpToLine (s : State) (ns : Nat) : Int :=
  let base : Int := s.ptp.s * 1000000000 + s.ptp.ns
  s.ptp.sf * 8000 + ((ns : Int) - base) * 1000000000000 / (1000000000000 + s.ptp.rate)

/-! ## The headers that leave (R288, R400) -/

/-- R401, R402: PRIO, and the D_link values of the gateway's links. -/
def ltPrio (s : State) : Nat := fldV s .time 0x50 7 0
def ownD (s : State) : Nat := (upLinks s).foldl (fun n l => max n (dLink s l)) 0

def ltCode : LtSt → Nat
  | .free => 0 | .acquiring => 1 | .locked => 2 | .holdover => 3 | .master => 4

/-- R400: HOPS as headers carry it. -/
def hopsOut (s : State) : Nat :=
  match s.lt.st with
  | .master => 0
  | .locked => min s.lt.hops 0xFE
  | _ => 0xFF

/-- R400: the TIME field of this superframe. -/
def timeField (s : State) : TimeHdr :=
  let a := s.lt.ann.getD ⟨0, 0, 0⟩
  let t := ptpAt s s.sf
  let quiet := s.lt.st == .free || s.lt.st == .acquiring
  { masterGw := a.gw, prio := a.prio, hops := hopsOut s, serial := a.serial, hstate := ltCode s.lt.st, domain := ltDomain s,
    ptpS := t / 1000000000, ptpNs := t % 1000000000, ptpValid := s.ptp.valid, d := if quiet then 0 else s.lt.d }

def txCode : TxSt → Nat
  | .off => 0 | .train => 1 | .up => 2
def rxCode : RxSt → Nat
  | .off => 0 | .hunt => 1 | .ready => 2 | .up => 3

/-- R288, R310, R361, R362: CMD and CMD_SF of a slot's header: SWAP_AT of an insertion's initiator on slot k, the verdict on
the spare, UP_AT up to its superframe. -/
def headerCmd (s : State) (g : Fin 4) (k : Fin 18) : Nat × Nat :=
  let x := lslot s g k
  let ins := (groupLinks g).filterMap (insertOf s)
  match ins.find? (fun i => i.slot == k && i.init && s.sf ≤ i.w) with
  | some i => (3, i.w)
  | none =>
    match ins.find? (fun i => i.spare == k && i.w ≤ s.sf + i.d + 7 && s.sf ≤ i.w) with
    | some i => (if i.accLocal then 3 else 2, i.w)
    | none =>
      match x.upAt with
      | some n => (1, n)
      | none => (0, 0)

/-- R288: the header of a slot in this superframe. -/
def headerFor (s : State) (g : Fin 4) (k : Fin 18) : SfHdr :=
  let x := lslot s g k
  let c := headerCmd s g k
  let e := match x.last with | some h => (h.sf, h.rx, h.cd) | none => (0, 0, 0)
  { slot := k.val, group := g.val, src := gw s, sf := s.sf, firstFrame := if x.txRes < 399872 then x.txRes else 0xFFFFFFFF,
    txs := txCode x.tx, rxs := rxCode x.rx, link := match slotOwner s g k with | some l => l.2.val | none => 0,
    cmd := c.1, cmdSf := c.2, echoSf := e.1, echoRx := e.2.1, cd := e.2.2, time := timeField s }

/-- R308, R310: every lit transmit slot in TRAIN or UP sends its header. -/
def sendHeaders (s : State) : State :=
  (List.finRange 4).foldl (fun s g => (List.finRange 18).foldl (fun s k =>
    if (lslot s g k).tx = .off then s
    else
      let b := sfBytes (headerFor s g k)
      emit (setLSlot s g k { lslot s g k with txHdr := b }) (.header (g, k) b)) s) s

/-! ## Election (R402 to R404) -/

/-- An announcement that a link offers, with the HOPS and DOMAIN_D of its header. -/
structure Offer where
  ann : Ann
  link : LinkId
  hops : Nat
  d : Nat

/-- R400: the qualifying headers of the last superframe, with their links. -/
def qualHeaders (s : State) : List (LinkId × HdrIn) :=
  allLinks.flatMap fun l => (linkSlots s l).filterMap fun k =>
    match (lslot s l.1 k).last with
    | some h => if qualifies s l.1 k && h.atSf + 1 ≥ s.sf && h.time.domain == ltDomain s then some (l, h) else none
    | none => none

def hdrAnn (t : TimeHdr) : Ann := ⟨t.serial, t.prio, t.masterGw⟩

/-- R402: the announcements offered. -/
def offers (s : State) : List Offer :=
  (qualHeaders s).filterMap (fun e =>
    if e.2.time.hops ≤ 14 then some ⟨hdrAnn e.2.time, e.1, e.2.time.hops, e.2.time.d⟩ else none)

/-- R402: whether an announcement is better than another. -/
def betterAnn (x y : Ann) : Bool :=
  if x.serial ≠ y.serial then decide (serialDiff x.serial y.serial > 0)
  else if x.prio ≠ y.prio then x.prio < y.prio
  else x.gw < y.gw

/-- R403 order 2: HOPS, D_link, quadrant and link index of an offer, in one number. -/
def offerRank (s : State) (o : Offer) : Nat :=
  ((o.hops * 2 ^ 32 + min (dLink s o.link) (2 ^ 32 - 1)) * 4 + o.link.1.val) * 4 + o.link.2.val

/-- The offer that stands first. -/
def firstOffer (s : State) : List Offer → Option Offer
  | [] => none
  | a :: l => some (l.foldl (fun b o => if offerRank s o < offerRank s b then o else b) a)

/-- R403: the best announcement offered. -/
def bestAnn : List Offer → Option Ann
  | [] => none
  | a :: l => some (l.foldl (fun b o => if betterAnn o.ann b then o.ann else b) a.ann)

def setLt (s : State) (x : Lt) : State := { s with lt := x }

/-- R403 order 2: the gateway adopts an announcement and takes a parent. -/
def adopt (s : State) (a : Ann) (os : List Offer) : State :=
  match firstOffer s (os.filter (fun o => o.ann == a)) with
  | none => s
  | some o =>
    let free := s.lt.st == .free
    let s := setLt s { s.lt with st := if free then .acquiring else .locked, ann := some a, parent := some o.link,
                                 hops := o.hops + 1, d := o.d, parentD := some o.d, lossSf := none, quietSf := none,
                                 join := free, lockRun := 0, slewing := false }
    notify (raise s .time 0x0F01 0) 4

/-- R403, R404, R401, R406: the gateway declares itself master. -/
def declare (s : State) : State :=
  let n := s.lt.maxSerial + 1
  let d := match s.lt.parentD with | some d => d | none => ownD s
  let s := setLt s { s.lt with st := .master, ann := some ⟨n, ltPrio s, gw s⟩, parent := none, hops := 0, d := max 1 d,
                               maxSerial := n, lossSf := none, quietSf := none, take := false, slewing := false,
                               ptpSet := s.lt.st == .free && s.ptp.valid }
  notify (raise s .time 0x0F01 0) 4

/-- R403 order 3: a follower keeps its parent, moves to another, or begins to wait; a gateway in HOLDOVER returns to a link
that offers the held announcement. -/
def keepParent (s : State) (a : Ann) (os : List Offer) : State :=
  let same := os.filter (fun o => o.ann == a)
  let mine := same.filter (fun o => some o.link == s.lt.parent)
  let near := same.filter (fun o => o.hops + 1 ≤ s.lt.hops)
  match firstOffer s (if mine.isEmpty || s.lt.st == .holdover then near else mine) with
  | some o =>
    let s' := setLt s { s.lt with st := .locked, parent := some o.link, hops := o.hops + 1, d := o.d, parentD := some o.d,
                                  lossSf := none }
    if s.lt.st = .holdover then notify s' 4 else s'
  | none => if s.lt.lossSf.isSome then s else setLt s { s.lt with lossSf := some (s.sf - 1) }

/-- What the gateway notes of every qualifying header: the largest SERIAL, and the superframe of the latest HOPS other than
0xFF. -/
def noteHeaders (s : State) : State :=
  let hs := qualHeaders s
  let big := hs.foldl (fun m e => if serialDiff e.2.time.serial m > 0 then e.2.time.serial else m) s.lt.maxSerial
  let loud := hs.any (fun e => e.2.time.hops != 0xFF)
  setLt s { s.lt with maxSerial := big,
                      quietSf := if loud then some (s.sf - 1) else if s.lt.quietSf.isSome then s.lt.quietSf
                        else if hs.isEmpty then none else some (s.sf - 1) }

/-- R403 orders 1 to 3, R404: the election at a superframe boundary. -/
def elect (s : State) : State :=
  let s := noteHeaders s
  let os := offers s
  let hold := s.lt.ann.getD ⟨0, 255, 0xFFFF⟩
  if s.lt.toFree then
    let s' := setLt s { Lt.reset with maxSerial := s.lt.maxSerial, freq := s.lt.freq, freqs := s.lt.freqs }
    if s.lt.st = .holdover then notify s' 4 else s'
  else if s.lt.take && s.lt.st == .locked && ltPrio s < 255 then declare s
  else
    let s := setLt s { s.lt with take := false }
    match s.lt.st with
    | .acquiring => s
    | .free => match bestAnn os with | some a => adopt s a os | none => s
    | _ =>
      match bestAnn os with
      | some a => if betterAnn a hold then adopt s a os else if s.lt.st = .master then s else keepParent s hold os
      | none => if s.lt.st = .master then s else keepParent s hold os

/-- LT_HOLD_TIMEOUT (R403 order 3): HOLD_SF superframes without the held announcement. -/
def execLtHoldTimeout (s : State) : Host.Outcome State Fault Refusal :=
  .next (match s.lt.st, s.lt.lossSf with
    | .locked, some n =>
      if s.sf < n + fldV s .time 0x6C 15 0 then s
      else notify (raise (setLt s { s.lt with st := .holdover, lossSf := none }) .time 0x1F01 0) 4
    | _, _ => s)

/-- LT_ELECT_TIMEOUT (R403 order 4): ELECT_SF superframes without a HOPS other than 0xFF. -/
def execLtElectTimeout (s : State) : Host.Outcome State Fault Refusal :=
  .next (match s.lt.quietSf with
    | some n =>
      if (s.lt.st == .free || s.lt.st == .holdover) && ltPrio s < 255 && !(qualHeaders s).isEmpty &&
        s.sf ≥ n + fldV s .time 0x6C 31 16 then declare s else s
    | none => s)

/-! ## The servo (R405, R406) -/

def clampInt (lo hi v : Int) : Int := max lo (min hi v)

/-- R405: the count takes a new value. -/
def stepTo (s : State) (n : Nat) (ofs : Nat) : State :=
  if n = s.sf then setLt s { s.lt with ofs := ofs }
  else
    let t := ptpAt s s.sf
    let s := { s with sf := n, ptp := { s.ptp with s := t / 1000000000, ns := t % 1000000000, sf := n } }
    raise (count (setLt s { s.lt with ofs := ofs }) .time 0 1) .time 0x0F02 0

/-- R405: line time moved by an offset in ps, unless the count would move backward under a plan. -/
def stepBy (s : State) (th : Int) : State :=
  let t := ((128000 * (s.sf : Int) + th * 2 / 125) % (128000 * 2 ^ 64 : Nat)).toNat
  if t / 128000 < s.sf && anySlot s [.active, .next, .held] then s else stepTo s (t / 128000) (t % 128000)

/-- R405: a follower's servo at a superframe boundary. -/
def servo (s : State) (l : LinkId) : State :=
  let th := (llink s l).theta
  let ppm : Int := 1000000 * fldV s .time 0x60 23 16
  let f := clampInt (-ppm) ppm (Config.servoRate s.sf th (fldV s .time 0x60 9 0))
  let near := decide (th.natAbs ≤ 1000 * fldV s .time 0x68 15 0)
  let far := decide (th.natAbs > 1000 * fldV s .time 0x68 31 16)
  let plan := anySlot s [.active, .next, .held]
  let run := if near then s.lt.lockRun + 1 else 0
  let s := setLt s { s.lt with theta := th, freq := f, freqs := (f :: s.lt.freqs).take 1024, ofs := 0, lockRun := run,
                               slewing := s.lt.slewing && far,
                               st := if s.lt.st = .acquiring ∧ !s.lt.join ∧ run ≥ 64 then .locked else s.lt.st }
  if s.lt.join then stepBy (setLt s { s.lt with join := false, lockRun := 0 }) th
  else if far && !plan then stepBy s th
  else if far && !s.lt.slewing then raise (setLt s { s.lt with slewing := true }) .time 0x1F02 0
  else s

/-- R406: the rate of a gateway that follows no parent. -/
def meanFreq (l : List Int) : Int := if l.isEmpty then 0 else l.foldl (· + ·) 0 / l.length

/-- R401: the domain's D in use. -/
def tickD (s : State) : State :=
  match s.lt.st with
  | .free | .acquiring => setLt s { s.lt with d := ownD s }
  | .master =>
    if s.sf % auditPeriod = 0 then
      let live := (s.rseq.live.filter (fun e => isLive s e.1)).foldl (fun n e => max n e.2.2) 0
      setLt s { s.lt with d := max 1 (max live (ownD s)) }
    else s
  | _ => s

/-- Line time at a superframe boundary: election, servo and count, D. -/
def timeTick (s : State) : State :=
  let s := elect s
  let s := match s.lt.st, s.lt.parent with
    | .acquiring, some l => servo s l
    | .locked, some l => servo s l
    | .free, _ => s
    | _, _ => setLt s { s.lt with freq := meanFreq s.lt.freqs, ofs := 0 }
  let s := if s.lt.ptpSet && s.lt.st == .master && s.ptp.valid then
      stepTo (setLt s { s.lt with ptpSet := false }) (ptpAt s s.sf / 8000 % 2 ^ 64) 0
    else setLt s { s.lt with ptpSet := false }
  let s := if s.lt.st = .holdover then count s .time 1 1 else s
  tickD s

/-- R404: LT_ELECT.TAKE. -/
def takeMaster (s : State) : State := setLt s { s.lt with take := true }

/-- R413: LT_DOMAIN has changed. -/
def changeDomain (s : State) : State :=
  let s := setLt s { s.lt with toFree := true }
  { s with line := { s.line with links := s.line.links.map (fun e => (e.1, { e.2 with domainSeen := false })) } }

/-! ## PTP messages (R407, R408) -/

/-- R407: whether a PTP message of a port is for this clock. -/
def ptpFor (s : State) (p : Fin 64) (m : PtpMsg) : Bool :=
  fldV s .time 0x80 8 8 == 1 && fldV s (fportOf p) 0x100 0 0 == 1 && m.version == 2 && m.minor ≤ 1 &&
  m.domain == fldV s .time 0x80 6 0

def setPtp (s : State) (x : Ptp) : State := { s with ptp := x }

/-- A line time instant in 1/16 ns. -/
def inst (s : State) (ofs : Nat) : Nat := s.sf * 128000 + ofs

/-- PTP_SYNC_RX (R407): a Sync, with its receive timestamp in the superframe. -/
def execPtpSyncRx (p : Fin 64) (m : PtpMsg) (ofs : Fin 128000) (s : State) : Host.Outcome State Fault Refusal :=
  .next (if !ptpFor s p m || s.ptp.port ≠ some p then s
    else setPtp s { s.ptp with t1 := if m.twoStep then none else some m.ns, t2 := some (inst s ofs.val), twoStep := m.twoStep,
                               syncSeq := m.seq })

/-- PTP_FOLLOW_UP_RX (R407): the time of a two-step Sync. -/
def execPtpFollowUpRx (p : Fin 64) (m : PtpMsg) (s : State) : Host.Outcome State Fault Refusal :=
  .next (if !ptpFor s p m || s.ptp.port ≠ some p || !s.ptp.twoStep || m.seq ≠ s.ptp.syncSeq then s
    else setPtp s { s.ptp with t1 := some m.ns, twoStep := false })

/-- PTP_DELAY_RESP_RX (R407, R408): the answer to the Delay_Req that completes an exchange: the servo gives the mapping. -/
def execPtpDelayRespRx (p : Fin 64) (m : PtpMsg) (s : State) : Host.Outcome State Fault Refusal :=
  let x := s.ptp
  .next (if !ptpFor s p m || x.port ≠ some p || m.seq ≠ x.reqSeq || x.t3.isNone then s
    else if x.t1.isNone || x.t2.isNone then setPtp s { x with t4 := some m.ns }
    else
      let n := x.runs + 1
      let t := Config.ptpTime n
      let lost := x.valid && !Config.ptpLocks n
      let s := setPtp s { x with t4 := some m.ns, t3 := none, runs := n, s := t / 1000000000, ns := t % 1000000000, sf := s.sf,
                                 rate := Config.ptpRate n, valid := Config.ptpLocks n }
      if lost then raise s .time 0x1F03 0 else s)

/-- Lexicographic comparison of byte strings. -/
def bytesLt : Bytes → Bytes → Bool
  | [], [] => false
  | [], _ => true
  | _, [] => false
  | a :: l, b :: m => if a = b then bytesLt l m else a < b

/-- PTP_ANNOUNCE_RX (R407): the best master clock algorithm compares the data sets held by port and chooses one port. -/
def execPtpAnnounceRx (p : Fin 64) (m : PtpMsg) (s : State) : Host.Outcome State Fault Refusal :=
  .next (if !ptpFor s p m then s
    else
      let f := mset s.ptp.foreign p m.dataset
      let best := f.foldl (fun (b : Fin 64 × Bytes) e =>
        if bytesLt e.2 b.2 || (e.2 == b.2 && e.1 < b.1) then e else b) (p, m.dataset)
      setPtp s { s.ptp with foreign := f, port := some best.1 })

/-- PTP_UNSUPPORTED_RX (R407): a Pdelay, Signaling or Management message is counted and dropped. -/
def execPtpUnsupportedRx (p : Fin 64) (s : State) : Host.Outcome State Fault Refusal := .next (count s (fportOf p) 0 1)

/-- PTP_UNLOCKED (R408): the servo loses lock; the mapping extrapolates. -/
def execPtpUnlocked (s : State) : Host.Outcome State Fault Refusal :=
  .next (if s.ptp.valid then raise (setPtp s { s.ptp with valid := false }) .time 0x1F03 0 else s)

/-- PTP_DELAY_REQ_TX (R407, R409): the firmware sends a Delay_Req under an identifier, in the PTP class. Its timestamp is taken
when its delimiter leaves (`stampTx`). -/
def execPtpDelayReqTx (p : Fin 64) (id : BitVec 16) (seq : BitVec 16) (s : State) : Host.Outcome State Fault Refusal :=
  .next (if fldV s .time 0x80 8 8 = 0 || fldV s (fportOf p) 0x100 0 0 = 0 then s
    else egPush (setPtp s { s.ptp with reqSeq := seq.toNat, t3 := none }) p .ptp (.ptp id.toNat 1) (wireSize true false 44))

def tsqOf (s : State) (p : Fin 64) : Tsq := mget s.tsq p ⟨[], false⟩
def setTsq (s : State) (p : Fin 64) (x : Tsq) : State := { s with tsq := mset s.tsq p x }

/-- R409: the delimiter of a PTP packet leaves: its entry in the port's queue, or TSQ_OVERFLOW. -/
def stampTx (s : State) (p : Fin 64) (id ofs : Nat) : State :=
  let s := setPtp s { s.ptp with t3 := some (inst s ofs) }
  let x := tsqOf s p
  if x.ents.length ≥ 32 then raise (setTsq s p { x with ovf := true }) (fportOf p) 0x2F01 0
  else setTsq s p { x with ents := x.ents.concat ⟨id, s.sf, ofs⟩ }

/-- R409: TSQ_STATUS.POP. -/
def tsqPop (s : State) (p : Fin 64) : State := setTsq s p { tsqOf s p with ents := (tsqOf s p).ents.drop 1 }

/-- Latched register values of a page. -/
def latchAll (s : State) (pg : PageId) (l : List (Nat × Nat)) : State :=
  let p := pageOf s pg
  setPage s pg { p with latch := l.foldl (fun m e => mset m e.1 (BitVec.ofNat 32 e.2)) p.latch }

/-- A register read answered. -/
def answer (s : State) (pg : PageId) (off v : Nat) : State := emit s (.readAnswer (pageAddr pg + off) (BitVec.ofNat 32 v))

/-- R36, R42: a read that latches other registers and answers a value, while its page responds; the read of an empty slot
answers 0. -/
def latchRead (s : State) (pg : PageId) (off v : Nat) (l : List (Nat × Nat)) : State :=
  if pageUp s pg then answer (latchAll s pg l) pg off v else answer (unmapped s (pageAddr pg + off) false 4) pg off 0

/-- TSQ_ID_READ (R415): a read of TSQ_ID latches the oldest entry. -/
def execTsqIdRead (p : Fin 64) (s : State) : Host.Outcome State Fault Refusal :=
  let e := (tsqOf s p).ents.headD ⟨0, 0, 0⟩
  .next (latchRead s (fportOf p) 0x108 e.id [(0x108, e.id), (0x10C, e.sf), (0x110, e.sf / 2 ^ 32), (0x114, e.ofs)])

/-- LT_NOW_READ (R413): a read of LT_NOW_LO at an offset in the superframe latches the rest of line time. -/
def execLtNowRead (ofs : Fin 128000) (s : State) : Host.Outcome State Fault Refusal :=
  .next (latchRead s .time 0x44 s.sf [(0x48, s.sf / 2 ^ 32), (0x4C, ofs.val)])

/-- A signed number as a 32-bit field. -/
def int32 (v : Int) : Nat := (v % 4294967296).toNat

/-- MAP_READ (R413): a read of MAP_S_LO latches the mapping. -/
def execMapRead (s : State) : Host.Outcome State Fault Refusal :=
  let t := ptpAt s s.sf
  .next (latchRead s .time 0x88 (t / 1000000000) [(0x8C, t / 1000000000 / 2 ^ 32 % 2 ^ 16), (0x90, t % 1000000000),
    (0x94, int32 s.ptp.rate), (0x98, if s.ptp.runs = 0 then 0 else s.sf)])

/-! ## Pulse outputs and timing inputs (R410, R411) -/

/-- A field of a pulse output's active registers. -/
def plsF (s : State) (o : Fin 16) (off hi lo : Nat) : Nat := fldB s .tio off o.val hi lo

/-- R410: START of an output as a line time in ns; none before a mapping where it is a PTP time. -/
def pulseStart (s : State) (o : Fin 16) : Option Int :=
  let hi := plsF s o 0x4C 31 0 * 2 ^ 32 + plsF s o 0x48 31 0
  let ns := plsF s o 0x50 31 0
  if plsF s o 0x44 3 3 = 0 then some (hi * 8000 + ns : Nat)
  else if s.ptp.runs = 0 then none
  else some (ptpToLine s (hi % 2 ^ 48 * 1000000000 + ns))

/-- R410: new values of an output have applied at this boundary, or at once in this superframe while the block is idle (R47): a
one-shot that starts within 1 µs of the superframe's start, or before it, is late. -/
def pulseApplied (s : State) (o : Fin 16) : State :=
  let s := { s with tio := { s.tio with since := mset s.tio.since o s.sf, fired := s.tio.fired.filter (· != o) } }
  if plsF s o 0x44 0 0 = 1 && plsF s o 0x44 1 1 = 0 then
    match pulseStart s o with
    | some t => if t < s.sf * 8000 + 1000 then
        raise { s with tio := { s.tio with fired := o :: s.tio.fired } } .tio 0x0F03 o.val else s
    | none => s
  else s

/-- The active values of an output's registers. -/
def pulseRegs (s : State) (o : Fin 16) : List Word :=
  [0x44, 0x48, 0x4C, 0x50, 0x54, 0x58].map (fun off => regActive (pageOf s .tio) .tio off o.val)

/-- R410: outputs whose active values have changed since an earlier state. -/
def pulsesApplied (old s : State) : State :=
  (List.finRange 16).foldl (fun s o => if pulseRegs old o = pulseRegs s o then s else pulseApplied s o) s

/-- R410: the leading edge of the k-th pulse of an output, which falls in this superframe; its trailing edge is then fixed. -/
def pulseLead (s : State) (o : Fin 16) (k : Nat) : State :=
  let periodic := plsF s o 0x44 1 1 == 1
  let pol := plsF s o 0x44 2 2 == 1
  if plsF s o 0x44 0 0 = 0 || (!periodic && k ≠ 0) then s
  else match pulseStart s o with
    | none => s
    | some t =>
      let a := t + k * plsF s o 0x54 31 0
      if a / 8000 ≠ s.sf || a < mget s.tio.since o 0 * 8000 + 1000 || s.tio.fired.contains o then s
      else
        emit { s with tio := { s.tio with level := mset s.tio.level o pol
                                          ends := mset s.tio.ends o (a + plsF s o 0x58 31 0, !pol)
                                          fired := if periodic then s.tio.fired else o :: s.tio.fired } }
          (.pulse o pol s.sf (a % 8000).toNat)

/-- R410: the trailing edge of the pulse in progress, where it falls in this superframe; a pulse that began keeps the width it
began with. -/
def pulseTrail (s : State) (o : Fin 16) : State :=
  match mget? s.tio.ends o with
  | none => s
  | some (e, lv) =>
    if e / 8000 ≠ s.sf then s
    else emit { s with tio := { s.tio with level := mset s.tio.level o lv, ends := mdel s.tio.ends o } }
           (.pulse o lv s.sf (e % 8000).toNat)

/-- PULSE_EDGE (R410): the leading edge of the k-th pulse of an output, or the trailing edge of its pulse in progress. -/
def execPulseEdge (o : Fin 16) (k : Nat) (lead : Bool) (s : State) : Host.Outcome State Fault Refusal :=
  .next (if s.lt.st = .free then s else if lead then pulseLead s o k else pulseTrail s o)

def evtOf (s : State) (i : Fin 4) : Tsq := mget s.tio.evts i ⟨[], false⟩
def setEvt (s : State) (i : Fin 4) (x : Tsq) : State := { s with tio := { s.tio with evts := mset s.tio.evts i x } }

/-- TIMING_INPUT_EDGE (R411): an edge of a timing input at an offset in the superframe. -/
def execTimingInputEdge (i : Fin 4) (rise : Bool) (ofs : Fin 128000) (s : State) : Host.Outcome State Fault Refusal :=
  let edge := fldB s .tio 0x64 i.val 2 1
  let x := evtOf s i
  .next (if fldB s .tio 0x64 i.val 0 0 = 0 || (edge = 0 && !rise) || (edge = 1 && rise) then s
    else if x.ents.length ≥ 16 then raise (setEvt s i { x with ovf := true }) .tio 0x2F02 i.val
    else setEvt s i { x with ents := x.ents.concat ⟨b2n rise + 2 * b2n (s.lt.st == .free), s.sf, ofs.val⟩ })

/-- R414: EVT_SEL latches the oldest entry of an input. -/
def evtLatch (s : State) (i : Fin 4) : State :=
  let e := (evtOf s i).ents.headD ⟨0, 0, 0⟩
  latchAll s .tio [(0x68, e.sf), (0x6C, e.sf / 2 ^ 32), (0x70, e.ofs + 131072 * e.id)]

/-- R414: EVT_CFG.POP. -/
def evtPop (s : State) (i : Fin 4) : State := setEvt s i { evtOf s i with ents := (evtOf s i).ents.drop 1 }

/-! ## Timed launches (R214, R412) -/

/-- R412: the port of a timed fabric queue. -/
def tqPort (s : State) (q : Fin 4) (ix : Nat) : Fin 64 := ⟨(16 * q.val + fldB s (.launch q) 0x50 ix 3 0) % 64, by omega⟩

/-- R412: one record of a launch: ahead of other traffic on its link, or out of the port of its queue. -/
def launchRec (l : Launch) (s : State) (x : Placed) (r : Record) : State :=
  let dst := r.hdr.dstGw.toNat
  let wire := wireSize true true (64 + r.payload.length)
  let s := if l.line then
      match linkTo s l.quad dst with
      | some k => lineSend s k (if x.desc.fast then 9 else 10) (.rcd r)
      | none => s
    else emit s (.fabric (tqPort s l.quad l.index) ⟨if x.desc.fast then .site else .peer, .rcd dst (x.desc.peer dst / 2048 % 4) (peerPort s) r, wire, s.sf⟩)
  let cl := cellOf s x.desc.cell
  setCell s x.desc.cell { cl with kept := cl.kept ++ [⟨r, if l.line then some l.quad else none, 1, s.sf, false, false⟩] }

/-- R214, R218: LAUNCH_LATE of the attempt that holds the LAUNCH word, in the tile's record while the tile runs it. -/
def launchLate (s : State) (l : Launch) : State :=
  let t : Fin 64 := ⟨l.tile % 64, by omega⟩
  let x := tileOf s t
  let st := fld l.ciid.toNat 47 24
  let rp := l.ciid.toNat % 256
  let s := raiseFor s (.tile t) 0x0802 0 l.ciid
  if x.active && x.step == st && x.replay == rp then tileFlag s t 64 else orOpen s st rp 64

/-- LAUNCH_FIRE (R214, R412): a pending launch starts, `ns` nanoseconds into the superframe: its records are ready and its instant
has come. One that starts later than the bound, or was issued late, enters MAX_LATE. -/
def execLaunchFire (i : Nat) (ns : Fin 8000) (s : State) : Host.Outcome State Fault Refusal :=
  .next (match s.plans.launches[i]? with
    | none => s
    | some l =>
      let at_ := l.sf * 8000 + l.slot * 125
      let now := s.sf * 8000 + ns.val
      match findInst s l.ciid with
      | none => s
      | some x =>
        let cl := cellOf s l.cell
        if isErr cl.st then s else
        let rs := mget cl.ready (l.shard, l.level) []
        if cl.ciid ≠ l.ciid || rs.isEmpty || now < at_ || s.lt.st = .free then s
        else
          let slow := now > at_ + (if l.line then 400 else 100)
          let s := setCell s l.cell { cl with ready := mdel cl.ready (l.shard, l.level) }
          let s := { s with plans := { s.plans with launches := s.plans.launches.eraseIdx i } }
          let s := rs.foldl (fun s r => launchRec l s x r) s
          let s := count s (.launch l.quad) 0 1
          if !slow && !l.late then s
          else
            let s := count s (.launch l.quad) 1 1
            let s := { s with late := mset s.late l.quad (max (mget s.late l.quad 0) (min (now - at_) 0x7FFFFFFF)) }
            if l.late then s else launchLate s l)

end Sys2Proof.Machine
end

