-- ==== Sys2Proof/Machine/Traffic.lean ====
section
/-! DEFINITION. Machine/Traffic.lean: queues, shapers and trays (R375 to R398): egress scheduling, token refills, queue samples,
retries of refused trays, the ledger's audits, and the release of a job. -/
namespace Sys2Proof.Machine
open Sys2Proof

/-! ## Egress (R376 to R378) -/

/-- R378: whether a queue's shaper lets it send. -/
def shaperOk (s : State) (p : Fin 64) (q : Fin 32) : Bool :=
  fldB s (fportOf p) 0x48 q.val 31 31 == 0 || (egQ s p q).tokens > 0

/-- R377: whether a queue is backlogged and eligible. -/
def sendable (s : State) (p : Fin 64) (q : Fin 32) : Bool := !(egQ s p q).pkts.isEmpty && shaperOk s p q

/-- The wire size of a queue's head packet. -/
def headWire (s : State) (p : Fin 64) (q : Fin 32) : Nat := ((egQ s p q).pkts.map (·.wire)).headD 0

/-- R377: the weight of a queue. -/
def queueWeight (s : State) (p : Fin 64) (q : Fin 32) : Nat := fldB s (.tm (quadOf p)) 0x50 q.val 7 0

/-- R376, R379: packets that wait at their producers enter their class's queue as they fit, in order. -/
def admitQueue (p : Fin 64) (s : State) (q : Fin 32) : State :=
  (egQ s p q).waiting.foldl (fun s _ =>
    match (egQ s p q).waiting with
    | [] => s
    | x :: l =>
      let d := queueOf s (quadOf p) x.cls
      if egTakes s p d x.wire then
        let s := setEgQ s p q { egQ s p q with waiting := l }
        setEgQ s p d { egQ s p d with pkts := (egQ s p d).pkts ++ [{ x with sf := s.sf }] }
      else s) s

def admitPort (s : State) (p : Fin 64) : State :=
  let qs := (List.finRange 32).filter (fun q => !(egQ s p q).waiting.isEmpty)
  qs.foldl (admitQueue p) s

/-- R377, R378, R409: the head packet of a queue starts: its shaper is charged, it leaves the queue and the port, and the time
stamp of a PTP event message is taken. -/
def startHead (s : State) (p : Fin 64) (q : Fin 32) (ofs : Nat) : State :=
  let e := egQ s p q
  match e.pkts with
  | [] => s
  | k :: l =>
    let t := if fldB s (fportOf p) 0x48 q.val 31 31 = 0 then e.tokens else e.tokens - 16 * (k.wire : Int)
    let s := emit (setEgQ s p q { e with pkts := l, tokens := t }) (.fabric p k)
    let s := match k.body with
      | .ptp id _ => stampTx s p id ofs
      | _ => s
    admitPort s p

/-- The queue number after another in the weighted group. -/
def nextWeighted (q : Nat) : Fin 32 := if q < 4 || 31 ≤ q then 4 else ⟨(q + 1) % 32, by omega⟩

/-- R377: the next queue of the weighted group, after q, that the scheduler visits: backlogged, eligible, of weight above 0. -/
def nextVisit (s : State) (p : Fin 64) : Nat → Fin 32 → Option (Fin 32)
  | 0, _ => none
  | n + 1, q =>
    let r := nextWeighted q.val
    if sendable s p r && queueWeight s p r > 0 then some r else nextVisit s p n r

/-- R377: deficit weighted round robin: the queue that sends next, with the deficits of the visits made on the way. `cur` is the
queue under visit. -/
def dwrr (s : State) (p : Fin 64) : Nat → Fin 32 → Option (State × Fin 32)
  | 0, _ => none
  | n + 1, cur =>
    if 4 ≤ cur.val && sendable s p cur && queueWeight s p cur > 0 && headWire s p cur ≤ (egQ s p cur).deficit then some (s, cur)
    else match nextVisit s p 28 cur with
      | none => none
      | some q =>
        let e := egQ s p q
        dwrr (setEgQ s p q { e with deficit := e.deficit + 1024 * queueWeight s p q }) p n q

/-- R377: a weighted queue sends: its deficit falls by the wire size, to 0 where the queue empties. -/
def startWeighted (s : State) (p : Fin 64) (q : Fin 32) (ofs : Nat) : State :=
  let e := egQ s p q
  let d := if e.pkts.length ≤ 1 then 0 else e.deficit - headWire s p q
  startHead { setEgQ s p q { e with deficit := d } with rr := mset s.rr p q } p q ofs

/-- EGRESS_PACKET_START (R377): a port that is UP starts its next packet, whose delimiter leaves at an offset in the superframe,
in 1/16 ns: the lowest strict queue that may send, else the weighted group; else the port idles. -/
def execEgressPacketStart (p : Fin 64) (ofs : Fin 128000) (s : State) : Host.Outcome State Fault Refusal :=
  .next (if (phy s p).link ≠ 2 then s
    else match ([0, 1, 2, 3] : List (Fin 32)).find? (sendable s p) with
      | some q => startHead s p q ofs.val
      | none => match dwrr s p 600 ⟨mget s.rr p 3 % 32, by omega⟩ with
        | some (s', q) => startWeighted s' p q ofs.val
        | none => s)

/-! ## Refills (R378 to R380) -/

/-- Pairs of a port and a bank whose tokens may move: those listed, and those whose rate or burst has been written. -/
def shapers (s : State) : List (Fin 64 × Fin 32) :=
  let wrote := (List.finRange 64).flatMap fun p =>
    ((mget? s.pages (fportOf p)).getD Page.reset).regs.filterMap fun e =>
      if e.1.1 = 0x48 || e.1.1 = 0x4C then some (p, (⟨e.1.2 % 32, by omega⟩ : Fin 32)) else none
  (s.egress.map (·.1) ++ wrote).eraseDups

/-- R378: one shaper at a refill. -/
def refillQueue (s : State) (x : Fin 64 × Fin 32) : State :=
  let e := egQ s x.1 x.2
  let pg := fportOf x.1
  let top : Int := 16 * fldB s pg 0x4C x.2.val 19 0
  let t := if fldB s pg 0x48 x.2.val 31 31 = 0 then top else min (e.tokens + fldB s pg 0x48 x.2.val 17 0) top
  if t = e.tokens then s else setEgQ s x.1 x.2 { e with tokens := t }

def policed (s : State) : List (Fin 64 × Nat) :=
  let wrote := (List.finRange 4).flatMap fun q =>
    ((mget? s.pages (.tm q)).getD Page.reset).regs.flatMap fun e =>
      if e.1.1 = 0x5C || e.1.1 = 0x60 then
        (List.finRange 64).filterMap (fun p => if quadOf p = q then some (p, e.1.2) else none) else []
  (s.police.map (·.1) ++ wrote).eraseDups

/-- R380: one policer at a refill. -/
def refillPolice (s : State) (x : Fin 64 × Nat) : State :=
  let pg := PageId.tm (quadOf x.1)
  let top : Int := 16 * fldB s pg 0x60 x.2 19 0
  let t := if fldB s pg 0x5C x.2 31 31 = 0 then top
           else min (polTokens s x.1 x.2 + fldB s pg 0x5C x.2 17 0) top
  if t = polTokens s x.1 x.2 then s else { s with police := mset s.police x t }

/-- R46, R379: the pages whose epoch boundary is the refill. -/
def refillPage : PageId → Bool
  | .tm _ => true
  | .fport _ _ => true
  | _ => false

/-- SHAPER_REFILL (R46, R378 to R380): the refill count rises, pending values of the TM and FPORT pages apply, and every shaper
and policer adds its rate. -/
def execShaperRefill (s : State) : Host.Outcome State Fault Refusal :=
  let n := s.refills + 1
  let s := { s with refills := n, pages := s.pages.map (fun e => if refillPage e.1 then (e.1, e.2.apply (n % 2 ^ 32)) else e) }
  let s := (policed s).foldl refillPolice ((shapers s).foldl refillQueue s)
  .next (((s.egress.filter (fun e => !e.2.waiting.isEmpty)).map (fun e => e.1.1)).eraseDups.foldl admitPort s)

/-! ## Queue samples (R381) -/

/-- R381: one queue sampled, with its head packet's delay in ns. -/
def sampleQueue (p : Fin 64) (delays : List Nat) (s : State) (q : Fin 32) : State :=
  let e := egQ s p q
  let depth := sumWire e.pkts
  let delay := if e.pkts.isEmpty then 0 else delays.getD q.val 0
  let avg : Int := e.depthAvg + ((depth : Int) - e.depthAvg).tdiv 1024
  setEgQ s p q { e with depthMax := max e.depthMax depth, delayMax := min 0xFFFFFFFF (max e.delayMax delay),
                        depthAvg := avg.toNat }

/-- QUEUE_SAMPLE (R381): a port samples its 32 queues, every 2^LOG2 refills; `delays` holds the time in ns since the head packet
of each queue entered it. -/
def execQueueSample (p : Fin 64) (delays : List Nat) (s : State) : Host.Outcome State Fault Refusal :=
  .next (if s.refills % 2 ^ fldV s (fportOf p) 0x64 3 0 ≠ 0 then s
    else (List.finRange 32).foldl (sampleQueue p delays) s)

/-- R381, R394: SAMPLE_CFG.CLR. -/
def clearSamples (s : State) (p : Fin 64) : State :=
  { s with egress := s.egress.map (fun e =>
      if e.1.1 = p then (e.1, { e.2 with depthMax := 0, delayMax := 0, depthAvg := 0 }) else e) }

/-! ## Trays (R387) -/

/-- TRAY_RETRY (R387): after 1 µs a cell that could not take its trays, or an input that waits upstream of it, tries again. -/
def execTrayRetry (cell : Fin 16384) (s : State) : Host.Outcome State Fault Refusal :=
  let cl := cellOf s cell.val
  .next (if cl.st ≠ .free then s
    else takeHeldIf (armOpen s cell.val) (fun i => i.cell == cell.val && i.upstream && attempt s i.ciid == .now))

/-! ## The ledger (R390 to R392) -/

/-- A failed check: row of R390, quadrant, instance. -/
abbrev LgFail := Nat × Nat × Nat

def vcNums : List Fvc := [.fast, .bulk, .weight, .mgmt]
def lineVcs : List Nat := [0, 1, 2, 3, 4, 6]

/-- R390: the fabric credits of each attached source and VC. -/
def fabricFails (s : State) : List LgFail :=
  (List.range s.fab.srcs.length).flatMap fun i =>
    match s.fab.srcs[i]? with
    | none => []
    | some x => vcNums.filterMap fun v =>
      let c := x.credit.get v
      if (c.held + c.ret.toNat) % 2 ^ 32 = (c.recv + c.off) % 2 ^ 32 ∧ c.held ≤ x.grant.get v then none
      else some (1, 3, 4 * i + vcNum v)

/-- R390: the line credits of each link, direction and sequenced VC, each end against itself. -/
def lineFails (s : State) : List LgFail :=
  allLinks.flatMap fun l =>
    match mget? s.line.links l with
    | none => []
    | some x => lineVcs.filterMap fun v =>
      let c := vcLine x v
      if BitVec.ofNat 32 c.held + c.ret = c.recv ∧ (c.sent - c.returned).toNat ≤ c.grant then none
      else some (2, l.1.val, 8 * l.2.val + v)

/-- R390: the trays of a pool: what is held, set aside or out of the pool does not exceed it, and no transfer stood at the
last audit. -/
def trayFails (s : State) : List LgFail :=
  let stale := fun (b : Bool) => s.trays.xfers.any (fun t => isSram t == b && s.ledger.xfers.contains t)
  let sramBad := stale true || (List.finRange 64).any (fun t =>
    !s.trays.removed.contains t && heldWhere s (fun i _ => trayTile i == some t) + asideSram s t > sramPerTile s)
  let pondSize := (List.finRange 4).foldl (fun n q => n + genTrays s q) 0
  let pondBad := stale false || heldWhere s (fun i _ => !isSram i) + asidePond s > pondSize
  (if sramBad then [(3, 3, 0)] else []) ++ (if pondBad then [(3, 3, 1)] else [])

/-- R390: cells that hold an instance of a step committed more than 65 superframes earlier. -/
def cellFails (s : State) : List LgFail :=
  let bad := s.coll.cells.filter fun e => e.2.st != .free &&
    (match mget? s.ledger.commitSf (ciidJob e.2.ciid, ciidStep e.2.ciid) with
     | some n => decide (s.sf > n + 65)
     | none => false)
  (bad.map (fun e => ((4 : Nat), (3 : Nat), e.1))).foldl (fun l x => l.filter (fun y => y.2.2 < x.2.2) ++ [x] ++
    l.filter (fun y => x.2.2 < y.2.2)) []

/-- R390: the table references of each tile and slot. -/
def tableFails (s : State) : List LgFail :=
  if s.tdec.slots.isEmpty then [] else
  (List.finRange 64).flatMap fun t => (List.range 8).filterMap fun n =>
    let x := mget s.tdec.slots (t, n) TSlot.reset
    let refs := ((mget s.tdec.queues t []).filter (fun b => b.slot == some n)).length
    let twin := (List.range 8).any fun m => m != n &&
      (let y := mget s.tdec.slots (t, m) TSlot.reset
       x.st != .free && y.st != .free && x.gen == y.gen)
    if x.refs = refs ∧ !(x.st == .free && (x.refs != 0 || x.gen != 0)) ∧ !twin then none
    else some (5, t.val / 16, 8 * t.val + n)

/-- R390: the transmit counters (direction 0) and last received counters (direction 1) by link, slot and KEY_ID. -/
def cipherCtrs (s : State) : PMap (LinkId × Nat × Nat × Nat) Nat :=
  s.ciph.links.flatMap fun e =>
    (match e.2.tx with
     | some k => e.2.ctr.map (fun c => ((e.1, 0, c.1, k.id), c.2))
     | none => []) ++ e.2.last.map (fun c => ((e.1, 1, c.1.1, c.1.2), c.2))

/-- R390: counters that have fallen under one KEY_ID since the last audit, and transmit counters beyond 40 bits. -/
def cipherFails (s : State) : List LgFail :=
  let now := cipherCtrs s
  allLinks.flatMap fun l => (List.range 18).filterMap fun k =>
    let bad := now.any fun e => e.1.1 == l && e.1.2.2.1 == k &&
      (decide (e.2 < mget s.ledger.ctrs e.1 0) || (e.1.2.1 == 0 && decide (e.2 > 0xFFFFFFFFFF)))
    if bad then some (6, l.1.val, 32 * l.2.val + k) else none

def auditFails (s : State) : List LgFail :=
  fabricFails s ++ lineFails s ++ trayFails s ++ cellFails s ++ tableFails s ++ cipherFails s

/-- R397: cells between their last input and their harvest, and cells held without a wait limit. -/
def pendingCells (s : State) : Nat :=
  (s.coll.cells.filter (fun e => (e.2.st == .armed || e.2.st == .gathering || e.2.st == .complete) && e.2.stopped)).length
def unlimitedCells (s : State) : Nat :=
  (s.coll.cells.filter (fun e => (e.2.st == .armed || e.2.st == .gathering) && !e.2.stopped &&
    (match findInst s e.2.ciid with | some x => x.desc.waitLimit == 0 | none => false))).length

/-- R391: the modes in which audits run. -/
def auditMode (s : State) : Bool := s.mode == some .test || s.mode == some .recovery || s.mode == some .service

/-- R425: LIVE to the master: the boundary and the largest D_link of the UP links. -/
def sendLive (s : State) : State :=
  if (gwNum s).isNone then s
  else
    let r := nextSerial s
    sendMaster r.1 (.rcv (sealRcv (mkRcv r.1 0x14 (masterGw r.1) 0 r.2 0 0 (gw s) 0 s.sf (ownD s) 0)))

/-- AUDIT_START (R391, R428): at a boundary of the audit period the ledger copies every count and its checks begin on the copy,
or the audit is skipped while the previous one runs; LIVE goes to the master. -/
def execAuditStart (s : State) : Host.Outcome State Fault Refusal :=
  .next (if !auditMode s || s.sf % auditPeriod ≠ 0 || s.ledger.atSf = some s.sf then s
    else
      let s := sendLive { s with ledger := { s.ledger with atSf := some s.sf } }
      if fldV s .ledger 0x44 0 0 = 0 then s
      else if s.ledger.running.isSome then raise s .ledger 0x0E01 0
      else { s with ledger := { s.ledger with running := some s.sf, pending := pendingCells s, unlimited := unlimitedCells s,
                                              fails := auditFails s, xfers := s.trays.xfers, ctrs := cipherCtrs s } })

/-- R392: ERR_FIRST_INFO of AUDIT_FAIL. -/
def auditInfo (f : LgFail) : Nat := f.1 + f.2.1 * 16 + f.2.2 % 2 ^ 24 * 256

/-- R392, R433: a failed audit: the first failure is raised, the others counted; repeated failures with rollbacks between them
raise AUDIT_REPEAT. -/
def auditFailed (s : State) (f : LgFail) (more : List LgFail) : State :=
  let s := raise (count s .ledger 1 1) .ledger 0x3E01 (auditInfo f)
  let p := more.foldl (fun p g => p.record 0x3E01 (auditInfo g) s.sf (inClock s .ledger)) (pageOf s .ledger)
  let s := setPage s .ledger p
  let n := if s.rseq.auditRun > 0 && s.rseq.rolledSince then s.rseq.auditRun + 1 else 1
  let s := { s with rseq := { s.rseq with auditRun := n, rolledSince := false } }
  if n ≥ fldV s .rseq 0x4C 19 16 then
    raise { s with rseq := { s.rseq with auditRun := 0 } } .ledger 0x3707 0
  else s

/-- AUDIT_DONE (R391, R392): the checks end after at most 1 ms: the audit passes, or AUDIT_FAIL. -/
def execAuditDone (us : Fin 1001) (s : State) : Host.Outcome State Fault Refusal :=
  .next (match s.ledger.running with
    | none => s
    | some n =>
      let g := s.ledger
      let s := count { s with ledger := { g with running := none, last := n, us := us.val, ok := g.fails.isEmpty, fails := [],
                                                 passed := if g.fails.isEmpty then min 0xFFFFFF (g.passed + 1) else g.passed } }
                 .ledger 0 1
      match g.fails with
      | [] => { s with rseq := { s.rseq with auditRun := 0 } }
      | f :: l => auditFailed s f l)

/-! ## A job dropped (R238, R396) -/

/-- R238, R396: JOB_DROP.GO releases the job's table with its reservation, and the job's block images. -/
def dropJob (s : State) (job : Nat) : State :=
  let j := jobOf s job
  let s := match j.tab with
    | some t => releaseTrays s t.trays
    | none => s
  let s := setJob s job { Job.none with epoch := j.epoch, prev := j.prev, switchSf := j.switchSf, lost := j.lost }
  releaseImages s (fun i => i.job == job)

end Sys2Proof.Machine
end

