-- ==== Sys2Proof/Machine/Recovery.lean ====
section
/-! DEFINITION. Machine/Recovery.lean: the recovery sequencer (R417 to R442): requests and their recoveries, rollback at a gateway,
replay, the watch over gateways, a new master, replacement and proving, the roster and the error log. -/
namespace Sys2Proof.Machine
open Sys2Proof

/-! ## Boot modes that recovery enters (R386, R438) -/

/-- R386: QUOTA_OVER for each pool in which a requester holds more than its quota. -/
def quotaOver (s : State) (r : Nat) : State :=
  let s := if quotaSram s r ≠ 0x7FFFF && reqSram s r > quotaSram s r then raise s .tpool 0x0E02 r else s
  if quotaPond s r ≠ 0x1FFFFF && reqPond s r > quotaPond s r then raise s .tpool 0x0E02 (r + 256) else s

/-- R469: a code of start-up and images, which is also logged whatever its class. -/
def raiseLogged (s : State) (pg : PageId) (code info : Nat) : State :=
  let cls := codeClass code
  let s' := raise s pg code info
  if cls ≥ 3 || (cls == 1 && fldV s .elog 0x44 0 0 == 1) || (cls == 2 && fldV s .elog 0x44 1 1 == 1) then s'
  else logPush s' { sf := s.sf, code := code, kind := 0, level := 0, page := fld (pageAddr pg) 27 12,
                    info := BitVec.ofNat 32 info, serial := s.rseq.serial, ciid := 0, extra := List.replicate 32 0 }

/-- R386, R444: the boot mode changes, with MODE_ENTERED and MSI-X vector 3; requesters over their quotas are reported as SERVICE
begins. -/
def enterMode (s : State) (m : Mode) : State :=
  let s := notify (raiseLogged { s with mode := some m } .boot 0x0401 0) 3
  if m = .service && !(s.trays.held.isEmpty && s.trays.asides.isEmpty) then (List.range 256).foldl quotaOver s else s

/-! ## Proving at the master (R438, R439) -/

def logProve (s : State) (candidate other what : Nat) : State :=
  let p := s.rseq.prove
  let r := s.rseq.jobs.find? (fun e => e.2.level = 4)
  let c := match r with | some e => mkCiid e.1 e.2.step 0 e.2.count | none => 0
  logPush s { sf := s.sf, code := 0, kind := 3, level := 0, page := fld (pageAddr .rseq) 27 12, info := 0,
              serial := s.rseq.serial, ciid := c,
              extra := beBytes 1 p.phase ++ beBytes 1 p.reason ++ beBytes 2 p.incumbent ++ beBytes 8 candidate ++
                       beBytes 8 other ++ beBytes 4 what ++ List.replicate 8 0 }

def setProve (s : State) (p : Prove) : State := { s with rseq := { s.rseq with prove := p } }

/-- R438: a gateway with a quarantined tile, as the master knows. -/
def hasQuarantine (s : State) (g : Nat) : Bool :=
  s.rseq.quarGws.contains g || (g == gw s && (List.finRange 64).any (fun t => (pageOf s (.tile t)).quarantined))

/-- The least of a list of numbers, above a bound that none reaches. -/
def leastOf (l : List Nat) : Option Nat :=
  match l with
  | [] => none
  | a :: m => some (m.foldl min a)

/-- R438: the incumbent for a subject. -/
def incumbentOf (s : State) (g : Nat) : Nat :=
  let ok := (rosterGws s (· == 1)).filter (fun x => x != g && !hasQuarantine s x && !s.rseq.lost.contains x)
  match leastOf (ok.filter (fun x => x / 64 == g / 64)) with
  | some x => x
  | none => (leastOf ok).getD 0

/-- R438 phase 1 begins: the subject's entry has become PROVING at the master during level 4. -/
def beginProving (s : State) (g : Nat) : State :=
  if s.lt.st = .master && s.rseq.jobs.any (fun e => e.2.level == 4 && e.2.subject == g) then
    logProve (setProve s { Prove.none with subject := g, phase := 1, incumbent := incumbentOf s g, startSf := s.sf }) 0 0 0
  else s

/-- R438, R439: a phase fails: the subject's entry becomes RETIRED. -/
def failProving (s : State) (reason cand other what : Nat) : State :=
  let p := s.rseq.prove
  let s := raise (setProve s { p with phase := 5, reason := reason }) .rseq 0x2701 0
  let ent : RosterEnt := ⟨3, BitVec.ofNat 64 (rosterFp s p.subject)⟩
  floodRoster (setRoster (logProve s cand other what) p.subject ent) p.subject ent

/-- R438 phase 4: the subject's entry becomes ACTIVE, and the recoveries of level 4 go on. -/
def passProving (s : State) : State :=
  let p := s.rseq.prove
  let s := raise (setProve s { p with phase := 4 }) .rseq 0x0703 0
  let ent : RosterEnt := ⟨1, BitVec.ofNat 64 (rosterFp s p.subject)⟩
  let s := floodRoster (setRoster (logProve s 0 0 0) p.subject ent) p.subject ent
  let s := { s with rseq := { s.rseq with lost := s.rseq.lost.filter (· != p.subject) } }
  (s.rseq.jobs.filter (fun e => e.2.level = 4)).foldl (fun s e => settleCommits .rseq (checkDone s e.1) e.1) s

/-- R240, R438: the quantities of a matrix that are replicated. -/
def qtysOf (m : Matrix) : List Nat := if m.rule = 1 then [1, 3] else [1, 2, 3]

/-- The matrices of a job that a gateway homes or partners, with the other holder. -/
def sharedWith (s : State) (g : Nat) : List (Nat × Matrix × Nat) :=
  s.outer.flatMap fun e => match e.2.tab with
    | none => []
    | some t => t.mats.filterMap fun m =>
      if m.home = g then some (e.1, m, m.partner) else if m.partner = g then some (e.1, m, m.home) else none

/-- The digest of a sender for a matrix and quantity in a round. -/
def digestAt (p : Prove) (g matrix qty round : Nat) : Option Nat := mget? p.digests (g, matrix, qty, round)

/-- R438: digests of one matrix come in the order of its quantities, then for those replicated again. -/
def nextQty (p : Prove) (m : Matrix) (g : Nat) : Option (Nat × Nat) :=
  match (qtysOf m).find? (fun q => (digestAt p g m.matrix q 0).isNone) with
  | some q => some (q, 0)
  | none => ((qtysOf m).find? (fun q => p.differed.contains (m.matrix, q) && (digestAt p g m.matrix q 1).isNone)).map
      (fun q => (q, 1))

/-- Whether a quantity's digests agree in the round that counts. -/
def pairAgrees (p : Prove) (cand other matrix qty : Nat) : Bool :=
  let r := if p.differed.contains (matrix, qty) then 1 else 0
  match digestAt p cand matrix qty r, digestAt p other matrix qty r with
  | some a, some b => a == b
  | _, _ => false

/-- R438: the chunks of a quantity of a matrix that a survivor holds, for its current epoch: as home, or as partner. -/
def heldChunk (s : State) (job : Nat) (m : Matrix) (q i : Nat) : Bytes :=
  let j := jobOf s job
  let t := qtyType m q
  let home := m.home = gw s
  let off := i * recChunk t
  let n := chunkLen t (m.rows * m.cols) i
  match q with
  | 1 => memBytes s.mem ((if home then homeBank m j.epoch else partBank m j.epoch) + off) n
  | 2 => if home then memBytes s.mem (m.hM + off) n else partnerMomentum s job m i
  | _ => memBytes s.mem ((if home then m.hD else m.pD) + off) n

/-- R438: one quantity of a matrix replicated to a candidate with INITIAL = 1; its digest is owed once it is acknowledged. -/
def replicateQty (s : State) (g job : Nat) (m : Matrix) (q : Nat) : State :=
  let t := qtyType m q
  let s' := replicateTo s g job m q 2 (jobOf s job).epoch t (qtyChunks m t) (heldChunk s job m q)
  { s' with rseq := { s'.rseq with stDue := s'.rseq.stDue.concat (job, m.matrix, q, g) } }

/-- R438: phase 2 passes once every pair of digests agrees. -/
def stateDone (s : State) : State :=
  let p := s.rseq.prove
  if p.phase = 2 && (sharedWith s p.subject).all (fun e => (qtysOf e.2.1).all (pairAgrees p p.subject e.2.2 e.2.1.matrix)) then
    logProve (setProve s { p with phase := 3, startSf := s.sf }) 0 0 0
  else s

/-- R438 phase 2: a digest of a matrix at the master: compared with the other holder's; after a first difference a master that
is the survivor replicates the quantity again; a second difference fails. -/
def takeStateDigest (s : State) (g matrix v : Nat) : State :=
  let p := s.rseq.prove
  match (sharedWith s p.subject).find? (fun e => e.2.1.matrix = matrix && (g = p.subject || g = e.2.2)) with
  | none => s
  | some (job, m, other) =>
    match nextQty p m g with
    | none => s
    | some (q, r) =>
      let p := { p with digests := mset p.digests (g, matrix, q, r) v }
      let s := setProve s p
      match digestAt p p.subject matrix q r, digestAt p other matrix q r with
      | some a, some b =>
        if a = b then stateDone s
        else if r = 1 then failProving s 2 a b matrix
        else
          let s := setProve s { p with differed := p.differed.concat (matrix, q) }
          if other = gw s then replicateQty s p.subject job m q else s
      | _, _ => s

/-- R438 phase 3: the digest of a proving step at the master. A difference fails; the phase passes once at least 16 steps agree
and no digest stands alone. -/
def takeStepDigest (s : State) (g step v : Nat) : State :=
  let p := s.rseq.prove
  if p.phase ≠ 3 || (g ≠ p.subject && g ≠ p.incumbent) then s
  else
    let p := { p with digests := mset p.digests (g, 2 ^ 32, step, 0) v }
    let s := setProve s p
    match digestAt p p.subject (2 ^ 32) step 0, digestAt p p.incumbent (2 ^ 32) step 0 with
    | some a, some b =>
      if a ≠ b then failProving s 3 a b step
      else
        let n := (p.digests.filter (fun e => e.1.1 == p.subject && e.1.2.1 == 2 ^ 32 &&
          digestAt p p.incumbent (2 ^ 32) e.1.2.2.1 0 == some e.2)).length
        if n ≥ max 16 (Config.proveSteps p.subject) then passProving s else s
    | _, _ => s

/-- PROVE_DIGEST_RX (R438): the master takes a digest; the candidate's first shows that it is LOCKED with its links keyed, which
passes phase 1. -/
def execProveDigestRx (via : RecVia) (m : Rcv) (s : State) : Host.Outcome State Fault Refusal :=
  .next (if m.mkind ≠ 0x16 then s else
    let r := arriveRcv via m true s
    let s := r.1
    let p := s.rseq.prove
    if !r.2 || p.phase = 0 || p.phase ≥ 4 then s
    else
      let g := m.srcGw.toNat
      let s := if p.phase = 1 && g = p.subject then
          stateDone (logProve (setProve s { p with phase := 2, startSf := s.sf }) 0 0 0)
        else s
      if m.arg = 2 then takeStateDigest s g m.matrix.toNat m.value.toNat
      else if m.arg = 3 then takeStepDigest s g (ciidStep m.ciid) m.value.toNat
      else s)

/-- PROVE_LINKS_TIMEOUT (R438): phase 1 is not passed within 2^REJOIN superframes. -/
def execProveLinksTimeout (s : State) : Host.Outcome State Fault Refusal :=
  let p := s.rseq.prove
  .next (if p.phase = 1 && s.sf ≥ p.startSf + 2 ^ fldV s .rseq 0x50 4 0 then failProving s 1 0 0 0 else s)

/-- R439: the incumbent is lost or has quarantined a tile: the next one, and phase 3 again. -/
def renewIncumbent (s : State) : State :=
  let p := s.rseq.prove
  if p.phase = 0 || p.phase ≥ 4 || (!s.rseq.lost.contains p.incumbent && !hasQuarantine s p.incumbent) then s
  else setProve s { p with incumbent := incumbentOf s p.subject, digests := p.digests.filter (fun e => e.1.2.1 != 2 ^ 32) }

/-! ## Proving at the candidate, the survivors and the incumbent (R438) -/

/-- R425, R439: PROVE_DIGEST to the master. -/
def sendDigest (s : State) (job step matrix phase v subject : Nat) : State :=
  let r := nextSerial s
  sendMaster r.1 (.rcv (sealRcv (mkRcv r.1 0x16 (masterGw r.1) 0 r.2 0 (mkCiid job step 0 0) subject phase r.1.sf v matrix)))

/-- R438: the digest of a quantity: the XOR of the VALUE_CHECKs of its chunks. -/
def heldDigest (s : State) (job : Nat) (m : Matrix) (q : Nat) : Nat :=
  (List.range (qtyChunks m (qtyType m q))).foldl (fun d i => d ^^^ crc64 (heldChunk s job m q i)) 0

/-- The gateways that the roster lists as PROVING. -/
def provingGws (s : State) : List Nat := rosterGws s (· == 2)

/-- R257: a home whose partner is lost replicates its previous bank too. -/
def replicatePrev (s : State) (g job : Nat) (m : Matrix) : State :=
  let j := jobOf s job
  if m.home ≠ gw s || !j.prev || j.epoch = 0 then s
  else replicateTo s g job m 1 2 (j.epoch - 1) m.wType (qtyChunks m m.wType) (fun i =>
    memBytes s.mem (homeBank m (j.epoch - 1) + i * recChunk m.wType) (chunkLen m.wType (m.rows * m.cols) i))

/-- R257, R438: a survivor begins to replicate to a candidate once a link to it is UP. -/
def beginReplicas (s : State) (g : Nat) : State :=
  if g = gw s || s.rseq.repFor.contains g || !(upLinks s).any (fun l => linkPeer s l == g) then s
  else
    let s := { s with rseq := { s.rseq with repFor := g :: s.rseq.repFor } }
    ((sharedWith s g).filter (fun e => e.2.2 == gw s)).foldl
      (fun s e => (qtysOf e.2.1).foldl (fun s q => replicateQty s g e.1 e.2.1 q) (replicatePrev s g e.1 e.2.1)) s

/-- R438: a survivor's digests whose replicas the candidate has acknowledged. -/
def sendDue (s : State) (d : Nat × Nat × Nat × Nat) : State :=
  let open_ := s.stTx.any (fun x => x.rcd.hdr.kind == 1 && x.rcd.hdr.dstGw.toNat == d.2.2.2 && x.rcd.hdr.job.toNat == d.1 &&
    x.rcd.hdr.matrix.toNat == d.2.1 && x.rcd.hdr.qty.toNat == d.2.2.1)
  if open_ then s
  else
    let s := { s with rseq := { s.rseq with stDue := s.rseq.stDue.erase d } }
    match matrixOf s d.1 d.2.1 with
    | some m => sendDigest s d.1 0 d.2.1 2 (heldDigest s d.1 m d.2.2.1) d.2.2.2
    | none => s

/-- R438: whether a candidate has every chunk of a quantity, by the VALUE_CHECKs taken. -/
def qtyArrived (s : State) (job : Nat) (m : Matrix) (q : Nat) : Bool :=
  let j := jobOf s job
  (List.range (qtyChunks m (qtyType m q))).all (fun i => (mget? j.repl (j.epoch, m.matrix, q, i)).isSome)

/-- R438: the candidate's digests of the quantities that have arrived, in the order of each matrix. -/
def candidateDigests (s : State) : State :=
  (sharedWith s (gw s)).foldl (fun s e => (qtysOf e.2.1).foldl (fun s q =>
    let before := (qtysOf e.2.1).filter (· < q)
    if s.rseq.stSent.contains (e.1, e.2.1.matrix, q) || !qtyArrived s e.1 e.2.1 q ||
        before.any (fun b => !s.rseq.stSent.contains (e.1, e.2.1.matrix, b)) then s
    else
      let s := { s with rseq := { s.rseq with stSent := (e.1, e.2.1.matrix, q) :: s.rseq.stSent } }
      sendDigest s e.1 0 e.2.1.matrix 2 (heldDigest s e.1 e.2.1 q) (gw s)) s) s

/-- R438: a proving plan: no descriptors, at least 16 steps. -/
def isProving (x : Slot) : Bool :=
  x.st == .loaded && (match x.plan with | some p => p.count ≥ 16 && p.steps.all (fun st => st.descs.isEmpty) | none => false)

/-- R438: whether this gateway is to run a proving plan for a candidate: itself, once its digests are sent, or the incumbent. -/
def runsProof (s : State) (g : Nat) : Bool :=
  if g = gw s then
    s.mode == some .recovery && (sharedWith s g).all (fun e => (qtysOf e.2.1).all (fun q => s.rseq.stSent.contains (e.1, e.2.1.matrix, q)))
  else incumbentOf s g == gw s && rosterSt s (gw s) == 1 && !hasQuarantine s (gw s)

/-- R438: the recovery sequencer starts the proving plan of a slot. -/
def startProof (s : State) (i : Nat) : State :=
  match slotPlan s i with
  | none => s
  | some p => startTiles { s with rseq := { s.rseq with compute := some i, pdig := [] } } i p p.first

/-- R438 at a superframe boundary: what the roster's candidates ask of this gateway. -/
def proveTick (s : State) : State :=
  let gs := provingGws s
  let s := { s with rseq := { s.rseq with repFor := s.rseq.repFor.filter (fun g => gs.contains g) } }
  let s := gs.foldl beginReplicas s
  let s := s.rseq.stDue.foldl sendDue s
  let s := if gs.contains (gw s) then candidateDigests s else s
  if s.rseq.compute.isSome then s
  else match ([0, 1] : List Nat).find? (fun i => isProving (slotOf s i)) with
    | some i => if gs.any (runsProof s) then startProof s i else s
    | none => s

/-! ## The watch over the gateways (R428, R437) -/

/-- R257, R437: whether a gateway holds nothing any more: lost, RETIRED, or not yet proven. -/
def goneGw (s : State) (g : Nat) : Bool := s.rseq.lost.contains g || rosterSt s g == 2 || rosterSt s g == 3

/-- R437, R439: SHARD_LOST for a job a matrix of which has lost both holders. -/
def shardCheck (s : State) (g : Nat) : State :=
  let jobs := ((sharedWith s g).filter (fun e => goneGw s e.2.2)).map (·.1)
  jobs.eraseDups.foldl (fun s j =>
    let z := (oldestOf s j).getD 0
    raiseSubj s .rseq 0x3703 0 (mkCiid j z 0 (replayOf s j z)) g) s

/-- R428, R437: a gateway is lost: GATEWAY_LOST with it as the subject, for a job. -/
def loseGateway (s : State) (g : Nat) (att : BitVec 64) : State :=
  let s := { s with rseq := { s.rseq with lost := g :: s.rseq.lost } }
  shardCheck (renewIncumbent (raiseSubj s .rseq 0x3702 0 att g)) g

/-- GATEWAY_LIVE_TIMEOUT (R428): a master with quorum has had no LIVE from a gateway for 4 audit periods. -/
def execGatewayLiveTimeout (g : Fin 2048) (s : State) : Host.Outcome State Fault Refusal :=
  let since := match s.rseq.watchSf with | some n => decide (s.sf ≥ n + 4 * auditPeriod) | none => false
  .next (if quorum s && since && g.val ≠ gw s && (activeGws s).contains g.val && !s.rseq.lost.contains g.val && !isLive s g.val then
      loseGateway s g.val 0
    else s)

/-- RECOVER_DONE_TIMEOUT (R428): a gateway has not sent RECOVER_DONE within 2^REJOIN superframes of the RECOVER. -/
def execRecoverDoneTimeout (job : BitVec 16) (g : Fin 2048) (s : State) : Host.Outcome State Fault Refusal :=
  let r := jobRec s job.toNat
  .next (if quorum s && r.level ≥ 3 && (awaited s r).contains g.val && (mget? r.done g.val).isNone &&
      s.sf ≥ r.startSf + 2 ^ fldV s .rseq 0x50 4 0 then
      settleCommits .rseq (checkDone (loseGateway s g.val (mkCiid job.toNat r.step 0 r.count)) job.toNat) job.toNat
    else s)

/-- LIVE_RX (R428): the master notes a gateway's LIVE; with quorum it takes what it held. -/
def execLiveRx (via : RecVia) (m : Rcv) (s : State) : Host.Outcome State Fault Refusal :=
  .next (if m.mkind ≠ 0x14 then s else
    let r := arriveRcv via m true s
    let s := r.1
    if !r.2 then s
    else freeHeld { s with rseq := { s.rseq with live := mset s.rseq.live m.srcGw.toNat (s.sf, m.value.toNat) } })

/-- CONSUMER_LOST (R428): a chunk of a cell stays unacknowledged 2^SILENT superframes after CONSUMER_SILENT. -/
def execConsumerLost (cell : Fin 16384) (s : State) : Host.Outcome State Fault Refusal :=
  let cl := cellOf s cell.val
  let due := fun (o : OwedChunk) => o.silent && !o.acked && decide (s.sf ≥ o.sf + 2 ^ fldV s .rseq 0x50 28 24)
  .next (match cl.deliv.find? (fun e => e.2.any due) with
    | none => s
    | some (rank, _) =>
      if cl.st ≠ .complete then s
      else
        let org := match mget? cl.bound rank with | some b => b.1 | none => .win 0
        let d := cl.deliv.map (fun e => (e.1, e.2.map (fun o => if due o then { o with sf := s.sf } else o)))
        raiseFor (setCell s cell.val { cl with deliv := d }) (tmOf s org) 0x3701 0 cl.ciid)

/-- REPLAN_LATE (R433): a plan held after a quarantine has had no REPLACE within 2^REPLAN superframes. -/
def execReplanLate (slot : Fin 2) (s : State) : Host.Outcome State Fault Refusal :=
  .next (match mget? s.rseq.heldSf slot.val with
    | none => s
    | some n =>
      if (slotOf s slot.val).st ≠ .held || s.sf < n + 2 ^ fldV s .rseq 0x50 12 8 then s
      else raise { s with rseq := { s.rseq with heldSf := mdel s.rseq.heldSf slot.val } } .rseq 0x3706 0)

/-- CHARGE_AGE_OUT (R433): charges that have left the quarantine window. -/
def execChargeAgeOut (t : Fin 64) (s : State) : Host.Outcome State Fault Refusal :=
  let win := 2 ^ fldV s .rseq 0x50 20 16
  let l := (mget s.rseq.charges t []).filter (fun n => s.sf < n + win)
  .next (if l = mget s.rseq.charges t [] then s else { s with rseq := { s.rseq with charges := mset s.rseq.charges t l } })

/-! ## Requests at the master (R420, R421) -/

/-- What the master notes of a report of an attempt: the step a gateway has begun and the highest count of it. -/
def noteAttempt (s : State) (g : Nat) (c : BitVec 64) : State :=
  let job := ciidJob c
  let r := jobRec s job
  let z := ciidStep c
  setJobRec s job { r with started := if !namesStep c then r.started else mset r.started g z,
                           maxCount := if !namesStep c then r.maxCount else mset r.maxCount z (max (mget r.maxCount z 0) (ciidReplay c)) }

/-- RECOVER_REQ_RX (R420, R421, R439). -/
def execRecoverReqRx (via : RecVia) (m : Rcv) (s : State) : Host.Outcome State Fault Refusal :=
  .next (if m.mkind ≠ 0x10 then s else
    let r := arriveRcv via m true s
    let s := r.1
    if !r.2 then s
    else
      let g := m.srcGw.toNat
      let code := m.code.toNat
      let s := if (code = 0x3801 || code = 0x3705) && !s.rseq.quarGws.contains g then
          renewIncumbent { s with rseq := { s.rseq with quarGws := g :: s.rseq.quarGws } }
        else s
      let p := s.rseq.prove
      if g = p.subject && 1 ≤ p.phase && p.phase ≤ 3 && code ≠ 0 then
        (if codeClass code = 4 then failProving s 4 0 0 0 else noteWait s)
      else
        let s := masterRequest (noteAttempt s g m.ciid) ⟨m.level.toNat, code, m.ciid, m.subjectGw.toNat⟩
        if m.level = 4 && goneGw s m.subjectGw.toNat && code ≠ 0x3702 then shardCheck s m.subjectGw.toNat else s)

/-- RECOVER_DONE_RX (R427). -/
def execRecoverDoneRx (via : RecVia) (m : Rcv) (s : State) : Host.Outcome State Fault Refusal :=
  .next (if m.mkind ≠ 0x12 then s else
    let r := arriveRcv via m true s
    let s := r.1
    if !r.2 then s
    else
      let job := ciidJob m.ciid
      -- R429: a new master continues after the highest serial reported to it
      let s := { s with rseq := { s.rseq with serial := max s.rseq.serial m.serial.toNat } }
      let s := noteAttempt s m.srcGw.toNat m.ciid
      let q := jobRec s job
      if q.level < 3 || q.serial ≠ m.serial.toNat then s
      else settleCommits (recPage via) (checkDone (setJobRec s job { q with done := mset q.done m.srcGw.toNat m.value.toNat }) job) job)

/-! ## Rollback at a gateway (R422, R430, R437) -/

/-- Whether a CIID names an attempt that a rollback to step z under a count undoes. -/
def undone (s : State) (job z count : Nat) (c : BitVec 64) : Bool :=
  ciidJob c == job && !stepBefore s job (ciidStep c) z && (ciidStep c != z || ciidReplay c < count)

/-- R44, R422 order 1: the recovery sequencer halts a tile and holds it: its page is HALTED until the release. -/
def holdTile (s : State) (t : Fin 64) : State :=
  let s := haltTile s t
  let s := setPage s (.tile t) ((pageOf s (.tile t)).halt (epochNow s (.tile t)))
  setTile s t { tileOf s t with held := true, todo := none, failed := false }

/-- R44, R216: the recovery sequencer releases the tiles it holds. -/
def releaseTiles (s : State) : State :=
  (List.finRange 64).foldl (fun s t =>
    if (tileOf s t).held then
      let s := setPage s (.tile t) { pageOf s (.tile t) with halted := false }
      setTile s t { tileOf s t with held := false, failed := false, todo := none, seq := .idle, active := false }
    else s) s

/-- R422 order 1: the tiles of a job halt, and the recovery sequencer holds them. -/
def haltJob (s : State) (job : Nat) : State :=
  (List.finRange 64).foldl (fun s t =>
    let mine := [slotOf s 0, slotOf s 1].any (fun x => match x.plan with
      | some p => p.job == job && bit p.tileMask t.val && x.st ∈ [SlotSt.active, .next, .held, .done]
      | none => false)
    if mine then holdTile s t else s) s

/-- R80, R97: a held contribution completes with STEP_REPLAYED, once per member of its instance. -/
def replayedHeld (s : State) (org : Origin) (p : Packet) (n : Nat) : State :=
  let ir := instRec s p.hdr.ciid
  let rank := p.hdr.member.toNat
  let s := if ir.answered.contains rank then s
    else sendComplete (setInst s p.hdr.ciid { ir with answered := ir.answered ++ [rank] }) org { p.hdr with chunkCount := 0 } 0x3101 []
  markDone s (fun f => f.seq == n) 0x3101

/-- R422 order 2: the cells and held inputs of the attempts undone; contributions complete with STEP_REPLAYED. -/
def freeJob (s : State) (un : BitVec 64 → Bool) : State :=
  let s := (s.coll.cells.filter (fun e => e.2.st != .free && un e.2.ciid)).foldl (fun s e => rollCell s e.1) s
  let gone := s.coll.held.filter (fun i => un i.ciid)
  let s := { s with coll := { s.coll with held := s.coll.held.filter (fun i => !un i.ciid) } }
  gone.foldl (fun s i =>
    let s := releaseOpt s i.tray
    match i.input with
    | .contrib n org via p =>
      let k : Ctx := ⟨via, org, p, n⟩
      let s := if i.upstream then releaseCredits s org k.vc k.cost else s
      replayedHeld s org p n
    | .record _ _ => s) s

/-- R422 order 3: units on the line that belong to the attempts undone are discarded, with their credits. -/
def freeUnits (s : State) (un : BitVec 64 → Bool) : State :=
  let mine := fun (u : Unit) => match u.body with | .rcd r => un r.hdr.ciid | _ => false
  let gone := s.line.inbox.filter mine
  gone.foldl (fun s u => freeRx s u.link u.vc u.seq)
    { s with line := { s.line with inbox := s.line.inbox.filter (fun u => !mine u) } }

/-- R256: the momentum chunks that an outer step has written, fetched back from the partner. -/
def restoreMomentum (s : State) (job : Nat) (x : Nat × Nat) : State :=
  match matrixOf s job x.1 with
  | none => s
  | some m =>
    let j := jobOf s job
    let tag := (s.stTag + 1) % 2 ^ 32
    let s := setJob { s with stTag := tag } job { j with restore := j.restore.concat x }
    fetchRange s m.partner job 1 j.epoch m.matrix 2 x.2 1 tag

/-- R256, R422 order 4: an outer step among the steps undone: what its update and its phase 1 wrote goes, also at a gateway whose own
tiles have not begun it. The publish notice commits the step: then nothing is undone (R253). -/
def undoOuter (s : State) (job z : Nat) (all : Bool) : State :=
  let j := jobOf s job
  let kept := j.pub.isSome || (match j.outer with | some (st, _) => stepBefore s job st z | none => false)
  if !all && kept then s
  else
      let e := j.epoch + 1
      let s := setJob s job { j with outer := none, momWritten := [], readies := [], readySent := j.readySent.filter (· != e),
                                     repl := j.repl.filter (fun x => x.1.1 != e) }
      let s := { s with stTx := s.stTx.filter (fun x => !(x.rcd.hdr.job.toNat == job && x.rcd.hdr.kind == 1 &&
                                                          x.rcd.hdr.epoch.toNat == e)) }
      if all then s else j.momWritten.foldl (fun s x => restoreMomentum s job x) s

/-- What the plans, launches, cross-checks, records of instances (R499) and projection states of a job keep of the attempts undone. -/
def undoPlans (s : State) (job z count : Nat) (un : BitVec 64 → Bool) : State :=
  let gone := fun (k : Nat × Nat × Nat) =>
    k.1 == job && !committed s job k.2.1 && !stepBefore s job k.2.1 z && !(k.2.1 == z && k.2.2 ≥ count)
  { s with plans := { s.plans with
                        tried := s.plans.tried.filter (fun k => !gone k),
                        rolled := s.plans.tried.filter gone ++ s.plans.rolled,
                        launches := s.plans.launches.filter (fun l => !un l.ciid),
                        opens := s.plans.opens.filter (fun o => !(o.job == job && !stepBefore s job o.step z)) },
           coll := { s.coll with
                       insts := s.coll.insts.filter (fun e => !un e.1),
                       xchks := s.coll.xchks.filter (fun k => !un k.ciid),
                       psts := s.coll.psts.map (fun e => if e.1.1 = job then (e.1, { e.2 with next := none }) else e) },
           rseq := { s.rseq with rolledSince := true },
           commits := s.commits.filter (fun c => !(c.job == job && !stepBefore s job c.step z)) }

/-- R437: the links to the subject: keys erased, DOWN, counts reset; they are enabled again at the next superframe. -/
def resetPeer (s : State) (g : Nat) : State :=
  (allLinks.filter (fun l => (llink s l).en && linkPeer s l == g)).foldl (fun s l =>
    let s := setLCiph s l (eraseLink (lciph s l) false)
    let s := (linkSlots s l).foldl (fun s k => setLSlot s l.1 k { LSlot.reset with changeSf := s.sf }) s
    let s := resetLink s l
    setLLink s l { llink s l with en := false, lost := false }) s

/-- R437: the subject of level 4, alive, halts every block. -/
def haltAll (s : State) : State :=
  let s := { s with pages := s.pages.map (fun e => (e.1, e.2.halt (epochNow s e.1))) }
  (List.finRange 64).foldl (fun s t => if tileBusy (tileOf s t) then haltTile s t else s) s

/-- R430: level 5: the slots of the job empty, its images go, and its areas are empty until SET_EPOCH. With its RECOVER_DONE the
gateway releases the tiles, which have no step left to run (DEDUCED, entry 115). -/
def restartJob (s : State) (job : Nat) : State :=
  let s := ([0, 1] : List Nat).foldl (fun s i => match (slotOf s i).plan with
    | some p => if p.job = job then clearSlot s i else s
    | none => s) s
  let s := releaseImages (withdrawJob s job) (fun i => i.job == job)
  let j := jobOf s job
  let s := { s with stTx := s.stTx.filter (fun x => x.rcd.hdr.job.toNat != job) }
  setJob (releaseTiles s) job { j with written := [], marks := [], repl := [], restore := [], momWritten := [], outer := none,
                                       readies := [], readySent := [], pub := none, lost := true }

/-- R422 order 6, R424: RECOVER_DONE: the highest count of step z that this gateway has begun, and the latest step begun. -/
def doneMsg (s : State) (m : Rcv) (last : Nat) : Rcv :=
  let job := ciidJob m.ciid
  let z := ciidStep m.ciid
  sealRcv (mkRcv s 0x12 (masterGw s) m.level.toNat m.serial.toNat m.code.toNat
    (mkCiid job z 0 (ownCount s job z)) m.subjectGw.toNat 0 s.sf last 0)

/-- R422, R430, R437: a RECOVER carried out. -/
def rollBack (s : State) (m : Rcv) : State :=
  let job := ciidJob m.ciid
  let z := ciidStep m.ciid
  let count := ciidReplay m.ciid
  let all := decide (m.level.toNat = 5)
  let un := fun (c : BitVec 64) => if all then ciidJob c == job else undone s job z count c
  -- the message names the latest step begun before the rollback
  let last := latestOf s job
  let s := { s with rseq := { s.rseq with serial := m.serial.toNat, showStep := z, showCount := count,
                                          showSubject := m.subjectGw.toNat, showCode := m.code.toNat,
                                          resumes := s.rseq.resumes.filter (fun r => r.job != job),
                                          halted := s.rseq.halted.filter (· != job) ++ (if all then [] else [job]) } }
  let s := Sys2Proof.Machine.count (setLevel s job m.level.toNat m.code.toNat m.subjectGw.toNat m.ciid) .rseq 0 1
  let cells := (s.coll.cells.filter (fun e => e.2.st != .free && un e.2.ciid)).map (·.1)
  let s := freeUnits (freeJob (haltJob s job) un) un
  let s := undoPlans (undoOuter s job z all) job z count un
  -- the cells are FREE: what waits for them arms them (R123, R126)
  let s := cells.foldl (fun s k => takeHeld (armOpen s k) k) s
  let s := if all then restartJob s job
           else { s with plans := { s.plans with replay := mset s.plans.replay (job, z) count } }
  let s := if m.level = 4 then resetPeer s m.subjectGw.toNat else s
  { s with rseq := { s.rseq with lastDone := mset s.rseq.lastDone job (doneMsg s m last) } }

/-- RECOVER at a gateway: a lower serial, or an attempt already rolled back, is discarded; the same serial again is answered
again. -/
def takeRecover (m : Rcv) (s : State) : State :=
  let job := ciidJob m.ciid
  let n := m.serial.toNat
  let again := match mget? s.rseq.lastDone job with | some d => d.serial == m.serial | none => false
  if n < s.rseq.serial || m.level.toNat < 3 then s
  else if again then restoreDone s job
  else if m.level = 4 && m.subjectGw.toNat = gw s then
    haltAll (setLevel { s with rseq := { s.rseq with serial := n } } job 4 m.code.toNat (gw s) m.ciid)
  else if m.level.toNat < 5 && ciidReplay m.ciid < replayOf s job (ciidStep m.ciid) then noteWait s
  else restoreDone (rollBack s m) job

/-- RECOVER_RX (R422). -/
def execRecoverRx (via : RecVia) (m : Rcv) (s : State) : Host.Outcome State Fault Refusal :=
  .next (if m.mkind ≠ 0x11 then s else
    let r := arriveRcv via m false s
    if r.2 then takeRecover m r.1 else r.1)

/-! ## Replay (R427) -/

/-- R427: the steps of a job from z to y in plan order, as the plans in force hold them. -/
def stepsFrom (s : State) (job z y : Nat) : List Nat :=
  let f := fun (x : Slot) => match x.plan with
    | some p => if p.job = job && inForce x then p.steps.map (fun (t : PlanStep) => t.step) else []
    | none => []
  z :: (f s.plans.slot0 ++ f s.plans.slot1).filter (fun n => n != z && !stepBefore s job n z && !stepBefore s job y n)

/-- R427 order 4: the slot that holds step z runs again, and a following slot that had begun returns to NEXT. -/
def rewindSlots (s : State) (job : Nat) (i : Nat) : State :=
  let x := slotOf s i
  let y := slotOf s (1 - i)
  let s := setSlot s i { x with st := if x.st = .done then .active else x.st, lastEnded := [] }
  match y.plan with
  | some q =>
    if q.job = job && x.st = .done && y.st = .active then setSlot s (1 - i) { y with st := .next, lastEnded := [] }
    else if q.job = job && y.st = .next then setSlot s (1 - i) { y with lastEnded := [] }
    else s
  | none => s

/-- R427 order 4: the tiles of the job are released: steps z to y run under the assigned count. -/
def resumeJob (s : State) (r : Resume) : State :=
  let s := { s with rseq := { s.rseq with resumes := s.rseq.resumes.filter (fun x => x.job != r.job),
                                          halted := s.rseq.halted.filter (· != r.job) } }
  let s := { s with plans := { s.plans with replay := (stepsFrom s r.job r.step r.last).foldl (fun m n => mset m (r.job, n) r.count) s.plans.replay } }
  let s := setLevel s r.job 0 s.rseq.showCode s.rseq.showSubject (mkCiid r.job r.step 0 r.count)
  let s := releaseTiles s
  let s := match (planPos s r.job r.step).map (·.2.1) with
    | none => s
    | some i =>
      let s := rewindSlots s r.job i
      match slotPlan s i with
      | some p => startTiles s i p r.step
      | none => s
  takeHeldIf s (fun i => ciidJob i.ciid == r.job && attempt s i.ciid != .later)

/-- RESUME_RX (R427): kept for Rz, or begun at once with RESUME_LATE. -/
def execResumeRx (via : RecVia) (m : Rcv) (s : State) : Host.Outcome State Fault Refusal :=
  .next (if m.mkind ≠ 0x13 then s else
    let r := arriveRcv via m false s
    let s := r.1
    if !r.2 || m.serial.toNat < s.rseq.serial then s
    else
      let x : Resume := ⟨ciidJob m.ciid, ciidStep m.ciid, ciidReplay m.ciid, m.sf.toNat, m.value.toNat⟩
      if s.sf ≥ x.rz then resumeJob (raise s .rseq 0x1702 0) x
      else { s with rseq := { s.rseq with resumes := s.rseq.resumes.filter (fun y => y.job != x.job) ++ [x] } })

/-- RESUME_AT_RZ (R427). -/
def execResumeAtRz (job : BitVec 16) (s : State) : Host.Outcome State Fault Refusal :=
  .next (match s.rseq.resumes.find? (fun r => r.job == job.toNat) with
    | none => s
    | some r => if s.sf < r.rz then s else resumeJob s r)

/-! ## The roster (R436) -/

/-- ROSTER_RX (R436, R438): the master's entry over the gateway's own; a candidate that has passed enters SERVICE. -/
def execRosterRx (via : RecVia) (m : Rcv) (s : State) : Host.Outcome State Fault Refusal :=
  .next (if m.mkind ≠ 0x15 then s else
    let r := arriveRcv via m false s
    let s := r.1
    let g := m.subjectGw.toNat
    if !r.2 || g ≥ 2048 || via = .own then s
    else
      let was := rosterSt s g
      let s := setRoster s g ⟨m.arg.toNat % 4, m.value⟩
      if gwNum s = some g && was = 2 && m.arg = 1 && s.mode = some .recovery then enterMode s .service else s)

/-- R436, R438, R440: a register write has changed an entry of the roster. -/
def rosterWritten (s : State) (g off : Nat) : State :=
  let ent : RosterEnt := ⟨rosterSt s g, BitVec.ofNat 64 (rosterFp s g)⟩
  let s := { s with rseq := { s.rseq with fpNew := if off = 0x64 then s.rseq.fpNew.filter (· != g)
                                                   else if s.rseq.fpNew.contains g then s.rseq.fpNew else g :: s.rseq.fpNew } }
  let s := logRoster s g ent
  let s := if s.lt.st = .master then floodRoster s g ent else s
  if off = 0x64 && ent.st = 2 then beginProving s g else s

/-- R440: RS_CMD.GO: a request at a level for a job, naming the oldest uncommitted step that has begun here. -/
def rsCommand (s : State) (level job : Nat) : State :=
  let c := match oldestOf s job with
    | some z => mkCiid job z 0 (replayOf s job z)
    | none => mkCiid job 0 0 0
  sendRecoverReq s level 0 c (gw s)

/-! ## The error log (R434, R435, R441) -/

/-- R435: the 64 bytes of an entry. -/
def LogEnt.bytes (e : LogEnt) : Bytes :=
  beBytes 8 e.sf ++ beBytes 2 e.code ++ beBytes 1 e.kind ++ beBytes 1 e.level ++ beBytes 2 e.page ++ [0, 0] ++
  beBytes 4 e.info.toNat ++ beBytes 4 e.serial ++ beBytes 8 e.ciid.toNat ++ e.extra

/-- R441: EL_SEL latches an entry. -/
def latchEntry (s : State) : State :=
  let i := fldV s .elog 0x48 11 0
  let l := if fldV s .elog 0x48 16 16 = 1 then s.elog.flash else s.elog.ring
  let b := match l[i]? with | some e => e.bytes | none => List.replicate 64 0
  latchAll s .elog ((List.range 16).map (fun k => (0x80 + 4 * k, beAt b (4 * k) 4)))

/-- R441: EL_CLEAR.GO. -/
def clearLog (s : State) : State := { s with elog := { s.elog with ring := [] } }

/-! ## A new master (R429) -/

def annKey (a : Ann) : Nat := (a.serial.toNat * 256 + a.prio) * 65536 + a.gw

/-- R429: HARVEST again for the uncommitted steps of a slot that are harvested here. -/
def resendHarvest (s : State) (i : Nat) : State :=
  match slotPlan s i with
  | none => s
  | some p => ((slotOf s i).begun.filter (fun n => !committed s p.job n && s.plans.tried.contains (p.job, n, replayOf s p.job n))).foldl (fun s n =>
      match p.stepOf n with
      | none => s
      | some st =>
        let r := replayOf s p.job n
        let closed := !s.plans.opens.any (fun o => o.job == p.job && o.step == n && o.replay == r)
        let done := if st.descs.isEmpty then closed else st.descs.all (fun d => (instRec s (d.full r)).harvested)
        if done then sendMaster s (.ctl (mkCtl s 3 0 (mkCiid p.job n 0 r) 0 0 0)) else s) s

/-- R429: READY again for an epoch that is not yet published. -/
def resendReady (s : State) (x : Nat × Job) : State :=
  let e := x.2.epoch + 1
  if x.2.readySent.contains e && x.2.pub.isNone then
    sendMaster s (.ctl (mkCtl s 5 0 (mkCiid x.1 0 0 0) e 0 (match x.2.tab with | some t => t.digest.toNat | none => 0)))
  else s

/-- R429: what the gateway owes a master it has adopted: failure notices, the messages it holds, RECOVER_DONE, HARVEST and READY
of uncommitted steps, and LIVE. -/
def reportTo (s : State) : State :=
  let bad := s.coll.cells.filter (fun e => isErr e.2.st && !e.2.remote && (instRec s e.2.ciid).decided.isNone)
  let s := bad.foldl (fun s e => sendNotice s e.2) s
  let owed := s.rseq.owed
  let s := owed.foldl sendMaster { s with rseq := { s.rseq with owed := [] } }
  let s := (s.rseq.lastDone.filter (fun e => e.2.serial.toNat == s.rseq.serial && (jobOf s e.1).restore.isEmpty)).foldl
    (fun s e => sendMaster s (.rcv e.2)) s
  let s := s.outer.foldl resendReady (resendHarvest (resendHarvest s 0) 1)
  let s := sendLive s
  -- a gateway that becomes master floods a publish it already holds
  if s.lt.st = .master then
    s.outer.foldl (fun s x => match x.2.pub with
      | some (e, p) => masterSends s (.ctl (mkCtl s 6 0 (mkCiid x.1 0 0 0) e p 0))
      | none => s) s
  else s

/-- The recovery sequencer at a superframe boundary: a new master, its watch, and proving. -/
def recoveryTick (s : State) : State :=
  let now := s.lt.ann.map annKey
  let s := { s with rseq := { s.rseq with watchSf := if s.lt.st = .master then (if s.rseq.watchSf.isSome then s.rseq.watchSf else some s.sf)
                                                     else none } }
  let s := if now.isSome && now ≠ s.rseq.adopted then
      reportTo { s with rseq := { s.rseq with adopted := now } }
    else s
  proveTick (freeHeld s)

end Sys2Proof.Machine
end

