-- ==== Sys2Proof/Machine/Boot.lean ====
section
/-! DEFINITION. Machine/Boot.lean: power, identity, images and boot modes (R443 to R469, R482). -/
namespace Sys2Proof.Machine
open Sys2Proof

/-! ## Power (R445, R463, R482) -/

/-- What lasts through a loss of power and a reset: module flash with its torn records (R434, R450), the input and the pins, which
cartridges stand in the bays, and the outside's record of what the gateway did. -/
def cleared (s : State) : State :=
  let b := s.boot
  { State.reset with
    pending := s.pending, out := s.out, elog := { Elog.reset with flash := s.elog.flash },
    ciph := { Ciph.reset with draws := s.ciph.draws },
    light := { Light.reset with p0s := s.light.p0s,
                                carts := s.light.carts.map (fun e => (e.1, { Cart.empty with present := e.2.present })) },
    boot := { Boot.reset with vin := b.vin, fuse := b.fuse, trip := b.trip, helper := b.helper, chain := b.chain,
                              stored := b.stored, serial := b.serial, wear := b.wear, perst := b.perst, torn := b.torn } }

/-- R450: flash records that a loss of power leaves torn: of the object of a kind (1 to 7) the bytes written, 8 the P0 table, 9 the
error log. -/
def tear (s : State) (t : Nat × Nat) : State :=
  let b := s.boot
  if t.1 = 8 ∨ t.1 = 9 then { s with boot := { b with torn := (t.1 - 8) :: b.torn.filter (· != t.1 - 8) } }
  else match mget? b.stored t.1 with
    | some l => { s with boot := { b with stored := mset b.stored t.1 (l.take t.2) } }
    | none => s

/-- VIN_CONTACT (R482, R491): the input makes contact, and the bulk capacitance charges, unless the fuse is open. A thermal trip is
over once VIN has been absent for a second. -/
def execVinContact (absentMs : Nat) (s : State) : Host.Outcome State Fault Refusal :=
  .next (if s.boot.vin || s.boot.fuse then s
    else { s with boot := { s.boot with vin := true, trip := s.boot.trip && decide (absentMs < 1000) } })

/-- VIN_LOSS (R463, R482): every contact loses power at once. -/
def execVinLoss (torn : List (Nat × Nat)) (s : State) : Host.Outcome State Fault Refusal :=
  .next (if !s.boot.vin then s
    else
      let s := cleared (torn.foldl tear s)
      { s with boot := { s.boot with vin := false } })

/-- INPUT_FUSE_OPEN (R482): the 90 A fuse opens, and does not reset. -/
def execInputFuseOpen (s : State) : Host.Outcome State Fault Refusal :=
  .next (if !s.boot.vin then s
    else
      let s := cleared s
      { s with boot := { s.boot with vin := false, fuse := true } })

/-- PERST_DEASSERT (R445): the port begins link training. -/
def execPerstDeassert (s : State) : Host.Outcome State Fault Refusal :=
  .next { s with boot := { s.boot with perst := true } }

/-- PCIE_CONFIG_REQUEST (R445): retry status until BARE is entered, then an answer in full. -/
def execPcieConfigRequest (off : BitVec 12) (s : State) : Host.Outcome State Fault Refusal :=
  .next (if !s.boot.reg || !s.boot.perst then s
    else if s.mode.isNone then emit s .retry
    else emit { s with boot := { s.boot with hostUp := true } } (.config off.toNat (Config.configSpace off.toNat)))

/-! ## Identity (R445 to R450) -/

/-- R450: a flash record is ignored. -/
def flashBad (s : State) : State :=
  raiseLogged { s with boot := { s.boot with macFail := min (s.boot.macFail + 1) 255 } } .boot 0x2407 0

/-- R450: the records that were torn are ignored as if they were absent. -/
def checkFlash (s : State) : State :=
  let b := s.boot
  let s := { s with boot := { b with torn := [] } }
  let s := if b.torn.contains 0 then flashBad { s with light := { s.light with p0s := [] } } else s
  if b.torn.contains 1 then flashBad { s with elog := { s.elog with flash := [] } } else s

/-- R445: BARE is entered, at a time of 13 to 15 ms, 25 ms later for each further read. -/
def enterBare (s : State) (ms : Fin 3) : State :=
  let b := s.boot
  enterMode { s with boot := { b with stage := 2, bareMs := 13 + ms.val + 25 * b.reads } } .bare

/-- R448: the identity fails with a cause; BARE is entered all the same (R445). -/
def failId (s : State) (cause : Nat) (ms : Fin 3) : State :=
  enterBare (raiseLogged { s with boot := { s.boot with idState := 2, cause := cause } } .boot 0x4401 cause) ms

/-- R448: the keys from the root, and the checks of the attestation chain. -/
def attestWith (s : State) (root : Bytes) (worst : Nat) (ms : Fin 3) : State :=
  let b := s.boot
  let att := hkdfExpand root sgAttest 48
  let s := { s with boot := { b with worst := worst } }
  if !Config.chainValid b.chain then failId s 3 ms
  else if Config.leafKey b.chain ≠ Config.slhPublic att then failId s 4 ms
  else
    enterBare (checkFlash { s with boot := { s.boot with
      idState := 1, attest := att, flashKey := hkdfExpand root sgFlash 32,
      fp := BitVec.ofNat 64 (fromBe ((sha256 (Config.leafSpki b.chain)).take 8)) } }) ms

/-- R447: one read of the PUF array. -/
def derive (s : State) (cells : Bytes) (ms : Fin 3) : State :=
  let b := s.boot
  if !helperOk b.helper then failId s 1 ms
  else match reconstruct b.helper cells with
    | some (root, worst) => attestWith s root worst ms
    | none => if b.reads ≥ 3 then failId s 2 ms else { s with boot := { b with stage := 1 } }

/-- POWER_UP (R57, R445): the input reaches regulation: the I3C target answers from then on, and the array is read for the first
time. The module's enrolment data are as its flash holds them. -/
def execPowerUp (cells helper chain : Bytes) (serial : BitVec 64) (ms : Fin 3) (s : State) :
    Host.Outcome State Fault Refusal :=
  .next (if !s.boot.vin || s.boot.fuse || s.boot.trip || s.boot.reg then s
    else
      let s := cleared s
      derive { s with boot := { s.boot with reg := true, helper := helper, chain := chain, serial := serial },
                      i3c := { s.i3c with up := true } } cells ms)

/-- PUF_RETRY (R447): the array is powered down for 20 ms and read again, at most three times. -/
def execPufRetry (cells : Bytes) (ms : Fin 3) (s : State) : Host.Outcome State Fault Refusal :=
  .next (if !s.boot.reg || s.mode.isSome || s.boot.stage ≠ 1 || s.boot.reads ≥ 3 then s
    else derive (raiseLogged { s with boot := { s.boot with reads := s.boot.reads + 1 } } .boot 0x0402 0) cells ms)

/-- FUNCTION_LEVEL_RESET (R444): every block stops, keys and objects go, and the identity is derived again. The board
controller's view and the log of the ring run on since power-up (R59, R434). -/
def execFunctionLevelReset (cells : Bytes) (ms : Fin 3) (s : State) : Host.Outcome State Fault Refusal :=
  .next (if s.mode.isNone then s
    else
      let t := cleared s
      derive { t with i3c := s.i3c, elog := s.elog, boot := { t.boot with reg := true, hostUp := s.boot.hostUp } } cells ms)

/-! ## Objects (R451 to R455) -/

/-- R451: the largest body of a kind. -/
def imgLimit : Nat → Nat
  | 1 => 67108864 | 2 => 16777216 | 3 => 4194304 | 4 => 8388608 | 5 => 65536 | 6 => 4096 | _ => 16

/-- R455: the tuples of a MANIFEST or WAIVER body: stepping and epochs. -/
def tuplesOf (body : Bytes) (count : Nat) : List (Nat × List Nat) :=
  (List.range count).map (fun i =>
    let t := slice body (16 + 12 * i) 12
    (byteAt t 0, (List.range 4).map (fun k => beAt t (2 + 2 * k) 2)))

def tupleCount (body : Bytes) : Nat := beAt body 8 4

/-- R455: whether a MANIFEST or WAIVER body is well formed. -/
def bodyOk (kind : Nat) (body : Bytes) : Bool :=
  let n := tupleCount body
  (kind != 5 || beAt body 0 4 == 0x42534D46) && beAt body 12 4 == 0 && 1 ≤ n && n ≤ 4096 &&
  body.length == 16 + 12 * n && (List.range n).all (fun i => byteAt body (17 + 12 * i) == 0)

/-- R454: the first failing check of a signed container, as its status, or 0. -/
def containerBad (kind : Nat) (b : LoadBuf) (l : Bytes) : Nat :=
  let n := beAt l 16 4
  let body := slice l 128 n
  if !b.full || l.length ≠ 128 + n + 29792 then 0x2401
  else if beAt l 0 4 ≠ 0x4253494D || byteAt l 4 ≠ 1 || byteAt l 5 ≠ kind || n = 0 || n > imgLimit kind ||
      byteAt l 7 ≠ 0 || beAt l 14 2 ≠ 0 || beAt l 116 12 ≠ 0 || (kind ≥ 5 && beAt l 12 2 ≠ 0) then 0x2401
  else if (if kind = 6 then byteAt l 6 ≠ 3 else byteAt l 6 > 2) ||
      sha256 (slice l 52 64) ≠ Config.imageKeyHash (byteAt l 6) then 0x2402
  else if !Config.slhVerify256 (slice l 52 64) (l.take 128) (l.drop (128 + n)) then 0x2403
  else if sha256 body ≠ slice l 20 32 then 0x2403
  else if kind ≥ 5 && !bodyOk kind body then 0x2401
  else 0

/-- R459: the check of a POLICY object, or 0. -/
def policyBad (s : State) (b : LoadBuf) (l : Bytes) : Nat :=
  let at' := byteAt l
  if !b.full || l.length ≠ 16 then 0x2401
  else if at' 0 > 3 || at' 1 > 1 || at' 2 > 1 || at' 3 < 32 || at' 3 > 39 || at' 4 < 20 || at' 4 > 32 ||
      (l.drop 5).any (· != 0) || (s.mode ≠ some .test && (at' 0 = 0 || at' 1 = 0)) then 0x2406
  else 0

/-- R459: the security processor writes a policy into the eight CIPH pages. -/
def applyPolicy (s : State) (l : Bytes) : State :=
  let at' := byteAt l
  (List.finRange 4).foldl (fun s q =>
    let s := (writeReg s .sec (.ciph q 0) 0x44 (at' 0 + 4 * at' 1)).1
    let s := (writeReg s .sec (.ciph q 1) 0x44 (at' 0 + 4 * at' 1)).1
    let s := (writeReg s .sec (.ciph q 0) 0x60 (at' 3 + 256 * at' 4)).1
    (writeReg s .sec (.ciph q 1) 0x68 (at' 2)).1) s

/-- R454, R459: the staged object of a kind is checked and committed, with its status. -/
def commitObj (s : State) (kind : Nat) : State × Nat :=
  let bo := s.boot
  let b := mget bo.staged kind LoadBuf.none
  let l := b.bytes
  let code := if kind = 7 then policyBad s b l else containerBad kind b l
  if code ≠ 0 then
    (raiseLogged { s with boot := { bo with refused := kind :: bo.refused.filter (· != kind) } } .boot code kind, code)
  else
    let o : ImgObj := if kind = 7 then ⟨0, 0, 0, [], l, l⟩
      else ⟨beAt l 12 2, byteAt l 6, beAt l 8 4, slice l 20 32, slice l 128 (beAt l 16 4), l⟩
    let s := { s with boot := { bo with objs := mset bo.objs kind o, staged := mdel bo.staged kind,
                                        refused := bo.refused.filter (· != kind) } }
    (if kind = 7 && s.mode ≠ some .bare then applyPolicy s l else s, 0)

/-! ## The image-load opcodes (R453, R454, R456, R460) -/

/-- A request that completes at once under SUCCESS, with a payload. -/
def completeNow (s : State) (k : Ctx) (payload : Bytes) : State × Disp :=
  (sendComplete s k.org k.h 0 payload, .done 0)

/-- R453: IMG_WRITE: a chunk is staged. Chunk 0 discards what came before; a chunk written twice keeps its later payload. -/
def imgWrite (k : Ctx) (s : State) : State × Disp :=
  let kind := k.h.aux.toNat
  let i := k.h.chunkIndex.toNat
  let n := k.h.chunkCount.toNat
  if kind ≠ 7 && s.mode ≠ some .bare then (s, .refuse 0x220F)
  else if n = 0 || i ≥ n then (s, .refuse 0x2207)
  else
    let bo := s.boot
    let b := mget bo.staged kind LoadBuf.none
    let b := if i = 0 || b.count ≠ n then LoadBuf.none else b
    let b := { b with count := n, chunks := mset b.chunks i k.pkt.payload }
    completeNow { s with boot := { bo with staged := mset bo.staged kind b, refused := bo.refused.filter (· != kind) } } k []

/-- R454: IMG_COMMIT. -/
def imgCommit (k : Ctx) (s : State) : State × Disp :=
  let kind := k.h.aux.toNat
  if kind ≠ 7 && s.mode ≠ some .bare then (s, .refuse 0x220F)
  else
    let r := commitObj s kind
    if r.2 ≠ 0 then (r.1, .refuse r.2) else completeNow r.1 k []

/-- R456: whether an object of a kind lists the running tuple, under stepping B1 or under another. -/
def lists (s : State) (kind : Nat) (b1 : Bool) : Bool :=
  let epochs := [1, 2, 3, 4].map (fun k => match mget? s.boot.objs k with | some o => o.epoch | none => 0)
  match mget? s.boot.objs kind with
  | some o => (tuplesOf o.body (tupleCount o.body)).any (fun t => (t.1 == 0xB1) == b1 && t.2 == epochs)
  | none => false

/-- R456: whether a committed waiver admits this module. -/
def waived (s : State) : Bool :=
  match mget? s.boot.objs 6 with
  | some o => s.boot.idState == 1 && beAt o.body 0 8 == s.boot.fp.toNat && lists s 6 true
  | none => false

def modeOf (n : Nat) : Mode := match n with | 1 => .test | 2 => .recovery | 3 => .service | _ => .bare
def modeNum : Option Mode → Nat
  | some .bare => 0 | some .test => 1 | some .recovery => 2 | some .service => 3 | none => 15

/-- R456: the first check of BOOT_GO that fails, with the detail of its first error, or 0. -/
def bootBad (s : State) (m : Nat) : Nat × Nat :=
  match [1, 2, 3, 4, 5].find? (fun k => (mget? s.boot.objs k).isNone) with
  | some k => (0x2404, k)
  | none =>
    if m ≠ 1 && s.boot.idState ≠ 1 then (0x2408, 0)
    else if lists s 5 true || (m = 1 && waived s) then (0, 0)
    else (0x2405, m + 4 * b2n (lists s 6 true) + 8 * b2n (lists s 5 false))

/-- R456, R457: BOOT_GO. -/
def bootGo (k : Ctx) (s : State) : State × Disp :=
  let m := k.h.arg0.toNat % 4
  if s.mode ≠ some .bare then (s, .refuse 0x220F)
  else
    let c := bootBad s m
    let s := { s with boot := { s.boot with lastMode := m, lastCode := c.1 } }
    if c.1 ≠ 0 then (raiseLogged s .boot c.1 c.2, .refuse c.1)
    else
      completeNow { s with boot := { s.boot with going := some (modeOf m), stage := 4, waiver := m == 1 && !lists s 5 true } } k []

/-- R450: the MAC of a flash record, over the record with its kind. -/
def flashMac (s : State) (kind : Nat) (l : Bytes) : Bytes := hmac s.boot.flashKey (BitVec.ofNat 8 kind :: l)

/-- R450: the object of a stored record whose MAC passes. -/
def storedObj (s : State) (kind : Nat) : Option Bytes :=
  match mget? s.boot.stored kind with
  | some r =>
    let l := r.take (r.length - 32)
    if s.boot.idState = 1 && r.length ≥ 32 && r.drop (r.length - 32) == flashMac s kind l then some l else none
  | none => none

/-- R460: FLASH_STORE: the committed objects replace any stored set; waivers are never stored. -/
def flashStore (k : Ctx) (s : State) : State × Disp :=
  let set := [1, 2, 3, 4, 5, 7].filterMap (fun kind => (mget? s.boot.objs kind).map (fun o => (kind, o.whole ++ flashMac s kind o.whole)))
  completeNow { s with boot := { s.boot with stored := set } } k []

/-- R460: the stored objects staged and committed in kind order, up to the first commit that fails. -/
def loadStored : List Nat → State → State × Nat
  | [], s => (s, 0)
  | kind :: l, s =>
    if (mget? s.boot.stored kind).isNone then loadStored l s
    else match storedObj s kind with
      | none => loadStored l (flashBad s)
      | some o =>
        let r := commitObj { s with boot := { s.boot with staged := mset s.boot.staged kind ⟨1, [(0, o)], []⟩ } } kind
        if r.2 ≠ 0 then r else loadStored l r.1

/-- R460: FLASH_LOAD. -/
def flashLoad (k : Ctx) (s : State) : State × Disp :=
  if s.mode ≠ some .bare then (s, .refuse 0x220F)
  else
    let r := loadStored [1, 2, 3, 4, 5, 7] s
    if r.2 ≠ 0 then (r.1, .refuse r.2) else completeNow r.1 k []

/-- R465: BOOT_IMGk.STATE: 0 none, 1 loading, 2 committed, 3 last commit refused. -/
def imgState (s : State) (kind : Nat) : Nat :=
  if s.boot.refused.contains kind then 3 else if (mget? s.boot.staged kind).isSome then 1
  else if (mget? s.boot.objs kind).isSome then 2 else 0

/-- R453: the 72 bytes of BOOT_QUERY. -/
def bootReport (s : State) : Bytes :=
  [BitVec.ofNat 8 (modeNum s.mode), 0] ++ (List.range 7).flatMap (fun i =>
    let o := mget? s.boot.objs (i + 1)
    [BitVec.ofNat 8 (imgState s (i + 1)), 0, 0, 0] ++
    (match o with | some o => beBytes 4 o.build ++ beBytes 2 o.epoch | none => List.replicate 6 0))

/-- R453: BOOT_QUERY. -/
def bootQuery (k : Ctx) (s : State) : State × Disp := completeNow s k (bootReport s)

/-! ## Mode entry (R457) -/

/-- R55: whether SQ1 holds a slot not yet taken. -/
def sq1Waits (s : State) : Bool := mget s.cpw.heads 1 0 != fldV s .cpw 0x50 15 0

/-- R55: every SQq_CFG takes its reset value. -/
def resetSqCfg (s : State) : State :=
  let p := pageOf s .cpw
  let cfg := fun (e : (Nat × Nat) × Word) => e.1.1 ∈ [0x48, 0x58, 0x68, 0x78]
  setPage s .cpw { p with regs := p.regs.filter (fun e => !cfg e), pend := p.pend.filter (fun e => !cfg e) }

/-- R457: the GDDR7 devices of a quadrant after training: bit 8·q + i of `failed` is device i. -/
def trained (failed : BitVec 32) : PMap (Fin 4) (BitVec 8) :=
  (List.finRange 4).map (fun q => (q, ~~~(BitVec.ofNat 8 (failed.toNat >>> (8 * q.val)))))

/-- MODE_ENTRY (R55, R457, R459): the start-up completes, and the mode is entered once SQ1 has no untaken slot and every completion
is in the ring: SQq_CFG at reset, the policy applied, the bays with a cartridge powered. `failed` names the GDDR7 devices that failed
training. -/
def execModeEntry (failed : BitVec 32) (ms : BitVec 16) (s : State) : Host.Outcome State Fault Refusal :=
  .next (match s.boot.going with
    | none => s
    | some m =>
      if s.mode ≠ some .bare || sq1Waits s || !s.cpw.held.isEmpty || ms.toNat < 61 then s
      else
        let b := s.boot
        let s := resetSqCfg { s with boot := { b with
          going := none, stage := 5, goMs := ms.toNat, staged := [], devOk := trained failed, cores := 0xFF, ccf := true,
          beat := 0, tsmEpoch := match mget? b.objs 3 with | some o => o.epoch | none => 0 } }
        let s := (List.range 32).foldl (fun s i => if failed.getLsbD i then raiseLogged s .boot 0x4402 0 else s) s
        let s := enterMode s m
        let s := match mget? b.objs 7 with | some o => applyPolicy s o.body | none => s
        (List.finRange 2).foldl (fun s i =>
          if (bay s i).present && (bay s i).st == .empty then setBay s i { bay s i with st := .powering, sinceSf := s.sf } else s) s)

/-! ## Loss of the host link (R462) -/

/-- R462: the chunks owed to a window queue count as sent 8 times. -/
def orphan (s : State) (os : List OwedChunk) : List OwedChunk :=
  os.map (fun o => if o.acked then o else { o with sends := max o.sends 8, sf := s.sf })

def isWin : Origin → Bool
  | .win _ => true
  | _ => false

/-- R462: the results owed to window queues. -/
def orphanResults (s : State) : State :=
  let cell := fun (c : Cell) => { c with deliv := c.deliv.map (fun e =>
    match mget? c.bound e.1 with
    | some b => if isWin b.1 then (e.1, orphan s e.2) else e
    | none => e) }
  let pulls := s.fab.pulls.map (fun p => if isWin p.org then { p with chunks := orphan s p.chunks } else p)
  { s with coll := { s.coll with cells := s.coll.cells.map (fun e => (e.1, cell e.2)) }, fab := { s.fab with pulls := pulls } }

/-- HOST_LINK_LOSS (R462): the queues are disabled, the ring registers reset, held completions discarded. -/
def execHostLinkLoss (s : State) : Host.Outcome State Fault Refusal :=
  .next (if !s.boot.hostUp then s
    else
      let p := pageOf s .cpw
      let ring := fun (e : (Nat × Nat) × Word) => decide (e.1.1 < 0x9C)
      let s := setPage s .cpw { p with regs := p.regs.filter (fun e => !ring e), pend := p.pend.filter (fun e => !ring e) }
      let s := orphanResults { s with cpw := Cpw.reset, boot := { s.boot with hostUp := false } }
      raiseLogged s .pcie 0x1401 0)

end Sys2Proof.Machine
end

