-- ==== Sys2Proof/Machine/View.lean ====
section
/-! DEFINITION. Machine/View.lean: what a read of a register returns: the page headers (R43), the writable registers, the
read-only registers as views of the state, and the counters (R470 to R478). -/
namespace Sys2Proof.Machine
open Sys2Proof

/-- A field of a register read: the low w bits of a value, at bit lo. -/
def fld' (lo w v : Nat) : Nat := v % 2 ^ w * 2 ^ lo

/-- A signed field. -/
def fldI (lo w : Nat) (v : Int) : Nat := (v % (2 ^ w : Int)).toNat * 2 ^ lo

/-- A flag at a bit. -/
def flag (lo : Nat) (b : Bool) : Nat := if b then 2 ^ lo else 0

/-- A mask with a bit for each number below n that meets a condition. -/
def maskOf (n : Nat) (f : Nat → Bool) : Nat := (List.range n).foldl (fun m i => if f i then m + 2 ^ i else m) 0

/-! ## The page header and the directory (R41, R43) -/

/-- R39: the type code of a page. -/
def pageType : PageId → Nat
  | .dir => 0x01 | .kazsy => 0x02 | .secp => 0x03 | .pwr => 0x04 | .boot => 0x05 | .pcie => 0x06 | .cpw => 0x07
  | .i3c => 0x08 | .time => 0x09 | .tio => 0x0A | .wrt => 0x0B | .rseq => 0x0C | .elog => 0x0D | .ledger => 0x0E
  | .tpool => 0x0F | .cart _ => 0x10 | .mfl => 0x11 | .quad _ => 0x20 | .fpe _ _ => 0x21 | .fport _ _ => 0x22
  | .tm _ => 0x23 | .ffe _ => 0x24 | .leng _ => 0x25 | .line _ => 0x26 | .fec _ => 0x27 | .ciph _ _ => 0x28
  | .pond _ => 0x29 | .launch _ => 0x2A | .tile _ => 0x40 | .tdec _ => 0x41

/-- R43: PAGE_ID.QUAD. -/
def pageQuad : PageId → Nat
  | .quad q => q | .fpe q _ => q | .fport q _ => q | .tm q => q | .ffe q => q | .leng q => q | .line q => q | .fec q => q
  | .ciph q _ => q | .pond q => q | .launch q => q | .tile t => t / 16 | .tdec t => t / 16 | _ => 0xFF

/-- R43: PAGE_ID.INST. -/
def pageInst : PageId → Nat
  | .fpe _ i => i | .ciph _ i => i | .fport _ p => p | .cart i => i | .tile t => t | .tdec t => t | _ => 0

def pageIdWord (pg : PageId) : Nat := fld' 24 8 (pageType pg) + fld' 16 8 (pageQuad pg) + fld' 0 16 (pageInst pg)

/-- R43: a read of a header register. -/
def headerReg (s : State) (pg : PageId) (off : Nat) : Nat :=
  let p := pageOf s pg
  match off with
  | 0x00 => pageIdWord pg
  | 0x04 => 0xB1000100
  | 0x08 => flag 0 p.enable + flag 1 p.quiesce
  | 0x0C => blkState s pg + flag 4 (blkIdle s pg)
  | 0x10 => p.classSeen.toNat + flag 8 p.firstValid + flag 9 p.cfgRefused + flag 10 p.permRefused +
            flag 11 (p.errCount == 0xFFFF)
  | 0x14 => p.irq.toNat
  | 0x18 => p.firstCode.toNat + fld' 16 16 p.firstSf.toNat
  | 0x1C => p.firstInfo.toNat
  | 0x20 => p.errCount.toNat
  | 0x24 => flag 0 (!p.pend.isEmpty) + flag 1 p.appliedValid
  | 0x28 => p.cfgEpoch.toNat
  | 0x2C => flag 0 p.uctr + flag 1 p.upage + fld' 4 2 (owner pg) + flag 6 (keyed pg)
  | _ => 0

/-- R41: a read of the directory beyond its header. -/
def dirReg (s : State) (off : Nat) : Nat :=
  let ps := allPages.filter (pageUp s)
  if off = 0x40 then ps.length
  else if off = 0x44 then modeNum s.mode % 4
  else if off ≥ 0x100 then
    match ps[(off - 0x100) / 8]? with
    | some p => if off % 8 = 0 then pageIdWord p else pageAddr p / 4096 * 4096
    | none => 0
  else 0

/-! ## Cells (R138, R235) -/

/-- R132: whole superframes before a cell's limit expires, the superframe under way among them (DESIGN CHOICE, entry 101). -/
def cellLeft (s : State) (x : Placed) (cl : Cell) : Nat :=
  if x.desc.waitLimit = 0 || cl.stopped || (cl.st != .armed && cl.st != .gathering) then 0xFFFFFF
  else min 0xFFFFFF (cl.armSf + x.desc.waitLimit + 1 - s.sf)

/-- The registers of a cell snapshot: CIID, digest, arming superframe, what is left, from an offset on. -/
def cellWords (s : State) (c base : Nat) : List (Nat × Nat) :=
  let cl := cellOf s c
  let left := match findInst s cl.ciid with | some x => cellLeft s x cl | none => 0xFFFFFF
  [(base, cl.ciid.toNat), (base + 4, cl.ciid.toNat / 2 ^ 32), (base + 8, cl.digest.toNat), (base + 12, cl.digest.toNat / 2 ^ 32),
   (base + 16, cl.armSf), (base + 20, left)]

/-- R138: what FFE_CELL_SEL latches. -/
def ffeCellLatch (s : State) (q : Fin 4) (sel : Nat) : List (Nat × Nat) :=
  let c := 15360 + 256 * q.val + sel
  let cl := cellOf s c
  let n := match findInst s cl.ciid with | some x => inputCounts x (gw s) cl | none => (0, 0)
  (0x64, stNum cl.st + fld' 4 4 (if cl.st = .mismatch then cl.cause else 0) + fld' 8 7 (min n.2 127) +
         fld' 16 7 (min n.1 127) + flag 23 cl.remote) :: cellWords s c 0x68

/-- R235: what TILE.CELL_SEL latches. -/
def tileCellLatch (s : State) (t : Fin 64) (sel : Nat) : List (Nat × Nat) :=
  let c := 240 * t.val + sel
  let cl := cellOf s c
  let n := match findInst s cl.ciid with | some x => senderCounts x (gw s) cl | none => (0, 0)
  (0x64, stNum cl.st + fld' 4 4 (if cl.st = .mismatch then cl.cause else 0) + flag 8 cl.remote) ::
  (0x68, fld' 0 16 (min n.2 0xFFFF) + fld' 16 16 (min n.1 0xFFFF)) :: cellWords s c 0x6C

/-! ## Other latched snapshots -/

/-- R315: what LINE.LANE_SEL latches. -/
def laneLatch (s : State) (g : Fin 4) (k : Fin 18) : List (Nat × Nat) :=
  let x := lslot s g k
  let link := match slotLink s g k with | some l => l.2.val | none => 0
  let cd := match x.last with | some h => h.cd | none => 0
  [(0x48, txCode x.tx + 4 * rxCode x.rx + fld' 4 2 link + fld' 6 4 x.txWhy + fld' 10 4 x.rxWhy +
          fld' 16 16 (min 0xFFFF (s.sf - x.changeSf))),
   (0x4C, fld' 0 12 x.skew), (0x88, fldI 0 32 cd)]

/-- R343: KEY_STATE.STATE of a link in one direction. -/
def keyCode (s : State) (l : LinkId) (k : Option LKey) : Nat :=
  let c := lciph s l
  match k with
  | none => if (llink s l).en then 1 else 0
  | some _ => if c.drain.isSome then 4 else if c.hs.isSome || c.pendSw.isSome then 3 else 2

/-- R343: what CIPH.LINK_SEL latches on a transmit or receive page. -/
def ciphLinkLatch (s : State) (q : Fin 4) (i : Fin 2) (l : Fin 4) : List (Nat × Nat) :=
  let c := lciph s (q, l)
  let k := if i = 0 then c.tx else c.rx
  let other := if i = 0 then c.pendSw.map (fun p => p.2.1.id) else c.rxOther.map (·.id)
  [(0x4C, fld' 0 8 ((k.map (·.id)).getD 0) + fld' 8 8 (other.getD 0) + fld' 16 3 (keyCode s (q, l) k) +
          flag 19 (i == 0 && !c.exhausted.isEmpty)),
   (0x50, match k with | some x => min 0xFFFFFFFF (s.sf - x.since) | none => 0),
   (0x64, fld' 0 4 c.result + fld' 8 8 c.reason + fld' 16 16 c.count)]

/-- R343: what CIPH.LANE_SEL latches. -/
def ciphLaneLatch (s : State) (q : Fin 4) (i : Fin 2) (k : Fin 18) : List (Nat × Nat) :=
  let v := match slotLink s q k with
    | none => 0
    | some l =>
      let c := lciph s l
      if i = 0 then mget c.ctr k.val 0 else mget c.last (k.val, (c.rx.map (·.id)).getD 0) 0
  [(0x58, v), (0x5C, v / 2 ^ 32 % 256)]

/-- R348: whether a laser is a spare that is not in use. -/
def spareLaser (s : State) (i : Fin 2) (n : Nat) : Bool :=
  if i = 0 then 16 ≤ n && !(allHalves.any (fun x => 16 + x.1.val == n && halfOf s x.1 x.2.1 x.2.2 == 1))
  else isSpare s (groupOfLaser n) (slotOfLaser n) && !slotInUse s (groupOfLaser n) (slotOfLaser n)

def laserCode : LaserSt → Nat
  | .absent => 0 | .dark => 1 | .tuning => 2 | .lit => 3 | .failed => 4

/-- R370: what CART.LASER_SEL latches. -/
def laserLatch (s : State) (i : Fin 2) (n : Nat) : List (Nat × Nat) :=
  let x := laserOf s i n
  [(0x54, laserCode x.st + flag 3 (x.st != .absent && spareLaser s i n) + fld' 4 2 x.level +
          fld' 8 8 (min 255 ((fade x).toNat / 10))),
   (0x58, fldI 0 16 (meanPower x) + fldI 16 16 (x.p0.getD 0)),
   (0x5C, if i = 0 then 0 else fld' 0 28 x.mhz)]

/-- R371: what LENG.SLOT_SEL latches. -/
def lengLatch (s : State) (g : Fin 4) (k : Fin 18) : List (Nat × Nat) :=
  let rs := (List.finRange 4).map (ringOf s g k)
  let role := if s.light.retired.contains (g, k) then 3 else if isSpare s g k then 2 else if slotInUse s g k then 1 else 0
  [(0x48, role + 4 * maskOf 4 (fun b => ((rs[b]?).map (·.locked)).getD false) +
          fld' 16 16 (min 0xFFFF (mget s.light.relocks (g, k) 0))),
   (0x4C, (List.range 4).foldl (fun v b => v + fld' (5 * b) 5 (((rs[b]?).map (·.ring)).getD 31)) 0 +
          fld' 20 11 (rs.foldl (fun m r => max m r.shift) 0)),
   (0x50, (mget s.light.rxInfo (g, k) 0).toNat)]

/-- R345, R372: device port 8·j + i of a quadrant's engine j. -/
def fpePort (q : Fin 4) (j : Fin 2) (i : Fin 8) : Fin 64 := ⟨16 * q.val + 8 * j.val + i.val, by omega⟩

/-- R372: what FPE.PORT_SEL latches. -/
def fpeLatch (s : State) (q : Fin 4) (j : Fin 2) (i : Fin 8) : List (Nat × Nat) :=
  let x := phy s (fpePort q j i)
  [(0x48, fld' 0 2 x.link + fld' 2 4 x.locked.toNat + fld' 16 16 (min 0xFFFF x.relocks)), (0x4C, x.rxp.toNat)]

/-- R394: what FPORT.QSEL latches. -/
def queueLatch (s : State) (p : Fin 64) (q : Fin 32) : List (Nat × Nat) :=
  let e := egQ s p q
  [(0x50, fldI 0 32 e.tokens), (0x54, fld' 0 21 (sumWire e.pkts)), (0x58, fld' 0 21 e.depthMax),
   (0x5C, min 0xFFFFFFFF e.delayMax), (0x60, fld' 0 21 e.depthAvg)]

/-- R440: what RSEQ.RS_TILE_SEL latches. -/
def tileChargeLatch (s : State) (t : Fin 64) : List (Nat × Nat) :=
  let l := mget s.rseq.charges t []
  [(0x5C, fld' 0 4 (min 15 l.length) + fld' 8 24 (l.getLast?.getD 0))]

/-- R440: what RSEQ.ROSTER_SEL latches. -/
def rosterLatch (s : State) (g : Nat) : List (Nat × Nat) :=
  [(0x64, rosterSt s g), (0x68, rosterFp s g), (0x6C, rosterFp s g / 2 ^ 32)]

/-! ## Read-only registers -/

def latched (p : Page) (off : Nat) : Nat := (mget p.latch off 0).toNat

def seqCode : SeqSt → Nat
  | .idle => 0 | .issue => 1 | .waitLt => 2 | .waitCell => 3 | .waitEvt => 4 | .sync => 5 | .fetch => 6 | .boundary => 7
  | .stopped => 8

/-- R218: a word of a step record. -/
def recWord (r : StepRec) (i : Nat) : Nat := beAt r.bytes (4 * i) 4

/-- R198, R235: TILE. -/
def tileReg (s : State) (t : Fin 64) (off : Nat) : Nat :=
  let x := tileOf s t
  let p := pageOf s (.tile t)
  match off with
  | 0x40 => seqCode x.seq + flag 4 x.failed + flag 5 (x.slot == 1)
  | 0x44 => fld' 0 24 x.step + fld' 24 8 x.replay
  | 0x48 => fld' 0 15 x.pc
  | 0x4C => x.waitArg.toNat
  | 0x50 => x.startSf
  | 0x58 => fld' 0 16 (mget x.evt (fldV s (.tile t) 0x54 4 0) 0)
  | 0x90 => recWord x.srec 0 | 0x94 => recWord x.srec 1 | 0x98 => recWord x.srec 2 | 0x9C => recWord x.srec 3
  | 0xA0 => min 0xFFFF x.xchkMiss
  | 0x400 => fld' 0 6 x.excSticky + flag 8 x.excCaptured
  | 0x404 => x.excStep.toNat | 0x408 => x.excWhere.toNat | 0x40C => x.excKind.toNat
  | _ => if 0x64 ≤ off && off ≤ 0x80 then latched p off else 0

/-- R138: FFE. -/
def ffeReg (s : State) (q : Fin 4) (off : Nat) : Nat :=
  let p := pageOf s (.ffe q)
  let cells := (List.range 256).map (fun i => (cellOf s (15360 + 256 * q.val + i)).st)
  match off with
  | 0x40 => (cells.filter (· == .free)).length + fld' 16 9 (cells.filter isErr).length
  | 0x48 => fld' 0 16 (latched p 0x48)
  | _ => if 0x64 ≤ off && off ≤ 0x7C then latched p off else 0

/-- R232, R493: PWR. -/
def pwrReg (s : State) (off : Nat) : Nat :=
  let p := s.power
  let hot := fun (i : Fin 3) => s.therm.warn.contains i
  match off with
  | 0x40 => fld' 0 16 p.module + fld' 16 16 p.tensor
  | 0x44 => fld' 0 8 (p.ceil / 1375) + flag 8 p.ramping + flag 9 p.capHold + flag 10 p.slewHold
  | 0x50 => fld' 0 12 s.i3c.cap
  | 0x54 => fld' 0 8 p.lastRamp.target + fld' 8 10 p.lastRamp.rate + fld' 18 14 p.lastRamp.tileStep
  | 0x60 => fldI 0 13 s.therm.die + flag 16 (!s.therm.warn.isEmpty) + flag 17 (!s.therm.limit.isEmpty) + flag 18 (hot 1) +
            flag 19 (hot 2)
  | 0x68 => fld' 0 16 (bay s 0).power + fld' 16 16 (bay s 1).power
  | _ => 0

/-- R233: QUAD. -/
def quadReg (s : State) (q : Fin 4) (off : Nat) : Nat :=
  let tile := fun (i : Nat) => PageId.tile ⟨(16 * q.val + i) % 64, by omega⟩
  let r := mget s.plans.qrec q StepRec.zero
  match off with
  | 0x40 => maskOf 16 (fun i => (pageOf s (tile i)).quarantined) + fld' 16 16 (maskOf 16 (fun i => blkIdle s (tile i)))
  | 0x50 => recWord r 0 | 0x54 => recWord r 1 | 0x58 => recWord r 2 | 0x5C => recWord r 3
  | _ => 0

def tCode : TSt → Nat
  | .free => 0 | .loading => 1 | .resident => 2 | .retiring => 3

/-- R280: TDEC. -/
def tdecReg (s : State) (t : Fin 64) (off : Nat) : Nat :=
  let n := (tqueue s t).length
  if off = 0x40 then
    (List.range 8).foldl (fun v i => v + fld' (2 * i) 2 (tCode (tslot s t i).st)) 0 + fld' 16 5 n + flag 21 (n > 0)
  else if 0x60 ≤ off && off < 0x80 then
    let x := tslot s t ((off - 0x60) / 4)
    (if x.st = .free then 0 else fld' 0 16 x.gen) + fld' 16 16 x.refs
  else 0

/-- R315: LINE. -/
def lineReg (s : State) (g : Fin 4) (off : Nat) : Nat :=
  let pg := PageId.line g
  let l : LinkId := (g, ⟨fldV s pg 0x50 1 0 % 4, by omega⟩)
  match off with
  | 0x40 => maskOf 4 (fun i => linkUp s (g, ⟨i % 4, by omega⟩)) +
            fld' 4 18 (maskOf 18 (fun k => (lslot s g ⟨k % 18, by omega⟩).tx == .up))
  | 0x58 => linkState s l + flag 2 (linkKeyed s l) + fld' 4 5 (txUp s l).length + fld' 9 5 (rxUp s l).length +
            fld' 16 16 (dLink s l)
  | 0x5C => fld' 0 32 ((llink s l).delay.toNat / 1000)
  | 0x60 => fldI 0 32 (llink s l).theta
  | 0x80 => fld' 0 16 (retBytes s g / 1048576) + fld' 16 16 (stageBytes s g / 1048576)
  | 0x48 | 0x4C | 0x88 => latched (pageOf s pg) off
  | _ => 0

/-- R316: FEC. -/
def fecReg (s : State) (g : Fin 4) (off : Nat) : Nat :=
  let x := lslot s g ⟨fldV s (.fec g) 0x48 4 0 % 18, by omega⟩
  match off with
  | 0x4C => fld' 0 24 x.ber
  | 0x50 => fld' 0 9 x.lastFails + fld' 16 4 x.lastIt
  | _ => 0

/-- R343: CIPH. -/
def ciphReg (s : State) (q : Fin 4) (i : Fin 2) (off : Nat) : Nat :=
  let p := pageOf s (.ciph q i)
  let n := holdBytes s q
  match off with
  | 0x40 => fld' 0 10 (farmEngines s q i) + fld' 10 6 (clustersOut s q i) + fld' 16 12 (farmRate s q i / 8000) +
            flag 28 (paced s q i)
  | 0x4C | 0x50 | 0x58 | 0x5C | 0x64 => latched p off
  | 0x6C => if i = 0 then 0 else fld' 0 14 (cdiv n 1024) + flag 16 (n ≥ 8388608) + flag 17 (s.ciph.early.contains q) +
            fld' 18 14 (mget s.ciph.maxKib q 0)
  | 0x70 => s.ciph.src.toNat + fld' 8 4 s.ciph.active.toNat + flag 16 s.ciph.erased
  | _ => 0

def cartCode : CartSt → Nat
  | .empty => 0 | .powering => 1 | .auth => 2 | .ready => 3 | .refused => 4 | .releasing => 5 | .safe => 6

/-- R370: CART. -/
def cartReg (s : State) (i : Fin 2) (off : Nat) : Nat :=
  let c := bay s i
  let spares := ((List.range (bayLasers i)).filter (fun n =>
    spareLaser s i n && ((laserOf s i n).st == .dark || (laserOf s i n).st == .lit))).length
  match off with
  | 0x40 => cartCode c.st + flag 4 c.present + flag 5 c.certified + fld' 8 6 spares + fld' 16 7 c.lasers
  | 0x48 => fld' 0 32 c.serial.toNat | 0x4C => c.serial.toNat / 2 ^ 32
  | 0x54 | 0x58 | 0x5C => latched (pageOf s (.cart i)) off
  | _ => 0

/-- R371: the insertion that LENG shows: the one that runs, or the latest. -/
def shownInsert (s : State) (g : Fin 4) : Option Insert :=
  let l := s.light.ins.filter (fun e => e.1.1 == g)
  match l.find? (fun e => 1 ≤ e.2.phase && e.2.phase ≤ 4) with
  | some e => some e.2
  | none => l.head?.map (·.2)

/-- R371: LENG. -/
def lengReg (s : State) (g : Fin 4) (off : Nat) : Nat :=
  match off with
  | 0x40 => maskOf 18 (fun k => lit s g ⟨k % 18, by omega⟩) + flag 18 (s.light.searching.contains g) +
            flag 19 (fldV s (.leng g) 0x5C 20 20 == 1 && s.power.ramping)
  | 0x48 | 0x4C | 0x50 => latched (pageOf s (.leng g)) off
  | 0x64 => match shownInsert s g with
    | some i => fld' 0 3 i.phase + fld' 3 5 i.slot.val + fld' 8 5 i.spare.val + flag 13 i.init + flag 14 i.accLocal +
                flag 15 i.accPeer + fld' 16 16 i.w
    | none => 0
  | 0x68 => match shownInsert s g with
    | some i => fld' 0 16 i.miss + fld' 16 16 i.diff
    | none => 0
  | _ => 0

/-- R372: FPE. -/
def fpeReg (s : State) (q : Fin 4) (j : Fin 2) (off : Nat) : Nat :=
  let at' := fun (i : Nat) => phy s (fpePort q j ⟨i % 8, by omega⟩)
  match off with
  | 0x40 => maskOf 8 (fun i => (at' i).link == 2) + fld' 8 8 (maskOf 8 (fun i => (at' i).locked == 0xF)) +
            fld' 16 2 (halfOf s q j 0) + fld' 18 2 (halfOf s q j 1)
  | 0x48 | 0x4C => latched (pageOf s (.fpe q j)) off
  | _ => 0

/-- R373: WRT. -/
def wrtReg (s : State) (off : Nat) : Nat :=
  let w := s.light.wrt
  match off with
  | 0x40 => flag 0 w.run.isSome + fld' 2 2 w.active + fld' 4 4 w.reason
  | 0x58 => fld' 0 16 w.lastUs + fld' 16 16 w.lastChanged
  | _ => 0

/-- R394, R415: FPORT. -/
def fportReg (s : State) (p : Fin 64) (off : Nat) : Nat :=
  match off with
  | 0x40 => fld' 0 12 (cdiv (portBytes s p) 1024)
  | 0x50 | 0x54 | 0x58 | 0x5C | 0x60 | 0x108 | 0x10C | 0x110 | 0x114 => latched (pageOf s (fportOf p)) off
  | 0x104 => fld' 0 6 (tsqOf s p).ents.length + flag 8 (tsqOf s p).ovf
  | _ => 0

/-- R395: POND. The bandwidths are those of the last superframe, counted in units of 64 bytes. -/
def pondReg (s : State) (q : Fin 4) (off : Nat) : Nat :=
  let bw := mget s.pondBw q (0, 0)
  match off with
  | 0x40 => (mget s.boot.devOk q 0).toNat + flag 8 (s.pondPrio.contains q)
  | 0x48 => fld' 0 19 (genTrays s q)
  | 0x4C => fld' 0 16 (bw.1 * 64 / 8000) + fld' 16 16 (bw.2 * 64 / 8000)
  | _ => 0

/-- R396: TPOOL. -/
def tpoolReg (s : State) (off : Nat) : Nat :=
  let r := fldV s .tpool 0x50 7 0
  match off with
  | 0x40 => flag 0 (s.mode != some .service) + fld' 8 9 s.trays.xfers.length
  | 0x48 => fld' 0 19 (freeSram s)
  | 0x4C => fld' 0 21 (freePond s)
  | 0x64 => fld' 0 19 (reqSram s r)
  | 0x68 => fld' 0 21 (reqPond s r)
  | _ => 0

/-- R397: LEDGER. -/
def ledgerReg (s : State) (off : Nat) : Nat :=
  let g := s.ledger
  match off with
  | 0x40 => flag 0 g.running.isSome + flag 1 g.ok + fld' 8 24 g.passed
  | 0x48 => g.last
  | 0x4C => fld' 0 14 g.pending + fld' 16 14 g.unlimited
  | 0x50 => fld' 0 10 g.us
  | _ => 0

/-- R413: PEER_PTP_OFS in ps: this gateway's PTP time of a boundary less the peer's, the median over the link's slots; with
whether both ends carry PTP_VALID. -/
def peerPtp (s : State) (l : LinkId) : Bool × Int :=
  let hs := (linkSlots s l).filterMap (fun k => (lslot s l.1 k).last)
  let hs := hs.filter (fun h => h.time.ptpValid)
  (s.ptp.valid && !hs.isEmpty,
   median (hs.map (fun h => ((ptpAt s h.sf : Int) - (h.time.ptpS * 1000000000 + h.time.ptpNs)) * 1000)))

/-- R413: TIME. -/
def timeReg (s : State) (off : Nat) : Nat :=
  let x := s.lt
  let l : LinkId := (⟨fldV s .time 0xA0 1 0 % 4, by omega⟩, ⟨fldV s .time 0xA0 3 2 % 4, by omega⟩)
  match off with
  | 0x40 => ltCode x.st + fld' 3 8 x.hops + fld' 16 16 x.d +
            (match x.parent with | some p => fld' 11 2 p.1.val + fld' 13 2 p.2.val | none => 0)
  | 0x44 => s.sf
  | 0x48 | 0x4C | 0x8C | 0x90 | 0x94 | 0x98 => latched (pageOf s .time) off
  | 0x58 => match x.ann with | some a => fld' 0 11 a.gw + fld' 16 8 a.prio | none => 0
  | 0x5C => match x.ann with | some a => a.serial.toNat | none => 0
  | 0x74 => fldI 0 32 x.freq
  | 0x84 => flag 0 s.ptp.valid + fld' 1 6 ((s.ptp.port.map (·.val)).getD 0)
  | 0x88 => ptpAt s s.sf / 1000000000
  | 0xA0 => flag 31 (peerPtp s l).1
  | 0xA4 => fldI 0 32 (peerPtp s l).2
  | _ => 0

/-- R414: TIO. -/
def tioReg (s : State) (off : Nat) : Nat :=
  let e := evtOf s ⟨fldV s .tio 0x60 1 0 % 4, by omega⟩
  match off with
  | 0x64 => fld' 8 5 e.ents.length + flag 13 e.ovf
  | 0x68 | 0x6C | 0x70 => latched (pageOf s .tio) off
  | _ => 0

/-- R415: LAUNCH. -/
def launchReg (s : State) (q : Fin 4) (off : Nat) : Nat :=
  let n := fun (line : Bool) (i : Nat) => (s.plans.launches.filter (fun l => l.quad == q && l.line == line && l.index == i)).length
  let four := fun (line : Bool) (b : Nat) => (List.range 4).foldl (fun v i => v + fld' (7 * i) 7 (n line (b + i))) 0
  match off with
  | 0x40 => four true 0
  | 0x44 => four false 0
  | 0x48 => four false 4
  | 0x54 => fld' 0 31 (mget s.late q 0)
  | _ => 0

/-- R440: RSEQ. -/
def rseqReg (s : State) (off : Nat) : Nat :=
  let r := s.rseq
  let p := pageOf s .rseq
  match off with
  | 0x40 => fld' 0 3 (r.level.foldl (fun m e => max m e.2) 0) + flag 3 (s.lt.st == .master && quorum s) +
            fld' 8 8 (min 255 (r.jobs.foldl (fun n e => n + e.2.waiting.length) 0)) + fld' 16 16 r.serial
  | 0x44 => fld' 0 24 r.showStep + fld' 24 8 r.showCount
  | 0x48 => fld' 0 11 r.showSubject + fld' 16 16 r.showCode
  | 0x5C | 0x64 | 0x68 | 0x6C => latched p off
  | 0x70 => fld' 0 3 r.prove.phase + fld' 8 4 r.prove.reason + fld' 16 11 r.prove.incumbent
  | _ => 0

/-- R441: ELOG. -/
def elogReg (s : State) (off : Nat) : Nat :=
  if off = 0x40 then fld' 0 13 s.elog.ring.length + flag 16 s.elog.wrapped + fld' 17 7 s.elog.flash.length
  else if 0x80 ≤ off && off < 0xC0 then latched (pageOf s .elog) off else 0

/-- R465: BOOT. -/
def bootReg (s : State) (off : Nat) : Nat :=
  let b := s.boot
  if off = 0x40 then
    fld' 0 3 b.stage + flag 3 (b.idState == 1) + flag 4 (b.waiver && b.stage == 5) +
    fld' 8 7 (maskOf 7 (fun i => (mget? b.objs (i + 1)).isSome))
  else if off = 0x44 then fld' 0 2 b.lastMode + fld' 16 16 b.lastCode
  else if off = 0x48 then match mget? b.objs 5 with | some o => beAt o.body 4 4 | none => 0
  else if off = 0x4C then fld' 0 16 b.bareMs + fld' 16 16 b.goMs
  else if 0x50 ≤ off && off < 0x6C then
    let k := (off - 0x50) / 4 + 1
    fld' 16 2 (imgState s k) + (match mget? b.objs k with | some o => fld' 0 16 o.epoch + fld' 18 2 o.key | none => 0)
  else if 0x70 ≤ off && off < 0x88 then
    match mget? b.objs ((off - 0x70) / 4 + 1) with | some o => o.build | none => 0
  else if 0x100 ≤ off && off < 0x1C0 then
    match mget? b.objs ((off - 0x100) / 0x20 + 1) with | some o => beAt o.hash (off % 0x20) 4 | none => 0
  else 0

/-- R466: SEC. -/
def secReg (s : State) (off : Nat) : Nat :=
  let b := s.boot
  match off with
  | 0x40 => fld' 0 2 b.idState + fld' 2 2 b.reads + fld' 4 3 b.cause + fld' 8 8 b.worst
  | 0x44 => fld' 0 32 b.fp.toNat | 0x48 => b.fp.toNat / 2 ^ 32
  | _ => 0

/-- R467: KAZSY. -/
def kazsyReg (s : State) (off : Nat) : Nat :=
  match off with
  | 0x40 => s.boot.cores.toNat + flag 8 s.boot.ccf
  | 0x44 => s.boot.beat / 125
  | _ => 0

/-- R468: MFL. -/
def mflReg (s : State) (off : Nat) : Nat :=
  let b := s.boot
  match off with
  | 0x40 => flag 0 (helperOk b.helper) + flag 1 (Config.chainValid b.chain) +
            flag 2 ([1, 2, 3, 4, 5].all (fun k => (storedObj s k).isSome)) + fld' 8 8 b.macFail
  | 0x44 => fld' 0 32 b.serial.toNat | 0x48 => b.serial.toNat / 2 ^ 32
  | 0x4C => fld' 0 20 b.wear
  | _ => 0

/-- R52: CPW. -/
def cpwReg (s : State) (off : Nat) : Nat :=
  if off = 0x90 then fld' 0 12 s.cpw.tail
  else if 0x40 ≤ off && off < 0x80 && off % 16 = 4 then fld' 0 9 (mget s.cpw.heads ⟨(off - 0x40) / 16 % 4, by omega⟩ 0)
  else 0

/-- R393: TM. -/
def tmReg (s : State) (q : Fin 4) (off : Nat) : Nat :=
  if off = 0x40 then maskOf 16 (fun p => 0 < portBytes s ⟨(16 * q.val + p) % 64, by omega⟩) else 0

/-- The read-only part of a block-specific register. -/
def roPart (s : State) (pg : PageId) (off : Nat) : Nat :=
  match pg with
  | .dir => dirReg s off | .kazsy => kazsyReg s off | .secp => secReg s off | .pwr => pwrReg s off | .boot => bootReg s off
  | .pcie => 0 | .cpw => cpwReg s off | .i3c => 0 | .time => timeReg s off | .tio => tioReg s off | .wrt => wrtReg s off
  | .rseq => rseqReg s off | .elog => elogReg s off | .ledger => ledgerReg s off | .tpool => tpoolReg s off
  | .cart i => cartReg s i off | .mfl => mflReg s off | .quad q => quadReg s q off | .fpe q i => fpeReg s q i off
  | .tm q => tmReg s q off | .ffe q => ffeReg s q off | .leng q => lengReg s q off | .line q => lineReg s q off
  | .fec q => fecReg s q off | .ciph q i => ciphReg s q i off | .pond q => pondReg s q off | .launch q => launchReg s q off
  | .fport q p => fportReg s ⟨16 * q.val + p.val, by omega⟩ off | .tile t => tileReg s t off | .tdec t => tdecReg s t off

/-- The writable part of a block-specific register: the last accepted values of its RW fields (R47), of the selected bank; in
BARE, SQ1_CFG reads EN = 1 and VC = 3 (R55). -/
def rwPart (s : State) (pg : PageId) (off : Nat) : Nat :=
  let p := pageOf s pg
  if pg = .cpw && s.mode = some .bare && off = 0x58 then 7
  else match regDef? pg off with
    | none => 0
    | some d =>
      -- R440: the roster registers show the latched entry
      if pg = .rseq && 0x64 ≤ off && off ≤ 0x6C then 0
      else
        let v := (regAccepted p pg off (bankOf p pg d)).toNat
        -- R55: in BARE every other SQq_CFG reads EN = 0
        let v := if pg = .cpw && s.mode = some .bare && off < 0x80 && off % 16 = 8 then setFld v 0 0 0 else v
        d.flds.foldl (fun w f => if f.acc = .rw then w ||| (fld v f.hi f.lo <<< f.lo) else w) 0

/-! ## The registers of the I3C target (R59) -/

/-- R59: the word at an index, as the board controller reads it. -/
def i3cReg (s : State) (ix : Nat) : Nat :=
  let quad := fun (q : Fin 4) => fldI 0 32 (mget s.therm.quads q 0)
  match ix with
  | 0x00 => 0x100
  | 0x04 => 0xB1
  | 0x08 => 0x34475342 | 0x0C => 0x2D303134 | 0x10 => 0x0000514C | 0x14 => 0
  | 0x18 => fld s.boot.serial.toNat 31 0 | 0x1C => fld s.boot.serial.toNat 63 32
  | 0x20 => modeNum s.mode
  | 0x24 => fldI 0 32 s.therm.die
  | 0x28 => quad 0 | 0x2C => quad 1 | 0x30 => quad 2 | 0x34 => quad 3
  | 0x38 => fldI 0 32 s.therm.pond
  | 0x3C => fldI 0 32 s.therm.line
  | 0x40 => s.therm.vIn | 0x44 => s.therm.iIn | 0x48 => s.power.module | 0x4C => s.power.avg1s
  | 0x50 => maskOf 4 (fun i => if i % 2 = 0 then (bay s ⟨i / 2 % 2, by omega⟩).present else (bay s ⟨i / 2 % 2, by omega⟩).certified)
  | 0x54 => flag 0 s.i3c.alarmSeen + flag 1 s.ciph.erased + flag 2 s.therm.alarm + flag 3 s.i3c.class4Seen
  | 0x58 => s.i3c.cap
  | 0x5C => flag 0 s.i3c.refused
  | _ => 0

/-! ## Counters (R470 to R478) -/

/-- R478: how many counters a page has. -/
def ctrCount : PageId → Nat
  | .tile _ => 12 | .fport _ _ => 6 | .ffe _ => 5 | .tm _ => 2 | .line _ => 8 | .fec _ => 4 | .ciph _ _ => 4 | .pond _ => 3
  | .leng _ => 2 | .fpe _ _ => 1 | .quad _ => 2 | .launch _ => 2 | .tdec _ => 2 | .pcie => 2 | .cpw => 2 | .time => 2
  | .tpool => 2 | .ledger => 2 | .rseq => 1 | .elog => 1 | .pwr => 2 | .cart _ => 1 | .wrt => 1 | .i3c => 1
  | _ => 0

/-- A counter with its WRAP bit as bit 48. -/
def ctrVal (s : State) (pg : PageId) (i : Nat) : Nat := if i < ctrCount pg then mget s.ctr (pg, i) 0 else 0

def ctrLo (v : Nat) : Nat := v % 2 ^ 32
def ctrHi (v : Nat) : Nat := v / 2 ^ 32 % 65536 + flag 31 (v / 2 ^ 48 % 2 == 1)

/-- R472: where a page keeps what a counter read latches: by reader (0 host, 1 user alias, 2 CCF, 3 security processor) and
register. -/
def latchKey (r : Fin 4) (off : Nat) : Nat := 0x10000 * (r.val + 1) + off

/-- R472, R477: a read of CTR_LOi latches the high register for the reader; on a TILE page, a read of CTR_LO0 latches the six
counters of the ledger group, which stay until the next such read. -/
def readCtrLo (s : State) (r : Fin 4) (pg : PageId) (i : Nat) : State × Nat :=
  let p := pageOf s pg
  let lo := fun j => 0x800 + 8 * j
  let tile := match pg with | .tile _ => true | _ => false
  if tile && i = 0 then
    let l := (List.range 6).foldl (fun m j =>
      mset (mset m (latchKey r (lo j)) (BitVec.ofNat 32 (ctrLo (ctrVal s pg j)))) (latchKey r (lo j + 4))
        (BitVec.ofNat 32 (ctrHi (ctrVal s pg j)))) p.latch
    (setPage s pg { p with latch := l }, ctrLo (ctrVal s pg 0))
  else match (if tile && i < 6 then mget? p.latch (latchKey r (lo i)) else none) with
    | some w => (s, w.toNat)
    | none =>
      let mine := fun k => latchKey r (lo (if tile then 6 else 0)) ≤ k && k < latchKey r 0x1000
      let l := p.latch.filter (fun e => !mine e.1)
      (setPage s pg { p with latch := mset l (latchKey r (lo i + 4)) (BitVec.ofNat 32 (ctrHi (ctrVal s pg i))) },
       ctrLo (ctrVal s pg i))

/-- R472: a read of CTR_HIi: what the reader latched, or the live value. -/
def readCtrHi (s : State) (r : Fin 4) (pg : PageId) (i : Nat) : Nat :=
  match mget? (pageOf s pg).latch (latchKey r (0x804 + 8 * i)) with
  | some w => w.toNat
  | none => ctrHi (ctrVal s pg i)

/-! ## A read -/

/-- A read of a register by a reader, with what it latches (R413, R415, R472). `ofs` is the offset in the superframe. -/
def readReg (s : State) (r : Fin 4) (pg : PageId) (off ofs : Nat) : State × Nat :=
  if !pageUp s pg then (s, 0)
  else if off < 0x40 then (s, headerReg s pg off)
  else if pg = .dir then (s, dirReg s off)
  else if off ≥ 0x800 then
    let i := (off - 0x800) / 8
    if off % 8 = 0 then (if i < ctrCount pg then readCtrLo s r pg i else (s, 0)) else (s, readCtrHi s r pg i)
  else
    match pg with
    | .time =>
      if off = 0x44 then (latchAll s .time [(0x48, s.sf / 2 ^ 32), (0x4C, ofs)], s.sf % 2 ^ 32)
      else if off = 0x88 then
        let t := ptpAt s s.sf
        (latchAll s .time [(0x8C, t / 1000000000 / 2 ^ 32 % 2 ^ 16), (0x90, t % 1000000000), (0x94, int32 s.ptp.rate),
          (0x98, if s.ptp.runs = 0 then 0 else s.sf)], t / 1000000000 % 2 ^ 32)
      else (s, (rwPart s pg off ||| roPart s pg off) % 2 ^ 32)
    | .fport q p =>
      if off = 0x108 then
        let e := (tsqOf s ⟨16 * q.val + p.val, by omega⟩).ents.headD ⟨0, 0, 0⟩
        (latchAll s pg [(0x108, e.id), (0x10C, e.sf), (0x110, e.sf / 2 ^ 32), (0x114, e.ofs)], e.id % 2 ^ 32)
      else (s, (rwPart s pg off ||| roPart s pg off) % 2 ^ 32)
    | _ => (s, (rwPart s pg off ||| roPart s pg off) % 2 ^ 32)

/-- R35: whether an offset lies in the MSI-X table or its pending-bit array, which are no block pages (R36). -/
def inMsix (a : Nat) : Bool := 0x180000 ≤ a && a < 0x182000

/-- R35, R56: a word of the MSI-X table or of the pending-bit array. -/
def msixReg (s : State) (off : Nat) : Nat :=
  if off < 128 then (s.msix.word off).toNat else if off = 0x1000 then s.msix.pend.toNat else 0

/-- R51: whether the user alias lets a register of a page be read: counters under PERM.UCTR, the rest under PERM.UPAGE. -/
def aliasReads (s : State) (pg : PageId) (off : Nat) : Bool :=
  if off < 0x800 then (pageOf s pg).upage else pg != .dir && (pageOf s pg).uctr

/-- R35 to R37, R42, R51: a read of a word of BAR0 by a reader, the user alias (reader 1) above the pages included: an empty slot
or a reserved range reads 0 and is recorded; the window and, in the alias, the MSI-X ranges read 0. -/
def busRead (s : State) (r : Fin 4) (a ofs : Nat) : State × Nat :=
  let b := a % 0x1000000
  if a ≥ 0x2000000 then (s, 0)
  else if inMsix b then (s, if a < 0x1000000 then msixReg s (b - 0x180000) else 0)
  else match pageAt b with
    | none => (unmapped s a false 4, 0)
    | some pg =>
      if !pageUp s pg then (unmapped s a false 4, 0)
      else if a ≥ 0x1000000 && !aliasReads s pg (b % 4096) then (s, 0)
      else readReg s r pg (b % 4096) ofs

/-- R472, R473: a reader's read of a counter's low register; on the DIR page, which has no counters, of the register there (R40). -/
def counterRead (r : Fin 4) (pg : PageId) (i : Nat) (s : State) : State :=
  let a := (if r = 1 then 0x1000000 else 0) + pageAddr pg + (0x800 + 8 * i)
  let x := busRead s r a 0
  emit x.1 (.readAnswer a (BitVec.ofNat 32 x.2))

/-- CTR_LO_READ (R472, R473): a read of CTR_LO by the host, the user alias, CCF or the security processor. -/
def execCtrLoRead (r : Fin 4) (pg : PageId) (i : Fin 256) (s : State) : Host.Outcome State Fault Refusal :=
  .next (counterRead r pg i.val s)

/-- LEDGER_GROUP_READ (R477): a read of CTR_LO0 of a TILE page. -/
def execLedgerGroupRead (r : Fin 4) (t : Fin 64) (s : State) : Host.Outcome State Fault Refusal :=
  .next (counterRead r (.tile t) 0 s)

end Sys2Proof.Machine
end

