-- ==== Sys2Proof/Machine/Actions.lean ====
section
/-! DEFINITION. Machine/Actions.lean: register writes with everything they do: the fields (Machine/Pages.lean), the snapshots that
selectors latch, and the actions of WO and W1C fields; and the rows of the table that are register writes. -/
namespace Sys2Proof.Machine
open Sys2Proof

/-! ## The completion ring (R54) -/

/-- R54: held completions written while the ring has room. -/
def drainCq : Nat → State → State
  | 0, s => s
  | n + 1, s =>
    match s.cpw.held with
    | [] => s
    | p :: l => if cqRoom s then drainCq n (cqWrite { s with cpw := { s.cpw with held := l } } p) else s

/-- R54: CQ_HEAD has advanced. A hold that goes on after a completion was written is a new one. -/
def cqAdvanced (s : State) : State :=
  let n := s.cpw.held.length
  let s := drainCq n s
  if s.cpw.held.isEmpty then { s with cpw := { s.cpw with fullSf := none, stalled := false } }
  else if s.cpw.held.length < n then { s with cpw := { s.cpw with fullSf := some s.sf, stalled := false } }
  else s

/-! ## What an accepted write does beyond its fields -/

/-- R198, R199: EXC_STATUS: sticky flags cleared, or everything with capture armed again. -/
def clearExc (s : State) (t : Fin 64) (v : Nat) : State :=
  let x := tileOf s t
  if bit v 31 then
    setTile s t { x with excSticky := 0, excCaptured := false, excSeen := [], excStep := 0, excWhere := 0, excKind := 0 }
  else setTile s t { x with excSticky := x.excSticky - (x.excSticky &&& (v % 64)) }

/-- R471: a write of 1 to CTR_HI.WRAP. -/
def clearWrap (s : State) (pg : PageId) (i : Nat) : State :=
  { s with ctr := mset s.ctr (pg, i) (ctrVal s pg i % 2 ^ 48) }

def groupSlot (n : Nat) : Fin 18 := ⟨n % 18, by omega⟩
def fin4 (n : Nat) : Fin 4 := ⟨n % 4, by omega⟩
def fin64 (n : Nat) : Fin 64 := ⟨n % 64, by omega⟩

/-- The effect of an accepted write of a page's register, beyond its fields; `old` is the state before the write. -/
def afterWrite (old s : State) (pg : PageId) (off v : Nat) : State :=
  match pg with
  | .cpw => if off = 0x8C then cqAdvanced s else s
  | .ffe q =>
    if off = 0x48 && bit v 31 then latchAll s pg [(0x48, 0)]
    else if off = 0x60 then latchAll s pg (ffeCellLatch s q (v % 256)) else s
  | .tile t =>
    if off = 0x60 then latchAll s pg (tileCellLatch s t (v % 256)) else if off = 0x400 then clearExc s t v else s
  | .tdec t =>
    if off = 0x48 && bit v 8 then retireSlot s t (v % 8) else if off = 0x44 then driveAll s else s
  | .line g =>
    if off = 0x44 then latchAll s pg (laneLatch s g (groupSlot (v % 32)))
    else if off = 0x84 && bit v 8 then resetLink s (g, fin4 v) else s
  | .ciph q i =>
    if off = 0x48 then latchAll s pg (ciphLinkLatch s q i (fin4 v))
    else if off = 0x54 then latchAll s pg (ciphLaneLatch s q i (groupSlot (v % 32))) else s
  | .cart i =>
    if off = 0x44 then
      let s := if bit v 1 then commission s i else s
      if bit v 0 then releaseCart s i else s
    else if off = 0x50 then latchAll s pg (laserLatch s i (v % 128)) else s
  | .leng g =>
    if off = 0x44 then latchAll s pg (lengLatch s g (groupSlot (v % 32)))
    else if off = 0x6C && bit v 0 then startSearch s g else s
  | .fpe q j =>
    if off = 0x44 then latchAll s pg (fpeLatch s q j ⟨v % 8, by omega⟩)
    else if off = 0x50 && bit v 8 then swapFabric s q j ⟨v / 2 % 2, by omega⟩ else s
  | .wrt => if off = 0x54 && bit v 8 then applyMap s (v % 4) else s
  | .fport q p =>
    let d : Fin 64 := ⟨16 * q.val + p.val, by omega⟩
    if off = 0x44 then latchAll s pg (queueLatch s d ⟨v % 32, by omega⟩)
    else if off = 0x64 && bit v 31 then clearSamples s d
    else if off = 0x104 then
      let s := if bit v 8 then setTsq s d { tsqOf s d with ovf := false } else s
      if bit v 31 then tsqPop s d else s
    else s
  | .time =>
    if off = 0x70 && bit v 0 then takeMaster s
    else if off = 0x54 && fldV old .time 0x54 15 0 ≠ fldV s .time 0x54 15 0 then changeDomain s else s
  | .tio =>
    if off = 0x60 then evtLatch s (fin4 v)
    else if off = 0x64 then
      let i := fin4 (fldV s .tio 0x60 1 0)
      let s := if bit v 13 then setEvt s i { evtOf s i with ovf := false } else s
      if bit v 31 then evtPop s i else s
    -- R47: values written while the block is idle apply at once, in this superframe
    else pulsesApplied old s
  | .launch q => if off = 0x54 && bit v 31 then { s with late := mset s.late q 0 } else s
  | .rseq =>
    let g := fldV s .rseq 0x60 10 0
    if off = 0x54 && bit v 8 then rsCommand s (v % 8) (fld v 31 16)
    else if off = 0x58 then latchAll s pg (tileChargeLatch s (fin64 v))
    else if off = 0x60 then latchAll s pg (rosterLatch s (v % 2048))
    else if 0x64 ≤ off && off ≤ 0x6C then
      let s := rosterWritten s g off
      latchAll s pg (rosterLatch s g)
    else s
  | .elog =>
    if off = 0x40 && bit v 16 then { s with elog := { s.elog with wrapped := false } }
    else if off = 0x48 then latchEntry s else if off = 0x4C && bit v 0 then clearLog s else s
  | .tpool => if off = 0x74 && bit v 31 then dropJob s (v % 65536) else s
  | _ => s

/-- R44: a write of BLK_CTRL may let a decoder take blocks again. -/
def afterHeader (s : State) (pg : PageId) (off : Nat) : State :=
  match pg with
  | .tdec _ => if off = 8 then driveAll s else s
  | _ => s

/-- R471, R473: a write in the counter region: WRAP is cleared by who may write the page; CTR_LO ignores writes. -/
def counterWrite (s : State) (ag : Agent) (pg : PageId) (off v : Nat) : State × Nat :=
  let i := (off - 0x800) / 8
  if off % 8 ≠ 4 || !bit v 31 || ctrCount pg ≤ i then (s, 0)
  else if !mayWriteAll ag pg then refusePerm s ag pg off
  else (clearWrap s pg i, 0)

/-- A write of a register of a page that responds, with its status. -/
def doWrite (s : State) (ag : Agent) (pg : PageId) (off v : Nat) : State × Nat :=
  if off ≥ 0x800 && pg ≠ .dir then counterWrite s ag pg off v
  else
    let r := writeReg s ag pg off v
    if r.2 ≠ 0 then r
    else if off < 0x40 then (afterHeader r.1 pg off, 0)
    -- R393: writes of QWEIGHT for the strict queues, like those of unlisted offsets, reach nothing; and R51: a write that an agent
    -- without rights repeats changes nothing
    else if (regDef? pg off).isNone || !mayWriteAll ag pg then r
    else (afterWrite s r.1 pg off v, 0)

/-- R36, R42: a write of a page, which is an empty slot while it does not respond. -/
def pageWrite (s : State) (ag : Agent) (pg : PageId) (off v : Nat) : State × Nat :=
  if pageUp s pg then doWrite s ag pg off v else (unmapped s (pageAddr pg + off) true 4, 0)

/-- R35, R56: the host writes a word of the MSI-X table: address bits [1:0] and the reserved bits of vector control stay 0. A vector
that is unmasked while its pending bit is set is sent. -/
def msixWrite (s : State) (off v : Nat) : State :=
  if off ≥ 128 then s
  else
    let w := if off % 16 = 0 then v / 4 * 4 else if off % 16 = 12 then v % 2 else v
    let s := { s with msix := { s.msix with words := mset s.msix.words off (BitVec.ofNat 32 w) } }
    let n := off / 16
    if s.msix.pend.getLsbD n && !(s.msix.word (16 * n + 12)).getLsbD 0 then
      notify { s with msix := { s.msix with pend := s.msix.pend &&& ~~~(BitVec.ofNat 8 (2 ^ n)) } } n
    else s

/-- R35, R36, R51: a write of a word below the command-packet window; the user alias ignores it. -/
def busWrite (s : State) (ag : Agent) (a v : Nat) : State × Nat :=
  if a ≥ 0x1000000 then (s, 0)
  else if inMsix a then (if ag = .host then msixWrite s (a - 0x180000) v else s, 0)
  else match pageAt a with
    | some pg => pageWrite s ag pg (a % 4096) v
    | none => (unmapped s a true 4, 0)

/-- R52, R53: bytes written into the slots of the window; those of a disabled queue are ignored. -/
def windowWrite (s : State) (off : Nat) : Bytes → State
  | [] => s
  | b :: l =>
    let s := if off < 0x2000000 && sqEn s (fin4 (off / 0x800000)) then { s with win := memWrite s.win off b } else s
    windowWrite s (off + 1) l

/-! ## The register interface (R36, R37, R44, R47, R48) -/

/-- R37, R495: an access to registers that is not one aligned word with all byte enables: Unsupported Request, or dropped. -/
def badAccess (s : State) (a len : Nat) (write : Bool) : State :=
  let s := raise (count s .pcie 1 1) .pcie 0x2003 (a + (if write then 2 ^ 26 else 0) + min len 15 * 2 ^ 27)
  if write then s else emit s (.unsupported a)

/-- REGISTER_WRITE (R37, R48): a word written at an offset of BAR0. -/
def execRegisterWrite (ag : Agent) (off : BitVec 26) (v : Word) (s : State) : Host.Outcome State Fault Refusal :=
  let a := off.toNat
  .next (if a ≥ 0x2000000 then windowWrite s (a - 0x2000000) (leBytes 4 v.toNat)
    else if a % 4 ≠ 0 then badAccess s a 4 true
    else (busWrite s ag a v.toNat).1)

/-- BLK_CTRL with its fields at their present values, and the WO bits given. -/
def blkCtrl (s : State) (pg : PageId) (wo : Nat) : Nat := flag 0 (pageOf s pg).enable + flag 1 (pageOf s pg).quiesce + wo

/-- BLK_ENABLE (R44): a write of BLK_CTRL.ENABLE, QUIESCE carried at its value. -/
def execBlkEnable (ag : Agent) (pg : PageId) (v : Bool) (s : State) : Host.Outcome State Fault Refusal :=
  .next (pageWrite s ag pg 8 (flag 0 v + flag 1 (pageOf s pg).quiesce)).1

/-- BLK_QUIESCE (R44): a write of BLK_CTRL.QUIESCE, ENABLE carried at its value. -/
def execBlkQuiesce (ag : Agent) (pg : PageId) (v : Bool) (s : State) : Host.Outcome State Fault Refusal :=
  .next (pageWrite s ag pg 8 (flag 0 (pageOf s pg).enable + flag 1 v)).1

/-- ERR_CLR (R43): a write of BLK_CTRL.ERR_CLR. -/
def execErrClr (ag : Agent) (pg : PageId) (s : State) : Host.Outcome State Fault Refusal :=
  .next (pageWrite s ag pg 8 (blkCtrl s pg 4)).1

/-- CFG_ABORT (R47): a write of BLK_CTRL.CFG_ABORT. -/
def execCfgAbort (ag : Agent) (pg : PageId) (s : State) : Host.Outcome State Fault Refusal :=
  .next (pageWrite s ag pg 8 (blkCtrl s pg 8)).1

/-- ERR_FIRST_REARM (R43): a 1 written to ERR_STATUS.FIRST_VALID. -/
def execErrFirstRearm (ag : Agent) (pg : PageId) (s : State) : Host.Outcome State Fault Refusal :=
  .next (pageWrite s ag pg 0x10 0x100).1

/-- R36: whether an offset reaches nothing: a reserved range or an empty page slot, below the window; in the alias, of the image. -/
def isUnmapped (s : State) (a : Nat) : Bool :=
  decide (a < 0x2000000) && !inMsix (a % 0x1000000) &&
  (match pageAt (a % 0x1000000) with | some pg => !pageUp s pg | none => true)

/-- UNMAPPED_ACCESS (R36): a read returns 0, a write is ignored; the access is recorded on the PCIE page. -/
def execUnmappedAccess (ag : Agent) (off : BitVec 26) (write : Bool) (s : State) : Host.Outcome State Fault Refusal :=
  .next (if !isUnmapped s off.toNat || (ag ≠ .host && off.toNat ≥ 0x1000000) then s
    else
      let s := unmapped s off.toNat write 4
      if write then s else emit s (.readAnswer off.toNat 0))

/-- ACCESS_SIZE (R37, R495): an access to registers that is not one aligned word with all its byte enables. -/
def execAccessSize (off : BitVec 26) (size : Extent) (write : Bool) (s : State) : Host.Outcome State Fault Refusal :=
  .next (if off.toNat ≥ 0x2000000 || size.len = 0 || (size.len = 4 && off.toNat % 4 = 0 && size.full) then s
    else badAccess s off.toNat size.len write)

/-! ## The window and the completion ring (R52 to R54) -/

/-- WINDOW_SLOT_WRITE (R52, R53): bytes written into the window. -/
def execWindowSlotWrite (off : BitVec 25) (data : Bytes) (s : State) : Host.Outcome State Fault Refusal :=
  .next (windowWrite s off.toNat data)

/-- SQ_TAIL_WRITE (R53). -/
def execSqTailWrite (ag : Agent) (q : Fin 4) (v : Word) (s : State) : Host.Outcome State Fault Refusal :=
  .next (pageWrite s ag .cpw (0x40 + 16 * q.val) v.toNat).1

/-- CQ_HEAD_WRITE (R54). -/
def execCqHeadWrite (ag : Agent) (v : Word) (s : State) : Host.Outcome State Fault Refusal :=
  .next (pageWrite s ag .cpw 0x8C v.toNat).1

/-- CQ_STALL (R54): the ring has stayed full for CQ_STALL_LIMIT µs. The spec gives the code no ERR_FIRST_INFO; the model puts 0
(DESIGN CHOICE, entry 87). -/
def execCqStall (s : State) : Host.Outcome State Fault Refusal :=
  .next (match s.cpw.fullSf with
    | none => s
    | some f =>
      if s.cpw.held.isEmpty || s.cpw.stalled || 8 * (s.sf - f) < fldV s .cpw 0x9C 23 0 then s
      else raise { s with cpw := { s.cpw with stalled := true } } .cpw 0x2005 0)

/-- CQ_INT_DELAY_EXPIRY (R52): vector 1 for the tail advances since. -/
def execCqIntDelayExpiry (s : State) : Host.Outcome State Fault Refusal :=
  .next (if s.cpw.intWait then notify { s with cpw := { s.cpw with intWait := false } } 1 else s)

/-! ## The I3C target (R57 to R59) -/

/-- R57, R59: a dynamic address for a target that has none, and the board controller's enabling or disabling of in-band interrupts
with it (DESIGN CHOICE, entry 85). -/
def i3cAddress (s : State) (addr : BitVec 7) (ibi : Bool) : State :=
  if s.i3c.up then
    { s with i3c := { s.i3c with dyn := if s.i3c.dyn.isNone then some addr else s.i3c.dyn, ibiOn := ibi } }
  else s

/-- ENTDAA (R57): the target takes a dynamic address. -/
def execEntdaa (asg : I3cAssign) (s : State) : Host.Outcome State Fault Refusal := .next (i3cAddress s asg.addr asg.ibi)

/-- SETDASA (R57): a dynamic address to the static address 0x3A. -/
def execSetdasa (asg : I3cAssign) (s : State) : Host.Outcome State Fault Refusal := .next (i3cAddress s asg.addr asg.ibi)

/-- R58: the index after a word. -/
def i3cNext (s : State) : State := { s with i3c := { s.i3c with index := s.i3c.index + 4 } }

/-- R58, R59: the board controller reads words from the index on, which advances by 4 after each. -/
def i3cRead : Nat → State → State
  | 0, s => s
  | n + 1, s => i3cRead n (i3cNext (emit s (.i3cWord (BitVec.ofNat 32 (i3cReg s s.i3c.index.toNat)))))

/-- I3C_INDEX_WRITE (R58): the register index, and the words read from it before the next index or write (DESIGN CHOICE, entry
85: the table has no row for a read). -/
def execI3cIndexWrite (ix : I3cIndex) (s : State) : Host.Outcome State Fault Refusal :=
  .next (if s.i3c.up then i3cRead ix.words { s with i3c := { s.i3c with index := ix.idx } } else s)

/-- R59: a write of the board controller refused. The spec gives I3C_REFUSED no ERR_FIRST_INFO; the model puts 0 (DESIGN CHOICE,
entry 87). -/
def i3cRefuse (s : State) : State :=
  raise (count { s with i3c := { s.i3c with refused := true } } .i3c 0 1) .i3c 0x2006 0

/-- PWR_CAP_WRITE (R59): in range it takes effect at once; otherwise it is refused. -/
def execPwrCapWrite (v : Word) (s : State) : Host.Outcome State Fault Refusal :=
  .next (if !s.i3c.up || s.i3c.index ≠ 0x58 then s
    else
      let s := i3cNext s
      if 1000 ≤ v.toNat && v.toNat ≤ 2800 then { s with i3c := { s.i3c with cap := v.toNat } } else i3cRefuse s)

/-- I3C_REGISTER_WRITE (R59): any register other than PWR_CAP and I3C_STATUS refuses a write. -/
def execI3cRegisterWrite (v : Word) (s : State) : Host.Outcome State Fault Refusal :=
  let _ := v
  .next (if !s.i3c.up || s.i3c.index = 0x58 || s.i3c.index = 0x5C then s else i3cRefuse (i3cNext s))

/-- I3C_STATUS_WRITE (R59): REFUSED is cleared by a 1. -/
def execI3cStatusWrite (v : Word) (s : State) : Host.Outcome State Fault Refusal :=
  .next (if !s.i3c.up || s.i3c.index ≠ 0x5C then s
    else
      let s := i3cNext s
      if v.getLsbD 0 then { s with i3c := { s.i3c with refused := false } } else s)

/-! ## Rows that are one register write -/

/-- R12, R47: a register's RW fields at the values they read, with other bits added. -/
def rmw (s : State) (pg : PageId) (off bits : Nat) : Nat := rwPart s pg off ||| bits

/-- FFE_CELL_SEL_WRITE (R138). -/
def execFfeCellSelWrite (ag : Agent) (q : Fin 4) (v : Word) (s : State) : Host.Outcome State Fault Refusal :=
  .next (pageWrite s ag (.ffe q) 0x60 v.toNat).1

/-- FFE_LAT_MAX_CLR (R138). -/
def execFfeLatMaxClr (ag : Agent) (q : Fin 4) (s : State) : Host.Outcome State Fault Refusal :=
  .next (pageWrite s ag (.ffe q) 0x48 0x80000000).1

/-- TILE_CELL_SEL_WRITE (R235). -/
def execTileCellSelWrite (ag : Agent) (t : Fin 64) (v : Word) (s : State) : Host.Outcome State Fault Refusal :=
  .next (pageWrite s ag (.tile t) 0x60 v.toNat).1

/-- EXC_CLEAR (R198). -/
def execExcClear (ag : Agent) (t : Fin 64) (s : State) : Host.Outcome State Fault Refusal :=
  .next (pageWrite s ag (.tile t) 0x400 0x80000000).1

/-- TDEC_RETIRE (R280). -/
def execTdecRetire (ag : Agent) (t : Fin 64) (slot : Fin 8) (s : State) : Host.Outcome State Fault Refusal :=
  .next (pageWrite s ag (.tdec t) 0x48 (slot.val + 0x100)).1

/-- LINK_CFG_WRITE (R311, R315): of the link that LINK_SEL names. -/
def execLinkCfgWrite (ag : Agent) (g : Fin 4) (v : Word) (s : State) : Host.Outcome State Fault Refusal :=
  .next (pageWrite s ag (.line g) 0x54 v.toNat).1

/-- LINK_RESET (R311, R315). -/
def execLinkReset (ag : Agent) (g i : Fin 4) (s : State) : Host.Outcome State Fault Refusal :=
  .next (pageWrite s ag (.line g) 0x84 (i.val + 0x100)).1

/-- LANE_SEL_WRITE (R315). -/
def execLaneSelWrite (ag : Agent) (g : Fin 4) (v : Word) (s : State) : Host.Outcome State Fault Refusal :=
  .next (pageWrite s ag (.line g) 0x44 v.toNat).1

/-- CIPH_LINK_SEL_WRITE (R343). -/
def execCiphLinkSelWrite (ag : Agent) (q : Fin 4) (i : Fin 2) (v : Word) (s : State) : Host.Outcome State Fault Refusal :=
  .next (pageWrite s ag (.ciph q i) 0x48 v.toNat).1

/-- CIPH_LANE_SEL_WRITE (R343). -/
def execCiphLaneSelWrite (ag : Agent) (q : Fin 4) (i : Fin 2) (v : Word) (s : State) : Host.Outcome State Fault Refusal :=
  .next (pageWrite s ag (.ciph q i) 0x54 v.toNat).1

/-- CART_RELEASE (R349, R370). -/
def execCartRelease (ag : Agent) (i : Fin 2) (s : State) : Host.Outcome State Fault Refusal :=
  .next (pageWrite s ag (.cart i) 0x44 1).1

/-- CART_COMMISSION (R351, R370). -/
def execCartCommission (ag : Agent) (i : Fin 2) (s : State) : Host.Outcome State Fault Refusal :=
  .next (pageWrite s ag (.cart i) 0x44 2).1

/-- LASER_SEL_WRITE (R370). -/
def execLaserSelWrite (ag : Agent) (i : Fin 2) (v : Word) (s : State) : Host.Outcome State Fault Refusal :=
  .next (pageWrite s ag (.cart i) 0x50 v.toNat).1

/-- RING_SEARCH_GO (R354, R371). -/
def execRingSearchGo (ag : Agent) (g : Fin 4) (s : State) : Host.Outcome State Fault Refusal :=
  .next (pageWrite s ag (.leng g) 0x6C 1).1

/-- FABRIC_SPARE_SWAP (R365, R372): SWAP with HALF, AUTO carried at its value. -/
def execFabricSpareSwap (ag : Agent) (q : Fin 4) (j h : Fin 2) (s : State) : Host.Outcome State Fault Refusal :=
  .next (pageWrite s ag (.fpe q j) 0x50 (fldV s (.fpe q j) 0x50 0 0 + 2 * h.val + 0x100)).1

/-- WRT_APPLY (R367, R373). -/
def execWrtApply (ag : Agent) (bank : Fin 4) (s : State) : Host.Outcome State Fault Refusal :=
  .next (pageWrite s ag .wrt 0x54 (bank.val + 0x100)).1

/-- LENG_SLOT_SEL_WRITE (R371). -/
def execLengSlotSelWrite (ag : Agent) (g : Fin 4) (v : Word) (s : State) : Host.Outcome State Fault Refusal :=
  .next (pageWrite s ag (.leng g) 0x44 v.toNat).1

/-- FPE_PORT_SEL_WRITE (R372). -/
def execFpePortSelWrite (ag : Agent) (q : Fin 4) (j : Fin 2) (v : Word) (s : State) : Host.Outcome State Fault Refusal :=
  .next (pageWrite s ag (.fpe q j) 0x44 v.toNat).1

/-- SAMPLE_CLEAR (R394): CLR, LOG2 carried at its value. -/
def execSampleClear (ag : Agent) (p : Fin 64) (s : State) : Host.Outcome State Fault Refusal :=
  .next (pageWrite s ag (fportOf p) 0x64 (rmw s (fportOf p) 0x64 0x80000000)).1

/-- FPORT_QSEL_WRITE (R394). -/
def execFportQselWrite (ag : Agent) (p : Fin 64) (v : Word) (s : State) : Host.Outcome State Fault Refusal :=
  .next (pageWrite s ag (fportOf p) 0x44 v.toNat).1

/-- JOB_DROP (R238, R396). -/
def execJobDrop (ag : Agent) (job : BitVec 16) (s : State) : Host.Outcome State Fault Refusal :=
  .next (pageWrite s ag .tpool 0x74 (job.toNat + 0x80000000)).1

/-- LT_ELECT_TAKE (R404, R413). -/
def execLtElectTake (ag : Agent) (s : State) : Host.Outcome State Fault Refusal :=
  .next (pageWrite s ag .time 0x70 1).1

/-- LT_DOMAIN_WRITE (R413). -/
def execLtDomainWrite (ag : Agent) (v : Word) (s : State) : Host.Outcome State Fault Refusal :=
  .next (pageWrite s ag .time 0x54 v.toNat).1

/-- TSQ_POP (R409, R415). -/
def execTsqPop (ag : Agent) (p : Fin 64) (s : State) : Host.Outcome State Fault Refusal :=
  .next (pageWrite s ag (fportOf p) 0x104 0x80000000).1

/-- EVT_SEL_WRITE (R414). -/
def execEvtSelWrite (ag : Agent) (v : Word) (s : State) : Host.Outcome State Fault Refusal :=
  .next (pageWrite s ag .tio 0x60 v.toNat).1

/-- EVT_POP (R414): POP, EN and EDGE carried at their values. -/
def execEvtPop (ag : Agent) (s : State) : Host.Outcome State Fault Refusal :=
  .next (pageWrite s ag .tio 0x64 (rmw s .tio 0x64 0x80000000)).1

/-- MAX_LATE_CLR (R415). -/
def execMaxLateClr (ag : Agent) (q : Fin 4) (s : State) : Host.Outcome State Fault Refusal :=
  .next (pageWrite s ag (.launch q) 0x54 0x80000000).1

/-- RS_CMD_GO (R440). -/
def execRsCmdGo (ag : Agent) (level : Fin 8) (job : BitVec 16) (s : State) : Host.Outcome State Fault Refusal :=
  .next (pageWrite s ag .rseq 0x54 (level.val + 0x100 + job.toNat * 65536)).1

/-- ROSTER_WRITE (R436, R440): register 0 STATE, 1 FP_LO, 2 FP_HI of the entry that ROSTER_SEL names. -/
def execRosterWrite (ag : Agent) (i : Fin 3) (v : Word) (s : State) : Host.Outcome State Fault Refusal :=
  .next (pageWrite s ag .rseq (0x64 + 4 * i.val) v.toNat).1

/-- ROSTER_SEL_WRITE (R440). -/
def execRosterSelWrite (ag : Agent) (v : Word) (s : State) : Host.Outcome State Fault Refusal :=
  .next (pageWrite s ag .rseq 0x60 v.toNat).1

/-- RS_TILE_SEL_WRITE (R440). -/
def execRsTileSelWrite (ag : Agent) (v : Word) (s : State) : Host.Outcome State Fault Refusal :=
  .next (pageWrite s ag .rseq 0x58 v.toNat).1

/-- EL_SEL_WRITE (R441). -/
def execElSelWrite (ag : Agent) (v : Word) (s : State) : Host.Outcome State Fault Refusal :=
  .next (pageWrite s ag .elog 0x48 v.toNat).1

/-- EL_CLEAR (R441). -/
def execElClear (ag : Agent) (s : State) : Host.Outcome State Fault Refusal :=
  .next (pageWrite s ag .elog 0x4C 1).1

end Sys2Proof.Machine
end

