-- ==== Sys2Proof/Machine/Serve.lean ====
section
/-! DEFINITION. Machine/Serve.lean: command packets by opcode: FENCE (R69 to R71), MGMT (R102), attachment (R103), NOP (R109), the
taking of submission slots (R53), credit reports and write-offs (R106, R108); and the rows of the table that are packets. -/
namespace Sys2Proof.Machine
open Sys2Proof

/-! ## FENCE (R69 to R71) -/

/-- R69: FENCE: it waits for the packets that it found on its arrival. -/
def fenceCore (k : Ctx) (s : State) : State × Disp :=
  let w := mget s.fab.fwaits k.seq ([], 0)
  let f : Fence := { seq := k.seq, org := k.org, stream := k.h.stream, via := k.via, hdr := k.h, scope := k.h.aux.toNat,
                     waits := w.1, rolls := w.2 }
  ({ s with fab := { s.fab with fences := s.fab.fences ++ [f], fwaits := mdel s.fab.fwaits k.seq } }, .taken)

/-- The packets a FENCE waits for that are still under way. -/
def fenceFlights (s : State) (f : Fence) : List Flight := s.fab.flights.filter (fun x => f.waits.contains x.seq)

/-- R69: whether every packet that a FENCE waits for has reached the point of its scope. -/
def fenceReached (s : State) (f : Fence) : Bool :=
  if f.scope = 0 then (fenceFlights s f).all (fun x => x.accepted)
  else if f.scope = 1 then (fenceFlights s f).all (fun x => x.done)
  else
    let j := ciidJob f.hdr.ciid
    let st := ciidStep f.hdr.ciid
    committed s j st || rollCount s j st > f.rolls

/-- R71: the status of a FENCE's completion. -/
def fenceStatus (s : State) (f : Fence) : Nat := if (fenceFlights s f).any (fun x => x.bad) then 0x2104 else 0

/-- R71: a FENCE completes: its completion is sent and it leaves the list. -/
def fenceEnd (s : State) (f : Fence) : State :=
  let st := fenceStatus s f
  let s := if st ≠ 0 then raise s (viaPage f.via) st 0 else s
  let s := sendComplete s f.org f.hdr st []
  let s := { s with fab := { s.fab with fences := s.fab.fences.filter (fun x => x.seq != f.seq) } }
  pruneFlights (markDone s (fun x => x.seq == f.seq) st)

/-! ## Attachment (R103) -/

/-- R103: whether an address lies under a prefix. -/
def underPrefix (ip pfx : BitVec 128) (plen : Nat) : Bool := ip.toNat >>> (128 - plen) == pfx.toNat >>> (128 - plen)

/-- R103: the first admission rule that matches a source. -/
def matchRule (rules : List SrcRule) (ip : BitVec 128) (id : BitVec 16) : Option SrcRule :=
  rules.find? (fun r => underPrefix ip r.pfx r.plen && r.idLo ≤ id.toNat && id.toNat ≤ r.idHi)

/-- R103: one entry of a SRC_RULE payload. -/
def parseRule (b : Bytes) : SrcRule :=
  { pfx := BitVec.ofNat 128 (beAt b 0 16), plen := byteAt b 16, priv := bit (byteAt b 17) 0, req := beAt b 18 2,
    idLo := beAt b 20 2, idHi := beAt b 22 2, grant := ⟨beAt b 24 2, beAt b 26 2, beAt b 28 2, beAt b 30 2⟩ }

/-- R103: whether an entry lies in its ranges: no address bit beyond the prefix, reserved bits 0, a requester below 256. -/
def ruleOk (b : Bytes) : Bool :=
  let plen := byteAt b 16
  plen ≤ 128 && beAt b 0 16 % 2 ^ (128 - plen) == 0 && byteAt b 17 < 2 && beAt b 18 2 < 256

/-- R103: an attached source matched against new rules. -/
def rematch (rules : List SrcRule) (x : Source) : Source :=
  match matchRule rules x.ip x.id with
  | some r => { x with admitted := true, priv := r.priv, req := r.req, grant := r.grant }
  | none => { x with admitted := false }

/-- R103: SRC_RULE. -/
def srcRule (k : Ctx) (s : State) : State × Disp :=
  let b := k.pkt.payload
  let es := (List.range (b.length / 32)).map (fun i => slice b (32 * i) 32)
  if b.length % 32 ≠ 0 || es.isEmpty || es.length > 256 || !es.all ruleOk then (s, .refuse 0x2206)
  else
    let rules := es.map parseRule
    completeNow { s with fab := { s.fab with rules := rules, srcs := s.fab.srcs.map (rematch rules) } } k []

/-- R103: the 16 bytes that an ATTACH's COMPLETE carries. -/
def attachBytes (x : Source) : Bytes :=
  beBytes 2 x.req ++ [BitVec.ofNat 8 (b2n x.priv), 0, 0, 0, 0, 0] ++ beBytes 2 x.grant.fast ++ beBytes 2 x.grant.bulk ++
  beBytes 2 x.grant.weight ++ beBytes 2 x.grant.mgmt

/-- R103: the source of an ATTACH under the rule that admits it. -/
def newSource (d : Dgram) (id : BitVec 16) (r : SrcRule) : Source :=
  { ip := d.ip, id := id, port := d.port, udpPort := d.udpPort, tagged := d.tagged, priv := r.priv, req := r.req,
    grant := r.grant, credit := Vc4.all Credit.zero, admitted := true, resetWait := [], detachWait := [] }

/-- R89, R103: ATTACH. That of an attached source waits for its packets, and renews where its packets go. A window queue is no
fabric source: no rule matches it. -/
def attachCore (k : Ctx) (s : State) : State × Disp :=
  match k.via with
  | .window _ => (s, .refuse 0x2209)
  | .fabric d =>
    match findSrc s d.ip k.h.sourceId with
    | some x =>
      if !x.admitted then (s, .refuse 0x2209)
      else (putSrc s { x with port := d.port, udpPort := d.udpPort, tagged := d.tagged, resetWait := x.resetWait ++ [k.pkt] }, .waits)
    | none =>
      match matchRule s.fab.rules d.ip k.h.sourceId with
      | none => (s, .refuse 0x2209)
      | some r =>
        if s.fab.srcs.length ≥ 2048 then (s, .refuse 0x220A)
        else
          let x := newSource d k.h.sourceId r
          completeNow { s with fab := { s.fab with srcs := s.fab.srcs ++ [x] } } k (attachBytes x)

/-- R103: whether a source is bound as a member of an instance not yet harvested. -/
def boundSrc (s : State) (org : Origin) : Bool :=
  s.coll.cells.any (fun e => e.2.st != .free && e.2.st != .harvested && e.2.bound.any (fun b => b.2.1 == org))

/-- R103: whether the gateway holds a packet of a source that has not been taken. -/
def holdsPacket (s : State) (x : Source) : Bool :=
  let org := Origin.fabric x.ip x.id
  s.fab.held.any (fun h => h.org == org) ||
  s.coll.held.any (fun i => match i.input with | .contrib _ o _ _ => o == org | .record _ _ => false) ||
  x.credit.fast.held + x.credit.bulk.held + x.credit.weight.held + x.credit.mgmt.held > 0

/-- R103: DETACH. -/
def detachCore (k : Ctx) (s : State) : State × Disp :=
  match srcOf s k.org with
  | none => (s, .refuse 0x2209)
  | some x =>
    if boundSrc s k.org then (s, .refuse 0x2210)
    else (putSrc s { x with detachWait := x.detachWait ++ [k.pkt] }, .waits)

/-- R109: NOP: a CREDIT packet on its VC. -/
def nopCore (k : Ctx) (s : State) : State × Disp :=
  (sendTo s k.org k.vc { Header.zero with opcode := 0x82, stream := k.h.stream, reqTag := k.h.reqTag } [], .done 0)

/-! ## MGMT (R102) -/

/-- R102: a function whose parameter block may come in several chunks: collected by source and function, in any order. -/
def assembled (f : Ctx → State → State × Disp) (k : Ctx) (s : State) : State × Disp :=
  let n := max k.h.chunkCount.toNat 1
  let i := k.h.chunkIndex.toNat
  let key := (k.org, k.h.arg0.toNat)
  if i ≥ n then (s, .refuse 0x2207)
  else if n = 1 then f k s
  else
    let b := mget s.fab.params key LoadBuf.none
    let b := if b.count ≠ n then LoadBuf.none else b
    let b := { b with count := n, chunks := mset b.chunks i k.pkt.payload }
    if b.full then f { k with pkt := { k.pkt with payload := b.bytes } } { s with fab := { s.fab with params := mdel s.fab.params key } }
    else completeNow { s with fab := { s.fab with params := mset s.fab.params key b } } k []

/-- R102: the NET_CFG layout of the present configuration. -/
def netBytes (n : Net) : Bytes :=
  (match n.number with
   | some x => [BitVec.ofNat 8 x.1, BitVec.ofNat 8 x.2]
   | none => [Config.noNumber 0, Config.noNumber 1]) ++
  beBytes 2 n.port ++ List.replicate 12 0 ++
  n.quads.flatMap (fun q => beBytes 16 q.raw6.toNat ++ beBytes 4 q.raw4.toNat ++
    [BitVec.ofNat 8 (b2n q.v6.isSome + 2 * b2n q.v4.isSome)] ++ List.replicate 11 0)

/-- R102: one quadrant of a NET_CFG. -/
def parseQuad (b : Bytes) : QuadAddr :=
  let a6 := BitVec.ofNat 128 (beAt b 0 16)
  let a4 := BitVec.ofNat 32 (beAt b 16 4)
  ⟨if bit (byteAt b 20) 0 then some a6 else none, if bit (byteAt b 20) 1 then some a4 else none, a6, a4⟩

/-- R102: a NET_CFG payload, read. -/
def parseNet (b : Bytes) : Net :=
  ⟨some (byteAt b 0, byteAt b 1), beAt b 2 2, (List.range 4).map (fun i => parseQuad (slice b (16 + 32 * i) 32))⟩

/-- R102: the fields of NET_CFG other than the number, in their ranges. -/
def netOk (b : Bytes) : Bool :=
  1024 ≤ beAt b 2 2 && beAt b 2 2 ≤ 65533 && (slice b 4 12).all (· == 0) &&
  (List.range 4).all (fun i => byteAt b (36 + 32 * i) < 4 && (slice b (37 + 32 * i) 11).all (· == 0))

/-- R33, R102: NET_CFG. -/
def netCfg (k : Ctx) (s : State) : State × Disp :=
  let b := k.pkt.payload
  if b.isEmpty then completeNow s k (netBytes s.fab.net)
  else if b.length ≠ 144 then (s, .refuse 0x2206)
  else if byteAt b 0 > 31 || byteAt b 1 > 63 then (s, .refuse 0x2212)
  else if !netOk b then (s, .refuse 0x2206)
  else
    let n := parseNet b
    let moves := n.number != s.fab.net.number
    let linksUp := allLinks.any (fun l => linkState s l != 0)
    let planned := s.plans.slot0.st != .empty || s.plans.slot1.st != .empty
    let tmBusy := (List.finRange 4).any (fun q => blkState s (.tm q) == 2 || blkState s (.tm q) == 3)
    if (moves && (linksUp || planned)) || (n != s.fab.net && tmBusy) then (s, .refuse 0x2001)
    else completeNow { s with fab := { s.fab with net := n } } k []

/-- R430: a job that restarts from its checkpoint begins its steps anew: what the gateway holds of its earlier attempts goes
(DESIGN CHOICE: the manual gives no other numbers to the steps it runs again). -/
def forgetJob (s : State) (job : Nat) : State :=
  { s with
    plans := { s.plans with replay := s.plans.replay.filter (fun e => e.1.1 != job),
                            committed := s.plans.committed.filter (fun e => e.1 != job),
                            tried := s.plans.tried.filter (fun e => e.1 != job),
                            rolled := s.plans.rolled.filter (fun e => e.1 != job) },
    coll := { s.coll with insts := s.coll.insts.filter (fun e => ciidJob e.1 != job) } }

/-- R74, R102, R430: SET_EPOCH: the number of the loaded weights; a level-5 recovery ends here. -/
def setEpoch (k : Ctx) (s : State) : State × Disp :=
  let b := k.pkt.payload
  let job := beAt b 0 2
  let e := beAt b 4 4
  if b.length ≠ 8 || beAt b 2 2 ≠ 0 || e > 0xFFFFFFFE then (s, .refuse 0x2206)
  else if planRuns s job then refuseOuter s 0x2902
  else
    let s := if (jobOf s job).lost then forgetJob s job else s
    let s := setJob s job { jobOf s job with epoch := e, prev := false, lost := false }
    let s := if mget s.rseq.level job 0 = 5 then { s with rseq := { s.rseq with level := mdel s.rseq.level job } } else s
    completeNow s k []

/-- R36, R51, R102: one register read for PAGE_READ, with CCF's rights. -/
def pageReadOne (s : State) (a : Nat) : State × Nat := busRead s 2 a (Config.readOffset s.sf s.fab.seq % 128000)

/-- R102: registers read one after the other. -/
def pageReads (s : State) (a : Nat) : Nat → State × Bytes
  | 0 => (s, [])
  | n + 1 =>
    let r := pageReadOne s a
    let t := pageReads r.1 (a + 4) n
    (t.1, beBytes 4 r.2 ++ t.2)

/-- R102: PAGE_READ. -/
def pageRead (k : Ctx) (s : State) : State × Disp :=
  let b := k.pkt.payload
  let a := beAt b 0 4
  let n := beAt b 4 2
  if b.length ≠ 8 || beAt b 6 2 ≠ 0 || a % 4 ≠ 0 || a ≥ 0x1000000 || n = 0 || n > 1024 || a % 4096 + 4 * n > 4096 then
    (s, .refuse 0x2206)
  else
    let r := pageReads s a n
    completeNow r.1 k r.2

/-- R102: the entries of a PAGE_WRITE applied in order, with the status of each. -/
def pageWrites (s : State) : List (Nat × Nat) → State × List Nat
  | [] => (s, [])
  | e :: l =>
    let r := busWrite s .ccf e.1 e.2
    let t := pageWrites r.1 l
    (t.1, r.2 :: t.2)

/-- R102: PAGE_WRITE. -/
def pageWriteFn (k : Ctx) (s : State) : State × Disp :=
  let b := k.pkt.payload
  let n := beAt b 0 2
  let es := (List.range n).map (fun i => (beAt b (8 + 8 * i) 4, beAt b (12 + 8 * i) 4))
  if b.length < 8 || n = 0 || n > 128 || b.length ≠ 8 + 8 * n || (slice b 2 6).any (· != 0) ||
      es.any (fun e => e.1 % 4 != 0 || e.1 ≥ 0x1000000) then (s, .refuse 0x2206)
  else
    let r := pageWrites s es
    let st := (r.2.find? (· != 0)).getD 0
    (sendComplete r.1 k.org k.h st (r.2.flatMap (beBytes 2)), .done st)

/-- R102, R207: the function codes that are defined. -/
def mgmtDefined (f : Nat) : Bool := f ∈ [1, 2, 3, 4, 5, 0x100, 0x101, 0x102, 0x103, 0x104, 0x105]

/-- R102: MGMT by its function code. -/
def mgmtCore (k : Ctx) (s : State) : State × Disp :=
  match k.h.arg0.toNat with
  | 0x0001 => assembled netCfg k s
  | 0x0002 => assembled srcRule k s
  | 0x0003 => assembled setEpoch k s
  | 0x0004 => assembled pageRead k s
  | 0x0005 => assembled pageWriteFn k s
  | 0x0100 => planLoad k s
  | 0x0101 => assembled (fun k s => if byteAt k.pkt.payload 1 = 1 then planReplace k s else planStart k s) k s
  | 0x0102 => assembled planStop k s
  | 0x0103 => assembled planDrop k s
  | 0x0104 => assembled planStatus k s
  | 0x0105 => assembled tileRelease k s
  | _ => (s, .refuse 0x2206)

/-- R240: STATE_WRITE by its quantity code. -/
def stateWriteCore (k : Ctx) (s : State) : State × Disp :=
  match k.h.aux.toNat with
  | 0 => writeTable k s
  | 1 => writeWeights k s
  | 2 => writeMomentum k s
  | 4 => writeBlocks k s
  | _ => (s, .refuse 0x2206)

/-- R240: STATE_READ by its quantity code. -/
def stateReadCore (k : Ctx) (s : State) : State × Disp :=
  match k.h.aux.toNat with
  | 1 => readWeights k s
  | 2 => readMomentum k s
  | 4 => readBlocks k s
  | _ => (s, .refuse 0x2206)

/-- R93, R453: a request by its opcode. -/
def serve (k : Ctx) (s : State) : State × Disp :=
  match k.h.opcode.toNat with
  | 0x01 => contribCore k s
  | 0x02 => fenceCore k s
  | 0x03 => ackCore k s
  | 0x04 => resendCore k s
  | 0x05 => readEpoch k s
  | 0x06 => weightPull k s
  | 0x07 => tableLoad k s
  | 0x08 => stateWriteCore k s
  | 0x09 => stateReadCore k s
  | 0x0A => mgmtCore k s
  | 0x0B => attachCore k s
  | 0x0C => detachCore k s
  | 0x0D => nopCore k s
  | 0x70 => imgWrite k s
  | 0x71 => imgCommit k s
  | 0x72 => bootGo k s
  | 0x73 => flashStore k s
  | 0x74 => flashLoad k s
  | 0x75 => bootQuery k s
  | _ => (s, .refuse 0x2203)

/-- R69, R70: held packets of a stream taken in order, up to the next FENCE. -/
def takeFenced : List HeldPkt → State → State
  | [], s => s
  | p :: l, s =>
    if fenced s p.org p.pkt.hdr.stream then s
    else
      let s := { s with fab := { s.fab with held := s.fab.held.filter (fun x => x.seq != p.seq) } }
      let s := releaseOpt s p.tray
      let k : Ctx := ⟨p.via, p.org, p.pkt, p.seq⟩
      takeFenced l (handle k serve s)

/-! ## The rows that are packets -/

/-- A packet served where it belongs to a row of the table. -/
def rowPacket (row : Header → Bool) (via : Via) (p : Packet) (s : State) : State :=
  if row p.hdr then receive via p serve s else s

def opIs (op : Nat) (h : Header) : Bool := h.opcode.toNat == op
def mgmtIs (f : Nat) (h : Header) : Bool := opIs 0x0A h && h.arg0.toNat == f
def qtyIs (op qty : Nat) (h : Header) : Bool := opIs op h && h.aux.toNat == qty

/-- UNDEFINED_OPCODE (R91). -/
def execUndefinedOpcode (via : Via) (p : Packet) (s : State) : Host.Outcome State Fault Refusal :=
  .next (rowPacket (fun h => !isRequest h.opcode.toNat) via p s)

/-- CONTRIB (R95). -/
def execContrib (via : Via) (p : Packet) (s : State) : Host.Outcome State Fault Refusal := .next (rowPacket (opIs 0x01) via p s)

/-- FENCE of scope ACCEPT (R69), and one of an undefined scope, which R94 refuses. -/
def execFenceAccept (via : Via) (p : Packet) (s : State) : Host.Outcome State Fault Refusal :=
  .next (rowPacket (fun h => opIs 0x02 h && h.aux != 1 && h.aux != 2) via p s)

/-- FENCE of scope COMPLETE (R69). -/
def execFenceComplete (via : Via) (p : Packet) (s : State) : Host.Outcome State Fault Refusal := .next (rowPacket (qtyIs 0x02 1) via p s)

/-- FENCE of scope STEP (R69). -/
def execFenceStep (via : Via) (p : Packet) (s : State) : Host.Outcome State Fault Refusal := .next (rowPacket (qtyIs 0x02 2) via p s)

/-- ACK (R98). -/
def execAck (via : Via) (p : Packet) (s : State) : Host.Outcome State Fault Refusal := .next (rowPacket (opIs 0x03) via p s)

/-- RESEND (R98). -/
def execResend (via : Via) (p : Packet) (s : State) : Host.Outcome State Fault Refusal := .next (rowPacket (opIs 0x04) via p s)

/-- READ_EPOCH (R101). -/
def execReadEpoch (via : Via) (p : Packet) (s : State) : Host.Outcome State Fault Refusal := .next (rowPacket (opIs 0x05) via p s)

/-- WEIGHT_PULL (R100). -/
def execWeightPull (via : Via) (p : Packet) (s : State) : Host.Outcome State Fault Refusal := .next (rowPacket (opIs 0x06) via p s)

/-- TABLE_LOAD (R271). -/
def execTableLoad (via : Via) (p : Packet) (s : State) : Host.Outcome State Fault Refusal := .next (rowPacket (opIs 0x07) via p s)

/-- STATE_WRITE of TABLE (R238). -/
def execStateWriteTable (via : Via) (p : Packet) (s : State) : Host.Outcome State Fault Refusal := .next (rowPacket (qtyIs 0x08 0) via p s)

/-- STATE_WRITE of WEIGHTS (R240). -/
def execStateWriteWeights (via : Via) (p : Packet) (s : State) : Host.Outcome State Fault Refusal := .next (rowPacket (qtyIs 0x08 1) via p s)

/-- STATE_WRITE of MOMENTUM (R240). -/
def execStateWriteMomentum (via : Via) (p : Packet) (s : State) : Host.Outcome State Fault Refusal := .next (rowPacket (qtyIs 0x08 2) via p s)

/-- STATE_WRITE of WEIGHT_BLOCKS (R262). -/
def execStateWriteWeightBlocks (via : Via) (p : Packet) (s : State) : Host.Outcome State Fault Refusal :=
  .next (rowPacket (qtyIs 0x08 4) via p s)

/-- STATE_READ of WEIGHTS (R240). -/
def execStateReadWeights (via : Via) (p : Packet) (s : State) : Host.Outcome State Fault Refusal := .next (rowPacket (qtyIs 0x09 1) via p s)

/-- STATE_READ of MOMENTUM (R240). -/
def execStateReadMomentum (via : Via) (p : Packet) (s : State) : Host.Outcome State Fault Refusal := .next (rowPacket (qtyIs 0x09 2) via p s)

/-- STATE_READ of WEIGHT_BLOCKS (R264). -/
def execStateReadWeightBlocks (via : Via) (p : Packet) (s : State) : Host.Outcome State Fault Refusal :=
  .next (rowPacket (qtyIs 0x09 4) via p s)

/-- R240: the quantity codes that a STATE_WRITE or STATE_READ refuses. -/
def badQty (h : Header) : Bool :=
  (opIs 0x08 h && !(h.aux.toNat ∈ [0, 1, 2, 4])) || (opIs 0x09 h && !(h.aux.toNat ∈ [1, 2, 4]))

/-- A STATE_WRITE or STATE_READ of a code undefined or not allowed for it (R240). -/
def execInvalidQuantityCode (via : Via) (p : Packet) (s : State) : Host.Outcome State Fault Refusal := .next (rowPacket badQty via p s)

/-- MGMT NET_CFG (R102). -/
def execNetCfg (via : Via) (p : Packet) (s : State) : Host.Outcome State Fault Refusal := .next (rowPacket (mgmtIs 1) via p s)

/-- MGMT SRC_RULE (R103). -/
def execSrcRule (via : Via) (p : Packet) (s : State) : Host.Outcome State Fault Refusal := .next (rowPacket (mgmtIs 2) via p s)

/-- MGMT SET_EPOCH (R74, R102). -/
def execSetEpoch (via : Via) (p : Packet) (s : State) : Host.Outcome State Fault Refusal := .next (rowPacket (mgmtIs 3) via p s)

/-- MGMT PAGE_READ (R102). -/
def execPageRead (via : Via) (p : Packet) (s : State) : Host.Outcome State Fault Refusal := .next (rowPacket (mgmtIs 4) via p s)

/-- MGMT PAGE_WRITE (R102). -/
def execPageWrite (via : Via) (p : Packet) (s : State) : Host.Outcome State Fault Refusal := .next (rowPacket (mgmtIs 5) via p s)

/-- MGMT of an undefined function code (R102). -/
def execMgmtUndefinedFunction (via : Via) (p : Packet) (s : State) : Host.Outcome State Fault Refusal :=
  .next (rowPacket (fun h => opIs 0x0A h && !mgmtDefined h.arg0.toNat) via p s)

/-- MGMT PLAN_LOAD (R207). -/
def execPlanLoad (via : Via) (p : Packet) (s : State) : Host.Outcome State Fault Refusal := .next (rowPacket (mgmtIs 0x100) via p s)

/-- MGMT PLAN_START in mode START (R208), and in an undefined mode, which is refused. -/
def execPlanStart (via : Via) (p : Packet) (s : State) : Host.Outcome State Fault Refusal :=
  .next (rowPacket (fun h => mgmtIs 0x101 h && byteAt p.payload 1 != 1) via p s)

/-- MGMT PLAN_START in mode REPLACE (R208). -/
def execPlanReplace (via : Via) (p : Packet) (s : State) : Host.Outcome State Fault Refusal :=
  .next (rowPacket (fun h => mgmtIs 0x101 h && byteAt p.payload 1 == 1) via p s)

/-- MGMT PLAN_STOP (R207). -/
def execPlanStop (via : Via) (p : Packet) (s : State) : Host.Outcome State Fault Refusal := .next (rowPacket (mgmtIs 0x102) via p s)

/-- MGMT PLAN_DROP (R207). -/
def execPlanDrop (via : Via) (p : Packet) (s : State) : Host.Outcome State Fault Refusal := .next (rowPacket (mgmtIs 0x103) via p s)

/-- MGMT PLAN_STATUS (R207). -/
def execPlanStatus (via : Via) (p : Packet) (s : State) : Host.Outcome State Fault Refusal := .next (rowPacket (mgmtIs 0x104) via p s)

/-- MGMT TILE_RELEASE (R207). -/
def execTileRelease (via : Via) (p : Packet) (s : State) : Host.Outcome State Fault Refusal := .next (rowPacket (mgmtIs 0x105) via p s)

/-- ATTACH (R103). -/
def execAttach (via : Via) (p : Packet) (s : State) : Host.Outcome State Fault Refusal := .next (rowPacket (opIs 0x0B) via p s)

/-- DETACH (R103). -/
def execDetach (via : Via) (p : Packet) (s : State) : Host.Outcome State Fault Refusal := .next (rowPacket (opIs 0x0C) via p s)

/-- NOP (R109). -/
def execNop (via : Via) (p : Packet) (s : State) : Host.Outcome State Fault Refusal := .next (rowPacket (opIs 0x0D) via p s)

/-- IMG_WRITE (R453). -/
def execImgWrite (via : Via) (p : Packet) (s : State) : Host.Outcome State Fault Refusal := .next (rowPacket (opIs 0x70) via p s)

/-- IMG_COMMIT (R454). -/
def execImgCommit (via : Via) (p : Packet) (s : State) : Host.Outcome State Fault Refusal := .next (rowPacket (opIs 0x71) via p s)

/-- BOOT_GO (R456). -/
def execBootGo (via : Via) (p : Packet) (s : State) : Host.Outcome State Fault Refusal := .next (rowPacket (opIs 0x72) via p s)

/-- FLASH_STORE (R460). -/
def execFlashStore (via : Via) (p : Packet) (s : State) : Host.Outcome State Fault Refusal := .next (rowPacket (opIs 0x73) via p s)

/-- FLASH_LOAD (R460). -/
def execFlashLoad (via : Via) (p : Packet) (s : State) : Host.Outcome State Fault Refusal := .next (rowPacket (opIs 0x74) via p s)

/-- BOOT_QUERY (R453). -/
def execBootQuery (via : Via) (p : Packet) (s : State) : Host.Outcome State Fault Refusal := .next (rowPacket (opIs 0x75) via p s)

/-- FABRIC_FRAME_DROP (R86): a frame outside the encapsulation, or for a quadrant without an address, is counted and dropped. -/
def execFabricFrameDrop (d : Dgram) (s : State) : Host.Outcome State Fault Refusal :=
  .next (if admitsFrame s d then s else count s (fportOf d.port) 0 1)

/-! ## The window (R52, R53) -/

/-- R52: the packet that a slot holds: its header and as many payload bytes as it names, within the slot. -/
def slotPacket (s : State) (q : Fin 4) (slot : Nat) : Packet :=
  let a := q.val * 0x800000 + slot * 0x4000
  let h := parseHdr (memBytes s.win a 64)
  ⟨h, memBytes s.win (a + 64) (min h.payloadLen.toNat 16320)⟩

/-- R53, R383: a slot's packet copied into a tray of the queue's requester, which is freed once the packet has been taken; POOL_EMPTY
refuses the packet (R387). -/
def takeSlot (s : State) (q : Fin 4) (p : Packet) : State :=
  match allocPond s (reqOf s (.win q)) 0 with
  | none => refuseRaw (count s .tpool 0 1) (.window q) p.hdr 0x2301
  | some (s, t) => receive (.window q) p serve (releaseTray (trayMoved s t (64 + p.payload.length)) t)

/-- SQ_SLOT_TAKE (R53): the next filled slot of an enabled queue, while the CPW block takes work (R44); in BARE, SQ1 is served
whatever the page holds (R55). -/
def execSqSlotTake (q : Fin 4) (s : State) : Host.Outcome State Fault Refusal :=
  let head := mget s.cpw.heads q 0
  let tail := fldV s .cpw (0x40 + 0x10 * q.val) 15 0
  .next (if sqEn s q && head != tail && (s.mode = some .bare || takesWork s .cpw) then
      takeSlot (count { s with cpw := { s.cpw with heads := mset s.cpw.heads q ((head + 1) % 512) } } .cpw 0 1) q
        (slotPacket s q head)
    else s)

/-! ## What follows a packet -/

/-- FENCE_DONE (R71): the FENCE of a source and stream completes, and the packets behind it are taken. -/
def execFenceDone (org : Origin) (stream : BitVec 8) (s : State) : Host.Outcome State Fault Refusal :=
  .next (match s.fab.fences.find? (fun f => f.org == org && f.stream == stream) with
    | none => s
    | some f =>
      if fenceReached s f then
        let s := fenceEnd s f
        takeFenced (s.fab.held.filter (fun p => p.org == org && p.pkt.hdr.stream == stream)) s
      else s)

/-- The flights of a source under an opcode are done. -/
def endFlights (s : State) (org : Origin) (op st : Nat) : State :=
  pruneFlights (markDone s (fun x => x.org == org && x.op == op && !x.done) st)

/-- ATTACH_RESET (R103): the packets of an attached source have been taken, so its credit counters are 0. -/
def execAttachReset (ip : BitVec 128) (id : BitVec 16) (s : State) : Host.Outcome State Fault Refusal :=
  .next (match findSrc s ip id with
    | none => s
    | some x =>
      if x.resetWait.isEmpty || holdsPacket s x then s
      else
        let s := putSrc s { x with credit := Vc4.all Credit.zero, resetWait := [] }
        let s := x.resetWait.foldl (fun (s : State) (p : Packet) => sendComplete s (.fabric ip id) p.hdr 0 (attachBytes x)) s
        endFlights s (.fabric ip id) 0x0B 0)

/-- R103: a source that leaves, with what was collected for it. -/
def leaveSrc (s : State) (ip : BitVec 128) (id : BitVec 16) : State :=
  let s := dropSrc s ip id
  { s with fab := { s.fab with params := s.fab.params.filter (fun e => e.1.1 != Origin.fabric ip id) } }

/-- SOURCE_DETACH (R103): the packets of a detaching source have been taken. One that a held contribution has bound meanwhile is
still a member of an unharvested instance. -/
def execSourceDetach (ip : BitVec 128) (id : BitVec 16) (s : State) : Host.Outcome State Fault Refusal :=
  .next (match findSrc s ip id with
    | none => s
    | some x =>
      if x.detachWait.isEmpty || holdsPacket s x then s
      else
        let st := if boundSrc s (.fabric ip id) then 0x2210 else 0
        let s := putSrc s { x with detachWait := [] }
        let s := x.detachWait.foldl (fun (s : State) (p : Packet) => sendComplete s (.fabric ip id) p.hdr st []) s
        let s := endFlights s (.fabric ip id) 0x0C st
        if st = 0 then leaveSrc s ip id else s)

/-- UNADMITTED_SOURCE_DETACH (R103). -/
def execUnadmittedSourceDetach (ip : BitVec 128) (id : BitVec 16) (s : State) : Host.Outcome State Fault Refusal :=
  .next (match findSrc s ip id with
    | none => s
    | some x => if x.admitted || holdsPacket s x || boundSrc s (.fabric ip id) then s else leaveSrc s ip id)

/-- CREDIT_REPORT (R106). -/
def execCreditReport (ip : BitVec 128) (id : BitVec 16) (vc : Fvc) (s : State) : Host.Outcome State Fault Refusal :=
  .next (match findSrc s ip id with
    | none => s
    | some x => if (x.credit.get vc).unrep = 0 then s else sendCredit s ip id vc 0 0)

/-- R108: a gap whose 16 µs (2 superframes) have passed, written off. -/
def writeOff (c : Credit) (g : Gap) (sf : Nat) : Credit :=
  let n := (g.hi - g.lo).toNat + 1
  let c := { c with gaps := c.gaps.filter (· != g), ret := c.ret + BitVec.ofNat 32 n, off := c.off + n,
                    unrep := c.unrep + n, unrepSf := if c.unrep = 0 then sf else c.unrepSf }
  { c with w := creditW c }

/-- CREDIT_GAP_WRITE_OFF (R108): the lowest gap that has stood for 16 µs. -/
def execCreditGapWriteOff (ip : BitVec 128) (id : BitVec 16) (vc : Fvc) (s : State) : Host.Outcome State Fault Refusal :=
  .next (match findSrc s ip id with
    | none => s
    | some x =>
      match (x.credit.get vc).gaps.find? (fun g => decide (g.sf + 2 ≤ s.sf)) with
      | none => s
      | some g =>
        let c := writeOff (x.credit.get vc) g s.sf
        let s := putSrc s { x with credit := x.credit.set vc c }
        if 2 * c.unrep ≥ x.grant.get vc then sendCredit s ip id vc 0 0 else s)

end Sys2Proof.Machine
end

