-- ==== Sys2Proof/Machine/Module.lean ====
section
/-! DEFINITION. Machine/Module.lean: the module: the power manager's ceiling (R229 to R231), temperature limits (R491), cartridge
feeds (R484), the registers of the I3C target (R59), and quarantine by command (R234). -/
namespace Sys2Proof.Machine
open Sys2Proof

/-! ## Upsets -/

/-- A bit upset of a byte in storage (R65, R167). -/
def upset (s : State) : Upset → State
  | .acc c e m =>
    let cl := cellOf s c
    match mget? cl.acc e with
    | some w => setCell s c { cl with acc := mset cl.acc e (w ^^^ m.toNat) }
    | none => s
  | .mem a m => { s with mem := memWrite s.mem a (memRead s.mem a ^^^ m) }
  | .final c k i j m =>
    let cl := cellOf s c
    match mget? cl.finals k with
    | none => s
    | some f =>
      match mget? f.chunks i with
      | none => s
      | some e =>
        if j < e.1.length then
          let f' : ShardFin := { f with chunks := mset f.chunks i (e.1.set j (e.1.getD j 0 ^^^ m), e.2) }
          setCell s c { cl with finals := mset cl.finals k f' }
        else s

/-! ## Temperature (R491) -/

/-- R491: the warning, limit and trip thresholds of a sensor class in °C: 0 die, 1 pond, 2 line engine. -/
def warnAt (s : State) (i : Fin 3) : Int := match i with | 0 => fldV s .pwr 0x64 7 0 | 1 => 90 | _ => 80
def limitAt (i : Fin 3) : Option Int := match i with | 0 => some 105 | 1 => some 95 | _ => none
def tripAt (i : Fin 3) : Int := match i with | 0 => 115 | 1 => 105 | _ => 90

/-- R491: the hottest reading of a class. -/
def reading (s : State) (i : Fin 3) : Int :=
  match i with
  | 0 => s.therm.quads.foldl (fun m e => max m e.2) s.therm.die
  | 1 => s.therm.pond
  | _ => s.therm.line

/-- R493: ERR_FIRST_INFO of a temperature code: the class and the reading. -/
def thermInfo (s : State) (i : Fin 3) : Nat := i.val + (reading s i % 65536).toNat * 65536

/-- R491, R494: the warning of one class. -/
def warnClass (s : State) (i : Fin 3) : State :=
  let hot := decide (reading s i ≥ 16 * warnAt s i)
  let was := s.therm.warn.contains i
  if hot && !was then
    raise { s with therm := { s.therm with warn := s.therm.warn ++ [i] } } .pwr 0x1311 (thermInfo s i)
  else if !hot && was then { s with therm := { s.therm with warn := s.therm.warn.filter (· != i) } }
  else s

/-- R491, R494: the limit of one class: an episode ends 2 °C below the limit. -/
def limitClass (s : State) (i : Fin 3) : State :=
  match limitAt i with
  | none => s
  | some t =>
    let was := s.therm.limit.contains i
    if !was && reading s i > 16 * t then
      raise { s with therm := { s.therm with limit := s.therm.limit ++ [i] } } .pwr 0x1312 (thermInfo s i)
    else if was && reading s i ≤ 16 * (t - 2) then
      { s with therm := { s.therm with limit := s.therm.limit.filter (· != i) } }
    else s

/-- R59, R491: ALARM_SUM bit 2: set with a warning, cleared when every sensor is 3 °C below its threshold. -/
def thermAlarm (s : State) : State :=
  if !s.therm.warn.isEmpty then
    if s.therm.alarm then s
    else
      let s := { s with therm := { s.therm with alarm := true } }
      if s.i3c.ibiOn then emit s .ibi else s
  else if s.therm.alarm && ([0, 1, 2] : List (Fin 3)).all (fun i => decide (reading s i ≤ 16 * (warnAt s i - 3))) then
    { s with therm := { s.therm with alarm := false } }
  else s

/-- R491: the classes at their trip threshold. -/
def tripped (s : State) : Option (Fin 3) := ([0, 1, 2] : List (Fin 3)).find? (fun i => decide (reading s i ≥ 16 * tripAt i))

/-- R491, R494: a trip: THERM_TRIP is logged, the pass switch opens, and the module is dark. -/
def trip (s : State) (i : Fin 3) : State :=
  let s := cleared (raise s .pwr 0x4311 (thermInfo s i))
  { s with boot := { s.boot with trip := true } }

/-- R491: temperatures against their thresholds. -/
def thermTick (s : State) : State :=
  let cs : List (Fin 3) := [0, 1, 2]
  thermAlarm (cs.foldl limitClass (cs.foldl warnClass s))

/-! ## The ceiling (R229 to R231) -/

/-- R229, R230: the ceiling before the cap: along a running ramp, the lower of its rate and PWR_SLEW governing a rise, and then at its
TARGET; after the demand where no ramp has started; with whether PWR_SLEW or PWR_UNDECL holds it down. A ramp runs, its stay at TARGET
included, until another replaces it (DEDUCED, entry 106). -/
def ceilMove (s : State) (rise : Nat) : Nat × Bool :=
  let p := s.power
  let slew := fldV s .pwr 0x48 9 0
  let und := 2200 / fldV s .pwr 0x4C 6 0
  match p.running with
  | some r =>
    let up := decide (p.ceil < 1375 * r.target)
    (rampStep p.ceil (if up then { r with rate := min r.rate slew } else r), up && decide (slew < r.rate))
  | none =>
    let d := min 275000 (25 * p.demand)
    if p.ceil < d then
      if rise ≥ 10 * slew then (p.ceil, true) else (min d (p.ceil + und), decide (p.ceil + und < d))
    else (max d (p.ceil - und), false)

/-- R231, R491: the ceiling that PWR_CAP and the temperature limits leave. -/
def ceilTop (s : State) : Nat :=
  let p := s.power
  let cap := 10 * s.i3c.cap
  min (if p.module ≥ cap then p.ceil - 25 * (p.module - cap) else 275000)
    (if s.therm.limit.isEmpty then 275000 else Config.limitCeil s.sf)

/-- R230, R231, R493: PWR_CEIL and its counters over one superframe, and the step records of running steps. -/
def powerTick (rise : Nat) (s : State) : State :=
  let p := s.power
  let m := ceilMove s rise
  let top := ceilTop s
  let c := min m.1 top
  let above := decide (p.module > 10 * s.i3c.cap)
  let cap := decide (top < m.1) || !s.therm.limit.isEmpty
  let s := { s with power := { p with
    ceil := c, slewHold := m.2, capHold := cap,
    throttle := if c = 0 && (above || !s.therm.limit.isEmpty) then 25 else 100, overSf := if above then p.overSf else none } }
  let s := if m.2 then count s .pwr 0 9600 else s
  let s := if cap then count s .pwr 1 9600 else s
  let bits := (if m.2 then 128 else 0) + (if cap then 256 else 0)
  if bits = 0 then s
  else (List.finRange 64).foldl (fun s t => if tileBusy (tileOf s t) then tileFlag s t bits else s) s

/-! ## Cartridge feeds (R484, R493) -/

/-- CART_FEED_OVERCURRENT (R484): a feed is switched off, its bay enters SAFE, and CART_LOST is raised. -/
def execCartFeedOvercurrent (i : Fin 2) (s : State) : Host.Outcome State Fault Refusal :=
  let c := bay s i
  .next (if c.st = .empty || c.st = .safe then s
    else raise (unpower (setBay s i { c with st := .safe, power := 0 }) i) (.cart i) 0x3D01 0)

/-! ## Quarantine by command (R234) -/

/-- TILE_QUARANTINE_COMMAND (R234): in TEST mode only. -/
def execTileQuarantineCommand (t : Fin 64) (s : State) : Host.Outcome State Fault Refusal :=
  .next (if s.mode ≠ some .test || (pageOf s (.tile t)).quarantined then s else quarantineTile s t)

end Sys2Proof.Machine
end

