-- ==== Sys2Proof/Machine/Boundary.lean ====
section
/-! DEFINITION. Machine/Boundary.lean: SUPERFRAME_BOUNDARY: what happens at SF n, slot 0, offset 0 (R46, R47), with the
measurements of the superframe that ends. -/
namespace Sys2Proof.Machine
open Sys2Proof

/-- The measurements of a superframe taken over. -/
def sample (s : State) (e : Env) : State :=
  let s := e.upsets.foldl upset s
  let s := { s with
    therm := { s.therm with die := e.die, pond := e.pond, line := e.line, vIn := e.vIn, iIn := e.iIn,
                            quads := e.quads.foldl (fun (m : PMap (Fin 4) Int) (x : Fin 4 × Int) => mset m x.1 x.2) s.therm.quads },
    power := { s.power with module := e.module, tensor := e.tensor, demand := e.demand, avg1s := e.avg1s,
                            temps := e.tiles.foldl (fun (m : PMap (Fin 64) Int) (x : Fin 64 × Int) => mset m x.1 x.2) s.power.temps } }
  e.feeds.foldl (fun (s : State) (x : Fin 2 × Nat) => setBay s x.1 { bay s x.1 with power := x.2 }) s

/-- R46: the pages whose epoch boundary is the superframe. Pages without E-class fields never hold pending values. -/
def sfPage : PageId → Bool
  | .tm _ | .fport _ _ | .tile _ | .tdec _ => false
  | _ => true

/-- R46, R47: pending values of the superframe pages apply, and pulse outputs take their new values (R410). -/
def applyPages (s : State) : State :=
  pulsesApplied s { s with pages := s.pages.map (fun x => if sfPage x.1 then (x.1, x.2.apply (s.sf % 2 ^ 32)) else x) }

/-- R327, R343: a farm that new values of FARM_CFG leave too slow for its group: FARM_DEGRADED. -/
def farmsSlowed (old s : State) : State :=
  (List.finRange 4).foldl (fun s g => (List.finRange 2).foldl (fun s d =>
    if paced s g d && !paced old g d then raise s (.ciph g d) 0x1C01 0 else s) s) s

/-- R478: EGRESS_WAIT of a quadrant: the clocks of a superframe in which a producer waits for egress room. -/
def countWaits (s : State) (q : Fin 4) : State :=
  if s.egress.any (fun e => quadOf e.1.1 == q && !e.2.waiting.isEmpty) then count s (.tm q) 0 9600 else s

/-- R395: the 64-byte units that a pond moved in the superframe that ends, for the line and otherwise. -/
def pondTick (s : State) (q : Fin 4) : State :=
  { s with pondBw := mset s.pondBw q (pondMoved s q), pondCtr := mset s.pondCtr q (ctrVal s (.pond q) 0, ctrVal s (.pond q) 1),
           pondPrio := s.pondPrio.filter (· != q) }


/-- What happens at a boundary, once the superframe has been counted. -/
def boundary (e : Env) (s : State) : State :=
  let s := timeTick s
  let s := lineTick s
  let s := recoveryTick s
  let s := sendHeaders s
  let s := lightTick s e.lasers e.rx
  let s := cipherTick s e.alarms
  let s := farmsSlowed s (applyPages s)
  let s := powerTick e.rise s
  let s := (List.finRange 4).foldl pondTick ((List.finRange 4).foldl countWaits s)
  let s := (s.pages.map (·.1)).foldl settlePage s
  { s with boot := { s.boot with beat := if s.boot.ccf then s.boot.beat + 1 else s.boot.beat } }

/-- SUPERFRAME_BOUNDARY (R46, R491): the next superframe begins. A gateway without power has no boundary; a temperature at its trip
threshold makes it dark. -/
def execSuperframeBoundary (e : Env) (s : State) : Host.Outcome State Fault Refusal :=
  .next (if !s.boot.reg then s
    else
      let s := thermTick (sample { s with sf := (s.sf + 1) % 2 ^ 64 } e)
      match tripped s with
      | some i => trip s i
      | none => oneClock (boundary e) s)

end Sys2Proof.Machine
end

