-- ==== Sys2Proof/Machine/Dispatch.lean ====
section
/-! DEFINITION. Machine/Dispatch.lean: one arm per command, each one direct call of its meaning. -/
namespace Sys2Proof.Machine
open Sys2Proof

/-- The effect of one command on everything but the queue. -/
def exec (i : Instr) (s : State) : Host.Outcome State Fault Refusal :=
  match i with
  | .registerWrite ag off v => Sys2Proof.Machine.execRegisterWrite ag off v s
  | .blkEnable ag pg v => Sys2Proof.Machine.execBlkEnable ag pg v s
  | .blkQuiesce ag pg v => Sys2Proof.Machine.execBlkQuiesce ag pg v s
  | .errClr ag pg => Sys2Proof.Machine.execErrClr ag pg s
  | .cfgAbort ag pg => Sys2Proof.Machine.execCfgAbort ag pg s
  | .errFirstRearm ag pg => Sys2Proof.Machine.execErrFirstRearm ag pg s
  | .unmappedAccess ag off write => Sys2Proof.Machine.execUnmappedAccess ag off write s
  | .accessSize off size write => Sys2Proof.Machine.execAccessSize off size write s
  | .windowSlotWrite off data => Sys2Proof.Machine.execWindowSlotWrite off data s
  | .sqTailWrite ag q v => Sys2Proof.Machine.execSqTailWrite ag q v s
  | .sqSlotTake q => Sys2Proof.Machine.execSqSlotTake q s
  | .cqHeadWrite ag v => Sys2Proof.Machine.execCqHeadWrite ag v s
  | .cqStall => Sys2Proof.Machine.execCqStall s
  | .cqIntDelayExpiry => Sys2Proof.Machine.execCqIntDelayExpiry s
  | .entdaa asg => Sys2Proof.Machine.execEntdaa asg s
  | .setdasa asg => Sys2Proof.Machine.execSetdasa asg s
  | .i3cIndexWrite ix => Sys2Proof.Machine.execI3cIndexWrite ix s
  | .pwrCapWrite v => Sys2Proof.Machine.execPwrCapWrite v s
  | .i3cRegisterWrite v => Sys2Proof.Machine.execI3cRegisterWrite v s
  | .i3cStatusWrite v => Sys2Proof.Machine.execI3cStatusWrite v s
  | .fabricFrameDrop d => Sys2Proof.Machine.execFabricFrameDrop d s
  | .undefinedOpcode via p => Sys2Proof.Machine.execUndefinedOpcode via p s
  | .contrib via p => Sys2Proof.Machine.execContrib via p s
  | .fenceAccept via p => Sys2Proof.Machine.execFenceAccept via p s
  | .fenceComplete via p => Sys2Proof.Machine.execFenceComplete via p s
  | .fenceStep via p => Sys2Proof.Machine.execFenceStep via p s
  | .fenceDone org stream => Sys2Proof.Machine.execFenceDone org stream s
  | .ack via p => Sys2Proof.Machine.execAck via p s
  | .resend via p => Sys2Proof.Machine.execResend via p s
  | .readEpoch via p => Sys2Proof.Machine.execReadEpoch via p s
  | .weightPull via p => Sys2Proof.Machine.execWeightPull via p s
  | .tableLoad via p => Sys2Proof.Machine.execTableLoad via p s
  | .stateWriteTable via p => Sys2Proof.Machine.execStateWriteTable via p s
  | .stateWriteWeights via p => Sys2Proof.Machine.execStateWriteWeights via p s
  | .stateWriteMomentum via p => Sys2Proof.Machine.execStateWriteMomentum via p s
  | .stateWriteWeightBlocks via p => Sys2Proof.Machine.execStateWriteWeightBlocks via p s
  | .stateReadWeights via p => Sys2Proof.Machine.execStateReadWeights via p s
  | .stateReadMomentum via p => Sys2Proof.Machine.execStateReadMomentum via p s
  | .stateReadWeightBlocks via p => Sys2Proof.Machine.execStateReadWeightBlocks via p s
  | .netCfg via p => Sys2Proof.Machine.execNetCfg via p s
  | .srcRule via p => Sys2Proof.Machine.execSrcRule via p s
  | .setEpoch via p => Sys2Proof.Machine.execSetEpoch via p s
  | .pageRead via p => Sys2Proof.Machine.execPageRead via p s
  | .pageWrite via p => Sys2Proof.Machine.execPageWrite via p s
  | .mgmtUndefinedFunction via p => Sys2Proof.Machine.execMgmtUndefinedFunction via p s
  | .planLoad via p => Sys2Proof.Machine.execPlanLoad via p s
  | .planStart via p => Sys2Proof.Machine.execPlanStart via p s
  | .planReplace via p => Sys2Proof.Machine.execPlanReplace via p s
  | .planStop via p => Sys2Proof.Machine.execPlanStop via p s
  | .planDrop via p => Sys2Proof.Machine.execPlanDrop via p s
  | .planStatus via p => Sys2Proof.Machine.execPlanStatus via p s
  | .tileRelease via p => Sys2Proof.Machine.execTileRelease via p s
  | .attach via p => Sys2Proof.Machine.execAttach via p s
  | .attachReset ip id => Sys2Proof.Machine.execAttachReset ip id s
  | .detach via p => Sys2Proof.Machine.execDetach via p s
  | .sourceDetach ip id => Sys2Proof.Machine.execSourceDetach ip id s
  | .unadmittedSourceDetach ip id => Sys2Proof.Machine.execUnadmittedSourceDetach ip id s
  | .nop via p => Sys2Proof.Machine.execNop via p s
  | .creditReport ip id vc => Sys2Proof.Machine.execCreditReport ip id vc s
  | .creditGapWriteOff ip id vc => Sys2Proof.Machine.execCreditGapWriteOff ip id vc s
  | .resultDelivery cell ns => Sys2Proof.Machine.execResultDelivery cell ns s
  | .resultResendTimer owed chunk => Sys2Proof.Machine.execResultResendTimer owed chunk s
  | .cellWaitTimeout cell => Sys2Proof.Machine.execCellWaitTimeout cell s
  | .cellFreeAfterHarvest cell => Sys2Proof.Machine.execCellFreeAfterHarvest cell s
  | .failNoticeRx via m => Sys2Proof.Machine.execFailNoticeRx via m s
  | .decisionWindowExpiry ciid => Sys2Proof.Machine.execDecisionWindowExpiry ciid s
  | .decisionRx via m => Sys2Proof.Machine.execDecisionRx via m s
  | .ffeCellSelWrite ag q v => Sys2Proof.Machine.execFfeCellSelWrite ag q v s
  | .ffeLatMaxClr ag q => Sys2Proof.Machine.execFfeLatMaxClr ag q s
  | .partialRx via r => Sys2Proof.Machine.execPartialRx via r s
  | .finalRx via r => Sys2Proof.Machine.execFinalRx via r s
  | .markRx via r => Sys2Proof.Machine.execMarkRx via r s
  | .rackRx via r => Sys2Proof.Machine.execRackRx via r s
  | .rresendRx via r => Sys2Proof.Machine.execRresendRx via r s
  | .rackGatherExpiry cell => Sys2Proof.Machine.execRackGatherExpiry cell s
  | .recordResendTimer cell dest => Sys2Proof.Machine.execRecordResendTimer cell dest s
  | .harvestRecheckDone cell => Sys2Proof.Machine.execHarvestRecheckDone cell s
  | .xchkCompare id err => Sys2Proof.Machine.execXchkCompare id err s
  | .refereeVerdict id err => Sys2Proof.Machine.execRefereeVerdict id err s
  | .stepEnd t => Sys2Proof.Machine.execStepEnd t s
  | .sync t => Sys2Proof.Machine.execSync t s
  | .waitLt t ns => Sys2Proof.Machine.execWaitLt t ns s
  | .waitCell t => Sys2Proof.Machine.execWaitCell t s
  | .signal t => Sys2Proof.Machine.execSignal t s
  | .waitEvt t => Sys2Proof.Machine.execWaitEvt t s
  | .ramp t => Sys2Proof.Machine.execRamp t s
  | .dma t => Sys2Proof.Machine.execDma t s
  | .launch t ns => Sys2Proof.Machine.execLaunch t ns s
  | .mma t => Sys2Proof.Machine.execMma t s
  | .crysAdd t => Sys2Proof.Machine.execCrysAdd t s
  | .crysLoad t => Sys2Proof.Machine.execCrysLoad t s
  | .crysMax t => Sys2Proof.Machine.execCrysMax t s
  | .crysMin t => Sys2Proof.Machine.execCrysMin t s
  | .crysAxpby t => Sys2Proof.Machine.execCrysAxpby t s
  | .crysEncode t => Sys2Proof.Machine.execCrysEncode t s
  | .crysScale t => Sys2Proof.Machine.execCrysScale t s
  | .kernelBasis t => Sys2Proof.Machine.execKernelBasis t s
  | .kernelOrtho t => Sys2Proof.Machine.execKernelOrtho t s
  | .kernelExpand t => Sys2Proof.Machine.execKernelExpand t s
  | .kernelNs5 t => Sys2Proof.Machine.execKernelNs5 t s
  | .engineWordDone t e => Sys2Proof.Machine.execEngineWordDone t e s
  | .tileStepBegin t => Sys2Proof.Machine.execTileStepBegin t s
  | .planBufferCopyDone t => Sys2Proof.Machine.execPlanBufferCopyDone t s
  | .stepRecordClose step => Sys2Proof.Machine.execStepRecordClose step s
  | .rampStart => Sys2Proof.Machine.execRampStart s
  | .pwrCapUnmet => Sys2Proof.Machine.execPwrCapUnmet s
  | .tileCellSelWrite ag t v => Sys2Proof.Machine.execTileCellSelWrite ag t v s
  | .excClear ag t => Sys2Proof.Machine.execExcClear ag t s
  | .replRx via r => Sys2Proof.Machine.execReplRx via r s
  | .sackRx via r => Sys2Proof.Machine.execSackRx via r s
  | .sresendRx via r => Sys2Proof.Machine.execSresendRx via r s
  | .fetchRx via r => Sys2Proof.Machine.execFetchRx via r s
  | .wdataRx via r => Sys2Proof.Machine.execWdataRx via r s
  | .fetchEndRx via r => Sys2Proof.Machine.execFetchEndRx via r s
  | .stateRecordTimer ix => Sys2Proof.Machine.execStateRecordTimer ix s
  | .readyRx via m => Sys2Proof.Machine.execReadyRx via m s
  | .publishRx via m => Sys2Proof.Machine.execPublishRx via m s
  | .epochSwitch job => Sys2Proof.Machine.execEpochSwitch job s
  | .harvestRx via m => Sys2Proof.Machine.execHarvestRx via m s
  | .commitRx via m => Sys2Proof.Machine.execCommitRx via m s
  | .tableMismatchRx via m => Sys2Proof.Machine.execTableMismatchRx via m s
  | .tableBuildDone => Sys2Proof.Machine.execTableBuildDone s
  | .tdecRetire ag t slot => Sys2Proof.Machine.execTdecRetire ag t slot s
  | .blockDecodeEnd t => Sys2Proof.Machine.execBlockDecodeEnd t s
  | .superframeBoundary e => Sys2Proof.Machine.execSuperframeBoundary e s
  | .sfHeaderRx g k hdr rx cd skew => Sys2Proof.Machine.execSfHeaderRx g k hdr rx cd skew s
  | .fecSlotDecode g k slot xI xQ yI yQ => Sys2Proof.Machine.execFecSlotDecode g k slot xI xQ yI yQ s
  | .dataFrameRx g k bytes span => Sys2Proof.Machine.execDataFrameRx g k bytes span s
  | .ackFrameRx g k bytes span => Sys2Proof.Machine.execAckFrameRx g k bytes span s
  | .fillFrameRx arr hdr => Sys2Proof.Machine.execFillFrameRx arr hdr s
  | .frameLaunch g l => Sys2Proof.Machine.execFrameLaunch g l s
  | .ackIdleTimer g l => Sys2Proof.Machine.execAckIdleTimer g l s
  | .arqRtoExpiry g l vc seq => Sys2Proof.Machine.execArqRtoExpiry g l vc seq s
  | .linkLost g l => Sys2Proof.Machine.execLinkLost g l s
  | .linkCfgWrite ag g v => Sys2Proof.Machine.execLinkCfgWrite ag g v s
  | .linkReset ag g l => Sys2Proof.Machine.execLinkReset ag g l s
  | .laneSelWrite ag g v => Sys2Proof.Machine.execLaneSelWrite ag g v s
  | .tagFinalise g l => Sys2Proof.Machine.execTagFinalise g l s
  | .helloRx g l b => Sys2Proof.Machine.execHelloRx g l b s
  | .acceptRx g l b => Sys2Proof.Machine.execAcceptRx g l b s
  | .confirmRx g l b => Sys2Proof.Machine.execConfirmRx g l b s
  | .doneRx g l b => Sys2Proof.Machine.execDoneRx g l b s
  | .abortRx g l b => Sys2Proof.Machine.execAbortRx g l b s
  | .handshakeSignDone g l => Sys2Proof.Machine.execHandshakeSignDone g l s
  | .keySwitch g l => Sys2Proof.Machine.execKeySwitch g l s
  | .keyDrainEnd g l => Sys2Proof.Machine.execKeyDrainEnd g l s
  | .keyAgeExpiry g l => Sys2Proof.Machine.execKeyAgeExpiry g l s
  | .handshakeTimeout g l => Sys2Proof.Machine.execHandshakeTimeout g l s
  | .handshakeRetry g l => Sys2Proof.Machine.execHandshakeRetry g l s
  | .lineAlarm src q dir engine => Sys2Proof.Machine.execLineAlarm src q dir engine s
  | .alarmEraseEnd => Sys2Proof.Machine.execAlarmEraseEnd s
  | .cipherClusterOut g d n => Sys2Proof.Machine.execCipherClusterOut g d n s
  | .ciphLinkSelWrite ag q ix v => Sys2Proof.Machine.execCiphLinkSelWrite ag q ix v s
  | .ciphLaneSelWrite ag q ix v => Sys2Proof.Machine.execCiphLaneSelWrite ag q ix v s
  | .cartInsert ix => Sys2Proof.Machine.execCartInsert ix s
  | .cartAuthResponse ix chain sig => Sys2Proof.Machine.execCartAuthResponse ix chain sig s
  | .cartAuthTimeout ix => Sys2Proof.Machine.execCartAuthTimeout ix s
  | .cartLost ix => Sys2Proof.Machine.execCartLost ix s
  | .cartRelease ag ix => Sys2Proof.Machine.execCartRelease ag ix s
  | .cartReleaseDone ix => Sys2Proof.Machine.execCartReleaseDone ix s
  | .cartCommission ag ix => Sys2Proof.Machine.execCartCommission ag ix s
  | .laserSelWrite ag ix v => Sys2Proof.Machine.execLaserSelWrite ag ix v s
  | .laserFaultReport ix n => Sys2Proof.Machine.execLaserFaultReport ix n s
  | .cartFeedOvercurrent ix => Sys2Proof.Machine.execCartFeedOvercurrent ix s
  | .ringSearchGo ag g => Sys2Proof.Machine.execRingSearchGo ag g s
  | .ringSearchDone g ps => Sys2Proof.Machine.execRingSearchDone g ps s
  | .ringLockLoss r => Sys2Proof.Machine.execRingLockLoss r s
  | .ringRelock r => Sys2Proof.Machine.execRingRelock r s
  | .ringRelockRetry r => Sys2Proof.Machine.execRingRelockRetry r s
  | .spareSwapAtW g l => Sys2Proof.Machine.execSpareSwapAtW g l s
  | .spareLaserOff g k => Sys2Proof.Machine.execSpareLaserOff g k s
  | .spareRetry g l k => Sys2Proof.Machine.execSpareRetry g l k s
  | .fabricSpareSwap ag q j h => Sys2Proof.Machine.execFabricSpareSwap ag q j h s
  | .fabricPortLinkChange p link locked rxp => Sys2Proof.Machine.execFabricPortLinkChange p link locked rxp s
  | .wrtApply ag bank => Sys2Proof.Machine.execWrtApply ag bank s
  | .wrtApplyDone ok => Sys2Proof.Machine.execWrtApplyDone ok s
  | .wrtRestoreDone => Sys2Proof.Machine.execWrtRestoreDone s
  | .lengSlotSelWrite ag g v => Sys2Proof.Machine.execLengSlotSelWrite ag g v s
  | .fpePortSelWrite ag q j v => Sys2Proof.Machine.execFpePortSelWrite ag q j v s
  | .egressPacketStart p ofs => Sys2Proof.Machine.execEgressPacketStart p ofs s
  | .shaperRefill => Sys2Proof.Machine.execShaperRefill s
  | .queueSample p delays => Sys2Proof.Machine.execQueueSample p delays s
  | .sampleClear ag p => Sys2Proof.Machine.execSampleClear ag p s
  | .fportQselWrite ag p v => Sys2Proof.Machine.execFportQselWrite ag p v s
  | .trayRetry cell => Sys2Proof.Machine.execTrayRetry cell s
  | .auditStart => Sys2Proof.Machine.execAuditStart s
  | .auditDone us => Sys2Proof.Machine.execAuditDone us s
  | .jobDrop ag job => Sys2Proof.Machine.execJobDrop ag job s
  | .ltHoldTimeout => Sys2Proof.Machine.execLtHoldTimeout s
  | .ltElectTimeout => Sys2Proof.Machine.execLtElectTimeout s
  | .ltElectTake ag => Sys2Proof.Machine.execLtElectTake ag s
  | .ltDomainWrite ag v => Sys2Proof.Machine.execLtDomainWrite ag v s
  | .ptpSyncRx p m ofs => Sys2Proof.Machine.execPtpSyncRx p m ofs s
  | .ptpFollowUpRx p m => Sys2Proof.Machine.execPtpFollowUpRx p m s
  | .ptpDelayRespRx p m => Sys2Proof.Machine.execPtpDelayRespRx p m s
  | .ptpAnnounceRx p m => Sys2Proof.Machine.execPtpAnnounceRx p m s
  | .ptpUnsupportedRx p => Sys2Proof.Machine.execPtpUnsupportedRx p s
  | .ptpUnlocked => Sys2Proof.Machine.execPtpUnlocked s
  | .tsqPop ag p => Sys2Proof.Machine.execTsqPop ag p s
  | .tsqIdRead p => Sys2Proof.Machine.execTsqIdRead p s
  | .ltNowRead ofs => Sys2Proof.Machine.execLtNowRead ofs s
  | .mapRead => Sys2Proof.Machine.execMapRead s
  | .pulseEdge o k lead => Sys2Proof.Machine.execPulseEdge o k lead s
  | .timingInputEdge ix rise ofs => Sys2Proof.Machine.execTimingInputEdge ix rise ofs s
  | .evtSelWrite ag v => Sys2Proof.Machine.execEvtSelWrite ag v s
  | .evtPop ag => Sys2Proof.Machine.execEvtPop ag s
  | .maxLateClr ag q => Sys2Proof.Machine.execMaxLateClr ag q s
  | .launchFire ix ns => Sys2Proof.Machine.execLaunchFire ix ns s
  | .liveRx via m => Sys2Proof.Machine.execLiveRx via m s
  | .recoverReqRx via m => Sys2Proof.Machine.execRecoverReqRx via m s
  | .recoverRx via m => Sys2Proof.Machine.execRecoverRx via m s
  | .recoverDoneRx via m => Sys2Proof.Machine.execRecoverDoneRx via m s
  | .resumeRx via m => Sys2Proof.Machine.execResumeRx via m s
  | .resumeAtRz job => Sys2Proof.Machine.execResumeAtRz job s
  | .rosterRx via m => Sys2Proof.Machine.execRosterRx via m s
  | .proveDigestRx via m => Sys2Proof.Machine.execProveDigestRx via m s
  | .proveLinksTimeout => Sys2Proof.Machine.execProveLinksTimeout s
  | .gatewayLiveTimeout g => Sys2Proof.Machine.execGatewayLiveTimeout g s
  | .recoverDoneTimeout job g => Sys2Proof.Machine.execRecoverDoneTimeout job g s
  | .consumerLost cell => Sys2Proof.Machine.execConsumerLost cell s
  | .replanLate slot => Sys2Proof.Machine.execReplanLate slot s
  | .chargeAgeOut t => Sys2Proof.Machine.execChargeAgeOut t s
  | .rsCmdGo ag level job => Sys2Proof.Machine.execRsCmdGo ag level job s
  | .rosterWrite ag ix v => Sys2Proof.Machine.execRosterWrite ag ix v s
  | .rosterSelWrite ag v => Sys2Proof.Machine.execRosterSelWrite ag v s
  | .rsTileSelWrite ag v => Sys2Proof.Machine.execRsTileSelWrite ag v s
  | .elSelWrite ag v => Sys2Proof.Machine.execElSelWrite ag v s
  | .elClear ag => Sys2Proof.Machine.execElClear ag s
  | .imgWrite via p => Sys2Proof.Machine.execImgWrite via p s
  | .imgCommit via p => Sys2Proof.Machine.execImgCommit via p s
  | .bootGo via p => Sys2Proof.Machine.execBootGo via p s
  | .flashStore via p => Sys2Proof.Machine.execFlashStore via p s
  | .flashLoad via p => Sys2Proof.Machine.execFlashLoad via p s
  | .bootQuery via p => Sys2Proof.Machine.execBootQuery via p s
  | .modeEntry failed ms => Sys2Proof.Machine.execModeEntry failed ms s
  | .vinContact absentMs => Sys2Proof.Machine.execVinContact absentMs s
  | .powerUp cells helper chain serial ms => Sys2Proof.Machine.execPowerUp cells helper chain serial ms s
  | .pufRetry cells ms => Sys2Proof.Machine.execPufRetry cells ms s
  | .inputFuseOpen => Sys2Proof.Machine.execInputFuseOpen s
  | .functionLevelReset cells ms => Sys2Proof.Machine.execFunctionLevelReset cells ms s
  | .perstDeassert => Sys2Proof.Machine.execPerstDeassert s
  | .pcieConfigRequest off => Sys2Proof.Machine.execPcieConfigRequest off s
  | .hostLinkLoss => Sys2Proof.Machine.execHostLinkLoss s
  | .ctrLoRead r pg ix => Sys2Proof.Machine.execCtrLoRead r pg ix s
  | .ledgerGroupRead r t => Sys2Proof.Machine.execLedgerGroupRead r t s
  | .vinLoss torn => Sys2Proof.Machine.execVinLoss torn s
  | .laserLocked g k ps => Sys2Proof.Machine.execLaserLocked g k ps s
  | .cartControllerAnswer ix serial lasers => Sys2Proof.Machine.execCartControllerAnswer ix serial lasers s
  | .handshakeVerifyDone g l => Sys2Proof.Machine.execHandshakeVerifyDone g l s
  | .tileQuarantineCommand t => Sys2Proof.Machine.execTileQuarantineCommand t s
  | .invalidQuantityCode via p => Sys2Proof.Machine.execInvalidQuantityCode via p s
  | .ptpDelayReqTx p id seq => Sys2Proof.Machine.execPtpDelayReqTx p id seq s

end Sys2Proof.Machine
end

