-- ==== Sys2Proof/Machine/Step.lean ====
section
/-! DEFINITION. Machine/Step.lean: one step of the block: the command at the front of the queue, and the way a command
comes to stand there. -/
namespace Sys2Proof.Machine
open Sys2Proof

/-- The state with the front command taken out of the queue. -/
def State.dropPending (s : State) (rest : List Instr) : State := { s with pending := rest }

/-- One step: the command at the front of the queue runs with the queue's rest; on an empty queue the block idles. -/
def step (s : State) : Host.Outcome State Fault Refusal :=
  match s.pending with
  | [] => .next s
  | c :: rest => exec c (s.dropPending rest)

/-- The state with the command that a table word spells at the front of its queue. The table gives no row any bits, so no
word spells a command. -/
def State.withFetchWord (s : State) (nbits w : Nat) : State :=
  match decodeTableWord nbits w with
  | some c => { s with pending := c :: s.pending }
  | none => s

end Sys2Proof.Machine
end

