-- ==== Sys2Proof/Safety.lean ====
section
/-! DEFINITION. Safety.lean: what counts as a safe step, in the terms claims use: a step that goes on, what a command answers, and
which parts of the state it may change. -/
namespace Sys2Proof.Machine
open Sys2Proof

/-- A step that goes on. -/
def StepsOn (s : State) : Prop := ∃ t, step s = .next t

/-- The command runs on the state and answers a next state that meets the condition. -/
def Answers (c : Instr) (s : State) (post : State → Prop) : Prop := ∃ t, exec c s = .next t ∧ post t

/-- The parts of the state, one per field. -/
inductive Part where
  | pending | mode | sf | pages | ctr | out | cpw | i3c | fab | trays | mem | win | poison | coll | plans
  | power | egress | elog | rseq | lt | refills | police | rr | lineTx | outer | stTx | stTag | tdec | commits
  | line | ciph | boot | ptp | tsq | tio | late | light | ledger | therm | pondBw | pondCtr | pondPrio | msix | clk
  deriving DecidableEq, Repr

/-- A part is the same in two states. -/
def Part.same : Part → State → State → Prop
  | .pending, s, t => t.pending = s.pending
  | .mode, s, t => t.mode = s.mode
  | .sf, s, t => t.sf = s.sf
  | .pages, s, t => t.pages = s.pages
  | .ctr, s, t => t.ctr = s.ctr
  | .out, s, t => t.out = s.out
  | .cpw, s, t => t.cpw = s.cpw
  | .i3c, s, t => t.i3c = s.i3c
  | .fab, s, t => t.fab = s.fab
  | .trays, s, t => t.trays = s.trays
  | .mem, s, t => t.mem = s.mem
  | .win, s, t => t.win = s.win
  | .poison, s, t => t.poison = s.poison
  | .coll, s, t => t.coll = s.coll
  | .plans, s, t => t.plans = s.plans
  | .power, s, t => t.power = s.power
  | .egress, s, t => t.egress = s.egress
  | .elog, s, t => t.elog = s.elog
  | .rseq, s, t => t.rseq = s.rseq
  | .lt, s, t => t.lt = s.lt
  | .refills, s, t => t.refills = s.refills
  | .police, s, t => t.police = s.police
  | .rr, s, t => t.rr = s.rr
  | .lineTx, s, t => t.lineTx = s.lineTx
  | .outer, s, t => t.outer = s.outer
  | .stTx, s, t => t.stTx = s.stTx
  | .stTag, s, t => t.stTag = s.stTag
  | .tdec, s, t => t.tdec = s.tdec
  | .commits, s, t => t.commits = s.commits
  | .line, s, t => t.line = s.line
  | .ciph, s, t => t.ciph = s.ciph
  | .boot, s, t => t.boot = s.boot
  | .ptp, s, t => t.ptp = s.ptp
  | .tsq, s, t => t.tsq = s.tsq
  | .tio, s, t => t.tio = s.tio
  | .late, s, t => t.late = s.late
  | .light, s, t => t.light = s.light
  | .ledger, s, t => t.ledger = s.ledger
  | .therm, s, t => t.therm = s.therm
  | .pondBw, s, t => t.pondBw = s.pondBw
  | .pondCtr, s, t => t.pondCtr = s.pondCtr
  | .pondPrio, s, t => t.pondPrio = s.pondPrio
  | .msix, s, t => t.msix = s.msix
  | .clk, s, t => t.clk = s.clk

/-- Every part but those named is as it was. -/
def OnlyChanges (ps : List Part) (s t : State) : Prop := ∀ p, p ∉ ps → Part.same p s t

/-- Nothing changes but one page. -/
def OnlyPage (pg : PageId) (s t : State) : Prop := OnlyChanges [.pages] s t ∧ ∀ p, p ≠ pg → pageOf t p = pageOf s p

/-- R51: a page responds, and an agent may write every field of it. -/
def Writable (s : State) (ag : Agent) (pg : PageId) : Prop := pageUp s pg = true ∧ mayWriteAll ag pg = true

/-- One register of a page takes a value, as its last accepted value (R47). The page's other registers keep theirs, and its
control and error registers and its snapshots stay as they are. -/
def Wrote (s t : State) (pg : PageId) (off bank : Nat) (w : Word) : Prop :=
  let p := pageOf s pg
  let q := pageOf t pg
  OnlyPage pg s t ∧
  (∀ o b, regAccepted q pg o b = if o = off ∧ b = bank then w else regAccepted p pg o b) ∧
  q.enable = p.enable ∧ q.quiesce = p.quiesce ∧ q.halted = p.halted ∧ q.quarantined = p.quarantined ∧
  q.classSeen = p.classSeen ∧ q.firstValid = p.firstValid ∧ q.cfgRefused = p.cfgRefused ∧ q.permRefused = p.permRefused ∧
  q.irq = p.irq ∧ q.firstCode = p.firstCode ∧ q.firstSf = p.firstSf ∧ q.firstInfo = p.firstInfo ∧
  q.errCount = p.errCount ∧ q.uctr = p.uctr ∧ q.upage = p.upage ∧ q.latch = p.latch

/-- R44: whether a block is quiescing after a write of BLK_CTRL with a value of QUIESCE: a BUSY block becomes so, and a QUIESCING one
stays so. -/
def quiescingOf (s : State) (pg : PageId) (qu : Bool) : Bool := blkState s pg == 3 || (blkState s pg == 2 && qu)

/-- R382: the staging of a line of v MiB leaves 1 GiB of its pond's line region. -/
def StageFits (s : State) (g : Fin 4) (v : Nat) : Prop :=
  v + 1024 ≤ 1024 * fld (regAccepted (pageOf s (.pond g)) (.pond g) 0x44 0).toNat 4 0

/-- The word of a register after one field has taken a value, over its last accepted value in a bank. -/
def wordWith (s : State) (pg : PageId) (off bank hi lo v : Nat) : Word :=
  BitVec.ofNat 32 (setFld (regAccepted (pageOf s pg) pg off bank).toNat hi lo v)

/-- R91 to R109: a packet passes its checks on arrival: policing, the header and field checks, mode and permission, credits; and
no FENCE of its stream holds it. It is served as the context `k` on the state `u`, in which it is under way and its credits are
released (R106). -/
def Accepted (s : State) (via : Via) (p : Packet) (k : Ctx) (u : State) : Prop :=
  ∃ a, ingress s via p = some a ∧ headerCheck a via p = 0 ∧ permCheck a via p.hdr = 0 ∧
    k = ⟨via, originOf via p.hdr, p, a.fab.seq⟩ ∧ (creditStep a k.org p.hdr k.cost).2 = 0 ∧
    u = released k (newFlight (creditStep a k.org p.hdr k.cost).1 k) ∧ fenced u k.org p.hdr.stream = false

/-- R149 to R152: a reduction record arrives intact, belongs to the attempt that runs, and the plan routes it here: it is taken at
`u`, for the instance placed as `x`. -/
def RecordIn (s : State) (via : RecVia) (r : Record) (u : State) (x : Placed) : Prop :=
  (match via with
   | .site d => peerIn s d (peerPort s) (64 + r.payload.length) = (u, true)
   | .link g l => takeUnit s (g, l) (.rcd r) = some u
   | .own => False) ∧
  r.hdr.check.toNat = recCheck r ∧ recMalformed r = false ∧ attempt u r.hdr.ciid = .now ∧
  findInst u r.hdr.ciid = some x ∧ recRouted x (gw u) r = true

/-- R295, R428: a well-formed control message for the master reaches it, and it holds quorum: it acts at `u`. -/
def CtlUp (s : State) (via : RecVia) (m : Ctl) (u : State) : Prop :=
  let r := takeMsg s via (.ctl m)
  r.2 = true ∧ ctlOk m = true ∧ r.1.lt.st = .master ∧ quorum r.1 = true ∧ u = r.1

/-- R295, R426: a well-formed control message of the master arrives for the first time: it is passed on, and acted on at `u`. -/
def CtlDown (s : State) (via : RecVia) (m : Ctl) (u : State) : Prop :=
  let r := takeMsg s via (.ctl m)
  let v := { r.1 with rseq := { r.1.rseq with ctls := m :: r.1.rseq.ctls } }
  r.2 = true ∧ ctlOk m = true ∧ m ∉ r.1.rseq.ctls ∧ u = if via = .own then v else flood v (.ctl m) via

/-- R424: a recovery message noted against duplicates. -/
def noted (s : State) (m : Rcv) : State :=
  let key := (m.srcGw.toNat, m.mkind.toNat, m.serial.toNat)
  { s with rseq := { s.rseq with dups := if s.rseq.dups.contains key then s.rseq.dups else key :: s.rseq.dups } }

/-- R424: a well-formed recovery message arrives, its own or for the first time: it is noted at `v`. -/
def RcvIn (s : State) (via : RecVia) (m : Rcv) (v : State) : Prop :=
  let r := takeMsg s via (.rcv m)
  r.2 = true ∧ rcvOk m = true ∧ (via = .own ∨ (m.srcGw.toNat, m.mkind.toNat, m.serial.toNat) ∉ r.1.rseq.dups) ∧ v = noted r.1 m

/-- R426, R428: a recovery message for the master reaches it, with the quorum that its kind needs: it acts at `u`. -/
def RcvUp (s : State) (via : RecVia) (m : Rcv) (u : State) : Prop :=
  RcvIn s via m u ∧ u.lt.st = .master ∧ (quorum u = true ∨ m.mkind ≠ 0x10 ∧ m.mkind ≠ 0x12)

/-- R424, R426: a recovery message for every gateway: it is relayed with one TTL less, and acted on at `u`. -/
def RcvDown (s : State) (via : RecVia) (m : Rcv) (u : State) : Prop :=
  ∃ v, RcvIn s via m v ∧ u = if via = .own then v else (relayed m).elim v (fun q => flood v (.rcv q) via)

/-- R331: the last fragment of a key message of a kind is taken from a link's VC6, where every other fragment of its session has come:
the message is whole as `m`, and its fragments go, at `u`. -/
def KeyIn (s : State) (l : LinkId) (kind : Nat) (b : Bytes) (u : State) (m : Bytes) : Prop :=
  let ses := beAt b 2 2
  ∃ v, byteAt b 0 = kind ∧ takeUnit s l (.key b) = some v ∧ fragOk b = true ∧
    let c := lciph v l
    let fr := mset c.frags (ses, kind, beAt b 4 2) b
    (∀ i, i < beAt b 6 2 → ∃ x, mget? fr (ses, kind, i) = some x ∧ beAt x 8 4 = beAt b 8 4) ∧
    u = setLCiph v l { c with frags := fr.filter (fun e => !(e.1.1 == ses && e.1.2.1 == kind)) } ∧
    m = (List.range (beAt b 6 2)).flatMap (fun i => (mget fr (ses, kind, i) []).drop 16)

/-- A cell holds an instance and is in no error state. -/
def Holds (s : State) (cell : Nat) (c : BitVec 64) : Prop :=
  (cellOf s cell).st ≠ .free ∧ (cellOf s cell).ciid = c ∧ isErr (cellOf s cell).st = false

/-- R250, R251: a state record arrives intact and well formed for this gateway: it is taken at `u`. -/
def StateIn (s : State) (via : RecVia) (r : StRec) (u : State) : Prop :=
  takeIn s via (peerPort s) (64 + r.payload.length) (.srec r) = (u, true) ∧ r.hdr.check.toNat = stCheck r ∧ stMalformed r = false ∧
  r.hdr.dstGw.toNat = gw u

/-- The next word of a tile's stream is `w`, of an operation, in a step of a plan. -/
def Reaches (s : State) (t : Fin 64) (op : Nat) (p : Plan) (st : PlanStep) (w : List Nat) : Prop :=
  nextWord s t = some (p, st, w) ∧ wOp w = op

/-- An engine word of a tile issues at once: its engine has room, no guard holds or stops its destinations, and no pond that it
reads or writes has spent its bandwidth of the superframe. -/
def EngineFree (s : State) (t : Fin 64) (e : Engine) (w : List Nat) : Prop :=
  engineRoom s t e = true ∧ guardSpans s (wordSpans w).2 = .go ∧
  ∀ x ∈ (wordSpans w).1 ++ (wordSpans w).2, pondSpent s x.1 = false

/-- A tile's word has issued to an engine: the stream has moved past it, and the word is in flight. -/
def Issued (s u : State) (t : Fin 64) (e : Engine) (w : List Nat) : Prop :=
  let dst := (wordSpans w).2.getLast?.getD (0, 0)
  (tileOf u t).pc = (tileOf s t).pc + w.length ∧ (tileOf u t).seq = .issue ∧
  (tileOf u t).flight = (tileOf s t).flight ++ [⟨e, dst.1, dst.2, behindBlock s t e⟩] ∧ ∀ x, x ≠ t → tileOf u x = tileOf s x

/-- The parts that raising a code may change (R49, R50, R56). -/
def raisedParts : List Part := [.pages, .out, .ctr, .elog, .i3c, .rseq, .egress, .lineTx, .msix, .clk]

/-- R296: a DATA or ACK frame passes the checks that come before its tag, on a slot of a link. -/
def FrameIn (s : State) (g : Fin 4) (k : Fin 18) (bytes : Bytes) (span : List (Nat × Fin 64)) (l : LinkId) : Prop :=
  let h := parseFr bytes
  slotOwner s g k = some l ∧ (pairOf s g k).isSome = true ∧ (lslot s g k).rx = .up ∧ frCheckOk bytes = true ∧ frFieldsOk bytes = true ∧
  spanFailed s g k span = false ∧ bytes.length = h.len + 48 ∧ h.src = linkPeer s l ∧ h.dst = gw s ∧ 64 ≤ h.len ∧
  h.len ≤ 16384 ∧ cipherRefusal s l k h = 0

/-- R289: a superframe header arrives on a slot of a link and is valid. -/
def HeaderIn (s : State) (g : Fin 4) (k : Fin 18) (hdr : Bytes) (l : LinkId) : Prop :=
  let x := lslot s g k
  let h := parseSf hdr
  x.rx ≠ .off ∧ (pairOf s g k).isSome = true ∧ slotOwner s g k = some l ∧ sfCheckOk hdr = true ∧ x.failed.contains (h.sf, 0) = false ∧
  (x.last = none ∨ 4 ≤ x.missing ∨ ∃ p, x.last = some p ∧ h.sf = p.sf + 1 + x.missing)

/-- What the host reads from a register of a page. -/
def reads (s : State) (pg : PageId) (off : Nat) : Nat := (readReg s 0 pg off 0).2

/-- R53, R395: memory and the submission window in their canonical form. -/
def MemoryOk (s : State) : Prop := Memory.wf s.mem = true ∧ Memory.wf s.win = true

end Sys2Proof.Machine
end

