-- ==== Sys2Proof/Certificates/Slice0/Obligations.lean ====
section
/-! DEFINITION. Certificates/Slice0/Obligations.lean: the statements about the model that the provers are asked to prove. Each
docstring names the rules of spec/ that its statement rests on. -/
open Sys2Proof Sys2Proof.Machine

/-- A step runs the command at the front of the queue on the state with the queue's rest. On an empty queue the block idles:
the model's choice (log entry 1). -/
def Obligations.StepRunsFront : Prop :=
  (∀ (s : State) (c : Instr) (rest : List Instr), s.pending = c :: rest → step s = exec c (s.dropPending rest)) ∧
  (∀ s : State, s.pending = [] → step s = .next s)

/-- No command of the block ends in a fault or a refusal. -/
def Obligations.EveryCommandAnswers : Prop := ∀ (c : Instr) (s : State), ∃ t, exec c s = .next t

/-- What reset leaves, by the values the spec gives: R43 (page header), R52 (rings), R59 (PWR_CAP), R102 (number and port), R206
(plan slots), R308 (slots of the line), R399 (line time), R434 (error log). -/
def Obligations.ResetState : Prop :=
  State.reset.pending = [] ∧ State.reset.mode = none ∧ State.reset.sf = 0 ∧
  (∀ pg : PageId, pageOf State.reset pg = Page.reset ∧ headerReg State.reset pg 0x08 = 0 ∧
    headerReg State.reset pg 0x10 = 0 ∧ headerReg State.reset pg 0x14 = 0b11100 ∧ headerReg State.reset pg 0x20 = 0 ∧
    headerReg State.reset pg 0x24 = 0 ∧ headerReg State.reset pg 0x28 = 0) ∧
  (∀ q : Fin 4, mget State.reset.cpw.heads q 0 = 0) ∧ State.reset.cpw.tail = 0 ∧ State.reset.cpw.held = [] ∧
  State.reset.i3c.cap = 2800 ∧ gwNum State.reset = none ∧ State.reset.fab.net.port = 47444 ∧
  State.reset.plans.slot0.st = .empty ∧ State.reset.plans.slot1.st = .empty ∧
  (∀ (g : Fin 4) (k : Fin 18), (lslot State.reset g k).tx = .off ∧ (lslot State.reset g k).rx = .off) ∧
  (∀ l : LinkId, linkState State.reset l = 0) ∧ State.reset.lt.st = .free ∧ State.reset.lt.hops = 0xFF ∧
  State.reset.elog.ring = []

/-- Reset values of R52, R315 and R316. -/
def Obligations.ResetRegisters : Prop :=
  (∀ q : Fin 4, fldV State.reset .cpw (0x48 + 0x10 * q.val) 0 0 = 0 ∧
    fldV State.reset .cpw (0x48 + 0x10 * q.val) 2 1 = [3, 1, 2, 0].getD q.val 0) ∧
  fldV State.reset .cpw 0x88 3 0 = 4 ∧ fldV State.reset .cpw 0x9C 23 0 = 10000 ∧ fldV State.reset .cpw 0x8C 11 0 = 0 ∧
  (∀ g : Fin 4, fldV State.reset (.fec g) 0x40 3 0 = 12 ∧ fldV State.reset (.fec g) 0x44 8 0 = 16 ∧
    fldV State.reset (.fec g) 0x44 15 12 = 4 ∧ fldV State.reset (.fec g) 0x44 31 16 = 1000 ∧
    fldV State.reset (.line g) 0x68 18 0 = 288235 ∧ fldV State.reset (.line g) 0x70 3 0 = 1 ∧
    fldV State.reset (.line g) 0x70 11 4 = 8 ∧ fldV State.reset (.line g) 0x70 16 12 = 16 ∧
    fldV State.reset (.line g) 0x70 31 24 = 64 ∧ fldV State.reset (.line g) 0x8C 12 0 = 1024 ∧
    fldV State.reset (.line g) 0x44 4 0 = 0 ∧ fldV State.reset (.line g) 0x50 1 0 = 0 ∧
    fldV State.reset (.line g) 0x74 2 0 = 0 ∧
    ∀ i : Fin 4, fldB State.reset (.line g) 0x54 i.val 31 0 = 0)

/-- The invariant of `Obligations.MemoryOkKept` holds after reset. -/
def Obligations.MemoryOkReset : Prop := MemoryOk State.reset

/-- Every step keeps memory and the window in canonical form. -/
def Obligations.MemoryOkKept : Prop := ∀ s t : State, MemoryOk s → step s = .next t → MemoryOk t

/-- Read after write over memory in canonical form. -/
def Obligations.MemoryReadAfterWrite : Prop :=
  (∀ (m : List Host.Cell) (a : Nat) (b : Byte), Memory.wf m = true →
    Memory.wf (memWrite m a b) = true ∧ memRead (memWrite m a b) a = b ∧
    ∀ x, x ≠ a → memRead (memWrite m a b) x = memRead m x) ∧
  (∀ (m : List Host.Cell) (a : Nat) (l : Bytes), Memory.wf m = true →
    Memory.wf (memPut m a l) = true ∧ memBytes (memPut m a l) a l.length = l ∧
    ∀ x, x < a ∨ a + l.length ≤ x → memRead (memPut m a l) x = memRead m x)

/-- R39: the page map is one to one. -/
def Obligations.PageMap : Prop :=
  (∀ (pg : PageId) (o : Nat), o < 4096 → pageAt (pageAddr pg + o) = some pg) ∧
  (∀ (a : Nat) (pg : PageId), pageAt a = some pg → pageAddr pg = a / 4096 * 4096) ∧
  allPages.length = 258 ∧ ∀ pg : PageId, pg ∈ allPages

/-- R42: the pages that respond in BARE mode; every other page is an empty slot. -/
def Obligations.BarePages : Prop :=
  ∀ s : State,
    (s.mode = some .bare → ∀ pg : PageId, (pageUp s pg = true ↔ pg ∈ [PageId.dir, .boot, .pcie, .cpw, .elog, .mfl]) ∧
      (pageUp s pg = false → (∀ (ag : Agent) (off : Nat) (v : Nat),
          (pageWrite s ag pg off v).1 = unmapped s (pageAddr pg + off) true 4) ∧
        (∀ (r : Fin 4) (off ofs : Nat), readReg s r pg off ofs = (s, 0)) ∧
        ∀ off : Nat, off < 4096 →
          exec (.unmappedAccess .host (BitVec.ofNat 26 (pageAddr pg + off)) false) s =
            .next (emit (unmapped s (pageAddr pg + off) false 4) (.readAnswer (pageAddr pg + off) 0)))) ∧
    (s.mode = some .test ∨ s.mode = some .recovery ∨ s.mode = some .service → ∀ pg : PageId, pageUp s pg = true)

/-- R49, R50, R56: the error record, the message and the log. -/
def Obligations.RaiseRecords : Prop :=
  (∀ (s : State) (v : Fin 8),
    ((s.msix.word (16 * v.val + 12)).getLsbD 0 = false → notify s v.val = emit s (.msix v.val
      ((s.msix.word (16 * v.val)).toNat + (s.msix.word (16 * v.val + 4)).toNat * 2 ^ 32) (s.msix.word (16 * v.val + 8)))) ∧
    ((s.msix.word (16 * v.val + 12)).getLsbD 0 = true → OnlyChanges [.msix] s (notify s v.val) ∧
      (notify s v.val).msix.words = s.msix.words ∧ (notify s v.val).msix.pend.getLsbD v.val = true ∧
      ∀ i, i ≠ v.val → (notify s v.val).msix.pend.getLsbD i = s.msix.pend.getLsbD i)) ∧
  ∀ (s : State) (pg : PageId) (code info : Nat) (t : State), code / 4096 ≤ 4 → raise s pg code info = t →
    (pageOf t pg).classSeen = (pageOf s pg).classSeen ||| BitVec.ofNat 5 (2 ^ (code / 4096)) ∧
    ((pageOf s pg).firstValid = false → (pageOf t pg).firstValid = true ∧
      (pageOf t pg).firstCode = BitVec.ofNat 16 code ∧ (pageOf t pg).firstSf = BitVec.ofNat 16 s.sf ∧
      (pageOf t pg).firstInfo = BitVec.ofNat 32 info ∧ (pageOf t pg).errCount = (pageOf s pg).errCount) ∧
    ((pageOf s pg).firstValid = true →
      (inClock s pg && outranks code (pageOf s pg).firstCode.toNat) = false →
      (pageOf t pg).firstCode = (pageOf s pg).firstCode ∧ (pageOf t pg).firstInfo = (pageOf s pg).firstInfo) ∧
    ((pageOf s pg).firstValid = true → inClock s pg = true → outranks code (pageOf s pg).firstCode.toNat = true →
      (pageOf t pg).firstCode = BitVec.ofNat 16 code ∧ (pageOf t pg).firstInfo = BitVec.ofNat 32 info) ∧
    ((pageOf s pg).firstValid = true →
      (pageOf t pg).errCount.toNat = min 0xFFFF ((pageOf s pg).errCount.toNat + 1)) ∧
    (∀ p : PageId, p ≠ pg → pageOf t p = pageOf s p) ∧
    (code / 4096 < 3 → t.out = if (pageOf s pg).irq.getLsbD (code / 4096) then (notify s 0).out else s.out) ∧
    (code / 4096 ≥ 3 → ∃ e, e ∈ t.elog.ring ∧ e.code = code ∧ e.sf = s.sf ∧ e.info = BitVec.ofNat 32 info) ∧
    OnlyChanges raisedParts s t

/-- REGISTER_WRITE by change class, with the refusals of R48 and R51 and the layout of their detail. -/
def Obligations.RegisterWriteClasses : Prop :=
  ∀ (s : State) (ag : Agent) (v : Word) (g : Fin 4),
    (∀ pg : PageId, pageUp s pg = true → mayWriteCommon ag pg = true →
      exec (.registerWrite ag (BitVec.ofNat 26 (pageAddr pg + 0x14)) v) s =
        .next (setPage s pg { pageOf s pg with irq := BitVec.ofNat 5 v.toNat })) ∧
    (Writable s ag (.fec g) → 4 ≤ fld v.toNat 3 0 → blkIdle s (.fec g) = true →
      Answers (.registerWrite ag (BitVec.ofNat 26 (pageAddr (.fec g) + 0x40)) v) s (fun t =>
        OnlyPage (.fec g) s t ∧ fldV t (.fec g) 0x40 3 0 = fld v.toNat 3 0 ∧ reads t (.fec g) 0x24 % 2 = 0)) ∧
    (Writable s ag (.fec g) → 4 ≤ fld v.toNat 3 0 → blkIdle s (.fec g) = false →
      fld v.toNat 3 0 ≠ fldV s (.fec g) 0x40 3 0 →
      Answers (.registerWrite ag (BitVec.ofNat 26 (pageAddr (.fec g) + 0x40)) v) s (fun t =>
        OnlyPage (.fec g) s t ∧ reads t (.fec g) 0x40 % 16 = fld v.toNat 3 0 ∧
        fldV t (.fec g) 0x40 3 0 = fldV s (.fec g) 0x40 3 0 ∧ reads t (.fec g) 0x24 % 2 = 1)) ∧
    (Writable s ag (.fec g) → fld v.toNat 3 0 < 4 →
      Answers (.registerWrite ag (BitVec.ofNat 26 (pageAddr (.fec g) + 0x40)) v) s (fun t =>
        ∃ u, u = raise s (.fec g) 0x2008 (0x40 + 4096 * agentNum ag) ∧
          t = setPage u (.fec g) { pageOf u (.fec g) with cfgRefused := true })) ∧
    (Writable s ag (.line g) → 64 ≤ fld v.toNat 12 0 → fld v.toNat 12 0 ≤ 6144 → StageFits s g (fld v.toNat 12 0) →
      blkState s (.line g) ≠ 2 → blkState s (.line g) ≠ 3 →
      Answers (.registerWrite ag (BitVec.ofNat 26 (pageAddr (.line g) + 0x8C)) v) s (fun t =>
        OnlyPage (.line g) s t ∧ reads t (.line g) 0x8C = fld v.toNat 12 0)) ∧
    (Writable s ag (.line g) → ¬StageFits s g (fld v.toNat 12 0) →
      Answers (.registerWrite ag (BitVec.ofNat 26 (pageAddr (.line g) + 0x8C)) v) s (fun t =>
        ∃ u, u = raise s (.line g) 0x2008 (0x8C + 4096 * agentNum ag) ∧
          t = setPage u (.line g) { pageOf u (.line g) with cfgRefused := true })) ∧
    (Writable s ag (.line g) → 64 ≤ fld v.toNat 12 0 → fld v.toNat 12 0 ≤ 6144 → StageFits s g (fld v.toNat 12 0) →
      blkState s (.line g) = 2 ∨ blkState s (.line g) = 3 → fld v.toNat 12 0 ≠ fld (reads s (.line g) 0x8C) 12 0 →
      Answers (.registerWrite ag (BitVec.ofNat 26 (pageAddr (.line g) + 0x8C)) v) s (fun t =>
        ∃ u, u = raise s (.line g) 0x2001 (0x8C + 4096 * agentNum ag) ∧
          t = setPage u (.line g) { pageOf u (.line g) with cfgRefused := true })) ∧
    (pageUp s .ledger = true → fld v.toNat 0 0 ≠ fld (reads s .ledger 0x44) 0 0 →
      Answers (.registerWrite .host (BitVec.ofNat 26 (pageAddr .ledger + 0x44)) v) s (fun t =>
        ∃ u, u = raise s .ledger 0x2002 (0x44 + 16384) ∧ t = setPage u .ledger { pageOf u .ledger with permRefused := true }))

/-- BLK_ENABLE, BLK_QUIESCE, ERR_CLR, CFG_ABORT and ERR_FIRST_REARM on a page that responds, by an agent with the right. -/
def Obligations.HeaderWrites : Prop :=
  ∀ (s : State) (ag : Agent) (pg : PageId) (v : Bool),
    (Writable s ag pg → v = (pageOf s pg).enable ∨ (blkState s pg ≠ 2 ∧ blkState s pg ≠ 3) →
      exec (.blkEnable ag pg v) s = .next (afterHeader (applyIfIdle (setPage s pg { pageOf s pg with
        enable := v, quiescing := quiescingOf s pg (pageOf s pg).quiesce }) pg) pg 8)) ∧
    (Writable s ag pg → v ≠ (pageOf s pg).enable → blkState s pg = 2 ∨ blkState s pg = 3 →
      Answers (.blkEnable ag pg v) s (fun t => ∃ u, u = raise s pg 0x2001 (8 + 4096 * agentNum ag) ∧
        t = setPage u pg { pageOf u pg with cfgRefused := true })) ∧
    (Writable s ag pg →
      exec (.blkQuiesce ag pg v) s = .next (afterHeader (applyIfIdle (setPage s pg { pageOf s pg with
        quiesce := v, quiescing := quiescingOf s pg v }) pg) pg 8)) ∧
    (pageUp s pg = true → mayWriteCommon ag pg = true →
      exec (.errClr ag pg) s = .next (afterHeader (applyIfIdle (setPage s pg { pageOf s pg with
        quiescing := quiescingOf s pg (pageOf s pg).quiesce, classSeen := 0, firstValid := false, cfgRefused := false,
        permRefused := false, firstCode := 0, firstSf := 0, firstInfo := 0, errCount := 0 }) pg) pg 8)) ∧
    (Writable s ag pg →
      exec (.cfgAbort ag pg) s = .next (afterHeader (setPage s pg { pageOf s pg with
        quiescing := quiescingOf s pg (pageOf s pg).quiesce, pend := [] }) pg 8)) ∧
    (pageUp s pg = true → mayWriteCommon ag pg = true →
      exec (.errFirstRearm ag pg) s = .next (setPage s pg { pageOf s pg with
        firstValid := false, firstCode := 0, firstSf := 0, firstInfo := 0 }))

/-- UNMAPPED_ACCESS and ACCESS_SIZE. -/
def Obligations.UnmappedAndSize : Prop :=
  ∀ (s : State) (off : BitVec 26) (z : Extent),
    (isUnmapped s off.toNat = true →
      exec (.unmappedAccess .host off true) s = .next (unmapped s off.toNat true 4) ∧
      exec (.unmappedAccess .host off false) s =
        .next (emit (unmapped s off.toNat false 4) (.readAnswer off.toNat 0))) ∧
    (off.toNat < 0x2000000 → z.len ≠ 0 → ¬(z.len = 4 ∧ off.toNat % 4 = 0 ∧ z.full = true) →
      exec (.accessSize off z true) s =
        .next (raise (count s .pcie 1 1) .pcie 0x2003 (off.toNat + 2 ^ 26 + min z.len 15 * 2 ^ 27)) ∧
      exec (.accessSize off z false) s =
        .next (emit (raise (count s .pcie 1 1) .pcie 0x2003 (off.toNat + min z.len 15 * 2 ^ 27)) (.unsupported off.toNat)))

/-- WINDOW_SLOT_WRITE, SQ_TAIL_WRITE, CQ_HEAD_WRITE, CQ_STALL and CQ_INT_DELAY_EXPIRY. -/
def Obligations.WindowAndRing : Prop :=
  ∀ (s : State) (q : Fin 4) (ag : Agent) (v : Word),
    (∀ (off : BitVec 25) (data : Bytes), 0x800000 * q.val ≤ off.toNat → off.toNat + data.length ≤ 0x800000 * (q.val + 1) →
      exec (.windowSlotWrite off data) s =
        .next (if sqEn s q then { s with win := memPut s.win off.toNat data } else s)) ∧
    (Writable s ag .cpw → fld v.toNat 15 0 ≤ 511 →
      (fldV s .cpw (0x40 + 16 * q.val) 15 0 + 512 - mget s.cpw.heads q 0) % 512 ≤
        (fld v.toNat 15 0 + 512 - mget s.cpw.heads q 0) % 512 →
      Answers (.sqTailWrite ag q v) s (fun t =>
        Wrote s t .cpw (0x40 + 16 * q.val) 0 (wordWith s .cpw (0x40 + 16 * q.val) 0 15 0 (fld v.toNat 15 0)))) ∧
    (Writable s ag .cpw → fld v.toNat 15 0 ≤ 511 →
      (fld v.toNat 15 0 + 512 - mget s.cpw.heads q 0) % 512 <
        (fldV s .cpw (0x40 + 16 * q.val) 15 0 + 512 - mget s.cpw.heads q 0) % 512 →
      exec (.sqTailWrite ag q v) s = .next (raise s .cpw 0x2004 (0x40 + 16 * q.val + 4096 * agentNum ag))) ∧
    (Writable s ag .cpw → 511 < fld v.toNat 15 0 →
      Answers (.sqTailWrite ag q v) s (fun t => ∃ u, u = raise s .cpw 0x2008 (0x40 + 16 * q.val + 4096 * agentNum ag) ∧
        t = setPage u .cpw { pageOf u .cpw with cfgRefused := true })) ∧
    (Writable s ag .cpw → ∃ u, Wrote s u .cpw 0x8C 0 (wordWith s .cpw 0x8C 0 11 0 (fld v.toNat 11 0)) ∧
      exec (.cqHeadWrite ag v) s = .next (cqAdvanced u) ∧
      (s.cpw.held = [] → cqAdvanced u = { u with cpw := { s.cpw with fullSf := none, stalled := false } })) ∧
    (∀ f : Nat, s.cpw.fullSf = some f → s.cpw.held ≠ [] → s.cpw.stalled = false → fldV s .cpw 0x9C 23 0 ≤ 8 * (s.sf - f) →
      exec .cqStall s = .next (raise { s with cpw := { s.cpw with stalled := true } } .cpw 0x2005 0)) ∧
    (s.cpw.stalled = true → exec .cqStall s = .next s) ∧
    (s.cpw.intWait = true →
      exec .cqIntDelayExpiry s = .next (notify { s with cpw := { s.cpw with intWait := false } } 1))

/-- ENTDAA, SETDASA, I3C_INDEX_WRITE, PWR_CAP_WRITE, I3C_REGISTER_WRITE and I3C_STATUS_WRITE on a target that answers. -/
def Obligations.I3cTarget : Prop :=
  ∀ (s : State) (a : BitVec 7) (ibi : Bool) (ix : BitVec 16) (n : Nat) (v : Word), s.i3c.up = true →
    (s.i3c.dyn = none → exec (.entdaa ⟨a, ibi⟩) s = .next { s with i3c := { s.i3c with dyn := some a, ibiOn := ibi } } ∧
      exec (.setdasa ⟨a, ibi⟩) s = .next { s with i3c := { s.i3c with dyn := some a, ibiOn := ibi } }) ∧
    (∀ b, s.i3c.dyn = some b → exec (.entdaa ⟨a, ibi⟩) s = .next { s with i3c := { s.i3c with ibiOn := ibi } } ∧
      exec (.setdasa ⟨a, ibi⟩) s = .next { s with i3c := { s.i3c with ibiOn := ibi } }) ∧
    exec (.i3cIndexWrite ⟨ix, n⟩) s = .next { s with
      i3c := { s.i3c with index := ix + BitVec.ofNat 16 (4 * n) },
      out := s.out ++ (List.range n).map (fun i =>
        Emission.i3cWord (BitVec.ofNat 32 (i3cReg s (ix + BitVec.ofNat 16 (4 * i)).toNat))) } ∧
    (s.i3c.index = 0x58 → 1000 ≤ v.toNat → v.toNat ≤ 2800 →
      exec (.pwrCapWrite v) s = .next { s with i3c := { s.i3c with index := 0x5C, cap := v.toNat } }) ∧
    (s.i3c.index = 0x58 → v.toNat < 1000 ∨ 2800 < v.toNat →
      exec (.pwrCapWrite v) s =
        .next (raise (count { s with i3c := { s.i3c with index := 0x5C, refused := true } } .i3c 0 1) .i3c 0x2006 0)) ∧
    (s.i3c.index ≠ 0x58 → s.i3c.index ≠ 0x5C →
      exec (.i3cRegisterWrite v) s = .next (raise (count { s with i3c :=
        { s.i3c with index := s.i3c.index + 4, refused := true } } .i3c 0 1) .i3c 0x2006 0)) ∧
    (s.i3c.index = 0x5C → exec (.i3cStatusWrite v) s = .next { s with i3c :=
      { s.i3c with index := 0x60, refused := s.i3c.refused && !v.getLsbD 0 } })

/-- FFE_CELL_SEL_WRITE, TILE_CELL_SEL_WRITE, LANE_SEL_WRITE, CIPH_LINK_SEL_WRITE and CIPH_LANE_SEL_WRITE. -/
def Obligations.SelectorsCellsAndLine : Prop :=
  ∀ (s : State) (ag : Agent) (q : Fin 4) (t : Fin 64) (i : Fin 2) (k : Fin 18) (v : Word),
    (Writable s ag (.ffe q) → Answers (.ffeCellSelWrite ag q v) s (fun u =>
      let c := cellOf s (15360 + 256 * q.val + fld v.toNat 7 0)
      OnlyPage (.ffe q) s u ∧ reads u (.ffe q) 0x60 = fld v.toNat 7 0 ∧ reads u (.ffe q) 0x64 % 16 = stNum c.st ∧
      reads u (.ffe q) 0x68 = c.ciid.toNat % 2 ^ 32 ∧ reads u (.ffe q) 0x6C = c.ciid.toNat / 2 ^ 32 ∧
      reads u (.ffe q) 0x70 = c.digest.toNat % 2 ^ 32 ∧ reads u (.ffe q) 0x74 = c.digest.toNat / 2 ^ 32 ∧
      reads u (.ffe q) 0x78 = c.armSf % 2 ^ 32)) ∧
    (Writable s ag (.tile t) → fld v.toNat 7 0 ≤ 239 → Answers (.tileCellSelWrite ag t v) s (fun u =>
      let c := cellOf s (240 * t.val + fld v.toNat 7 0)
      OnlyPage (.tile t) s u ∧ reads u (.tile t) 0x60 = fld v.toNat 7 0 ∧ reads u (.tile t) 0x64 % 16 = stNum c.st ∧
      reads u (.tile t) 0x6C = c.ciid.toNat % 2 ^ 32 ∧ reads u (.tile t) 0x70 = c.ciid.toNat / 2 ^ 32 ∧
      reads u (.tile t) 0x74 = c.digest.toNat % 2 ^ 32 ∧ reads u (.tile t) 0x78 = c.digest.toNat / 2 ^ 32 ∧
      reads u (.tile t) 0x7C = c.armSf % 2 ^ 32)) ∧
    (Writable s ag (.line q) → fld v.toNat 4 0 = k.val → Answers (.laneSelWrite ag q v) s (fun u =>
      let x := lslot s q k
      OnlyPage (.line q) s u ∧ reads u (.line q) 0x44 = k.val ∧ reads u (.line q) 0x48 % 4 = txCode x.tx ∧
      reads u (.line q) 0x48 / 4 % 4 = rxCode x.rx ∧ reads u (.line q) 0x48 / 64 % 16 = x.txWhy % 16 ∧
      reads u (.line q) 0x48 / 1024 % 16 = x.rxWhy % 16 ∧ reads u (.line q) 0x4C = x.skew % 4096)) ∧
    (Writable s ag (.ciph q i) → Answers (.ciphLinkSelWrite ag q i v) s (fun u =>
      let c := lciph s (q, fin4 v.toNat)
      OnlyPage (.ciph q i) s u ∧ reads u (.ciph q i) 0x48 = fld v.toNat 1 0 ∧
      reads u (.ciph q i) 0x4C % 256 = (((if i = 0 then c.tx else c.rx).map (·.id)).getD 0) % 256 ∧
      reads u (.ciph q i) 0x64 % 16 = c.result % 16 ∧ reads u (.ciph q i) 0x64 / 256 % 256 = c.reason % 256)) ∧
    (∀ l : LinkId, Writable s ag (.ciph q i) → fld v.toNat 4 0 = k.val → slotLink s q k = some l →
      Answers (.ciphLaneSelWrite ag q i v) s (fun u =>
        let n := if i = 0 then mget (lciph s l).ctr k.val 0
          else mget (lciph s l).last (k.val, ((lciph s l).rx.map (·.id)).getD 0) 0
        OnlyPage (.ciph q i) s u ∧ reads u (.ciph q i) 0x54 = k.val ∧ reads u (.ciph q i) 0x58 = n % 2 ^ 32 ∧
        reads u (.ciph q i) 0x5C = n / 2 ^ 32 % 256))

/-- LASER_SEL_WRITE, LENG_SLOT_SEL_WRITE, FPE_PORT_SEL_WRITE, FPORT_QSEL_WRITE, EVT_SEL_WRITE, ROSTER_SEL_WRITE,
RS_TILE_SEL_WRITE and EL_SEL_WRITE. -/
def Obligations.SelectorsLightAndQueues : Prop :=
  ∀ (s : State) (ag : Agent) (q : Fin 4) (i j : Fin 2) (k : Fin 18) (p : Fin 64) (v : Word),
    (Writable s ag (.cart i) → fld v.toNat 6 0 ≤ (if i = 0 then 19 else 71) → Answers (.laserSelWrite ag i v) s (fun u =>
      let x := laserOf s i (fld v.toNat 6 0)
      OnlyPage (.cart i) s u ∧ reads u (.cart i) 0x50 = fld v.toNat 6 0 ∧ reads u (.cart i) 0x54 % 8 = laserCode x.st ∧
      reads u (.cart i) 0x54 / 16 % 4 = x.level % 4 ∧
      reads u (.cart i) 0x5C = if i = 0 then 0 else x.mhz % 2 ^ 28)) ∧
    (Writable s ag (.leng q) → fld v.toNat 4 0 = k.val → Answers (.lengSlotSelWrite ag q v) s (fun u =>
      OnlyPage (.leng q) s u ∧ reads u (.leng q) 0x44 = k.val ∧
      reads u (.leng q) 0x50 = (mget s.light.rxInfo (q, k) 0).toNat ∧
      reads u (.leng q) 0x4C % 32 = (ringOf s q k 0).ring % 32)) ∧
    (Writable s ag (.fpe q j) → Answers (.fpePortSelWrite ag q j v) s (fun u =>
      let x := phy s (fpePort q j ⟨v.toNat % 8, by omega⟩)
      OnlyPage (.fpe q j) s u ∧ reads u (.fpe q j) 0x44 = fld v.toNat 2 0 ∧ reads u (.fpe q j) 0x48 % 4 = x.link % 4 ∧
      reads u (.fpe q j) 0x48 / 4 % 16 = x.locked.toNat ∧ reads u (.fpe q j) 0x4C = x.rxp.toNat)) ∧
    (Writable s ag (fportOf p) → Answers (.fportQselWrite ag p v) s (fun u =>
      let e := egQ s p ⟨v.toNat % 32, by omega⟩
      OnlyPage (fportOf p) s u ∧ reads u (fportOf p) 0x44 = fld v.toNat 4 0 ∧
      reads u (fportOf p) 0x54 = sumWire e.pkts % 2 ^ 21 ∧ reads u (fportOf p) 0x58 = e.depthMax % 2 ^ 21 ∧
      reads u (fportOf p) 0x5C = min 0xFFFFFFFF e.delayMax ∧ reads u (fportOf p) 0x60 = e.depthAvg % 2 ^ 21)) ∧
    (Writable s ag .tio → Answers (.evtSelWrite ag v) s (fun u =>
      let e := (evtOf s (fin4 v.toNat)).ents.headD ⟨0, 0, 0⟩
      OnlyPage .tio s u ∧ reads u .tio 0x60 = fld v.toNat 1 0 ∧ reads u .tio 0x68 = e.sf % 2 ^ 32 ∧
      reads u .tio 0x6C = e.sf / 2 ^ 32 % 2 ^ 32)) ∧
    (Writable s ag .rseq → Answers (.rosterSelWrite ag v) s (fun u =>
      let g := v.toNat % 2048
      OnlyPage .rseq s u ∧ reads u .rseq 0x60 = g ∧ reads u .rseq 0x64 = rosterSt u g ∧
      reads u .rseq 0x68 = rosterFp u g % 2 ^ 32 ∧ reads u .rseq 0x6C = rosterFp u g / 2 ^ 32)) ∧
    (Writable s ag .rseq → Answers (.rsTileSelWrite ag v) s (fun u =>
      OnlyPage .rseq s u ∧ reads u .rseq 0x58 = fld v.toNat 5 0 ∧
      reads u .rseq 0x5C % 16 = min 15 (mget s.rseq.charges (fin64 v.toNat) []).length)) ∧
    (Writable s ag .elog → fld v.toNat 16 16 = 0 ∨ fld v.toNat 11 0 ≤ 63 → Answers (.elSelWrite ag v) s (fun u =>
      let l := if fld v.toNat 16 16 = 1 then s.elog.flash else s.elog.ring
      OnlyPage .elog s u ∧ reads u .elog 0x48 % 4096 = fld v.toNat 11 0 ∧
      ∀ (e : LogEnt) (n : Fin 16), l[fld v.toNat 11 0]? = some e →
        reads u .elog (0x80 + 4 * n.val) = beAt e.bytes (4 * n.val) 4))

/-- R104: the credits of a packet. -/
def Obligations.CreditCost : Prop :=
  (∀ op len : Nat, op ≠ 0x0B → op ≠ 0x0C → op ≠ 0x0D →
    256 * creditCost op len ≥ 64 + len ∧ 256 * creditCost op len < 64 + len + 256) ∧
  (∀ op : Nat, op ≠ 0x0B → op ≠ 0x0C → op ≠ 0x0D →
    creditCost op 0 = 1 ∧ creditCost op 8192 = 33 ∧ creditCost op 256 = 2) ∧
  ∀ len : Nat, creditCost 0x0B len = 0 ∧ creditCost 0x0C len = 0 ∧ creditCost 0x0D len = 0

/-- FABRIC_FRAME_DROP, UNDEFINED_OPCODE, MGMT_UNDEFINED_FUNCTION and INVALID_QUANTITY_CODE. -/
def Obligations.PacketsRefused : Prop :=
  ∀ (s : State) (via : Via) (p : Packet) (d : Dgram),
    (d.conforms s.fab.net.port = false ∨ d.udpLen < 72 ∨ quadAddressed s (quadOf d.port) = false →
      exec (.fabricFrameDrop d) s = .next (count s (fportOf d.port) 0 1)) ∧
    (∀ q : Fin 4, p.hdr.check.toNat = packetCheck p → p.hdr.version = 1 → isRequest p.hdr.opcode.toNat = false →
      exec (.undefinedOpcode (.window q) p) s =
        .next (cqPush (count s (.tm 0) 1 1) (sealPacket ⟨{ echo p.hdr 0x2203 with credit := 0 }, []⟩))) ∧
    (∀ a : State, ingress s via p = some a → p.hdr.check.toNat = packetCheck p → p.hdr.version = 1 →
      isRequest p.hdr.opcode.toNat = false →
      let k : Ctx := ⟨via, originOf via p.hdr, p, a.fab.seq⟩
      exec (.undefinedOpcode via p) s =
        .next (if (creditStep a k.org p.hdr k.cost).2 ≠ 0 then refuseBare a k 0x2203
          else refusePkt (creditStep a k.org p.hdr k.cost).1 k 0x2203)) ∧
    (∀ a : State, ingress s via p = some a → p.hdr.check.toNat ≠ packetCheck p → isRequest p.hdr.opcode.toNat = false →
      exec (.undefinedOpcode via p) s = .next (refuseRaw a via p.hdr 0x2201)) ∧
    (∀ (k : Ctx) (u : State), Accepted s via p k u → p.hdr.opcode = 0x0A → mgmtDefined p.hdr.arg0.toNat = false →
      exec (.mgmtUndefinedFunction via p) s = .next (settle k (u, .refuse 0x2206))) ∧
    (∀ a : State, ingress s via p = some a → p.hdr.check.toNat = packetCheck p → p.hdr.version = 1 → badQty p.hdr = true →
      p.hdr.payloadLen.toNat ≤ 8192 → p.payload.length = p.hdr.payloadLen.toNat → (p.hdr.opcode = 9 → p.payload = []) →
      (∀ x : Dgram, via = .fabric x → x.udpLen = 72 + p.payload.length) →
      let k : Ctx := ⟨via, originOf via p.hdr, p, a.fab.seq⟩
      exec (.invalidQuantityCode via p) s =
        .next (if (creditStep a k.org p.hdr k.cost).2 ≠ 0 then refuseBare a k 0x2206
          else refusePkt (creditStep a k.org p.hdr k.cost).1 k 0x2206))

/-- R106, R110: credits and flights when a handler has answered. -/
def Obligations.PacketSettled : Prop :=
  ∀ (k : Ctx) (s : State),
    (∀ f : Ctx → State → State × Disp, handle k f s = settle k (f k (released k s))) ∧
    (k.cost = 0 → released k s = s ∧ settle k (s, .waits) = s) ∧
    (∀ (ip : BitVec 128) (id : BitVec 16) (x : Source), k.org = .fabric ip id → findSrc s ip id = some x → 0 < k.cost →
      (∃ y, findSrc (released k s) ip id = some y ∧
        (y.credit.get k.vc).ret = (x.credit.get k.vc).ret + BitVec.ofNat 32 k.cost ∧
        (y.credit.get k.vc).held = (x.credit.get k.vc).held - k.cost ∧
        y.grant = x.grant ∧ y.port = x.port ∧ y.req = x.req) ∧
      (k.cost ≤ (x.credit.get k.vc).held → ∃ y, findSrc (settle k (released k s, .waits)) ip id = some y ∧
        (y.credit.get k.vc).ret = (x.credit.get k.vc).ret ∧ (y.credit.get k.vc).held = (x.credit.get k.vc).held ∧
        (y.credit.get k.vc).unrep = (x.credit.get k.vc).unrep)) ∧
    (∀ f : Flight, f ∈ s.fab.flights → f.seq = k.seq →
      ∃ g, g ∈ (settle k (s, .taken)).fab.flights ∧ g.seq = k.seq ∧ g.accepted = true ∧ g.org = f.org) ∧
    (∀ (q : Fin 4) (code : Nat), k.org = .win q → s.cpw.held = [] → cqRoom s = false →
      (settle k (s, .refuse code)).cpw.held =
        [sealPacket ⟨{ echo k.h code with credit := 0 }, []⟩])

/-- FENCE_ACCEPT, FENCE_COMPLETE, FENCE_STEP and FENCE_DONE. -/
def Obligations.Fences : Prop :=
  (∀ (s : State) (via : Via) (p : Packet) (k : Ctx) (u : State) (c : Instr), Accepted s via p k u → p.hdr.opcode = 2 →
    (c = .fenceAccept via p ∧ p.hdr.aux = 0 ∨ c = .fenceComplete via p ∧ p.hdr.aux = 1 ∨
      c = .fenceStep via p ∧ p.hdr.aux = 2) →
    Answers c s (fun t => ∃ f : Fence, t.fab.fences = s.fab.fences ++ [f] ∧ f.org = k.org ∧ f.stream = p.hdr.stream ∧
      f.scope = p.hdr.aux.toNat ∧ f.seq = k.seq ∧ f.hdr = p.hdr ∧
      f.waits = (s.fab.flights.filter (fun x => x.org == k.org && x.stream == p.hdr.stream &&
        (if p.hdr.aux.toNat = 0 then !x.accepted else !x.done))).map (·.seq) ∧
      OnlyChanges [.fab, .police, .egress] s t)) ∧
  (∀ (s : State) (org : Origin) (stream : BitVec 8) (f : Fence),
    s.fab.fences.find? (fun f => f.org == org && f.stream == stream) = some f →
    (fenceReached s f = true → exec (.fenceDone org stream) s =
        .next (takeFenced (s.fab.held.filter (fun p => p.org == org && p.pkt.hdr.stream == stream)) (fenceEnd s f)) ∧
      ∀ g ∈ (fenceEnd s f).fab.fences, g.seq ≠ f.seq) ∧
    (fenceReached s f = false → exec (.fenceDone org stream) s = .next s))

/-- ATTACH, ATTACH_RESET, DETACH, SOURCE_DETACH and UNADMITTED_SOURCE_DETACH. -/
def Obligations.Attachment : Prop :=
  (∀ (s : State) (d : Dgram) (p : Packet) (k : Ctx) (u : State), Accepted s (.fabric d) p k u → p.hdr.opcode = 0x0B →
    (∀ r : SrcRule, findSrc u d.ip p.hdr.sourceId = none → matchRule u.fab.rules d.ip p.hdr.sourceId = some r →
      u.fab.srcs.length < 2048 →
      exec (.attach (.fabric d) p) s = .next (settle k (completeNow
        { u with fab := { u.fab with srcs := u.fab.srcs ++ [newSource d p.hdr.sourceId r] } } k
        (attachBytes (newSource d p.hdr.sourceId r))))) ∧
    (findSrc u d.ip p.hdr.sourceId = none → matchRule u.fab.rules d.ip p.hdr.sourceId = none →
      exec (.attach (.fabric d) p) s = .next (settle k (u, .refuse 0x2209))) ∧
    (∀ r : SrcRule, findSrc u d.ip p.hdr.sourceId = none → matchRule u.fab.rules d.ip p.hdr.sourceId = some r →
      2048 ≤ u.fab.srcs.length → exec (.attach (.fabric d) p) s = .next (settle k (u, .refuse 0x220A))) ∧
    (∀ x : Source, findSrc u d.ip p.hdr.sourceId = some x → x.admitted = true →
      exec (.attach (.fabric d) p) s = .next (putSrc u
        { x with port := d.port, udpPort := d.udpPort, tagged := d.tagged, resetWait := x.resetWait ++ [p] }))) ∧
  (∀ (s : State) (d : Dgram) (p : Packet) (k : Ctx) (u : State) (x : Source), Accepted s (.fabric d) p k u →
    p.hdr.opcode = 0x0C → findSrc u d.ip p.hdr.sourceId = some x →
    exec (.detach (.fabric d) p) s = .next (if boundSrc u (.fabric d.ip p.hdr.sourceId) then settle k (u, .refuse 0x2210)
      else putSrc u { x with detachWait := x.detachWait ++ [p] })) ∧
  (∀ (s : State) (ip : BitVec 128) (id : BitVec 16) (x : Source), findSrc s ip id = some x → holdsPacket s x = false →
    (x.resetWait ≠ [] → Answers (.attachReset ip id) s (fun t => OnlyChanges [.fab, .egress] s t ∧
      ∃ y, findSrc t ip id = some y ∧ y.credit = Vc4.all Credit.zero ∧ y.resetWait = [] ∧ y.grant = x.grant ∧
        y.port = x.port)) ∧
    (x.detachWait ≠ [] → boundSrc s (.fabric ip id) = false → Answers (.sourceDetach ip id) s (fun t =>
      OnlyChanges [.fab, .egress] s t ∧ findSrc t ip id = none)) ∧
    (x.admitted = false → boundSrc s (.fabric ip id) = false →
      exec (.unadmittedSourceDetach ip id) s = .next (leaveSrc s ip id) ∧ findSrc (leaveSrc s ip id) ip id = none))

/-- NOP, CREDIT_REPORT, CREDIT_GAP_WRITE_OFF and SQ_SLOT_TAKE. -/
def Obligations.CreditsAndSlots : Prop :=
  (∀ (s : State) (via : Via) (p : Packet) (k : Ctx) (u : State), Accepted s via p k u → p.hdr.opcode = 0x0D →
    exec (.nop via p) s = .next (settle k (sendTo u k.org k.vc
      { Header.zero with opcode := 0x82, stream := p.hdr.stream, reqTag := p.hdr.reqTag } [], .done 0))) ∧
  (∀ (s : State) (ip : BitVec 128) (id : BitVec 16) (vc : Fvc) (x : Source), findSrc s ip id = some x →
    ((x.credit.get vc).unrep ≠ 0 → exec (.creditReport ip id vc) s = .next (sendCredit s ip id vc 0 0) ∧
      ∃ y, findSrc (sendCredit s ip id vc 0 0) ip id = some y ∧ (y.credit.get vc).unrep = 0 ∧
        (y.credit.get vc).ret = (x.credit.get vc).ret) ∧
    (∀ g : Gap, (x.credit.get vc).gaps.find? (fun g => decide (g.sf + 2 ≤ s.sf)) = some g →
      Answers (.creditGapWriteOff ip id vc) s (fun t => OnlyChanges [.fab, .egress] s t ∧
        ∃ y, findSrc t ip id = some y ∧
          (y.credit.get vc).ret = (x.credit.get vc).ret + BitVec.ofNat 32 ((g.hi - g.lo).toNat + 1) ∧
          (y.credit.get vc).off = (x.credit.get vc).off + ((g.hi - g.lo).toNat + 1) ∧
          (y.credit.get vc).gaps = (x.credit.get vc).gaps.filter (· != g)))) ∧
  (∀ (s : State) (q : Fin 4), sqEn s q = true → s.mode = some .bare ∨ takesWork s .cpw = true →
    (mget s.cpw.heads q 0 ≠ fldV s .cpw (0x40 + 0x10 * q.val) 15 0 →
      let p := slotPacket s q (mget s.cpw.heads q 0)
      let u := count { s with cpw := { s.cpw with heads := mset s.cpw.heads q ((mget s.cpw.heads q 0 + 1) % 512) } } .cpw 0 1
      (∀ (v : State) (t : TrayId), allocPond u (reqOf u (.win q)) 0 = some (v, t) → exec (.sqSlotTake q) s =
        .next (receive (.window q) p serve (releaseTray (trayMoved v t (64 + p.payload.length)) t))) ∧
      (allocPond u (reqOf u (.win q)) 0 = none → exec (.sqSlotTake q) s =
        .next (refuseRaw (count u .tpool 0 1) (.window q) p.hdr 0x2301))) ∧
    (mget s.cpw.heads q 0 = fldV s .cpw (0x40 + 0x10 * q.val) 15 0 → exec (.sqSlotTake q) s = .next s))

/-- NET_CFG, SRC_RULE, SET_EPOCH, PAGE_READ and PAGE_WRITE. -/
def Obligations.MgmtFunctions : Prop :=
  ∀ (s : State) (via : Via) (p : Packet) (k : Ctx) (u : State), Accepted s via p k u → p.hdr.opcode = 0x0A →
    p.hdr.chunkIndex = 0 → p.hdr.chunkCount.toNat ≤ 1 →
    (p.hdr.arg0 = 1 → p.payload.length = 144 → byteAt p.payload 0 ≤ 31 → byteAt p.payload 1 ≤ 63 → netOk p.payload = true →
      (parseNet p.payload = u.fab.net ∨
        ((∀ l : LinkId, linkState u l = 0) ∧ u.plans.slot0.st = .empty ∧ u.plans.slot1.st = .empty ∧
          ∀ q : Fin 4, blkState u (.tm q) ≠ 2 ∧ blkState u (.tm q) ≠ 3)) →
      exec (.netCfg via p) s =
        .next (settle k (completeNow { u with fab := { u.fab with net := parseNet p.payload } } k []))) ∧
    (p.hdr.arg0 = 1 → p.payload = [] → exec (.netCfg via p) s = .next (settle k (completeNow u k (netBytes u.fab.net)))) ∧
    (p.hdr.arg0 = 2 → ∀ n : Nat, 1 ≤ n → n ≤ 256 → p.payload.length = 32 * n →
      (∀ i < n, ruleOk (slice p.payload (32 * i) 32) = true) →
      let rules := (List.range n).map (fun i => parseRule (slice p.payload (32 * i) 32))
      exec (.srcRule via p) s = .next (settle k (completeNow
        { u with fab := { u.fab with rules := rules, srcs := u.fab.srcs.map (rematch rules) } } k []))) ∧
    (p.hdr.arg0 = 3 → p.payload.length = 8 → beAt p.payload 2 2 = 0 → beAt p.payload 4 4 ≤ 0xFFFFFFFE →
      planRuns u (beAt p.payload 0 2) = false →
      Answers (.setEpoch via p) s (fun t => (jobOf t (beAt p.payload 0 2)).epoch = beAt p.payload 4 4 ∧
        (jobOf t (beAt p.payload 0 2)).prev = false ∧ t.mem = s.mem ∧ t.win = s.win ∧ t.line = s.line)) ∧
    (p.hdr.arg0 = 4 → p.payload.length = 8 → beAt p.payload 6 2 = 0 → beAt p.payload 0 4 % 4 = 0 →
      beAt p.payload 0 4 < 0x1000000 → 1 ≤ beAt p.payload 4 2 → beAt p.payload 4 2 ≤ 1024 →
      beAt p.payload 0 4 % 4096 + 4 * beAt p.payload 4 2 ≤ 4096 →
      let r := pageReads u (beAt p.payload 0 4) (beAt p.payload 4 2)
      exec (.pageRead via p) s = .next (settle k (completeNow r.1 k r.2))) ∧
    (p.hdr.arg0 = 5 → ∀ n : Nat, 1 ≤ n → n ≤ 128 → beAt p.payload 0 2 = n → p.payload.length = 8 + 8 * n →
      (slice p.payload 2 6).all (· == 0) = true →
      (∀ i < n, beAt p.payload (8 + 8 * i) 4 % 4 = 0 ∧ beAt p.payload (8 + 8 * i) 4 < 0x1000000) →
      let r := pageWrites u ((List.range n).map (fun i => (beAt p.payload (8 + 8 * i) 4, beAt p.payload (12 + 8 * i) 4)))
      let st := (r.2.find? (· != 0)).getD 0
      exec (.pageWrite via p) s = .next (settle k (sendComplete r.1 k.org k.h st (r.2.flatMap (beBytes 2)), .done st)))

/-- CONTRIB: R95, R96, R122, R128. -/
def Obligations.ContributionTaken : Prop :=
  ∀ (s : State) (via : Via) (p : Packet) (k : Ctx) (u : State), Accepted s via p k u → p.hdr.opcode = 1 →
    (attempt u p.hdr.ciid = .stale → exec (.contrib via p) s = .next (settle k
      (raiseFor u (inputPage u p.hdr.ciid (viaPage via)) 0x2103 0 p.hdr.ciid, .refuse 0x2103))) ∧
    (attempt u p.hdr.ciid ≠ .stale → findInst u p.hdr.ciid = none →
      exec (.contrib via p) s = .next (settle k (u, .refuse 0x220D))) ∧
    (∀ x : Placed, attempt u p.hdr.ciid = .now → findInst u p.hdr.ciid = some x →
      let c := p.hdr.ciid
      let d := x.desc
      let rank := p.hdr.member.toNat
      let idx := p.hdr.chunkIndex.toNat
      let dst := (k.org, p.hdr.stream)
      let cl := cellOf u d.cell
      let r := instRec u c
      let own := cl.st ≠ .free ∧ cl.ciid = c
      (¬own → r.harvested = true → r.decided = none → exec (.contrib via p) s = .next (settle k (u, .refuse 0x220D))) ∧
      ((own ∨ r.harvested = false ∨ r.decided ≠ none) →
        (d.n ≤ rank → exec (.contrib via p) s = .next (settle k (u, .refuse 0x2206))) ∧
        (rank < d.n → rank ∉ d.ranks →
          exec (.contrib via p) s = .next (settle k (raiseCell u d.cell 0x2501 0 c, .refuse 0x2501)))) ∧
      (rank < d.n → rank ∈ d.ranks → own → isErr cl.st = true →
        let v := setCell u d.cell (bindRank cl rank dst)
        (r.decided = none → exec (.contrib via p) s = .next (settle k (v, .taken))) ∧
        (∀ st, r.decided = some st →
          exec (.contrib via p) s = .next (settle k (answerFailed v x c st rank dst, .done (errCode st))))) ∧
      (rank < d.n → rank ∈ d.ranks → (Holds u d.cell c ∨ ¬own ∧ r.harvested = false ∧ r.decided = none) →
        (p.hdr.chunkCount.toNat ≠ d.inChunks ∨ d.inChunks ≤ idx →
          exec (.contrib via p) s = .next (settle k (u, .refuse 0x2207))) ∧
        (p.hdr.chunkCount.toNat = d.inChunks → idx < d.inChunks →
          (p.hdr.payloadLen.toNat ≠ min d.inChunk (d.inBytes - idx * d.inChunk) →
            exec (.contrib via p) s = .next (settle k (u, .refuse 0x2204))) ∧
          (p.hdr.payloadLen.toNat = min d.inChunk (d.inBytes - idx * d.inChunk) → fieldCause d p.hdr = 0 → ∀ v : State,
            (v = u ∧ Holds u d.cell c ∨ cl.st = .free ∧ arm u x c = some v) →
            (∀ b, mget? (cellOf v d.cell).bound rank = some b → b = dst) →
            (∀ t ∈ (cellOf v d.cell).taken, ¬(t.member = rank ∧ t.chunk = idx)) →
            exec (.contrib via p) s = .next (settle k (tryHarvest (storePseudo (progress (addContrib
              (setCell v d.cell (bindRank (cellOf v d.cell) rank dst)) x c p.hdr p.payload) x c) x) x c, .taken))))))

/-- R64, R146: addContrib. -/
def Obligations.ContributionAdds : Prop :=
  (∀ (op : Nat) (strict : Bool) (acc : PMap Nat Nat) (lo : Nat) (vs : List Nat),
    (∀ j < vs.length, mget? (addElems op strict acc lo vs).1 (lo + j) = some (match mget? acc (lo + j) with
      | some a => (accumulate op strict a (vs.getD j 0)).1
      | none => (initAcc op strict (vs.getD j 0)).1)) ∧
    (∀ j, j < lo ∨ lo + vs.length ≤ j → mget? (addElems op strict acc lo vs).1 j = mget? acc j)) ∧
  (∀ (s : State) (x : Placed) (c : BitVec 64) (h : Header) (payload : Bytes) (t : State), addContrib s x c h payload = t →
    let d := x.desc
    let per := d.inChunk / groupBytes d.inT * groupElems d.inT
    let i := h.chunkIndex.toNat
    let vs := (decodeElems d.strict d.inT (min per (elemsOf d x.inst - i * per)) payload).1
    (cellOf t d.cell).taken = (cellOf s d.cell).taken ++ [⟨h.member.toNat, i, crc64 payload⟩] ∧
    (cellOf t d.cell).st = (cellOf s d.cell).st ∧ (cellOf t d.cell).bound = (cellOf s d.cell).bound ∧
    (d.coll ≠ 4 → (cellOf t d.cell).ins = (cellOf s d.cell).ins ++ [(d.inT, i * per, vs)] ∧
      (cellOf t d.cell).acc = (addElems d.redOp d.strict (cellOf s d.cell).acc (i * per) vs).1) ∧
    (∀ n, n ≠ d.cell → cellOf t n = cellOf s n) ∧ OnlyChanges [.coll, .plans, .ctr] s t)

/-- R64, R96, R129. -/
def Obligations.ContributionMisfits : Prop :=
  ∀ (s : State) (via : Via) (p : Packet) (k : Ctx) (u : State) (x : Placed), Accepted s via p k u → p.hdr.opcode = 1 →
    attempt u p.hdr.ciid = .now → findInst u p.hdr.ciid = some x →
    let c := p.hdr.ciid
    let d := x.desc
    let rank := p.hdr.member.toNat
    let idx := p.hdr.chunkIndex.toNat
    let cl := cellOf u d.cell
    Holds u d.cell c → rank < d.n → rank ∈ d.ranks → p.hdr.chunkCount.toNat = d.inChunks → idx < d.inChunks →
    p.hdr.payloadLen.toNat = min d.inChunk (d.inBytes - idx * d.inChunk) →
    let ends := fun (cause : Nat) => Answers (.contrib via p) s (fun t =>
      (cellOf t d.cell).st = .mismatch ∧ (cellOf t d.cell).cause = cause ∧ (cellOf t d.cell).taken = cl.taken ∧
      (cellOf t d.cell).acc = cl.acc ∧ ∀ n, n ≠ d.cell → cellOf t n = cellOf u n)
    (fieldCause d p.hdr ≠ 0 → ends (fieldCause d p.hdr)) ∧
    (fieldCause d p.hdr = 0 → ∀ b, mget? cl.bound rank = some b →
      (b ≠ (k.org, p.hdr.stream) → ends 4) ∧
      (b = (k.org, p.hdr.stream) → ∀ t, cl.taken.find? (fun t => t.member == rank && t.chunk == idx) = some t →
        (t.check ≠ crc64 p.payload → ends 3) ∧
        (t.check = crc64 p.payload → exec (.contrib via p) s = .next (settle k (repeatComplete
          (sendComplete (raiseCell u d.cell 0x0101 0 c) k.org p.hdr 0x0101 []) x c rank, .done 0x0101)))))

/-- RESULT_DELIVERY, ACK, RESEND and RESULT_RESEND_TIMER. -/
def Obligations.ResultsDelivered : Prop :=
  (∀ (s : State) (cell : Fin 16384) (ns : Nat) (x : Placed), findInst s (cellOf s cell.val).ciid = some x →
    x.desc.cell = cell.val → (cellOf s cell.val).st = .complete →
    (∃ r ∈ x.desc.ranks, r ∉ (cellOf s cell.val).answered) → Answers (.resultDelivery cell ns) s (fun t =>
      (cellOf t cell.val).st = .complete ∧ (∀ n, n ≠ cell.val → cellOf t n = cellOf s n) ∧
      OnlyChanges [.coll, .fab, .egress, .cpw, .out, .ctr, .pages, .msix, .clk] s t ∧
      ∀ (r : Nat) (b : Origin × BitVec 8), r ∈ x.desc.ranks → mget? (cellOf s cell.val).bound r = some b →
        r ∈ (cellOf t cell.val).answered ∧ (r ∉ (cellOf s cell.val).answered →
          (mget (cellOf t cell.val).deliv r []).map (fun o => (o.idx, o.sends, o.acked)) =
            (List.range (owedChunks x r)).map (fun i => (i, 1, false))))) ∧
  (∀ (s : State) (via : Via) (p : Packet) (k : Ctx) (u : State) (x : Placed), Accepted s via p k u →
    p.hdr.aux = 0 → attempt u p.hdr.ciid = .now → findInst u p.hdr.ciid = some x →
    ackRefusal x p.hdr (p.hdr.vc.toNat % 4) = 0 → (instRec u p.hdr.ciid).harvested = false →
    (instRec u p.hdr.ciid).decided = none →
    (cellOf u x.desc.cell).ciid = p.hdr.ciid → isErr (cellOf u x.desc.cell).st = false →
    (p.hdr.opcode = 3 → Answers (.ack via p) s (fun t =>
      mget (cellOf t x.desc.cell).deliv p.hdr.member.toNat [] =
        (mget (cellOf u x.desc.cell).deliv p.hdr.member.toNat []).map (fun o =>
          if inRange_ p.hdr o.idx = true ∧ 0 < o.sends then { o with acked := true } else o) ∧
      OnlyChanges [.coll, .fab, .egress, .police] s t)) ∧
    (p.hdr.opcode = 4 → exec (.resend via p) s = .next (settle k (((List.range p.hdr.chunkCount.toNat).map
      (· + p.hdr.chunkIndex.toNat)).foldl (resendChunk x p.hdr.ciid p.hdr.member.toNat) u, .done 0)))) ∧
  (∀ (s : State) (via : Via) (p : Packet) (k : Ctx) (u : State) (l : Pull), Accepted s via p k u → p.hdr.aux = 1 →
    namedPull u k = some l → p.hdr.vc.toNat % 4 = vcNum l.vc → l.first ≤ p.hdr.chunkIndex.toNat →
    p.hdr.chunkIndex.toNat + p.hdr.chunkCount.toNat ≤ l.first + l.total →
    (p.hdr.opcode = 3 → exec (.ack via p) s = .next (settle k (harvestPull (putPull u { l with
      chunks := l.chunks.map (fun o => if inRange_ p.hdr o.idx && o.sends > 0 then { o with acked := true } else o) }) l.seq,
      .done 0))) ∧
    (p.hdr.opcode = 4 → exec (.resend via p) s = .next (settle k (((List.range p.hdr.chunkCount.toNat).map
      (· + p.hdr.chunkIndex.toNat)).foldl (resendPull l.seq) u, .done 0)))) ∧
  (∀ (s : State) (cell : Fin 16384) (r : BitVec 16) (i : Nat) (x : Placed) (o : OwedChunk) (b : Origin × BitVec 8),
    findInst s (cellOf s cell.val).ciid = some x → x.desc.cell = cell.val → (cellOf s cell.val).st = .complete →
    (mget (cellOf s cell.val).deliv r.toNat []).find? (fun o => o.idx == i) = some o →
    mget? (cellOf s cell.val).bound r.toNat = some b → resendDue s o b.1 = true →
    (o.sends < 8 → exec (.resultResendTimer (.cell cell r) i) s =
      .next (resendChunk x (cellOf s cell.val).ciid r.toNat s i)) ∧
    (8 ≤ o.sends → Answers (.resultResendTimer (.cell cell r) i) s (fun t =>
      (∀ y ∈ mget (cellOf t cell.val).deliv r.toNat [], y.idx = i → y.silent = true ∧ resendDue t y b.1 = false) ∧
      (pageOf t (tmOf s b.1)).classSeen.getLsbD 2 = true))) ∧
  (∀ (s : State) (seq i : Nat) (l : Pull) (o : OwedChunk), s.fab.pulls.find? (fun p => p.seq == seq) = some l →
    l.chunks.find? (fun o => o.idx == i) = some o → resendDue s o l.org = true → o.sends < 8 →
    exec (.resultResendTimer (.pull seq) i) s = .next (resendPull seq s i)) ∧
  (∀ (s : State) (x : Placed) (c : BitVec 64) (r i : Nat) (o : OwedChunk) (b : Origin × BitVec 8),
    let cl := cellOf s x.desc.cell
    (mget cl.deliv r []).find? (fun o => o.idx == i) = some o → mget? cl.bound r = some b → isErr cl.st = false →
    rangeIntact x cl (((owedSpan x r).getD (0, 0)).1 + i * x.desc.outChunk) o.bytes.length = true →
    resendChunk x c r s i = sendResult (setCell s x.desc.cell { cl with deliv := mset cl.deliv r ((mget cl.deliv r []).map
      (fun y => if y.idx = i then { o with sends := o.sends + 1, sf := if o.sends < 8 then s.sf else o.sf } else y)) })
      x c r b (mget cl.deliv r []).length o true)

/-- CELL_WAIT_TIMEOUT, CELL_FREE_AFTER_HARVEST, HARVEST_RECHECK_DONE, RACK_GATHER_EXPIRY, RECORD_RESEND_TIMER and
FFE_LAT_MAX_CLR. -/
def Obligations.CellTimers : Prop :=
  (∀ (s : State) (cell : Fin 16384) (x : Placed),
    let cl := cellOf s cell.val
    findInst s cl.ciid = some x → (cl.st = .armed ∨ cl.st = .gathering) → cl.stopped = false → x.desc.waitLimit ≠ 0 →
    cl.armSf + x.desc.waitLimit + 1 ≤ s.sf → Answers (.cellWaitTimeout cell) s (fun t =>
      (cellOf t cell.val).st = .timeout ∧ (cellOf t cell.val).remote = false ∧ (cellOf t cell.val).acc = cl.acc ∧
      (pageOf t (cellPage cell.val)).classSeen.getLsbD 3 = true ∧ ∀ n, n ≠ cell.val → cellOf t n = cellOf s n)) ∧
  (∀ (s : State) (cell : Fin 16384), (cellOf s cell.val).st = .harvested →
    let c := (cellOf s cell.val).ciid
    let u := setCell (setInst s c { instRec s c with bound := (cellOf s cell.val).bound }) cell.val Cell.free
    ((cellOf s cell.val).harvSf + 64 ≤ s.sf → s.plans.opens = [] → s.coll.held = [] →
      exec (.cellFreeAfterHarvest cell) s = .next u) ∧
    ((cellOf s cell.val).harvSf + 64 ≤ s.sf → exec (.cellFreeAfterHarvest cell) s =
      .next (takeHeld (armOpen u cell.val) cell.val)) ∧
    (s.sf < (cellOf s cell.val).harvSf + 64 → exec (.cellFreeAfterHarvest cell) s = .next s)) ∧
  (∀ (s : State) (cell : Fin 16384) (x : Placed), findInst s (cellOf s cell.val).ciid = some x → x.desc.cell = cell.val →
    (cellOf s cell.val).recheck = true → owesNothing s x (cellOf s cell.val).ciid = true →
    Answers (.harvestRecheckDone cell) s (fun t => (∀ n, n ≠ cell.val → cellOf t n = cellOf s n) ∧
      (retainedIntact s x (cellOf s cell.val) = true →
        (cellOf t cell.val).st = .harvested ∧ (cellOf t cell.val).harvSf = s.sf ∧ (cellOf t cell.val).acc = [] ∧
        (cellOf t cell.val).kept = [] ∧ (cellOf t cell.val).finals = [] ∧ (cellOf t cell.val).trays = [] ∧
        (instRec t (cellOf s cell.val).ciid).harvested = true) ∧
      (retainedIntact s x (cellOf s cell.val) = false →
        (cellOf t cell.val).st = .tainted ∧ (cellOf t cell.val).taint = 1))) ∧
  (∀ (s : State) (cell : Fin 16384) (x : Placed), findInst s (cellOf s cell.val).ciid = some x → x.desc.cell = cell.val →
    (cellOf s cell.val).racks ≠ [] → Answers (.rackGatherExpiry cell) s (fun t =>
      (cellOf t cell.val).racks = [] ∧ OnlyChanges [.coll, .egress, .lineTx] s t ∧
      t = (joinRacks (cellOf s cell.val).racks).foldl (fun s r => emitRec s x r)
        (setCell s cell.val { cellOf s cell.val with racks := [] }))) ∧
  (∀ (s : State) (cell : Fin 16384) (i : Nat) (x : Placed) (k : Kept), findInst s (cellOf s cell.val).ciid = some x →
    (cellOf s cell.val).kept[i]? = some k → isErr (cellOf s cell.val).st = false → k.acked = false →
    (if k.line.isSome then k.sf + 2 * s.lt.d + 16 else k.sf + 13) ≤ s.sf →
    exec (.recordResendTimer cell i) s = .next (resendKept s x k)) ∧
  (∀ (s : State) (ag : Agent) (q : Fin 4), Writable s ag (.ffe q) → ∃ u,
    Wrote s u (.ffe q) 0x48 0 (regAccepted (pageOf s (.ffe q)) (.ffe q) 0x48 0) ∧
    exec (.ffeLatMaxClr ag q) s = .next (latchAll u (.ffe q) [(0x48, 0)]))

/-- PARTIAL_RX, FINAL_RX and MARK_RX: R152 orders 5 to 10. -/
def Obligations.RecordsTaken : Prop :=
  ∀ (s : State) (via : RecVia) (r : Record) (u : State) (x : Placed) (c : Instr), RecordIn s via r u x →
    (c = .partialRx via r ∧ r.hdr.kind = 1 ∨ c = .finalRx via r ∧ r.hdr.kind = 2 ∨ c = .markRx via r ∧ r.hdr.kind = 3) →
    Holds u x.desc.cell r.hdr.ciid → (instRec u r.hdr.ciid).harvested = false → r.hdr.digest = x.desc.digest →
    recShapeBad x r = false →
    let cell := x.desc.cell
    (r.payload ≠ [] → crc64 r.payload ≠ r.hdr.valueCheck.toNat → ∃ v, exec c s = .next (emitRec v x (mkAnswer v 5 r)) ∧
      (cellOf v cell).recs = (cellOf u cell).recs ∧ (cellOf v cell).acc = (cellOf u cell).acc ∧
      (cellOf v cell).finals = (cellOf u cell).finals) ∧
    (r.payload = [] ∨ crc64 r.payload = r.hdr.valueCheck.toNat →
      (∀ k, (cellOf u cell).recs.find? (sameChunk (recKey r)) = some k →
        (k.vcheck = r.hdr.valueCheck.toNat → exec c s = .next (rack u x r)) ∧
        (k.vcheck ≠ r.hdr.valueCheck.toNat → Answers c s (fun t => (cellOf t cell).st = .tainted ∧ (cellOf t cell).taint = 1 ∧
          (cellOf t cell).recs = (cellOf u cell).recs))) ∧
      ((cellOf u cell).recs.find? (sameChunk (recKey r)) = none →
        let v := takeRecord u x r
        exec c s = .next (tryHarvest (storePseudo (progress (rack v x r) x r.hdr.ciid) x) x r.hdr.ciid) ∧
        (cellOf v cell).recs = (cellOf u cell).recs ++ [recKey r] ∧ (cellOf v cell).st = (cellOf u cell).st ∧
        (cellOf (rack v x r) cell).racks = (cellOf v cell).racks ++ [mkAnswer v 4 r] ∧
        (r.hdr.kind = 2 → bit r.hdr.flags.toNat 1 = false → ∃ f, mget? (cellOf v cell).finals r.hdr.shard.toNat = some f ∧
          mget? f.chunks r.hdr.chunkIndex.toNat = some (r.payload, r.hdr.valueCheck.toNat)) ∧
        (r.hdr.kind = 3 → bit r.hdr.flags.toNat 1 = false →
          ∃ f, mget? (cellOf v cell).finals r.hdr.shard.toNat = some f ∧ f.mark = true)))

/-- RACK_RX and RRESEND_RX. -/
def Obligations.RecordAnswers : Prop :=
  (∀ (s : State) (via : RecVia) (r : Record) (u : State) (x : Placed), RecordIn s via r u x →
    Holds u x.desc.cell r.hdr.ciid → r.hdr.digest = x.desc.digest → recShapeBad x r = false →
    let kept := (cellOf u x.desc.cell).kept
    (r.hdr.kind = 4 → Answers (.rackRx via r) s (fun t =>
      (∀ y ∈ (cellOf t x.desc.cell).kept, namedKept r y = true → y.acked = true ∧ y.rcd.hdr.kind ≠ 1) ∧
      (∀ y ∈ kept, namedKept r y = false → y ∈ (cellOf t x.desc.cell).kept) ∧
      (∀ y ∈ (cellOf t x.desc.cell).kept, ∃ k ∈ kept, y.rcd = k.rcd ∧ y.sends = k.sends) ∧
      (∀ n, n ≠ x.desc.cell → cellOf t n = cellOf u n) ∧ OnlyChanges [.coll, .trays] u t)) ∧
    (r.hdr.kind = 5 → exec (.rresendRx via r) s =
      .next ((kept.filter (namedKept r)).foldl (fun s k => resendKept s x k) u))) ∧
  (∀ (s : State) (x : Placed) (k : Kept), k ∈ (cellOf s x.desc.cell).kept → k.acked = false →
    (8 ≤ k.sends → k.silent = false → ∃ y ∈ (cellOf (resendKept s x k) x.desc.cell).kept, y = { k with silent := true } ∧
      (pageOf (resendKept s x k) (cellPage x.desc.cell)).classSeen.getLsbD 3 = true) ∧
    (k.sends < 8 → k.rcd.payload ≠ [] → crc64 k.rcd.payload ≠ k.rcd.hdr.valueCheck.toNat →
      (cellOf (resendKept s x k) x.desc.cell).st = .tainted) ∧
    (k.sends < 8 → k.rcd.payload = [] ∨ crc64 k.rcd.payload = k.rcd.hdr.valueCheck.toNat →
      { k with sends := k.sends + 1, sf := s.sf } ∈ (cellOf (resendKept s x k) x.desc.cell).kept ∧
      ∃ v, OnlyChanges [.coll] s v ∧ resendKept s x k =
        emitRec v x (sealRec { k.rcd with hdr := { k.rcd.hdr with flags := k.rcd.hdr.flags ||| 1 } })))

/-- R152 orders 1 to 4, for every kind. -/
def Obligations.RecordsRefused : Prop :=
  ∀ (s : State) (d : Dgram) (r : Record) (u : State) (c : Instr),
    (c = .partialRx (.site d) r ∧ r.hdr.kind = 1 ∨ c = .finalRx (.site d) r ∧ r.hdr.kind = 2 ∨
      c = .markRx (.site d) r ∧ r.hdr.kind = 3 ∨ c = .rackRx (.site d) r ∧ r.hdr.kind = 4 ∨
      c = .rresendRx (.site d) r ∧ r.hdr.kind = 5) →
    let ours := d.conforms (peerPort s) = true ∧ d.peer = true
    (¬ours → exec c s = .next (count s (fportOf d.port) 0 1)) ∧
    (ours → policeIn s d.port 4 (wireSize true d.tagged (64 + r.payload.length)) = (u, false) →
      exec c s = .next (count s (fportOf d.port) 5 1)) ∧
    (ours → policeIn s d.port 4 (wireSize true d.tagged (64 + r.payload.length)) = (u, true) →
      (r.hdr.check.toNat ≠ recCheck r → exec c s = .next (count u (fportOf d.port) 0 1)) ∧
      (r.hdr.check.toNat = recCheck r → recMalformed r = true →
        exec c s = .next (raiseFor u (inputPage u r.hdr.ciid (fportOf d.port)) 0x2601 0 r.hdr.ciid)) ∧
      (r.hdr.check.toNat = recCheck r → recMalformed r = false → attempt u r.hdr.ciid = .stale →
        exec c s = .next (raiseFor u (inputPage u r.hdr.ciid (fportOf d.port)) 0x2103 0 r.hdr.ciid)) ∧
      (r.hdr.check.toNat = recCheck r → recMalformed r = false → attempt u r.hdr.ciid ≠ .stale →
        findInst u r.hdr.ciid = none → exec c s = .next (raise u (fportOf d.port) 0x2602 0)) ∧
      (∀ x : Placed, r.hdr.check.toNat = recCheck r → recMalformed r = false → attempt u r.hdr.ciid = .now →
        findInst u r.hdr.ciid = some x → recRouted x (gw u) r = false →
        exec c s = .next (raiseCell u x.desc.cell 0x2602 0 r.hdr.ciid)))

/-- FAIL_NOTICE_RX, DECISION_WINDOW_EXPIRY and DECISION_RX. -/
def Obligations.FailureDecisions : Prop :=
  (∀ (s : State) (via : RecVia) (m : Ctl) (u : State), m.ctype = 1 → CtlUp s via m u →
    (mget? u.coll.windows m.ciid = none → Answers (.failNoticeRx via m) s (fun t =>
      mget? t.coll.windows m.ciid = some ⟨u.sf, u.lt.d, [stOf m.state.toNat], none, 0⟩ ∧ OnlyChanges [.coll] u t ∧
      t.coll.cells = s.coll.cells)) ∧
    (∀ w, mget? u.coll.windows m.ciid = some w → Answers (.failNoticeRx via m) s (fun t =>
      mget? t.coll.windows m.ciid = some (if w.decided.isSome then { w with late := w.late + 1 }
        else { w with notices := w.notices ++ [stOf m.state.toNat] }) ∧
      OnlyChanges [.coll] u t ∧ t.coll.cells = s.coll.cells))) ∧
  (∀ (s : State) (c : BitVec 64) (w : Window), mget? s.coll.windows c = some w → w.decided = none → quorum s = true →
    (w.opened + 2 * w.d + 4 ≤ s.sf → Answers (.decisionWindowExpiry c) s (fun t =>
      mget? t.coll.windows c = some { w with decided := some (decide_ w.notices) } ∧
      Msg.ctl (mkCtl s 2 (stNum (decide_ w.notices)) c 0 s.sf 0) ∈ t.rseq.loop ∧ t.coll.cells = s.coll.cells ∧
      t.plans = s.plans)) ∧
    (s.sf < w.opened + 2 * w.d + 4 → exec (.decisionWindowExpiry c) s = .next s)) ∧
  (∀ l : List CellSt, (CellSt.mismatch ∈ l → decide_ l = .mismatch) ∧
    (CellSt.mismatch ∉ l → CellSt.tainted ∈ l → decide_ l = .tainted) ∧
    (CellSt.mismatch ∉ l → CellSt.tainted ∉ l → decide_ l = .timeout)) ∧
  (∀ (s : State) (via : RecVia) (m : Ctl) (u : State) (x : Placed), m.ctype = 2 → CtlDown s via m u →
    attempt u m.ciid ≠ .stale → ciidReplay m.ciid = replayOf u (ciidJob m.ciid) (ciidStep m.ciid) →
    findInst u m.ciid = some x →
    ((instRec u m.ciid).decided.isSome = true → exec (.decisionRx via m) s = .next u) ∧
    ((instRec u m.ciid).decided = none → (cellOf u x.desc.cell).st ≠ .free → (cellOf u x.desc.cell).ciid = m.ciid →
      Answers (.decisionRx via m) s (fun t => (cellOf t x.desc.cell).st = stOf m.state.toNat ∧
        (cellOf t x.desc.cell).ciid = m.ciid ∧ (instRec t m.ciid).decided = some (stOf m.state.toNat) ∧
        (∀ e ∈ (cellOf u x.desc.cell).bound, e.1 ∈ (instRec t m.ciid).answered) ∧
        (∀ n, n ≠ x.desc.cell → cellOf t n = cellOf u n))))

/-- XCHK_COMPARE and REFEREE_VERDICT. -/
def Obligations.CrossChecks : Prop :=
  (∀ (s : State) (id : Nat) (err : List (Nat × Byte)) (k : Xchk),
    s.coll.xchks.find? (fun k => k.id == id && k.referee.isNone) = some k →
    let sh := flipBytes k.again.1 err
    (sh = k.bits → Answers (.xchkCompare id err) s (fun t => (∀ y ∈ t.coll.xchks, y.id ≠ id) ∧
      OnlyChanges [.coll, .plans, .ctr] s t)) ∧
    (sh ≠ k.bits → ∀ r, refereeOf s k = some r → Answers (.xchkCompare id err) s (fun t =>
      (∃ y ∈ t.coll.xchks, y.id = id ∧ y.referee = some r ∧ y.sh = sh) ∧
      (k.tile ≠ k.shadow → (tileOf t k.tile).xchkMiss = min 0xFFFF ((tileOf s k.tile).xchkMiss + 1) ∧
        (tileOf t k.shadow).xchkMiss = min 0xFFFF ((tileOf s k.shadow).xchkMiss + 1)) ∧
      (Holds s k.cell k.ciid → (cellOf t k.cell).st = .tainted ∧ (cellOf t k.cell).taint = 2) ∧
      t.rseq.charges = s.rseq.charges)) ∧
    (sh ≠ k.bits → refereeOf s k = none → Answers (.xchkCompare id err) s (fun t => (∀ y ∈ t.coll.xchks, y.id ≠ id) ∧
      s.sf ∈ mget t.rseq.charges k.tile [] ∧ s.sf ∈ mget t.rseq.charges k.shadow []))) ∧
  (∀ (s : State) (id : Nat) (err : List (Nat × Byte)) (k : Xchk) (r : Fin 64),
    s.coll.xchks.find? (fun k => k.id == id) = some k → k.referee = some r →
    let rb := flipBytes k.again.1 err
    Answers (.refereeVerdict id err) s (fun t => (∀ y ∈ t.coll.xchks, y.id ≠ id) ∧
      (rb = k.sh ∨ rb ≠ k.bits → s.sf ∈ mget t.rseq.charges k.tile [] ∧
        (pageOf t (.tile k.tile)).classSeen.getLsbD 1 = true) ∧
      (rb ≠ k.sh → s.sf ∈ mget t.rseq.charges k.shadow [] ∧ (pageOf t (.tile k.shadow)).classSeen.getLsbD 1 = true) ∧
      (∀ x, x ≠ k.tile → x ≠ k.shadow → mget t.rseq.charges x [] = mget s.rseq.charges x []))) ∧
  (∀ (s : State) (k : Xchk) (r : Fin 64), refereeOf s k = some r ↔
    (r.val / 16 = k.shadow.val / 16 ∧ r ≠ k.tile ∧ r ≠ k.shadow ∧ (pageOf s (.tile r)).quarantined = false ∧
      ∀ y : Fin 64, y.val < r.val → ¬(y.val / 16 = k.shadow.val / 16 ∧ y ≠ k.tile ∧ y ≠ k.shadow ∧
        (pageOf s (.tile y)).quarantined = false)))

/-- STEP_END, SYNC, WAIT_LT, WAIT_CELL, SIGNAL and WAIT_EVT. -/
def Obligations.SequencerWords : Prop :=
  ∀ (s : State) (t : Fin 64) (p : Plan) (st : PlanStep) (w : List Nat),
    ((tileOf (issue s t w false) t).pc = (tileOf s t).pc + w.length ∧ (tileOf (issue s t w false) t).seq = .issue ∧
      (∀ x, x ≠ t → tileOf (issue s t w false) x = tileOf s x) ∧ OnlyChanges [.plans, .ctr] s (issue s t w false)) ∧
    (Reaches s t 2 p st w → (drained s t = true → exec (.sync t) s = .next (issue s t w false)) ∧
      (drained s t = false → exec (.sync t) s = .next (stall s t .sync 0 false))) ∧
    (Reaches s t 3 p st w → ∀ ns : Fin 8000,
      (instant s t (wF w 0 48 0) = s.sf * 8000 + ns.val ∨
        (instant s t (wF w 0 48 0) < s.sf * 8000 + ns.val ∧ (tileOf s t).seq = .waitLt) →
        exec (.waitLt t ns) s = .next (issue s t w false)) ∧
      (instant s t (wF w 0 48 0) < s.sf * 8000 + ns.val → (tileOf s t).seq ≠ .waitLt → Answers (.waitLt t ns) s (fun u =>
        (tileOf u t).pc = (tileOf s t).pc + w.length ∧ bit (tileOf u t).flags 5 = true ∧
        (pageOf u (.tile t)).classSeen.getLsbD 0 = true)) ∧
      (s.sf * 8000 + ns.val < instant s t (wF w 0 48 0) → Answers (.waitLt t ns) s (fun u =>
        (tileOf u t).seq = .waitLt ∧ (tileOf u t).pc = (tileOf s t).pc))) ∧
    (Reaches s t 4 p st w → ∀ (d : Desc) (c : BitVec 64), namedInst s t p (fun d => d.cell == wF w 0 13 0) = some (d, c) →
      (instFailed s d c = true → Answers (.waitCell t) s (fun u => (tileOf u t).failed = true ∧
        (tileOf u t).seq = .boundary ∧ (tileOf u t).todo = none ∧ bit (tileOf u t).flags 4 = true)) ∧
      (instFailed s d c = false → condReached s d c (wF w 0 17 14) = true → exec (.waitCell t) s = .next (issue s t w false)) ∧
      (instFailed s d c = false → condReached s d c (wF w 0 17 14) = false →
        exec (.waitCell t) s = .next (stall s t .waitCell d.cell true))) ∧
    (Reaches s t 5 p st w → drained s t = true → replayOf s p.job (tileOf s t).step ≤ (tileOf s t).replay →
      let y := tileIx (wF w 0 5 0)
      (y ≠ t → (tileOf s y).active = true → (tileOf s y).step = (tileOf s t).step →
        (tileOf s y).replay = (tileOf s t).replay → (tileOf s y).seq ≠ .boundary → Answers (.signal t) s (fun u =>
          mget (tileOf u y).evt (wF w 0 10 6) 0 = min 65535 (mget (tileOf s y).evt (wF w 0 10 6) 0 + 1) ∧
          (tileOf u t).pc = (tileOf s t).pc + w.length ∧ OnlyChanges [.plans, .ctr] s u)) ∧
      exec (.signal t) s = .next (signalTo (issue s t w false) y (tileOf s t).step (tileOf s t).replay (wF w 0 10 6))) ∧
    (Reaches s t 6 p st w → (wF w 0 20 5 ≤ mget (tileOf s t).evt (wF w 0 4 0) 0 →
        exec (.waitEvt t) s = .next (issue s t w false)) ∧
      (mget (tileOf s t).evt (wF w 0 4 0) 0 < wF w 0 20 5 →
        exec (.waitEvt t) s = .next (stall s t .waitEvt (wF w 0 4 0 + wF w 0 20 5 * 65536) true))) ∧
    (Reaches s t 1 p st w → drained s t = true → (hasNext s t p st = false ∨ (tileOf s t).bufFull = true) →
      exec (.stepEnd t) s = .next (endStep (issue s t w false) t) ∧
      (tileOf (endStep (issue s t w false) t) t).srec =
        ⟨(tileOf s t).step, (tileOf s t).replay, (tileOf s t).flags, (tileOf s t).beganSf % 2 ^ 32, s.sf % 2 ^ 32⟩ ∧
      (st.step ≠ p.last → (tileOf (endStep (issue s t w false) t) t).todo = some ((tileOf s t).slot, nextStep st.step)))

/-- RAMP, DMA, LAUNCH and MMA. -/
def Obligations.EngineWords : Prop :=
  ∀ (s : State) (t : Fin 64) (p : Plan) (st : PlanStep) (w : List Nat),
    (Reaches s t 7 p st w → engineRoom s t .power = true → Answers (.ramp t) s (fun u => Issued s u t .power w ∧
      u.power.queued = s.power.queued ++ [⟨s.sf + wF w 0 41 18, wF w 0 7 0, wF w 0 17 8, (tileOf s t).step % 2 ^ 14⟩] ∧
      u.power.ceil = s.power.ceil ∧ u.mem = s.mem)) ∧
    (Reaches s t 8 p st w → EngineFree s t .dma w → Answers (.dma t) s (fun u => Issued s u t .dma w ∧
      u.mem = memPut s.mem (wF w 1 39 0) (memBytes s.mem (wF w 0 39 0) (64 * wF w 1 63 40)) ∧
      OnlyChanges [.mem, .plans, .ctr, .poison, .outer, .rseq] s u)) ∧
    (∀ ns : Fin 8000, Reaches s t 9 p st w → engineRoom s t .launch = true → takesWork s (.launch (quadOf t)) = true →
      let v := issue s t w false
      (s.plans.launches.filter (fun l => l.quad == quadOf t && l.line == !bit (w.getD 0 0) 22 &&
        l.index == wF w 0 26 23)).length < 64 → Answers (.launch t ns) s (fun u => Issued s u t .launch w ∧ u.mem = s.mem ∧
        ∃ l, u.plans.launches = s.plans.launches ++ [l] ∧ l.quad = quadOf t ∧ l.line = !bit (w.getD 0 0) 22 ∧
          l.index = wF w 0 26 23 ∧ l.cell = wF w 0 13 0 ∧ l.shard = wF w 0 19 14 ∧ l.level = wF w 0 21 20 ∧
          8000 * l.sf + 125 * l.slot ≤ instant v t (wF w 1 48 0) ∧
          instant v t (wF w 1 48 0) < 8000 * l.sf + 125 * l.slot + 125 ∧
          (l.late = true ↔ instant v t (wF w 1 48 0) < s.sf * 8000 + ns.val + 1000))) ∧
    (Reaches s t 0xA p st w → EngineFree s t .tensor w → Answers (.mma t) s (fun u => Issued s u t .tensor w ∧
      let r := (mmaRun (bit st.mode 2) s.mem w (tileOf s t).pass).1
      r.length = wF w 3 15 0 + 1 ∧ (∀ row ∈ r, row.length = wF w 3 31 16 + 1) ∧
      u.mem = (List.range r.length).foldl (fun m i =>
        memPut m (wF w 2 39 0 + i * pitch (4 * (wF w 3 31 16 + 1))) (fp32Bytes (r.getD i []))) s.mem ∧
      OnlyChanges [.mem, .plans, .ctr, .poison, .outer, .rseq] s u)) ∧
    (Reaches s t 8 p st w → engineRoom s t .dma = false → exec (.dma t) s = .next (stall s t .issue 0 false)) ∧
    (Reaches s t 0xA p st w → engineRoom s t .tensor = false → exec (.mma t) s = .next (stall s t .issue 0 false))

/-- CRYS ADD, LOAD, MAX, MIN, AXPBY, ENCODE and SCALE. -/
def Obligations.CrystalliserWords : Prop :=
  ∀ (s : State) (t : Fin 64) (p : Plan) (st : PlanStep) (w : List Nat), Reaches s t 0xB p st w → EngineFree s t .crys w →
    let n := crysN w
    let strict := bit st.mode 2
    let src := (decodeElems strict (wF w 0 51 44) n (memBytes s.mem (wF w 1 39 0) (encSize (wF w 0 51 44) n))).1
    let dst := memF32 s.mem (wF w 2 39 0) n
    let writes := fun (c : Instr) (bs : Bytes) => Answers c s (fun u => Issued s u t .crys w ∧
      u.mem = memPut s.mem (wF w 2 39 0) bs ∧ OnlyChanges [.mem, .plans, .ctr, .poison, .outer, .rseq] s u)
    (wF w 0 55 52 = 1 → writes (.crysAdd t) (fp32Bytes ((List.range n).map (fun i =>
      (fpAdd strict (dst.getD i 0) (src.getD i 0)).1)))) ∧
    (wF w 0 55 52 = 2 → writes (.crysLoad t) (fp32Bytes src)) ∧
    (wF w 0 55 52 = 3 → writes (.crysMax t) (fp32Bytes ((List.range n).map (fun i =>
      (fpPick strict true (dst.getD i 0) (src.getD i 0)).1)))) ∧
    (wF w 0 55 52 = 4 → writes (.crysMin t) (fp32Bytes ((List.range n).map (fun i =>
      (fpPick strict false (dst.getD i 0) (src.getD i 0)).1)))) ∧
    (wF w 0 55 52 = 5 → writes (.crysAxpby t) (fp32Bytes ((List.range n).map (fun i =>
      (fpAdd strict (fpMul strict (wF w 3 63 32) (dst.getD i 0)).1 (fpMul strict (wF w 3 31 0) (src.getD i 0)).1).1)))) ∧
    (wF w 0 55 52 = 6 → writes (.crysEncode t) (encodeElems strict (st.mode % 4) ⟨st.seed, 4, gw s, wF w 0 35 30, 0⟩
      (wF w 0 43 36) (memF32 s.mem (wF w 1 39 0) n)).1) ∧
    (wF w 0 55 52 = 7 → writes (.crysScale t) (fp32Bytes (src.map (fun x => (fpMul strict (wF w 3 63 32) x).1))))

/-- KERNEL BASIS, ORTHO, EXPAND and NS5. Y is scratch: its bytes after the word are free. -/
def Obligations.KernelWords : Prop :=
  ∀ (s : State) (t : Fin 64) (p : Plan) (st : PlanStep) (w : List Nat), Reaches s t 0xC p st w →
    let rows := wF w 3 15 0 + 1
    let cols := wF w 3 31 16 + 1
    let r := 16 * wF w 3 41 32
    let strict := bit st.mode 2
    let z := wF w 2 39 0
    let enc := fun (vs : List Nat) => (encodeElems strict (st.mode % 4) ⟨st.seed, 4, gw s, wF w 3 55 50, 0⟩ (wF w 3 49 42) vs).1
    let writes := fun (c : Instr) (ys : Nat) (bs : Bytes) => Answers c s (fun u => Issued s u t .kernel w ∧
      (∃ scr : Bytes, scr.length = ys ∧ u.mem = memPut (memPut s.mem (wF w 1 39 0) scr) z bs) ∧
      OnlyChanges [.mem, .plans, .ctr, .poison, .outer, .rseq, .pages, .out, .msix, .clk] s u)
    (drained s t = false → ∀ c : Instr, (c = .kernelBasis t ∧ wF w 0 55 52 = 1 ∨ c = .kernelOrtho t ∧ wF w 0 55 52 = 2 ∨
      c = .kernelExpand t ∧ wF w 0 55 52 = 3 ∨ c = .kernelNs5 t ∧ wF w 0 55 52 = 4) →
      exec c s = .next (stall s t .sync 0 false)) ∧
    (drained s t = true → EngineFree s t .kernel w →
      (wF w 0 55 52 = 1 → writes (.kernelBasis t) (8 * r * r) (fp32Bytes (basis strict p.job (wF w 0 31 0) cols r).1)) ∧
      (wF w 0 55 52 = 2 → writes (.kernelOrtho t) (8 * r * r)
        (enc (ortho strict rows r (memF32 s.mem (wF w 0 39 0) (rows * r))).1)) ∧
      (wF w 0 55 52 = 3 → writes (.kernelExpand t) 0 (fp32Bytes (expand rows cols r
        (decodeElems strict 0x02 (rows * r) (memBytes s.mem (wF w 0 39 0) (2 * rows * r))).1
        (decodeElems strict 0x02 (cols * r) (memBytes s.mem (wF w 1 39 0) (2 * cols * r))).1).1)) ∧
      (wF w 0 55 52 = 4 → writes (.kernelNs5 t) (12 * min rows cols * min rows cols + 8 * min rows cols * max rows cols)
        (enc (ns5 strict rows cols (memF32 s.mem (wF w 0 39 0) (rows * cols))).1)))

/-- ENGINE_WORD_DONE, TILE_STEP_BEGIN, PLAN_BUFFER_COPY_DONE, STEP_RECORD_CLOSE, RAMP_START, PWR_CAP_UNMET and EXC_CLEAR. -/
def Obligations.StepsAndPower : Prop :=
  (∀ (s : State) (t : Fin 64) (i : Nat) (w : InFlight), (tileOf s t).flight[i]? = some w → w.behind = false →
    (∀ y ∈ (tileOf s t).flight.take i, y.eng ≠ w.eng) →
    exec (.engineWordDone t i) s = .next (setTile s t { tileOf s t with flight := (tileOf s t).flight.eraseIdx i })) ∧
  (∀ (s : State) (t : Fin 64) (i n : Nat) (p : Plan) (st : PlanStep), (tileOf s t).todo = some (i, n) → n < 2 ^ 24 →
    mayBegin s t = true → slotRuns s i = true → slotPlan s i = some p → p.stepOf n = some st → outerWaits s p st = false →
    st.streams.getD t.val [] ≠ [] → Answers (.tileStepBegin t) s (fun u =>
      (tileOf u t).active = true ∧ (tileOf u t).seq = .issue ∧ (tileOf u t).slot = i ∧ (tileOf u t).step = n ∧
      (tileOf u t).replay = replayOf s p.job n ∧ (tileOf u t).pc = 0 ∧ (tileOf u t).beganSf = s.sf ∧
      (tileOf u t).todo = none ∧ (tileOf u t).flags = 0 ∧ (tileOf u t).flight = [] ∧ (tileOf u t).bufFull = false ∧
      (∃ o ∈ u.plans.opens, o.job = p.job ∧ o.step = st.step ∧ o.replay = replayOf s p.job n) ∧
      (pageOf u (.tile t)).pend = [])) ∧
  (∀ (s : State) (t : Fin 64), mayBegin s t = false → (tileOf s t).seq ≠ .boundary →
    exec (.tileStepBegin t) s = .next s) ∧
  (∀ (s : State) (t : Fin 64) (p : Plan) (st : PlanStep), tileStep s t = some (p, st) → issuing s t = true →
    hasNext s t p st = true → exec (.planBufferCopyDone t) s = .next (setTile s t { tileOf s t with bufFull := true })) ∧
  (∀ (s : State) (step : BitVec 24) (o : OpenRec) (p : Plan),
    s.plans.opens.find? (fun o => o.step == step.toNat && recordEnded s o) = some o → slotPlan s o.slot = some p →
    Answers (.stepRecordClose step) s (fun u => u.plans.opens = s.plans.opens.erase o ∧ u.plans.records.length ≤ 64 ∧
      u.plans.records.getLast? = some ⟨o.step, o.replay, o.flags % 512, o.startSf % 2 ^ 32, s.sf % 2 ^ 32⟩ ∧
      u.plans.committed = s.plans.committed ∧ u.mem = s.mem ∧ u.coll = s.coll)) ∧
  (∀ (s : State) (r : Ramp), s.power.queued.find? (fun r => r.start ≤ s.sf) = some r → exec .rampStart s =
    .next { s with power := { s.power with running := some r, lastRamp := r, queued := s.power.queued.erase r } }) ∧
  (∀ s : State, s.power.queued.find? (fun r => r.start ≤ s.sf) = none → exec .rampStart s = .next s) ∧
  (∀ s : State, 10 * s.i3c.cap < s.power.module → s.power.ceil = 0 → s.power.throttle ≤ 25 →
    (∀ f, s.power.overSf = some f → f + 125000 ≤ s.sf) → Answers .pwrCapUnmet s (fun u =>
      u.power.overSf = some s.sf ∧ (pageOf u .pwr).classSeen.getLsbD 0 = true ∧ u.power.ceil = 0 ∧ u.plans = s.plans)) ∧
  (∀ (s : State) (f : Nat), s.power.overSf = some f → s.sf < f + 125000 → exec .pwrCapUnmet s = .next s) ∧
  (∀ (s : State) (ag : Agent) (t : Fin 64), Writable s ag (.tile t) → Answers (.excClear ag t) s (fun u =>
    OnlyChanges [.plans, .pages] s u ∧ tileOf u t = { tileOf s t with
      excSticky := 0, excCaptured := false, excSeen := [], excStep := 0, excWhere := 0, excKind := 0 } ∧
    ∀ x, x ≠ t → tileOf u x = tileOf s x))

/-- PLAN_LOAD, PLAN_START, PLAN_REPLACE, PLAN_STOP, PLAN_DROP, PLAN_STATUS and TILE_RELEASE. -/
def Obligations.PlanFunctions : Prop :=
  ∀ (s : State) (via : Via) (p : Packet) (k : Ctx) (u : State), Accepted s via p k u → p.hdr.opcode = 0x0A →
    let b := p.payload
    let i := byteAt b 0
    let x := slotOf u i
    let y := slotOf u (1 - i)
    (p.hdr.arg0 = 0x100 → p.hdr.chunkCount = 1 → p.hdr.chunkIndex = 0 → 16 ≤ b.length → i ≤ 1 →
      (slice b 1 15).any (· != 0) = false → loadable u x = true → mget? u.plans.loads k.org = none →
      ∀ (v : State) (l : LoadBuf), growLoad u (reqOf u k.org) { LoadBuf.none with count := 1 } 0 b = some (v, l) →
        let z := endLoad (setSlot (setLoads v (mset v.plans.loads k.org l)) i { slotOf v i with st := .loading, prior := x.st })
          k.org l
        (∀ (q : Plan) (z' : State) (a : Aside), checkPlan z i (reqOf z k.org) (b.drop 16) = .inr (q, z', a) →
          Answers (.planLoad via p) s (fun t => (slotOf t i).st = .loaded ∧ (slotOf t i).plan = some q ∧
            (slotOf t i).aside = a ∧ (slotOf t i).begun = [] ∧ t.plans.tiles = u.plans.tiles)) ∧
        (∀ r : PRef, checkPlan z i (reqOf z k.org) (b.drop 16) = .inl r → Answers (.planLoad via p) s (fun t =>
          (slotOf t i).st = x.st ∧ (slotOf t i).plan = x.plan ∧ (pageOf t (.quad 0)).classSeen.getLsbD 2 = true))) ∧
    (p.hdr.chunkIndex = 0 → p.hdr.chunkCount.toNat ≤ 1 → b.length = 16 → i ≤ 1 →
      (p.hdr.arg0 = 0x101 → (slice b 2 6).any (· != 0) = false → joined u = true → x.st = .loaded →
        ∀ q : Plan, x.plan = some q →
        (byteAt b 1 = 0 → y.st = .empty ∨ y.st = .loading ∨ y.st = .loaded ∨ y.st = .done →
          exec (.planStart via p) s = .next (settle k (completeNow (startTiles (setSlot u i { x with
            st := .active, base := beAt b 8 8, begun := [], lastEnded := [] }) i q q.first) k []))) ∧
        (byteAt b 1 = 0 → y.st = .active → ∀ q' : Plan, y.plan = some q' → q'.job = q.job → q.first = nextStep q'.last →
          y.lastEnded = [] → exec (.planStart via p) s = .next (settle k (completeNow (setSlot u i { x with
            st := .next, base := beAt b 8 8, begun := [], lastEnded := [] }) k []))) ∧
        (byteAt b 1 = 1 → y.st = .held → ∀ q' : Plan, y.plan = some q' → q.job = q'.job →
          let z := (oldestStep u q').getD q.first
          ((oldestStep u q').isSome = true → replaceBad q' q z = none) → exec (.planReplace via p) s = .next (settle k (completeNow (startTiles
            (setSlot (setSlot u (1 - i) { y with st := .done, stopping := false }) i { x with
              st := .active, base := beAt b 8 8, begun := [], lastEnded := [] }) i q z) k [])))) ∧
      ((slice b 1 15).any (· != 0) = false →
        (p.hdr.arg0 = 0x102 → x.st = .active → ∀ q : Plan, x.plan = some q → Answers (.planStop via p) s (fun t =>
          ((∀ n : Fin 64, bit q.tileMask n.val = true → tileBusy (tileOf u n) = true → (tileOf u n).slot ≠ i) →
            (slotOf t i).st = .held) ∧
          ((∃ n : Fin 64, bit q.tileMask n.val = true ∧ tileBusy (tileOf u n) = true ∧ (tileOf u n).slot = i) →
            (slotOf t i).st = .active ∧ (slotOf t i).stopping = true) ∧
          slotOf t (1 - i) = y ∧ t.plans.tiles = u.plans.tiles)) ∧
        (p.hdr.arg0 = 0x102 → x.st = .next → x.begun = [] → Answers (.planStop via p) s (fun t =>
          (slotOf t i).st = .loaded ∧ (slotOf t i).plan = x.plan ∧
          ∀ (n : Fin 64) (j m : Nat), (tileOf t n).todo = some (j, m) → j ≠ i)) ∧
        (p.hdr.arg0 = 0x103 → x.st = .loaded ∨ x.st = .done → uncommitted u x = false → Answers (.planDrop via p) s (fun t =>
          slotOf t i = Slot.empty ∧ slotOf t (1 - i) = y)) ∧
        (p.hdr.arg0 = 0x103 → x.st = .active ∨ x.st = .next ∨ x.st = .held → exec (.planDrop via p) s =
          .next (settle k (slotRefuse u 0x2802 i 3))))) ∧
    (p.hdr.chunkIndex = 0 → p.hdr.chunkCount.toNat ≤ 1 →
      (p.hdr.arg0 = 0x104 → b = [] → exec (.planStatus via p) s = .next (settle k (completeNow u k
        (beBytes 1 (slotNum u.plans.slot0.st) ++ beBytes 3 (statusStep u.plans.slot0) ++
          (beBytes 1 (slotNum u.plans.slot1.st) ++ beBytes 3 (statusStep u.plans.slot1)) ++
          u.plans.records.flatMap (·.bytes))))) ∧
      (p.hdr.arg0 = 0x105 → b.length = 16 → i ≤ 63 → (slice b 1 15).any (· != 0) = false →
        (u.mode ≠ some .test → exec (.tileRelease via p) s = .next (settle k (u, .refuse 0x220F))) ∧
        (u.mode = some .test → Answers (.tileRelease via p) s (fun t => (pageOf t (.tile (tileIx i))).quarantined = false ∧
          ((pageOf u (.tile (tileIx i))).quarantined = true → (pageOf t (.tile (tileIx i))).enable = false ∧
            mget t.rseq.charges (tileIx i) [] = [] ∧ (tileOf t (tileIx i)).xchkMiss = 0 ∧
            tileIx i ∉ t.trays.removed)))))

/-- READ_EPOCH, WEIGHT_PULL, STATE_READ of WEIGHTS, MOMENTUM and WEIGHT_BLOCKS. -/
def Obligations.StateReads : Prop :=
  (∀ (s : State) (via : Via) (p : Packet) (k : Ctx) (u : State), Accepted s via p k u →
    let j := jobOf u (ciidJob p.hdr.ciid)
    let e := p.hdr.arg0.toNat
    let first := p.hdr.chunkIndex.toNat
    let n := p.hdr.chunkCount.toNat
    (p.hdr.opcode = 5 → j.lost = false → exec (.readEpoch via p) s = .next (settle k (completeNow u k
      (beBytes 4 j.epoch ++ beBytes 4 (if j.prev then j.epoch - 1 else j.epoch) ++ beBytes 8 j.switchSf)))) ∧
    (∀ m : Matrix, j.lost = false → matrixOf u (ciidJob p.hdr.ciid) p.hdr.arg1.toNat = some m →
      (p.hdr.opcode = 6 → p.hdr.elemType.toNat = m.delivType → first + n ≤ matChunks m m.delivType →
        (serverOf u m = gw u → m.home = gw u →
          (j.epoch < e → exec (.weightPull via p) s = .next (settle k (raise u (viaPage via) 0x2102 0, .refuse 0x2102))) ∧
          (e < j.epoch → ¬(e + 1 = j.epoch ∧ j.prev = true) →
            exec (.weightPull via p) s = .next (settle k (raise u (viaPage via) 0x2101 0, .refuse 0x2101))) ∧
          (e = j.epoch ∨ e + 1 = j.epoch ∧ j.prev = true →
            (imageFor u (ciidJob p.hdr.ciid) m.matrix e = none → exec (.weightPull via p) s = .next (settle k
              (serveNow u (newPull k u .weight 1 m.matrix e) (bankChunk u m (homeBank m e)), .taken))) ∧
            (∀ img, imageFor u (ciidJob p.hdr.ciid) m.matrix e = some img → exec (.weightPull via p) s = .next (settle k
              (driveAll (addPull u { newPull k u .weight 1 m.matrix e with img := some img.id }), .taken))))) ∧
        (serverOf u m ≠ gw u → let tag := (u.stTag + 1) % 2 ^ 32
          exec (.weightPull via p) s = .next (settle k (fetchRange (addPull { u with stTag := tag }
            { newPull k u .weight 1 m.matrix e with fetchTag := some tag }) (serverOf u m) (ciidJob p.hdr.ciid) m.delivType e
            m.matrix 1 first n tag, .taken)))) ∧
      (p.hdr.opcode = 9 → m.home = gw u →
        (p.hdr.aux = 1 → p.hdr.elemType.toNat = m.wType → (e = j.epoch ∨ e + 1 = j.epoch ∧ j.prev = true) →
          first + n ≤ recChunks m.wType (m.rows * m.cols) → exec (.stateReadWeights via p) s = .next (settle k (serveNow u
            (newPull k u .mgmt 1 m.matrix e) (fun i => memBytes u.mem (homeBank m e + i * recChunk m.wType)
              (chunkLen m.wType (m.rows * m.cols) i)), .taken))) ∧
        (p.hdr.aux = 2 → p.hdr.elemType.toNat = 1 → e = j.epoch → j.outer = none → m.rule ≠ 1 →
          first + n ≤ recChunks 1 (m.rows * m.cols) → exec (.stateReadMomentum via p) s = .next (settle k (serveNow u
            (newPull k u .mgmt 2 m.matrix e) (fun i => memBytes u.mem (m.hM + i * recChunk 1)
              (chunkLen 1 (m.rows * m.cols) i)), .taken))) ∧
        (p.hdr.aux = 4 → p.hdr.elemType.toNat = m.delivType → ∀ img,
          imageFor u (ciidJob p.hdr.ciid) m.matrix e = some img → first + n ≤ cdiv (img.blocks.flatMap id).length 8192 →
          exec (.stateReadWeightBlocks via p) s = .next (settle k (serveNow u
            { newPull k u .mgmt 4 m.matrix e with img := some img.id }
            (fun i => slice (img.blocks.flatMap id) (8192 * i) 8192), .taken)))))) ∧
  (∀ (s : State) (p : Pull) (f : Nat → Bytes), p.peer = none → p.completed = false → p.chunks ≠ [] →
    (p.chunks.map (·.idx)).Nodup → (∀ o ∈ p.chunks, o.acked = false) → (∀ y ∈ s.fab.pulls, y.seq ≠ p.seq) →
    ∃ q ∈ (serveNow s p f).fab.pulls, q.seq = p.seq ∧ q.completed = true ∧
      q.chunks.map (fun o => (o.idx, o.bytes, o.sends)) = p.chunks.map (fun o => (o.idx, f o.idx, 1)))

/-- STATE_WRITE of TABLE, WEIGHTS, MOMENTUM and WEIGHT_BLOCKS. -/
def Obligations.StateWrites : Prop :=
  ∀ (s : State) (via : Via) (p : Packet) (k : Ctx) (u : State), Accepted s via p k u → p.hdr.opcode = 8 →
    let job := ciidJob p.hdr.ciid
    let j := jobOf u job
    let i := p.hdr.chunkIndex.toNat
    let n := p.hdr.chunkCount.toNat
    (p.hdr.aux = 0 → p.hdr.elemType = 0 → p.hdr.arg1 = 0 → p.hdr.arg0 = 0 → i < n →
      let b := addLoad u job (0, 0, 0) n i p.payload
      let v := dropJobLoad u job (0, 0, 0)
      (b.full = false →
        exec (.stateWriteTable via p) s = .next (settle k (completeNow (setJobLoad u job (0, 0, 0) b) k []))) ∧
      (b.full = true → tableBad v job b.bytes = true →
        exec (.stateWriteTable via p) s = .next (settle k (raise v (.quad 0) 0x2901 0, .refuse 0x2901))) ∧
      (b.full = true → tableBad v job b.bytes = false → j.tab = none → planRuns u job = false →
        ∀ (z : State) (l : List TrayId), reserveAreas v (reqOf v k.org)
          (((tableEntries b.bytes).map parseMatrix).flatMap areasOf) = some (z, l) →
        Answers (.stateWriteTable via p) s (fun t => (jobOf t job).tab = some
          { digest := digestOf b.bytes, strict := bit (byteAt b.bytes 8) 2,
            mats := (tableEntries b.bytes).map parseMatrix, req := reqOf v k.org, trays := l } ∧
          (jobOf t job).epoch = j.epoch ∧ t.mem = u.mem))) ∧
    (∀ m : Matrix, matrixOf u job p.hdr.arg1.toNat = some m → m.home = gw u → planRuns u job = false →
      p.hdr.arg0.toNat = j.epoch →
      (∀ c : Instr, (c = .stateWriteWeights via p ∧ p.hdr.aux = 1 ∨ c = .stateWriteMomentum via p ∧ p.hdr.aux = 2 ∧ m.rule ≠ 1) →
        let t := if p.hdr.aux = 1 then m.wType else 1
        let base := if p.hdr.aux = 1 then homeBank m j.epoch else m.hM
        p.hdr.elemType.toNat = t → n = recChunks t (m.rows * m.cols) → i < n →
        p.payload.length = chunkLen t (m.rows * m.cols) i → Answers c s (fun w =>
          w.mem = memPut u.mem (base + i * recChunk t) p.payload ∧ (jobOf w job).epoch = j.epoch ∧
          (∀ j', j' ≠ job → jobOf w j' = jobOf u j') ∧
          let q := (p.hdr.aux.toNat, m.matrix, j.epoch)
          ((addLoad u job q n i []).full = true → q ∈ (jobOf w job).written) ∧
          ((addLoad u job q n i []).full = false → (mget? (jobLoad w job q).chunks i).isSome = true))) ∧
      (p.hdr.aux = 4 → p.hdr.elemType.toNat = m.delivType → (1, m.matrix, j.epoch) ∈ j.written → i < n →
        (i + 1 = n ∨ p.payload.length = 8192) →
        let q := (4, m.matrix, j.epoch)
        let b := addLoad u job q n i p.payload
        let v := dropJobLoad u job q
        let cut := cutBlocks (b.bytes.length + 1) b.bytes
        (b.full = false →
          exec (.stateWriteWeightBlocks via p) s = .next (settle k (completeNow (setJobLoad u job q b) k []))) ∧
        (b.full = true → exec (.stateWriteWeightBlocks via p) s = .next (settle k (checkImage k v m b.bytes))) ∧
        (b.full = true → ∀ y, cut.1.find? (fun y => !bCheckOk y) = some y → exec (.stateWriteWeightBlocks via p) s =
          .next (settle k (raise v (.quad 0) 0x2A01 (blockInfo y true), .refuse 0x2A01))) ∧
        (b.full = true → (∀ y ∈ cut.1, bCheckOk y = true) → ∀ y, seqBad m.delivType (encSize m.delivType (m.rows * m.cols))
          cut.1 cut.2 = some y → exec (.stateWriteWeightBlocks via p) s =
          .next (settle k (raise v (.quad 0) 0x2A02 (blockInfo y true), .refuse 0x2A02)))))

/-- REPL_RX, SACK_RX, SRESEND_RX, FETCH_RX, WDATA_RX, FETCH_END_RX and STATE_RECORD_TIMER. -/
def Obligations.StateRecords : Prop :=
  (∀ (s : State) (via : RecVia) (r : StRec) (u : State), StateIn s via r u →
    let job := r.hdr.job.toNat
    (r.hdr.kind = 1 → replFits u r = true → ∀ m : Matrix, stMatrix u r = some m →
      let key := (r.hdr.epoch.toNat, m.matrix, r.hdr.qty.toNat, r.hdr.chunkIndex.toNat)
      (stIntact r = false → exec (.replRx via r) s = .next (answerSt u 3 r)) ∧
      (stIntact r = true → (r.hdr.flags.getLsbD 1 = false ∨ r.hdr.flags.getLsbD 0 = true ∨
        (job, m.matrix, r.hdr.qty.toNat) ∉ u.rseq.stSent) →
        (∀ v, mget? (jobOf u job).repl key = some v →
          (v = r.hdr.valueCheck.toNat → exec (.replRx via r) s = .next (answerSt u 2 r)) ∧
          (v ≠ r.hdr.valueCheck.toNat → exec (.replRx via r) s = .next (raise u (recPage via) 0x3903 0))) ∧
        (mget? (jobOf u job).repl key = none →
          (replTarget (gw u) m (jobOf u job) r = none → exec (.replRx via r) s = .next u) ∧
          (∀ a, replTarget (gw u) m (jobOf u job) r = some a → Answers (.replRx via r) s (fun t =>
            t.mem = memPut u.mem a r.payload ∧ mget? (jobOf t job).repl key = some r.hdr.valueCheck.toNat ∧
            (jobOf t job).epoch = (jobOf u job).epoch ∧ ∀ j, j ≠ job → jobOf t j = jobOf u j))))) ∧
    (r.hdr.kind = 2 → (stMatrix u r).isSome = true →
      exec (.sackRx via r) s = .next { u with stTx := u.stTx.filter (fun x => !namesSt r 1 x) }) ∧
    (r.hdr.kind = 3 → (stMatrix u r).isSome = true → (∃ x ∈ u.stTx, namesSt r 1 x = true) → Answers (.sresendRx via r) s (fun t =>
      t.stTx = u.stTx.map (fun x => if namesSt r 1 x && x.sends < 8 then { x with sends := x.sends + 1, sf := u.sf } else x) ∧
      OnlyChanges [.stTx, .egress, .lineTx] u t)) ∧
    (r.hdr.kind = 3 → ∀ m, stMatrix u r = some m → (∀ x ∈ u.stTx, namesSt r 1 x = false) → r.hdr.tag ≠ 0 →
      (fetchRefusal u m r ≠ 0 → exec (.sresendRx via r) s = .next (refuseFetch via r u (fetchRefusal u m r))) ∧
      (fetchRefusal u m r = 0 → exec (.sresendRx via r) s = .next ((List.range r.hdr.chunkCount.toNat).foldl (fun s i =>
        sendWdata s r m job (r.hdr.chunkIndex.toNat + i) (qtyChunks m r.hdr.elemType.toNat) true) u))) ∧
    (r.hdr.kind = 4 →
      (∀ code : Nat, (stMatrix u r = none ∧ code = 0x220E ∨ ∃ m, stMatrix u r = some m ∧ fetchRefusal u m r = code ∧ code ≠ 0) →
        let v := if code = 0x2101 ∨ code = 0x2102 then raise u (recPage via) code 0 else u
        exec (.fetchRx via r) s = .next (sendSt v (mkSt v 6 r.hdr.qty.toNat 0 r.hdr.srcGw.toNat job r.hdr.elemType.toNat
          r.hdr.epoch.toNat r.hdr.matrix.toNat 0 0 code r.hdr.tag.toNat []))) ∧
      (∀ m, stMatrix u r = some m → fetchRefusal u m r = 0 → Answers (.fetchRx via r) s (fun t =>
        t.fab.seq = u.fab.seq + 1 ∧ t.mem = u.mem ∧ t.outer = u.outer))) ∧
    (r.hdr.kind = 5 → ∀ m, stMatrix u r = some m →
      let mine := fun (x : StSend) => x.rcd.hdr.kind == 4 && x.rcd.hdr.tag == r.hdr.tag && x.rcd.hdr.dstGw == r.hdr.srcGw &&
        x.rcd.hdr.matrix == r.hdr.matrix && x.rcd.hdr.qty == r.hdr.qty && x.rcd.hdr.epoch == r.hdr.epoch &&
        x.rcd.hdr.chunkIndex == r.hdr.chunkIndex
      ((∀ x ∈ u.stTx, mine x = false) → exec (.wdataRx via r) s = .next u) ∧
      ((∃ x ∈ u.stTx, mine x = true) → stIntact r = false → exec (.wdataRx via r) s = .next (answerSt u 3 r)) ∧
      ((∃ x ∈ u.stTx, mine x = true) → stIntact r = true → Answers (.wdataRx via r) s (fun t =>
        (∀ x ∈ t.stTx, mine x = false) ∧
        t.mem = (if r.hdr.qty = 2 then memPut u.mem (m.hM + 8192 * r.hdr.chunkIndex.toNat) r.payload else u.mem)))) ∧
    (r.hdr.kind = 6 → (r.hdr.status = 0 → exec (.fetchEndRx via r) s = .next u) ∧
      (r.hdr.status ≠ 0 → blockFailure r.hdr.status.toNat = false → Answers (.fetchEndRx via r) s (fun t => t.mem = u.mem ∧
        ∀ x ∈ t.stTx, ¬(x.rcd.hdr.kind = 4 ∧ x.rcd.hdr.tag = r.hdr.tag ∧ x.rcd.hdr.dstGw = r.hdr.srcGw))))) ∧
  (∀ (s : State) (i : Nat) (x : StSend), s.stTx[i]? = some x →
    let dst := x.rcd.hdr.dstGw.toNat
    let due := if dst / 64 = site s then x.sf + 13 else x.sf + 2 * s.lt.d + 16
    (s.sf < due → exec (.stateRecordTimer i) s = .next s) ∧
    (due ≤ s.sf → x.sends < 8 → Answers (.stateRecordTimer i) s (fun t =>
      t.stTx = s.stTx.set i { x with sends := x.sends + 1, sf := s.sf } ∧ OnlyChanges [.stTx, .egress, .lineTx] s t)) ∧
    (due ≤ s.sf → x.sends = 8 → x.rcd.hdr.kind = 1 →
      exec (.stateRecordTimer i) s = .next (raise { s with stTx := s.stTx.set i { x with sends := 9 } } (pageTo s dst) 0x3903 0)) ∧
    (due ≤ s.sf → x.sends = 8 → x.rcd.hdr.kind = 4 → Answers (.stateRecordTimer i) s (fun t =>
      (pageOf t (pageTo s dst)).classSeen.getLsbD 2 = true ∧
      ∀ y ∈ t.stTx, ¬(y.rcd.hdr.kind = 4 ∧ y.rcd.hdr.tag = x.rcd.hdr.tag))))

/-- HARVEST_RX, COMMIT_RX, READY_RX, PUBLISH_RX, EPOCH_SWITCH and TABLE_MISMATCH_RX. -/
def Obligations.CommitAndPublish : Prop :=
  (∀ (s : State) (via : RecVia) (m : Ctl) (u : State),
    let job := ciidJob m.ciid
    let step := ciidStep m.ciid
    let rep := ciidReplay m.ciid
    let j := jobOf u job
    (m.ctype = 3 → CtlUp s via m u → ∃ v, OnlyChanges [.commits] u v ∧
      (∃ c ∈ v.commits, c.job = job ∧ c.step = step ∧ c.replay = rep ∧ m.srcGw.toNat ∈ c.gws) ∧
      exec (.harvestRx via m) s = .next (tryCommit (recPage via) v job step rep)) ∧
    (m.ctype = 4 → CtlDown s via m u → Answers (.commitRx via m) s (fun t =>
      committed t job step = true ∧ t.mem = u.mem ∧ t.plans.slot0 = u.plans.slot0 ∧ t.plans.slot1 = u.plans.slot1 ∧
      ∀ x y, (x, y) ≠ (job, step) → committed t x y = committed u x y)) ∧
    (m.ctype = 5 → CtlUp s via m u → exec (.readyRx via m) s = .next (tryPublish (recPage via) (setJob u job { j with
      readies := j.readies.filter (fun x => x.gw != m.srcGw.toNat) ++ [⟨m.srcGw.toNat, m.epoch.toNat, m.digest⟩] }) job)) ∧
    (m.ctype = 6 → CtlDown s via m u → m.epoch.toNat ≤ j.epoch ∨ j.pub ≠ none → exec (.publishRx via m) s = .next u) ∧
    (m.ctype = 6 → CtlDown s via m u → j.epoch < m.epoch.toNat → j.pub = none → Answers (.publishRx via m) s (fun t =>
      (∀ st r, j.outer = some (st, r) → committed t job st = true) ∧
      (u.sf ≤ m.sf.toNat → (jobOf t job).pub = some (m.epoch.toNat, m.sf.toNat) ∧ (jobOf t job).epoch = j.epoch) ∧
      (m.sf.toNat < u.sf → (jobOf t job).epoch = m.epoch.toNat ∧ (jobOf t job).prev = true ∧
        (pageOf t (recPage via)).classSeen.getLsbD 1 = true))) ∧
    (m.ctype = 7 → CtlDown s via m u → Answers (.tableMismatchRx via m) s (fun t =>
      (pageOf t (.quad 0)).classSeen.getLsbD 3 = true ∧ t.mem = u.mem ∧ (jobOf t job).epoch = j.epoch))) ∧
  (∀ (pg : PageId) (s : State) (job step rep : Nat), (jobOf s job).outer ≠ some (step, rep) → committed s job step = false →
    allHarvested s job step rep = true → jobQuiet s job = true →
    Msg.ctl (mkCtl s 4 0 (mkCiid job step 0 rep) 0 s.sf 0) ∈ (tryCommit pg s job step rep).rseq.loop) ∧
  (∀ (pg : PageId) (s : State) (job step rep : Nat) (g : BitVec 64), (jobOf s job).outer = some (step, rep) → committed s job step = false →
    allHarvested s job step rep = true → jobQuiet s job = true → earlierCommitted s job step = true → (jobOf s job).pub = none →
    (jobOf s job).epoch + 1 < 0xFFFFFFFF →
    (∀ r ∈ (jobOf s job).readies, r.epoch = (jobOf s job).epoch + 1 → r.digest = g) →
    (∀ a ∈ activeGws s, ∃ r ∈ (jobOf s job).readies, r.gw = a ∧ r.epoch = (jobOf s job).epoch + 1) →
    Msg.ctl (mkCtl s 6 0 (mkCiid job 0 0 0) ((jobOf s job).epoch + 1) (s.sf + s.lt.d + 64) 0) ∈ (tryPublish pg s job).rseq.loop ∧
    (jobOf (tryPublish pg s job) job).readies = []) ∧
  (∀ (s : State) (job : BitVec 16) (e p : Nat), (jobOf s job.toNat).pub = some (e, p) →
    (s.sf < p → exec (.epochSwitch job) s = .next s) ∧
    (p ≤ s.sf → Answers (.epochSwitch job) s (fun t => (jobOf t job.toNat).epoch = e ∧ (jobOf t job.toNat).prev = true ∧
      (jobOf t job.toNat).switchSf = p ∧ (jobOf t job.toNat).pub = none ∧ (jobOf t job.toNat).outer = none ∧
      (jobOf t job.toNat).marks = [] ∧ (jobOf t job.toNat).tab = (jobOf s job.toNat).tab ∧ t.mem = s.mem ∧
      (∀ j, j ≠ job.toNat → jobOf t j = jobOf s j) ∧ OnlyChanges [.outer, .stTx, .egress, .lineTx] s t)))

/-- TABLE_LOAD, TABLE_BUILD_DONE and TDEC_RETIRE. -/
def Obligations.DecodeTables : Prop :=
  (∀ (s : State) (via : Via) (p : Packet) (k : Ctx) (u : State), Accepted s via p k u → p.hdr.opcode = 7 →
    p.hdr.chunkIndex = 0 → p.hdr.chunkCount = 1 → p.payload.length = 4112 → beAt p.payload 0 4 = 0x42544142 →
    byteAt p.payload 4 = 1 → byteAt p.payload 5 = 12 → (slice p.payload 8 8).any (· != 0) = false → p.hdr.arg0 ≠ 0 →
    p.hdr.arg1 ≠ 0 → (∀ t ∈ maskTiles p.hdr.arg1.toNat, quarantined u t.val = false) →
    let m := p.hdr.arg1.toNat
    let gen := p.hdr.arg0.toNat
    (u.tdec.loads = [] → genInUse u m gen = true → exec (.tableLoad via p) s = .next (settle k (u, .refuse 0x2306))) ∧
    (u.tdec.loads = [] → genInUse u m gen = false → freeIn u m = none →
      exec (.tableLoad via p) s = .next (settle k (u, .refuse 0x2305))) ∧
    (∀ i, u.tdec.loads = [] → genInUse u m gen = false → freeIn u m = some i → Answers (.tableLoad via p) s (fun t =>
      (∀ x ∈ maskTiles m, tslot t x i = ⟨.loading, gen, 0, p.payload.drop 16⟩) ∧
      (∀ x j, (x ∉ maskTiles m ∨ j ≠ i) → tslot t x j = tslot u x j) ∧
      (∃ l, t.tdec.loads = [l] ∧ l.slot = i ∧ l.mask = m ∧ l.gen = gen ∧ l.retire = beAt p.payload 6 2) ∧ t.mem = u.mem)) ∧
    (u.tdec.loads ≠ [] → Answers (.tableLoad via p) s (fun t => ∃ l, t.tdec.loads = u.tdec.loads ++ [l] ∧ l.mask = m ∧
      l.gen = gen ∧ l.slot = 8 ∧ t.tdec.slots = u.tdec.slots))) ∧
  (∀ (s : State) (l : TLoad) (rest : List TLoad), s.tdec.loads = l :: rest → l.slot < 8 → Answers .tableBuildDone s (fun t =>
    ∀ x ∈ maskTiles l.mask,
      ((tslot s x l.slot).st = .loading → (tslot t x l.slot).st = .resident ∧
        (tslot t x l.slot).gen = (tslot s x l.slot).gen ∧ (tslot t x l.slot).sym = (tslot s x l.slot).sym) ∧
      (∀ i, i < 8 → i ≠ l.slot → l.retire ≠ 0 → (tslot s x i).gen = l.retire → (tslot s x i).st = .resident →
        (tslot s x i).refs ≠ 0 → (tslot t x i).st = .retiring))) ∧
  (∀ (s : State) (ag : Agent) (t : Fin 64) (i : Fin 8), Writable s ag (.tdec t) →
    ((tslot s t i.val).st = .resident → (tslot s t i.val).refs ≠ 0 → Answers (.tdecRetire ag t i) s (fun u =>
      tslot u t i.val = { tslot s t i.val with st := .retiring } ∧ OnlyChanges [.tdec, .pages] s u)) ∧
    ((tslot s t i.val).st = .resident → (tslot s t i.val).refs = 0 → Answers (.tdecRetire ag t i) s (fun u =>
      tslot u t i.val = TSlot.reset ∧ (pageOf u (.tdec t)).classSeen.getLsbD 0 = true)) ∧
    ((tslot s t i.val).st ≠ .resident → Answers (.tdecRetire ag t i) s (fun u => OnlyPage (.tdec t) s u)))

/-- BLOCK_DECODE_END and the expansion of a block. -/
def Obligations.BlocksExpand : Prop :=
  (∀ b sym : Bytes, (expandBlock b sym).1.length = bOut b ∧
    (bCheckOk b = false → expandBlock b sym = (List.replicate (bOut b) 0, 0x2A01)) ∧
    (bCheckOk b = true → bFieldsOk b = false → expandBlock b sym = (List.replicate (bOut b) 0, 0x2A02)) ∧
    (bCheckOk b = true → bFieldsOk b = true → bMode b = 2 →
      (bPlen b = bOut b → expandBlock b sym = (b.drop 32, 0)) ∧
      (bPlen b < bOut b → (expandBlock b sym).2 = 0x2304) ∧ (bOut b < bPlen b → (expandBlock b sym).2 = 0x2303))) ∧
  (∀ (s : State) (t : Fin 64) (b : DBlock) (rest : List DBlock), tqueue s t = b :: rest →
    let r := expandBlock b.bytes (match b.slot with | some i => (tslot s t i).sym | none => [])
    ∃ v, tqueue v t = rest ∧ OnlyChanges [.tdec, .plans, .ctr, .pages, .out, .elog, .msix, .clk] s v ∧
      (∀ i, b.slot = some i → 1 < (tslot s t i).refs → tslot v t i = { tslot s t i with refs := (tslot s t i).refs - 1 }) ∧
      mget v.ctr (.tdec t, 0) 0 = ctrAdd (mget s.ctr (.tdec t, 0) 0) 1 ∧
      (r.2 ≠ 0 → (pageOf v (.tdec t)).classSeen.getLsbD 2 = true) ∧
      exec (.blockDecodeEnd t) s = .next (driveAll (match b.what with
        | .pull seq => pullBlockDone v seq b.index r.1 r.2
        | .check id => checkBlockDone v id b.index r.1 r.2))) ∧
  (∀ (s : State) (t : Fin 64), tqueue s t = [] → exec (.blockDecodeEnd t) s = .next s)

/-- SUPERFRAME_BOUNDARY, SF_HEADER_RX, FEC_SLOT_DECODE, LINK_LOST, LINK_CFG_WRITE and LINK_RESET. -/
def Obligations.LanesAndLinks : Prop :=
  (∀ (s : State) (e : Env), (s.boot.reg = false → exec (.superframeBoundary e) s = .next s) ∧
    (s.boot.reg = true → let v := thermTick (sample { s with sf := (s.sf + 1) % 2 ^ 64 } e)
      (∀ i, tripped v = some i → exec (.superframeBoundary e) s = .next (trip v i)) ∧
      (tripped v = none → Answers (.superframeBoundary e) s (fun t =>
        (∀ pg, sfPage pg = true → (pageOf t pg).pend = []) ∧
        (∀ pg, sfPage pg = true → (∀ g, pg ≠ .line g ∧ pg ≠ .leng g) → pg ≠ .rseq →
          ∀ o b, regActive (pageOf t pg) pg o b = regAccepted (pageOf s pg) pg o b) ∧
        (s.lt.st = .free → offers v = [] → t.sf = (s.sf + 1) % 2 ^ 64 ∧ t.lt.st = .free))))) ∧
  (∀ (s : State) (g : Fin 4) (k : Fin 18) (hdr : Bytes) (rx cd : Int) (skew : Nat) (l : LinkId),
    let x := lslot s g k
    let h := parseSf hdr
    let y := endFec { x with seen := true }
    let bad := if y.lastFails ≥ fldV s (.fec g) 0x44 8 0 then x.bad + 1 else 0
    let c := Instr.sfHeaderRx g k hdr rx cd skew
    (x.rx = .off ∨ pairOf s g k = none → exec c s = .next s) ∧
    (HeaderIn s g k hdr l → h.time.domain = ltDomain s → Answers c s (fun t =>
      let z := lslot t g k
      OnlyChanges (.line :: raisedParts) s t ∧ (∀ a b, (a, b) ≠ (g, k) → lslot t a b = lslot s a b) ∧
      (∀ l', l' ≠ l → llink t l' = llink s l') ∧ z.missing = 0 ∧ z.skew = skew ∧
      (∃ e, z.last = some e ∧ e.sf = h.sf ∧ e.atSf = s.sf ∧ e.rx = rx ∧ e.cd = cd ∧ e.echoSf = h.echoSf ∧
        e.echoRx = h.echoRx ∧ e.time = h.time) ∧
      (llink t l).validSf = s.sf ∧ (llink t l).lost = false ∧
      (h.src ≠ linkPeer s l → z.rx = .hunt ∧ (x.rx = .ready → z.rxWhy = 6)) ∧
      (h.src = linkPeer s l → 2048 < skew → z.rx = .hunt ∧ (x.rx = .ready → z.rxWhy = 5)) ∧
      (h.src = linkPeer s l → skew ≤ 2048 →
        (x.rx = .hunt → z.rx = if cleanSf s g y = true ∧ 63 ≤ x.clean ∧ cd.natAbs ≤ 100000 then
          (if h.cmd = 1 ∧ h.cmdSf = h.sf then .up else .ready) else .hunt) ∧
        (x.rx = .ready → z.rx = if h.cmd = 1 ∧ h.cmdSf = h.sf then .up else .ready) ∧
        (x.rx = .up → z.rx = if fldV s (.fec g) 0x44 15 12 ≤ bad then .hunt else .up) ∧
        (x.tx = .up → h.rxs = 1 → z.tx = .train ∧ z.txWhy = 4 ∧ (pageOf t (.line g)).classSeen.getLsbD 1 = true) ∧
        (x.tx = .up → h.rxs ≠ 1 → z.tx = .up) ∧
        (x.tx = .train → z.tx = .train ∧ (txOptics s g k = true → h.rxs = 2 → x.upAt = none → laneFree s g = true →
          z.upAt = some (s.sf + 9)))))) ∧
    (x.rx ≠ .off → (pairOf s g k).isSome = true → slotOwner s g k = some l → sfCheckOk hdr = false → Answers c s (fun t =>
      (lslot t g k).missing = x.missing + 1 ∧ (llink t l) = llink s l ∧ (lslot t g k).tx = x.tx ∧
      (x.missing < 3 → (lslot t g k).rx = x.rx) ∧
      (3 ≤ x.missing → (lslot t g k).rx = .hunt ∧ (x.rx ≠ .hunt → (lslot t g k).rxWhy = 1))))) ∧
  (∀ (s : State) (g : Fin 4) (k : Fin 18) (sf : Nat) (slot : Fin 64) (xI xQ yI yQ : List Int),
    let x := lslot s g k
    let d := decodeSlot (fldV s (.fec g) 0x40 3 0) (softBits xI xQ yI yQ)
    let c := Instr.fecSlotDecode g k (sf, slot) xI xQ yI yQ
    (x.rx = .off ∨ pairOf s g k = none → exec c s = .next s) ∧
    (x.rx ≠ .off → (pairOf s g k).isSome = true → Answers c s (fun t => OnlyChanges [.line, .ctr] s t ∧
      (∀ a b, (a, b) ≠ (g, k) → lslot t a b = lslot s a b) ∧ (∀ l, llink t l = llink s l) ∧
      (lslot t g k).fails = x.fails + d.fails ∧ (lslot t g k).flips = x.flips + d.flips ∧
      (lslot t g k).itmax = max x.itmax d.iters ∧ (0 < d.fails → (lslot t g k).failed.contains (sf, slot.val) = true) ∧
      ((lslot t g k).hunting = true ↔ x.hunting = true ∨ 0 < d.fails) ∧ (lslot t g k).rx = x.rx ∧ (lslot t g k).tx = x.tx ∧
      mget t.ctr (.fec g, 0) 0 = ctrAdd (mget s.ctr (.fec g, 0) 0) d.flips ∧
      mget t.ctr (.fec g, 1) 0 = ctrAdd (mget s.ctr (.fec g, 1) 0) d.fixed ∧
      mget t.ctr (.fec g, 2) 0 = ctrAdd (mget s.ctr (.fec g, 2) 0) d.fails))) ∧
  (∀ (s : State) (g i : Fin 4), let l : LinkId := (g, i)
    ((llink s l).en = true → (llink s l).lost = false → (llink s l).validSf + 2 * dLink s l + 64 ≤ s.sf →
      exec (.linkLost g i) s = .next (raise (setLLink s l { llink s l with lost := true }) (.line g) 0x3B01 0)) ∧
    ((llink s l).en = false ∨ (llink s l).lost = true ∨ s.sf < (llink s l).validSf + 2 * dLink s l + 64 →
      exec (.linkLost g i) s = .next s)) ∧
  (∀ (s : State) (ag : Agent) (g i : Fin 4) (v : Word), Writable s ag (.line g) →
    (let b := fld (regAccepted (pageOf s (.line g)) (.line g) 0x50 0).toNat 1 0;
      (∀ m, m < 4 → m ≠ b → fld v.toNat 28 11 &&& fld (regAccepted (pageOf s (.line g)) (.line g) 0x54 m).toNat 28 11 = 0) →
      (v.getLsbD 31 = true → (gwNum s).isSome = true) →
      (fld v.toNat 10 0 = fld (regAccepted (pageOf s (.line g)) (.line g) 0x54 b).toNat 10 0 ∧
        fld v.toNat 28 11 = fld (regAccepted (pageOf s (.line g)) (.line g) 0x54 b).toNat 28 11 ∨
        (blkState s (.line g) ≠ 2 ∧ blkState s (.line g) ≠ 3)) →
      Answers (.linkCfgWrite ag g v) s (fun t => OnlyPage (.line g) s t ∧
        fldB t (.line g) 0x54 b 10 0 = fld v.toNat 10 0 ∧ fldB t (.line g) 0x54 b 28 11 = fld v.toNat 28 11 ∧
        fldB t (.line g) 0x54 b 31 31 = fld v.toNat 31 31)) ∧
    (linkState s (g, i) = 0 ∨ linkState s (g, i) = 3 → Answers (.linkReset ag g i) s (fun t =>
      (llink t (g, i)).ret = [] ∧ (llink t (g, i)).rx = [] ∧ (∀ vc, vcLine (llink t (g, i)) vc = VcLine.reset vc) ∧
      (∀ u ∈ t.line.inbox, u.link ≠ (g, i)) ∧ (∀ l, l ≠ (g, i) → llink t l = llink s l) ∧
      OnlyChanges [.line, .pages] s t)) ∧
    (linkState s (g, i) = 1 ∨ linkState s (g, i) = 2 → Answers (.linkReset ag g i) s (fun t => t.line = s.line ∧
      (pageOf t (.line g)).cfgRefused = true)))

/-- DATA_FRAME_RX, TAG_FINALISE, ACK_FRAME_RX, FRAME_LAUNCH, ACK_IDLE_TIMER, ARQ_RTO_EXPIRY and FILL_FRAME_RX. -/
def Obligations.FramesAndArq : Prop :=
  (∀ (s : State) (g : Fin 4) (k : Fin 18) (bytes : Bytes) (span : List (Nat × Fin 64)) (l : LinkId),
    let h := parseFr bytes
    let held := mget s.ciph.hold g []
    let d := delineate s g k bytes
    let one := dropFrame d g
    let c := Instr.fillFrameRx ⟨g, k, span⟩ bytes
    (lslot d g k = if (lslot s g k).rx = .off ∨ pairOf s g k = none then lslot s g k
      else { lslot s g k with hunting := !frCheckOk bytes }) ∧ OnlyChanges [.line] s d ∧
    (frCheckOk bytes = false → exec c s = .next d) ∧
    (h.kind = 0 → frCheckOk bytes = true → slotOwner s g k = some l → (lslot s g k).rx ≠ .off → (pairOf s g k).isSome = true →
      (spanFailed s g k span = true → exec c s = .next one) ∧
      (spanFailed s g k span = false →
        (frFieldsOk bytes = false → exec c s = .next (raise one (.line g) 0x2B01 0)) ∧
        (frFieldsOk bytes = true → h.src ≠ linkPeer s l ∨ h.dst ≠ gw s → exec c s = .next (raise one (.line g) 0x2B02 0)) ∧
        (frFieldsOk bytes = true → h.src = linkPeer s l → h.dst = gw s → exec c s = .next d))) ∧
    (FrameIn s g k bytes span l → h.kind = 1 →
      (holdBytes s g + h.len ≤ 8388608 → s.ciph.early.contains g = false → exec (.dataFrameRx g k bytes span) s =
        .next (noteHold (setHold d g (held ++ [⟨l, k, bytes.take 32, slice bytes 32 h.len, bytes.drop (32 + h.len), false⟩])) g)) ∧
      (8388608 < holdBytes s g + h.len → fldV s (.ciph g 1) 0x68 0 0 = 0 →
        exec (.dataFrameRx g k bytes span) s = .next (raise d (.ciph g 1) 0x2C06 0))) ∧
    (h.kind = 1 → slotOwner s g k = some l → (lslot s g k).rx ≠ .off → (pairOf s g k).isSome = true →
      (frCheckOk bytes = false → exec (.dataFrameRx g k bytes span) s = .next d) ∧
      (frCheckOk bytes = true → spanFailed s g k span = true → exec (.dataFrameRx g k bytes span) s = .next one) ∧
      (frCheckOk bytes = true → spanFailed s g k span = false →
        (frFieldsOk bytes = false → exec (.dataFrameRx g k bytes span) s = .next (raise one (.line g) 0x2B01 0)) ∧
        (frFieldsOk bytes = true → bytes.length = h.len + 48 → h.src ≠ linkPeer s l ∨ h.dst ≠ gw s →
          exec (.dataFrameRx g k bytes span) s = .next (raise one (.line g) 0x2B02 0)))) ∧
    (FrameIn s g k bytes span l → h.kind = 2 → holdBytes s g + h.len ≤ 8388608 →
      let v := count d (.ciph g 1) 0 (aesBlocks h.len)
      (openFrame v l (bytes.take 32) (slice bytes 32 h.len) (bytes.drop (32 + h.len)) = none →
        exec (.ackFrameRx g k bytes span) s = .next (raise (count (count v (.ciph g 1) 1 1) (.line g) 3 1) (.ciph g 1) 0x2C01 0)) ∧
      (∀ body es, openFrame v l (bytes.take 32) (slice bytes 32 h.len) (bytes.drop (32 + h.len)) = some body →
        parseAck body = some es → exec (.ackFrameRx g k bytes span) s = .next (es.foldl (takeEnt l) (noteVerified v l k h))))) ∧
  (∀ (s : State) (l : LinkId) (e : AckEnt),
    let x := llink s l
    let y := llink (takeEnt l s e) l
    let mine := fun (f : RetFrame) => f.vc == e.vc && reports e f.seq
    y.ret.map (fun f => (f.vc, f.seq, f.body, f.sf, f.retx)) =
      (x.ret.filter (fun f => !mine f)).map (fun f => (f.vc, f.seq, f.body, f.sf, f.retx)) ∧
    (∀ vc, vc ≠ e.vc → vcLine y vc = vcLine x vc) ∧ (∀ l', l' ≠ l → llink (takeEnt l s e) l' = llink s l') ∧
    ((BitVec.ofNat 32 e.cum - (vcLine x e.vc).acked).toNat < 2 ^ 31 →
      (vcLine y e.vc).acked = BitVec.ofNat 32 e.cum ∧ (vcLine y e.vc).grant = e.grant) ∧
    ((BitVec.ofNat 32 e.ret - (vcLine x e.vc).returned).toNat < 2 ^ 31 → (vcLine y e.vc).returned = BitVec.ofNat 32 e.ret) ∧
    (∀ f ∈ y.ret, f.vc = e.vc → f.sf + fldV s (.line l.1) 0x70 3 0 ≤ (vcLine y e.vc).topSf → f.queued = true ∨ y.lost = true)) ∧
  (∀ (s : State) (g : Fin 4) (i : Nat) (f : HeldFrame), (mget s.ciph.hold g [])[i]? = some f → f.early = false → f.link.1 = g →
    let h := parseFr f.hdr
    let seq := BitVec.ofNat 32 h.seq
    let x := llink s f.link
    let c := Instr.tagFinalise g i
    (∀ t, exec c s = .next t → mget t.ciph.hold g [] = (mget s.ciph.hold g []).eraseIdx i) ∧
    (openFrame s f.link f.hdr f.cipher f.tag = none → Answers c s (fun t => t.line = s.line ∧
      (pageOf t (.ciph g 1)).classSeen.getLsbD 2 = true)) ∧
    (∀ body, openFrame s f.link f.hdr f.cipher f.tag = some body →
      (seqCheck s f.link h.vc seq = 7 → Answers c s (fun t => t.line.inbox = s.line.inbox ∧ (llink t f.link).vcs = x.vcs ∧
        (llink t f.link).gotData = true)) ∧
      (seqCheck s f.link h.vc seq = 6 → Answers c s (fun t => t.line = s.line)) ∧
      (seqCheck s f.link h.vc seq = 0 → stageCheck s f.link h.vc (frameCost body) (32 + body.length) = 0 →
        Answers c s (fun t =>
          let v := vcLine x h.vc
          let a := advance v.cum (seq :: v.above) (v.above.length + 1)
          (vcLine (llink t f.link) h.vc).cum = a.1 ∧ (vcLine (llink t f.link) h.vc).above = a.2 ∧
          (vcLine (llink t f.link) h.vc).recv = v.recv + BitVec.ofNat 32 (frameCost body) ∧ (llink t f.link).gotData = true ∧
          (h.vc ≠ 0 → h.vc ≠ 6 → h.keyId ≠ 0 →
            t.line.inbox = s.line.inbox ++ (unitsOf h.vc body).1.map (fun u => ⟨f.link, h.vc, seq, false, u⟩)))))) ∧
  (∀ (s : State) (g i : Fin 4), let l : LinkId := (g, i)
    (pickLane s l = none → exec (.frameLaunch g i) s = .next s) ∧
    (∀ k, pickLane s l = some k → s.ciph.erasing = none → paceOk s g = true → (llink s l).lost = false → (llink s l).en = true →
      linkKeyed s l = true →
      (∀ vc body rest, pickVc s l = some vc → vc ≠ 5 → nextBody s l vc = some (body, rest) → retRoom s g body = true →
        Answers (.frameLaunch g i) s (fun t =>
          let v := realVc vc
          let c := vcLine (llink s l) v
          (∃ f ∈ (llink t l).ret, f.vc = v ∧ f.seq = c.nextSeq ∧ f.body = body ∧ f.sf = s.sf ∧ f.retx = 0) ∧
          (vcLine (llink t l) v).nextSeq = c.nextSeq + 1 ∧
          (vcLine (llink t l) v).sent = c.sent + BitVec.ofNat 32 (frameCost body) ∧ mget t.lineTx (l, vc) [] = rest ∧
          Emission.frame (g, k) (sealFrame (txKey s l) ⟨1, v, false, k.val, gw s, linkPeer s l, c.nextSeq.toNat, body.length,
            (txKey s l).id, mget (lciph s l).ctr k.val 0 + 1⟩ body) ∈ t.out)) ∧
      (∀ f, pickVc s l = some 5 → (llink s l).ret.find? (·.queued) = some f → 64 ≤ f.body.length → f.body.length ≤ 16384 →
        Answers (.frameLaunch g i) s (fun t =>
          (llink t l).ret = (llink s l).ret.map (fun y => if y.vc = f.vc ∧ y.seq = f.seq then
            { y with sf := s.sf, retx := y.retx + 1, queued := false } else y) ∧
          Emission.frame (g, k) (sealFrame (txKey s l) ⟨1, f.vc, true, k.val, gw s, linkPeer s l, f.seq.toNat, f.body.length,
            (txKey s l).id, mget (lciph s l).ctr k.val 0 + 1⟩ f.body) ∈ t.out))) ∧
    (∀ k, linkUp s l = true → (llink s l).ackSf + fldV s (.line g) 0x70 31 24 ≤ s.sf → pickLane s l = some k →
      s.ciph.erasing = none → Answers (.ackIdleTimer g i) s (fun t => (llink t l).ackSf = s.sf ∧ (llink t l).gotData = false ∧
        let body := ackBody s.sf (limitRanges 64 (seqVcs.map (ackEnt s l)))
        Emission.frame (g, k) (sealFrame (txKey s l) ⟨2, 0, false, k.val, gw s, linkPeer s l, 0, body.length, (txKey s l).id,
          mget (lciph s l).ctr k.val 0 + 1⟩ body) ∈ t.out)) ∧
    (s.sf < (llink s l).ackSf + fldV s (.line g) 0x70 31 24 → exec (.ackIdleTimer g i) s = .next s) ∧
    (∀ (vc : Nat) (seq : BitVec 32) (f : RetFrame), (llink s l).ret.find? (fun f => f.vc == vc && f.seq == seq) = some f →
      f.queued = false →
      let due := f.sf + 2 * dLink s l + fldV s (.line g) 0x70 11 4
      (s.sf < due → exec (.arqRtoExpiry g i vc seq) s = .next s) ∧
      (due ≤ s.sf → f.retx < fldV s (.line g) 0x70 16 12 → exec (.arqRtoExpiry g i vc seq) s =
        .next (setLLink s l { llink s l with ret := (llink s l).ret.map (fun y =>
          if y.vc = f.vc ∧ y.seq = f.seq then { y with queued := true } else y) })) ∧
      (due ≤ s.sf → fldV s (.line g) 0x70 16 12 ≤ f.retx → (llink s l).lost = false → exec (.arqRtoExpiry g i vc seq) s =
        .next (raise (setLLink s l { llink s l with lost := true }) (.line g) 0x3B01 0))))

/-- HELLO_RX, ACCEPT_RX, CONFIRM_RX, DONE_RX, ABORT_RX, HANDSHAKE_SIGN_DONE, HANDSHAKE_VERIFY_DONE, HANDSHAKE_TIMEOUT and
HANDSHAKE_RETRY. -/
def Obligations.Handshake : Prop :=
  (∀ (s : State) (g i : Fin 4) (b : Bytes) (u : State) (m : Bytes),
    let l : LinkId := (g, i)
    let c := lciph u l
    let ses := beAt b 2 2
    (KeyIn s l 0x40 b u m →
      (∀ h, c.hs = some h → h.init = true → gw u < linkPeer u l → exec (.helloRx g i b) s = .next u) ∧
      ((∀ h, c.hs = some h → h.init = true → linkPeer u l ≤ gw u) →
        (helloOk m = false → exec (.helloRx g i b) s = .next (abortHs u l ses 8)) ∧
        (helloOk m = true → Answers (.helloRx g i b) s (fun t => ∃ h, (lciph t l).hs = some h ∧ h.st = .verifyHello ∧
          h.init = false ∧ h.session = ses ∧ h.keyId = byteAt m 4 ∧ h.hello = m ∧ (lciph t l).tx = c.tx ∧
          (lciph t l).rx = c.rx ∧ (∀ l', l' ≠ l → lciph t l' = lciph u l') ∧ OnlyChanges [.ciph] u t)))) ∧
    (∀ h, c.hs = some h → h.session = ses →
      (KeyIn s l 0x41 b u m → h.st = .sentHello → exec (.acceptRx g i b) s = .next
        (if msgForm m 1632 then setHs u l { h with st := .verifyAccept, accept := m } else abortHs u l ses 8)) ∧
      (KeyIn s l 0x42 b u m → h.st = .sentAccept →
        (m.length ≠ 40 → exec (.confirmRx g i b) s = .next (abortHs u l ses 8)) ∧
        (m.length = 40 → m.drop 8 ≠ confTag h true (beAt m 0 8) → exec (.confirmRx g i b) s = .next (abortHs u l ses 5)) ∧
        (m.length = 40 → m.drop 8 = confTag h true (beAt m 0 8) → Answers (.confirmRx g i b) s (fun t =>
          t.lineTx = (sendKey u l 0x43 ses (confTag h false (beAt m 0 8))).lineTx ∧ (lciph t l).hs = none ∧
          (lciph t l).result = 1 ∧ (lciph t l).tx = c.tx ∧ (lciph t l).pendSw =
            some (if u.sf < beAt m 0 8 then beAt m 0 8 else u.sf + 1, sendKeyOf h u.sf, recvKeyOf h u.sf)))) ∧
      (KeyIn s l 0x43 b u m → h.st = .sentConfirm →
        (m.length = 32 → m = confTag h false (h.sw.getD 0) → exec (.doneRx g i b) s = .next (setLCiph u l (succeed c))) ∧
        (m ≠ confTag h false (h.sw.getD 0) → Answers (.doneRx g i b) s (fun t => (lciph t l).tx = c.tx ∧
          (lciph t l).rx = c.rx ∧ (lciph t l).rxOther = c.rxOther ∧ (lciph t l).pendSw = c.pendSw ∧ (lciph t l).result = 2 ∧
          (m.length = 32 → (lciph t l).reason = 5)))) ∧
      (KeyIn s l 0x44 b u m → m.length = 2 → exec (.abortRx g i b) s = .next
        (setLCiph (raise u (.ciph g 0) 0x2C08 0) l { dropSession c u.sf with result := 3, reason := beAt m 0 2 })))) ∧
  (∀ (s : State) (g i : Fin 4) (h : Hs), let l : LinkId := (g, i)
    (lciph s l).hs = some h →
    (h.st = .signHello → s.boot.chain.length < 2 ^ 32 → Answers (.handshakeSignDone g i) s (fun t => ∃ m d,
      (lciph t l).hs = some { h with st := .sentHello, hello := m, dk := d, lastSf := s.sf } ∧ helloOk m = true ∧
      beAt m 0 2 = gw s % 65536 ∧ beAt m 2 2 = linkPeer s l ∧ byteAt m 4 = h.keyId % 256 ∧
      t.lineTx = (sendKey s l 0x40 h.session m).lineTx ∧ OnlyChanges [.ciph, .lineTx] s t)) ∧
    (h.st = .signAccept → exec (.handshakeSignDone g i) s = .next (sendKey (setHs s l
      { h with st := .sentAccept, accept := signMsg s h.accept, lastSf := s.sf }) l 0x41 h.session (signMsg s h.accept))) ∧
    (h.st = .verifyHello →
      (helloReason s l h.hello ≠ 0 →
        exec (.handshakeVerifyDone g i) s = .next (abortHs s l h.session (helloReason s l h.hello))) ∧
      (helloReason s l h.hello = 0 → Answers (.handshakeVerifyDone g i) s (fun t =>
        let r := (drawBytes s 64).2
        let e := Config.kemEncaps (r.drop 32) (slice h.hello 40 1568)
        ∃ k, (lciph t l).hs = some k ∧ k.st = .signAccept ∧ k.keyId = h.keyId ∧
          k.derived = deriveKeys (slice h.hello 8 32) (r.take 32) (sized 32 e.2) (linkPeer s l) (gw s) h.keyId ∧
          k.accept = sha256 h.hello ++ r.take 32 ++ sized 1568 e.1 ∧ (lciph t l).rxOther = some (recvKeyOf k s.sf) ∧
          (lciph t l).tx = (lciph s l).tx ∧ (lciph t l).rx = (lciph s l).rx ∧ OnlyChanges [.ciph] s t))) ∧
    (h.st = .verifyAccept →
      (acceptReason s l h h.accept ≠ 0 →
        exec (.handshakeVerifyDone g i) s = .next (abortHs s l h.session (acceptReason s l h h.accept))) ∧
      (acceptReason s l h h.accept = 0 → Answers (.handshakeVerifyDone g i) s (fun t =>
        let sw := s.sf + dLink s l + 16
        ∃ k, (lciph t l).hs = some k ∧ k.st = .sentConfirm ∧ k.sw = some sw ∧ k.dk = [] ∧
          k.derived = deriveKeys (slice h.hello 8 32) (slice h.accept 32 32)
            (sized 32 (Config.kemDecaps h.dk (slice h.accept 64 1568))) (gw s) (linkPeer s l) h.keyId ∧
          (lciph t l).rxOther = some (recvKeyOf k s.sf) ∧ (lciph t l).pendSw = some (sw, sendKeyOf k s.sf, recvKeyOf k s.sf) ∧
          (lciph t l).tx = (lciph s l).tx ∧
          t.lineTx = (sendKey s l 0x42 h.session (beBytes 8 sw ++ confTag k true sw)).lineTx))) ∧
    (h.st = .sentHello ∨ h.st = .sentAccept ∨ h.st = .sentConfirm → exec (.handshakeTimeout g i) s =
      .next (if h.lastSf + 4096 ≤ s.sf then abortHs s l h.session 6 else s))) ∧
  (∀ (s : State) (g i : Fin 4) (n : Nat), (lciph s (g, i)).retrySf = some n → exec (.handshakeRetry g i) s =
    .next (if n ≤ s.sf then startHs s (g, i) else s)) ∧
  (∀ (u : State) (l : LinkId) (ses why : Nat), let t := abortHs u l ses why
    (lciph t l).hs = none ∧ (lciph t l).pendSw = none ∧ (lciph t l).tx = (lciph u l).tx ∧ (lciph t l).rx = (lciph u l).rx ∧
    (lciph t l).result = 2 ∧ (lciph t l).reason = why ∧ t.lineTx = (sendKey u l 0x44 ses (beBytes 2 why)).lineTx ∧
    (pageOf t (.ciph l.1 0)).classSeen.getLsbD 2 = true ∧
    (∀ h, (lciph u l).hs = some h → h.init = true → (lciph t l).retrySf = some (u.sf + 1024))) ∧
  (∀ (u : State) (l : LinkId), (lciph u l).hs = none → (lciph u l).pendSw = none → u.ciph.erasing = none →
    (llink u l).en = true → u.boot.idState = 1 → ∃ h, (lciph (startHs u l) l).hs = some h ∧ h.st = .signHello ∧ h.init = true ∧
      h.keyId = nextKeyId (curKeyId u l) ∧ OnlyChanges [.ciph] u (startHs u l))

/-- KEY_SWITCH, KEY_DRAIN_END, KEY_AGE_EXPIRY, LINE_ALARM, ALARM_ERASE_END and CIPHER_CLUSTER_OUT. -/
def Obligations.KeysAndAlarms : Prop :=
  (∀ (s : State) (g i : Fin 4), let l : LinkId := (g, i)
    let c := lciph s l
    (∀ w tx rx, c.pendSw = some (w, tx, rx) →
      (s.sf < w → exec (.keySwitch g i) s = .next s) ∧
      (w ≤ s.sf → Answers (.keySwitch g i) s (fun t => let d := lciph t l
        d.tx = some { tx with since := s.sf } ∧ d.ctr = [] ∧ d.exhausted = [] ∧ d.due = false ∧
        d.rx = some { rx with since := s.sf } ∧ d.rxOther = c.rx ∧ d.pendSw = none ∧ d.hs = c.hs ∧ d.last = c.last ∧
        d.drain = (if c.rx.isSome then some (w + 2 * dLink s l + 16) else none) ∧
        (∀ l', l' ≠ l → lciph t l' = lciph s l') ∧ (pageOf t (.ciph g 0)).classSeen.getLsbD 0 = true ∧
        OnlyChanges (.ciph :: raisedParts) s t))) ∧
    (∀ n, c.drain = some n →
      (n ≤ s.sf → (∀ k ∈ rxUp s l, k.val ∈ c.verified) → Answers (.keyDrainEnd g i) s (fun t =>
        (lciph t l).rxOther = none ∧ (lciph t l).drain = none ∧ (lciph t l).rx = c.rx ∧ (lciph t l).tx = c.tx ∧
        OnlyChanges [.ciph] s t)) ∧
      (s.sf < n ∨ (∃ k ∈ rxUp s l, k.val ∉ c.verified) → exec (.keyDrainEnd g i) s = .next s)) ∧
    (∀ k, c.tx = some k → c.retrySf = none → exec (.keyAgeExpiry g i) s =
      .next (if k.since + 2 ^ fldV s (.ciph g 0) 0x60 13 8 ≤ s.sf then startHs s l else s))) ∧
  (∀ (s : State) (src q : Fin 4) (dir : Fin 2) (engine : Fin 768), Answers (.lineAlarm src q dir engine) s (fun t =>
    (∀ l, (lciph t l).tx = none ∧ (lciph t l).rx = none ∧ (lciph t l).rxOther = none ∧ (lciph t l).hs = none ∧
      (lciph t l).pendSw = none ∧ (lciph t l).ctr = [] ∧ (lciph t l).frags = [] ∧ (llink t l).ret = (llink s l).ret ∧
      (llink t l).vcs = (llink s l).vcs) ∧
    (∀ g, mget t.ciph.hold g [] = []) ∧ t.ciph.src.getLsbD src.val = true ∧ t.ciph.active.getLsbD src.val = true ∧
    t.ciph.erased = true ∧ t.ciph.erasing = some s.sf ∧ (pageOf t (.ciph 0 0)).classSeen.getLsbD 3 = true ∧
    t.i3c.alarmSeen = true ∧
    ((s.msix.word 92).getLsbD 0 = false →
      Emission.msix 5 ((s.msix.word 80).toNat + (s.msix.word 84).toNat * 2 ^ 32) (s.msix.word 88) ∈ t.out) ∧
    ((s.msix.word 92).getLsbD 0 = true → t.msix.pend.getLsbD 5 = true))) ∧
  (∀ (s : State) (n : Nat), s.ciph.erasing = some n →
    (s.ciph.active ≠ 0 ∨ s.sf < n + 1024 → exec .alarmEraseEnd s = .next s) ∧
    (s.ciph.active = 0 → n + 1024 ≤ s.sf → Answers .alarmEraseEnd s (fun t => t.ciph.erasing = none ∧ t.ciph.src = 0 ∧
      (∀ l, (lciph t l).tx = (lciph s l).tx ∧ (lciph t l).rx = (lciph s l).rx) ∧
      (s.boot.idState = 1 → ∀ l, (llink s l).en = true → (lciph s l).hs = none → (lciph s l).pendSw = none →
        ∃ h, (lciph t l).hs = some h ∧ h.st = .signHello ∧ h.init = true ∧ h.keyId = nextKeyId (curKeyId s l))))) ∧
  (∀ (s : State) (g : Fin 4) (d : Fin 2) (n : Fin 49),
    let v := { s with ciph := { s.ciph with out := mset s.ciph.out (g, d) (min 48 (clustersOut s g d + n.val)) } }
    clustersOut v g d = min 48 (clustersOut s g d + n.val) ∧
    exec (.cipherClusterOut g d n) s =
      .next (if paced v g d = true ∧ paced s g d = false then raise v (.ciph g d) 0x1C01 0 else v))

/-- CART_INSERT, CART_CONTROLLER_ANSWER, CART_AUTH_RESPONSE, CART_AUTH_TIMEOUT, CART_LOST, CART_RELEASE, CART_RELEASE_DONE,
CART_COMMISSION, LASER_FAULT_REPORT, CART_FEED_OVERCURRENT, FABRIC_SPARE_SWAP and FABRIC_PORT_LINK_CHANGE. -/
def Obligations.CartridgesAndLasers : Prop :=
  ∀ (s : State) (i : Fin 2),
    let c := bay s i
    (c.st = .empty → s.mode = some .test ∨ s.mode = some .recovery ∨ s.mode = some .service → exec (.cartInsert i) s =
      .next (setBay s i { Cart.empty with st := .powering, present := true, sinceSf := s.sf })) ∧
    (∀ (serial : BitVec 64) (n : Nat), c.st = .powering → Answers (.cartControllerAnswer i serial n) s (fun t =>
      bay t i = { c with st := .auth, serial := serial, lasers := min n 127, nonce := (drawBytes s 32).2, sinceSf := s.sf } ∧
      OnlyChanges [.light, .ciph] s t)) ∧
    (∀ chain sig : Bytes, c.st = .auth →
      let ok := Config.cartChainValid chain &&
        Config.slhVerify (Config.leafKey chain) (c.nonce ++ beBytes 8 c.serial.toNat ++ beBytes 8 s.boot.serial.toNat) sig
      (ok = true → Config.cartType chain = i.val → c.lasers = bayLasers i → Answers (.cartAuthResponse i chain sig) s (fun t =>
        (bay t i).st = .ready ∧ (bay t i).certified = true ∧
        (∀ n, n < bayLasers i → (laserOf t i n).p0 = mget? s.light.p0s (i.val, c.serial.toNat, n) ∧
          (i = 0 → (laserOf t i n).st = if n < 16 then .lit else .dark)) ∧
        (i = 0 → ∀ q j h, halfOf t q j h = 0) ∧ (i = 1 → ∀ g, g ∈ t.light.searching))) ∧
      (ok = false ∨ Config.cartType chain ≠ i.val ∨ c.lasers ≠ bayLasers i → exec (.cartAuthResponse i chain sig) s =
        .next (raise (setBay s i { c with st := .refused, certified := ok }) (.cart i) 0x2D06 0))) ∧
    (c.st = .auth → exec (.cartAuthTimeout i) s = .next (if c.sinceSf + 187500 ≤ s.sf then
      raise (setBay s i { c with st := .refused, certified := false }) (.cart i) 0x2D06 0 else s)) ∧
    (c.present = true → Answers (.cartLost i) s (fun t => bay t i = Cart.empty ∧ (∀ n, laserOf t i n = Laser.absent) ∧
      (i = 0 → ∀ p, (phy t p).link = 0) ∧ (i = 1 → ∀ g k, (lslot t g k).tx = .off ∧ (lslot t g k).rx = .off) ∧
      (c.st = .ready → (pageOf t (.cart i)).classSeen.getLsbD 3 = true))) ∧
    (c.present = false → exec (.cartLost i) s = .next s) ∧
    (∀ ag : Agent, Writable s ag (.cart i) →
      Answers (.cartRelease ag i) s (fun t => bay t i = (if c.st = .ready then { c with st := .releasing } else c) ∧
        t.light.lasers = s.light.lasers ∧ OnlyChanges [.light, .pages] s t) ∧
      (blkState s (.cart i) ≠ 2 → blkState s (.cart i) ≠ 3 → Answers (.cartCommission ag i) s (fun t =>
        (∀ n x, mget? s.light.lasers (i, n) = some x → laserOf t i n = { x with fresh := true } ∧
          (laserOf t i n).lock.p0 = none) ∧
        (∀ j n, j ≠ i → laserOf t j n = laserOf s j n) ∧ OnlyChanges [.light, .pages] s t))) ∧
    (c.st = .releasing → Answers (.cartReleaseDone i) s (fun t => (bay t i).st = .safe ∧ (bay t i).present = c.present ∧
      ∀ n, laserOf t i n = Laser.absent)) ∧
    (∀ n : Fin 72, c.st = .ready → n.val < bayLasers i →
      (laserOf s i n.val).st = .lit ∨ (laserOf s i n.val).st = .tuning ∨ (laserOf s i n.val).st = .dark →
      Answers (.laserFaultReport i n) s (fun t => (laserOf t i n.val).st = .failed ∧ (laserOf t i n.val).level = 3 ∧
        (i = 0 → ∀ x ∈ fedBy s n.val, halfOf t x.1 x.2.1 x.2.2 = 2 ∧ ∀ p ∈ halfPorts x.1 x.2.1 x.2.2, (phy t p).link = 0) ∧
        (i = 1 → (lslot t (groupOfLaser n.val) (slotOfLaser n.val)).tx = .off ∧
          (∀ b, (ringOf t (groupOfLaser n.val) (slotOfLaser n.val) b).locked = false) ∧
          (pageOf t (.leng (groupOfLaser n.val))).classSeen.getLsbD 1 = true))) ∧
    (c.st ≠ .empty → c.st ≠ .safe → Answers (.cartFeedOvercurrent i) s (fun t => (bay t i).st = .safe ∧ (bay t i).power = 0 ∧
      (∀ n, laserOf t i n = Laser.absent) ∧ (pageOf t (.cart i)).classSeen.getLsbD 3 = true)) ∧
    (∀ (ag : Agent) (q : Fin 4) (j h : Fin 2), Writable s ag (.fpe q j) →
      let sp := laserOf s 0 (16 + q.val)
      ((∀ a b, halfOf s q a b ≠ 1) → sp.st = .dark ∨ sp.st = .lit → Answers (.fabricSpareSwap ag q j h) s (fun t =>
        halfOf t q j h = 1 ∧ (laserOf t 0 (16 + q.val)).st = .lit ∧
        (∀ a b d, (a, b, d) ≠ (q, j, h) → halfOf t a b d = halfOf s a b d) ∧
        (∀ p ∈ halfPorts q j h, (phy t p).link = 1 ∧ (phy t p).locked = 0) ∧
        (pageOf t (.fpe q j)).classSeen.getLsbD 1 = true)) ∧
      ((∃ a b, halfOf s q a b = 1) → Answers (.fabricSpareSwap ag q j h) s (fun t => t.light = s.light ∧
        (pageOf t (.fpe q j)).classSeen.getLsbD 1 = true))) ∧
    (∀ (p : Fin 64) (link : Fin 3) (locked : BitVec 4) (rxp : Word), let h := portHalf p
      exec (.fabricPortLinkChange p link locked rxp) s = .next (if link ≠ 0 ∧ halfOf s h.1 h.2.1 h.2.2 = 2 then s
        else setPhy s p { phy s p with link := link.val, locked := locked, rxp := rxp }))

/-- RING_SEARCH_GO, RING_SEARCH_DONE, LASER_LOCKED, RING_LOCK_LOSS, RING_RELOCK, RING_RELOCK_RETRY, SPARE_SWAP_AT_W,
SPARE_LASER_OFF, SPARE_RETRY, WRT_APPLY, WRT_APPLY_DONE and WRT_RESTORE_DONE. -/
def Obligations.RingsSparesAndRouter : Prop :=
  (∀ (s : State) (ag : Agent) (g : Fin 4), Writable s ag (.leng g) → blkState s (.leng g) ≠ 2 → blkState s (.leng g) ≠ 3 →
    (bay s 1).st = .ready → g ∉ s.light.searching → Answers (.ringSearchGo ag g) s (fun t => g ∈ t.light.searching ∧
      (∀ k, (slotLaser s g k).st = .dark → (g, k) ∉ s.light.retired → isSpare s g k = false →
        (slotLaser t g k).st = .tuning) ∧ OnlyChanges [.light, .pages] s t)) ∧
  (∀ (s : State) (g : Fin 4) (ps : List Peak), g ∈ s.light.searching → Answers (.ringSearchDone g ps) s (fun t =>
    g ∉ t.light.searching ∧ (∀ k, (slotLaser t g k).st ≠ .tuning) ∧
    (∀ k b, (ringOf t g k b).ring = 31 ∨ ((ringOf t g k b).ring < 20 ∧ 300 ≤ (ringOf t g k b).shift ∧
      (ringOf t g k b).shift ≤ 1800)) ∧
    (∀ k k' b, k ≠ k' → (ringOf t g k b).ring = 31 ∨ (ringOf t g k b).ring ≠ (ringOf t g k' b).ring) ∧
    (∀ h k b, h ≠ g → ringOf t h k b = ringOf s h k b))) ∧
  (∀ (s : State) (g : Fin 4) (k : Fin 18) (ps : List Peak), (slotLaser s g k).st = .tuning → g ∉ s.light.searching →
    Answers (.laserLocked g k ps) s (fun t => (slotLaser t g k).st = .lit ∧ (slotLaser t g k).mhz = slotMhz k.val ∧
      (slotLaser t g k).hist = [] ∧ ∀ b, let r := ringOf s g k b
        (r.ring ≠ 31 → ringOf t g k b = if shiftOk s r then { r with locked := true, lost := false, fails := 0 }
          else { r with locked := false, lost := true }) ∧
        (r.ring = 31 → ringOf t g k b = ringOf (singleRing s g k b ps) g k b))) ∧
  (∀ (s : State) (g : Fin 4) (k : Fin 18) (b : Fin 4), let x := ringOf s g k b
    (x.locked = false → exec (.ringLockLoss (.line g k b)) s = .next s) ∧
    (x.locked = true → Answers (.ringLockLoss (.line g k b)) s (fun t =>
      ringOf t g k b = { x with locked := false, lost := true, fails := 0 } ∧
      mget t.ctr (.leng g, 0) 0 = ctrAdd (mget s.ctr (.leng g, 0) 0) 1 ∧
      (b.val < 2 → (lslot s g k).tx = .up → (lslot t g k).tx = .train ∧ (lslot t g k).txWhy = 3) ∧
      (2 ≤ b.val → lslot t g k = lslot s g k))) ∧
    (x.lost = true → lit s g k = true → shiftOk s x = true → Answers (.ringRelock (.line g k b)) s (fun t =>
      ringOf t g k b = { x with locked := true, lost := false, fails := 0 } ∧
      mget t.light.relocks (g, k) 0 = min (mget s.light.relocks (g, k) 0 + 1) 0xFFFF ∧
      (pageOf t (.leng g)).classSeen.getLsbD 1 = true)) ∧
    (x.lost = true → exec (.ringRelockRetry (.line g k b)) s = .next (let v := setRing s g k b { x with fails := x.fails + 1 };
      if x.fails + 1 = 8 then raise v (.leng g) 0x2D02 (k.val + 32 * b.val) else v))) ∧
  (∀ (s : State) (p : Fin 64) (i : Fin 4), let x := phy s p
    let h := portHalf p
    (x.locked.getLsbD i.val = true → Answers (.ringLockLoss (.fabric p i)) s (fun t =>
      (phy t p).locked.getLsbD i.val = false ∧ (phy t p).fails = 0 ∧ (phy t p).link = x.link)) ∧
    (x.locked.getLsbD i.val = false → halfOf s h.1 h.2.1 h.2.2 ≠ 2 → Answers (.ringRelock (.fabric p i)) s (fun t =>
      (phy t p).locked.getLsbD i.val = true ∧ (phy t p).relocks = min (x.relocks + 1) 0xFFFF)) ∧
    (x.locked.getLsbD i.val = false → Answers (.ringRelockRetry (.fabric p i)) s (fun t => (phy t p).fails = x.fails + 1 ∧
      (x.fails = 7 → (pageOf t (fpeOf p)).classSeen.getLsbD 2 = true)))) ∧
  (∀ (s : State) (g i : Fin 4) (x : Insert), let l : LinkId := (g, i)
    insertOf s l = some x → (∀ k, (l, k) ∉ s.light.waits) → x.slot ≠ x.spare →
    (s.sf < x.w → exec (.spareSwapAtW g i) s = .next s) ∧
    (x.w ≤ s.sf → x.early = true ∨ (x.accLocal = true ∧ x.accPeer = true) → Answers (.spareSwapAtW g i) s (fun t =>
      bit (linkLanes t l) x.slot.val = false ∧ bit (linkLanes t l) x.spare.val = true ∧
      (∀ k : Fin 18, k ≠ x.slot → k ≠ x.spare → laneIn t l k = laneIn s l k) ∧ isSpare t g x.spare = false ∧
      mget? t.light.ins l = some { x with phase := 6 } ∧ ((g, x.slot), x.w + x.d + 16) ∈ t.light.offs ∧
      (x.init = true → (g, x.slot) ∈ t.light.retired) ∧
      ((lslot s g x.slot).tx = .up → (lslot t g x.slot).tx = .train ∧ (lslot t g x.slot).txWhy = 7) ∧
      (pageOf t (.leng g)).classSeen.getLsbD 0 = true)) ∧
    (x.w ≤ s.sf → x.early = false → x.accLocal = false ∨ x.accPeer = false → Answers (.spareSwapAtW g i) s (fun t =>
      linkLanes t l = linkLanes s l ∧ mget? t.light.ins l = some { x with phase := 5 } ∧
      ((g, x.spare), x.w + x.d + 16) ∈ t.light.offs ∧ (lslot t g x.spare).tx ≠ .up ∧ (lslot t g x.spare).rx ≠ .up ∧
      (x.init = true → (l, x.slot, x.w + 65536) ∈ t.light.retries) ∧ (pageOf t (.leng g)).classSeen.getLsbD 1 = true))) ∧
  (∀ (s : State) (g i : Fin 4) (k : Fin 18),
    (∀ n, s.light.offs.find? (fun o => o.1 == (g, k)) = some ((g, k), n) →
      (s.sf < n → exec (.spareLaserOff g k) s = .next s) ∧
      (n ≤ s.sf → Answers (.spareLaserOff g k) s (fun t => (slotLaser t g k).st ≠ .lit ∧ (slotLaser t g k).st ≠ .tuning ∧
        (lslot t g k).tx = .off ∧ (lslot t g k).rx = .off ∧ t.light.offs = s.light.offs.erase ((g, k), n)))) ∧
    (∀ n, s.light.retries.find? (fun r => r.1 == (g, i) && r.2.1 == k) = some ((g, i), k, n) →
      (s.sf < n → exec (.spareRetry g i k) s = .next s) ∧
      (n ≤ s.sf →
        let v := { s with light := { s.light with retries := s.light.retries.erase ((g, i), k, n) } }
        exec (.spareRetry g i k) s = .next
          (if (slotLaser s g k).st = .lit ∧ (slotLaser s g k).level < 3 then startInsert v (g, i) k else v)))) ∧
  (∀ (s : State) (ag : Agent) (b : Fin 4), Writable s ag .wrt → s.light.wrt.run = none →
    (∀ n f k, mapRefusal s b.val = some (n, f, k) → Answers (.wrtApply ag b) s (fun t => t.light.wrt.reason = n ∧
      t.light.wrt.run = none ∧ t.light.wrt.active = s.light.wrt.active ∧ (pageOf t .wrt).classSeen.getLsbD 2 = true)) ∧
    (mapRefusal s b.val = none → Answers (.wrtApply ag b) s (fun t =>
      t.light.wrt = { s.light.wrt with run := some ⟨b.val, mapChanged s b.val, s.sf, false⟩ }))) ∧
  (∀ (s : State) (r : WrtRun), s.light.wrt.run = some r →
    let w := s.light.wrt
    (r.restoring = false →
      (r.startSf + 576 ≤ s.sf → anySlot s [.active, .next] = false → exec (.wrtApplyDone true) s = .next (raise { s with light := { s.light with wrt :=
        { w with active := r.bank, run := none, lastUs := 4610, lastChanged := r.changed.length } } } .wrt 0x0D03 0)) ∧
      (r.startSf + 513 ≤ s.sf → exec (.wrtApplyDone false) s = .next (raise { s with light := { s.light with wrt :=
        { w with reason := 8, run := some { r with restoring := true, startSf := s.sf } } } } .wrt 0x2D05 8)) ∧
      (s.sf < r.startSf + 513 → ∀ ok, exec (.wrtApplyDone ok) s = .next s) ∧
      (anySlot s [.active, .next] = true → exec (.wrtApplyDone true) s = .next s)) ∧
    (r.restoring = true → exec .wrtRestoreDone s = .next (if r.startSf + 513 ≤ s.sf then
      { s with light := { s.light with wrt := { w with run := none } } } else s)))

/-- EGRESS_PACKET_START, SHAPER_REFILL, QUEUE_SAMPLE, SAMPLE_CLEAR, TRAY_RETRY, AUDIT_START, AUDIT_DONE, LEDGER_GROUP_READ
and JOB_DROP. The head delays of a sample and the offset of a packet's start are operands; the queue under visit that the model keeps
between packets is the model's reading of R377 (log entry 46). -/
def Obligations.EgressAndTrays : Prop :=
  (∀ (s : State) (p : Fin 64) (ofs : Fin 128000), ((phy s p).link ≠ 2 → exec (.egressPacketStart p ofs) s = .next s) ∧ ((phy s p).link = 2 →
    ((∀ r, sendable s p r = false) → exec (.egressPacketStart p ofs) s = .next s) ∧
    (∀ (q : Fin 32) (k : EgPkt) (l : List EgPkt), (egQ s p q).pkts = k :: l →
      sendable s p q = true → (∀ r : Fin 32, r.val < 4 → r < q → sendable s p r = false) →
      let tok := if fldB s (fportOf p) 0x48 q.val 31 31 = 0 then (egQ s p q).tokens
        else (egQ s p q).tokens - 16 * (k.wire : Int)
      let u := emit (setEgQ s p q { egQ s p q with pkts := l, tokens := tok }) (.fabric p k)
      (q.val < 4 → exec (.egressPacketStart p ofs) s =
        .next (admitPort (match k.body with | .ptp id _ => stampTx u p id ofs.val | _ => u) p)) ∧
      (4 ≤ q.val → (∀ r, (egQ s p r).waiting = []) → (∀ n m, k.body ≠ .ptp n m) → mget s.rr p 3 = q → 0 < queueWeight s p q → k.wire ≤ (egQ s p q).deficit →
        Answers (.egressPacketStart p ofs) s (fun t => egQ t p q = { egQ s p q with
            pkts := l, tokens := tok, deficit := if l = [] then 0 else (egQ s p q).deficit - k.wire } ∧
          t.out = s.out ++ [.fabric p k] ∧ (∀ r, r ≠ q → egQ t p r = egQ s p r) ∧
          OnlyChanges [.egress, .rr, .out] s t))))) ∧
  (∀ s : State, Answers .shaperRefill s (fun t => t.refills = s.refills + 1 ∧
    (∀ pg off bank, regActive (pageOf t pg) pg off bank =
      if refillPage pg then regAccepted (pageOf s pg) pg off bank else regActive (pageOf s pg) pg off bank) ∧
    (∀ (p : Fin 64) (q : Fin 32), let top : Int := 16 * fldB t (fportOf p) 0x4C q.val 19 0
      (mget? s.egress (p, q)).isSome = true → (egQ t p q).tokens = if fldB t (fportOf p) 0x48 q.val 31 31 = 0 then top
        else min ((egQ s p q).tokens + fldB t (fportOf p) 0x48 q.val 17 0) top) ∧
    (∀ (p : Fin 64) (c : Nat), let tm := PageId.tm (quadOf p)
      let top : Int := 16 * fldB t tm 0x60 c 19 0
      (mget? s.police (p, c)).isSome = true → polTokens t p c = if fldB t tm 0x5C c 31 31 = 0 then top
        else min (polTokens s p c + fldB t tm 0x5C c 17 0) top) ∧
    OnlyChanges [.refills, .pages, .egress, .police] s t)) ∧
  (∀ (s : State) (p : Fin 64) (delays : List Nat),
    (s.refills % 2 ^ fldV s (fportOf p) 0x64 3 0 = 0 → Answers (.queueSample p delays) s (fun t =>
      (∀ q, let e := egQ s p q
        egQ t p q = { e with depthMax := max e.depthMax (sumWire e.pkts)
                             delayMax := min 0xFFFFFFFF (max e.delayMax (if e.pkts = [] then 0 else delays.getD q.val 0))
                             depthAvg := ((e.depthAvg : Int) + ((sumWire e.pkts : Int) - e.depthAvg).tdiv 1024).toNat }) ∧
      (∀ r q, r ≠ p → egQ t r q = egQ s r q) ∧ OnlyChanges [.egress] s t)) ∧
    (∀ ag : Agent, Writable s ag (fportOf p) → Answers (.sampleClear ag p) s (fun t =>
      (∀ q, egQ t p q = { egQ s p q with depthMax := 0, delayMax := 0, depthAvg := 0 }) ∧
      (∀ r q, r ≠ p → egQ t r q = egQ s r q) ∧ OnlyChanges [.egress, .pages] s t))) ∧
  (∀ (s : State) (cell : Fin 16384) (c : BitVec 64) (via : RecVia) (r : Record),
    ((cellOf s cell.val).st ≠ .free → exec (.trayRetry cell) s = .next s) ∧
    ((cellOf s cell.val).st = .free → s.plans.opens = [] → attempt s c = .now →
      s.coll.held = [⟨cell.val, c, .record via r, none, true⟩] →
      exec (.trayRetry cell) s = .next (recordCore via r { s with coll := { s.coll with held := [] } }))) ∧
  (∀ s : State, s.mode = some .test ∨ s.mode = some .recovery ∨ s.mode = some .service →
    (s.sf % 1024 = 0 → s.ledger.atSf ≠ some s.sf → fldV s .ledger 0x44 0 0 = 1 →
      (s.ledger.running = none → Answers .auditStart s (fun t => t.ledger.running = some s.sf ∧
        t.ledger.pending = pendingCells s ∧ t.ledger.unlimited = unlimitedCells s ∧ t.ledger.fails = auditFails s ∧
        t.ledger.atSf = some s.sf ∧ t.ledger.last = s.ledger.last ∧
        OnlyChanges [.ledger, .rseq, .egress, .lineTx] s t)) ∧
      (s.ledger.running ≠ none → Answers .auditStart s (fun t => t.ledger = { s.ledger with atSf := some s.sf } ∧
        (pageOf t .ledger).classSeen.getLsbD 0 = true))) ∧
    (s.sf % 1024 ≠ 0 → exec .auditStart s = .next s)) ∧
  (∀ (s : State) (us : Fin 1001) (n : Nat), s.ledger.running = some n → let g := s.ledger
    (g.fails = [] → Answers (.auditDone us) s (fun t =>
      t.ledger = { g with running := none, last := n, us := us.val, ok := true, fails := [], passed := min 0xFFFFFF (g.passed + 1) } ∧
      OnlyChanges [.ledger, .ctr, .rseq] s t)) ∧
    (∀ f l, g.fails = f :: l → Answers (.auditDone us) s (fun t =>
      t.ledger = { g with running := none, last := n, us := us.val, ok := false, fails := [] } ∧
      (pageOf t .ledger).classSeen.getLsbD 3 = true))) ∧
  (∀ (s : State) (r : Fin 4) (x : Fin 64), pageUp s (.tile x) = true → r ≠ 1 →
    Answers (.ledgerGroupRead r x) s (fun t =>
      t.out = s.out ++ [.readAnswer (pageAddr (.tile x) + 0x800) (BitVec.ofNat 32 (ctrLo (ctrVal s (.tile x) 0)))] ∧
      (∀ j, j < 6 → (readReg t r (.tile x) (0x804 + 8 * j) 0).2 = ctrHi (ctrVal s (.tile x) j)) ∧
      (∀ j, 0 < j → j < 6 → readCtrLo t r (.tile x) j = (t, ctrLo (ctrVal s (.tile x) j))) ∧
      OnlyChanges [.pages, .out] s t)) ∧
  (∀ (s : State) (ag : Agent) (job : BitVec 16), Writable s ag .tpool →
    let used := fun (x : Slot) => x.st != .empty && (match x.plan with | some p => p.job == job.toNat | none => false)
    (used s.plans.slot0 = false → used s.plans.slot1 = false → Answers (.jobDrop ag job) s (fun t =>
      (jobOf t job.toNat).tab = none ∧ (jobOf t job.toNat).epoch = (jobOf s job.toNat).epoch ∧
      (∀ i ∈ t.tdec.images, i.job = job.toNat → i.old = true) ∧
      (∀ j, j ≠ job.toNat → jobOf t j = jobOf s j))) ∧
    (used s.plans.slot0 = true ∨ used s.plans.slot1 = true → Answers (.jobDrop ag job) s (fun t => ∃ u,
      u = raise s .tpool 0x2001 (0x74 + 4096 * agentNum ag) ∧
      t = setPage u .tpool { pageOf u .tpool with cfgRefused := true })))

/-- LT_HOLD_TIMEOUT, LT_ELECT_TIMEOUT, LT_ELECT_TAKE, LT_DOMAIN_WRITE, LT_NOW_READ, MAP_READ, TSQ_ID_READ, TSQ_POP, and the PTP
messages. What the servo computes, and how data sets compare, are the model's readings (log entries 49, 50). -/
def Obligations.LineTimeAndPtp : Prop :=
  (∀ s : State,
    (∀ n, s.lt.st = .locked → s.lt.lossSf = some n → exec .ltHoldTimeout s = .next
      (if s.sf < n + fldV s .time 0x6C 15 0 then s
        else notify (raise { s with lt := { s.lt with st := .holdover, lossSf := none } } .time 0x1F01 0) 4)) ∧
    (s.lt.st ≠ .locked → exec .ltHoldTimeout s = .next s) ∧
    (∀ n, s.lt.quietSf = some n → s.lt.st = .free ∨ s.lt.st = .holdover → ltPrio s < 255 → qualHeaders s ≠ [] →
      n + fldV s .time 0x6C 31 16 ≤ s.sf → Answers .ltElectTimeout s (fun t => t.lt.st = .master ∧
        t.lt.ann = some ⟨s.lt.maxSerial + 1, ltPrio s, gw s⟩ ∧ t.lt.maxSerial = s.lt.maxSerial + 1 ∧ t.lt.parent = none ∧
        t.lt.hops = 0 ∧ 1 ≤ t.lt.d ∧ (pageOf t .time).classSeen.getLsbD 0 = true)) ∧
    (s.lt.st ≠ .free → s.lt.st ≠ .holdover → exec .ltElectTimeout s = .next s)) ∧
  (∀ (s : State) (ag : Agent) (v : Word), Writable s ag .time →
    (s.lt.st = .locked → fldV s .time 0x50 7 0 < 255 → Answers (.ltElectTake ag) s (fun t =>
      t.lt = { s.lt with take := true } ∧ OnlyChanges [.lt, .pages] s t)) ∧
    (s.lt.st ≠ .locked ∨ 255 ≤ fldV s .time 0x50 7 0 → Answers (.ltElectTake ag) s (fun t => ∃ u,
      u = raise s .time 0x2001 (0x70 + 4096 * agentNum ag) ∧ t = setPage u .time { pageOf u .time with cfgRefused := true })) ∧
    (blkState s .time ≠ 2 → blkState s .time ≠ 3 → Answers (.ltDomainWrite ag v) s (fun t =>
      fldV t .time 0x54 15 0 = fld v.toNat 15 0 ∧
      (fldV s .time 0x54 15 0 ≠ fld v.toNat 15 0 → t.lt = { s.lt with toFree := true }) ∧
      (fldV s .time 0x54 15 0 = fld v.toNat 15 0 → t.lt = s.lt) ∧ OnlyChanges [.lt, .line, .pages] s t))) ∧
  (∀ (s : State) (ofs : Fin 128000), pageUp s .time = true →
    Answers (.ltNowRead ofs) s (fun t => t.out = s.out ++ [.readAnswer 0x8044 (BitVec.ofNat 32 s.sf)] ∧
      reads t .time 0x48 = s.sf / 2 ^ 32 % 2 ^ 32 ∧ reads t .time 0x4C = ofs.val ∧ OnlyChanges [.pages, .out] s t) ∧
    Answers .mapRead s (fun t => let m := ptpAt s s.sf
      t.out = s.out ++ [.readAnswer 0x8088 (BitVec.ofNat 32 (m / 1000000000))] ∧
      reads t .time 0x8C = m / 1000000000 / 2 ^ 32 % 2 ^ 16 ∧ reads t .time 0x90 = m % 1000000000 ∧
      reads t .time 0x94 = int32 s.ptp.rate ∧ OnlyChanges [.pages, .out] s t)) ∧
  (∀ (s : State) (p : Fin 64) (e : Stamp) (l : List Stamp),
    (pageUp s (fportOf p) = true → (tsqOf s p).ents = e :: l → Answers (.tsqIdRead p) s (fun t =>
      t.out = s.out ++ [.readAnswer (pageAddr (fportOf p) + 0x108) (BitVec.ofNat 32 e.id)] ∧
      reads t (fportOf p) 0x10C = e.sf % 2 ^ 32 ∧ reads t (fportOf p) 0x110 = e.sf / 2 ^ 32 % 2 ^ 32 ∧
      reads t (fportOf p) 0x114 = e.ofs % 2 ^ 32 ∧ OnlyChanges [.pages, .out] s t)) ∧
    (∀ ag : Agent, Writable s ag (fportOf p) → Answers (.tsqPop ag p) s (fun t =>
      tsqOf t p = { tsqOf s p with ents := (tsqOf s p).ents.drop 1 } ∧ (∀ q, q ≠ p → tsqOf t q = tsqOf s q) ∧
      OnlyChanges [.tsq, .pages] s t))) ∧
  (∀ (s : State) (p : Fin 64) (m : PtpMsg) (ofs : Fin 128000),
    (ptpFor s p m = true → s.ptp.port = some p →
      exec (.ptpSyncRx p m ofs) s =
        .next { s with ptp := { s.ptp with t1 := if m.twoStep then none else some m.ns, t2 := some (s.sf * 128000 + ofs.val),
                                           twoStep := m.twoStep, syncSeq := m.seq } } ∧
      (s.ptp.twoStep = true → m.seq = s.ptp.syncSeq → exec (.ptpFollowUpRx p m) s =
        .next { s with ptp := { s.ptp with t1 := some m.ns, twoStep := false } }) ∧
      (m.seq = s.ptp.reqSeq → s.ptp.t3.isSome = true → s.ptp.t1.isSome = true → s.ptp.t2.isSome = true →
        Answers (.ptpDelayRespRx p m) s (fun t => t.ptp.t4 = some m.ns ∧ t.ptp.t3 = none ∧ t.ptp.sf = s.sf ∧
          t.ptp.runs = s.ptp.runs + 1 ∧
          (s.ptp.valid = true → t.ptp.valid = false → (pageOf t .time).classSeen.getLsbD 1 = true)))) ∧
    (ptpFor s p m = true → Answers (.ptpAnnounceRx p m) s (fun t =>
      t.ptp.foreign = mset s.ptp.foreign p m.dataset ∧
      (∃ e ∈ t.ptp.foreign, t.ptp.port = some e.1 ∧ ∀ f ∈ t.ptp.foreign, bytesLt f.2 e.2 = false) ∧
      OnlyChanges [.ptp] s t)) ∧
    (ptpFor s p m = false → exec (.ptpSyncRx p m ofs) s = .next s ∧ exec (.ptpFollowUpRx p m) s = .next s ∧
      exec (.ptpDelayRespRx p m) s = .next s ∧ exec (.ptpAnnounceRx p m) s = .next s) ∧
    exec (.ptpUnsupportedRx p) s = .next (count s (fportOf p) 0 1) ∧
    exec .ptpUnlocked s = .next
      (if s.ptp.valid then raise { s with ptp := { s.ptp with valid := false } } .time 0x1F03 0 else s)) ∧
  (∀ (s : State) (p : Fin 64) (id seq : BitVec 16), fldV s .time 0x80 8 8 = 1 → fldV s (fportOf p) 0x100 0 0 = 1 →
    let q := queueOf s (quadOf p) .ptp
    let w := wireSize true false 44
    (egQ s p q).waiting = [] → egTakes s p q w = true → exec (.ptpDelayReqTx p id seq) s = .next
      (setEgQ { s with ptp := { s.ptp with reqSeq := seq.toNat, t3 := none } } p q
        { egQ s p q with pkts := (egQ s p q).pkts ++ [⟨.ptp, .ptp id.toNat 1, w, s.sf⟩] })) ∧
  (∀ (s : State) (p : Fin 64) (ofs : Fin 128000) (q : Fin 32) (k : EgPkt) (l : List EgPkt) (id n : Nat),
    (phy s p).link = 2 → (∀ r, (egQ s p r).waiting = []) → (egQ s p q).pkts = k :: l → k.body = .ptp id n → q.val < 4 →
    sendable s p q = true → (∀ r : Fin 32, r < q → sendable s p r = false) →
    ((tsqOf s p).ents.length < 32 → Answers (.egressPacketStart p ofs) s (fun t =>
      tsqOf t p = { tsqOf s p with ents := (tsqOf s p).ents ++ [⟨id, s.sf, ofs.val⟩] } ∧
      t.ptp.t3 = some (s.sf * 128000 + ofs.val) ∧ t.out = s.out ++ [.fabric p k])) ∧
    (32 ≤ (tsqOf s p).ents.length → Answers (.egressPacketStart p ofs) s (fun t =>
      tsqOf t p = { tsqOf s p with ovf := true } ∧ (pageOf t (fportOf p)).classSeen.getLsbD 2 = true)))

/-- PULSE_EDGE, TIMING_INPUT_EDGE, EVT_POP, MAX_LATE_CLR and LAUNCH_FIRE. -/
def Obligations.PulsesAndLaunches : Prop :=
  (∀ (s : State) (o : Fin 16) (k : Nat), s.lt.st ≠ .free →
    (plsF s o 0x44 0 0 = 1 → plsF s o 0x44 3 3 = 0 → plsF s o 0x44 1 1 = 1 ∨ k = 0 → o ∉ s.tio.fired →
      let a : Nat := (plsF s o 0x4C 31 0 * 2 ^ 32 + plsF s o 0x48 31 0) * 8000 + plsF s o 0x50 31 0 + k * plsF s o 0x54 31 0
      let pol := plsF s o 0x44 2 2 == 1
      a / 8000 = s.sf → mget s.tio.since o 0 * 8000 + 1000 ≤ a → Answers (.pulseEdge o k true) s (fun t =>
        t.out = s.out ++ [.pulse o pol s.sf (a % 8000)] ∧ mget t.tio.level o false = pol ∧
        mget? t.tio.ends o = some ((a : Int) + plsF s o 0x58 31 0, !pol) ∧
        (plsF s o 0x44 1 1 = 0 → o ∈ t.tio.fired) ∧ OnlyChanges [.tio, .out] s t)) ∧
    (∀ (e : Nat) (lv : Bool), mget? s.tio.ends o = some ((e : Int), lv) → e / 8000 = s.sf →
      Answers (.pulseEdge o k false) s (fun t => t.out = s.out ++ [.pulse o lv s.sf (e % 8000)] ∧
        mget t.tio.level o (!lv) = lv ∧ mget? t.tio.ends o = none ∧ OnlyChanges [.tio, .out] s t)) ∧
    (plsF s o 0x44 0 0 = 0 → exec (.pulseEdge o k true) s = .next s)) ∧
  (∀ (s : State) (i : Fin 4) (rise : Bool) (ofs : Fin 128000), let edge := fldB s .tio 0x64 i.val 2 1
    let x := evtOf s i
    (fldB s .tio 0x64 i.val 0 0 = 0 ∨ (edge = 0 ∧ rise = false) ∨ (edge = 1 ∧ rise = true) →
      exec (.timingInputEdge i rise ofs) s = .next s) ∧
    (fldB s .tio 0x64 i.val 0 0 = 1 → ¬(edge = 0 ∧ rise = false) → ¬(edge = 1 ∧ rise = true) →
      (x.ents.length < 16 → Answers (.timingInputEdge i rise ofs) s (fun t =>
        evtOf t i = { x with ents := x.ents ++ [⟨(if rise then 1 else 0) + (if s.lt.st = .free then 2 else 0), s.sf, ofs.val⟩] } ∧
        (∀ j, j ≠ i → evtOf t j = evtOf s j) ∧ OnlyChanges [.tio] s t)) ∧
      (16 ≤ x.ents.length → Answers (.timingInputEdge i rise ofs) s (fun t => evtOf t i = { x with ovf := true } ∧
        (pageOf t .tio).classSeen.getLsbD 2 = true)))) ∧
  (∀ (s : State) (ag : Agent) (i : Fin 4), Writable s ag .tio → fldV s .tio 0x60 1 0 = i.val →
    fld (regAccepted (pageOf s .tio) .tio 0x60 0).toNat 1 0 = i.val →
    fld (regAccepted (pageOf s .tio) .tio 0x64 i.val).toNat 2 1 ≤ 2 → Answers (.evtPop ag) s (fun t =>
      evtOf t i = { evtOf s i with ents := (evtOf s i).ents.drop 1 } ∧ (∀ j, j ≠ i → evtOf t j = evtOf s j) ∧
      OnlyChanges [.tio, .pages] s t)) ∧
  (∀ (s : State) (ag : Agent) (q : Fin 4), Writable s ag (.launch q) → Answers (.maxLateClr ag q) s (fun t =>
    mget t.late q 0 = 0 ∧ (∀ r, r ≠ q → mget t.late r 0 = mget s.late r 0) ∧ OnlyChanges [.late, .pages] s t)) ∧
  (∀ (s : State) (n : Nat) (ns : Fin 8000) (l : Launch) (x : Placed) (r : Record), s.plans.launches[n]? = some l →
    findInst s l.ciid = some x → (cellOf s l.cell).ciid = l.ciid → mget (cellOf s l.cell).ready (l.shard, l.level) [] = [r] →
    s.lt.st ≠ .free →
    let at_ := l.sf * 8000 + l.slot * 125
    let now := s.sf * 8000 + ns.val
    let dst := r.hdr.dstGw.toNat
    (now < at_ ∨ isErr (cellOf s l.cell).st = true → exec (.launchFire n ns) s = .next s) ∧
    (isErr (cellOf s l.cell).st = false → at_ ≤ now → l.late = false → now ≤ at_ + (if l.line then 400 else 100) → Answers (.launchFire n ns) s (fun t =>
      t.plans.launches = s.plans.launches.eraseIdx n ∧ mget? (cellOf t l.cell).ready (l.shard, l.level) = none ∧
      (l.line = false → t.out = s.out ++ [.fabric (tqPort s l.quad l.index)
        ⟨if x.desc.fast then .site else .peer, .rcd dst (x.desc.peer dst / 2048 % 4) (peerPort s) r,
          wireSize true true (64 + r.payload.length), s.sf⟩] ∧ t.lineTx = s.lineTx) ∧
      (l.line = true → t.out = s.out ∧ ∀ k, linkTo s l.quad dst = some k → let vc := if x.desc.fast then 9 else 10
        mget t.lineTx (k, vc) [] = mget s.lineTx (k, vc) [] ++ [.rcd r]) ∧
      t.late = s.late ∧ OnlyChanges [.plans, .coll, .ctr, .lineTx, .out] s t)) ∧
    (isErr (cellOf s l.cell).st = false → at_ + (if l.line then 400 else 100) < now → l.late = false → Answers (.launchFire n ns) s (fun t =>
      t.plans.launches = s.plans.launches.eraseIdx n ∧
      mget t.late l.quad 0 = max (mget s.late l.quad 0) (min (now - at_) 0x7FFFFFFF) ∧
      (pageOf t (.tile ⟨l.tile % 64, by omega⟩)).classSeen.getLsbD 0 = true)))

/-- LIVE_RX, RECOVER_REQ_RX, RECOVER_RX, RECOVER_DONE_RX, RESUME_RX, RESUME_AT_RZ, ROSTER_RX and PROVE_DIGEST_RX. The gateways of the
job are the model's reading (log entry 52). -/
def Obligations.RecoveryMessages : Prop :=
  (∀ (s : State) (via : RecVia) (m : Rcv) (u : State), takeMsg s via (.rcv m) = (u, true) →
    (rcvOk m = false → let bad := raise u (badPage via) 0x2B01 0
      (m.mkind = 0x10 → exec (.recoverReqRx via m) s = .next bad) ∧ (m.mkind = 0x11 → exec (.recoverRx via m) s = .next bad) ∧
      (m.mkind = 0x12 → exec (.recoverDoneRx via m) s = .next bad) ∧ (m.mkind = 0x13 → exec (.resumeRx via m) s = .next bad) ∧
      (m.mkind = 0x14 → exec (.liveRx via m) s = .next bad) ∧ (m.mkind = 0x15 → exec (.rosterRx via m) s = .next bad) ∧
      (m.mkind = 0x16 → exec (.proveDigestRx via m) s = .next bad)) ∧
    (rcvOk m = true → via ≠ .own → u.rseq.dups.contains (m.srcGw.toNat, m.mkind.toNat, m.serial.toNat) = true →
      (m.mkind = 0x11 → exec (.recoverRx via m) s = .next u) ∧ (m.mkind = 0x15 → exec (.rosterRx via m) s = .next u) ∧
      (m.mkind = 0x10 → exec (.recoverReqRx via m) s = .next u) ∧ (m.mkind = 0x14 → exec (.liveRx via m) s = .next u))) ∧
  (∀ (s : State) (via : RecVia) (m : Rcv) (u : State), RcvUp s via m u →
    let job := ciidJob m.ciid
    let z := ciidStep m.ciid
    let g := m.srcGw.toNat
    let q := jobRec u job
    (m.mkind = 0x14 → Answers (.liveRx via m) s (fun t => t.rseq.live = mset u.rseq.live g (u.sf, m.value.toNat) ∧
      (quorum t = true → t.rseq.held = [] ∧ t.rseq.loop = u.rseq.loop ++ u.rseq.held) ∧ OnlyChanges [.rseq] u t)) ∧
    (m.mkind = 0x10 → m.code = 0 → m.level = 3 → namesStep m.ciid = true →
      let v := noteAttempt u g m.ciid
      (covered v job (jobRec v job) m.ciid = true → exec (.recoverReqRx via m) s = .next (noteWait v)) ∧
      (covered v job (jobRec v job) m.ciid = false → 3 ≤ q.level → exec (.recoverReqRx via m) s = .next (noteWait
        (setJobRec v job { jobRec v job with waiting := q.waiting ++ [⟨3, 0, m.ciid, m.subjectGw.toNat⟩] }))) ∧
      (covered v job (jobRec v job) m.ciid = false → q.level = 0 → let z := rollFrom v job m.ciid
        let n := max (max (mget (jobRec v job).maxCount z 0) (ownCount v job z)) (if ciidStep m.ciid = z then ciidReplay m.ciid else 0) + 1
        n ≤ fldV u .rseq 0x4C 7 0 → n ≤ 0xFE → Answers (.recoverReqRx via m) s (fun t => t.rseq.serial = u.rseq.serial + 1 ∧
          (jobRec t job).level = 3 ∧ (jobRec t job).serial = u.rseq.serial + 1 ∧ (jobRec t job).step = z ∧
          (jobRec t job).count = n ∧ (jobRec t job).done = [] ∧
          ∃ r, t.rseq.loop = u.rseq.loop ++ [.rcv r] ∧ r.mkind = 0x11 ∧ r.level = 3 ∧ r.ciid = mkCiid job z 0 n ∧
            r.serial = BitVec.ofNat 32 (u.rseq.serial + 1)))) ∧
    (m.mkind = 0x12 → q.level = 3 → q.serial = m.serial.toNat →
      (∀ x ∈ awaited u q, x = g ∨ (mget? q.done x).isSome = true) → q.waiting = [] → (∀ c ∈ u.commits, c.job ≠ job) →
      Answers (.recoverDoneRx via m) s (fun t => (jobRec t job).level = 0 ∧
        ∃ r, t.rseq.loop = u.rseq.loop ++ [.rcv r] ∧ r.mkind = 0x13 ∧ r.sf = BitVec.ofNat 64 (u.sf + u.lt.d + 64) ∧
          r.ciid = mkCiid job q.step 0 q.count)) ∧
    (m.mkind = 0x12 → q.level < 3 ∨ q.serial ≠ m.serial.toNat → exec (.recoverDoneRx via m) s = .next
      (noteAttempt { u with rseq := { u.rseq with serial := max u.rseq.serial m.serial.toNat } } g m.ciid)) ∧
    (m.mkind = 0x12 → 3 ≤ q.level → q.serial = m.serial.toNat → (∃ x ∈ awaited u q, x ≠ g ∧ mget? q.done x = none) →
      (∀ c ∈ u.commits, c.job ≠ job) →
      Answers (.recoverDoneRx via m) s (fun t => mget? (jobRec t job).done g = some m.value.toNat ∧
        (jobRec t job).level = q.level ∧ t.rseq.loop = u.rseq.loop ∧ OnlyChanges [.rseq] u t)) ∧
    (m.mkind = 0x16 → m.arg = 3 → u.rseq.prove.phase = 3 → g = u.rseq.prove.subject → u.rseq.prove.incumbent ≠ g →
      (digestAt u.rseq.prove u.rseq.prove.incumbent (2 ^ 32) z 0 = none → Answers (.proveDigestRx via m) s (fun t =>
        digestAt t.rseq.prove g (2 ^ 32) z 0 = some m.value.toNat ∧ t.rseq.prove.phase = 3 ∧ OnlyChanges [.rseq] u t)) ∧
      (∀ d, digestAt u.rseq.prove u.rseq.prove.incumbent (2 ^ 32) z 0 = some d → d ≠ m.value.toNat →
        Answers (.proveDigestRx via m) s (fun t => t.rseq.prove.phase = 5 ∧ t.rseq.prove.reason = 3 ∧ rosterSt t g = 3 ∧
          (pageOf t .rseq).classSeen.getLsbD 2 = true)))) ∧
  (∀ (s : State) (via : RecVia) (m : Rcv) (u : State), RcvDown s via m u →
    let job := ciidJob m.ciid
    let z := ciidStep m.ciid
    (m.mkind = 0x11 →
      (m.serial.toNat < u.rseq.serial → exec (.recoverRx via m) s = .next u) ∧
      (u.rseq.serial ≤ m.serial.toNat → 3 ≤ m.level.toNat → ∀ d, mget? u.rseq.lastDone job = some d → d.serial = m.serial →
        (jobOf u job).restore = [] → exec (.recoverRx via m) s = .next (sendMaster u (.rcv d))) ∧
      (u.rseq.serial ≤ m.serial.toNat → (∀ d, mget? u.rseq.lastDone job = some d → d.serial ≠ m.serial) → m.level = 3 →
        replayOf u job z ≤ ciidReplay m.ciid → Answers (.recoverRx via m) s (fun t => t.rseq.serial = m.serial.toNat ∧
          mget t.plans.replay (job, z) 0 = ciidReplay m.ciid ∧ job ∈ t.rseq.halted ∧ mget t.rseq.level job 0 = 3 ∧
          (∀ i ∈ t.coll.held, undone u job z (ciidReplay m.ciid) i.ciid = false) ∧
          (∀ e ∈ t.plans.launches, undone u job z (ciidReplay m.ciid) e.ciid = false) ∧
          (∃ d, mget? t.rseq.lastDone job = some d ∧ d.mkind = 0x12 ∧ d.serial = m.serial) ∧
          (u.coll.held = [] → (∀ o ∈ u.plans.opens, o.job = job ∧ stepBefore u job o.step z = false) → t.mem = u.mem) ∧
          t.sf = u.sf ∧ t.mode = u.mode)) ∧
      (u.rseq.serial ≤ m.serial.toNat → (∀ d, mget? u.rseq.lastDone job = some d → d.serial ≠ m.serial) → m.level = 4 →
        m.subjectGw.toNat = gw u → Answers (.recoverRx via m) s (fun t =>
          ∀ pg, (pageOf u pg).enable = true → (pageOf t pg).halted = true))) ∧
    (m.mkind = 0x13 → u.rseq.serial ≤ m.serial.toNat → let r : Resume := ⟨job, z, ciidReplay m.ciid, m.sf.toNat, m.value.toNat⟩
      (u.sf < r.rz → exec (.resumeRx via m) s = .next { u with rseq := { u.rseq with
        resumes := u.rseq.resumes.filter (fun y => y.job != job) ++ [r] } }) ∧
      (r.rz ≤ u.sf → exec (.resumeRx via m) s = .next (resumeJob (raise u .rseq 0x1702 0) r))) ∧
    (m.mkind = 0x15 → via ≠ .own → m.subjectGw.toNat < 2048 → let g := m.subjectGw.toNat
      Answers (.rosterRx via m) s (fun t => rosterSt t g = m.arg.toNat % 4 ∧ rosterFp t g = m.value.toNat ∧
        (∀ x, x ≠ g → rosterSt t x = rosterSt u x ∧ rosterFp t x = rosterFp u x) ∧
        t.mode = (if gwNum u = some g ∧ rosterSt u g = 2 ∧ m.arg = 1 ∧ u.mode = some .recovery then some .service else u.mode)))) ∧
  (∀ (s : State) (job : BitVec 16) (r : Resume), s.rseq.resumes = [r] → r.job = job.toNat → r.step < 2 ^ 24 →
    (s.sf < r.rz → exec (.resumeAtRz job) s = .next s) ∧
    (r.rz ≤ s.sf → s.coll.held = [] → Answers (.resumeAtRz job) s (fun t => t.rseq.resumes = [] ∧ r.job ∉ t.rseq.halted ∧
      mget t.rseq.level r.job 0 = 0 ∧ mget t.plans.replay (r.job, r.step) 0 = r.count ∧ (∀ x, (tileOf t x).held = false) ∧
      (∀ (p : Plan) (st : PlanStep) (x : Fin 64), s.plans.slot0.plan = some p → p.job = r.job → s.plans.slot0.st = .active →
        s.plans.slot0.stopping = false → s.plans.slot1.plan = none → p.stepOf r.step = some st → st.descs = [] →
        outerWaits s p st = false →
        bit p.tileMask x.val = true → st.streams.getD x.val [] ≠ [] →
        (pageOf s (.tile x)).enable = true → (pageOf s (.tile x)).quiesce = false → (pageOf s (.tile x)).halted = false ∨ (tileOf s x).held = true →
        (pageOf s (.tile x)).quarantined = false → (tileOf t x).active = true ∧ (tileOf t x).step = r.step ∧
          (tileOf t x).replay = r.count ∧ (tileOf t x).pc = 0 ∧ (tileOf t x).beganSf = s.sf))))

/-- PROVE_LINKS_TIMEOUT, GATEWAY_LIVE_TIMEOUT, RECOVER_DONE_TIMEOUT, CONSUMER_LOST, REPLAN_LATE, CHARGE_AGE_OUT, RS_CMD_GO,
ROSTER_WRITE, EL_CLEAR and TILE_QUARANTINE_COMMAND. -/
def Obligations.RecoveryWatch : Prop :=
  (∀ s : State, let p := s.rseq.prove
    (p.phase = 1 → p.startSf + 2 ^ fldV s .rseq 0x50 4 0 ≤ s.sf → Answers .proveLinksTimeout s (fun t =>
      t.rseq.prove.phase = 5 ∧ t.rseq.prove.reason = 1 ∧ rosterSt t p.subject = 3 ∧
      (pageOf t .rseq).classSeen.getLsbD 2 = true)) ∧
    (p.phase ≠ 1 ∨ s.sf < p.startSf + 2 ^ fldV s .rseq 0x50 4 0 → exec .proveLinksTimeout s = .next s)) ∧
  (∀ (s : State) (g : Fin 2048) (n : Nat), quorum s = true → s.rseq.watchSf = some n →
    (n + 4096 ≤ s.sf → g.val ≠ gw s → g.val ∈ activeGws s → g.val ∉ s.rseq.lost → isLive s g.val = false →
      Answers (.gatewayLiveTimeout g) s (fun t => t.rseq.lost = g.val :: s.rseq.lost ∧
        (pageOf t .rseq).classSeen.getLsbD 3 = true)) ∧
    (isLive s g.val = true ∨ s.sf < n + 4096 → exec (.gatewayLiveTimeout g) s = .next s)) ∧
  (∀ (s : State) (job : BitVec 16) (g : Fin 2048), quorum s = true → let r := jobRec s job.toNat
    (3 ≤ r.level → g.val ∈ awaited s r → mget? r.done g.val = none → r.startSf + 2 ^ fldV s .rseq 0x50 4 0 ≤ s.sf →
      Answers (.recoverDoneTimeout job g) s (fun t => g.val ∈ t.rseq.lost ∧ (pageOf t .rseq).classSeen.getLsbD 3 = true)) ∧
    (s.sf < r.startSf + 2 ^ fldV s .rseq 0x50 4 0 → exec (.recoverDoneTimeout job g) s = .next s)) ∧
  (∀ (s : State) (cell : Fin 16384) (rank : Nat) (o : OwedChunk) (org : Origin) (st : BitVec 8), let cl := cellOf s cell.val
    cl.st = .complete → cl.deliv = [(rank, [o])] → mget? cl.bound rank = some (org, st) →
    let late := o.silent = true ∧ o.acked = false ∧ o.sf + 2 ^ fldV s .rseq 0x50 28 24 ≤ s.sf
    (late → Answers (.consumerLost cell) s (fun t =>
      cellOf t cell.val = { cl with deliv := [(rank, [{ o with sf := s.sf }])] } ∧
      (pageOf t (tmOf s org)).classSeen.getLsbD 3 = true)) ∧
    (¬late → exec (.consumerLost cell) s = .next s)) ∧
  (∀ (s : State) (slot : Fin 2) (n : Nat), mget? s.rseq.heldSf slot.val = some n → (slotOf s slot.val).st = .held →
    exec (.replanLate slot) s = .next (if s.sf < n + 2 ^ fldV s .rseq 0x50 12 8 then s
      else raise { s with rseq := { s.rseq with heldSf := mdel s.rseq.heldSf slot.val } } .rseq 0x3706 0)) ∧
  (∀ (s : State) (x : Fin 64), Answers (.chargeAgeOut x) s (fun t => mget t.rseq.charges x [] =
      (mget s.rseq.charges x []).filter (fun n => s.sf < n + 2 ^ fldV s .rseq 0x50 20 16) ∧
    (∀ y, y ≠ x → mget t.rseq.charges y [] = mget s.rseq.charges y []) ∧ OnlyChanges [.rseq] s t)) ∧
  (∀ (s : State) (ag : Agent) (level : Fin 8) (job : BitVec 16), Writable s ag .rseq →
    (level.val = 3 ∨ level.val = 5 → s.lt.st = .master → Answers (.rsCmdGo ag level job) s (fun t =>
      OnlyChanges [.pages, .rseq] s t ∧ ∃ r, t.rseq.loop = s.rseq.loop ++ [.rcv r] ∧ r.mkind = 0x10 ∧ r.code = 0 ∧
        r.level.toNat = level.val ∧ ciidJob r.ciid = job.toNat)) ∧
    (level.val ≠ 3 → level.val ≠ 5 → Answers (.rsCmdGo ag level job) s (fun t => ∃ u,
      u = raise s .rseq 0x2008 (0x54 + 4096 * agentNum ag) ∧ t = setPage u .rseq { pageOf u .rseq with cfgRefused := true }))) ∧
  (∀ (s : State) (ag : Agent) (v : Word) (g : Nat), Writable s ag .rseq → fldV s .rseq 0x60 10 0 = g →
    fld (regAccepted (pageOf s .rseq) .rseq 0x60 0).toNat 10 0 = g →
    let was := fld (regAccepted (pageOf s .rseq) .rseq 0x64 g).toNat 1 0
    (v.toNat % 4 = 3 ∨ (v.toNat % 4 = 1 ∧ was = 0) → Answers (.rosterWrite ag 0 v) s (fun t =>
      rosterSt t g = v.toNat % 4 ∧ (∀ x, x ≠ g → rosterSt t x = rosterSt s x) ∧
      (∃ e ∈ t.elog.ring, e.kind = 4 ∧ e.sf = s.sf) ∧ t.mode = s.mode)) ∧
    (v.toNat % 4 = 1 → was ≠ 0 → Answers (.rosterWrite ag 0 v) s (fun t => ∃ u,
      u = raise s .rseq 0x2008 (0x64 + 4096 * agentNum ag) ∧ t = setPage u .rseq { pageOf u .rseq with cfgRefused := true })) ∧
    Answers (.rosterWrite ag 1 v) s (fun t => rosterFp t g % 2 ^ 32 = v.toNat ∧ rosterSt t g = rosterSt s g)) ∧
  (∀ (s : State) (ag : Agent), Writable s ag .elog → Answers (.elClear ag) s (fun t => t.elog.ring = [] ∧
    t.elog.flash = s.elog.flash ∧ t.elog.wrapped = s.elog.wrapped ∧ OnlyChanges [.elog, .pages] s t)) ∧
  (∀ (s : State) (x : Fin 64),
    (s.mode = some .test → (pageOf s (.tile x)).quarantined = false → Answers (.tileQuarantineCommand x) s (fun t =>
      (pageOf t (.tile x)).quarantined = true ∧ x ∈ t.trays.removed ∧ (tileOf t x).flight = [] ∧
      ((pageOf t (.tile x)).classSeen.getLsbD 3 = true ∨ (pageOf t .rseq).classSeen.getLsbD 3 = true))) ∧
    (s.mode ≠ some .test → exec (.tileQuarantineCommand x) s = .next s))

/-- IMG_WRITE, IMG_COMMIT, BOOT_GO, FLASH_STORE, FLASH_LOAD, BOOT_QUERY and MODE_ENTRY. -/
def Obligations.ImagesAndModes : Prop :=
  (∀ (s : State) (via : Via) (p : Packet) (k : Ctx) (u : State), Accepted s via p k u →
    let kind := p.hdr.aux.toNat
    let i := p.hdr.chunkIndex.toNat
    let n := p.hdr.chunkCount.toNat
    let b := mget u.boot.staged kind LoadBuf.none
    let done := fun (v : State) (bytes : Bytes) => Host.Outcome.next (settle k (sendComplete v k.org p.hdr 0 bytes, .done 0))
    (p.hdr.opcode = 0x70 →
      (kind ≠ 7 → u.mode ≠ some .bare → exec (.imgWrite via p) s = .next (settle k (u, .refuse 0x220F))) ∧
      (kind = 7 ∨ u.mode = some .bare → i < n → i = 0 ∨ b.count = n → exec (.imgWrite via p) s =
        done { u with boot := { u.boot with
          staged := mset u.boot.staged kind (if i = 0 then ⟨n, [(0, p.payload)], []⟩ else ⟨n, mset b.chunks i p.payload, b.trays⟩),
          refused := u.boot.refused.filter (· != kind) } } [])) ∧
    (p.hdr.opcode = 0x71 → kind = 7 ∨ u.mode = some .bare →
      let bad := if kind = 7 then policyBad u b b.bytes else containerBad kind b b.bytes
      Answers (.imgCommit via p) s (fun t => (bad ≠ 0 → t.boot.objs = u.boot.objs ∧ kind ∈ t.boot.refused) ∧
        (bad = 0 → (∃ o, mget? t.boot.objs kind = some o ∧ o.whole = b.bytes ∧
            (kind ≠ 7 → o.epoch = beAt b.bytes 12 2 ∧ o.build = beAt b.bytes 8 4 ∧ o.hash = slice b.bytes 20 32)) ∧
          mget? t.boot.staged kind = none ∧ (∀ x, x ≠ kind → mget? t.boot.objs x = mget? u.boot.objs x)))) ∧
    (p.hdr.opcode = 0x72 → u.mode = some .bare → let m := p.hdr.arg0.toNat % 4
      (∀ x : Nat, 1 ≤ x → x ≤ 5 → mget? u.boot.objs x = none → (∀ y, 1 ≤ y → y < x → (mget? u.boot.objs y).isSome = true) →
        Answers (.bootGo via p) s (fun t => t.mode = some .bare ∧ t.boot.going = u.boot.going ∧ t.boot.lastCode = 0x2404 ∧
          t.boot.objs = u.boot.objs ∧ (pageOf t .boot).classSeen.getLsbD 2 = true)) ∧
      ((∀ x, 1 ≤ x → x ≤ 5 → (mget? u.boot.objs x).isSome = true) → m = 1 ∨ u.boot.idState = 1 → lists u 5 true = true →
        exec (.bootGo via p) s = done { u with boot := { u.boot with
          lastMode := m, lastCode := 0, going := some (modeOf m), stage := 4, waiver := false } } [])) ∧
    (p.hdr.opcode = 0x73 → Answers (.flashStore via p) s (fun t => (∀ x o, x ∈ [1, 2, 3, 4, 5, 7] →
      mget? u.boot.objs x = some o → mget? t.boot.stored x = some (o.whole ++ flashMac u x o.whole)) ∧
      (∀ x, x = 6 ∨ mget? u.boot.objs x = none → mget? t.boot.stored x = none) ∧ t.boot.objs = u.boot.objs)) ∧
    (p.hdr.opcode = 0x74 → u.mode = some .bare → ∀ l : Bytes, u.boot.stored = [(7, l ++ flashMac u 7 l)] →
      (flashMac u 7 l).length = 32 → u.boot.idState = 1 → policyBad u ⟨1, [(0, l)], []⟩ l = 0 →
      Answers (.flashLoad via p) s (fun t => ∃ o, mget? t.boot.objs 7 = some o ∧ o.whole = l)) ∧
    (p.hdr.opcode = 0x75 → exec (.bootQuery via p) s = done u (bootReport u) ∧ (bootReport u).length = 72)) ∧
  (∀ (s : State) (failed : BitVec 32) (ms : BitVec 16) (m : Mode), s.boot.going = some m →
    (s.mode = some .bare → sq1Waits s = false → s.cpw.held = [] → 61 ≤ ms.toNat → m ≠ .bare → Answers (.modeEntry failed ms) s (fun t =>
      t.mode = some m ∧ t.boot.going = none ∧ t.boot.stage = 5 ∧ t.boot.goMs = ms.toNat ∧ t.boot.staged = [] ∧
      t.boot.objs = s.boot.objs ∧ (∀ q, sqEn t q = false) ∧
      (∀ (q : Fin 4) (i : Nat), i < 8 → (mget t.boot.devOk q 0).getLsbD i = !failed.getLsbD (8 * q.val + i)) ∧
      (failed ≠ 0 → (pageOf t .boot).classSeen.getLsbD 4 = true) ∧
      (∀ i, (bay s i).present = true → (bay s i).st = .empty → (bay t i).st = .powering))) ∧
    (s.mode ≠ some .bare ∨ sq1Waits s = true ∨ s.cpw.held ≠ [] ∨ ms.toNat < 61 → exec (.modeEntry failed ms) s = .next s))

/-- VIN_CONTACT, VIN_LOSS, POWER_UP, PUF_RETRY, INPUT_FUSE_OPEN, FUNCTION_LEVEL_RESET, PERST_DEASSERT, PCIE_CONFIG_REQUEST,
HOST_LINK_LOSS and CTR_LO_READ. The instant of BARE is the model's choice (log entry 59). -/
def Obligations.PowerHostAndCounters : Prop :=
  (∀ (s : State) (absent : Nat), exec (.vinContact absent) s = .next (if s.boot.vin ∨ s.boot.fuse then s
    else { s with boot := { s.boot with vin := true, trip := s.boot.trip && decide (absent < 1000) } })) ∧
  (∀ (s : State) (torn : List (Nat × Nat)),
    (s.boot.vin = true → Answers (.vinLoss torn) s (fun t => t.mode = none ∧ t.boot.vin = false ∧ t.boot.reg = false ∧
      t.boot.objs = [] ∧ t.pages = State.reset.pages ∧ t.coll = State.reset.coll ∧ t.plans = State.reset.plans ∧
      t.ciph.links = [] ∧ t.i3c = State.reset.i3c ∧ t.pending = s.pending ∧ t.out = s.out ∧ t.boot.helper = s.boot.helper ∧
      (torn = [] → t.boot.stored = s.boot.stored ∧ t.elog.flash = s.elog.flash ∧ t.light.p0s = s.light.p0s))) ∧
    (s.boot.vin = false → exec (.vinLoss torn) s = .next s) ∧
    (s.boot.vin = true → Answers .inputFuseOpen s (fun t => t.mode = none ∧ t.boot.vin = false ∧ t.boot.fuse = true ∧
      t.boot.objs = [] ∧ t.pages = State.reset.pages ∧ t.boot.stored = s.boot.stored))) ∧
  (∀ (s : State) (cells helper chain : Bytes) (serial : BitVec 64) (ms : Fin 3),
    let good := fun (chain : Bytes) (root : Bytes) =>
      Config.chainValid chain = true ∧ Config.leafKey chain = Config.slhPublic (hkdfExpand root sgAttest 48)
    (s.boot.vin = true → s.boot.fuse = false → s.boot.trip = false → s.boot.reg = false →
      Answers (.powerUp cells helper chain serial ms) s (fun t => t.boot.reg = true ∧ t.boot.serial = serial ∧ t.i3c.up = true ∧
        (helperOk helper = false → t.mode = some .bare ∧ t.boot.idState = 2 ∧ t.boot.cause = 1 ∧
          (pageOf t .boot).classSeen.getLsbD 4 = true) ∧
        (helperOk helper = true → match reconstruct helper cells with
          | none => t.mode = none ∧ t.boot.stage = 1
          | some (root, worst) => t.mode = some .bare ∧ t.boot.worst = worst ∧ t.boot.bareMs = 13 + ms.val ∧
            (good chain root → t.boot.idState = 1) ∧ (¬good chain root → t.boot.idState = 2)))) ∧
    (s.boot.reg = true → s.mode = none → s.boot.stage = 1 → s.boot.reads < 3 → helperOk s.boot.helper = true →
      Answers (.pufRetry cells ms) s (fun t => t.boot.reads = s.boot.reads + 1 ∧ (pageOf t .boot).classSeen.getLsbD 0 = true ∧
        match reconstruct s.boot.helper cells with
        | none => if s.boot.reads = 2 then t.mode = some .bare ∧ t.boot.idState = 2 ∧ t.boot.cause = 2 else t.mode = none
        | some (root, _) => t.mode = some .bare ∧ (good s.boot.chain root → t.boot.idState = 1))) ∧
    (s.mode ≠ none → Answers (.functionLevelReset cells ms) s (fun t => t.boot.objs = [] ∧ t.boot.staged = [] ∧
      t.boot.stored = s.boot.stored ∧ t.coll = State.reset.coll ∧ t.plans = State.reset.plans ∧ t.ciph.links = [] ∧
      t.mem = [] ∧ t.win = [] ∧ (t.mode = none ∨ t.mode = some .bare))) ∧
    (s.mode = none → exec (.functionLevelReset cells ms) s = .next s)) ∧
  (∀ (s : State) (off : BitVec 12),
    exec .perstDeassert s = .next { s with boot := { s.boot with perst := true } } ∧
    (s.boot.reg = true → s.boot.perst = true → s.mode = none → exec (.pcieConfigRequest off) s = .next (emit s .retry)) ∧
    (s.boot.reg = true → s.boot.perst = true → s.mode ≠ none → Answers (.pcieConfigRequest off) s (fun t =>
      t.boot = { s.boot with hostUp := true } ∧ (∃ w, t.out = s.out ++ [.config off.toNat w]) ∧
      OnlyChanges [.boot, .out] s t))) ∧
  (∀ s : State,
    (s.boot.hostUp = true → Answers .hostLinkLoss s (fun t => t.boot.hostUp = false ∧ t.mode = s.mode ∧ t.cpw = Cpw.reset ∧
      (∀ q : Fin 4, fldV t .cpw (0x40 + 16 * q.val) 15 0 = 0) ∧ (pageOf t .pcie).classSeen.getLsbD 1 = true ∧
      (∀ x ∈ t.fab.pulls, isWin x.org = true → ∀ o ∈ x.chunks, o.acked = true ∨ 8 ≤ o.sends) ∧
      t.plans = s.plans ∧ t.mem = s.mem)) ∧
    (s.boot.hostUp = false → exec .hostLinkLoss s = .next s)) ∧
  (∀ (s : State) (r : Fin 4) (i : Fin 256), s.mode ≠ none → exec (.ctrLoRead r .dir i) s =
    .next (emit s (if r = 1 then .readAnswer (0x1000000 + (0x800 + 8 * i.val)) 0
      else .readAnswer (0x800 + 8 * i.val) (BitVec.ofNat 32 (dirReg s (0x800 + 8 * i.val)))))) ∧
  (∀ (s : State) (r : Fin 4) (pg : PageId) (i : Fin 256), pageUp s pg = true → pg ≠ .dir →
    let a := pageAddr pg + ((if r = 1 then 0x1000000 else 0) + (0x800 + 8 * i.val))
    (r = 1 → (pageOf s pg).uctr = false → exec (.ctrLoRead r pg i) s = .next (emit s (.readAnswer a 0))) ∧
    (r ≠ 1 ∨ (pageOf s pg).uctr = true → ctrCount pg ≤ i.val →
      exec (.ctrLoRead r pg i) s = .next (emit s (.readAnswer a 0))) ∧
    (r ≠ 1 ∨ (pageOf s pg).uctr = true → i.val < ctrCount pg → 6 ≤ i.val ∨ (∀ x, pg ≠ .tile x) →
      Answers (.ctrLoRead r pg i) s (fun t =>
        t.out = s.out ++ [.readAnswer a (BitVec.ofNat 32 (ctrLo (ctrVal s pg i.val)))] ∧
        (readReg t r pg (0x804 + 8 * i.val) 0).2 = ctrHi (ctrVal s pg i.val) ∧ OnlyChanges [.pages, .out] s t)))

/-- Decode of encode, for the five layouts that have a header of their own, over every value of every field. -/
def Obligations.UnitsReadBack : Prop :=
  (∀ (h : Header) (l : Bytes), parseHdr (hdrBytes h ++ l) = h ∧ (hdrBytes h).length = 64) ∧
  (∀ r : Record, parseRec (recBytes r) = r ∧ (recBytes r).length = 64 + r.payload.length) ∧
  (∀ r : StRec, parseSt (stBytes r) = r ∧ (stBytes r).length = 64 + r.payload.length) ∧
  (∀ m : Ctl, parseCtl (ctlBytes m) = m ∧ (ctlBytes m).length = 48) ∧
  (∀ m : Rcv, parseRcv (rcvBytes m) = m ∧ (rcvBytes m).length = 64)
end

