-- ==== Sys2Proof/Laws/Maps.lean ====
section
/-! SUPPORT. Laws/Maps.lean: the laws of the finite maps: a value set is the value got, and other keys keep theirs. -/
namespace Sys2Proof.Laws
open Sys2Proof

variable {κ α : Type} [DecidableEq κ]

@[simp] theorem mget?_nil (k : κ) : mget? ([] : PMap κ α) k = none := rfl

theorem mget?_mdel_same (m : PMap κ α) (k : κ) : mget? (mdel m k) k = none := by
  induction m with
  | nil => rfl
  | cons e m ih =>
    unfold mdel at ih ⊢
    by_cases h : e.1 = k
    · simpa [h] using ih
    · simpa [h, mget?] using ih

theorem mget?_mdel_ne (m : PMap κ α) {k j : κ} (h : j ≠ k) : mget? (mdel m k) j = mget? m j := by
  induction m with
  | nil => rfl
  | cons e m ih =>
    unfold mdel at ih ⊢
    by_cases hk : e.1 = k
    · have : e.1 ≠ j := by rw [hk]; exact fun x => h x.symm
      simpa [hk, mget?, this, h.symm] using ih
    · by_cases hj : e.1 = j <;> simp_all [mget?]

@[simp] theorem mget?_mset_same (m : PMap κ α) (k : κ) (v : α) : mget? (mset m k v) k = some v := by
  simp [mset, mget?]

theorem mget?_mset_ne (m : PMap κ α) {k j : κ} (v : α) (h : j ≠ k) : mget? (mset m k v) j = mget? m j := by
  simp [mset, mget?, h.symm, mget?_mdel_ne m h]

@[simp] theorem mget_mset_same (m : PMap κ α) (k : κ) (v d : α) : mget (mset m k v) k d = v := by
  simp [mget]

theorem mget_mset_ne (m : PMap κ α) {k j : κ} (v d : α) (h : j ≠ k) : mget (mset m k v) j d = mget m j d := by
  simp [mget, mget?_mset_ne m v h]

end Sys2Proof.Laws
end

