-- ==== Sys2Proof/Laws/Regs.lean ====
section
/-! SUPPORT. Laws/Regs.lean: what an accepted write of a register page does: pages as a map, pending values, and the one lemma
about `writeField`. -/
namespace Sys2Proof.Laws
open Sys2Proof Sys2Proof.Machine

/-! ## Pages -/

@[simp] theorem pageOf_setPage (s : State) (pg : PageId) (p : Page) : pageOf (setPage s pg p) pg = p := by
  simp [pageOf, setPage]

theorem pageOf_setPage_ne (s : State) {pg q : PageId} (p : Page) (h : q ≠ pg) : pageOf (setPage s pg p) q = pageOf s q := by
  simp [pageOf, setPage, mget_mset_ne _ _ _ h]

theorem setPage_onlyPage (s : State) (pg : PageId) (p : Page) : OnlyPage pg s (setPage s pg p) := by
  refine ⟨?_, fun q h => pageOf_setPage_ne s p h⟩
  intro x hx
  cases x <;> simp_all [Part.same, setPage]

theorem onlyChanges_trans {ps qs : List Part} {s t u : State} (h : OnlyChanges ps s t) (g : OnlyChanges qs t u) :
    OnlyChanges (ps ++ qs) s u := by
  intro p hp
  have a := h p (fun x => hp (List.mem_append.2 (.inl x)))
  have b := g p (fun x => hp (List.mem_append.2 (.inr x)))
  cases p <;> simp_all [Part.same]

theorem onlyChanges_refl (ps : List Part) (s : State) : OnlyChanges ps s s := by
  intro p _; cases p <;> rfl

theorem onlyChanges_mono {ps qs : List Part} {s t : State} (h : OnlyChanges ps s t) (hs : ∀ p, p ∈ ps → p ∈ qs) :
    OnlyChanges qs s t := fun p hp => h p (fun x => hp (hs p x))

theorem onlyPage_trans {pg : PageId} {s t u : State} (h : OnlyPage pg s t) (g : OnlyPage pg t u) : OnlyPage pg s u :=
  ⟨onlyChanges_mono (onlyChanges_trans h.1 g.1) (by simp), fun q hq => (g.2 q hq).trans (h.2 q hq)⟩

/-! ## Pending values -/

theorem mget?_foldr_mset {κ α : Type} [DecidableEq κ] (l r : PMap κ α) (k : κ) :
    mget? (l.foldr (fun e r => mset r e.1 e.2) r) k = (mget? l k).or (mget? r k) := by
  induction l with
  | nil => simp
  | cons e l ih =>
    by_cases h : e.1 = k
    · subst h; simp [mget?]
    · simp [mget?, h, mget?_mset_ne _ _ (Ne.symm h), ih]

/-- Applying pending values leaves every accepted value as it was. -/
theorem regAccepted_apply (p : Page) (n : Nat) (pg : PageId) (o b : Nat) :
    regAccepted (p.apply n) pg o b = regAccepted p pg o b := by
  unfold Page.apply
  split
  · rfl
  · simp only [regAccepted, regActive, mget?_nil, mget?_foldr_mset]
    cases mget? p.pend (o, b) <;> simp

/-- R47: applying pending values at an idle block changes no accepted value, no error register and no snapshot. -/
theorem applyIfIdle_wrote (s : State) (pg : PageId) (o b : Nat) :
    Wrote s (applyIfIdle s pg) pg o b (regAccepted (pageOf s pg) pg o b) := by
  unfold applyIfIdle
  split
  · refine ⟨setPage_onlyPage _ _ _, ?_⟩
    simp only [pageOf_setPage, regAccepted_apply]
    refine ⟨fun o' b' => ?_, ?_⟩
    · split
      · rename_i h; rw [h.1, h.2]
      · rfl
    · unfold Page.apply; split <;> simp
  · refine ⟨⟨onlyChanges_refl _ _, fun _ _ => rfl⟩, fun o' b' => ?_, ?_⟩
    · split
      · rename_i h; rw [h.1, h.2]
      · rfl
    · simp

/-- The fields of a register that a write of value `v` leaves on a word. -/
def fieldsOver (d : RegDef) (w v : Nat) : Nat :=
  (d.flds.filter (fun f => f.acc == .rw)).foldl (fun w f => setFld w f.hi f.lo (fld v f.hi f.lo)) w

/-- R48: whether a written value meets every field's range. -/
def rangesOk (d : RegDef) (v : Nat) : Bool :=
  !d.flds.any (fun f => f.acc == .rw && !inRange f.rng (fld v f.hi f.lo))

theorem foldl_congr_mem {α β : Type} (f g : β → α → β) (l : List α) (h : ∀ b a, a ∈ l → f b a = g b a) (b : β) :
    l.foldl f b = l.foldl g b := by
  induction l generalizing b with
  | nil => rfl
  | cons a l ih =>
    simp only [List.foldl_cons]
    rw [h b a (by simp)]
    exact ih (fun b a' ha => h b a' (by simp [ha])) _

/-- R47, R48, R51: an accepted write of a register without E-class fields: the value written is the accepted value. -/
theorem writeField_wrote (s : State) (ag : Agent) (pg : PageId) (off v : Nat) (d : RegDef) (hd : regDef? pg off = some d)
    (hag : mayWriteAll ag pg = true) (hr : rangesOk d v = true)
    (hx : extraRefusal s pg off (bankOf (pageOf s pg) pg d) v = 0)
    (hc : ∀ f ∈ d.flds, f.cls = .live) :
    ∃ t, writeField s ag pg off v = (t, 0) ∧
      Wrote s t pg off (bankOf (pageOf s pg) pg d)
        (BitVec.ofNat 32 (fieldsOver d (regAccepted (pageOf s pg) pg off (bankOf (pageOf s pg) pg d)).toNat v)) := by
  have hi : d.flds.any (fun f => f.cls == .idle &&
      (if f.acc = .rw then fld v f.hi f.lo !=
        fld (regAccepted (pageOf s pg) pg off (bankOf (pageOf s pg) pg d)).toNat f.hi f.lo else fld v f.hi f.lo != 0)) = false := by
    rw [List.any_eq_false]; intro f hf; simp [hc f hf]
  have he : ∀ w, (d.flds.filter (fun f => f.acc == .rw)).foldl
      (fun w f => if f.cls = .epoch then w else setFld w f.hi f.lo (fld v f.hi f.lo)) w = fieldsOver d w v := by
    intro w
    apply foldl_congr_mem
    intro b a ha
    simp [hc a (List.mem_filter.1 ha).1]
  have hp : (d.flds.filter (fun f => f.acc == .rw)).any (fun f => f.cls == .epoch &&
      fld (fieldsOver d (regAccepted (pageOf s pg) pg off (bankOf (pageOf s pg) pg d)).toNat v) f.hi f.lo !=
      fld (fieldsOver d (regActive (pageOf s pg) pg off (bankOf (pageOf s pg) pg d)).toNat v) f.hi f.lo) = false := by
    rw [List.any_eq_false]; intro f hf; simp [hc f (List.mem_filter.1 hf).1]
  have hr' : d.flds.any (fun f => f.acc == .rw && !inRange f.rng (fld v f.hi f.lo)) = false := by
    simpa [rangesOk] using hr
  generalize hb : bankOf (pageOf s pg) pg d = b at *
  unfold writeField
  simp only [hd, hb, hx, hr', hi, hag, he]
  simp only [fieldsOver] at hp
  simp only [fieldsOver, hp]
  simp only [Bool.not_true, Bool.and_false, Bool.false_eq_true, if_false, Bool.false_or, Bool.or_false,
    show ((0 : Nat) = 0x2008) = False by simp, decide_false, ne_eq, not_true, Bool.false_and]
  refine ⟨_, rfl, ?_⟩
  set p := pageOf s pg with hpdef
  set w := BitVec.ofNat 32 (fieldsOver d (regAccepted p pg off b).toNat v) with hw
  -- the page before pending values apply
  suffices h : ∀ q : Page, (∀ o c, regAccepted q pg o c = if o = off ∧ c = b then w else regAccepted p pg o c) →
      q.enable = p.enable ∧ q.quiesce = p.quiesce ∧ q.halted = p.halted ∧ q.quarantined = p.quarantined ∧
      q.classSeen = p.classSeen ∧ q.firstValid = p.firstValid ∧ q.cfgRefused = p.cfgRefused ∧ q.permRefused = p.permRefused ∧
      q.irq = p.irq ∧ q.firstCode = p.firstCode ∧ q.firstSf = p.firstSf ∧ q.firstInfo = p.firstInfo ∧
      q.errCount = p.errCount ∧ q.uctr = p.uctr ∧ q.upage = p.upage ∧ q.latch = p.latch →
      Wrote s (applyIfIdle (setPage s pg q) pg) pg off b w by
    cases hpend : mget? p.pend (off, b) with
    | none =>
      have heq : regAccepted p pg off b = regActive p pg off b := by simp [regAccepted, hpend]
      apply h
      · intro o c
        simp only [Option.isSome, Bool.false_eq_true, if_false]
        by_cases hoc : o = off ∧ c = b
        · rw [if_pos hoc, hoc.1, hoc.2]
          simp [regAccepted, hpend, regActive, hw, fieldsOver]
        · have : (o, c) ≠ (off, b) := by simpa using hoc
          rw [if_neg hoc]
          simp [regAccepted, regActive, mget?_mset_ne _ _ this]
      · simp
    | some x =>
      apply h
      · intro o c
        by_cases hoc : o = off ∧ c = b
        · rw [if_pos hoc, hoc.1, hoc.2]
          simp [regAccepted, hw, fieldsOver, hpend]
        · have : (o, c) ≠ (off, b) := by simpa using hoc
          rw [if_neg hoc]
          simp [regAccepted, regActive, mget?_mset_ne _ _ this]
      · simp
  intro q hq hrest
  have ha := applyIfIdle_wrote (setPage s pg q) pg off b
  simp only [Wrote, pageOf_setPage] at ha
  refine ⟨onlyPage_trans (setPage_onlyPage s pg q) ha.1, ?_⟩
  rw [← hpdef]
  refine ⟨fun o c => ?_, ?_⟩
  · rw [ha.2.1 o c]
    by_cases hoc : o = off ∧ c = b
    · rw [if_pos hoc, if_pos hoc, hq, if_pos ⟨rfl, rfl⟩]
    · rw [if_neg hoc, if_neg hoc, hq, if_neg hoc]
  · have hb := ha.2.2
    grind

/-- A write of a responding page's register by an agent with rights that its fields accept: the fields, then what the register does
beyond them. -/
theorem pageWrite_accepted (s : State) (ag : Agent) (pg : PageId) (off v : Nat) (d : RegDef) (h : pageUp s pg = true)
    (hm : mayWriteAll ag pg = true)
    (ho : 0x40 ≤ off) (ho2 : off < 0x800) (hd : regDef? pg off = some d)
    (hw : writeReg s ag pg off v = writeField s ag pg off v) (h0 : (writeField s ag pg off v).2 = 0) :
    (pageWrite s ag pg off v).1 = afterWrite s (writeField s ag pg off v).1 pg off v := by
  have h1 : ¬ (off ≥ 0x800) := by omega
  have h2 : ¬ (off < 0x40) := by omega
  simp [pageWrite, h, doWrite, h1, h2, hw, h0, hd, hm]

end Sys2Proof.Laws
end

