-- ==== Sys2Proof/Laws/State.lean ====
section
/-! SUPPORT. Laws/State.lean: what the named updates of the state leave alone, one lemma per update and field, and what they
set. Every lemma is true by definition. -/
namespace Sys2Proof.Laws
open Sys2Proof Sys2Proof.Machine

/-! ### `setPage` -/

@[simp] theorem setPage_pending (s : State) (pg : PageId) (p : Page) :
    (setPage s pg p).pending = s.pending := rfl
@[simp] theorem setPage_mode (s : State) (pg : PageId) (p : Page) :
    (setPage s pg p).mode = s.mode := rfl
@[simp] theorem setPage_sf (s : State) (pg : PageId) (p : Page) :
    (setPage s pg p).sf = s.sf := rfl
@[simp] theorem setPage_ctr (s : State) (pg : PageId) (p : Page) :
    (setPage s pg p).ctr = s.ctr := rfl
@[simp] theorem setPage_out (s : State) (pg : PageId) (p : Page) :
    (setPage s pg p).out = s.out := rfl
@[simp] theorem setPage_cpw (s : State) (pg : PageId) (p : Page) :
    (setPage s pg p).cpw = s.cpw := rfl
@[simp] theorem setPage_i3c (s : State) (pg : PageId) (p : Page) :
    (setPage s pg p).i3c = s.i3c := rfl
@[simp] theorem setPage_fab (s : State) (pg : PageId) (p : Page) :
    (setPage s pg p).fab = s.fab := rfl
@[simp] theorem setPage_trays (s : State) (pg : PageId) (p : Page) :
    (setPage s pg p).trays = s.trays := rfl
@[simp] theorem setPage_mem (s : State) (pg : PageId) (p : Page) :
    (setPage s pg p).mem = s.mem := rfl
@[simp] theorem setPage_win (s : State) (pg : PageId) (p : Page) :
    (setPage s pg p).win = s.win := rfl
@[simp] theorem setPage_poison (s : State) (pg : PageId) (p : Page) :
    (setPage s pg p).poison = s.poison := rfl
@[simp] theorem setPage_coll (s : State) (pg : PageId) (p : Page) :
    (setPage s pg p).coll = s.coll := rfl
@[simp] theorem setPage_plans (s : State) (pg : PageId) (p : Page) :
    (setPage s pg p).plans = s.plans := rfl
@[simp] theorem setPage_power (s : State) (pg : PageId) (p : Page) :
    (setPage s pg p).power = s.power := rfl
@[simp] theorem setPage_egress (s : State) (pg : PageId) (p : Page) :
    (setPage s pg p).egress = s.egress := rfl
@[simp] theorem setPage_elog (s : State) (pg : PageId) (p : Page) :
    (setPage s pg p).elog = s.elog := rfl
@[simp] theorem setPage_rseq (s : State) (pg : PageId) (p : Page) :
    (setPage s pg p).rseq = s.rseq := rfl
@[simp] theorem setPage_lt (s : State) (pg : PageId) (p : Page) :
    (setPage s pg p).lt = s.lt := rfl
@[simp] theorem setPage_refills (s : State) (pg : PageId) (p : Page) :
    (setPage s pg p).refills = s.refills := rfl
@[simp] theorem setPage_police (s : State) (pg : PageId) (p : Page) :
    (setPage s pg p).police = s.police := rfl
@[simp] theorem setPage_rr (s : State) (pg : PageId) (p : Page) :
    (setPage s pg p).rr = s.rr := rfl
@[simp] theorem setPage_lineTx (s : State) (pg : PageId) (p : Page) :
    (setPage s pg p).lineTx = s.lineTx := rfl
@[simp] theorem setPage_outer (s : State) (pg : PageId) (p : Page) :
    (setPage s pg p).outer = s.outer := rfl
@[simp] theorem setPage_stTx (s : State) (pg : PageId) (p : Page) :
    (setPage s pg p).stTx = s.stTx := rfl
@[simp] theorem setPage_stTag (s : State) (pg : PageId) (p : Page) :
    (setPage s pg p).stTag = s.stTag := rfl
@[simp] theorem setPage_tdec (s : State) (pg : PageId) (p : Page) :
    (setPage s pg p).tdec = s.tdec := rfl
@[simp] theorem setPage_commits (s : State) (pg : PageId) (p : Page) :
    (setPage s pg p).commits = s.commits := rfl
@[simp] theorem setPage_line (s : State) (pg : PageId) (p : Page) :
    (setPage s pg p).line = s.line := rfl
@[simp] theorem setPage_ciph (s : State) (pg : PageId) (p : Page) :
    (setPage s pg p).ciph = s.ciph := rfl
@[simp] theorem setPage_boot (s : State) (pg : PageId) (p : Page) :
    (setPage s pg p).boot = s.boot := rfl
@[simp] theorem setPage_ptp (s : State) (pg : PageId) (p : Page) :
    (setPage s pg p).ptp = s.ptp := rfl
@[simp] theorem setPage_tsq (s : State) (pg : PageId) (p : Page) :
    (setPage s pg p).tsq = s.tsq := rfl
@[simp] theorem setPage_tio (s : State) (pg : PageId) (p : Page) :
    (setPage s pg p).tio = s.tio := rfl
@[simp] theorem setPage_late (s : State) (pg : PageId) (p : Page) :
    (setPage s pg p).late = s.late := rfl
@[simp] theorem setPage_light (s : State) (pg : PageId) (p : Page) :
    (setPage s pg p).light = s.light := rfl
@[simp] theorem setPage_ledger (s : State) (pg : PageId) (p : Page) :
    (setPage s pg p).ledger = s.ledger := rfl
@[simp] theorem setPage_therm (s : State) (pg : PageId) (p : Page) :
    (setPage s pg p).therm = s.therm := rfl
@[simp] theorem setPage_pondBw (s : State) (pg : PageId) (p : Page) :
    (setPage s pg p).pondBw = s.pondBw := rfl
@[simp] theorem setPage_pondCtr (s : State) (pg : PageId) (p : Page) :
    (setPage s pg p).pondCtr = s.pondCtr := rfl
@[simp] theorem setPage_pondPrio (s : State) (pg : PageId) (p : Page) :
    (setPage s pg p).pondPrio = s.pondPrio := rfl
@[simp] theorem setPage_msix (s : State) (pg : PageId) (p : Page) :
    (setPage s pg p).msix = s.msix := rfl
@[simp] theorem setPage_clk (s : State) (pg : PageId) (p : Page) :
    (setPage s pg p).clk = s.clk := rfl

/-! ### `emit` -/

@[simp] theorem emit_pending (s : State) (e : Emission) :
    (emit s e).pending = s.pending := rfl
@[simp] theorem emit_mode (s : State) (e : Emission) :
    (emit s e).mode = s.mode := rfl
@[simp] theorem emit_sf (s : State) (e : Emission) :
    (emit s e).sf = s.sf := rfl
@[simp] theorem emit_pages (s : State) (e : Emission) :
    (emit s e).pages = s.pages := rfl
@[simp] theorem emit_ctr (s : State) (e : Emission) :
    (emit s e).ctr = s.ctr := rfl
@[simp] theorem emit_cpw (s : State) (e : Emission) :
    (emit s e).cpw = s.cpw := rfl
@[simp] theorem emit_i3c (s : State) (e : Emission) :
    (emit s e).i3c = s.i3c := rfl
@[simp] theorem emit_fab (s : State) (e : Emission) :
    (emit s e).fab = s.fab := rfl
@[simp] theorem emit_trays (s : State) (e : Emission) :
    (emit s e).trays = s.trays := rfl
@[simp] theorem emit_mem (s : State) (e : Emission) :
    (emit s e).mem = s.mem := rfl
@[simp] theorem emit_win (s : State) (e : Emission) :
    (emit s e).win = s.win := rfl
@[simp] theorem emit_poison (s : State) (e : Emission) :
    (emit s e).poison = s.poison := rfl
@[simp] theorem emit_coll (s : State) (e : Emission) :
    (emit s e).coll = s.coll := rfl
@[simp] theorem emit_plans (s : State) (e : Emission) :
    (emit s e).plans = s.plans := rfl
@[simp] theorem emit_power (s : State) (e : Emission) :
    (emit s e).power = s.power := rfl
@[simp] theorem emit_egress (s : State) (e : Emission) :
    (emit s e).egress = s.egress := rfl
@[simp] theorem emit_elog (s : State) (e : Emission) :
    (emit s e).elog = s.elog := rfl
@[simp] theorem emit_rseq (s : State) (e : Emission) :
    (emit s e).rseq = s.rseq := rfl
@[simp] theorem emit_lt (s : State) (e : Emission) :
    (emit s e).lt = s.lt := rfl
@[simp] theorem emit_refills (s : State) (e : Emission) :
    (emit s e).refills = s.refills := rfl
@[simp] theorem emit_police (s : State) (e : Emission) :
    (emit s e).police = s.police := rfl
@[simp] theorem emit_rr (s : State) (e : Emission) :
    (emit s e).rr = s.rr := rfl
@[simp] theorem emit_lineTx (s : State) (e : Emission) :
    (emit s e).lineTx = s.lineTx := rfl
@[simp] theorem emit_outer (s : State) (e : Emission) :
    (emit s e).outer = s.outer := rfl
@[simp] theorem emit_stTx (s : State) (e : Emission) :
    (emit s e).stTx = s.stTx := rfl
@[simp] theorem emit_stTag (s : State) (e : Emission) :
    (emit s e).stTag = s.stTag := rfl
@[simp] theorem emit_tdec (s : State) (e : Emission) :
    (emit s e).tdec = s.tdec := rfl
@[simp] theorem emit_commits (s : State) (e : Emission) :
    (emit s e).commits = s.commits := rfl
@[simp] theorem emit_line (s : State) (e : Emission) :
    (emit s e).line = s.line := rfl
@[simp] theorem emit_ciph (s : State) (e : Emission) :
    (emit s e).ciph = s.ciph := rfl
@[simp] theorem emit_boot (s : State) (e : Emission) :
    (emit s e).boot = s.boot := rfl
@[simp] theorem emit_ptp (s : State) (e : Emission) :
    (emit s e).ptp = s.ptp := rfl
@[simp] theorem emit_tsq (s : State) (e : Emission) :
    (emit s e).tsq = s.tsq := rfl
@[simp] theorem emit_tio (s : State) (e : Emission) :
    (emit s e).tio = s.tio := rfl
@[simp] theorem emit_late (s : State) (e : Emission) :
    (emit s e).late = s.late := rfl
@[simp] theorem emit_light (s : State) (e : Emission) :
    (emit s e).light = s.light := rfl
@[simp] theorem emit_ledger (s : State) (e : Emission) :
    (emit s e).ledger = s.ledger := rfl
@[simp] theorem emit_therm (s : State) (e : Emission) :
    (emit s e).therm = s.therm := rfl
@[simp] theorem emit_pondBw (s : State) (e : Emission) :
    (emit s e).pondBw = s.pondBw := rfl
@[simp] theorem emit_pondCtr (s : State) (e : Emission) :
    (emit s e).pondCtr = s.pondCtr := rfl
@[simp] theorem emit_pondPrio (s : State) (e : Emission) :
    (emit s e).pondPrio = s.pondPrio := rfl
@[simp] theorem emit_msix (s : State) (e : Emission) :
    (emit s e).msix = s.msix := rfl
@[simp] theorem emit_clk (s : State) (e : Emission) :
    (emit s e).clk = s.clk := rfl

/-! ### `setEgQ` -/

@[simp] theorem setEgQ_pending (s : State) (p : Fin 64) (q : Fin 32) (e : EgQueue) :
    (setEgQ s p q e).pending = s.pending := rfl
@[simp] theorem setEgQ_mode (s : State) (p : Fin 64) (q : Fin 32) (e : EgQueue) :
    (setEgQ s p q e).mode = s.mode := rfl
@[simp] theorem setEgQ_sf (s : State) (p : Fin 64) (q : Fin 32) (e : EgQueue) :
    (setEgQ s p q e).sf = s.sf := rfl
@[simp] theorem setEgQ_pages (s : State) (p : Fin 64) (q : Fin 32) (e : EgQueue) :
    (setEgQ s p q e).pages = s.pages := rfl
@[simp] theorem setEgQ_ctr (s : State) (p : Fin 64) (q : Fin 32) (e : EgQueue) :
    (setEgQ s p q e).ctr = s.ctr := rfl
@[simp] theorem setEgQ_out (s : State) (p : Fin 64) (q : Fin 32) (e : EgQueue) :
    (setEgQ s p q e).out = s.out := rfl
@[simp] theorem setEgQ_cpw (s : State) (p : Fin 64) (q : Fin 32) (e : EgQueue) :
    (setEgQ s p q e).cpw = s.cpw := rfl
@[simp] theorem setEgQ_i3c (s : State) (p : Fin 64) (q : Fin 32) (e : EgQueue) :
    (setEgQ s p q e).i3c = s.i3c := rfl
@[simp] theorem setEgQ_fab (s : State) (p : Fin 64) (q : Fin 32) (e : EgQueue) :
    (setEgQ s p q e).fab = s.fab := rfl
@[simp] theorem setEgQ_trays (s : State) (p : Fin 64) (q : Fin 32) (e : EgQueue) :
    (setEgQ s p q e).trays = s.trays := rfl
@[simp] theorem setEgQ_mem (s : State) (p : Fin 64) (q : Fin 32) (e : EgQueue) :
    (setEgQ s p q e).mem = s.mem := rfl
@[simp] theorem setEgQ_win (s : State) (p : Fin 64) (q : Fin 32) (e : EgQueue) :
    (setEgQ s p q e).win = s.win := rfl
@[simp] theorem setEgQ_poison (s : State) (p : Fin 64) (q : Fin 32) (e : EgQueue) :
    (setEgQ s p q e).poison = s.poison := rfl
@[simp] theorem setEgQ_coll (s : State) (p : Fin 64) (q : Fin 32) (e : EgQueue) :
    (setEgQ s p q e).coll = s.coll := rfl
@[simp] theorem setEgQ_plans (s : State) (p : Fin 64) (q : Fin 32) (e : EgQueue) :
    (setEgQ s p q e).plans = s.plans := rfl
@[simp] theorem setEgQ_power (s : State) (p : Fin 64) (q : Fin 32) (e : EgQueue) :
    (setEgQ s p q e).power = s.power := rfl
@[simp] theorem setEgQ_elog (s : State) (p : Fin 64) (q : Fin 32) (e : EgQueue) :
    (setEgQ s p q e).elog = s.elog := rfl
@[simp] theorem setEgQ_rseq (s : State) (p : Fin 64) (q : Fin 32) (e : EgQueue) :
    (setEgQ s p q e).rseq = s.rseq := rfl
@[simp] theorem setEgQ_lt (s : State) (p : Fin 64) (q : Fin 32) (e : EgQueue) :
    (setEgQ s p q e).lt = s.lt := rfl
@[simp] theorem setEgQ_refills (s : State) (p : Fin 64) (q : Fin 32) (e : EgQueue) :
    (setEgQ s p q e).refills = s.refills := rfl
@[simp] theorem setEgQ_police (s : State) (p : Fin 64) (q : Fin 32) (e : EgQueue) :
    (setEgQ s p q e).police = s.police := rfl
@[simp] theorem setEgQ_rr (s : State) (p : Fin 64) (q : Fin 32) (e : EgQueue) :
    (setEgQ s p q e).rr = s.rr := rfl
@[simp] theorem setEgQ_lineTx (s : State) (p : Fin 64) (q : Fin 32) (e : EgQueue) :
    (setEgQ s p q e).lineTx = s.lineTx := rfl
@[simp] theorem setEgQ_outer (s : State) (p : Fin 64) (q : Fin 32) (e : EgQueue) :
    (setEgQ s p q e).outer = s.outer := rfl
@[simp] theorem setEgQ_stTx (s : State) (p : Fin 64) (q : Fin 32) (e : EgQueue) :
    (setEgQ s p q e).stTx = s.stTx := rfl
@[simp] theorem setEgQ_stTag (s : State) (p : Fin 64) (q : Fin 32) (e : EgQueue) :
    (setEgQ s p q e).stTag = s.stTag := rfl
@[simp] theorem setEgQ_tdec (s : State) (p : Fin 64) (q : Fin 32) (e : EgQueue) :
    (setEgQ s p q e).tdec = s.tdec := rfl
@[simp] theorem setEgQ_commits (s : State) (p : Fin 64) (q : Fin 32) (e : EgQueue) :
    (setEgQ s p q e).commits = s.commits := rfl
@[simp] theorem setEgQ_line (s : State) (p : Fin 64) (q : Fin 32) (e : EgQueue) :
    (setEgQ s p q e).line = s.line := rfl
@[simp] theorem setEgQ_ciph (s : State) (p : Fin 64) (q : Fin 32) (e : EgQueue) :
    (setEgQ s p q e).ciph = s.ciph := rfl
@[simp] theorem setEgQ_boot (s : State) (p : Fin 64) (q : Fin 32) (e : EgQueue) :
    (setEgQ s p q e).boot = s.boot := rfl
@[simp] theorem setEgQ_ptp (s : State) (p : Fin 64) (q : Fin 32) (e : EgQueue) :
    (setEgQ s p q e).ptp = s.ptp := rfl
@[simp] theorem setEgQ_tsq (s : State) (p : Fin 64) (q : Fin 32) (e : EgQueue) :
    (setEgQ s p q e).tsq = s.tsq := rfl
@[simp] theorem setEgQ_tio (s : State) (p : Fin 64) (q : Fin 32) (e : EgQueue) :
    (setEgQ s p q e).tio = s.tio := rfl
@[simp] theorem setEgQ_late (s : State) (p : Fin 64) (q : Fin 32) (e : EgQueue) :
    (setEgQ s p q e).late = s.late := rfl
@[simp] theorem setEgQ_light (s : State) (p : Fin 64) (q : Fin 32) (e : EgQueue) :
    (setEgQ s p q e).light = s.light := rfl
@[simp] theorem setEgQ_ledger (s : State) (p : Fin 64) (q : Fin 32) (e : EgQueue) :
    (setEgQ s p q e).ledger = s.ledger := rfl
@[simp] theorem setEgQ_therm (s : State) (p : Fin 64) (q : Fin 32) (e : EgQueue) :
    (setEgQ s p q e).therm = s.therm := rfl
@[simp] theorem setEgQ_pondBw (s : State) (p : Fin 64) (q : Fin 32) (e : EgQueue) :
    (setEgQ s p q e).pondBw = s.pondBw := rfl
@[simp] theorem setEgQ_pondCtr (s : State) (p : Fin 64) (q : Fin 32) (e : EgQueue) :
    (setEgQ s p q e).pondCtr = s.pondCtr := rfl
@[simp] theorem setEgQ_pondPrio (s : State) (p : Fin 64) (q : Fin 32) (e : EgQueue) :
    (setEgQ s p q e).pondPrio = s.pondPrio := rfl
@[simp] theorem setEgQ_msix (s : State) (p : Fin 64) (q : Fin 32) (e : EgQueue) :
    (setEgQ s p q e).msix = s.msix := rfl
@[simp] theorem setEgQ_clk (s : State) (p : Fin 64) (q : Fin 32) (e : EgQueue) :
    (setEgQ s p q e).clk = s.clk := rfl

/-! ### `setCell` -/

@[simp] theorem setCell_pending (s : State) (c : Nat) (x : Cell) :
    (setCell s c x).pending = s.pending := rfl
@[simp] theorem setCell_mode (s : State) (c : Nat) (x : Cell) :
    (setCell s c x).mode = s.mode := rfl
@[simp] theorem setCell_sf (s : State) (c : Nat) (x : Cell) :
    (setCell s c x).sf = s.sf := rfl
@[simp] theorem setCell_pages (s : State) (c : Nat) (x : Cell) :
    (setCell s c x).pages = s.pages := rfl
@[simp] theorem setCell_ctr (s : State) (c : Nat) (x : Cell) :
    (setCell s c x).ctr = s.ctr := rfl
@[simp] theorem setCell_out (s : State) (c : Nat) (x : Cell) :
    (setCell s c x).out = s.out := rfl
@[simp] theorem setCell_cpw (s : State) (c : Nat) (x : Cell) :
    (setCell s c x).cpw = s.cpw := rfl
@[simp] theorem setCell_i3c (s : State) (c : Nat) (x : Cell) :
    (setCell s c x).i3c = s.i3c := rfl
@[simp] theorem setCell_fab (s : State) (c : Nat) (x : Cell) :
    (setCell s c x).fab = s.fab := rfl
@[simp] theorem setCell_trays (s : State) (c : Nat) (x : Cell) :
    (setCell s c x).trays = s.trays := rfl
@[simp] theorem setCell_mem (s : State) (c : Nat) (x : Cell) :
    (setCell s c x).mem = s.mem := rfl
@[simp] theorem setCell_win (s : State) (c : Nat) (x : Cell) :
    (setCell s c x).win = s.win := rfl
@[simp] theorem setCell_poison (s : State) (c : Nat) (x : Cell) :
    (setCell s c x).poison = s.poison := rfl
@[simp] theorem setCell_plans (s : State) (c : Nat) (x : Cell) :
    (setCell s c x).plans = s.plans := rfl
@[simp] theorem setCell_power (s : State) (c : Nat) (x : Cell) :
    (setCell s c x).power = s.power := rfl
@[simp] theorem setCell_egress (s : State) (c : Nat) (x : Cell) :
    (setCell s c x).egress = s.egress := rfl
@[simp] theorem setCell_elog (s : State) (c : Nat) (x : Cell) :
    (setCell s c x).elog = s.elog := rfl
@[simp] theorem setCell_rseq (s : State) (c : Nat) (x : Cell) :
    (setCell s c x).rseq = s.rseq := rfl
@[simp] theorem setCell_lt (s : State) (c : Nat) (x : Cell) :
    (setCell s c x).lt = s.lt := rfl
@[simp] theorem setCell_refills (s : State) (c : Nat) (x : Cell) :
    (setCell s c x).refills = s.refills := rfl
@[simp] theorem setCell_police (s : State) (c : Nat) (x : Cell) :
    (setCell s c x).police = s.police := rfl
@[simp] theorem setCell_rr (s : State) (c : Nat) (x : Cell) :
    (setCell s c x).rr = s.rr := rfl
@[simp] theorem setCell_lineTx (s : State) (c : Nat) (x : Cell) :
    (setCell s c x).lineTx = s.lineTx := rfl
@[simp] theorem setCell_outer (s : State) (c : Nat) (x : Cell) :
    (setCell s c x).outer = s.outer := rfl
@[simp] theorem setCell_stTx (s : State) (c : Nat) (x : Cell) :
    (setCell s c x).stTx = s.stTx := rfl
@[simp] theorem setCell_stTag (s : State) (c : Nat) (x : Cell) :
    (setCell s c x).stTag = s.stTag := rfl
@[simp] theorem setCell_tdec (s : State) (c : Nat) (x : Cell) :
    (setCell s c x).tdec = s.tdec := rfl
@[simp] theorem setCell_commits (s : State) (c : Nat) (x : Cell) :
    (setCell s c x).commits = s.commits := rfl
@[simp] theorem setCell_line (s : State) (c : Nat) (x : Cell) :
    (setCell s c x).line = s.line := rfl
@[simp] theorem setCell_ciph (s : State) (c : Nat) (x : Cell) :
    (setCell s c x).ciph = s.ciph := rfl
@[simp] theorem setCell_boot (s : State) (c : Nat) (x : Cell) :
    (setCell s c x).boot = s.boot := rfl
@[simp] theorem setCell_ptp (s : State) (c : Nat) (x : Cell) :
    (setCell s c x).ptp = s.ptp := rfl
@[simp] theorem setCell_tsq (s : State) (c : Nat) (x : Cell) :
    (setCell s c x).tsq = s.tsq := rfl
@[simp] theorem setCell_tio (s : State) (c : Nat) (x : Cell) :
    (setCell s c x).tio = s.tio := rfl
@[simp] theorem setCell_late (s : State) (c : Nat) (x : Cell) :
    (setCell s c x).late = s.late := rfl
@[simp] theorem setCell_light (s : State) (c : Nat) (x : Cell) :
    (setCell s c x).light = s.light := rfl
@[simp] theorem setCell_ledger (s : State) (c : Nat) (x : Cell) :
    (setCell s c x).ledger = s.ledger := rfl
@[simp] theorem setCell_therm (s : State) (c : Nat) (x : Cell) :
    (setCell s c x).therm = s.therm := rfl
@[simp] theorem setCell_pondBw (s : State) (c : Nat) (x : Cell) :
    (setCell s c x).pondBw = s.pondBw := rfl
@[simp] theorem setCell_pondCtr (s : State) (c : Nat) (x : Cell) :
    (setCell s c x).pondCtr = s.pondCtr := rfl
@[simp] theorem setCell_pondPrio (s : State) (c : Nat) (x : Cell) :
    (setCell s c x).pondPrio = s.pondPrio := rfl
@[simp] theorem setCell_msix (s : State) (c : Nat) (x : Cell) :
    (setCell s c x).msix = s.msix := rfl
@[simp] theorem setCell_clk (s : State) (c : Nat) (x : Cell) :
    (setCell s c x).clk = s.clk := rfl

/-! ### `setTile` -/

@[simp] theorem setTile_pending (s : State) (t : Fin 64) (x : Tile) :
    (setTile s t x).pending = s.pending := rfl
@[simp] theorem setTile_mode (s : State) (t : Fin 64) (x : Tile) :
    (setTile s t x).mode = s.mode := rfl
@[simp] theorem setTile_sf (s : State) (t : Fin 64) (x : Tile) :
    (setTile s t x).sf = s.sf := rfl
@[simp] theorem setTile_pages (s : State) (t : Fin 64) (x : Tile) :
    (setTile s t x).pages = s.pages := rfl
@[simp] theorem setTile_ctr (s : State) (t : Fin 64) (x : Tile) :
    (setTile s t x).ctr = s.ctr := rfl
@[simp] theorem setTile_out (s : State) (t : Fin 64) (x : Tile) :
    (setTile s t x).out = s.out := rfl
@[simp] theorem setTile_cpw (s : State) (t : Fin 64) (x : Tile) :
    (setTile s t x).cpw = s.cpw := rfl
@[simp] theorem setTile_i3c (s : State) (t : Fin 64) (x : Tile) :
    (setTile s t x).i3c = s.i3c := rfl
@[simp] theorem setTile_fab (s : State) (t : Fin 64) (x : Tile) :
    (setTile s t x).fab = s.fab := rfl
@[simp] theorem setTile_trays (s : State) (t : Fin 64) (x : Tile) :
    (setTile s t x).trays = s.trays := rfl
@[simp] theorem setTile_mem (s : State) (t : Fin 64) (x : Tile) :
    (setTile s t x).mem = s.mem := rfl
@[simp] theorem setTile_win (s : State) (t : Fin 64) (x : Tile) :
    (setTile s t x).win = s.win := rfl
@[simp] theorem setTile_poison (s : State) (t : Fin 64) (x : Tile) :
    (setTile s t x).poison = s.poison := rfl
@[simp] theorem setTile_coll (s : State) (t : Fin 64) (x : Tile) :
    (setTile s t x).coll = s.coll := rfl
@[simp] theorem setTile_power (s : State) (t : Fin 64) (x : Tile) :
    (setTile s t x).power = s.power := rfl
@[simp] theorem setTile_egress (s : State) (t : Fin 64) (x : Tile) :
    (setTile s t x).egress = s.egress := rfl
@[simp] theorem setTile_elog (s : State) (t : Fin 64) (x : Tile) :
    (setTile s t x).elog = s.elog := rfl
@[simp] theorem setTile_rseq (s : State) (t : Fin 64) (x : Tile) :
    (setTile s t x).rseq = s.rseq := rfl
@[simp] theorem setTile_lt (s : State) (t : Fin 64) (x : Tile) :
    (setTile s t x).lt = s.lt := rfl
@[simp] theorem setTile_refills (s : State) (t : Fin 64) (x : Tile) :
    (setTile s t x).refills = s.refills := rfl
@[simp] theorem setTile_police (s : State) (t : Fin 64) (x : Tile) :
    (setTile s t x).police = s.police := rfl
@[simp] theorem setTile_rr (s : State) (t : Fin 64) (x : Tile) :
    (setTile s t x).rr = s.rr := rfl
@[simp] theorem setTile_lineTx (s : State) (t : Fin 64) (x : Tile) :
    (setTile s t x).lineTx = s.lineTx := rfl
@[simp] theorem setTile_outer (s : State) (t : Fin 64) (x : Tile) :
    (setTile s t x).outer = s.outer := rfl
@[simp] theorem setTile_stTx (s : State) (t : Fin 64) (x : Tile) :
    (setTile s t x).stTx = s.stTx := rfl
@[simp] theorem setTile_stTag (s : State) (t : Fin 64) (x : Tile) :
    (setTile s t x).stTag = s.stTag := rfl
@[simp] theorem setTile_tdec (s : State) (t : Fin 64) (x : Tile) :
    (setTile s t x).tdec = s.tdec := rfl
@[simp] theorem setTile_commits (s : State) (t : Fin 64) (x : Tile) :
    (setTile s t x).commits = s.commits := rfl
@[simp] theorem setTile_line (s : State) (t : Fin 64) (x : Tile) :
    (setTile s t x).line = s.line := rfl
@[simp] theorem setTile_ciph (s : State) (t : Fin 64) (x : Tile) :
    (setTile s t x).ciph = s.ciph := rfl
@[simp] theorem setTile_boot (s : State) (t : Fin 64) (x : Tile) :
    (setTile s t x).boot = s.boot := rfl
@[simp] theorem setTile_ptp (s : State) (t : Fin 64) (x : Tile) :
    (setTile s t x).ptp = s.ptp := rfl
@[simp] theorem setTile_tsq (s : State) (t : Fin 64) (x : Tile) :
    (setTile s t x).tsq = s.tsq := rfl
@[simp] theorem setTile_tio (s : State) (t : Fin 64) (x : Tile) :
    (setTile s t x).tio = s.tio := rfl
@[simp] theorem setTile_late (s : State) (t : Fin 64) (x : Tile) :
    (setTile s t x).late = s.late := rfl
@[simp] theorem setTile_light (s : State) (t : Fin 64) (x : Tile) :
    (setTile s t x).light = s.light := rfl
@[simp] theorem setTile_ledger (s : State) (t : Fin 64) (x : Tile) :
    (setTile s t x).ledger = s.ledger := rfl
@[simp] theorem setTile_therm (s : State) (t : Fin 64) (x : Tile) :
    (setTile s t x).therm = s.therm := rfl
@[simp] theorem setTile_pondBw (s : State) (t : Fin 64) (x : Tile) :
    (setTile s t x).pondBw = s.pondBw := rfl
@[simp] theorem setTile_pondCtr (s : State) (t : Fin 64) (x : Tile) :
    (setTile s t x).pondCtr = s.pondCtr := rfl
@[simp] theorem setTile_pondPrio (s : State) (t : Fin 64) (x : Tile) :
    (setTile s t x).pondPrio = s.pondPrio := rfl
@[simp] theorem setTile_msix (s : State) (t : Fin 64) (x : Tile) :
    (setTile s t x).msix = s.msix := rfl
@[simp] theorem setTile_clk (s : State) (t : Fin 64) (x : Tile) :
    (setTile s t x).clk = s.clk := rfl

/-! ### `setLSlot` -/

@[simp] theorem setLSlot_pending (s : State) (q : Fin 4) (k : Fin 18) (x : LSlot) :
    (setLSlot s q k x).pending = s.pending := rfl
@[simp] theorem setLSlot_mode (s : State) (q : Fin 4) (k : Fin 18) (x : LSlot) :
    (setLSlot s q k x).mode = s.mode := rfl
@[simp] theorem setLSlot_sf (s : State) (q : Fin 4) (k : Fin 18) (x : LSlot) :
    (setLSlot s q k x).sf = s.sf := rfl
@[simp] theorem setLSlot_pages (s : State) (q : Fin 4) (k : Fin 18) (x : LSlot) :
    (setLSlot s q k x).pages = s.pages := rfl
@[simp] theorem setLSlot_ctr (s : State) (q : Fin 4) (k : Fin 18) (x : LSlot) :
    (setLSlot s q k x).ctr = s.ctr := rfl
@[simp] theorem setLSlot_out (s : State) (q : Fin 4) (k : Fin 18) (x : LSlot) :
    (setLSlot s q k x).out = s.out := rfl
@[simp] theorem setLSlot_cpw (s : State) (q : Fin 4) (k : Fin 18) (x : LSlot) :
    (setLSlot s q k x).cpw = s.cpw := rfl
@[simp] theorem setLSlot_i3c (s : State) (q : Fin 4) (k : Fin 18) (x : LSlot) :
    (setLSlot s q k x).i3c = s.i3c := rfl
@[simp] theorem setLSlot_fab (s : State) (q : Fin 4) (k : Fin 18) (x : LSlot) :
    (setLSlot s q k x).fab = s.fab := rfl
@[simp] theorem setLSlot_trays (s : State) (q : Fin 4) (k : Fin 18) (x : LSlot) :
    (setLSlot s q k x).trays = s.trays := rfl
@[simp] theorem setLSlot_mem (s : State) (q : Fin 4) (k : Fin 18) (x : LSlot) :
    (setLSlot s q k x).mem = s.mem := rfl
@[simp] theorem setLSlot_win (s : State) (q : Fin 4) (k : Fin 18) (x : LSlot) :
    (setLSlot s q k x).win = s.win := rfl
@[simp] theorem setLSlot_poison (s : State) (q : Fin 4) (k : Fin 18) (x : LSlot) :
    (setLSlot s q k x).poison = s.poison := rfl
@[simp] theorem setLSlot_coll (s : State) (q : Fin 4) (k : Fin 18) (x : LSlot) :
    (setLSlot s q k x).coll = s.coll := rfl
@[simp] theorem setLSlot_plans (s : State) (q : Fin 4) (k : Fin 18) (x : LSlot) :
    (setLSlot s q k x).plans = s.plans := rfl
@[simp] theorem setLSlot_power (s : State) (q : Fin 4) (k : Fin 18) (x : LSlot) :
    (setLSlot s q k x).power = s.power := rfl
@[simp] theorem setLSlot_egress (s : State) (q : Fin 4) (k : Fin 18) (x : LSlot) :
    (setLSlot s q k x).egress = s.egress := rfl
@[simp] theorem setLSlot_elog (s : State) (q : Fin 4) (k : Fin 18) (x : LSlot) :
    (setLSlot s q k x).elog = s.elog := rfl
@[simp] theorem setLSlot_rseq (s : State) (q : Fin 4) (k : Fin 18) (x : LSlot) :
    (setLSlot s q k x).rseq = s.rseq := rfl
@[simp] theorem setLSlot_lt (s : State) (q : Fin 4) (k : Fin 18) (x : LSlot) :
    (setLSlot s q k x).lt = s.lt := rfl
@[simp] theorem setLSlot_refills (s : State) (q : Fin 4) (k : Fin 18) (x : LSlot) :
    (setLSlot s q k x).refills = s.refills := rfl
@[simp] theorem setLSlot_police (s : State) (q : Fin 4) (k : Fin 18) (x : LSlot) :
    (setLSlot s q k x).police = s.police := rfl
@[simp] theorem setLSlot_rr (s : State) (q : Fin 4) (k : Fin 18) (x : LSlot) :
    (setLSlot s q k x).rr = s.rr := rfl
@[simp] theorem setLSlot_lineTx (s : State) (q : Fin 4) (k : Fin 18) (x : LSlot) :
    (setLSlot s q k x).lineTx = s.lineTx := rfl
@[simp] theorem setLSlot_outer (s : State) (q : Fin 4) (k : Fin 18) (x : LSlot) :
    (setLSlot s q k x).outer = s.outer := rfl
@[simp] theorem setLSlot_stTx (s : State) (q : Fin 4) (k : Fin 18) (x : LSlot) :
    (setLSlot s q k x).stTx = s.stTx := rfl
@[simp] theorem setLSlot_stTag (s : State) (q : Fin 4) (k : Fin 18) (x : LSlot) :
    (setLSlot s q k x).stTag = s.stTag := rfl
@[simp] theorem setLSlot_tdec (s : State) (q : Fin 4) (k : Fin 18) (x : LSlot) :
    (setLSlot s q k x).tdec = s.tdec := rfl
@[simp] theorem setLSlot_commits (s : State) (q : Fin 4) (k : Fin 18) (x : LSlot) :
    (setLSlot s q k x).commits = s.commits := rfl
@[simp] theorem setLSlot_ciph (s : State) (q : Fin 4) (k : Fin 18) (x : LSlot) :
    (setLSlot s q k x).ciph = s.ciph := rfl
@[simp] theorem setLSlot_boot (s : State) (q : Fin 4) (k : Fin 18) (x : LSlot) :
    (setLSlot s q k x).boot = s.boot := rfl
@[simp] theorem setLSlot_ptp (s : State) (q : Fin 4) (k : Fin 18) (x : LSlot) :
    (setLSlot s q k x).ptp = s.ptp := rfl
@[simp] theorem setLSlot_tsq (s : State) (q : Fin 4) (k : Fin 18) (x : LSlot) :
    (setLSlot s q k x).tsq = s.tsq := rfl
@[simp] theorem setLSlot_tio (s : State) (q : Fin 4) (k : Fin 18) (x : LSlot) :
    (setLSlot s q k x).tio = s.tio := rfl
@[simp] theorem setLSlot_late (s : State) (q : Fin 4) (k : Fin 18) (x : LSlot) :
    (setLSlot s q k x).late = s.late := rfl
@[simp] theorem setLSlot_light (s : State) (q : Fin 4) (k : Fin 18) (x : LSlot) :
    (setLSlot s q k x).light = s.light := rfl
@[simp] theorem setLSlot_ledger (s : State) (q : Fin 4) (k : Fin 18) (x : LSlot) :
    (setLSlot s q k x).ledger = s.ledger := rfl
@[simp] theorem setLSlot_therm (s : State) (q : Fin 4) (k : Fin 18) (x : LSlot) :
    (setLSlot s q k x).therm = s.therm := rfl
@[simp] theorem setLSlot_pondBw (s : State) (q : Fin 4) (k : Fin 18) (x : LSlot) :
    (setLSlot s q k x).pondBw = s.pondBw := rfl
@[simp] theorem setLSlot_pondCtr (s : State) (q : Fin 4) (k : Fin 18) (x : LSlot) :
    (setLSlot s q k x).pondCtr = s.pondCtr := rfl
@[simp] theorem setLSlot_pondPrio (s : State) (q : Fin 4) (k : Fin 18) (x : LSlot) :
    (setLSlot s q k x).pondPrio = s.pondPrio := rfl
@[simp] theorem setLSlot_msix (s : State) (q : Fin 4) (k : Fin 18) (x : LSlot) :
    (setLSlot s q k x).msix = s.msix := rfl
@[simp] theorem setLSlot_clk (s : State) (q : Fin 4) (k : Fin 18) (x : LSlot) :
    (setLSlot s q k x).clk = s.clk := rfl

/-! ### `setLLink` -/

@[simp] theorem setLLink_pending (s : State) (l : LinkId) (x : LLink) :
    (setLLink s l x).pending = s.pending := rfl
@[simp] theorem setLLink_mode (s : State) (l : LinkId) (x : LLink) :
    (setLLink s l x).mode = s.mode := rfl
@[simp] theorem setLLink_sf (s : State) (l : LinkId) (x : LLink) :
    (setLLink s l x).sf = s.sf := rfl
@[simp] theorem setLLink_pages (s : State) (l : LinkId) (x : LLink) :
    (setLLink s l x).pages = s.pages := rfl
@[simp] theorem setLLink_ctr (s : State) (l : LinkId) (x : LLink) :
    (setLLink s l x).ctr = s.ctr := rfl
@[simp] theorem setLLink_out (s : State) (l : LinkId) (x : LLink) :
    (setLLink s l x).out = s.out := rfl
@[simp] theorem setLLink_cpw (s : State) (l : LinkId) (x : LLink) :
    (setLLink s l x).cpw = s.cpw := rfl
@[simp] theorem setLLink_i3c (s : State) (l : LinkId) (x : LLink) :
    (setLLink s l x).i3c = s.i3c := rfl
@[simp] theorem setLLink_fab (s : State) (l : LinkId) (x : LLink) :
    (setLLink s l x).fab = s.fab := rfl
@[simp] theorem setLLink_trays (s : State) (l : LinkId) (x : LLink) :
    (setLLink s l x).trays = s.trays := rfl
@[simp] theorem setLLink_mem (s : State) (l : LinkId) (x : LLink) :
    (setLLink s l x).mem = s.mem := rfl
@[simp] theorem setLLink_win (s : State) (l : LinkId) (x : LLink) :
    (setLLink s l x).win = s.win := rfl
@[simp] theorem setLLink_poison (s : State) (l : LinkId) (x : LLink) :
    (setLLink s l x).poison = s.poison := rfl
@[simp] theorem setLLink_coll (s : State) (l : LinkId) (x : LLink) :
    (setLLink s l x).coll = s.coll := rfl
@[simp] theorem setLLink_plans (s : State) (l : LinkId) (x : LLink) :
    (setLLink s l x).plans = s.plans := rfl
@[simp] theorem setLLink_power (s : State) (l : LinkId) (x : LLink) :
    (setLLink s l x).power = s.power := rfl
@[simp] theorem setLLink_egress (s : State) (l : LinkId) (x : LLink) :
    (setLLink s l x).egress = s.egress := rfl
@[simp] theorem setLLink_elog (s : State) (l : LinkId) (x : LLink) :
    (setLLink s l x).elog = s.elog := rfl
@[simp] theorem setLLink_rseq (s : State) (l : LinkId) (x : LLink) :
    (setLLink s l x).rseq = s.rseq := rfl
@[simp] theorem setLLink_lt (s : State) (l : LinkId) (x : LLink) :
    (setLLink s l x).lt = s.lt := rfl
@[simp] theorem setLLink_refills (s : State) (l : LinkId) (x : LLink) :
    (setLLink s l x).refills = s.refills := rfl
@[simp] theorem setLLink_police (s : State) (l : LinkId) (x : LLink) :
    (setLLink s l x).police = s.police := rfl
@[simp] theorem setLLink_rr (s : State) (l : LinkId) (x : LLink) :
    (setLLink s l x).rr = s.rr := rfl
@[simp] theorem setLLink_lineTx (s : State) (l : LinkId) (x : LLink) :
    (setLLink s l x).lineTx = s.lineTx := rfl
@[simp] theorem setLLink_outer (s : State) (l : LinkId) (x : LLink) :
    (setLLink s l x).outer = s.outer := rfl
@[simp] theorem setLLink_stTx (s : State) (l : LinkId) (x : LLink) :
    (setLLink s l x).stTx = s.stTx := rfl
@[simp] theorem setLLink_stTag (s : State) (l : LinkId) (x : LLink) :
    (setLLink s l x).stTag = s.stTag := rfl
@[simp] theorem setLLink_tdec (s : State) (l : LinkId) (x : LLink) :
    (setLLink s l x).tdec = s.tdec := rfl
@[simp] theorem setLLink_commits (s : State) (l : LinkId) (x : LLink) :
    (setLLink s l x).commits = s.commits := rfl
@[simp] theorem setLLink_ciph (s : State) (l : LinkId) (x : LLink) :
    (setLLink s l x).ciph = s.ciph := rfl
@[simp] theorem setLLink_boot (s : State) (l : LinkId) (x : LLink) :
    (setLLink s l x).boot = s.boot := rfl
@[simp] theorem setLLink_ptp (s : State) (l : LinkId) (x : LLink) :
    (setLLink s l x).ptp = s.ptp := rfl
@[simp] theorem setLLink_tsq (s : State) (l : LinkId) (x : LLink) :
    (setLLink s l x).tsq = s.tsq := rfl
@[simp] theorem setLLink_tio (s : State) (l : LinkId) (x : LLink) :
    (setLLink s l x).tio = s.tio := rfl
@[simp] theorem setLLink_late (s : State) (l : LinkId) (x : LLink) :
    (setLLink s l x).late = s.late := rfl
@[simp] theorem setLLink_light (s : State) (l : LinkId) (x : LLink) :
    (setLLink s l x).light = s.light := rfl
@[simp] theorem setLLink_ledger (s : State) (l : LinkId) (x : LLink) :
    (setLLink s l x).ledger = s.ledger := rfl
@[simp] theorem setLLink_therm (s : State) (l : LinkId) (x : LLink) :
    (setLLink s l x).therm = s.therm := rfl
@[simp] theorem setLLink_pondBw (s : State) (l : LinkId) (x : LLink) :
    (setLLink s l x).pondBw = s.pondBw := rfl
@[simp] theorem setLLink_pondCtr (s : State) (l : LinkId) (x : LLink) :
    (setLLink s l x).pondCtr = s.pondCtr := rfl
@[simp] theorem setLLink_pondPrio (s : State) (l : LinkId) (x : LLink) :
    (setLLink s l x).pondPrio = s.pondPrio := rfl
@[simp] theorem setLLink_msix (s : State) (l : LinkId) (x : LLink) :
    (setLLink s l x).msix = s.msix := rfl
@[simp] theorem setLLink_clk (s : State) (l : LinkId) (x : LLink) :
    (setLLink s l x).clk = s.clk := rfl

/-! ### `setLCiph` -/

@[simp] theorem setLCiph_pending (s : State) (l : LinkId) (x : LCiph) :
    (setLCiph s l x).pending = s.pending := rfl
@[simp] theorem setLCiph_mode (s : State) (l : LinkId) (x : LCiph) :
    (setLCiph s l x).mode = s.mode := rfl
@[simp] theorem setLCiph_sf (s : State) (l : LinkId) (x : LCiph) :
    (setLCiph s l x).sf = s.sf := rfl
@[simp] theorem setLCiph_pages (s : State) (l : LinkId) (x : LCiph) :
    (setLCiph s l x).pages = s.pages := rfl
@[simp] theorem setLCiph_ctr (s : State) (l : LinkId) (x : LCiph) :
    (setLCiph s l x).ctr = s.ctr := rfl
@[simp] theorem setLCiph_out (s : State) (l : LinkId) (x : LCiph) :
    (setLCiph s l x).out = s.out := rfl
@[simp] theorem setLCiph_cpw (s : State) (l : LinkId) (x : LCiph) :
    (setLCiph s l x).cpw = s.cpw := rfl
@[simp] theorem setLCiph_i3c (s : State) (l : LinkId) (x : LCiph) :
    (setLCiph s l x).i3c = s.i3c := rfl
@[simp] theorem setLCiph_fab (s : State) (l : LinkId) (x : LCiph) :
    (setLCiph s l x).fab = s.fab := rfl
@[simp] theorem setLCiph_trays (s : State) (l : LinkId) (x : LCiph) :
    (setLCiph s l x).trays = s.trays := rfl
@[simp] theorem setLCiph_mem (s : State) (l : LinkId) (x : LCiph) :
    (setLCiph s l x).mem = s.mem := rfl
@[simp] theorem setLCiph_win (s : State) (l : LinkId) (x : LCiph) :
    (setLCiph s l x).win = s.win := rfl
@[simp] theorem setLCiph_poison (s : State) (l : LinkId) (x : LCiph) :
    (setLCiph s l x).poison = s.poison := rfl
@[simp] theorem setLCiph_coll (s : State) (l : LinkId) (x : LCiph) :
    (setLCiph s l x).coll = s.coll := rfl
@[simp] theorem setLCiph_plans (s : State) (l : LinkId) (x : LCiph) :
    (setLCiph s l x).plans = s.plans := rfl
@[simp] theorem setLCiph_power (s : State) (l : LinkId) (x : LCiph) :
    (setLCiph s l x).power = s.power := rfl
@[simp] theorem setLCiph_egress (s : State) (l : LinkId) (x : LCiph) :
    (setLCiph s l x).egress = s.egress := rfl
@[simp] theorem setLCiph_elog (s : State) (l : LinkId) (x : LCiph) :
    (setLCiph s l x).elog = s.elog := rfl
@[simp] theorem setLCiph_rseq (s : State) (l : LinkId) (x : LCiph) :
    (setLCiph s l x).rseq = s.rseq := rfl
@[simp] theorem setLCiph_lt (s : State) (l : LinkId) (x : LCiph) :
    (setLCiph s l x).lt = s.lt := rfl
@[simp] theorem setLCiph_refills (s : State) (l : LinkId) (x : LCiph) :
    (setLCiph s l x).refills = s.refills := rfl
@[simp] theorem setLCiph_police (s : State) (l : LinkId) (x : LCiph) :
    (setLCiph s l x).police = s.police := rfl
@[simp] theorem setLCiph_rr (s : State) (l : LinkId) (x : LCiph) :
    (setLCiph s l x).rr = s.rr := rfl
@[simp] theorem setLCiph_lineTx (s : State) (l : LinkId) (x : LCiph) :
    (setLCiph s l x).lineTx = s.lineTx := rfl
@[simp] theorem setLCiph_outer (s : State) (l : LinkId) (x : LCiph) :
    (setLCiph s l x).outer = s.outer := rfl
@[simp] theorem setLCiph_stTx (s : State) (l : LinkId) (x : LCiph) :
    (setLCiph s l x).stTx = s.stTx := rfl
@[simp] theorem setLCiph_stTag (s : State) (l : LinkId) (x : LCiph) :
    (setLCiph s l x).stTag = s.stTag := rfl
@[simp] theorem setLCiph_tdec (s : State) (l : LinkId) (x : LCiph) :
    (setLCiph s l x).tdec = s.tdec := rfl
@[simp] theorem setLCiph_commits (s : State) (l : LinkId) (x : LCiph) :
    (setLCiph s l x).commits = s.commits := rfl
@[simp] theorem setLCiph_line (s : State) (l : LinkId) (x : LCiph) :
    (setLCiph s l x).line = s.line := rfl
@[simp] theorem setLCiph_boot (s : State) (l : LinkId) (x : LCiph) :
    (setLCiph s l x).boot = s.boot := rfl
@[simp] theorem setLCiph_ptp (s : State) (l : LinkId) (x : LCiph) :
    (setLCiph s l x).ptp = s.ptp := rfl
@[simp] theorem setLCiph_tsq (s : State) (l : LinkId) (x : LCiph) :
    (setLCiph s l x).tsq = s.tsq := rfl
@[simp] theorem setLCiph_tio (s : State) (l : LinkId) (x : LCiph) :
    (setLCiph s l x).tio = s.tio := rfl
@[simp] theorem setLCiph_late (s : State) (l : LinkId) (x : LCiph) :
    (setLCiph s l x).late = s.late := rfl
@[simp] theorem setLCiph_light (s : State) (l : LinkId) (x : LCiph) :
    (setLCiph s l x).light = s.light := rfl
@[simp] theorem setLCiph_ledger (s : State) (l : LinkId) (x : LCiph) :
    (setLCiph s l x).ledger = s.ledger := rfl
@[simp] theorem setLCiph_therm (s : State) (l : LinkId) (x : LCiph) :
    (setLCiph s l x).therm = s.therm := rfl
@[simp] theorem setLCiph_pondBw (s : State) (l : LinkId) (x : LCiph) :
    (setLCiph s l x).pondBw = s.pondBw := rfl
@[simp] theorem setLCiph_pondCtr (s : State) (l : LinkId) (x : LCiph) :
    (setLCiph s l x).pondCtr = s.pondCtr := rfl
@[simp] theorem setLCiph_pondPrio (s : State) (l : LinkId) (x : LCiph) :
    (setLCiph s l x).pondPrio = s.pondPrio := rfl
@[simp] theorem setLCiph_msix (s : State) (l : LinkId) (x : LCiph) :
    (setLCiph s l x).msix = s.msix := rfl
@[simp] theorem setLCiph_clk (s : State) (l : LinkId) (x : LCiph) :
    (setLCiph s l x).clk = s.clk := rfl

/-! ### `setLaser` -/

@[simp] theorem setLaser_pending (s : State) (b : Fin 2) (n : Nat) (x : Laser) :
    (setLaser s b n x).pending = s.pending := rfl
@[simp] theorem setLaser_mode (s : State) (b : Fin 2) (n : Nat) (x : Laser) :
    (setLaser s b n x).mode = s.mode := rfl
@[simp] theorem setLaser_sf (s : State) (b : Fin 2) (n : Nat) (x : Laser) :
    (setLaser s b n x).sf = s.sf := rfl
@[simp] theorem setLaser_pages (s : State) (b : Fin 2) (n : Nat) (x : Laser) :
    (setLaser s b n x).pages = s.pages := rfl
@[simp] theorem setLaser_ctr (s : State) (b : Fin 2) (n : Nat) (x : Laser) :
    (setLaser s b n x).ctr = s.ctr := rfl
@[simp] theorem setLaser_out (s : State) (b : Fin 2) (n : Nat) (x : Laser) :
    (setLaser s b n x).out = s.out := rfl
@[simp] theorem setLaser_cpw (s : State) (b : Fin 2) (n : Nat) (x : Laser) :
    (setLaser s b n x).cpw = s.cpw := rfl
@[simp] theorem setLaser_i3c (s : State) (b : Fin 2) (n : Nat) (x : Laser) :
    (setLaser s b n x).i3c = s.i3c := rfl
@[simp] theorem setLaser_fab (s : State) (b : Fin 2) (n : Nat) (x : Laser) :
    (setLaser s b n x).fab = s.fab := rfl
@[simp] theorem setLaser_trays (s : State) (b : Fin 2) (n : Nat) (x : Laser) :
    (setLaser s b n x).trays = s.trays := rfl
@[simp] theorem setLaser_mem (s : State) (b : Fin 2) (n : Nat) (x : Laser) :
    (setLaser s b n x).mem = s.mem := rfl
@[simp] theorem setLaser_win (s : State) (b : Fin 2) (n : Nat) (x : Laser) :
    (setLaser s b n x).win = s.win := rfl
@[simp] theorem setLaser_poison (s : State) (b : Fin 2) (n : Nat) (x : Laser) :
    (setLaser s b n x).poison = s.poison := rfl
@[simp] theorem setLaser_coll (s : State) (b : Fin 2) (n : Nat) (x : Laser) :
    (setLaser s b n x).coll = s.coll := rfl
@[simp] theorem setLaser_plans (s : State) (b : Fin 2) (n : Nat) (x : Laser) :
    (setLaser s b n x).plans = s.plans := rfl
@[simp] theorem setLaser_power (s : State) (b : Fin 2) (n : Nat) (x : Laser) :
    (setLaser s b n x).power = s.power := rfl
@[simp] theorem setLaser_egress (s : State) (b : Fin 2) (n : Nat) (x : Laser) :
    (setLaser s b n x).egress = s.egress := rfl
@[simp] theorem setLaser_elog (s : State) (b : Fin 2) (n : Nat) (x : Laser) :
    (setLaser s b n x).elog = s.elog := rfl
@[simp] theorem setLaser_rseq (s : State) (b : Fin 2) (n : Nat) (x : Laser) :
    (setLaser s b n x).rseq = s.rseq := rfl
@[simp] theorem setLaser_lt (s : State) (b : Fin 2) (n : Nat) (x : Laser) :
    (setLaser s b n x).lt = s.lt := rfl
@[simp] theorem setLaser_refills (s : State) (b : Fin 2) (n : Nat) (x : Laser) :
    (setLaser s b n x).refills = s.refills := rfl
@[simp] theorem setLaser_police (s : State) (b : Fin 2) (n : Nat) (x : Laser) :
    (setLaser s b n x).police = s.police := rfl
@[simp] theorem setLaser_rr (s : State) (b : Fin 2) (n : Nat) (x : Laser) :
    (setLaser s b n x).rr = s.rr := rfl
@[simp] theorem setLaser_lineTx (s : State) (b : Fin 2) (n : Nat) (x : Laser) :
    (setLaser s b n x).lineTx = s.lineTx := rfl
@[simp] theorem setLaser_outer (s : State) (b : Fin 2) (n : Nat) (x : Laser) :
    (setLaser s b n x).outer = s.outer := rfl
@[simp] theorem setLaser_stTx (s : State) (b : Fin 2) (n : Nat) (x : Laser) :
    (setLaser s b n x).stTx = s.stTx := rfl
@[simp] theorem setLaser_stTag (s : State) (b : Fin 2) (n : Nat) (x : Laser) :
    (setLaser s b n x).stTag = s.stTag := rfl
@[simp] theorem setLaser_tdec (s : State) (b : Fin 2) (n : Nat) (x : Laser) :
    (setLaser s b n x).tdec = s.tdec := rfl
@[simp] theorem setLaser_commits (s : State) (b : Fin 2) (n : Nat) (x : Laser) :
    (setLaser s b n x).commits = s.commits := rfl
@[simp] theorem setLaser_line (s : State) (b : Fin 2) (n : Nat) (x : Laser) :
    (setLaser s b n x).line = s.line := rfl
@[simp] theorem setLaser_ciph (s : State) (b : Fin 2) (n : Nat) (x : Laser) :
    (setLaser s b n x).ciph = s.ciph := rfl
@[simp] theorem setLaser_boot (s : State) (b : Fin 2) (n : Nat) (x : Laser) :
    (setLaser s b n x).boot = s.boot := rfl
@[simp] theorem setLaser_ptp (s : State) (b : Fin 2) (n : Nat) (x : Laser) :
    (setLaser s b n x).ptp = s.ptp := rfl
@[simp] theorem setLaser_tsq (s : State) (b : Fin 2) (n : Nat) (x : Laser) :
    (setLaser s b n x).tsq = s.tsq := rfl
@[simp] theorem setLaser_tio (s : State) (b : Fin 2) (n : Nat) (x : Laser) :
    (setLaser s b n x).tio = s.tio := rfl
@[simp] theorem setLaser_late (s : State) (b : Fin 2) (n : Nat) (x : Laser) :
    (setLaser s b n x).late = s.late := rfl
@[simp] theorem setLaser_ledger (s : State) (b : Fin 2) (n : Nat) (x : Laser) :
    (setLaser s b n x).ledger = s.ledger := rfl
@[simp] theorem setLaser_therm (s : State) (b : Fin 2) (n : Nat) (x : Laser) :
    (setLaser s b n x).therm = s.therm := rfl
@[simp] theorem setLaser_pondBw (s : State) (b : Fin 2) (n : Nat) (x : Laser) :
    (setLaser s b n x).pondBw = s.pondBw := rfl
@[simp] theorem setLaser_pondCtr (s : State) (b : Fin 2) (n : Nat) (x : Laser) :
    (setLaser s b n x).pondCtr = s.pondCtr := rfl
@[simp] theorem setLaser_pondPrio (s : State) (b : Fin 2) (n : Nat) (x : Laser) :
    (setLaser s b n x).pondPrio = s.pondPrio := rfl
@[simp] theorem setLaser_msix (s : State) (b : Fin 2) (n : Nat) (x : Laser) :
    (setLaser s b n x).msix = s.msix := rfl
@[simp] theorem setLaser_clk (s : State) (b : Fin 2) (n : Nat) (x : Laser) :
    (setLaser s b n x).clk = s.clk := rfl

/-! ### `setRing` -/

@[simp] theorem setRing_pending (s : State) (g : Fin 4) (k : Fin 18) (b : Fin 4) (x : Ring) :
    (setRing s g k b x).pending = s.pending := rfl
@[simp] theorem setRing_mode (s : State) (g : Fin 4) (k : Fin 18) (b : Fin 4) (x : Ring) :
    (setRing s g k b x).mode = s.mode := rfl
@[simp] theorem setRing_sf (s : State) (g : Fin 4) (k : Fin 18) (b : Fin 4) (x : Ring) :
    (setRing s g k b x).sf = s.sf := rfl
@[simp] theorem setRing_pages (s : State) (g : Fin 4) (k : Fin 18) (b : Fin 4) (x : Ring) :
    (setRing s g k b x).pages = s.pages := rfl
@[simp] theorem setRing_ctr (s : State) (g : Fin 4) (k : Fin 18) (b : Fin 4) (x : Ring) :
    (setRing s g k b x).ctr = s.ctr := rfl
@[simp] theorem setRing_out (s : State) (g : Fin 4) (k : Fin 18) (b : Fin 4) (x : Ring) :
    (setRing s g k b x).out = s.out := rfl
@[simp] theorem setRing_cpw (s : State) (g : Fin 4) (k : Fin 18) (b : Fin 4) (x : Ring) :
    (setRing s g k b x).cpw = s.cpw := rfl
@[simp] theorem setRing_i3c (s : State) (g : Fin 4) (k : Fin 18) (b : Fin 4) (x : Ring) :
    (setRing s g k b x).i3c = s.i3c := rfl
@[simp] theorem setRing_fab (s : State) (g : Fin 4) (k : Fin 18) (b : Fin 4) (x : Ring) :
    (setRing s g k b x).fab = s.fab := rfl
@[simp] theorem setRing_trays (s : State) (g : Fin 4) (k : Fin 18) (b : Fin 4) (x : Ring) :
    (setRing s g k b x).trays = s.trays := rfl
@[simp] theorem setRing_mem (s : State) (g : Fin 4) (k : Fin 18) (b : Fin 4) (x : Ring) :
    (setRing s g k b x).mem = s.mem := rfl
@[simp] theorem setRing_win (s : State) (g : Fin 4) (k : Fin 18) (b : Fin 4) (x : Ring) :
    (setRing s g k b x).win = s.win := rfl
@[simp] theorem setRing_poison (s : State) (g : Fin 4) (k : Fin 18) (b : Fin 4) (x : Ring) :
    (setRing s g k b x).poison = s.poison := rfl
@[simp] theorem setRing_coll (s : State) (g : Fin 4) (k : Fin 18) (b : Fin 4) (x : Ring) :
    (setRing s g k b x).coll = s.coll := rfl
@[simp] theorem setRing_plans (s : State) (g : Fin 4) (k : Fin 18) (b : Fin 4) (x : Ring) :
    (setRing s g k b x).plans = s.plans := rfl
@[simp] theorem setRing_power (s : State) (g : Fin 4) (k : Fin 18) (b : Fin 4) (x : Ring) :
    (setRing s g k b x).power = s.power := rfl
@[simp] theorem setRing_egress (s : State) (g : Fin 4) (k : Fin 18) (b : Fin 4) (x : Ring) :
    (setRing s g k b x).egress = s.egress := rfl
@[simp] theorem setRing_elog (s : State) (g : Fin 4) (k : Fin 18) (b : Fin 4) (x : Ring) :
    (setRing s g k b x).elog = s.elog := rfl
@[simp] theorem setRing_rseq (s : State) (g : Fin 4) (k : Fin 18) (b : Fin 4) (x : Ring) :
    (setRing s g k b x).rseq = s.rseq := rfl
@[simp] theorem setRing_lt (s : State) (g : Fin 4) (k : Fin 18) (b : Fin 4) (x : Ring) :
    (setRing s g k b x).lt = s.lt := rfl
@[simp] theorem setRing_refills (s : State) (g : Fin 4) (k : Fin 18) (b : Fin 4) (x : Ring) :
    (setRing s g k b x).refills = s.refills := rfl
@[simp] theorem setRing_police (s : State) (g : Fin 4) (k : Fin 18) (b : Fin 4) (x : Ring) :
    (setRing s g k b x).police = s.police := rfl
@[simp] theorem setRing_rr (s : State) (g : Fin 4) (k : Fin 18) (b : Fin 4) (x : Ring) :
    (setRing s g k b x).rr = s.rr := rfl
@[simp] theorem setRing_lineTx (s : State) (g : Fin 4) (k : Fin 18) (b : Fin 4) (x : Ring) :
    (setRing s g k b x).lineTx = s.lineTx := rfl
@[simp] theorem setRing_outer (s : State) (g : Fin 4) (k : Fin 18) (b : Fin 4) (x : Ring) :
    (setRing s g k b x).outer = s.outer := rfl
@[simp] theorem setRing_stTx (s : State) (g : Fin 4) (k : Fin 18) (b : Fin 4) (x : Ring) :
    (setRing s g k b x).stTx = s.stTx := rfl
@[simp] theorem setRing_stTag (s : State) (g : Fin 4) (k : Fin 18) (b : Fin 4) (x : Ring) :
    (setRing s g k b x).stTag = s.stTag := rfl
@[simp] theorem setRing_tdec (s : State) (g : Fin 4) (k : Fin 18) (b : Fin 4) (x : Ring) :
    (setRing s g k b x).tdec = s.tdec := rfl
@[simp] theorem setRing_commits (s : State) (g : Fin 4) (k : Fin 18) (b : Fin 4) (x : Ring) :
    (setRing s g k b x).commits = s.commits := rfl
@[simp] theorem setRing_line (s : State) (g : Fin 4) (k : Fin 18) (b : Fin 4) (x : Ring) :
    (setRing s g k b x).line = s.line := rfl
@[simp] theorem setRing_ciph (s : State) (g : Fin 4) (k : Fin 18) (b : Fin 4) (x : Ring) :
    (setRing s g k b x).ciph = s.ciph := rfl
@[simp] theorem setRing_boot (s : State) (g : Fin 4) (k : Fin 18) (b : Fin 4) (x : Ring) :
    (setRing s g k b x).boot = s.boot := rfl
@[simp] theorem setRing_ptp (s : State) (g : Fin 4) (k : Fin 18) (b : Fin 4) (x : Ring) :
    (setRing s g k b x).ptp = s.ptp := rfl
@[simp] theorem setRing_tsq (s : State) (g : Fin 4) (k : Fin 18) (b : Fin 4) (x : Ring) :
    (setRing s g k b x).tsq = s.tsq := rfl
@[simp] theorem setRing_tio (s : State) (g : Fin 4) (k : Fin 18) (b : Fin 4) (x : Ring) :
    (setRing s g k b x).tio = s.tio := rfl
@[simp] theorem setRing_late (s : State) (g : Fin 4) (k : Fin 18) (b : Fin 4) (x : Ring) :
    (setRing s g k b x).late = s.late := rfl
@[simp] theorem setRing_ledger (s : State) (g : Fin 4) (k : Fin 18) (b : Fin 4) (x : Ring) :
    (setRing s g k b x).ledger = s.ledger := rfl
@[simp] theorem setRing_therm (s : State) (g : Fin 4) (k : Fin 18) (b : Fin 4) (x : Ring) :
    (setRing s g k b x).therm = s.therm := rfl
@[simp] theorem setRing_pondBw (s : State) (g : Fin 4) (k : Fin 18) (b : Fin 4) (x : Ring) :
    (setRing s g k b x).pondBw = s.pondBw := rfl
@[simp] theorem setRing_pondCtr (s : State) (g : Fin 4) (k : Fin 18) (b : Fin 4) (x : Ring) :
    (setRing s g k b x).pondCtr = s.pondCtr := rfl
@[simp] theorem setRing_pondPrio (s : State) (g : Fin 4) (k : Fin 18) (b : Fin 4) (x : Ring) :
    (setRing s g k b x).pondPrio = s.pondPrio := rfl
@[simp] theorem setRing_msix (s : State) (g : Fin 4) (k : Fin 18) (b : Fin 4) (x : Ring) :
    (setRing s g k b x).msix = s.msix := rfl
@[simp] theorem setRing_clk (s : State) (g : Fin 4) (k : Fin 18) (b : Fin 4) (x : Ring) :
    (setRing s g k b x).clk = s.clk := rfl

/-! ### `setBay` -/

@[simp] theorem setBay_pending (s : State) (i : Fin 2) (c : Cart) :
    (setBay s i c).pending = s.pending := rfl
@[simp] theorem setBay_mode (s : State) (i : Fin 2) (c : Cart) :
    (setBay s i c).mode = s.mode := rfl
@[simp] theorem setBay_sf (s : State) (i : Fin 2) (c : Cart) :
    (setBay s i c).sf = s.sf := rfl
@[simp] theorem setBay_pages (s : State) (i : Fin 2) (c : Cart) :
    (setBay s i c).pages = s.pages := rfl
@[simp] theorem setBay_ctr (s : State) (i : Fin 2) (c : Cart) :
    (setBay s i c).ctr = s.ctr := rfl
@[simp] theorem setBay_out (s : State) (i : Fin 2) (c : Cart) :
    (setBay s i c).out = s.out := rfl
@[simp] theorem setBay_cpw (s : State) (i : Fin 2) (c : Cart) :
    (setBay s i c).cpw = s.cpw := rfl
@[simp] theorem setBay_i3c (s : State) (i : Fin 2) (c : Cart) :
    (setBay s i c).i3c = s.i3c := rfl
@[simp] theorem setBay_fab (s : State) (i : Fin 2) (c : Cart) :
    (setBay s i c).fab = s.fab := rfl
@[simp] theorem setBay_trays (s : State) (i : Fin 2) (c : Cart) :
    (setBay s i c).trays = s.trays := rfl
@[simp] theorem setBay_mem (s : State) (i : Fin 2) (c : Cart) :
    (setBay s i c).mem = s.mem := rfl
@[simp] theorem setBay_win (s : State) (i : Fin 2) (c : Cart) :
    (setBay s i c).win = s.win := rfl
@[simp] theorem setBay_poison (s : State) (i : Fin 2) (c : Cart) :
    (setBay s i c).poison = s.poison := rfl
@[simp] theorem setBay_coll (s : State) (i : Fin 2) (c : Cart) :
    (setBay s i c).coll = s.coll := rfl
@[simp] theorem setBay_plans (s : State) (i : Fin 2) (c : Cart) :
    (setBay s i c).plans = s.plans := rfl
@[simp] theorem setBay_power (s : State) (i : Fin 2) (c : Cart) :
    (setBay s i c).power = s.power := rfl
@[simp] theorem setBay_egress (s : State) (i : Fin 2) (c : Cart) :
    (setBay s i c).egress = s.egress := rfl
@[simp] theorem setBay_elog (s : State) (i : Fin 2) (c : Cart) :
    (setBay s i c).elog = s.elog := rfl
@[simp] theorem setBay_rseq (s : State) (i : Fin 2) (c : Cart) :
    (setBay s i c).rseq = s.rseq := rfl
@[simp] theorem setBay_lt (s : State) (i : Fin 2) (c : Cart) :
    (setBay s i c).lt = s.lt := rfl
@[simp] theorem setBay_refills (s : State) (i : Fin 2) (c : Cart) :
    (setBay s i c).refills = s.refills := rfl
@[simp] theorem setBay_police (s : State) (i : Fin 2) (c : Cart) :
    (setBay s i c).police = s.police := rfl
@[simp] theorem setBay_rr (s : State) (i : Fin 2) (c : Cart) :
    (setBay s i c).rr = s.rr := rfl
@[simp] theorem setBay_lineTx (s : State) (i : Fin 2) (c : Cart) :
    (setBay s i c).lineTx = s.lineTx := rfl
@[simp] theorem setBay_outer (s : State) (i : Fin 2) (c : Cart) :
    (setBay s i c).outer = s.outer := rfl
@[simp] theorem setBay_stTx (s : State) (i : Fin 2) (c : Cart) :
    (setBay s i c).stTx = s.stTx := rfl
@[simp] theorem setBay_stTag (s : State) (i : Fin 2) (c : Cart) :
    (setBay s i c).stTag = s.stTag := rfl
@[simp] theorem setBay_tdec (s : State) (i : Fin 2) (c : Cart) :
    (setBay s i c).tdec = s.tdec := rfl
@[simp] theorem setBay_commits (s : State) (i : Fin 2) (c : Cart) :
    (setBay s i c).commits = s.commits := rfl
@[simp] theorem setBay_line (s : State) (i : Fin 2) (c : Cart) :
    (setBay s i c).line = s.line := rfl
@[simp] theorem setBay_ciph (s : State) (i : Fin 2) (c : Cart) :
    (setBay s i c).ciph = s.ciph := rfl
@[simp] theorem setBay_boot (s : State) (i : Fin 2) (c : Cart) :
    (setBay s i c).boot = s.boot := rfl
@[simp] theorem setBay_ptp (s : State) (i : Fin 2) (c : Cart) :
    (setBay s i c).ptp = s.ptp := rfl
@[simp] theorem setBay_tsq (s : State) (i : Fin 2) (c : Cart) :
    (setBay s i c).tsq = s.tsq := rfl
@[simp] theorem setBay_tio (s : State) (i : Fin 2) (c : Cart) :
    (setBay s i c).tio = s.tio := rfl
@[simp] theorem setBay_late (s : State) (i : Fin 2) (c : Cart) :
    (setBay s i c).late = s.late := rfl
@[simp] theorem setBay_ledger (s : State) (i : Fin 2) (c : Cart) :
    (setBay s i c).ledger = s.ledger := rfl
@[simp] theorem setBay_therm (s : State) (i : Fin 2) (c : Cart) :
    (setBay s i c).therm = s.therm := rfl
@[simp] theorem setBay_pondBw (s : State) (i : Fin 2) (c : Cart) :
    (setBay s i c).pondBw = s.pondBw := rfl
@[simp] theorem setBay_pondCtr (s : State) (i : Fin 2) (c : Cart) :
    (setBay s i c).pondCtr = s.pondCtr := rfl
@[simp] theorem setBay_pondPrio (s : State) (i : Fin 2) (c : Cart) :
    (setBay s i c).pondPrio = s.pondPrio := rfl
@[simp] theorem setBay_msix (s : State) (i : Fin 2) (c : Cart) :
    (setBay s i c).msix = s.msix := rfl
@[simp] theorem setBay_clk (s : State) (i : Fin 2) (c : Cart) :
    (setBay s i c).clk = s.clk := rfl

/-! ### `setLt` -/

@[simp] theorem setLt_pending (s : State) (x : Lt) :
    (setLt s x).pending = s.pending := rfl
@[simp] theorem setLt_mode (s : State) (x : Lt) :
    (setLt s x).mode = s.mode := rfl
@[simp] theorem setLt_sf (s : State) (x : Lt) :
    (setLt s x).sf = s.sf := rfl
@[simp] theorem setLt_pages (s : State) (x : Lt) :
    (setLt s x).pages = s.pages := rfl
@[simp] theorem setLt_ctr (s : State) (x : Lt) :
    (setLt s x).ctr = s.ctr := rfl
@[simp] theorem setLt_out (s : State) (x : Lt) :
    (setLt s x).out = s.out := rfl
@[simp] theorem setLt_cpw (s : State) (x : Lt) :
    (setLt s x).cpw = s.cpw := rfl
@[simp] theorem setLt_i3c (s : State) (x : Lt) :
    (setLt s x).i3c = s.i3c := rfl
@[simp] theorem setLt_fab (s : State) (x : Lt) :
    (setLt s x).fab = s.fab := rfl
@[simp] theorem setLt_trays (s : State) (x : Lt) :
    (setLt s x).trays = s.trays := rfl
@[simp] theorem setLt_mem (s : State) (x : Lt) :
    (setLt s x).mem = s.mem := rfl
@[simp] theorem setLt_win (s : State) (x : Lt) :
    (setLt s x).win = s.win := rfl
@[simp] theorem setLt_poison (s : State) (x : Lt) :
    (setLt s x).poison = s.poison := rfl
@[simp] theorem setLt_coll (s : State) (x : Lt) :
    (setLt s x).coll = s.coll := rfl
@[simp] theorem setLt_plans (s : State) (x : Lt) :
    (setLt s x).plans = s.plans := rfl
@[simp] theorem setLt_power (s : State) (x : Lt) :
    (setLt s x).power = s.power := rfl
@[simp] theorem setLt_egress (s : State) (x : Lt) :
    (setLt s x).egress = s.egress := rfl
@[simp] theorem setLt_elog (s : State) (x : Lt) :
    (setLt s x).elog = s.elog := rfl
@[simp] theorem setLt_rseq (s : State) (x : Lt) :
    (setLt s x).rseq = s.rseq := rfl
@[simp] theorem setLt_refills (s : State) (x : Lt) :
    (setLt s x).refills = s.refills := rfl
@[simp] theorem setLt_police (s : State) (x : Lt) :
    (setLt s x).police = s.police := rfl
@[simp] theorem setLt_rr (s : State) (x : Lt) :
    (setLt s x).rr = s.rr := rfl
@[simp] theorem setLt_lineTx (s : State) (x : Lt) :
    (setLt s x).lineTx = s.lineTx := rfl
@[simp] theorem setLt_outer (s : State) (x : Lt) :
    (setLt s x).outer = s.outer := rfl
@[simp] theorem setLt_stTx (s : State) (x : Lt) :
    (setLt s x).stTx = s.stTx := rfl
@[simp] theorem setLt_stTag (s : State) (x : Lt) :
    (setLt s x).stTag = s.stTag := rfl
@[simp] theorem setLt_tdec (s : State) (x : Lt) :
    (setLt s x).tdec = s.tdec := rfl
@[simp] theorem setLt_commits (s : State) (x : Lt) :
    (setLt s x).commits = s.commits := rfl
@[simp] theorem setLt_line (s : State) (x : Lt) :
    (setLt s x).line = s.line := rfl
@[simp] theorem setLt_ciph (s : State) (x : Lt) :
    (setLt s x).ciph = s.ciph := rfl
@[simp] theorem setLt_boot (s : State) (x : Lt) :
    (setLt s x).boot = s.boot := rfl
@[simp] theorem setLt_ptp (s : State) (x : Lt) :
    (setLt s x).ptp = s.ptp := rfl
@[simp] theorem setLt_tsq (s : State) (x : Lt) :
    (setLt s x).tsq = s.tsq := rfl
@[simp] theorem setLt_tio (s : State) (x : Lt) :
    (setLt s x).tio = s.tio := rfl
@[simp] theorem setLt_late (s : State) (x : Lt) :
    (setLt s x).late = s.late := rfl
@[simp] theorem setLt_light (s : State) (x : Lt) :
    (setLt s x).light = s.light := rfl
@[simp] theorem setLt_ledger (s : State) (x : Lt) :
    (setLt s x).ledger = s.ledger := rfl
@[simp] theorem setLt_therm (s : State) (x : Lt) :
    (setLt s x).therm = s.therm := rfl
@[simp] theorem setLt_pondBw (s : State) (x : Lt) :
    (setLt s x).pondBw = s.pondBw := rfl
@[simp] theorem setLt_pondCtr (s : State) (x : Lt) :
    (setLt s x).pondCtr = s.pondCtr := rfl
@[simp] theorem setLt_pondPrio (s : State) (x : Lt) :
    (setLt s x).pondPrio = s.pondPrio := rfl
@[simp] theorem setLt_msix (s : State) (x : Lt) :
    (setLt s x).msix = s.msix := rfl
@[simp] theorem setLt_clk (s : State) (x : Lt) :
    (setLt s x).clk = s.clk := rfl

/-! ### `setPtp` -/

@[simp] theorem setPtp_pending (s : State) (x : Ptp) :
    (setPtp s x).pending = s.pending := rfl
@[simp] theorem setPtp_mode (s : State) (x : Ptp) :
    (setPtp s x).mode = s.mode := rfl
@[simp] theorem setPtp_sf (s : State) (x : Ptp) :
    (setPtp s x).sf = s.sf := rfl
@[simp] theorem setPtp_pages (s : State) (x : Ptp) :
    (setPtp s x).pages = s.pages := rfl
@[simp] theorem setPtp_ctr (s : State) (x : Ptp) :
    (setPtp s x).ctr = s.ctr := rfl
@[simp] theorem setPtp_out (s : State) (x : Ptp) :
    (setPtp s x).out = s.out := rfl
@[simp] theorem setPtp_cpw (s : State) (x : Ptp) :
    (setPtp s x).cpw = s.cpw := rfl
@[simp] theorem setPtp_i3c (s : State) (x : Ptp) :
    (setPtp s x).i3c = s.i3c := rfl
@[simp] theorem setPtp_fab (s : State) (x : Ptp) :
    (setPtp s x).fab = s.fab := rfl
@[simp] theorem setPtp_trays (s : State) (x : Ptp) :
    (setPtp s x).trays = s.trays := rfl
@[simp] theorem setPtp_mem (s : State) (x : Ptp) :
    (setPtp s x).mem = s.mem := rfl
@[simp] theorem setPtp_win (s : State) (x : Ptp) :
    (setPtp s x).win = s.win := rfl
@[simp] theorem setPtp_poison (s : State) (x : Ptp) :
    (setPtp s x).poison = s.poison := rfl
@[simp] theorem setPtp_coll (s : State) (x : Ptp) :
    (setPtp s x).coll = s.coll := rfl
@[simp] theorem setPtp_plans (s : State) (x : Ptp) :
    (setPtp s x).plans = s.plans := rfl
@[simp] theorem setPtp_power (s : State) (x : Ptp) :
    (setPtp s x).power = s.power := rfl
@[simp] theorem setPtp_egress (s : State) (x : Ptp) :
    (setPtp s x).egress = s.egress := rfl
@[simp] theorem setPtp_elog (s : State) (x : Ptp) :
    (setPtp s x).elog = s.elog := rfl
@[simp] theorem setPtp_rseq (s : State) (x : Ptp) :
    (setPtp s x).rseq = s.rseq := rfl
@[simp] theorem setPtp_lt (s : State) (x : Ptp) :
    (setPtp s x).lt = s.lt := rfl
@[simp] theorem setPtp_refills (s : State) (x : Ptp) :
    (setPtp s x).refills = s.refills := rfl
@[simp] theorem setPtp_police (s : State) (x : Ptp) :
    (setPtp s x).police = s.police := rfl
@[simp] theorem setPtp_rr (s : State) (x : Ptp) :
    (setPtp s x).rr = s.rr := rfl
@[simp] theorem setPtp_lineTx (s : State) (x : Ptp) :
    (setPtp s x).lineTx = s.lineTx := rfl
@[simp] theorem setPtp_outer (s : State) (x : Ptp) :
    (setPtp s x).outer = s.outer := rfl
@[simp] theorem setPtp_stTx (s : State) (x : Ptp) :
    (setPtp s x).stTx = s.stTx := rfl
@[simp] theorem setPtp_stTag (s : State) (x : Ptp) :
    (setPtp s x).stTag = s.stTag := rfl
@[simp] theorem setPtp_tdec (s : State) (x : Ptp) :
    (setPtp s x).tdec = s.tdec := rfl
@[simp] theorem setPtp_commits (s : State) (x : Ptp) :
    (setPtp s x).commits = s.commits := rfl
@[simp] theorem setPtp_line (s : State) (x : Ptp) :
    (setPtp s x).line = s.line := rfl
@[simp] theorem setPtp_ciph (s : State) (x : Ptp) :
    (setPtp s x).ciph = s.ciph := rfl
@[simp] theorem setPtp_boot (s : State) (x : Ptp) :
    (setPtp s x).boot = s.boot := rfl
@[simp] theorem setPtp_tsq (s : State) (x : Ptp) :
    (setPtp s x).tsq = s.tsq := rfl
@[simp] theorem setPtp_tio (s : State) (x : Ptp) :
    (setPtp s x).tio = s.tio := rfl
@[simp] theorem setPtp_late (s : State) (x : Ptp) :
    (setPtp s x).late = s.late := rfl
@[simp] theorem setPtp_light (s : State) (x : Ptp) :
    (setPtp s x).light = s.light := rfl
@[simp] theorem setPtp_ledger (s : State) (x : Ptp) :
    (setPtp s x).ledger = s.ledger := rfl
@[simp] theorem setPtp_therm (s : State) (x : Ptp) :
    (setPtp s x).therm = s.therm := rfl
@[simp] theorem setPtp_pondBw (s : State) (x : Ptp) :
    (setPtp s x).pondBw = s.pondBw := rfl
@[simp] theorem setPtp_pondCtr (s : State) (x : Ptp) :
    (setPtp s x).pondCtr = s.pondCtr := rfl
@[simp] theorem setPtp_pondPrio (s : State) (x : Ptp) :
    (setPtp s x).pondPrio = s.pondPrio := rfl
@[simp] theorem setPtp_msix (s : State) (x : Ptp) :
    (setPtp s x).msix = s.msix := rfl
@[simp] theorem setPtp_clk (s : State) (x : Ptp) :
    (setPtp s x).clk = s.clk := rfl

/-! ### `setTsq` -/

@[simp] theorem setTsq_pending (s : State) (p : Fin 64) (x : Tsq) :
    (setTsq s p x).pending = s.pending := rfl
@[simp] theorem setTsq_mode (s : State) (p : Fin 64) (x : Tsq) :
    (setTsq s p x).mode = s.mode := rfl
@[simp] theorem setTsq_sf (s : State) (p : Fin 64) (x : Tsq) :
    (setTsq s p x).sf = s.sf := rfl
@[simp] theorem setTsq_pages (s : State) (p : Fin 64) (x : Tsq) :
    (setTsq s p x).pages = s.pages := rfl
@[simp] theorem setTsq_ctr (s : State) (p : Fin 64) (x : Tsq) :
    (setTsq s p x).ctr = s.ctr := rfl
@[simp] theorem setTsq_out (s : State) (p : Fin 64) (x : Tsq) :
    (setTsq s p x).out = s.out := rfl
@[simp] theorem setTsq_cpw (s : State) (p : Fin 64) (x : Tsq) :
    (setTsq s p x).cpw = s.cpw := rfl
@[simp] theorem setTsq_i3c (s : State) (p : Fin 64) (x : Tsq) :
    (setTsq s p x).i3c = s.i3c := rfl
@[simp] theorem setTsq_fab (s : State) (p : Fin 64) (x : Tsq) :
    (setTsq s p x).fab = s.fab := rfl
@[simp] theorem setTsq_trays (s : State) (p : Fin 64) (x : Tsq) :
    (setTsq s p x).trays = s.trays := rfl
@[simp] theorem setTsq_mem (s : State) (p : Fin 64) (x : Tsq) :
    (setTsq s p x).mem = s.mem := rfl
@[simp] theorem setTsq_win (s : State) (p : Fin 64) (x : Tsq) :
    (setTsq s p x).win = s.win := rfl
@[simp] theorem setTsq_poison (s : State) (p : Fin 64) (x : Tsq) :
    (setTsq s p x).poison = s.poison := rfl
@[simp] theorem setTsq_coll (s : State) (p : Fin 64) (x : Tsq) :
    (setTsq s p x).coll = s.coll := rfl
@[simp] theorem setTsq_plans (s : State) (p : Fin 64) (x : Tsq) :
    (setTsq s p x).plans = s.plans := rfl
@[simp] theorem setTsq_power (s : State) (p : Fin 64) (x : Tsq) :
    (setTsq s p x).power = s.power := rfl
@[simp] theorem setTsq_egress (s : State) (p : Fin 64) (x : Tsq) :
    (setTsq s p x).egress = s.egress := rfl
@[simp] theorem setTsq_elog (s : State) (p : Fin 64) (x : Tsq) :
    (setTsq s p x).elog = s.elog := rfl
@[simp] theorem setTsq_rseq (s : State) (p : Fin 64) (x : Tsq) :
    (setTsq s p x).rseq = s.rseq := rfl
@[simp] theorem setTsq_lt (s : State) (p : Fin 64) (x : Tsq) :
    (setTsq s p x).lt = s.lt := rfl
@[simp] theorem setTsq_refills (s : State) (p : Fin 64) (x : Tsq) :
    (setTsq s p x).refills = s.refills := rfl
@[simp] theorem setTsq_police (s : State) (p : Fin 64) (x : Tsq) :
    (setTsq s p x).police = s.police := rfl
@[simp] theorem setTsq_rr (s : State) (p : Fin 64) (x : Tsq) :
    (setTsq s p x).rr = s.rr := rfl
@[simp] theorem setTsq_lineTx (s : State) (p : Fin 64) (x : Tsq) :
    (setTsq s p x).lineTx = s.lineTx := rfl
@[simp] theorem setTsq_outer (s : State) (p : Fin 64) (x : Tsq) :
    (setTsq s p x).outer = s.outer := rfl
@[simp] theorem setTsq_stTx (s : State) (p : Fin 64) (x : Tsq) :
    (setTsq s p x).stTx = s.stTx := rfl
@[simp] theorem setTsq_stTag (s : State) (p : Fin 64) (x : Tsq) :
    (setTsq s p x).stTag = s.stTag := rfl
@[simp] theorem setTsq_tdec (s : State) (p : Fin 64) (x : Tsq) :
    (setTsq s p x).tdec = s.tdec := rfl
@[simp] theorem setTsq_commits (s : State) (p : Fin 64) (x : Tsq) :
    (setTsq s p x).commits = s.commits := rfl
@[simp] theorem setTsq_line (s : State) (p : Fin 64) (x : Tsq) :
    (setTsq s p x).line = s.line := rfl
@[simp] theorem setTsq_ciph (s : State) (p : Fin 64) (x : Tsq) :
    (setTsq s p x).ciph = s.ciph := rfl
@[simp] theorem setTsq_boot (s : State) (p : Fin 64) (x : Tsq) :
    (setTsq s p x).boot = s.boot := rfl
@[simp] theorem setTsq_ptp (s : State) (p : Fin 64) (x : Tsq) :
    (setTsq s p x).ptp = s.ptp := rfl
@[simp] theorem setTsq_tio (s : State) (p : Fin 64) (x : Tsq) :
    (setTsq s p x).tio = s.tio := rfl
@[simp] theorem setTsq_late (s : State) (p : Fin 64) (x : Tsq) :
    (setTsq s p x).late = s.late := rfl
@[simp] theorem setTsq_light (s : State) (p : Fin 64) (x : Tsq) :
    (setTsq s p x).light = s.light := rfl
@[simp] theorem setTsq_ledger (s : State) (p : Fin 64) (x : Tsq) :
    (setTsq s p x).ledger = s.ledger := rfl
@[simp] theorem setTsq_therm (s : State) (p : Fin 64) (x : Tsq) :
    (setTsq s p x).therm = s.therm := rfl
@[simp] theorem setTsq_pondBw (s : State) (p : Fin 64) (x : Tsq) :
    (setTsq s p x).pondBw = s.pondBw := rfl
@[simp] theorem setTsq_pondCtr (s : State) (p : Fin 64) (x : Tsq) :
    (setTsq s p x).pondCtr = s.pondCtr := rfl
@[simp] theorem setTsq_pondPrio (s : State) (p : Fin 64) (x : Tsq) :
    (setTsq s p x).pondPrio = s.pondPrio := rfl
@[simp] theorem setTsq_msix (s : State) (p : Fin 64) (x : Tsq) :
    (setTsq s p x).msix = s.msix := rfl
@[simp] theorem setTsq_clk (s : State) (p : Fin 64) (x : Tsq) :
    (setTsq s p x).clk = s.clk := rfl

/-! ### `setEvt` -/

@[simp] theorem setEvt_pending (s : State) (i : Fin 4) (x : Tsq) :
    (setEvt s i x).pending = s.pending := rfl
@[simp] theorem setEvt_mode (s : State) (i : Fin 4) (x : Tsq) :
    (setEvt s i x).mode = s.mode := rfl
@[simp] theorem setEvt_sf (s : State) (i : Fin 4) (x : Tsq) :
    (setEvt s i x).sf = s.sf := rfl
@[simp] theorem setEvt_pages (s : State) (i : Fin 4) (x : Tsq) :
    (setEvt s i x).pages = s.pages := rfl
@[simp] theorem setEvt_ctr (s : State) (i : Fin 4) (x : Tsq) :
    (setEvt s i x).ctr = s.ctr := rfl
@[simp] theorem setEvt_out (s : State) (i : Fin 4) (x : Tsq) :
    (setEvt s i x).out = s.out := rfl
@[simp] theorem setEvt_cpw (s : State) (i : Fin 4) (x : Tsq) :
    (setEvt s i x).cpw = s.cpw := rfl
@[simp] theorem setEvt_i3c (s : State) (i : Fin 4) (x : Tsq) :
    (setEvt s i x).i3c = s.i3c := rfl
@[simp] theorem setEvt_fab (s : State) (i : Fin 4) (x : Tsq) :
    (setEvt s i x).fab = s.fab := rfl
@[simp] theorem setEvt_trays (s : State) (i : Fin 4) (x : Tsq) :
    (setEvt s i x).trays = s.trays := rfl
@[simp] theorem setEvt_mem (s : State) (i : Fin 4) (x : Tsq) :
    (setEvt s i x).mem = s.mem := rfl
@[simp] theorem setEvt_win (s : State) (i : Fin 4) (x : Tsq) :
    (setEvt s i x).win = s.win := rfl
@[simp] theorem setEvt_poison (s : State) (i : Fin 4) (x : Tsq) :
    (setEvt s i x).poison = s.poison := rfl
@[simp] theorem setEvt_coll (s : State) (i : Fin 4) (x : Tsq) :
    (setEvt s i x).coll = s.coll := rfl
@[simp] theorem setEvt_plans (s : State) (i : Fin 4) (x : Tsq) :
    (setEvt s i x).plans = s.plans := rfl
@[simp] theorem setEvt_power (s : State) (i : Fin 4) (x : Tsq) :
    (setEvt s i x).power = s.power := rfl
@[simp] theorem setEvt_egress (s : State) (i : Fin 4) (x : Tsq) :
    (setEvt s i x).egress = s.egress := rfl
@[simp] theorem setEvt_elog (s : State) (i : Fin 4) (x : Tsq) :
    (setEvt s i x).elog = s.elog := rfl
@[simp] theorem setEvt_rseq (s : State) (i : Fin 4) (x : Tsq) :
    (setEvt s i x).rseq = s.rseq := rfl
@[simp] theorem setEvt_lt (s : State) (i : Fin 4) (x : Tsq) :
    (setEvt s i x).lt = s.lt := rfl
@[simp] theorem setEvt_refills (s : State) (i : Fin 4) (x : Tsq) :
    (setEvt s i x).refills = s.refills := rfl
@[simp] theorem setEvt_police (s : State) (i : Fin 4) (x : Tsq) :
    (setEvt s i x).police = s.police := rfl
@[simp] theorem setEvt_rr (s : State) (i : Fin 4) (x : Tsq) :
    (setEvt s i x).rr = s.rr := rfl
@[simp] theorem setEvt_lineTx (s : State) (i : Fin 4) (x : Tsq) :
    (setEvt s i x).lineTx = s.lineTx := rfl
@[simp] theorem setEvt_outer (s : State) (i : Fin 4) (x : Tsq) :
    (setEvt s i x).outer = s.outer := rfl
@[simp] theorem setEvt_stTx (s : State) (i : Fin 4) (x : Tsq) :
    (setEvt s i x).stTx = s.stTx := rfl
@[simp] theorem setEvt_stTag (s : State) (i : Fin 4) (x : Tsq) :
    (setEvt s i x).stTag = s.stTag := rfl
@[simp] theorem setEvt_tdec (s : State) (i : Fin 4) (x : Tsq) :
    (setEvt s i x).tdec = s.tdec := rfl
@[simp] theorem setEvt_commits (s : State) (i : Fin 4) (x : Tsq) :
    (setEvt s i x).commits = s.commits := rfl
@[simp] theorem setEvt_line (s : State) (i : Fin 4) (x : Tsq) :
    (setEvt s i x).line = s.line := rfl
@[simp] theorem setEvt_ciph (s : State) (i : Fin 4) (x : Tsq) :
    (setEvt s i x).ciph = s.ciph := rfl
@[simp] theorem setEvt_boot (s : State) (i : Fin 4) (x : Tsq) :
    (setEvt s i x).boot = s.boot := rfl
@[simp] theorem setEvt_ptp (s : State) (i : Fin 4) (x : Tsq) :
    (setEvt s i x).ptp = s.ptp := rfl
@[simp] theorem setEvt_tsq (s : State) (i : Fin 4) (x : Tsq) :
    (setEvt s i x).tsq = s.tsq := rfl
@[simp] theorem setEvt_late (s : State) (i : Fin 4) (x : Tsq) :
    (setEvt s i x).late = s.late := rfl
@[simp] theorem setEvt_light (s : State) (i : Fin 4) (x : Tsq) :
    (setEvt s i x).light = s.light := rfl
@[simp] theorem setEvt_ledger (s : State) (i : Fin 4) (x : Tsq) :
    (setEvt s i x).ledger = s.ledger := rfl
@[simp] theorem setEvt_therm (s : State) (i : Fin 4) (x : Tsq) :
    (setEvt s i x).therm = s.therm := rfl
@[simp] theorem setEvt_pondBw (s : State) (i : Fin 4) (x : Tsq) :
    (setEvt s i x).pondBw = s.pondBw := rfl
@[simp] theorem setEvt_pondCtr (s : State) (i : Fin 4) (x : Tsq) :
    (setEvt s i x).pondCtr = s.pondCtr := rfl
@[simp] theorem setEvt_pondPrio (s : State) (i : Fin 4) (x : Tsq) :
    (setEvt s i x).pondPrio = s.pondPrio := rfl
@[simp] theorem setEvt_msix (s : State) (i : Fin 4) (x : Tsq) :
    (setEvt s i x).msix = s.msix := rfl
@[simp] theorem setEvt_clk (s : State) (i : Fin 4) (x : Tsq) :
    (setEvt s i x).clk = s.clk := rfl

/-! ### `setIns` -/

@[simp] theorem setIns_pending (s : State) (l : LinkId) (i : Insert) :
    (setIns s l i).pending = s.pending := rfl
@[simp] theorem setIns_mode (s : State) (l : LinkId) (i : Insert) :
    (setIns s l i).mode = s.mode := rfl
@[simp] theorem setIns_sf (s : State) (l : LinkId) (i : Insert) :
    (setIns s l i).sf = s.sf := rfl
@[simp] theorem setIns_pages (s : State) (l : LinkId) (i : Insert) :
    (setIns s l i).pages = s.pages := rfl
@[simp] theorem setIns_ctr (s : State) (l : LinkId) (i : Insert) :
    (setIns s l i).ctr = s.ctr := rfl
@[simp] theorem setIns_out (s : State) (l : LinkId) (i : Insert) :
    (setIns s l i).out = s.out := rfl
@[simp] theorem setIns_cpw (s : State) (l : LinkId) (i : Insert) :
    (setIns s l i).cpw = s.cpw := rfl
@[simp] theorem setIns_i3c (s : State) (l : LinkId) (i : Insert) :
    (setIns s l i).i3c = s.i3c := rfl
@[simp] theorem setIns_fab (s : State) (l : LinkId) (i : Insert) :
    (setIns s l i).fab = s.fab := rfl
@[simp] theorem setIns_trays (s : State) (l : LinkId) (i : Insert) :
    (setIns s l i).trays = s.trays := rfl
@[simp] theorem setIns_mem (s : State) (l : LinkId) (i : Insert) :
    (setIns s l i).mem = s.mem := rfl
@[simp] theorem setIns_win (s : State) (l : LinkId) (i : Insert) :
    (setIns s l i).win = s.win := rfl
@[simp] theorem setIns_poison (s : State) (l : LinkId) (i : Insert) :
    (setIns s l i).poison = s.poison := rfl
@[simp] theorem setIns_coll (s : State) (l : LinkId) (i : Insert) :
    (setIns s l i).coll = s.coll := rfl
@[simp] theorem setIns_plans (s : State) (l : LinkId) (i : Insert) :
    (setIns s l i).plans = s.plans := rfl
@[simp] theorem setIns_power (s : State) (l : LinkId) (i : Insert) :
    (setIns s l i).power = s.power := rfl
@[simp] theorem setIns_egress (s : State) (l : LinkId) (i : Insert) :
    (setIns s l i).egress = s.egress := rfl
@[simp] theorem setIns_elog (s : State) (l : LinkId) (i : Insert) :
    (setIns s l i).elog = s.elog := rfl
@[simp] theorem setIns_rseq (s : State) (l : LinkId) (i : Insert) :
    (setIns s l i).rseq = s.rseq := rfl
@[simp] theorem setIns_lt (s : State) (l : LinkId) (i : Insert) :
    (setIns s l i).lt = s.lt := rfl
@[simp] theorem setIns_refills (s : State) (l : LinkId) (i : Insert) :
    (setIns s l i).refills = s.refills := rfl
@[simp] theorem setIns_police (s : State) (l : LinkId) (i : Insert) :
    (setIns s l i).police = s.police := rfl
@[simp] theorem setIns_rr (s : State) (l : LinkId) (i : Insert) :
    (setIns s l i).rr = s.rr := rfl
@[simp] theorem setIns_lineTx (s : State) (l : LinkId) (i : Insert) :
    (setIns s l i).lineTx = s.lineTx := rfl
@[simp] theorem setIns_outer (s : State) (l : LinkId) (i : Insert) :
    (setIns s l i).outer = s.outer := rfl
@[simp] theorem setIns_stTx (s : State) (l : LinkId) (i : Insert) :
    (setIns s l i).stTx = s.stTx := rfl
@[simp] theorem setIns_stTag (s : State) (l : LinkId) (i : Insert) :
    (setIns s l i).stTag = s.stTag := rfl
@[simp] theorem setIns_tdec (s : State) (l : LinkId) (i : Insert) :
    (setIns s l i).tdec = s.tdec := rfl
@[simp] theorem setIns_commits (s : State) (l : LinkId) (i : Insert) :
    (setIns s l i).commits = s.commits := rfl
@[simp] theorem setIns_line (s : State) (l : LinkId) (i : Insert) :
    (setIns s l i).line = s.line := rfl
@[simp] theorem setIns_ciph (s : State) (l : LinkId) (i : Insert) :
    (setIns s l i).ciph = s.ciph := rfl
@[simp] theorem setIns_boot (s : State) (l : LinkId) (i : Insert) :
    (setIns s l i).boot = s.boot := rfl
@[simp] theorem setIns_ptp (s : State) (l : LinkId) (i : Insert) :
    (setIns s l i).ptp = s.ptp := rfl
@[simp] theorem setIns_tsq (s : State) (l : LinkId) (i : Insert) :
    (setIns s l i).tsq = s.tsq := rfl
@[simp] theorem setIns_tio (s : State) (l : LinkId) (i : Insert) :
    (setIns s l i).tio = s.tio := rfl
@[simp] theorem setIns_late (s : State) (l : LinkId) (i : Insert) :
    (setIns s l i).late = s.late := rfl
@[simp] theorem setIns_ledger (s : State) (l : LinkId) (i : Insert) :
    (setIns s l i).ledger = s.ledger := rfl
@[simp] theorem setIns_therm (s : State) (l : LinkId) (i : Insert) :
    (setIns s l i).therm = s.therm := rfl
@[simp] theorem setIns_pondBw (s : State) (l : LinkId) (i : Insert) :
    (setIns s l i).pondBw = s.pondBw := rfl
@[simp] theorem setIns_pondCtr (s : State) (l : LinkId) (i : Insert) :
    (setIns s l i).pondCtr = s.pondCtr := rfl
@[simp] theorem setIns_pondPrio (s : State) (l : LinkId) (i : Insert) :
    (setIns s l i).pondPrio = s.pondPrio := rfl
@[simp] theorem setIns_msix (s : State) (l : LinkId) (i : Insert) :
    (setIns s l i).msix = s.msix := rfl
@[simp] theorem setIns_clk (s : State) (l : LinkId) (i : Insert) :
    (setIns s l i).clk = s.clk := rfl

/-! ### `setPhy` -/

@[simp] theorem setPhy_pending (s : State) (p : Fin 64) (x : Phy) :
    (setPhy s p x).pending = s.pending := rfl
@[simp] theorem setPhy_mode (s : State) (p : Fin 64) (x : Phy) :
    (setPhy s p x).mode = s.mode := rfl
@[simp] theorem setPhy_sf (s : State) (p : Fin 64) (x : Phy) :
    (setPhy s p x).sf = s.sf := rfl
@[simp] theorem setPhy_pages (s : State) (p : Fin 64) (x : Phy) :
    (setPhy s p x).pages = s.pages := rfl
@[simp] theorem setPhy_ctr (s : State) (p : Fin 64) (x : Phy) :
    (setPhy s p x).ctr = s.ctr := rfl
@[simp] theorem setPhy_out (s : State) (p : Fin 64) (x : Phy) :
    (setPhy s p x).out = s.out := rfl
@[simp] theorem setPhy_cpw (s : State) (p : Fin 64) (x : Phy) :
    (setPhy s p x).cpw = s.cpw := rfl
@[simp] theorem setPhy_i3c (s : State) (p : Fin 64) (x : Phy) :
    (setPhy s p x).i3c = s.i3c := rfl
@[simp] theorem setPhy_fab (s : State) (p : Fin 64) (x : Phy) :
    (setPhy s p x).fab = s.fab := rfl
@[simp] theorem setPhy_trays (s : State) (p : Fin 64) (x : Phy) :
    (setPhy s p x).trays = s.trays := rfl
@[simp] theorem setPhy_mem (s : State) (p : Fin 64) (x : Phy) :
    (setPhy s p x).mem = s.mem := rfl
@[simp] theorem setPhy_win (s : State) (p : Fin 64) (x : Phy) :
    (setPhy s p x).win = s.win := rfl
@[simp] theorem setPhy_poison (s : State) (p : Fin 64) (x : Phy) :
    (setPhy s p x).poison = s.poison := rfl
@[simp] theorem setPhy_coll (s : State) (p : Fin 64) (x : Phy) :
    (setPhy s p x).coll = s.coll := rfl
@[simp] theorem setPhy_plans (s : State) (p : Fin 64) (x : Phy) :
    (setPhy s p x).plans = s.plans := rfl
@[simp] theorem setPhy_power (s : State) (p : Fin 64) (x : Phy) :
    (setPhy s p x).power = s.power := rfl
@[simp] theorem setPhy_egress (s : State) (p : Fin 64) (x : Phy) :
    (setPhy s p x).egress = s.egress := rfl
@[simp] theorem setPhy_elog (s : State) (p : Fin 64) (x : Phy) :
    (setPhy s p x).elog = s.elog := rfl
@[simp] theorem setPhy_rseq (s : State) (p : Fin 64) (x : Phy) :
    (setPhy s p x).rseq = s.rseq := rfl
@[simp] theorem setPhy_lt (s : State) (p : Fin 64) (x : Phy) :
    (setPhy s p x).lt = s.lt := rfl
@[simp] theorem setPhy_refills (s : State) (p : Fin 64) (x : Phy) :
    (setPhy s p x).refills = s.refills := rfl
@[simp] theorem setPhy_police (s : State) (p : Fin 64) (x : Phy) :
    (setPhy s p x).police = s.police := rfl
@[simp] theorem setPhy_rr (s : State) (p : Fin 64) (x : Phy) :
    (setPhy s p x).rr = s.rr := rfl
@[simp] theorem setPhy_lineTx (s : State) (p : Fin 64) (x : Phy) :
    (setPhy s p x).lineTx = s.lineTx := rfl
@[simp] theorem setPhy_outer (s : State) (p : Fin 64) (x : Phy) :
    (setPhy s p x).outer = s.outer := rfl
@[simp] theorem setPhy_stTx (s : State) (p : Fin 64) (x : Phy) :
    (setPhy s p x).stTx = s.stTx := rfl
@[simp] theorem setPhy_stTag (s : State) (p : Fin 64) (x : Phy) :
    (setPhy s p x).stTag = s.stTag := rfl
@[simp] theorem setPhy_tdec (s : State) (p : Fin 64) (x : Phy) :
    (setPhy s p x).tdec = s.tdec := rfl
@[simp] theorem setPhy_commits (s : State) (p : Fin 64) (x : Phy) :
    (setPhy s p x).commits = s.commits := rfl
@[simp] theorem setPhy_line (s : State) (p : Fin 64) (x : Phy) :
    (setPhy s p x).line = s.line := rfl
@[simp] theorem setPhy_ciph (s : State) (p : Fin 64) (x : Phy) :
    (setPhy s p x).ciph = s.ciph := rfl
@[simp] theorem setPhy_boot (s : State) (p : Fin 64) (x : Phy) :
    (setPhy s p x).boot = s.boot := rfl
@[simp] theorem setPhy_ptp (s : State) (p : Fin 64) (x : Phy) :
    (setPhy s p x).ptp = s.ptp := rfl
@[simp] theorem setPhy_tsq (s : State) (p : Fin 64) (x : Phy) :
    (setPhy s p x).tsq = s.tsq := rfl
@[simp] theorem setPhy_tio (s : State) (p : Fin 64) (x : Phy) :
    (setPhy s p x).tio = s.tio := rfl
@[simp] theorem setPhy_late (s : State) (p : Fin 64) (x : Phy) :
    (setPhy s p x).late = s.late := rfl
@[simp] theorem setPhy_ledger (s : State) (p : Fin 64) (x : Phy) :
    (setPhy s p x).ledger = s.ledger := rfl
@[simp] theorem setPhy_therm (s : State) (p : Fin 64) (x : Phy) :
    (setPhy s p x).therm = s.therm := rfl
@[simp] theorem setPhy_pondBw (s : State) (p : Fin 64) (x : Phy) :
    (setPhy s p x).pondBw = s.pondBw := rfl
@[simp] theorem setPhy_pondCtr (s : State) (p : Fin 64) (x : Phy) :
    (setPhy s p x).pondCtr = s.pondCtr := rfl
@[simp] theorem setPhy_pondPrio (s : State) (p : Fin 64) (x : Phy) :
    (setPhy s p x).pondPrio = s.pondPrio := rfl
@[simp] theorem setPhy_msix (s : State) (p : Fin 64) (x : Phy) :
    (setPhy s p x).msix = s.msix := rfl
@[simp] theorem setPhy_clk (s : State) (p : Fin 64) (x : Phy) :
    (setPhy s p x).clk = s.clk := rfl

/-! ### `setHold` -/

@[simp] theorem setHold_pending (s : State) (g : Fin 4) (l : List HeldFrame) :
    (setHold s g l).pending = s.pending := rfl
@[simp] theorem setHold_mode (s : State) (g : Fin 4) (l : List HeldFrame) :
    (setHold s g l).mode = s.mode := rfl
@[simp] theorem setHold_sf (s : State) (g : Fin 4) (l : List HeldFrame) :
    (setHold s g l).sf = s.sf := rfl
@[simp] theorem setHold_pages (s : State) (g : Fin 4) (l : List HeldFrame) :
    (setHold s g l).pages = s.pages := rfl
@[simp] theorem setHold_ctr (s : State) (g : Fin 4) (l : List HeldFrame) :
    (setHold s g l).ctr = s.ctr := rfl
@[simp] theorem setHold_out (s : State) (g : Fin 4) (l : List HeldFrame) :
    (setHold s g l).out = s.out := rfl
@[simp] theorem setHold_cpw (s : State) (g : Fin 4) (l : List HeldFrame) :
    (setHold s g l).cpw = s.cpw := rfl
@[simp] theorem setHold_i3c (s : State) (g : Fin 4) (l : List HeldFrame) :
    (setHold s g l).i3c = s.i3c := rfl
@[simp] theorem setHold_fab (s : State) (g : Fin 4) (l : List HeldFrame) :
    (setHold s g l).fab = s.fab := rfl
@[simp] theorem setHold_trays (s : State) (g : Fin 4) (l : List HeldFrame) :
    (setHold s g l).trays = s.trays := rfl
@[simp] theorem setHold_mem (s : State) (g : Fin 4) (l : List HeldFrame) :
    (setHold s g l).mem = s.mem := rfl
@[simp] theorem setHold_win (s : State) (g : Fin 4) (l : List HeldFrame) :
    (setHold s g l).win = s.win := rfl
@[simp] theorem setHold_poison (s : State) (g : Fin 4) (l : List HeldFrame) :
    (setHold s g l).poison = s.poison := rfl
@[simp] theorem setHold_coll (s : State) (g : Fin 4) (l : List HeldFrame) :
    (setHold s g l).coll = s.coll := rfl
@[simp] theorem setHold_plans (s : State) (g : Fin 4) (l : List HeldFrame) :
    (setHold s g l).plans = s.plans := rfl
@[simp] theorem setHold_power (s : State) (g : Fin 4) (l : List HeldFrame) :
    (setHold s g l).power = s.power := rfl
@[simp] theorem setHold_egress (s : State) (g : Fin 4) (l : List HeldFrame) :
    (setHold s g l).egress = s.egress := rfl
@[simp] theorem setHold_elog (s : State) (g : Fin 4) (l : List HeldFrame) :
    (setHold s g l).elog = s.elog := rfl
@[simp] theorem setHold_rseq (s : State) (g : Fin 4) (l : List HeldFrame) :
    (setHold s g l).rseq = s.rseq := rfl
@[simp] theorem setHold_lt (s : State) (g : Fin 4) (l : List HeldFrame) :
    (setHold s g l).lt = s.lt := rfl
@[simp] theorem setHold_refills (s : State) (g : Fin 4) (l : List HeldFrame) :
    (setHold s g l).refills = s.refills := rfl
@[simp] theorem setHold_police (s : State) (g : Fin 4) (l : List HeldFrame) :
    (setHold s g l).police = s.police := rfl
@[simp] theorem setHold_rr (s : State) (g : Fin 4) (l : List HeldFrame) :
    (setHold s g l).rr = s.rr := rfl
@[simp] theorem setHold_lineTx (s : State) (g : Fin 4) (l : List HeldFrame) :
    (setHold s g l).lineTx = s.lineTx := rfl
@[simp] theorem setHold_outer (s : State) (g : Fin 4) (l : List HeldFrame) :
    (setHold s g l).outer = s.outer := rfl
@[simp] theorem setHold_stTx (s : State) (g : Fin 4) (l : List HeldFrame) :
    (setHold s g l).stTx = s.stTx := rfl
@[simp] theorem setHold_stTag (s : State) (g : Fin 4) (l : List HeldFrame) :
    (setHold s g l).stTag = s.stTag := rfl
@[simp] theorem setHold_tdec (s : State) (g : Fin 4) (l : List HeldFrame) :
    (setHold s g l).tdec = s.tdec := rfl
@[simp] theorem setHold_commits (s : State) (g : Fin 4) (l : List HeldFrame) :
    (setHold s g l).commits = s.commits := rfl
@[simp] theorem setHold_line (s : State) (g : Fin 4) (l : List HeldFrame) :
    (setHold s g l).line = s.line := rfl
@[simp] theorem setHold_boot (s : State) (g : Fin 4) (l : List HeldFrame) :
    (setHold s g l).boot = s.boot := rfl
@[simp] theorem setHold_ptp (s : State) (g : Fin 4) (l : List HeldFrame) :
    (setHold s g l).ptp = s.ptp := rfl
@[simp] theorem setHold_tsq (s : State) (g : Fin 4) (l : List HeldFrame) :
    (setHold s g l).tsq = s.tsq := rfl
@[simp] theorem setHold_tio (s : State) (g : Fin 4) (l : List HeldFrame) :
    (setHold s g l).tio = s.tio := rfl
@[simp] theorem setHold_late (s : State) (g : Fin 4) (l : List HeldFrame) :
    (setHold s g l).late = s.late := rfl
@[simp] theorem setHold_light (s : State) (g : Fin 4) (l : List HeldFrame) :
    (setHold s g l).light = s.light := rfl
@[simp] theorem setHold_ledger (s : State) (g : Fin 4) (l : List HeldFrame) :
    (setHold s g l).ledger = s.ledger := rfl
@[simp] theorem setHold_therm (s : State) (g : Fin 4) (l : List HeldFrame) :
    (setHold s g l).therm = s.therm := rfl
@[simp] theorem setHold_pondBw (s : State) (g : Fin 4) (l : List HeldFrame) :
    (setHold s g l).pondBw = s.pondBw := rfl
@[simp] theorem setHold_pondCtr (s : State) (g : Fin 4) (l : List HeldFrame) :
    (setHold s g l).pondCtr = s.pondCtr := rfl
@[simp] theorem setHold_pondPrio (s : State) (g : Fin 4) (l : List HeldFrame) :
    (setHold s g l).pondPrio = s.pondPrio := rfl
@[simp] theorem setHold_msix (s : State) (g : Fin 4) (l : List HeldFrame) :
    (setHold s g l).msix = s.msix := rfl
@[simp] theorem setHold_clk (s : State) (g : Fin 4) (l : List HeldFrame) :
    (setHold s g l).clk = s.clk := rfl

/-! ### `setJobRec` -/

@[simp] theorem setJobRec_pending (s : State) (job : Nat) (r : JobRec) :
    (setJobRec s job r).pending = s.pending := rfl
@[simp] theorem setJobRec_mode (s : State) (job : Nat) (r : JobRec) :
    (setJobRec s job r).mode = s.mode := rfl
@[simp] theorem setJobRec_sf (s : State) (job : Nat) (r : JobRec) :
    (setJobRec s job r).sf = s.sf := rfl
@[simp] theorem setJobRec_pages (s : State) (job : Nat) (r : JobRec) :
    (setJobRec s job r).pages = s.pages := rfl
@[simp] theorem setJobRec_ctr (s : State) (job : Nat) (r : JobRec) :
    (setJobRec s job r).ctr = s.ctr := rfl
@[simp] theorem setJobRec_out (s : State) (job : Nat) (r : JobRec) :
    (setJobRec s job r).out = s.out := rfl
@[simp] theorem setJobRec_cpw (s : State) (job : Nat) (r : JobRec) :
    (setJobRec s job r).cpw = s.cpw := rfl
@[simp] theorem setJobRec_i3c (s : State) (job : Nat) (r : JobRec) :
    (setJobRec s job r).i3c = s.i3c := rfl
@[simp] theorem setJobRec_fab (s : State) (job : Nat) (r : JobRec) :
    (setJobRec s job r).fab = s.fab := rfl
@[simp] theorem setJobRec_trays (s : State) (job : Nat) (r : JobRec) :
    (setJobRec s job r).trays = s.trays := rfl
@[simp] theorem setJobRec_mem (s : State) (job : Nat) (r : JobRec) :
    (setJobRec s job r).mem = s.mem := rfl
@[simp] theorem setJobRec_win (s : State) (job : Nat) (r : JobRec) :
    (setJobRec s job r).win = s.win := rfl
@[simp] theorem setJobRec_poison (s : State) (job : Nat) (r : JobRec) :
    (setJobRec s job r).poison = s.poison := rfl
@[simp] theorem setJobRec_coll (s : State) (job : Nat) (r : JobRec) :
    (setJobRec s job r).coll = s.coll := rfl
@[simp] theorem setJobRec_plans (s : State) (job : Nat) (r : JobRec) :
    (setJobRec s job r).plans = s.plans := rfl
@[simp] theorem setJobRec_power (s : State) (job : Nat) (r : JobRec) :
    (setJobRec s job r).power = s.power := rfl
@[simp] theorem setJobRec_egress (s : State) (job : Nat) (r : JobRec) :
    (setJobRec s job r).egress = s.egress := rfl
@[simp] theorem setJobRec_elog (s : State) (job : Nat) (r : JobRec) :
    (setJobRec s job r).elog = s.elog := rfl
@[simp] theorem setJobRec_lt (s : State) (job : Nat) (r : JobRec) :
    (setJobRec s job r).lt = s.lt := rfl
@[simp] theorem setJobRec_refills (s : State) (job : Nat) (r : JobRec) :
    (setJobRec s job r).refills = s.refills := rfl
@[simp] theorem setJobRec_police (s : State) (job : Nat) (r : JobRec) :
    (setJobRec s job r).police = s.police := rfl
@[simp] theorem setJobRec_rr (s : State) (job : Nat) (r : JobRec) :
    (setJobRec s job r).rr = s.rr := rfl
@[simp] theorem setJobRec_lineTx (s : State) (job : Nat) (r : JobRec) :
    (setJobRec s job r).lineTx = s.lineTx := rfl
@[simp] theorem setJobRec_outer (s : State) (job : Nat) (r : JobRec) :
    (setJobRec s job r).outer = s.outer := rfl
@[simp] theorem setJobRec_stTx (s : State) (job : Nat) (r : JobRec) :
    (setJobRec s job r).stTx = s.stTx := rfl
@[simp] theorem setJobRec_stTag (s : State) (job : Nat) (r : JobRec) :
    (setJobRec s job r).stTag = s.stTag := rfl
@[simp] theorem setJobRec_tdec (s : State) (job : Nat) (r : JobRec) :
    (setJobRec s job r).tdec = s.tdec := rfl
@[simp] theorem setJobRec_commits (s : State) (job : Nat) (r : JobRec) :
    (setJobRec s job r).commits = s.commits := rfl
@[simp] theorem setJobRec_line (s : State) (job : Nat) (r : JobRec) :
    (setJobRec s job r).line = s.line := rfl
@[simp] theorem setJobRec_ciph (s : State) (job : Nat) (r : JobRec) :
    (setJobRec s job r).ciph = s.ciph := rfl
@[simp] theorem setJobRec_boot (s : State) (job : Nat) (r : JobRec) :
    (setJobRec s job r).boot = s.boot := rfl
@[simp] theorem setJobRec_ptp (s : State) (job : Nat) (r : JobRec) :
    (setJobRec s job r).ptp = s.ptp := rfl
@[simp] theorem setJobRec_tsq (s : State) (job : Nat) (r : JobRec) :
    (setJobRec s job r).tsq = s.tsq := rfl
@[simp] theorem setJobRec_tio (s : State) (job : Nat) (r : JobRec) :
    (setJobRec s job r).tio = s.tio := rfl
@[simp] theorem setJobRec_late (s : State) (job : Nat) (r : JobRec) :
    (setJobRec s job r).late = s.late := rfl
@[simp] theorem setJobRec_light (s : State) (job : Nat) (r : JobRec) :
    (setJobRec s job r).light = s.light := rfl
@[simp] theorem setJobRec_ledger (s : State) (job : Nat) (r : JobRec) :
    (setJobRec s job r).ledger = s.ledger := rfl
@[simp] theorem setJobRec_therm (s : State) (job : Nat) (r : JobRec) :
    (setJobRec s job r).therm = s.therm := rfl
@[simp] theorem setJobRec_pondBw (s : State) (job : Nat) (r : JobRec) :
    (setJobRec s job r).pondBw = s.pondBw := rfl
@[simp] theorem setJobRec_pondCtr (s : State) (job : Nat) (r : JobRec) :
    (setJobRec s job r).pondCtr = s.pondCtr := rfl
@[simp] theorem setJobRec_pondPrio (s : State) (job : Nat) (r : JobRec) :
    (setJobRec s job r).pondPrio = s.pondPrio := rfl
@[simp] theorem setJobRec_msix (s : State) (job : Nat) (r : JobRec) :
    (setJobRec s job r).msix = s.msix := rfl
@[simp] theorem setJobRec_clk (s : State) (job : Nat) (r : JobRec) :
    (setJobRec s job r).clk = s.clk := rfl

/-! ### `setTslot` -/

@[simp] theorem setTslot_pending (s : State) (t : Fin 64) (i : Nat) (x : TSlot) :
    (setTslot s t i x).pending = s.pending := rfl
@[simp] theorem setTslot_mode (s : State) (t : Fin 64) (i : Nat) (x : TSlot) :
    (setTslot s t i x).mode = s.mode := rfl
@[simp] theorem setTslot_sf (s : State) (t : Fin 64) (i : Nat) (x : TSlot) :
    (setTslot s t i x).sf = s.sf := rfl
@[simp] theorem setTslot_pages (s : State) (t : Fin 64) (i : Nat) (x : TSlot) :
    (setTslot s t i x).pages = s.pages := rfl
@[simp] theorem setTslot_ctr (s : State) (t : Fin 64) (i : Nat) (x : TSlot) :
    (setTslot s t i x).ctr = s.ctr := rfl
@[simp] theorem setTslot_out (s : State) (t : Fin 64) (i : Nat) (x : TSlot) :
    (setTslot s t i x).out = s.out := rfl
@[simp] theorem setTslot_cpw (s : State) (t : Fin 64) (i : Nat) (x : TSlot) :
    (setTslot s t i x).cpw = s.cpw := rfl
@[simp] theorem setTslot_i3c (s : State) (t : Fin 64) (i : Nat) (x : TSlot) :
    (setTslot s t i x).i3c = s.i3c := rfl
@[simp] theorem setTslot_fab (s : State) (t : Fin 64) (i : Nat) (x : TSlot) :
    (setTslot s t i x).fab = s.fab := rfl
@[simp] theorem setTslot_trays (s : State) (t : Fin 64) (i : Nat) (x : TSlot) :
    (setTslot s t i x).trays = s.trays := rfl
@[simp] theorem setTslot_mem (s : State) (t : Fin 64) (i : Nat) (x : TSlot) :
    (setTslot s t i x).mem = s.mem := rfl
@[simp] theorem setTslot_win (s : State) (t : Fin 64) (i : Nat) (x : TSlot) :
    (setTslot s t i x).win = s.win := rfl
@[simp] theorem setTslot_poison (s : State) (t : Fin 64) (i : Nat) (x : TSlot) :
    (setTslot s t i x).poison = s.poison := rfl
@[simp] theorem setTslot_coll (s : State) (t : Fin 64) (i : Nat) (x : TSlot) :
    (setTslot s t i x).coll = s.coll := rfl
@[simp] theorem setTslot_plans (s : State) (t : Fin 64) (i : Nat) (x : TSlot) :
    (setTslot s t i x).plans = s.plans := rfl
@[simp] theorem setTslot_power (s : State) (t : Fin 64) (i : Nat) (x : TSlot) :
    (setTslot s t i x).power = s.power := rfl
@[simp] theorem setTslot_egress (s : State) (t : Fin 64) (i : Nat) (x : TSlot) :
    (setTslot s t i x).egress = s.egress := rfl
@[simp] theorem setTslot_elog (s : State) (t : Fin 64) (i : Nat) (x : TSlot) :
    (setTslot s t i x).elog = s.elog := rfl
@[simp] theorem setTslot_rseq (s : State) (t : Fin 64) (i : Nat) (x : TSlot) :
    (setTslot s t i x).rseq = s.rseq := rfl
@[simp] theorem setTslot_lt (s : State) (t : Fin 64) (i : Nat) (x : TSlot) :
    (setTslot s t i x).lt = s.lt := rfl
@[simp] theorem setTslot_refills (s : State) (t : Fin 64) (i : Nat) (x : TSlot) :
    (setTslot s t i x).refills = s.refills := rfl
@[simp] theorem setTslot_police (s : State) (t : Fin 64) (i : Nat) (x : TSlot) :
    (setTslot s t i x).police = s.police := rfl
@[simp] theorem setTslot_rr (s : State) (t : Fin 64) (i : Nat) (x : TSlot) :
    (setTslot s t i x).rr = s.rr := rfl
@[simp] theorem setTslot_lineTx (s : State) (t : Fin 64) (i : Nat) (x : TSlot) :
    (setTslot s t i x).lineTx = s.lineTx := rfl
@[simp] theorem setTslot_outer (s : State) (t : Fin 64) (i : Nat) (x : TSlot) :
    (setTslot s t i x).outer = s.outer := rfl
@[simp] theorem setTslot_stTx (s : State) (t : Fin 64) (i : Nat) (x : TSlot) :
    (setTslot s t i x).stTx = s.stTx := rfl
@[simp] theorem setTslot_stTag (s : State) (t : Fin 64) (i : Nat) (x : TSlot) :
    (setTslot s t i x).stTag = s.stTag := rfl
@[simp] theorem setTslot_commits (s : State) (t : Fin 64) (i : Nat) (x : TSlot) :
    (setTslot s t i x).commits = s.commits := rfl
@[simp] theorem setTslot_line (s : State) (t : Fin 64) (i : Nat) (x : TSlot) :
    (setTslot s t i x).line = s.line := rfl
@[simp] theorem setTslot_ciph (s : State) (t : Fin 64) (i : Nat) (x : TSlot) :
    (setTslot s t i x).ciph = s.ciph := rfl
@[simp] theorem setTslot_boot (s : State) (t : Fin 64) (i : Nat) (x : TSlot) :
    (setTslot s t i x).boot = s.boot := rfl
@[simp] theorem setTslot_ptp (s : State) (t : Fin 64) (i : Nat) (x : TSlot) :
    (setTslot s t i x).ptp = s.ptp := rfl
@[simp] theorem setTslot_tsq (s : State) (t : Fin 64) (i : Nat) (x : TSlot) :
    (setTslot s t i x).tsq = s.tsq := rfl
@[simp] theorem setTslot_tio (s : State) (t : Fin 64) (i : Nat) (x : TSlot) :
    (setTslot s t i x).tio = s.tio := rfl
@[simp] theorem setTslot_late (s : State) (t : Fin 64) (i : Nat) (x : TSlot) :
    (setTslot s t i x).late = s.late := rfl
@[simp] theorem setTslot_light (s : State) (t : Fin 64) (i : Nat) (x : TSlot) :
    (setTslot s t i x).light = s.light := rfl
@[simp] theorem setTslot_ledger (s : State) (t : Fin 64) (i : Nat) (x : TSlot) :
    (setTslot s t i x).ledger = s.ledger := rfl
@[simp] theorem setTslot_therm (s : State) (t : Fin 64) (i : Nat) (x : TSlot) :
    (setTslot s t i x).therm = s.therm := rfl
@[simp] theorem setTslot_pondBw (s : State) (t : Fin 64) (i : Nat) (x : TSlot) :
    (setTslot s t i x).pondBw = s.pondBw := rfl
@[simp] theorem setTslot_pondCtr (s : State) (t : Fin 64) (i : Nat) (x : TSlot) :
    (setTslot s t i x).pondCtr = s.pondCtr := rfl
@[simp] theorem setTslot_pondPrio (s : State) (t : Fin 64) (i : Nat) (x : TSlot) :
    (setTslot s t i x).pondPrio = s.pondPrio := rfl
@[simp] theorem setTslot_msix (s : State) (t : Fin 64) (i : Nat) (x : TSlot) :
    (setTslot s t i x).msix = s.msix := rfl
@[simp] theorem setTslot_clk (s : State) (t : Fin 64) (i : Nat) (x : TSlot) :
    (setTslot s t i x).clk = s.clk := rfl

/-! ### `setTqueue` -/

@[simp] theorem setTqueue_pending (s : State) (t : Fin 64) (l : List DBlock) :
    (setTqueue s t l).pending = s.pending := rfl
@[simp] theorem setTqueue_mode (s : State) (t : Fin 64) (l : List DBlock) :
    (setTqueue s t l).mode = s.mode := rfl
@[simp] theorem setTqueue_sf (s : State) (t : Fin 64) (l : List DBlock) :
    (setTqueue s t l).sf = s.sf := rfl
@[simp] theorem setTqueue_pages (s : State) (t : Fin 64) (l : List DBlock) :
    (setTqueue s t l).pages = s.pages := rfl
@[simp] theorem setTqueue_ctr (s : State) (t : Fin 64) (l : List DBlock) :
    (setTqueue s t l).ctr = s.ctr := rfl
@[simp] theorem setTqueue_out (s : State) (t : Fin 64) (l : List DBlock) :
    (setTqueue s t l).out = s.out := rfl
@[simp] theorem setTqueue_cpw (s : State) (t : Fin 64) (l : List DBlock) :
    (setTqueue s t l).cpw = s.cpw := rfl
@[simp] theorem setTqueue_i3c (s : State) (t : Fin 64) (l : List DBlock) :
    (setTqueue s t l).i3c = s.i3c := rfl
@[simp] theorem setTqueue_fab (s : State) (t : Fin 64) (l : List DBlock) :
    (setTqueue s t l).fab = s.fab := rfl
@[simp] theorem setTqueue_trays (s : State) (t : Fin 64) (l : List DBlock) :
    (setTqueue s t l).trays = s.trays := rfl
@[simp] theorem setTqueue_mem (s : State) (t : Fin 64) (l : List DBlock) :
    (setTqueue s t l).mem = s.mem := rfl
@[simp] theorem setTqueue_win (s : State) (t : Fin 64) (l : List DBlock) :
    (setTqueue s t l).win = s.win := rfl
@[simp] theorem setTqueue_poison (s : State) (t : Fin 64) (l : List DBlock) :
    (setTqueue s t l).poison = s.poison := rfl
@[simp] theorem setTqueue_coll (s : State) (t : Fin 64) (l : List DBlock) :
    (setTqueue s t l).coll = s.coll := rfl
@[simp] theorem setTqueue_plans (s : State) (t : Fin 64) (l : List DBlock) :
    (setTqueue s t l).plans = s.plans := rfl
@[simp] theorem setTqueue_power (s : State) (t : Fin 64) (l : List DBlock) :
    (setTqueue s t l).power = s.power := rfl
@[simp] theorem setTqueue_egress (s : State) (t : Fin 64) (l : List DBlock) :
    (setTqueue s t l).egress = s.egress := rfl
@[simp] theorem setTqueue_elog (s : State) (t : Fin 64) (l : List DBlock) :
    (setTqueue s t l).elog = s.elog := rfl
@[simp] theorem setTqueue_rseq (s : State) (t : Fin 64) (l : List DBlock) :
    (setTqueue s t l).rseq = s.rseq := rfl
@[simp] theorem setTqueue_lt (s : State) (t : Fin 64) (l : List DBlock) :
    (setTqueue s t l).lt = s.lt := rfl
@[simp] theorem setTqueue_refills (s : State) (t : Fin 64) (l : List DBlock) :
    (setTqueue s t l).refills = s.refills := rfl
@[simp] theorem setTqueue_police (s : State) (t : Fin 64) (l : List DBlock) :
    (setTqueue s t l).police = s.police := rfl
@[simp] theorem setTqueue_rr (s : State) (t : Fin 64) (l : List DBlock) :
    (setTqueue s t l).rr = s.rr := rfl
@[simp] theorem setTqueue_lineTx (s : State) (t : Fin 64) (l : List DBlock) :
    (setTqueue s t l).lineTx = s.lineTx := rfl
@[simp] theorem setTqueue_outer (s : State) (t : Fin 64) (l : List DBlock) :
    (setTqueue s t l).outer = s.outer := rfl
@[simp] theorem setTqueue_stTx (s : State) (t : Fin 64) (l : List DBlock) :
    (setTqueue s t l).stTx = s.stTx := rfl
@[simp] theorem setTqueue_stTag (s : State) (t : Fin 64) (l : List DBlock) :
    (setTqueue s t l).stTag = s.stTag := rfl
@[simp] theorem setTqueue_commits (s : State) (t : Fin 64) (l : List DBlock) :
    (setTqueue s t l).commits = s.commits := rfl
@[simp] theorem setTqueue_line (s : State) (t : Fin 64) (l : List DBlock) :
    (setTqueue s t l).line = s.line := rfl
@[simp] theorem setTqueue_ciph (s : State) (t : Fin 64) (l : List DBlock) :
    (setTqueue s t l).ciph = s.ciph := rfl
@[simp] theorem setTqueue_boot (s : State) (t : Fin 64) (l : List DBlock) :
    (setTqueue s t l).boot = s.boot := rfl
@[simp] theorem setTqueue_ptp (s : State) (t : Fin 64) (l : List DBlock) :
    (setTqueue s t l).ptp = s.ptp := rfl
@[simp] theorem setTqueue_tsq (s : State) (t : Fin 64) (l : List DBlock) :
    (setTqueue s t l).tsq = s.tsq := rfl
@[simp] theorem setTqueue_tio (s : State) (t : Fin 64) (l : List DBlock) :
    (setTqueue s t l).tio = s.tio := rfl
@[simp] theorem setTqueue_late (s : State) (t : Fin 64) (l : List DBlock) :
    (setTqueue s t l).late = s.late := rfl
@[simp] theorem setTqueue_light (s : State) (t : Fin 64) (l : List DBlock) :
    (setTqueue s t l).light = s.light := rfl
@[simp] theorem setTqueue_ledger (s : State) (t : Fin 64) (l : List DBlock) :
    (setTqueue s t l).ledger = s.ledger := rfl
@[simp] theorem setTqueue_therm (s : State) (t : Fin 64) (l : List DBlock) :
    (setTqueue s t l).therm = s.therm := rfl
@[simp] theorem setTqueue_pondBw (s : State) (t : Fin 64) (l : List DBlock) :
    (setTqueue s t l).pondBw = s.pondBw := rfl
@[simp] theorem setTqueue_pondCtr (s : State) (t : Fin 64) (l : List DBlock) :
    (setTqueue s t l).pondCtr = s.pondCtr := rfl
@[simp] theorem setTqueue_pondPrio (s : State) (t : Fin 64) (l : List DBlock) :
    (setTqueue s t l).pondPrio = s.pondPrio := rfl
@[simp] theorem setTqueue_msix (s : State) (t : Fin 64) (l : List DBlock) :
    (setTqueue s t l).msix = s.msix := rfl
@[simp] theorem setTqueue_clk (s : State) (t : Fin 64) (l : List DBlock) :
    (setTqueue s t l).clk = s.clk := rfl

/-! ### `setJob` -/

@[simp] theorem setJob_pending (s : State) (j : Nat) (x : Job) :
    (setJob s j x).pending = s.pending := rfl
@[simp] theorem setJob_mode (s : State) (j : Nat) (x : Job) :
    (setJob s j x).mode = s.mode := rfl
@[simp] theorem setJob_sf (s : State) (j : Nat) (x : Job) :
    (setJob s j x).sf = s.sf := rfl
@[simp] theorem setJob_pages (s : State) (j : Nat) (x : Job) :
    (setJob s j x).pages = s.pages := rfl
@[simp] theorem setJob_ctr (s : State) (j : Nat) (x : Job) :
    (setJob s j x).ctr = s.ctr := rfl
@[simp] theorem setJob_out (s : State) (j : Nat) (x : Job) :
    (setJob s j x).out = s.out := rfl
@[simp] theorem setJob_cpw (s : State) (j : Nat) (x : Job) :
    (setJob s j x).cpw = s.cpw := rfl
@[simp] theorem setJob_i3c (s : State) (j : Nat) (x : Job) :
    (setJob s j x).i3c = s.i3c := rfl
@[simp] theorem setJob_fab (s : State) (j : Nat) (x : Job) :
    (setJob s j x).fab = s.fab := rfl
@[simp] theorem setJob_trays (s : State) (j : Nat) (x : Job) :
    (setJob s j x).trays = s.trays := rfl
@[simp] theorem setJob_mem (s : State) (j : Nat) (x : Job) :
    (setJob s j x).mem = s.mem := rfl
@[simp] theorem setJob_win (s : State) (j : Nat) (x : Job) :
    (setJob s j x).win = s.win := rfl
@[simp] theorem setJob_poison (s : State) (j : Nat) (x : Job) :
    (setJob s j x).poison = s.poison := rfl
@[simp] theorem setJob_coll (s : State) (j : Nat) (x : Job) :
    (setJob s j x).coll = s.coll := rfl
@[simp] theorem setJob_plans (s : State) (j : Nat) (x : Job) :
    (setJob s j x).plans = s.plans := rfl
@[simp] theorem setJob_power (s : State) (j : Nat) (x : Job) :
    (setJob s j x).power = s.power := rfl
@[simp] theorem setJob_egress (s : State) (j : Nat) (x : Job) :
    (setJob s j x).egress = s.egress := rfl
@[simp] theorem setJob_elog (s : State) (j : Nat) (x : Job) :
    (setJob s j x).elog = s.elog := rfl
@[simp] theorem setJob_rseq (s : State) (j : Nat) (x : Job) :
    (setJob s j x).rseq = s.rseq := rfl
@[simp] theorem setJob_lt (s : State) (j : Nat) (x : Job) :
    (setJob s j x).lt = s.lt := rfl
@[simp] theorem setJob_refills (s : State) (j : Nat) (x : Job) :
    (setJob s j x).refills = s.refills := rfl
@[simp] theorem setJob_police (s : State) (j : Nat) (x : Job) :
    (setJob s j x).police = s.police := rfl
@[simp] theorem setJob_rr (s : State) (j : Nat) (x : Job) :
    (setJob s j x).rr = s.rr := rfl
@[simp] theorem setJob_lineTx (s : State) (j : Nat) (x : Job) :
    (setJob s j x).lineTx = s.lineTx := rfl
@[simp] theorem setJob_stTx (s : State) (j : Nat) (x : Job) :
    (setJob s j x).stTx = s.stTx := rfl
@[simp] theorem setJob_stTag (s : State) (j : Nat) (x : Job) :
    (setJob s j x).stTag = s.stTag := rfl
@[simp] theorem setJob_tdec (s : State) (j : Nat) (x : Job) :
    (setJob s j x).tdec = s.tdec := rfl
@[simp] theorem setJob_commits (s : State) (j : Nat) (x : Job) :
    (setJob s j x).commits = s.commits := rfl
@[simp] theorem setJob_line (s : State) (j : Nat) (x : Job) :
    (setJob s j x).line = s.line := rfl
@[simp] theorem setJob_ciph (s : State) (j : Nat) (x : Job) :
    (setJob s j x).ciph = s.ciph := rfl
@[simp] theorem setJob_boot (s : State) (j : Nat) (x : Job) :
    (setJob s j x).boot = s.boot := rfl
@[simp] theorem setJob_ptp (s : State) (j : Nat) (x : Job) :
    (setJob s j x).ptp = s.ptp := rfl
@[simp] theorem setJob_tsq (s : State) (j : Nat) (x : Job) :
    (setJob s j x).tsq = s.tsq := rfl
@[simp] theorem setJob_tio (s : State) (j : Nat) (x : Job) :
    (setJob s j x).tio = s.tio := rfl
@[simp] theorem setJob_late (s : State) (j : Nat) (x : Job) :
    (setJob s j x).late = s.late := rfl
@[simp] theorem setJob_light (s : State) (j : Nat) (x : Job) :
    (setJob s j x).light = s.light := rfl
@[simp] theorem setJob_ledger (s : State) (j : Nat) (x : Job) :
    (setJob s j x).ledger = s.ledger := rfl
@[simp] theorem setJob_therm (s : State) (j : Nat) (x : Job) :
    (setJob s j x).therm = s.therm := rfl
@[simp] theorem setJob_pondBw (s : State) (j : Nat) (x : Job) :
    (setJob s j x).pondBw = s.pondBw := rfl
@[simp] theorem setJob_pondCtr (s : State) (j : Nat) (x : Job) :
    (setJob s j x).pondCtr = s.pondCtr := rfl
@[simp] theorem setJob_pondPrio (s : State) (j : Nat) (x : Job) :
    (setJob s j x).pondPrio = s.pondPrio := rfl
@[simp] theorem setJob_msix (s : State) (j : Nat) (x : Job) :
    (setJob s j x).msix = s.msix := rfl
@[simp] theorem setJob_clk (s : State) (j : Nat) (x : Job) :
    (setJob s j x).clk = s.clk := rfl

/-! ### `setProve` -/

@[simp] theorem setProve_pending (s : State) (p : Prove) :
    (setProve s p).pending = s.pending := rfl
@[simp] theorem setProve_mode (s : State) (p : Prove) :
    (setProve s p).mode = s.mode := rfl
@[simp] theorem setProve_sf (s : State) (p : Prove) :
    (setProve s p).sf = s.sf := rfl
@[simp] theorem setProve_pages (s : State) (p : Prove) :
    (setProve s p).pages = s.pages := rfl
@[simp] theorem setProve_ctr (s : State) (p : Prove) :
    (setProve s p).ctr = s.ctr := rfl
@[simp] theorem setProve_out (s : State) (p : Prove) :
    (setProve s p).out = s.out := rfl
@[simp] theorem setProve_cpw (s : State) (p : Prove) :
    (setProve s p).cpw = s.cpw := rfl
@[simp] theorem setProve_i3c (s : State) (p : Prove) :
    (setProve s p).i3c = s.i3c := rfl
@[simp] theorem setProve_fab (s : State) (p : Prove) :
    (setProve s p).fab = s.fab := rfl
@[simp] theorem setProve_trays (s : State) (p : Prove) :
    (setProve s p).trays = s.trays := rfl
@[simp] theorem setProve_mem (s : State) (p : Prove) :
    (setProve s p).mem = s.mem := rfl
@[simp] theorem setProve_win (s : State) (p : Prove) :
    (setProve s p).win = s.win := rfl
@[simp] theorem setProve_poison (s : State) (p : Prove) :
    (setProve s p).poison = s.poison := rfl
@[simp] theorem setProve_coll (s : State) (p : Prove) :
    (setProve s p).coll = s.coll := rfl
@[simp] theorem setProve_plans (s : State) (p : Prove) :
    (setProve s p).plans = s.plans := rfl
@[simp] theorem setProve_power (s : State) (p : Prove) :
    (setProve s p).power = s.power := rfl
@[simp] theorem setProve_egress (s : State) (p : Prove) :
    (setProve s p).egress = s.egress := rfl
@[simp] theorem setProve_elog (s : State) (p : Prove) :
    (setProve s p).elog = s.elog := rfl
@[simp] theorem setProve_lt (s : State) (p : Prove) :
    (setProve s p).lt = s.lt := rfl
@[simp] theorem setProve_refills (s : State) (p : Prove) :
    (setProve s p).refills = s.refills := rfl
@[simp] theorem setProve_police (s : State) (p : Prove) :
    (setProve s p).police = s.police := rfl
@[simp] theorem setProve_rr (s : State) (p : Prove) :
    (setProve s p).rr = s.rr := rfl
@[simp] theorem setProve_lineTx (s : State) (p : Prove) :
    (setProve s p).lineTx = s.lineTx := rfl
@[simp] theorem setProve_outer (s : State) (p : Prove) :
    (setProve s p).outer = s.outer := rfl
@[simp] theorem setProve_stTx (s : State) (p : Prove) :
    (setProve s p).stTx = s.stTx := rfl
@[simp] theorem setProve_stTag (s : State) (p : Prove) :
    (setProve s p).stTag = s.stTag := rfl
@[simp] theorem setProve_tdec (s : State) (p : Prove) :
    (setProve s p).tdec = s.tdec := rfl
@[simp] theorem setProve_commits (s : State) (p : Prove) :
    (setProve s p).commits = s.commits := rfl
@[simp] theorem setProve_line (s : State) (p : Prove) :
    (setProve s p).line = s.line := rfl
@[simp] theorem setProve_ciph (s : State) (p : Prove) :
    (setProve s p).ciph = s.ciph := rfl
@[simp] theorem setProve_boot (s : State) (p : Prove) :
    (setProve s p).boot = s.boot := rfl
@[simp] theorem setProve_ptp (s : State) (p : Prove) :
    (setProve s p).ptp = s.ptp := rfl
@[simp] theorem setProve_tsq (s : State) (p : Prove) :
    (setProve s p).tsq = s.tsq := rfl
@[simp] theorem setProve_tio (s : State) (p : Prove) :
    (setProve s p).tio = s.tio := rfl
@[simp] theorem setProve_late (s : State) (p : Prove) :
    (setProve s p).late = s.late := rfl
@[simp] theorem setProve_light (s : State) (p : Prove) :
    (setProve s p).light = s.light := rfl
@[simp] theorem setProve_ledger (s : State) (p : Prove) :
    (setProve s p).ledger = s.ledger := rfl
@[simp] theorem setProve_therm (s : State) (p : Prove) :
    (setProve s p).therm = s.therm := rfl
@[simp] theorem setProve_pondBw (s : State) (p : Prove) :
    (setProve s p).pondBw = s.pondBw := rfl
@[simp] theorem setProve_pondCtr (s : State) (p : Prove) :
    (setProve s p).pondCtr = s.pondCtr := rfl
@[simp] theorem setProve_pondPrio (s : State) (p : Prove) :
    (setProve s p).pondPrio = s.pondPrio := rfl
@[simp] theorem setProve_msix (s : State) (p : Prove) :
    (setProve s p).msix = s.msix := rfl
@[simp] theorem setProve_clk (s : State) (p : Prove) :
    (setProve s p).clk = s.clk := rfl

/-! ### `lineSend` -/

@[simp] theorem lineSend_pending (s : State) (l : LinkId) (vc : Nat) (u : LUnit) :
    (lineSend s l vc u).pending = s.pending := rfl
@[simp] theorem lineSend_mode (s : State) (l : LinkId) (vc : Nat) (u : LUnit) :
    (lineSend s l vc u).mode = s.mode := rfl
@[simp] theorem lineSend_sf (s : State) (l : LinkId) (vc : Nat) (u : LUnit) :
    (lineSend s l vc u).sf = s.sf := rfl
@[simp] theorem lineSend_pages (s : State) (l : LinkId) (vc : Nat) (u : LUnit) :
    (lineSend s l vc u).pages = s.pages := rfl
@[simp] theorem lineSend_ctr (s : State) (l : LinkId) (vc : Nat) (u : LUnit) :
    (lineSend s l vc u).ctr = s.ctr := rfl
@[simp] theorem lineSend_out (s : State) (l : LinkId) (vc : Nat) (u : LUnit) :
    (lineSend s l vc u).out = s.out := rfl
@[simp] theorem lineSend_cpw (s : State) (l : LinkId) (vc : Nat) (u : LUnit) :
    (lineSend s l vc u).cpw = s.cpw := rfl
@[simp] theorem lineSend_i3c (s : State) (l : LinkId) (vc : Nat) (u : LUnit) :
    (lineSend s l vc u).i3c = s.i3c := rfl
@[simp] theorem lineSend_fab (s : State) (l : LinkId) (vc : Nat) (u : LUnit) :
    (lineSend s l vc u).fab = s.fab := rfl
@[simp] theorem lineSend_trays (s : State) (l : LinkId) (vc : Nat) (u : LUnit) :
    (lineSend s l vc u).trays = s.trays := rfl
@[simp] theorem lineSend_mem (s : State) (l : LinkId) (vc : Nat) (u : LUnit) :
    (lineSend s l vc u).mem = s.mem := rfl
@[simp] theorem lineSend_win (s : State) (l : LinkId) (vc : Nat) (u : LUnit) :
    (lineSend s l vc u).win = s.win := rfl
@[simp] theorem lineSend_poison (s : State) (l : LinkId) (vc : Nat) (u : LUnit) :
    (lineSend s l vc u).poison = s.poison := rfl
@[simp] theorem lineSend_coll (s : State) (l : LinkId) (vc : Nat) (u : LUnit) :
    (lineSend s l vc u).coll = s.coll := rfl
@[simp] theorem lineSend_plans (s : State) (l : LinkId) (vc : Nat) (u : LUnit) :
    (lineSend s l vc u).plans = s.plans := rfl
@[simp] theorem lineSend_power (s : State) (l : LinkId) (vc : Nat) (u : LUnit) :
    (lineSend s l vc u).power = s.power := rfl
@[simp] theorem lineSend_egress (s : State) (l : LinkId) (vc : Nat) (u : LUnit) :
    (lineSend s l vc u).egress = s.egress := rfl
@[simp] theorem lineSend_elog (s : State) (l : LinkId) (vc : Nat) (u : LUnit) :
    (lineSend s l vc u).elog = s.elog := rfl
@[simp] theorem lineSend_rseq (s : State) (l : LinkId) (vc : Nat) (u : LUnit) :
    (lineSend s l vc u).rseq = s.rseq := rfl
@[simp] theorem lineSend_lt (s : State) (l : LinkId) (vc : Nat) (u : LUnit) :
    (lineSend s l vc u).lt = s.lt := rfl
@[simp] theorem lineSend_refills (s : State) (l : LinkId) (vc : Nat) (u : LUnit) :
    (lineSend s l vc u).refills = s.refills := rfl
@[simp] theorem lineSend_police (s : State) (l : LinkId) (vc : Nat) (u : LUnit) :
    (lineSend s l vc u).police = s.police := rfl
@[simp] theorem lineSend_rr (s : State) (l : LinkId) (vc : Nat) (u : LUnit) :
    (lineSend s l vc u).rr = s.rr := rfl
@[simp] theorem lineSend_outer (s : State) (l : LinkId) (vc : Nat) (u : LUnit) :
    (lineSend s l vc u).outer = s.outer := rfl
@[simp] theorem lineSend_stTx (s : State) (l : LinkId) (vc : Nat) (u : LUnit) :
    (lineSend s l vc u).stTx = s.stTx := rfl
@[simp] theorem lineSend_stTag (s : State) (l : LinkId) (vc : Nat) (u : LUnit) :
    (lineSend s l vc u).stTag = s.stTag := rfl
@[simp] theorem lineSend_tdec (s : State) (l : LinkId) (vc : Nat) (u : LUnit) :
    (lineSend s l vc u).tdec = s.tdec := rfl
@[simp] theorem lineSend_commits (s : State) (l : LinkId) (vc : Nat) (u : LUnit) :
    (lineSend s l vc u).commits = s.commits := rfl
@[simp] theorem lineSend_line (s : State) (l : LinkId) (vc : Nat) (u : LUnit) :
    (lineSend s l vc u).line = s.line := rfl
@[simp] theorem lineSend_ciph (s : State) (l : LinkId) (vc : Nat) (u : LUnit) :
    (lineSend s l vc u).ciph = s.ciph := rfl
@[simp] theorem lineSend_boot (s : State) (l : LinkId) (vc : Nat) (u : LUnit) :
    (lineSend s l vc u).boot = s.boot := rfl
@[simp] theorem lineSend_ptp (s : State) (l : LinkId) (vc : Nat) (u : LUnit) :
    (lineSend s l vc u).ptp = s.ptp := rfl
@[simp] theorem lineSend_tsq (s : State) (l : LinkId) (vc : Nat) (u : LUnit) :
    (lineSend s l vc u).tsq = s.tsq := rfl
@[simp] theorem lineSend_tio (s : State) (l : LinkId) (vc : Nat) (u : LUnit) :
    (lineSend s l vc u).tio = s.tio := rfl
@[simp] theorem lineSend_late (s : State) (l : LinkId) (vc : Nat) (u : LUnit) :
    (lineSend s l vc u).late = s.late := rfl
@[simp] theorem lineSend_light (s : State) (l : LinkId) (vc : Nat) (u : LUnit) :
    (lineSend s l vc u).light = s.light := rfl
@[simp] theorem lineSend_ledger (s : State) (l : LinkId) (vc : Nat) (u : LUnit) :
    (lineSend s l vc u).ledger = s.ledger := rfl
@[simp] theorem lineSend_therm (s : State) (l : LinkId) (vc : Nat) (u : LUnit) :
    (lineSend s l vc u).therm = s.therm := rfl
@[simp] theorem lineSend_pondBw (s : State) (l : LinkId) (vc : Nat) (u : LUnit) :
    (lineSend s l vc u).pondBw = s.pondBw := rfl
@[simp] theorem lineSend_pondCtr (s : State) (l : LinkId) (vc : Nat) (u : LUnit) :
    (lineSend s l vc u).pondCtr = s.pondCtr := rfl
@[simp] theorem lineSend_pondPrio (s : State) (l : LinkId) (vc : Nat) (u : LUnit) :
    (lineSend s l vc u).pondPrio = s.pondPrio := rfl
@[simp] theorem lineSend_msix (s : State) (l : LinkId) (vc : Nat) (u : LUnit) :
    (lineSend s l vc u).msix = s.msix := rfl
@[simp] theorem lineSend_clk (s : State) (l : LinkId) (vc : Nat) (u : LUnit) :
    (lineSend s l vc u).clk = s.clk := rfl

/-! ### `owe` -/

@[simp] theorem owe_pending (s : State) (m : Msg) :
    (owe s m).pending = s.pending := rfl
@[simp] theorem owe_mode (s : State) (m : Msg) :
    (owe s m).mode = s.mode := rfl
@[simp] theorem owe_sf (s : State) (m : Msg) :
    (owe s m).sf = s.sf := rfl
@[simp] theorem owe_pages (s : State) (m : Msg) :
    (owe s m).pages = s.pages := rfl
@[simp] theorem owe_ctr (s : State) (m : Msg) :
    (owe s m).ctr = s.ctr := rfl
@[simp] theorem owe_out (s : State) (m : Msg) :
    (owe s m).out = s.out := rfl
@[simp] theorem owe_cpw (s : State) (m : Msg) :
    (owe s m).cpw = s.cpw := rfl
@[simp] theorem owe_i3c (s : State) (m : Msg) :
    (owe s m).i3c = s.i3c := rfl
@[simp] theorem owe_fab (s : State) (m : Msg) :
    (owe s m).fab = s.fab := rfl
@[simp] theorem owe_trays (s : State) (m : Msg) :
    (owe s m).trays = s.trays := rfl
@[simp] theorem owe_mem (s : State) (m : Msg) :
    (owe s m).mem = s.mem := rfl
@[simp] theorem owe_win (s : State) (m : Msg) :
    (owe s m).win = s.win := rfl
@[simp] theorem owe_poison (s : State) (m : Msg) :
    (owe s m).poison = s.poison := rfl
@[simp] theorem owe_coll (s : State) (m : Msg) :
    (owe s m).coll = s.coll := rfl
@[simp] theorem owe_plans (s : State) (m : Msg) :
    (owe s m).plans = s.plans := rfl
@[simp] theorem owe_power (s : State) (m : Msg) :
    (owe s m).power = s.power := rfl
@[simp] theorem owe_egress (s : State) (m : Msg) :
    (owe s m).egress = s.egress := rfl
@[simp] theorem owe_elog (s : State) (m : Msg) :
    (owe s m).elog = s.elog := rfl
@[simp] theorem owe_lt (s : State) (m : Msg) :
    (owe s m).lt = s.lt := rfl
@[simp] theorem owe_refills (s : State) (m : Msg) :
    (owe s m).refills = s.refills := rfl
@[simp] theorem owe_police (s : State) (m : Msg) :
    (owe s m).police = s.police := rfl
@[simp] theorem owe_rr (s : State) (m : Msg) :
    (owe s m).rr = s.rr := rfl
@[simp] theorem owe_lineTx (s : State) (m : Msg) :
    (owe s m).lineTx = s.lineTx := rfl
@[simp] theorem owe_outer (s : State) (m : Msg) :
    (owe s m).outer = s.outer := rfl
@[simp] theorem owe_stTx (s : State) (m : Msg) :
    (owe s m).stTx = s.stTx := rfl
@[simp] theorem owe_stTag (s : State) (m : Msg) :
    (owe s m).stTag = s.stTag := rfl
@[simp] theorem owe_tdec (s : State) (m : Msg) :
    (owe s m).tdec = s.tdec := rfl
@[simp] theorem owe_commits (s : State) (m : Msg) :
    (owe s m).commits = s.commits := rfl
@[simp] theorem owe_line (s : State) (m : Msg) :
    (owe s m).line = s.line := rfl
@[simp] theorem owe_ciph (s : State) (m : Msg) :
    (owe s m).ciph = s.ciph := rfl
@[simp] theorem owe_boot (s : State) (m : Msg) :
    (owe s m).boot = s.boot := rfl
@[simp] theorem owe_ptp (s : State) (m : Msg) :
    (owe s m).ptp = s.ptp := rfl
@[simp] theorem owe_tsq (s : State) (m : Msg) :
    (owe s m).tsq = s.tsq := rfl
@[simp] theorem owe_tio (s : State) (m : Msg) :
    (owe s m).tio = s.tio := rfl
@[simp] theorem owe_late (s : State) (m : Msg) :
    (owe s m).late = s.late := rfl
@[simp] theorem owe_light (s : State) (m : Msg) :
    (owe s m).light = s.light := rfl
@[simp] theorem owe_ledger (s : State) (m : Msg) :
    (owe s m).ledger = s.ledger := rfl
@[simp] theorem owe_therm (s : State) (m : Msg) :
    (owe s m).therm = s.therm := rfl
@[simp] theorem owe_pondBw (s : State) (m : Msg) :
    (owe s m).pondBw = s.pondBw := rfl
@[simp] theorem owe_pondCtr (s : State) (m : Msg) :
    (owe s m).pondCtr = s.pondCtr := rfl
@[simp] theorem owe_pondPrio (s : State) (m : Msg) :
    (owe s m).pondPrio = s.pondPrio := rfl
@[simp] theorem owe_msix (s : State) (m : Msg) :
    (owe s m).msix = s.msix := rfl
@[simp] theorem owe_clk (s : State) (m : Msg) :
    (owe s m).clk = s.clk := rfl

/-! ### `putSrc` -/

@[simp] theorem putSrc_pending (s : State) (x : Source) :
    (putSrc s x).pending = s.pending := rfl
@[simp] theorem putSrc_mode (s : State) (x : Source) :
    (putSrc s x).mode = s.mode := rfl
@[simp] theorem putSrc_sf (s : State) (x : Source) :
    (putSrc s x).sf = s.sf := rfl
@[simp] theorem putSrc_pages (s : State) (x : Source) :
    (putSrc s x).pages = s.pages := rfl
@[simp] theorem putSrc_ctr (s : State) (x : Source) :
    (putSrc s x).ctr = s.ctr := rfl
@[simp] theorem putSrc_out (s : State) (x : Source) :
    (putSrc s x).out = s.out := rfl
@[simp] theorem putSrc_cpw (s : State) (x : Source) :
    (putSrc s x).cpw = s.cpw := rfl
@[simp] theorem putSrc_i3c (s : State) (x : Source) :
    (putSrc s x).i3c = s.i3c := rfl
@[simp] theorem putSrc_trays (s : State) (x : Source) :
    (putSrc s x).trays = s.trays := rfl
@[simp] theorem putSrc_mem (s : State) (x : Source) :
    (putSrc s x).mem = s.mem := rfl
@[simp] theorem putSrc_win (s : State) (x : Source) :
    (putSrc s x).win = s.win := rfl
@[simp] theorem putSrc_poison (s : State) (x : Source) :
    (putSrc s x).poison = s.poison := rfl
@[simp] theorem putSrc_coll (s : State) (x : Source) :
    (putSrc s x).coll = s.coll := rfl
@[simp] theorem putSrc_plans (s : State) (x : Source) :
    (putSrc s x).plans = s.plans := rfl
@[simp] theorem putSrc_power (s : State) (x : Source) :
    (putSrc s x).power = s.power := rfl
@[simp] theorem putSrc_egress (s : State) (x : Source) :
    (putSrc s x).egress = s.egress := rfl
@[simp] theorem putSrc_elog (s : State) (x : Source) :
    (putSrc s x).elog = s.elog := rfl
@[simp] theorem putSrc_rseq (s : State) (x : Source) :
    (putSrc s x).rseq = s.rseq := rfl
@[simp] theorem putSrc_lt (s : State) (x : Source) :
    (putSrc s x).lt = s.lt := rfl
@[simp] theorem putSrc_refills (s : State) (x : Source) :
    (putSrc s x).refills = s.refills := rfl
@[simp] theorem putSrc_police (s : State) (x : Source) :
    (putSrc s x).police = s.police := rfl
@[simp] theorem putSrc_rr (s : State) (x : Source) :
    (putSrc s x).rr = s.rr := rfl
@[simp] theorem putSrc_lineTx (s : State) (x : Source) :
    (putSrc s x).lineTx = s.lineTx := rfl
@[simp] theorem putSrc_outer (s : State) (x : Source) :
    (putSrc s x).outer = s.outer := rfl
@[simp] theorem putSrc_stTx (s : State) (x : Source) :
    (putSrc s x).stTx = s.stTx := rfl
@[simp] theorem putSrc_stTag (s : State) (x : Source) :
    (putSrc s x).stTag = s.stTag := rfl
@[simp] theorem putSrc_tdec (s : State) (x : Source) :
    (putSrc s x).tdec = s.tdec := rfl
@[simp] theorem putSrc_commits (s : State) (x : Source) :
    (putSrc s x).commits = s.commits := rfl
@[simp] theorem putSrc_line (s : State) (x : Source) :
    (putSrc s x).line = s.line := rfl
@[simp] theorem putSrc_ciph (s : State) (x : Source) :
    (putSrc s x).ciph = s.ciph := rfl
@[simp] theorem putSrc_boot (s : State) (x : Source) :
    (putSrc s x).boot = s.boot := rfl
@[simp] theorem putSrc_ptp (s : State) (x : Source) :
    (putSrc s x).ptp = s.ptp := rfl
@[simp] theorem putSrc_tsq (s : State) (x : Source) :
    (putSrc s x).tsq = s.tsq := rfl
@[simp] theorem putSrc_tio (s : State) (x : Source) :
    (putSrc s x).tio = s.tio := rfl
@[simp] theorem putSrc_late (s : State) (x : Source) :
    (putSrc s x).late = s.late := rfl
@[simp] theorem putSrc_light (s : State) (x : Source) :
    (putSrc s x).light = s.light := rfl
@[simp] theorem putSrc_ledger (s : State) (x : Source) :
    (putSrc s x).ledger = s.ledger := rfl
@[simp] theorem putSrc_therm (s : State) (x : Source) :
    (putSrc s x).therm = s.therm := rfl
@[simp] theorem putSrc_pondBw (s : State) (x : Source) :
    (putSrc s x).pondBw = s.pondBw := rfl
@[simp] theorem putSrc_pondCtr (s : State) (x : Source) :
    (putSrc s x).pondCtr = s.pondCtr := rfl
@[simp] theorem putSrc_pondPrio (s : State) (x : Source) :
    (putSrc s x).pondPrio = s.pondPrio := rfl
@[simp] theorem putSrc_msix (s : State) (x : Source) :
    (putSrc s x).msix = s.msix := rfl
@[simp] theorem putSrc_clk (s : State) (x : Source) :
    (putSrc s x).clk = s.clk := rfl

/-! ### `setHalf` -/

@[simp] theorem setHalf_pending (s : State) (q : Fin 4) (j h : Fin 2) (v : Nat) :
    (setHalf s q j h v).pending = s.pending := rfl
@[simp] theorem setHalf_mode (s : State) (q : Fin 4) (j h : Fin 2) (v : Nat) :
    (setHalf s q j h v).mode = s.mode := rfl
@[simp] theorem setHalf_sf (s : State) (q : Fin 4) (j h : Fin 2) (v : Nat) :
    (setHalf s q j h v).sf = s.sf := rfl
@[simp] theorem setHalf_pages (s : State) (q : Fin 4) (j h : Fin 2) (v : Nat) :
    (setHalf s q j h v).pages = s.pages := rfl
@[simp] theorem setHalf_ctr (s : State) (q : Fin 4) (j h : Fin 2) (v : Nat) :
    (setHalf s q j h v).ctr = s.ctr := rfl
@[simp] theorem setHalf_out (s : State) (q : Fin 4) (j h : Fin 2) (v : Nat) :
    (setHalf s q j h v).out = s.out := rfl
@[simp] theorem setHalf_cpw (s : State) (q : Fin 4) (j h : Fin 2) (v : Nat) :
    (setHalf s q j h v).cpw = s.cpw := rfl
@[simp] theorem setHalf_i3c (s : State) (q : Fin 4) (j h : Fin 2) (v : Nat) :
    (setHalf s q j h v).i3c = s.i3c := rfl
@[simp] theorem setHalf_fab (s : State) (q : Fin 4) (j h : Fin 2) (v : Nat) :
    (setHalf s q j h v).fab = s.fab := rfl
@[simp] theorem setHalf_trays (s : State) (q : Fin 4) (j h : Fin 2) (v : Nat) :
    (setHalf s q j h v).trays = s.trays := rfl
@[simp] theorem setHalf_mem (s : State) (q : Fin 4) (j h : Fin 2) (v : Nat) :
    (setHalf s q j h v).mem = s.mem := rfl
@[simp] theorem setHalf_win (s : State) (q : Fin 4) (j h : Fin 2) (v : Nat) :
    (setHalf s q j h v).win = s.win := rfl
@[simp] theorem setHalf_poison (s : State) (q : Fin 4) (j h : Fin 2) (v : Nat) :
    (setHalf s q j h v).poison = s.poison := rfl
@[simp] theorem setHalf_coll (s : State) (q : Fin 4) (j h : Fin 2) (v : Nat) :
    (setHalf s q j h v).coll = s.coll := rfl
@[simp] theorem setHalf_plans (s : State) (q : Fin 4) (j h : Fin 2) (v : Nat) :
    (setHalf s q j h v).plans = s.plans := rfl
@[simp] theorem setHalf_power (s : State) (q : Fin 4) (j h : Fin 2) (v : Nat) :
    (setHalf s q j h v).power = s.power := rfl
@[simp] theorem setHalf_egress (s : State) (q : Fin 4) (j h : Fin 2) (v : Nat) :
    (setHalf s q j h v).egress = s.egress := rfl
@[simp] theorem setHalf_elog (s : State) (q : Fin 4) (j h : Fin 2) (v : Nat) :
    (setHalf s q j h v).elog = s.elog := rfl
@[simp] theorem setHalf_rseq (s : State) (q : Fin 4) (j h : Fin 2) (v : Nat) :
    (setHalf s q j h v).rseq = s.rseq := rfl
@[simp] theorem setHalf_lt (s : State) (q : Fin 4) (j h : Fin 2) (v : Nat) :
    (setHalf s q j h v).lt = s.lt := rfl
@[simp] theorem setHalf_refills (s : State) (q : Fin 4) (j h : Fin 2) (v : Nat) :
    (setHalf s q j h v).refills = s.refills := rfl
@[simp] theorem setHalf_police (s : State) (q : Fin 4) (j h : Fin 2) (v : Nat) :
    (setHalf s q j h v).police = s.police := rfl
@[simp] theorem setHalf_rr (s : State) (q : Fin 4) (j h : Fin 2) (v : Nat) :
    (setHalf s q j h v).rr = s.rr := rfl
@[simp] theorem setHalf_lineTx (s : State) (q : Fin 4) (j h : Fin 2) (v : Nat) :
    (setHalf s q j h v).lineTx = s.lineTx := rfl
@[simp] theorem setHalf_outer (s : State) (q : Fin 4) (j h : Fin 2) (v : Nat) :
    (setHalf s q j h v).outer = s.outer := rfl
@[simp] theorem setHalf_stTx (s : State) (q : Fin 4) (j h : Fin 2) (v : Nat) :
    (setHalf s q j h v).stTx = s.stTx := rfl
@[simp] theorem setHalf_stTag (s : State) (q : Fin 4) (j h : Fin 2) (v : Nat) :
    (setHalf s q j h v).stTag = s.stTag := rfl
@[simp] theorem setHalf_tdec (s : State) (q : Fin 4) (j h : Fin 2) (v : Nat) :
    (setHalf s q j h v).tdec = s.tdec := rfl
@[simp] theorem setHalf_commits (s : State) (q : Fin 4) (j h : Fin 2) (v : Nat) :
    (setHalf s q j h v).commits = s.commits := rfl
@[simp] theorem setHalf_line (s : State) (q : Fin 4) (j h : Fin 2) (v : Nat) :
    (setHalf s q j h v).line = s.line := rfl
@[simp] theorem setHalf_ciph (s : State) (q : Fin 4) (j h : Fin 2) (v : Nat) :
    (setHalf s q j h v).ciph = s.ciph := rfl
@[simp] theorem setHalf_boot (s : State) (q : Fin 4) (j h : Fin 2) (v : Nat) :
    (setHalf s q j h v).boot = s.boot := rfl
@[simp] theorem setHalf_ptp (s : State) (q : Fin 4) (j h : Fin 2) (v : Nat) :
    (setHalf s q j h v).ptp = s.ptp := rfl
@[simp] theorem setHalf_tsq (s : State) (q : Fin 4) (j h : Fin 2) (v : Nat) :
    (setHalf s q j h v).tsq = s.tsq := rfl
@[simp] theorem setHalf_tio (s : State) (q : Fin 4) (j h : Fin 2) (v : Nat) :
    (setHalf s q j h v).tio = s.tio := rfl
@[simp] theorem setHalf_late (s : State) (q : Fin 4) (j h : Fin 2) (v : Nat) :
    (setHalf s q j h v).late = s.late := rfl
@[simp] theorem setHalf_ledger (s : State) (q : Fin 4) (j h : Fin 2) (v : Nat) :
    (setHalf s q j h v).ledger = s.ledger := rfl
@[simp] theorem setHalf_therm (s : State) (q : Fin 4) (j h : Fin 2) (v : Nat) :
    (setHalf s q j h v).therm = s.therm := rfl
@[simp] theorem setHalf_pondBw (s : State) (q : Fin 4) (j h : Fin 2) (v : Nat) :
    (setHalf s q j h v).pondBw = s.pondBw := rfl
@[simp] theorem setHalf_pondCtr (s : State) (q : Fin 4) (j h : Fin 2) (v : Nat) :
    (setHalf s q j h v).pondCtr = s.pondCtr := rfl
@[simp] theorem setHalf_pondPrio (s : State) (q : Fin 4) (j h : Fin 2) (v : Nat) :
    (setHalf s q j h v).pondPrio = s.pondPrio := rfl
@[simp] theorem setHalf_msix (s : State) (q : Fin 4) (j h : Fin 2) (v : Nat) :
    (setHalf s q j h v).msix = s.msix := rfl
@[simp] theorem setHalf_clk (s : State) (q : Fin 4) (j h : Fin 2) (v : Nat) :
    (setHalf s q j h v).clk = s.clk := rfl

/-! ### `State.dropPending` -/

@[simp] theorem dropPending_mode (s : State) (rest : List Instr) :
    (State.dropPending s rest).mode = s.mode := rfl
@[simp] theorem dropPending_sf (s : State) (rest : List Instr) :
    (State.dropPending s rest).sf = s.sf := rfl
@[simp] theorem dropPending_pages (s : State) (rest : List Instr) :
    (State.dropPending s rest).pages = s.pages := rfl
@[simp] theorem dropPending_ctr (s : State) (rest : List Instr) :
    (State.dropPending s rest).ctr = s.ctr := rfl
@[simp] theorem dropPending_out (s : State) (rest : List Instr) :
    (State.dropPending s rest).out = s.out := rfl
@[simp] theorem dropPending_cpw (s : State) (rest : List Instr) :
    (State.dropPending s rest).cpw = s.cpw := rfl
@[simp] theorem dropPending_i3c (s : State) (rest : List Instr) :
    (State.dropPending s rest).i3c = s.i3c := rfl
@[simp] theorem dropPending_fab (s : State) (rest : List Instr) :
    (State.dropPending s rest).fab = s.fab := rfl
@[simp] theorem dropPending_trays (s : State) (rest : List Instr) :
    (State.dropPending s rest).trays = s.trays := rfl
@[simp] theorem dropPending_mem (s : State) (rest : List Instr) :
    (State.dropPending s rest).mem = s.mem := rfl
@[simp] theorem dropPending_win (s : State) (rest : List Instr) :
    (State.dropPending s rest).win = s.win := rfl
@[simp] theorem dropPending_poison (s : State) (rest : List Instr) :
    (State.dropPending s rest).poison = s.poison := rfl
@[simp] theorem dropPending_coll (s : State) (rest : List Instr) :
    (State.dropPending s rest).coll = s.coll := rfl
@[simp] theorem dropPending_plans (s : State) (rest : List Instr) :
    (State.dropPending s rest).plans = s.plans := rfl
@[simp] theorem dropPending_power (s : State) (rest : List Instr) :
    (State.dropPending s rest).power = s.power := rfl
@[simp] theorem dropPending_egress (s : State) (rest : List Instr) :
    (State.dropPending s rest).egress = s.egress := rfl
@[simp] theorem dropPending_elog (s : State) (rest : List Instr) :
    (State.dropPending s rest).elog = s.elog := rfl
@[simp] theorem dropPending_rseq (s : State) (rest : List Instr) :
    (State.dropPending s rest).rseq = s.rseq := rfl
@[simp] theorem dropPending_lt (s : State) (rest : List Instr) :
    (State.dropPending s rest).lt = s.lt := rfl
@[simp] theorem dropPending_refills (s : State) (rest : List Instr) :
    (State.dropPending s rest).refills = s.refills := rfl
@[simp] theorem dropPending_police (s : State) (rest : List Instr) :
    (State.dropPending s rest).police = s.police := rfl
@[simp] theorem dropPending_rr (s : State) (rest : List Instr) :
    (State.dropPending s rest).rr = s.rr := rfl
@[simp] theorem dropPending_lineTx (s : State) (rest : List Instr) :
    (State.dropPending s rest).lineTx = s.lineTx := rfl
@[simp] theorem dropPending_outer (s : State) (rest : List Instr) :
    (State.dropPending s rest).outer = s.outer := rfl
@[simp] theorem dropPending_stTx (s : State) (rest : List Instr) :
    (State.dropPending s rest).stTx = s.stTx := rfl
@[simp] theorem dropPending_stTag (s : State) (rest : List Instr) :
    (State.dropPending s rest).stTag = s.stTag := rfl
@[simp] theorem dropPending_tdec (s : State) (rest : List Instr) :
    (State.dropPending s rest).tdec = s.tdec := rfl
@[simp] theorem dropPending_commits (s : State) (rest : List Instr) :
    (State.dropPending s rest).commits = s.commits := rfl
@[simp] theorem dropPending_line (s : State) (rest : List Instr) :
    (State.dropPending s rest).line = s.line := rfl
@[simp] theorem dropPending_ciph (s : State) (rest : List Instr) :
    (State.dropPending s rest).ciph = s.ciph := rfl
@[simp] theorem dropPending_boot (s : State) (rest : List Instr) :
    (State.dropPending s rest).boot = s.boot := rfl
@[simp] theorem dropPending_ptp (s : State) (rest : List Instr) :
    (State.dropPending s rest).ptp = s.ptp := rfl
@[simp] theorem dropPending_tsq (s : State) (rest : List Instr) :
    (State.dropPending s rest).tsq = s.tsq := rfl
@[simp] theorem dropPending_tio (s : State) (rest : List Instr) :
    (State.dropPending s rest).tio = s.tio := rfl
@[simp] theorem dropPending_late (s : State) (rest : List Instr) :
    (State.dropPending s rest).late = s.late := rfl
@[simp] theorem dropPending_light (s : State) (rest : List Instr) :
    (State.dropPending s rest).light = s.light := rfl
@[simp] theorem dropPending_ledger (s : State) (rest : List Instr) :
    (State.dropPending s rest).ledger = s.ledger := rfl
@[simp] theorem dropPending_therm (s : State) (rest : List Instr) :
    (State.dropPending s rest).therm = s.therm := rfl
@[simp] theorem dropPending_pondBw (s : State) (rest : List Instr) :
    (State.dropPending s rest).pondBw = s.pondBw := rfl
@[simp] theorem dropPending_pondCtr (s : State) (rest : List Instr) :
    (State.dropPending s rest).pondCtr = s.pondCtr := rfl
@[simp] theorem dropPending_pondPrio (s : State) (rest : List Instr) :
    (State.dropPending s rest).pondPrio = s.pondPrio := rfl
@[simp] theorem dropPending_msix (s : State) (rest : List Instr) :
    (State.dropPending s rest).msix = s.msix := rfl
@[simp] theorem dropPending_clk (s : State) (rest : List Instr) :
    (State.dropPending s rest).clk = s.clk := rfl

/-! ### `holdTray` -/

@[simp] theorem holdTray_pending (s : State) (i : TrayId) (r : Nat) (aside : Option Nat) :
    (holdTray s i r aside).pending = s.pending := rfl
@[simp] theorem holdTray_mode (s : State) (i : TrayId) (r : Nat) (aside : Option Nat) :
    (holdTray s i r aside).mode = s.mode := rfl
@[simp] theorem holdTray_sf (s : State) (i : TrayId) (r : Nat) (aside : Option Nat) :
    (holdTray s i r aside).sf = s.sf := rfl
@[simp] theorem holdTray_pages (s : State) (i : TrayId) (r : Nat) (aside : Option Nat) :
    (holdTray s i r aside).pages = s.pages := rfl
@[simp] theorem holdTray_ctr (s : State) (i : TrayId) (r : Nat) (aside : Option Nat) :
    (holdTray s i r aside).ctr = s.ctr := rfl
@[simp] theorem holdTray_out (s : State) (i : TrayId) (r : Nat) (aside : Option Nat) :
    (holdTray s i r aside).out = s.out := rfl
@[simp] theorem holdTray_cpw (s : State) (i : TrayId) (r : Nat) (aside : Option Nat) :
    (holdTray s i r aside).cpw = s.cpw := rfl
@[simp] theorem holdTray_i3c (s : State) (i : TrayId) (r : Nat) (aside : Option Nat) :
    (holdTray s i r aside).i3c = s.i3c := rfl
@[simp] theorem holdTray_fab (s : State) (i : TrayId) (r : Nat) (aside : Option Nat) :
    (holdTray s i r aside).fab = s.fab := rfl
@[simp] theorem holdTray_mem (s : State) (i : TrayId) (r : Nat) (aside : Option Nat) :
    (holdTray s i r aside).mem = s.mem := rfl
@[simp] theorem holdTray_win (s : State) (i : TrayId) (r : Nat) (aside : Option Nat) :
    (holdTray s i r aside).win = s.win := rfl
@[simp] theorem holdTray_poison (s : State) (i : TrayId) (r : Nat) (aside : Option Nat) :
    (holdTray s i r aside).poison = s.poison := rfl
@[simp] theorem holdTray_coll (s : State) (i : TrayId) (r : Nat) (aside : Option Nat) :
    (holdTray s i r aside).coll = s.coll := rfl
@[simp] theorem holdTray_plans (s : State) (i : TrayId) (r : Nat) (aside : Option Nat) :
    (holdTray s i r aside).plans = s.plans := rfl
@[simp] theorem holdTray_power (s : State) (i : TrayId) (r : Nat) (aside : Option Nat) :
    (holdTray s i r aside).power = s.power := rfl
@[simp] theorem holdTray_egress (s : State) (i : TrayId) (r : Nat) (aside : Option Nat) :
    (holdTray s i r aside).egress = s.egress := rfl
@[simp] theorem holdTray_elog (s : State) (i : TrayId) (r : Nat) (aside : Option Nat) :
    (holdTray s i r aside).elog = s.elog := rfl
@[simp] theorem holdTray_rseq (s : State) (i : TrayId) (r : Nat) (aside : Option Nat) :
    (holdTray s i r aside).rseq = s.rseq := rfl
@[simp] theorem holdTray_lt (s : State) (i : TrayId) (r : Nat) (aside : Option Nat) :
    (holdTray s i r aside).lt = s.lt := rfl
@[simp] theorem holdTray_refills (s : State) (i : TrayId) (r : Nat) (aside : Option Nat) :
    (holdTray s i r aside).refills = s.refills := rfl
@[simp] theorem holdTray_police (s : State) (i : TrayId) (r : Nat) (aside : Option Nat) :
    (holdTray s i r aside).police = s.police := rfl
@[simp] theorem holdTray_rr (s : State) (i : TrayId) (r : Nat) (aside : Option Nat) :
    (holdTray s i r aside).rr = s.rr := rfl
@[simp] theorem holdTray_lineTx (s : State) (i : TrayId) (r : Nat) (aside : Option Nat) :
    (holdTray s i r aside).lineTx = s.lineTx := rfl
@[simp] theorem holdTray_outer (s : State) (i : TrayId) (r : Nat) (aside : Option Nat) :
    (holdTray s i r aside).outer = s.outer := rfl
@[simp] theorem holdTray_stTx (s : State) (i : TrayId) (r : Nat) (aside : Option Nat) :
    (holdTray s i r aside).stTx = s.stTx := rfl
@[simp] theorem holdTray_stTag (s : State) (i : TrayId) (r : Nat) (aside : Option Nat) :
    (holdTray s i r aside).stTag = s.stTag := rfl
@[simp] theorem holdTray_tdec (s : State) (i : TrayId) (r : Nat) (aside : Option Nat) :
    (holdTray s i r aside).tdec = s.tdec := rfl
@[simp] theorem holdTray_commits (s : State) (i : TrayId) (r : Nat) (aside : Option Nat) :
    (holdTray s i r aside).commits = s.commits := rfl
@[simp] theorem holdTray_line (s : State) (i : TrayId) (r : Nat) (aside : Option Nat) :
    (holdTray s i r aside).line = s.line := rfl
@[simp] theorem holdTray_ciph (s : State) (i : TrayId) (r : Nat) (aside : Option Nat) :
    (holdTray s i r aside).ciph = s.ciph := rfl
@[simp] theorem holdTray_boot (s : State) (i : TrayId) (r : Nat) (aside : Option Nat) :
    (holdTray s i r aside).boot = s.boot := rfl
@[simp] theorem holdTray_ptp (s : State) (i : TrayId) (r : Nat) (aside : Option Nat) :
    (holdTray s i r aside).ptp = s.ptp := rfl
@[simp] theorem holdTray_tsq (s : State) (i : TrayId) (r : Nat) (aside : Option Nat) :
    (holdTray s i r aside).tsq = s.tsq := rfl
@[simp] theorem holdTray_tio (s : State) (i : TrayId) (r : Nat) (aside : Option Nat) :
    (holdTray s i r aside).tio = s.tio := rfl
@[simp] theorem holdTray_late (s : State) (i : TrayId) (r : Nat) (aside : Option Nat) :
    (holdTray s i r aside).late = s.late := rfl
@[simp] theorem holdTray_light (s : State) (i : TrayId) (r : Nat) (aside : Option Nat) :
    (holdTray s i r aside).light = s.light := rfl
@[simp] theorem holdTray_ledger (s : State) (i : TrayId) (r : Nat) (aside : Option Nat) :
    (holdTray s i r aside).ledger = s.ledger := rfl
@[simp] theorem holdTray_therm (s : State) (i : TrayId) (r : Nat) (aside : Option Nat) :
    (holdTray s i r aside).therm = s.therm := rfl
@[simp] theorem holdTray_pondBw (s : State) (i : TrayId) (r : Nat) (aside : Option Nat) :
    (holdTray s i r aside).pondBw = s.pondBw := rfl
@[simp] theorem holdTray_pondCtr (s : State) (i : TrayId) (r : Nat) (aside : Option Nat) :
    (holdTray s i r aside).pondCtr = s.pondCtr := rfl
@[simp] theorem holdTray_pondPrio (s : State) (i : TrayId) (r : Nat) (aside : Option Nat) :
    (holdTray s i r aside).pondPrio = s.pondPrio := rfl
@[simp] theorem holdTray_msix (s : State) (i : TrayId) (r : Nat) (aside : Option Nat) :
    (holdTray s i r aside).msix = s.msix := rfl
@[simp] theorem holdTray_clk (s : State) (i : TrayId) (r : Nat) (aside : Option Nat) :
    (holdTray s i r aside).clk = s.clk := rfl

/-! ### `setHs` -/

@[simp] theorem setHs_pending (s : State) (l : LinkId) (h : Hs) :
    (setHs s l h).pending = s.pending := rfl
@[simp] theorem setHs_mode (s : State) (l : LinkId) (h : Hs) :
    (setHs s l h).mode = s.mode := rfl
@[simp] theorem setHs_sf (s : State) (l : LinkId) (h : Hs) :
    (setHs s l h).sf = s.sf := rfl
@[simp] theorem setHs_pages (s : State) (l : LinkId) (h : Hs) :
    (setHs s l h).pages = s.pages := rfl
@[simp] theorem setHs_ctr (s : State) (l : LinkId) (h : Hs) :
    (setHs s l h).ctr = s.ctr := rfl
@[simp] theorem setHs_out (s : State) (l : LinkId) (h : Hs) :
    (setHs s l h).out = s.out := rfl
@[simp] theorem setHs_cpw (s : State) (l : LinkId) (h : Hs) :
    (setHs s l h).cpw = s.cpw := rfl
@[simp] theorem setHs_i3c (s : State) (l : LinkId) (h : Hs) :
    (setHs s l h).i3c = s.i3c := rfl
@[simp] theorem setHs_fab (s : State) (l : LinkId) (h : Hs) :
    (setHs s l h).fab = s.fab := rfl
@[simp] theorem setHs_trays (s : State) (l : LinkId) (h : Hs) :
    (setHs s l h).trays = s.trays := rfl
@[simp] theorem setHs_mem (s : State) (l : LinkId) (h : Hs) :
    (setHs s l h).mem = s.mem := rfl
@[simp] theorem setHs_win (s : State) (l : LinkId) (h : Hs) :
    (setHs s l h).win = s.win := rfl
@[simp] theorem setHs_poison (s : State) (l : LinkId) (h : Hs) :
    (setHs s l h).poison = s.poison := rfl
@[simp] theorem setHs_coll (s : State) (l : LinkId) (h : Hs) :
    (setHs s l h).coll = s.coll := rfl
@[simp] theorem setHs_plans (s : State) (l : LinkId) (h : Hs) :
    (setHs s l h).plans = s.plans := rfl
@[simp] theorem setHs_power (s : State) (l : LinkId) (h : Hs) :
    (setHs s l h).power = s.power := rfl
@[simp] theorem setHs_egress (s : State) (l : LinkId) (h : Hs) :
    (setHs s l h).egress = s.egress := rfl
@[simp] theorem setHs_elog (s : State) (l : LinkId) (h : Hs) :
    (setHs s l h).elog = s.elog := rfl
@[simp] theorem setHs_rseq (s : State) (l : LinkId) (h : Hs) :
    (setHs s l h).rseq = s.rseq := rfl
@[simp] theorem setHs_lt (s : State) (l : LinkId) (h : Hs) :
    (setHs s l h).lt = s.lt := rfl
@[simp] theorem setHs_refills (s : State) (l : LinkId) (h : Hs) :
    (setHs s l h).refills = s.refills := rfl
@[simp] theorem setHs_police (s : State) (l : LinkId) (h : Hs) :
    (setHs s l h).police = s.police := rfl
@[simp] theorem setHs_rr (s : State) (l : LinkId) (h : Hs) :
    (setHs s l h).rr = s.rr := rfl
@[simp] theorem setHs_lineTx (s : State) (l : LinkId) (h : Hs) :
    (setHs s l h).lineTx = s.lineTx := rfl
@[simp] theorem setHs_outer (s : State) (l : LinkId) (h : Hs) :
    (setHs s l h).outer = s.outer := rfl
@[simp] theorem setHs_stTx (s : State) (l : LinkId) (h : Hs) :
    (setHs s l h).stTx = s.stTx := rfl
@[simp] theorem setHs_stTag (s : State) (l : LinkId) (h : Hs) :
    (setHs s l h).stTag = s.stTag := rfl
@[simp] theorem setHs_tdec (s : State) (l : LinkId) (h : Hs) :
    (setHs s l h).tdec = s.tdec := rfl
@[simp] theorem setHs_commits (s : State) (l : LinkId) (h : Hs) :
    (setHs s l h).commits = s.commits := rfl
@[simp] theorem setHs_line (s : State) (l : LinkId) (h : Hs) :
    (setHs s l h).line = s.line := rfl
@[simp] theorem setHs_boot (s : State) (l : LinkId) (h : Hs) :
    (setHs s l h).boot = s.boot := rfl
@[simp] theorem setHs_ptp (s : State) (l : LinkId) (h : Hs) :
    (setHs s l h).ptp = s.ptp := rfl
@[simp] theorem setHs_tsq (s : State) (l : LinkId) (h : Hs) :
    (setHs s l h).tsq = s.tsq := rfl
@[simp] theorem setHs_tio (s : State) (l : LinkId) (h : Hs) :
    (setHs s l h).tio = s.tio := rfl
@[simp] theorem setHs_late (s : State) (l : LinkId) (h : Hs) :
    (setHs s l h).late = s.late := rfl
@[simp] theorem setHs_light (s : State) (l : LinkId) (h : Hs) :
    (setHs s l h).light = s.light := rfl
@[simp] theorem setHs_ledger (s : State) (l : LinkId) (h : Hs) :
    (setHs s l h).ledger = s.ledger := rfl
@[simp] theorem setHs_therm (s : State) (l : LinkId) (h : Hs) :
    (setHs s l h).therm = s.therm := rfl
@[simp] theorem setHs_pondBw (s : State) (l : LinkId) (h : Hs) :
    (setHs s l h).pondBw = s.pondBw := rfl
@[simp] theorem setHs_pondCtr (s : State) (l : LinkId) (h : Hs) :
    (setHs s l h).pondCtr = s.pondCtr := rfl
@[simp] theorem setHs_pondPrio (s : State) (l : LinkId) (h : Hs) :
    (setHs s l h).pondPrio = s.pondPrio := rfl
@[simp] theorem setHs_msix (s : State) (l : LinkId) (h : Hs) :
    (setHs s l h).msix = s.msix := rfl
@[simp] theorem setHs_clk (s : State) (l : LinkId) (h : Hs) :
    (setHs s l h).clk = s.clk := rfl

/-! ### `i3cNext` -/

@[simp] theorem i3cNext_pending (s : State) :
    (i3cNext s).pending = s.pending := rfl
@[simp] theorem i3cNext_mode (s : State) :
    (i3cNext s).mode = s.mode := rfl
@[simp] theorem i3cNext_sf (s : State) :
    (i3cNext s).sf = s.sf := rfl
@[simp] theorem i3cNext_pages (s : State) :
    (i3cNext s).pages = s.pages := rfl
@[simp] theorem i3cNext_ctr (s : State) :
    (i3cNext s).ctr = s.ctr := rfl
@[simp] theorem i3cNext_out (s : State) :
    (i3cNext s).out = s.out := rfl
@[simp] theorem i3cNext_cpw (s : State) :
    (i3cNext s).cpw = s.cpw := rfl
@[simp] theorem i3cNext_fab (s : State) :
    (i3cNext s).fab = s.fab := rfl
@[simp] theorem i3cNext_trays (s : State) :
    (i3cNext s).trays = s.trays := rfl
@[simp] theorem i3cNext_mem (s : State) :
    (i3cNext s).mem = s.mem := rfl
@[simp] theorem i3cNext_win (s : State) :
    (i3cNext s).win = s.win := rfl
@[simp] theorem i3cNext_poison (s : State) :
    (i3cNext s).poison = s.poison := rfl
@[simp] theorem i3cNext_coll (s : State) :
    (i3cNext s).coll = s.coll := rfl
@[simp] theorem i3cNext_plans (s : State) :
    (i3cNext s).plans = s.plans := rfl
@[simp] theorem i3cNext_power (s : State) :
    (i3cNext s).power = s.power := rfl
@[simp] theorem i3cNext_egress (s : State) :
    (i3cNext s).egress = s.egress := rfl
@[simp] theorem i3cNext_elog (s : State) :
    (i3cNext s).elog = s.elog := rfl
@[simp] theorem i3cNext_rseq (s : State) :
    (i3cNext s).rseq = s.rseq := rfl
@[simp] theorem i3cNext_lt (s : State) :
    (i3cNext s).lt = s.lt := rfl
@[simp] theorem i3cNext_refills (s : State) :
    (i3cNext s).refills = s.refills := rfl
@[simp] theorem i3cNext_police (s : State) :
    (i3cNext s).police = s.police := rfl
@[simp] theorem i3cNext_rr (s : State) :
    (i3cNext s).rr = s.rr := rfl
@[simp] theorem i3cNext_lineTx (s : State) :
    (i3cNext s).lineTx = s.lineTx := rfl
@[simp] theorem i3cNext_outer (s : State) :
    (i3cNext s).outer = s.outer := rfl
@[simp] theorem i3cNext_stTx (s : State) :
    (i3cNext s).stTx = s.stTx := rfl
@[simp] theorem i3cNext_stTag (s : State) :
    (i3cNext s).stTag = s.stTag := rfl
@[simp] theorem i3cNext_tdec (s : State) :
    (i3cNext s).tdec = s.tdec := rfl
@[simp] theorem i3cNext_commits (s : State) :
    (i3cNext s).commits = s.commits := rfl
@[simp] theorem i3cNext_line (s : State) :
    (i3cNext s).line = s.line := rfl
@[simp] theorem i3cNext_ciph (s : State) :
    (i3cNext s).ciph = s.ciph := rfl
@[simp] theorem i3cNext_boot (s : State) :
    (i3cNext s).boot = s.boot := rfl
@[simp] theorem i3cNext_ptp (s : State) :
    (i3cNext s).ptp = s.ptp := rfl
@[simp] theorem i3cNext_tsq (s : State) :
    (i3cNext s).tsq = s.tsq := rfl
@[simp] theorem i3cNext_tio (s : State) :
    (i3cNext s).tio = s.tio := rfl
@[simp] theorem i3cNext_late (s : State) :
    (i3cNext s).late = s.late := rfl
@[simp] theorem i3cNext_light (s : State) :
    (i3cNext s).light = s.light := rfl
@[simp] theorem i3cNext_ledger (s : State) :
    (i3cNext s).ledger = s.ledger := rfl
@[simp] theorem i3cNext_therm (s : State) :
    (i3cNext s).therm = s.therm := rfl
@[simp] theorem i3cNext_pondBw (s : State) :
    (i3cNext s).pondBw = s.pondBw := rfl
@[simp] theorem i3cNext_pondCtr (s : State) :
    (i3cNext s).pondCtr = s.pondCtr := rfl
@[simp] theorem i3cNext_pondPrio (s : State) :
    (i3cNext s).pondPrio = s.pondPrio := rfl
@[simp] theorem i3cNext_msix (s : State) :
    (i3cNext s).msix = s.msix := rfl
@[simp] theorem i3cNext_clk (s : State) :
    (i3cNext s).clk = s.clk := rfl

/-! ### `setLoads` -/

@[simp] theorem setLoads_pending (s : State) (m : PMap Origin LoadBuf) :
    (setLoads s m).pending = s.pending := rfl
@[simp] theorem setLoads_mode (s : State) (m : PMap Origin LoadBuf) :
    (setLoads s m).mode = s.mode := rfl
@[simp] theorem setLoads_sf (s : State) (m : PMap Origin LoadBuf) :
    (setLoads s m).sf = s.sf := rfl
@[simp] theorem setLoads_pages (s : State) (m : PMap Origin LoadBuf) :
    (setLoads s m).pages = s.pages := rfl
@[simp] theorem setLoads_ctr (s : State) (m : PMap Origin LoadBuf) :
    (setLoads s m).ctr = s.ctr := rfl
@[simp] theorem setLoads_out (s : State) (m : PMap Origin LoadBuf) :
    (setLoads s m).out = s.out := rfl
@[simp] theorem setLoads_cpw (s : State) (m : PMap Origin LoadBuf) :
    (setLoads s m).cpw = s.cpw := rfl
@[simp] theorem setLoads_i3c (s : State) (m : PMap Origin LoadBuf) :
    (setLoads s m).i3c = s.i3c := rfl
@[simp] theorem setLoads_fab (s : State) (m : PMap Origin LoadBuf) :
    (setLoads s m).fab = s.fab := rfl
@[simp] theorem setLoads_trays (s : State) (m : PMap Origin LoadBuf) :
    (setLoads s m).trays = s.trays := rfl
@[simp] theorem setLoads_mem (s : State) (m : PMap Origin LoadBuf) :
    (setLoads s m).mem = s.mem := rfl
@[simp] theorem setLoads_win (s : State) (m : PMap Origin LoadBuf) :
    (setLoads s m).win = s.win := rfl
@[simp] theorem setLoads_poison (s : State) (m : PMap Origin LoadBuf) :
    (setLoads s m).poison = s.poison := rfl
@[simp] theorem setLoads_coll (s : State) (m : PMap Origin LoadBuf) :
    (setLoads s m).coll = s.coll := rfl
@[simp] theorem setLoads_power (s : State) (m : PMap Origin LoadBuf) :
    (setLoads s m).power = s.power := rfl
@[simp] theorem setLoads_egress (s : State) (m : PMap Origin LoadBuf) :
    (setLoads s m).egress = s.egress := rfl
@[simp] theorem setLoads_elog (s : State) (m : PMap Origin LoadBuf) :
    (setLoads s m).elog = s.elog := rfl
@[simp] theorem setLoads_rseq (s : State) (m : PMap Origin LoadBuf) :
    (setLoads s m).rseq = s.rseq := rfl
@[simp] theorem setLoads_lt (s : State) (m : PMap Origin LoadBuf) :
    (setLoads s m).lt = s.lt := rfl
@[simp] theorem setLoads_refills (s : State) (m : PMap Origin LoadBuf) :
    (setLoads s m).refills = s.refills := rfl
@[simp] theorem setLoads_police (s : State) (m : PMap Origin LoadBuf) :
    (setLoads s m).police = s.police := rfl
@[simp] theorem setLoads_rr (s : State) (m : PMap Origin LoadBuf) :
    (setLoads s m).rr = s.rr := rfl
@[simp] theorem setLoads_lineTx (s : State) (m : PMap Origin LoadBuf) :
    (setLoads s m).lineTx = s.lineTx := rfl
@[simp] theorem setLoads_outer (s : State) (m : PMap Origin LoadBuf) :
    (setLoads s m).outer = s.outer := rfl
@[simp] theorem setLoads_stTx (s : State) (m : PMap Origin LoadBuf) :
    (setLoads s m).stTx = s.stTx := rfl
@[simp] theorem setLoads_stTag (s : State) (m : PMap Origin LoadBuf) :
    (setLoads s m).stTag = s.stTag := rfl
@[simp] theorem setLoads_tdec (s : State) (m : PMap Origin LoadBuf) :
    (setLoads s m).tdec = s.tdec := rfl
@[simp] theorem setLoads_commits (s : State) (m : PMap Origin LoadBuf) :
    (setLoads s m).commits = s.commits := rfl
@[simp] theorem setLoads_line (s : State) (m : PMap Origin LoadBuf) :
    (setLoads s m).line = s.line := rfl
@[simp] theorem setLoads_ciph (s : State) (m : PMap Origin LoadBuf) :
    (setLoads s m).ciph = s.ciph := rfl
@[simp] theorem setLoads_boot (s : State) (m : PMap Origin LoadBuf) :
    (setLoads s m).boot = s.boot := rfl
@[simp] theorem setLoads_ptp (s : State) (m : PMap Origin LoadBuf) :
    (setLoads s m).ptp = s.ptp := rfl
@[simp] theorem setLoads_tsq (s : State) (m : PMap Origin LoadBuf) :
    (setLoads s m).tsq = s.tsq := rfl
@[simp] theorem setLoads_tio (s : State) (m : PMap Origin LoadBuf) :
    (setLoads s m).tio = s.tio := rfl
@[simp] theorem setLoads_late (s : State) (m : PMap Origin LoadBuf) :
    (setLoads s m).late = s.late := rfl
@[simp] theorem setLoads_light (s : State) (m : PMap Origin LoadBuf) :
    (setLoads s m).light = s.light := rfl
@[simp] theorem setLoads_ledger (s : State) (m : PMap Origin LoadBuf) :
    (setLoads s m).ledger = s.ledger := rfl
@[simp] theorem setLoads_therm (s : State) (m : PMap Origin LoadBuf) :
    (setLoads s m).therm = s.therm := rfl
@[simp] theorem setLoads_pondBw (s : State) (m : PMap Origin LoadBuf) :
    (setLoads s m).pondBw = s.pondBw := rfl
@[simp] theorem setLoads_pondCtr (s : State) (m : PMap Origin LoadBuf) :
    (setLoads s m).pondCtr = s.pondCtr := rfl
@[simp] theorem setLoads_pondPrio (s : State) (m : PMap Origin LoadBuf) :
    (setLoads s m).pondPrio = s.pondPrio := rfl
@[simp] theorem setLoads_msix (s : State) (m : PMap Origin LoadBuf) :
    (setLoads s m).msix = s.msix := rfl
@[simp] theorem setLoads_clk (s : State) (m : PMap Origin LoadBuf) :
    (setLoads s m).clk = s.clk := rfl

end Sys2Proof.Laws
end

