-- ==== Sys2Proof/Laws/Ops.lean ====
section
/-! SUPPORT. Laws/Ops.lean: what the shared operations do: memory keeps its canonical form, and each operation names the parts
of the state it can change. -/
namespace Sys2Proof.Laws
open Sys2Proof Sys2Proof.Machine

/-! ## CRC -/

/-- The run of a CRC is the fold of its byte step. -/
theorem crcRun_eq_foldl (poly c : Nat) (l : Bytes) : crcRun poly c l = l.foldl (crcByte poly) c := by
  induction l generalizing c with
  | nil => cases c <;> rfl
  | cons b l ih => cases c <;> exact ih _

/-! ## Memory -/

/-- A canonical list above a bound is canonical above every smaller bound. -/
theorem wfFrom_mono {lo hi : Nat} (h : lo ≤ hi) {m : List Host.Cell} (w : Memory.wfFrom hi m = true) :
    Memory.wfFrom lo m = true := by
  cases m with
  | nil => rfl
  | cons c m =>
    simp only [Memory.wfFrom, Bool.and_eq_true, decide_eq_true_eq] at w ⊢
    exact ⟨⟨h.trans w.1.1, w.1.2⟩, w.2⟩

/-- Writing a byte at or above the bound keeps the canonical form. -/
theorem memWrite_wfFrom {lo : Nat} {m : List Host.Cell} (w : Memory.wfFrom lo m = true) {a : Nat} (h : lo ≤ a) (b : Byte) :
    Memory.wfFrom lo (memWrite m a b) = true := by
  induction m generalizing lo with
  | nil =>
    unfold memWrite
    split
    · rfl
    · simp_all [Memory.wfFrom]
  | cons c m ih =>
    have w' := w
    simp only [Memory.wfFrom, Bool.and_eq_true, decide_eq_true_eq] at w
    obtain ⟨⟨hc, hz⟩, hm⟩ := w
    unfold memWrite
    split
    · rename_i ha
      split
      · exact w'
      · simp_all [Memory.wfFrom]
    · split
      · rename_i he
        split
        · exact wfFrom_mono (by omega) hm
        · simp_all [Memory.wfFrom]
      · simp only [Memory.wfFrom, Bool.and_eq_true, decide_eq_true_eq]
        exact ⟨⟨hc, hz⟩, ih hm (by omega)⟩

/-- Writing one byte keeps the canonical form. -/
theorem memWrite_wf {m : List Host.Cell} (w : Memory.wf m = true) (a : Nat) (b : Byte) :
    Memory.wf (memWrite m a b) = true :=
  memWrite_wfFrom w (Nat.zero_le a) b

/-- Writing a byte string keeps the canonical form. -/
theorem memPut_wf {m : List Host.Cell} (w : Memory.wf m = true) (a : Nat) (l : Bytes) :
    Memory.wf (memPut m a l) = true := by
  induction l generalizing m a with
  | nil => exact w
  | cons b l ih => exact ih (memWrite_wf w a b) (a + 1)

/-- Below its bound a canonical list reads 0. -/
theorem memRead_below {lo a : Nat} {m : List Host.Cell} (w : Memory.wfFrom lo m = true) (h : a < lo) : memRead m a = 0 := by
  cases m with
  | nil => rfl
  | cons c m =>
    simp only [Memory.wfFrom, Bool.and_eq_true, decide_eq_true_eq] at w
    simp [memRead, show a ≠ c.1 by omega, show a < c.1 by omega]

/-- Storing bytes with their pond traffic keeps the canonical form. -/
theorem storeMem_wf {s : State} (w : Memory.wf s.mem = true) (a : Nat) (b : Bytes) : Memory.wf (storeMem s a b).mem = true := by
  have h : (storeMem s a b).mem = memPut s.mem a b := by
    simp only [storeMem, countPond, count]
    split
    · split <;> rfl
    · rfl
  rw [h]; exact memPut_wf w a b

/-! ## What each operation can change -/

theorem onlyChanges_setPage (s : State) (pg : PageId) (p : Page) : OnlyChanges [.pages] s (setPage s pg p) :=
  (setPage_onlyPage s pg p).1

theorem onlyChanges_emit (s : State) (e : Emission) : OnlyChanges [.out] s (emit s e) := by
  intro p hp; cases p <;> first | rfl | simp at hp

theorem onlyChanges_count (s : State) (pg : PageId) (i n : Nat) : OnlyChanges [.ctr] s (count s pg i n) := by
  unfold count
  split
  · exact onlyChanges_refl _ _
  · intro p hp; cases p <;> first | rfl | simp at hp

/-- R395: bytes stored change memory, and the traffic count of a pond. -/
theorem onlyChanges_storeMem (s : State) (a : Nat) (b : Bytes) : OnlyChanges [.mem, .ctr] s (storeMem s a b) := by
  unfold storeMem countPond
  have h : OnlyChanges [.mem] s { s with mem := memPut s.mem a b } := by
    intro p hp; cases p <;> first | rfl | simp at hp
  split
  · exact onlyChanges_mono (onlyChanges_trans h (onlyChanges_count _ _ _ _)) (by simp)
  · exact onlyChanges_mono h (by simp)

/-- R376: a packet sent to a port changes nothing but that port's queues. -/
theorem onlyChanges_egPush (s : State) (p : Fin 64) (c : Tclass) (b : Body) (w : Nat) :
    OnlyChanges [.egress] s (egPush s p c b w) := by
  simp only [egPush]
  split <;> (intro x hx; cases x <;> first | rfl | simp at hx)

theorem onlyChanges_sendSite (s : State) (g : Nat) (m : Msg) : OnlyChanges [.egress] s (sendSite s g m) := by
  cases m <;> exact onlyChanges_egPush _ _ _ _ _

theorem onlyChanges_sendLink (s : State) (l : LinkId) (m : Msg) : OnlyChanges [.lineTx] s (sendLink s l m) := by
  cases m <;> (intro x hx; cases x <;> first | rfl | simp at hx)

theorem onlyChanges_owe (s : State) (m : Msg) : OnlyChanges [.rseq] s (owe s m) := by
  intro x hx; cases x <;> first | rfl | simp at hx

/-- R426: a message to the master enters the loop, a site queue or a line queue, or is held. -/
theorem onlyChanges_sendMaster (s : State) (m : Msg) : OnlyChanges [.rseq, .egress, .lineTx] s (sendMaster s m) := by
  unfold sendMaster
  split
  · intro x hx; cases x <;> first | rfl | simp at hx
  · split
    · exact onlyChanges_mono (onlyChanges_owe s m) (by simp)
    · split
      · exact onlyChanges_mono (onlyChanges_sendSite s _ m) (by simp)
      · split
        · exact onlyChanges_mono (onlyChanges_sendLink s _ m) (by simp)
        · split
          · exact onlyChanges_mono (onlyChanges_sendSite s _ m) (by simp)
          · exact onlyChanges_mono (onlyChanges_owe s m) (by simp)

theorem onlyChanges_sendRecoverReq (s : State) (level code : Nat) (c : BitVec 64) (g : Nat) :
    OnlyChanges [.rseq, .egress, .lineTx] s (sendRecoverReq s level code c g) := by
  unfold sendRecoverReq
  refine onlyChanges_mono (onlyChanges_trans (ps := [.rseq]) ?_ (onlyChanges_sendMaster _ _)) (by simp)
  intro x hx; cases x <;> first | rfl | simp at hx

/-- R434: an entry in the error log counts in the log's page. -/
theorem onlyChanges_logPush (s : State) (e : LogEnt) : OnlyChanges [.ctr, .elog] s (logPush s e) := by
  unfold logPush
  refine onlyChanges_mono (onlyChanges_trans (onlyChanges_count s .elog 0 1) (qs := [.elog]) ?_) (by simp)
  intro x hx; cases x <;> first | rfl | simp at hx

theorem onlyChanges_ite {ps : List Part} {s t u : State} (b : Prop) [Decidable b] (h : OnlyChanges ps s t)
    (g : OnlyChanges ps s u) : OnlyChanges ps s (if b then t else u) := by
  split
  · exact h
  · exact g

/-- One set of parts, two steps. -/
theorem onlyChanges_then {ps : List Part} {s t u : State} (h : OnlyChanges ps s t) (g : OnlyChanges ps t u) :
    OnlyChanges ps s u :=
  onlyChanges_mono (onlyChanges_trans h g) (by simp)

/-- R56: a message on a vector is sent, or sets its pending bit. -/
theorem onlyChanges_notify (s : State) (v : Nat) : OnlyChanges [.out, .msix] s (notify s v) := by
  unfold notify
  split
  · intro x hx; cases x <;> first | rfl | simp at hx
  · exact onlyChanges_mono (onlyChanges_emit _ _) (by simp)

theorem onlyChanges_noteClock (s : State) (pg : PageId) : OnlyChanges [.clk] s (noteClock s pg) := by
  unfold noteClock
  split
  · refine onlyChanges_ite _ (onlyChanges_refl _ _) ?_
    intro x hx; cases x <;> first | rfl | simp at hx
  · exact onlyChanges_refl _ _

/-- R49, R50, R419, R420, R434: raising a code changes a page, the log, counters, what is sent out, and messages to the
master; nothing else. -/
theorem onlyChanges_raiseSubj (s : State) (pg : PageId) (code info : Nat) (c : BitVec 64) (g : Nat) :
    OnlyChanges raisedParts s (raiseSubj s pg code info c g) := by
  unfold raiseSubj
  extract_lets cls p0 p1 s1 s2 ic sc s3 a lg s4
  have h0 : OnlyChanges raisedParts s (noteClock s pg) := onlyChanges_mono (onlyChanges_noteClock s pg) (by simp [raisedParts])
  have h1 : OnlyChanges raisedParts s s1 :=
    onlyChanges_then h0 (onlyChanges_mono (onlyChanges_setPage _ pg p1) (by simp [raisedParts]))
  have h2 : OnlyChanges raisedParts s1 s2 :=
    onlyChanges_ite _ (onlyChanges_mono (onlyChanges_notify _ _) (by simp [raisedParts])) (onlyChanges_refl _ _)
  have h3 : OnlyChanges raisedParts s2 s3 := by
    refine onlyChanges_ite _ ?_ (onlyChanges_refl _ _)
    have hi : OnlyChanges raisedParts s2 sc := by
      intro x hx; cases x <;> first | rfl | simp [raisedParts] at hx
    exact onlyChanges_ite _
      (onlyChanges_then hi (onlyChanges_mono (onlyChanges_emit _ _) (by simp [raisedParts]))) hi
  have h4 : OnlyChanges raisedParts s3 s4 :=
    onlyChanges_ite _ (onlyChanges_mono (onlyChanges_logPush _ _) (by simp [raisedParts])) (onlyChanges_refl _ _)
  have h := onlyChanges_then (onlyChanges_then (onlyChanges_then h1 h2) h3) h4
  have hr : ∀ l k d, OnlyChanges raisedParts s4 (sendRecoverReq s4 l k d g) := fun l k d =>
    onlyChanges_mono (onlyChanges_sendRecoverReq s4 l k d _) (by simp [raisedParts])
  refine onlyChanges_ite _ h ?_
  cases a with
  | some d => exact onlyChanges_then h (hr _ _ _)
  | none => exact onlyChanges_ite _ (onlyChanges_then h (hr _ _ _)) h

theorem onlyChanges_raise (s : State) (pg : PageId) (code info : Nat) : OnlyChanges raisedParts s (raise s pg code info) :=
  onlyChanges_raiseSubj _ _ _ _ _ _

/-! ## Key messages -/

/-- R331: what `takeKey` can answer: a whole message is one that `KeyIn` describes. -/
theorem takeKey_keyIn {s : State} {l : LinkId} {kind : Nat} {b m : Bytes} (h : (takeKey s l kind b).2 = some m) :
    KeyIn s l kind b (takeKey s l kind b).1 m := by
  unfold takeKey at h ⊢
  by_cases hk : byteAt b 0 = kind
  · simp only [hk, if_true] at h ⊢
    cases hu : takeUnit s l (.key b) with
    | none => simp [hu] at h
    | some v =>
      simp only [hu] at h ⊢
      cases hf : fragOk b with
      | false => simp [hf] at h
      | true =>
        simp only [hf, Bool.not_true, Bool.false_eq_true, if_false] at h ⊢
        split at h
        · rename_i hw
          rw [if_pos hw]
          refine ⟨v, hk, hu, hf, ?_, rfl, ?_⟩
          · intro i hi
            have := List.all_eq_true.mp hw (mget? _ _) (List.mem_map.mpr ⟨i, List.mem_range.mpr hi, rfl⟩)
            split at this
            · rename_i x hx
              exact ⟨x, hx, by simpa using this⟩
            · cases this
          · simp only [Option.some.injEq] at h
            rw [← h, List.flatMap_map]
            congr 1
            funext i
            unfold mget
            cases mget? (mset (lciph v l).frags (beAt b 2 2, kind, beAt b 4 2) b) (beAt b 2 2, kind, i) <;> rfl
        · cases h
  · simp [hk] at h

end Sys2Proof.Laws
end

