-- ==== Sys2Proof/WellFormed.lean ====
section
/-! DEFINITION. WellFormed.lean: the checks on a command as data: what its operands must satisfy beyond their types to be a
command the spec describes. A command that fails them is still total in the machine; the effect of an event that cannot
occur is none. -/
namespace Sys2Proof

/-- R7, R35: an offset of BAR0 that names an aligned 32-bit word. -/
def alignedWord (off : Nat) : Bool := off % 4 == 0

/-- R90: a packet whose payload is as long as a datagram can carry. -/
def Packet.sized (p : Packet) : Bool := p.payload.length < 65536

/-- R150: a record whose payload is as long as one chunk can be. -/
def Record.sized (r : Record) : Bool := r.payload.length < 65536

/-- The checks per command: register accesses name words, window writes and packets have a size that can arrive. -/
def Instr.WellFormed : Instr → Bool
  | .registerWrite _ off _ => alignedWord off.toNat
  | .unmappedAccess _ off _ => alignedWord off.toNat
  | .accessSize off size _ => size.len > 0 && !(size.len == 4 && size.full && alignedWord off.toNat)
  | .windowSlotWrite _ data => !data.isEmpty
  | .contrib _ p => p.sized
  | .weightPull _ p => p.sized
  | .stateWriteWeights _ p => p.sized
  | .partialRx _ r => r.sized
  | .finalRx _ r => r.sized
  | .resultDelivery _ ns => ns < 8000
  | _ => true

end Sys2Proof
end

