-- ==== Sys2Proof/Tests/Slice0.lean ====
section
/-! SUPPORT. Tests/Slice0.lean: tests of single commands, and for each statement with hypotheses states and operands that meet
them. -/
namespace Sys2Proof.Tests
open Sys2Proof Sys2Proof.Machine

set_option Elab.async false

/-! ## States and packets -/

/-- The gateway in TEST mode, as reset leaves it otherwise. -/
def sT : State := { State.reset with mode := some .test }

/-- A page with one register at a value, others as in the state. -/
def withReg (s : State) (pg : PageId) (off bank : Nat) (w : Word) : State :=
  setPage s pg { pageOf s pg with regs := mset (pageOf s pg).regs (off, bank) w }

theorem writable_of {s : State} {ag : Agent} {pg : PageId} (h : (pageUp s pg && mayWriteAll ag pg) = true) :
    Writable s ag pg := by
  simpa [Writable] using h

/-- A header of an opcode on a window queue, sealed with its payload. -/
def pkt (h : Header) (l : Bytes) : Packet := sealPacket ⟨{ h with version := 1, payloadLen := BitVec.ofNat 16 l.length }, l⟩

/-- A NOP on queue 0. -/
def nopP : Packet := pkt { Header.zero with opcode := 0x0D, vc := 3 } []

/-- The state a packet is checked on. -/
def stAt (s : State) (via : Via) (p : Packet) : State := (ingress s via p).getD s

/-- The context a packet is served as. -/
def ctxOf (s : State) (via : Via) (p : Packet) : Ctx := ⟨via, originOf via p.hdr, p, (stAt s via p).fab.seq⟩

/-- The state a packet is served on. -/
def served (s : State) (via : Via) (p : Packet) : State :=
  released (ctxOf s via p) (newFlight (creditStep (stAt s via p) (originOf via p.hdr) p.hdr (ctxOf s via p).cost).1 (ctxOf s via p))

/-- Whether a packet passes every check. -/
def passes (s : State) (via : Via) (p : Packet) : Bool :=
  (ingress s via p).isSome && headerCheck (stAt s via p) via p == 0 && permCheck (stAt s via p) via p.hdr == 0 &&
  (creditStep (stAt s via p) (originOf via p.hdr) p.hdr (ctxOf s via p).cost).2 == 0 &&
  !fenced (served s via p) (originOf via p.hdr) p.hdr.stream

theorem accepted_of {s : State} {via : Via} {p : Packet} (h : passes s via p = true) :
    Accepted s via p (ctxOf s via p) (served s via p) := by
  simp only [passes, Bool.and_eq_true, beq_iff_eq, Bool.not_eq_true'] at h
  obtain ⟨⟨⟨⟨h1, h2⟩, h3⟩, h4⟩, h5⟩ := h
  refine ⟨stAt s via p, ?_, h2, h3, rfl, h4, rfl, h5⟩
  unfold stAt
  cases hx : ingress s via p with
  | none => simp [hx] at h1
  | some a => rfl


/-! ## Commands that are not well formed -/

/-- R7, R35: a register access names an aligned word. -/
theorem test_registerWrite_unaligned_refused :
    Instr.WellFormed (.registerWrite .host 0x6042 0) = false ∧ Instr.WellFormed (.registerWrite .host 0x6040 0) = true := by
  decide

theorem test_unmappedAccess_unaligned_refused :
    Instr.WellFormed (.unmappedAccess .host 0x12001 true) = false ∧
    Instr.WellFormed (.unmappedAccess .host 0x12000 true) = true := by decide

/-- R37: an access of one aligned word is no wrong size, and one of no byte is none at all. -/
theorem test_accessSize_wrong_length_refused :
    Instr.WellFormed (.accessSize 0 ⟨4, true⟩ true) = false ∧ Instr.WellFormed (.accessSize 0 ⟨0, true⟩ true) = false ∧
    Instr.WellFormed (.accessSize 0 ⟨4, false⟩ true) = true ∧ Instr.WellFormed (.accessSize 0 ⟨8, true⟩ true) = true := by decide

theorem test_windowSlotWrite_empty_refused :
    Instr.WellFormed (.windowSlotWrite 0 []) = false ∧ Instr.WellFormed (.windowSlotWrite 0 [1]) = true := by decide

/-- R90: no packet is longer than a datagram. -/
theorem test_packet_too_long_refused :
    Instr.WellFormed (.contrib (.window 1) ⟨Header.zero, List.replicate 65536 0⟩) = false ∧
    Instr.WellFormed (.weightPull (.window 2) ⟨Header.zero, List.replicate 65536 0⟩) = false ∧
    Instr.WellFormed (.stateWriteWeights (.window 0) ⟨Header.zero, List.replicate 65536 0⟩) = false ∧
    Instr.WellFormed (.contrib (.window 1) ⟨Header.zero, []⟩) = true := by
  simp only [Instr.WellFormed, Packet.sized, List.length_replicate, List.length_nil]; decide

/-- R150: no record is longer than a datagram. -/
theorem test_record_too_long_refused (h : RecHdr) (v : RecVia) (l : Bytes) (hl : l.length = 65536) :
    Instr.WellFormed (.partialRx v ⟨h, l⟩) = false ∧ Instr.WellFormed (.finalRx v ⟨h, l⟩) = false ∧
    Instr.WellFormed (.finalRx v ⟨h, []⟩) = true := by
  simp [Instr.WellFormed, Record.sized, hl]

/-- R8: a superframe has 8,000 nanoseconds. -/
theorem test_resultDelivery_past_superframe_refused :
    Instr.WellFormed (.resultDelivery 0 8000) = false ∧ Instr.WellFormed (.resultDelivery 0 7999) = true := by decide

/-! ## Check values of the spec -/

/-- R92: CRC-64 of the nine characters 1 to 9. -/
theorem test_crc64_check : crc64 [0x31, 0x32, 0x33, 0x34, 0x35, 0x36, 0x37, 0x38, 0x39] = 0x995DC9BBDF1939FA := by
  decide +kernel

/-- R295, R424: CRC-32C of the nine characters 1 to 9. -/
theorem test_crc32c_check : crc32c [0x31, 0x32, 0x33, 0x34, 0x35, 0x36, 0x37, 0x38, 0x39] = 0xE3069283 := by
  decide +kernel

/-! ## Witnesses: steps, reset, memory, pages, raising a code -/

theorem test_wit_stepRunsFront :
    ({ sT with pending := [.cqStall, .nop (.window 0) nopP] } : State).pending =
      .cqStall :: [.nop (.window 0) nopP] ∧ sT.pending = [] := ⟨rfl, rfl⟩

/-- A datagram on a port from address 5 to a UDP port, of n UDP payload bytes. -/
def dgOf (port : Fin 64) (dst : BitVec 16) (peer : Bool) (n : Nat) : Dgram :=
  ⟨port, true, 0, 5, false, false, 0, true, 4000, dst, 8 + n, peer⟩

def sDrop : State := { sT with pending := [.fabricFrameDrop (dgOf 5 80 false 64)] }

theorem test_wit_memoryOkKept : MemoryOk sDrop ∧ step sDrop = .next (count sT (.fport 0 5) 0 1) :=
  ⟨by unfold MemoryOk; decide +kernel, rfl⟩

theorem test_wit_memoryReadAfterWrite : Memory.wf [(3, 1), (7, 255)] = true := by decide

theorem test_wit_pageMap : pageAt 0x3FFFF = none ∧ pageAt 0x6FFF = some .cpw ∧ pageAt 0x27FFFF = some (.tdec 63) := by
  decide +kernel

theorem test_wit_barePages :
    ∃ s : State, s.mode = some .bare ∧ pageUp s .time = false ∧ pageUp s .cpw = true ∧ sT.mode = some .test ∧
      ({ s with mode := some .recovery } : State).mode = some .recovery ∧
      ({ s with mode := some .service } : State).mode = some .service :=
  ⟨{ sT with mode := some .bare }, by decide +kernel⟩

/-- Vector 2 unmasked, with an address and data. -/
def sMsix : State := { sT with msix := { sT.msix with words := [(32, 0x1000), (40, 5), (44, 0)] } }

theorem test_wit_raiseRecords :
    ((sMsix.msix.word (16 * (2 : Fin 8).val + 12)).getLsbD 0 = false ∧ (sT.msix.word (16 * (7 : Fin 8).val + 12)).getLsbD 0 = true) ∧
    (0x4000 : Nat) / 4096 ≤ 4 ∧ (pageOf sT .cpw).firstValid = false ∧
    (pageOf (raise sT .cpw 0x2005 0) .cpw).firstValid = true ∧
    (inClock (raise sT .cpw 0x2005 0) .cpw && outranks 0x2006 (pageOf (raise sT .cpw 0x2005 0) .cpw).firstCode.toNat) = false ∧
    (inClock (raise { sT with clk := some [] } .cpw 0x2005 0) .cpw = true ∧
      (pageOf (raise { sT with clk := some [] } .cpw 0x2005 0) .cpw).firstValid = true ∧
      outranks 0x2004 (pageOf (raise { sT with clk := some [] } .cpw 0x2005 0) .cpw).firstCode.toNat = true) ∧
    (0x2FFF : Nat) / 4096 < 3 ∧ (0x3000 : Nat) / 4096 ≥ 3 := by
  decide +kernel

/-- R49, R50: SQ_TAIL_INVALID is captured, counted on a second error, and class 4 halts the block. -/
theorem test_raise_effects :
    (pageOf (raise sT .cpw 0x2004 7) .cpw).firstCode = 0x2004 ∧ (pageOf (raise sT .cpw 0x2004 7) .cpw).firstInfo = 7 ∧
    (pageOf (raise (raise sT .cpw 0x2004 7) .cpw 0x2005 0) .cpw).errCount = 1 ∧
    (pageOf (raise (raise sT .cpw 0x2004 7) .cpw 0x2005 0) .cpw).firstCode = 0x2004 := by
  decide +kernel

/-! ## Witnesses: registers -/

/-- LINE 0 and FEC 0 enabled; a slot hunts and the link of group 0 is enabled, so both are BUSY. -/
def sBusy : State :=
  let s := setPage (setPage sT (.line 0) { Page.reset with enable := true }) (.fec 0) { Page.reset with enable := true }
  { s with line := { s.line with slots := [((0, 0), { LSlot.reset with rx := .hunt })],
                                 links := [((0, 0), { LLink.reset with en := true })] } }

theorem test_wit_registerWriteClasses :
    (pageUp sT .time = true ∧ mayWriteCommon .host .time = true) ∧
    (Writable sT .host (.fec 0) ∧ 4 ≤ fld (0xF : Word).toNat 3 0 ∧ blkIdle sT (.fec 0) = true) ∧
    (Writable sBusy .host (.fec 0) ∧ 4 ≤ fld (4 : Word).toNat 3 0 ∧ blkIdle sBusy (.fec 0) = false ∧
      fld (4 : Word).toNat 3 0 ≠ fldV sBusy (.fec 0) 0x40 3 0) ∧
    (Writable sT .host (.fec 0) ∧ fld (3 : Word).toNat 3 0 < 4) ∧
    (Writable sT .host (.line 0) ∧ 64 ≤ fld (64 : Word).toNat 12 0 ∧ fld (64 : Word).toNat 12 0 ≤ 6144 ∧
      StageFits sT 0 (fld (64 : Word).toNat 12 0) ∧ blkState sT (.line 0) ≠ 2 ∧ blkState sT (.line 0) ≠ 3) ∧
    ¬StageFits (withReg sT (.pond 0) 0x44 0 2) 0 (fld (2048 : Word).toNat 12 0) ∧
    (Writable sBusy .host (.line 0) ∧ StageFits sBusy 0 (fld (64 : Word).toNat 12 0) ∧ blkState sBusy (.line 0) = 2 ∧
      fld (64 : Word).toNat 12 0 ≠ fld (reads sBusy (.line 0) 0x8C) 12 0) ∧
    (pageUp sT .ledger = true ∧ fld (0 : Word).toNat 0 0 ≠ fld (reads sT .ledger 0x44) 0 0) := by
  unfold Writable reads StageFits; decide +kernel

theorem test_wit_headerWrites :
    (Writable sT .host .time ∧ blkState sT .time ≠ 2 ∧ blkState sT .time ≠ 3) ∧
    (Writable sBusy .host (.line 0) ∧ false ≠ (pageOf sBusy (.line 0)).enable ∧ blkState sBusy (.line 0) = 2) ∧
    (pageUp sT .time = true ∧ mayWriteCommon .host .time = true) := by
  unfold Writable; decide +kernel

/-- R48: FEC_CFG.ITER of 3 is refused with CFG_RANGE, and 4 is taken. -/
theorem test_registerWrite_range :
    Answers (.registerWrite .host (BitVec.ofNat 26 (pageAddr (.fec 0) + 0x40)) 3) sT (fun t =>
      (pageOf t (.fec 0)).cfgRefused = true ∧ (pageOf t (.fec 0)).firstCode = 0x2008 ∧ fldV t (.fec 0) 0x40 3 0 = 12) ∧
    Answers (.registerWrite .host (BitVec.ofNat 26 (pageAddr (.fec 0) + 0x40)) 4) sT (fun t =>
      fldV t (.fec 0) 0x40 3 0 = 4) :=
  ⟨⟨_, rfl, by decide +kernel⟩, ⟨_, rfl, by decide +kernel⟩⟩

theorem test_wit_unmappedAndSize :
    isUnmapped sT (0x12000 : BitVec 26).toNat = true ∧ (0x1FFFFFF : BitVec 26).toNat < 0x2000000 ∧ (8 : Nat) ≠ 0 ∧
    ¬((4 : Nat) = 4 ∧ (0x1FFFFFE : BitVec 26).toNat % 4 = 0 ∧ true = true) ∧
    ¬((4 : Nat) = 4 ∧ (0x1FFFFFC : BitVec 26).toNat % 4 = 0 ∧ false = true) := by
  decide +kernel

/-- A gateway whose queue 1 is enabled with its tail at 10 and head at 4, and whose completion ring holds a completion. -/
def sRing : State :=
  let s := withReg (withReg sT .cpw 0x58 0 1) .cpw 0x50 0 10
  { s with sf := 2000, cpw := { s.cpw with heads := [(1, 4)], held := [nopP], fullSf := some 0, intWait := true } }

theorem test_wit_windowAndRing :
    (0x800000 * (1 : Fin 4).val ≤ (0x800000 : BitVec 25).toNat ∧
      (0x800000 : BitVec 25).toNat + ([1, 2] : Bytes).length ≤ 0x800000 * ((1 : Fin 4).val + 1) ∧ sqEn sRing 1 = true) ∧
    (Writable sRing .host .cpw ∧ fld (511 : Word).toNat 15 0 ≤ 511 ∧
      (fldV sRing .cpw (0x40 + 16 * (1 : Fin 4).val) 15 0 + 512 - mget sRing.cpw.heads 1 0) % 512 ≤
        (fld (511 : Word).toNat 15 0 + 512 - mget sRing.cpw.heads 1 0) % 512) ∧
    (Writable sRing .host .cpw ∧ fld (9 : Word).toNat 15 0 ≤ 511 ∧
      (fld (9 : Word).toNat 15 0 + 512 - mget sRing.cpw.heads 1 0) % 512 <
        (fldV sRing .cpw (0x40 + 16 * (1 : Fin 4).val) 15 0 + 512 - mget sRing.cpw.heads 1 0) % 512) ∧
    511 < fld (512 : Word).toNat 15 0 ∧ sT.cpw.held = [] ∧
    (sRing.cpw.fullSf = some 0 ∧ sRing.cpw.held ≠ [] ∧ sRing.cpw.stalled = false ∧
      fldV sRing .cpw 0x9C 23 0 ≤ 8 * (sRing.sf - 0)) ∧
    ({ sT with cpw := { sT.cpw with stalled := true } } : State).cpw.stalled = true ∧ sRing.cpw.intWait = true := by
  unfold Writable; decide +kernel

def sI3c (ix : BitVec 16) : State := { sT with i3c := { sT.i3c with up := true, index := ix } }

theorem test_wit_i3cTarget :
    ((sI3c 0x58).i3c.up = true ∧ (sI3c 0x58).i3c.dyn = none) ∧
    ({ (sI3c 0x58).i3c with dyn := some 5 } : I3c).dyn = some 5 ∧
    ((sI3c 0x58).i3c.index = 0x58 ∧ 1000 ≤ (1000 : Word).toNat ∧ (2800 : Word).toNat ≤ 2800) ∧
    (999 : Word).toNat < 1000 ∧ 2800 < (2801 : Word).toNat ∧
    ((sI3c 0x54).i3c.index ≠ 0x58 ∧ (sI3c 0x54).i3c.index ≠ 0x5C) ∧ (sI3c 0x5C).i3c.index = 0x5C := by
  decide

/-- R59: PWR_CAP takes 1,000 and refuses 999. -/
theorem test_pwrCap_range :
    Answers (.pwrCapWrite 1000) (sI3c 0x58) (fun t => t.i3c.cap = 1000 ∧ t.i3c.refused = false) ∧
    Answers (.pwrCapWrite 999) (sI3c 0x58) (fun t => t.i3c.cap = 2800 ∧ t.i3c.refused = true) :=
  ⟨⟨_, rfl, by decide +kernel⟩, ⟨_, rfl, by decide +kernel⟩⟩

/-! ## Witnesses: selectors -/

/-- Slot 0 of group 0 belongs to a link. -/
def sSlot : State :=
  withReg sT (.line 0) 0x54 0 0x1FFFF801

theorem test_wit_selectorsCellsAndLine :
    (Writable sT .host (.ffe 0) ∧ Writable sT .host (.tile 0) ∧ fld (239 : Word).toNat 7 0 ≤ 239) ∧
    (Writable sT .host (.line 0) ∧ fld (17 : Word).toNat 4 0 = (17 : Fin 18).val) ∧
    (Writable sT .sec (.ciph 0 1)) ∧ slotLink sSlot 0 17 = some (0, 0) := by
  unfold Writable; decide +kernel

def logEnt0 : LogEnt := ⟨1, 0x3001, 0, 3, 0, 0, 0, 0, List.replicate 32 0⟩

theorem test_wit_selectorsLightAndQueues :
    (Writable sT .ccf (.cart 0) ∧ fld (19 : Word).toNat 6 0 ≤ 19) ∧ (Writable sT .ccf (.cart 1) ∧ fld (71 : Word).toNat 6 0 ≤ 71) ∧
    (Writable sT .host (.leng 3) ∧ fld (17 : Word).toNat 4 0 = (17 : Fin 18).val) ∧ Writable sT .host (.fpe 3 1) ∧
    Writable sT .host (fportOf 63) ∧ Writable sT .host .tio ∧ Writable sT .ccf .rseq ∧
    (Writable sT .ccf .elog ∧ fld (4095 : Word).toNat 16 16 = 0) ∧ fld (63 : Word).toNat 11 0 ≤ 63 ∧
    [logEnt0][fld (0 : Word).toNat 11 0]? = some logEnt0 := by
  unfold Writable; decide +kernel

/-! ## Witnesses: packets -/

/-- The packet is accepted, and served as `ctxOf` on `served`. -/
@[irreducible] def Acc (s : State) (via : Via) (p : Packet) : Prop := Accepted s via p (ctxOf s via p) (served s via p)

theorem acc_of {s : State} {via : Via} {p : Packet} (h : passes s via p = true) : Acc s via p := by
  unfold Acc; exact accepted_of h

theorem test_wit_creditCost : (0x01 : Nat) ≠ 0x0B ∧ (0x01 : Nat) ≠ 0x0C ∧ (0x01 : Nat) ≠ 0x0D ∧ creditCost 1 0 = 1 ∧
    creditCost 1 192 = 1 ∧ creditCost 1 193 = 2 := by decide

/-- A datagram on port 0 from address 5, of n UDP payload bytes. -/
def dg (n : Nat) : Dgram := dgOf 0 47444 false n

/-- Rule: address 5, any identifier up to 9, grant 64 on each VC. -/
def rule0 : SrcRule := ⟨5, 128, true, 0, 0, 9, Vc4.all 64⟩

/-- A gateway with an address, a rule and one attached source, 5 and 7. -/
def src0 : Source := newSource (dg 64) 7 rule0

def sFab (srcs : List Source) (rules : List SrcRule) : State :=
  { sT with fab := { sT.fab with
      net := { sT.fab.net with number := some (1, 2), quads := List.replicate 4 ⟨some 9, none, 9, 0⟩ },
      srcs := srcs, rules := rules } }

def fpkt (h : Header) (l : Bytes) : Packet := pkt { h with sourceId := 7 } l

/-- An instance of opcode 0x3F, which is no request, and one with a wrong CHECK. -/
def pkt3F : Packet := pkt { Header.zero with opcode := 0x3F, vc := 3 } []
def badCheck : Packet := ⟨{ pkt3F.hdr with check := pkt3F.hdr.check + 1 }, []⟩

def pktFn9 : Packet := pkt { Header.zero with opcode := 0x0A, vc := 3, arg0 := 9, chunkCount := 1 } []
def pktQty3 : Packet := pkt { Header.zero with opcode := 0x09, vc := 3, aux := 3, chunkCount := 1, elemType := 1 } []

theorem test_wit_packetsRefused :
    ((dgOf 0 80 false 64).conforms sT.fab.net.port = false ∧ (dg 63).udpLen < 72 ∧ quadAddressed sT 3 = false) ∧
    (ingress sT (.window 0) pkt3F = some sT ∧ pkt3F.hdr.check.toNat = packetCheck pkt3F ∧ pkt3F.hdr.version = 1 ∧
      isRequest pkt3F.hdr.opcode.toNat = false) ∧
    (ingress sT (.window 0) badCheck = some sT ∧ badCheck.hdr.check.toNat ≠ packetCheck badCheck ∧
      isRequest badCheck.hdr.opcode.toNat = false) ∧
    (Acc sT (.window 0) pktFn9 ∧ pktFn9.hdr.opcode = 0x0A ∧ mgmtDefined pktFn9.hdr.arg0.toNat = false) ∧
    (ingress sT (.window 0) pktQty3 = some sT ∧ pktQty3.hdr.check.toNat = packetCheck pktQty3 ∧ pktQty3.hdr.version = 1 ∧
      badQty pktQty3.hdr = true ∧ pktQty3.hdr.payloadLen.toNat ≤ 8192 ∧
      pktQty3.payload.length = pktQty3.hdr.payloadLen.toNat ∧ pktQty3.payload = []) :=
  ⟨by decide +kernel, by decide +kernel, by decide +kernel, ⟨acc_of (by decide +kernel), by decide +kernel⟩, by decide +kernel⟩

/-- A contribution of the source, under way. -/
def flt0 : Flight := ⟨3, .fabric 5 7, 0, 1, 0, 0, 0, false, false, false⟩
def pktC : Packet := fpkt { Header.zero with opcode := 1, vc := 1, credit := 1 } []
def ctx0 : Ctx := ⟨.fabric (dg 64), .fabric 5 7, pktC, 3⟩

theorem test_wit_packetSettled :
    (ctx0.org = .fabric 5 7 ∧ findSrc (sFab [src0] []) 5 7 = some src0 ∧ 0 < ctx0.cost) ∧
    (⟨.window 0, .win 0, nopP, 0⟩ : Ctx).cost = 0 ∧
    (∃ x : Source, findSrc (sFab [x] []) 5 7 = some x ∧ ctx0.cost ≤ (x.credit.get ctx0.vc).held) ∧
    (flt0 ∈ ({ sT.fab with flights := [flt0] } : Fab).flights ∧ flt0.seq = ctx0.seq) ∧
    (∃ s : State, s.cpw.held = [] ∧ cqRoom s = false) :=
  ⟨by decide +kernel, by decide +kernel,
    ⟨{ src0 with credit := { src0.credit with bulk := { Credit.zero with held := 1 } } }, by decide +kernel⟩,
    by decide +kernel, ⟨withReg sT .cpw 0x8C 0 1, by decide +kernel⟩⟩

def pktF (scope : BitVec 8) : Packet := pkt { Header.zero with opcode := 2, vc := 3, aux := scope } []

/-- A FENCE of scope ACCEPT that waits for a packet. -/
def fence0 : Fence := ⟨4, .fabric 5 7, 0, .fabric (dg 64), pktC.hdr, 0, [3], 0⟩
def sFence (done : Bool) : State :=
  let s := sFab [src0] []
  { s with fab := { s.fab with fences := [fence0], flights := [{ flt0 with accepted := done }] } }

theorem test_wit_fences :
    (Acc sT (.window 0) (pktF 0) ∧ (pktF 0).hdr.opcode = 2 ∧ (pktF 0).hdr.aux = 0) ∧
    (Acc sT (.window 0) (pktF 1) ∧ (pktF 1).hdr.aux = 1) ∧ (Acc sT (.window 0) (pktF 2) ∧ (pktF 2).hdr.aux = 2) ∧
    ((sFence true).fab.fences.find? (fun f => f.org == .fabric 5 7 && f.stream == 0) = some fence0 ∧
      fenceReached (sFence true) fence0 = true) ∧
    fenceReached (sFence false) fence0 = false :=
  ⟨⟨acc_of (by decide +kernel), by decide +kernel⟩, ⟨acc_of (by decide +kernel), by decide +kernel⟩,
    ⟨acc_of (by decide +kernel), by decide +kernel⟩, by decide +kernel, by decide +kernel⟩

def pktA : Packet := fpkt { Header.zero with opcode := 0x0B, vc := 3 } []
def pktD : Packet := fpkt { Header.zero with opcode := 0x0C, vc := 3 } []
def otherSrc : Source := { src0 with id := 8 }

theorem test_wit_attachment :
    (Acc (sFab [] [rule0]) (.fabric (dg 64)) pktA ∧ pktA.hdr.opcode = 0x0B ∧
      findSrc (served (sFab [] [rule0]) (.fabric (dg 64)) pktA) 5 pktA.hdr.sourceId = none ∧
      matchRule (served (sFab [] [rule0]) (.fabric (dg 64)) pktA).fab.rules 5 pktA.hdr.sourceId = some rule0 ∧
      (served (sFab [] [rule0]) (.fabric (dg 64)) pktA).fab.srcs.length < 2048) ∧
    (Acc (sFab [] []) (.fabric (dg 64)) pktA ∧
      findSrc (served (sFab [] []) (.fabric (dg 64)) pktA) 5 pktA.hdr.sourceId = none ∧
      matchRule (served (sFab [] []) (.fabric (dg 64)) pktA).fab.rules 5 pktA.hdr.sourceId = none) ∧
    (Acc (sFab (List.replicate 2048 otherSrc) [rule0]) (.fabric (dg 64)) pktA ∧
      findSrc (served (sFab (List.replicate 2048 otherSrc) [rule0]) (.fabric (dg 64)) pktA) 5 pktA.hdr.sourceId = none ∧
      matchRule (served (sFab (List.replicate 2048 otherSrc) [rule0]) (.fabric (dg 64)) pktA).fab.rules 5
        pktA.hdr.sourceId = some rule0 ∧
      2048 ≤ (served (sFab (List.replicate 2048 otherSrc) [rule0]) (.fabric (dg 64)) pktA).fab.srcs.length) ∧
    (Acc (sFab [src0] []) (.fabric (dg 64)) pktA ∧
      findSrc (served (sFab [src0] []) (.fabric (dg 64)) pktA) 5 pktA.hdr.sourceId = some src0 ∧ src0.admitted = true) ∧
    (Acc (sFab [src0] []) (.fabric (dg 64)) pktD ∧ pktD.hdr.opcode = 0x0C ∧
      findSrc (served (sFab [src0] []) (.fabric (dg 64)) pktD) 5 pktD.hdr.sourceId = some src0) ∧
    (∃ x : Source, findSrc (sFab [x] []) 5 7 = some x ∧ holdsPacket (sFab [x] []) x = false ∧ x.resetWait ≠ [] ∧
      x.detachWait ≠ [] ∧ x.admitted = false ∧ boundSrc (sFab [x] []) (.fabric 5 7) = false) :=
  ⟨⟨acc_of (by decide +kernel), by decide +kernel⟩, ⟨acc_of (by decide +kernel), by decide +kernel⟩,
    ⟨acc_of (by decide +kernel), by decide +kernel⟩, ⟨acc_of (by decide +kernel), by decide +kernel⟩,
    ⟨acc_of (by decide +kernel), by decide +kernel⟩,
    ⟨{ src0 with resetWait := [pktA], detachWait := [pktD], admitted := false }, by decide +kernel⟩⟩

/-- Credits released and not reported, and a gap of one credit since superframe 0. -/
def srcGap : Source := { src0 with credit := { src0.credit with bulk := { Credit.zero with ret := 5, unrep := 5, gaps := [⟨2, 2, 0⟩] } } }

/-- The ring's gateway, with CPW enabled. -/
def sTake : State := setPage sRing .cpw { pageOf sRing .cpw with enable := true }

theorem test_wit_creditsAndSlots :
    (Acc sT (.window 0) nopP ∧ nopP.hdr.opcode = 0x0D) ∧
    (findSrc (sFab [srcGap] []) 5 7 = some srcGap ∧ (srcGap.credit.get .bulk).unrep ≠ 0 ∧
      (srcGap.credit.get .bulk).gaps.find? (fun g => decide (g.sf + 2 ≤ ({ sFab [srcGap] [] with sf := 2 } : State).sf)) =
        some ⟨2, 2, 0⟩) ∧
    (sqEn sTake 1 = true ∧ takesWork sTake .cpw = true ∧
      mget sTake.cpw.heads 1 0 ≠ fldV sTake .cpw (0x40 + 0x10 * (1 : Fin 4).val) 15 0 ∧
      (allocPond sTake (reqOf sTake (.win 1)) 0).isSome = true ∧
      allocPond { withReg sTake .tpool 0x58 0 0 with mode := some .service } 0 0 = none) ∧
    (sqEn (withReg sT .cpw 0x48 0 7) 0 = true ∧
      mget (withReg sT .cpw 0x48 0 7).cpw.heads 0 0 = fldV (withReg sT .cpw 0x48 0 7) .cpw (0x40 + 0x10 * (0 : Fin 4).val) 15 0) :=
  ⟨⟨acc_of (by decide +kernel), by decide +kernel⟩, by decide +kernel, by decide +kernel, by decide +kernel⟩

/-- MGMT packets of one chunk on queue 0. -/
def mg (fn : BitVec 32) (l : Bytes) : Packet :=
  pkt { Header.zero with opcode := 0x0A, vc := 3, arg0 := fn, chunkCount := if l = [] then 0 else 1 } l

def isMg (fn : BitVec 32) (p : Packet) : Bool :=
  p.hdr.opcode == 0x0A && p.hdr.chunkIndex == 0 && decide (p.hdr.chunkCount.toNat ≤ 1) && p.hdr.arg0 == fn

def netPay : Bytes := beBytes 1 31 ++ beBytes 1 63 ++ beBytes 2 47444 ++ List.replicate 140 0
def rulePay : Bytes := beBytes 16 0 ++ beBytes 2 0 ++ beBytes 2 255 ++ beBytes 2 0 ++ beBytes 2 9 ++
  beBytes 2 33 ++ beBytes 2 33 ++ beBytes 2 33 ++ beBytes 2 33
def epochPay : Bytes := beBytes 4 0x00010000 ++ beBytes 4 0xFFFFFFFE
def readPay : Bytes := beBytes 4 0x6000 ++ beBytes 4 0x04000000
def writePay : Bytes := beBytes 8 0x0001000000000000 ++ beBytes 4 0xFFFFFC ++ beBytes 4 5

theorem test_wit_mgmtFunctions :
    (Acc sT (.window 0) (mg 1 netPay) ∧ isMg 1 (mg 1 netPay) = true ∧ (mg 1 netPay).payload.length = 144 ∧ byteAt (mg 1 netPay).payload 0 = 31 ∧
      byteAt (mg 1 netPay).payload 1 = 63 ∧ netOk (mg 1 netPay).payload = true ∧
      (served sT (.window 0) (mg 1 netPay)).plans.slot0.st = .empty ∧
      (served sT (.window 0) (mg 1 netPay)).plans.slot1.st = .empty ∧
      (∀ q : Fin 4, blkState (served sT (.window 0) (mg 1 netPay)) (.tm q) ≠ 2 ∧
        blkState (served sT (.window 0) (mg 1 netPay)) (.tm q) ≠ 3) ∧
      ∀ (g i : Fin 4), linkState (served sT (.window 0) (mg 1 netPay)) (g, i) = 0) ∧
    (Acc sT (.window 0) (mg 1 []) ∧ isMg 1 (mg 1 []) = true ∧ (mg 1 []).payload = []) ∧
    (Acc sT (.window 0) (mg 2 rulePay) ∧ isMg 2 (mg 2 rulePay) = true ∧ (mg 2 rulePay).payload.length = 32 * 1 ∧
      ∀ i < 1, ruleOk (slice (mg 2 rulePay).payload (32 * i) 32) = true) ∧
    (Acc sT (.window 0) (mg 3 epochPay) ∧ isMg 3 (mg 3 epochPay) = true ∧ beAt (mg 3 epochPay).payload 2 2 = 0 ∧
      beAt (mg 3 epochPay).payload 4 4 = 0xFFFFFFFE ∧
      planRuns (served sT (.window 0) (mg 3 epochPay)) (beAt (mg 3 epochPay).payload 0 2) = false) ∧
    (Acc sT (.window 0) (mg 4 readPay) ∧ isMg 4 (mg 4 readPay) = true ∧ beAt (mg 4 readPay).payload 6 2 = 0 ∧ beAt (mg 4 readPay).payload 4 2 = 1024 ∧
      beAt (mg 4 readPay).payload 0 4 % 4096 + 4 * beAt (mg 4 readPay).payload 4 2 = 4096) ∧
    (Acc sT (.window 0) (mg 5 writePay) ∧ isMg 5 (mg 5 writePay) = true ∧ beAt (mg 5 writePay).payload 0 2 = 1 ∧
      (mg 5 writePay).payload.length = 8 + 8 * 1 ∧ (slice (mg 5 writePay).payload 2 6).all (· == 0) = true ∧
      ∀ i < 1, beAt (mg 5 writePay).payload (8 + 8 * i) 4 % 4 = 0 ∧ beAt (mg 5 writePay).payload (8 + 8 * i) 4 < 0x1000000) :=
  ⟨⟨acc_of (by decide +kernel), by decide +kernel⟩, ⟨acc_of (by decide +kernel), by decide +kernel⟩,
    ⟨acc_of (by decide +kernel), by decide +kernel⟩, ⟨acc_of (by decide +kernel), by decide +kernel⟩,
    ⟨acc_of (by decide +kernel), by decide +kernel⟩, ⟨acc_of (by decide +kernel), by decide +kernel⟩⟩

/-! ## Witnesses: cells and contributions -/

/-- An instance of job 1, step 5, ordinal 2: an ALL_REDUCE by SUM of two ranks, both placed here, of two FP32 elements in two
chunks, in cell 3. -/
def d0 : Desc :=
  { bytes := [1, 1, 1, 1, 1, 1, 1, 0] ++ beBytes 8 (2 ^ 48 + 5 * 2 ^ 24 + 2 * 256) ++ beBytes 2 1 ++ beBytes 2 0 ++ beBytes 4 8 ++
      beBytes 4 8 ++ beBytes 2 4 ++ beBytes 2 4 ++ beBytes 4 10 ++ beBytes 4 2 ++ beBytes 2 1 ++ List.replicate 22 0,
    digest := 77, cell := 3, timed2 := false, timed3 := false, ranks := [0, 1], peers := [], inst := none, shadow := 0xFFFF,
    sramRes := 0, pondRes := 0 }

/-- The instance with a descriptor, as the plan of gateway 66 places it. -/
def xOf (d : Desc) : Placed := ⟨0, ⟨1, 66, 0, 5, 1, 0, 1, [], [⟨5, [d], 0, 0, []⟩]⟩, ⟨5, [d], 0, 0, []⟩, d⟩
def x0 : Placed := xOf d0
def c0 : BitVec 64 := mkCiid 1 5 2 0

/-- Gateway 66 with the plan of a descriptor ACTIVE and a cell 3. -/
def sDesc (d : Desc) (cl : Cell) : State :=
  { sT with
    fab := { sT.fab with net := { sT.fab.net with number := some (1, 2) } },
    plans := { sT.plans with slot0 := { Slot.empty with st := .active, plan := some (xOf d).plan, begun := [5] } },
    coll := { sT.coll with cells := [(3, cl)] } }
def sCell (cl : Cell) : State := sDesc d0 cl

/-- Cell 3 gathering the instance, rank 1 bound to queue 1 with chunk 0 taken. -/
def cellG : Cell :=
  { Cell.free with st := .gathering, ciid := c0, digest := 77, bound := [(1, (.win 1, 0))], taken := [⟨1, 0, crc64 [1, 2, 3, 4]⟩] }

/-- A contribution of a rank and chunk on queue 1. -/
def contribP (c : BitVec 64) (rank idx count len : Nat) : Packet :=
  pkt { Header.zero with opcode := 1, vc := 1, ciid := c, member := BitVec.ofNat 16 rank, elemType := 1, redOp := 1, cell := 3,
                         arg1 := 77, chunkIndex := BitVec.ofNat 32 idx, chunkCount := BitVec.ofNat 32 count }
    ((List.range len).map (fun i => BitVec.ofNat 8 (i + 1)))

def w1 : Via := .window 1

/-- An instance runs, and its descriptor places it. -/
def runs (u : State) (p : Packet) : Bool :=
  p.hdr.opcode == 1 && attempt u p.hdr.ciid == .now && findInst u p.hdr.ciid == some x0

def sRolled : State := { sCell cellG with plans := { (sCell cellG).plans with rolled := [(1, 5, 255)] } }

theorem test_wit_contributionTaken_refusals :
    (Acc sRolled w1 (contribP (mkCiid 1 5 2 255) 0 0 2 4) ∧
      attempt (served sRolled w1 (contribP (mkCiid 1 5 2 255) 0 0 2 4)) (mkCiid 1 5 2 255) = .stale) ∧
    (Acc (sCell cellG) w1 (contribP (mkCiid 1 6 2 0) 0 0 2 4) ∧
      attempt (served (sCell cellG) w1 (contribP (mkCiid 1 6 2 0) 0 0 2 4)) (mkCiid 1 6 2 0) ≠ .stale ∧
      findInst (served (sCell cellG) w1 (contribP (mkCiid 1 6 2 0) 0 0 2 4)) (mkCiid 1 6 2 0) = none) ∧
    (Acc (sCell cellG) w1 (contribP c0 2 0 2 4) ∧ runs (served (sCell cellG) w1 (contribP c0 2 0 2 4)) (contribP c0 2 0 2 4) = true ∧
      d0.n ≤ (contribP c0 2 0 2 4).hdr.member.toNat) ∧
    (Acc (sCell cellG) w1 (contribP c0 0 2 2 4) ∧ runs (served (sCell cellG) w1 (contribP c0 0 2 2 4)) (contribP c0 0 2 2 4) = true ∧
      d0.inChunks ≤ (contribP c0 0 2 2 4).hdr.chunkIndex.toNat) ∧
    (Acc (sCell cellG) w1 (contribP c0 0 0 3 4) ∧ runs (served (sCell cellG) w1 (contribP c0 0 0 3 4)) (contribP c0 0 0 3 4) = true ∧
      (contribP c0 0 0 3 4).hdr.chunkCount.toNat ≠ d0.inChunks) ∧
    (Acc (sCell cellG) w1 (contribP c0 0 1 2 5) ∧ runs (served (sCell cellG) w1 (contribP c0 0 1 2 5)) (contribP c0 0 1 2 5) = true ∧
      (contribP c0 0 1 2 5).hdr.payloadLen.toNat ≠ min d0.inChunk (d0.inBytes - 1 * d0.inChunk)) :=
  ⟨⟨acc_of (by decide +kernel), by decide +kernel⟩, ⟨acc_of (by decide +kernel), by decide +kernel⟩,
    ⟨acc_of (by decide +kernel), by decide +kernel⟩, ⟨acc_of (by decide +kernel), by decide +kernel⟩,
    ⟨acc_of (by decide +kernel), by decide +kernel⟩, ⟨acc_of (by decide +kernel), by decide +kernel⟩⟩

/-- A packet fits its descriptor up to the fields of R96. -/
def fits (p : Packet) : Bool :=
  decide (p.hdr.member.toNat < d0.n) && d0.ranks.contains p.hdr.member.toNat && p.hdr.chunkCount.toNat == d0.inChunks &&
  decide (p.hdr.chunkIndex.toNat < d0.inChunks) &&
  p.hdr.payloadLen.toNat == min d0.inChunk (d0.inBytes - p.hdr.chunkIndex.toNat * d0.inChunk)

/-- The served state of a contribution to a cell, and its cell there. -/
def uOf (cl : Cell) (p : Packet) : State := served (sCell cl) w1 p

theorem test_wit_contributionTaken :
    (Acc (sDesc { d0 with ranks := [1] } cellG) w1 (contribP c0 0 0 2 4) ∧ (contribP c0 0 0 2 4).hdr.opcode = 1 ∧
      findInst (served (sDesc { d0 with ranks := [1] } cellG) w1 (contribP c0 0 0 2 4)) c0 = some (xOf { d0 with ranks := [1] }) ∧
      fits (contribP c0 0 0 2 4) = true ∧ (0 : Nat) ∉ ({ d0 with ranks := [1] } : Desc).ranks) ∧
    (Acc (sCell cellG) w1 (contribP c0 1 1 2 4) ∧ runs (uOf cellG (contribP c0 1 1 2 4)) (contribP c0 1 1 2 4) = true ∧
      fits (contribP c0 1 1 2 4) = true ∧ fieldCause d0 (contribP c0 1 1 2 4).hdr = 0 ∧
      Holds (uOf cellG (contribP c0 1 1 2 4)) 3 c0 ∧ mget? (cellOf (uOf cellG (contribP c0 1 1 2 4)) 3).bound 1 = some (.win 1, 0) ∧
      ∀ t ∈ (cellOf (uOf cellG (contribP c0 1 1 2 4)) 3).taken, ¬(t.member = 1 ∧ t.chunk = 1)) ∧
    (Acc (sCell Cell.free) w1 (contribP c0 0 0 2 4) ∧ runs (uOf Cell.free (contribP c0 0 0 2 4)) (contribP c0 0 0 2 4) = true ∧
      (cellOf (uOf Cell.free (contribP c0 0 0 2 4)) 3).st = .free ∧ (instRec (uOf Cell.free (contribP c0 0 0 2 4)) c0).decided = none ∧
      (instRec (uOf Cell.free (contribP c0 0 0 2 4)) c0).harvested = false ∧
      (arm (uOf Cell.free (contribP c0 0 0 2 4)) x0 c0).isSome = true) := by
  refine ⟨⟨acc_of (by decide +kernel), by decide +kernel⟩, ⟨acc_of (by decide +kernel), ?_⟩,
    ⟨acc_of (by decide +kernel), by decide +kernel⟩⟩
  unfold Holds; decide +kernel

/-- Cell 3 in MISMATCH, and the instance as it stands beside it. -/
def cellErr : Cell := { cellG with st := .mismatch }
def sErr (r : InstRec → InstRec) (cl : Cell) : State := setInst (sCell cl) c0 (r (instRec (sCell cl) c0))

theorem test_wit_contributionTaken_states :
    (Acc (sErr (fun r => { r with harvested := true }) Cell.free) w1 (contribP c0 0 0 2 4) ∧
      runs (served (sErr (fun r => { r with harvested := true }) Cell.free) w1 (contribP c0 0 0 2 4)) (contribP c0 0 0 2 4) = true ∧
      (instRec (served (sErr (fun r => { r with harvested := true }) Cell.free) w1 (contribP c0 0 0 2 4)) c0).harvested = true ∧
      (instRec (served (sErr (fun r => { r with harvested := true }) Cell.free) w1 (contribP c0 0 0 2 4)) c0).decided = none ∧
      (cellOf (served (sErr (fun r => { r with harvested := true }) Cell.free) w1 (contribP c0 0 0 2 4)) 3).st = .free) ∧
    (Acc (sCell cellErr) w1 (contribP c0 1 1 2 4) ∧ runs (uOf cellErr (contribP c0 1 1 2 4)) (contribP c0 1 1 2 4) = true ∧
      (cellOf (uOf cellErr (contribP c0 1 1 2 4)) 3).ciid = c0 ∧ isErr (cellOf (uOf cellErr (contribP c0 1 1 2 4)) 3).st = true ∧
      (instRec (uOf cellErr (contribP c0 1 1 2 4)) c0).decided = none) ∧
    (Acc (sErr (fun r => { r with decided := some .mismatch }) cellErr) w1 (contribP c0 1 1 2 4) ∧
      runs (served (sErr (fun r => { r with decided := some .mismatch }) cellErr) w1 (contribP c0 1 1 2 4))
        (contribP c0 1 1 2 4) = true ∧
      (instRec (served (sErr (fun r => { r with decided := some .mismatch }) cellErr) w1 (contribP c0 1 1 2 4)) c0).decided =
        some .mismatch) :=
  ⟨⟨acc_of (by decide +kernel), by decide +kernel⟩, ⟨acc_of (by decide +kernel), by decide +kernel⟩,
    ⟨acc_of (by decide +kernel), by decide +kernel⟩⟩

/-- R64, R146: the first value stands as it is, the next is added. -/
theorem test_addElems :
    (addElems 1 false [] 0 [0x3F800000]).1 = [(0, 0x3F800000)] ∧
    mget? (addElems 1 false [(0, 0x3F800000)] 0 [0x40000000]).1 0 = some 0x40400000 ∧ d0.coll ≠ 4 := by
  decide +kernel

/-- A contribution that names another reduction than its descriptor. -/
def misfit : Packet := sealPacket ⟨{ (contribP c0 0 0 2 4).hdr with redOp := 2 }, (contribP c0 0 0 2 4).payload⟩
def cellB : Cell := { cellG with bound := [(1, (.win 2, 0))] }
def cellX : Cell := { cellG with taken := [⟨1, 0, 0⟩] }

theorem test_wit_contributionMisfits :
    (Acc (sCell cellG) w1 misfit ∧ runs (uOf cellG misfit) misfit = true ∧ fits misfit = true ∧
      Holds (uOf cellG misfit) 3 c0 ∧ fieldCause d0 misfit.hdr ≠ 0) ∧
    (Acc (sCell cellB) w1 (contribP c0 1 1 2 4) ∧ runs (uOf cellB (contribP c0 1 1 2 4)) (contribP c0 1 1 2 4) = true ∧
      Holds (uOf cellB (contribP c0 1 1 2 4)) 3 c0 ∧ mget? (cellOf (uOf cellB (contribP c0 1 1 2 4)) 3).bound 1 = some (.win 2, 0) ∧
      (Origin.win 2, (0 : BitVec 8)) ≠ (.win 1, (contribP c0 1 1 2 4).hdr.stream)) ∧
    (Acc (sCell cellG) w1 (contribP c0 1 0 2 4) ∧ runs (uOf cellG (contribP c0 1 0 2 4)) (contribP c0 1 0 2 4) = true ∧
      fits (contribP c0 1 0 2 4) = true ∧ Holds (uOf cellG (contribP c0 1 0 2 4)) 3 c0 ∧
      (cellOf (uOf cellG (contribP c0 1 0 2 4)) 3).taken.find? (fun t => t.member == 1 && t.chunk == 0) =
        some ⟨1, 0, crc64 (contribP c0 1 0 2 4).payload⟩) ∧
    (Acc (sCell cellX) w1 (contribP c0 1 0 2 4) ∧ Holds (uOf cellX (contribP c0 1 0 2 4)) 3 c0 ∧
      (cellOf (uOf cellX (contribP c0 1 0 2 4)) 3).taken.find? (fun t => t.member == 1 && t.chunk == 0) = some ⟨1, 0, 0⟩ ∧
      0 ≠ crc64 (contribP c0 1 0 2 4).payload) := by
  unfold Holds
  exact ⟨⟨acc_of (by decide +kernel), by decide +kernel⟩, ⟨acc_of (by decide +kernel), by decide +kernel⟩,
    ⟨acc_of (by decide +kernel), by decide +kernel⟩, ⟨acc_of (by decide +kernel), by decide +kernel⟩⟩

/-! ## Witnesses: results and timers -/

/-- Chunk i owed, sent n times in superframe 0. -/
def owed (i n : Nat) : OwedChunk := ⟨i, [1, 2, 3, 4], none, true, n, 0, false, false⟩

/-- Cell 3 COMPLETE, both ranks bound to source 5 and 7, rank 1 with its chunks sent. -/
def cellC : Cell :=
  { Cell.free with
    st := .complete, ciid := c0, digest := 77, bound := [(0, (.fabric 5 7, 0)), (1, (.fabric 5 7, 0))], answered := [1],
    finals := [(0, ⟨false, 1, 66, [(0, ([1, 2, 3, 4, 5, 6, 7, 8], crc64 [1, 2, 3, 4, 5, 6, 7, 8]))]⟩)],
    deliv := [(1, [owed 0 1, owed 1 8])] }

/-- ACK (3) or RESEND (4) of rank 1's chunk 0 on queue 1, or of a pull of tag 9. -/
def ackP (op : BitVec 8) : Packet := pkt { Header.zero with opcode := op, vc := 1, ciid := c0, member := 1, chunkCount := 1 } []
def ackL (op : BitVec 8) : Packet := pkt { Header.zero with opcode := op, vc := 2, aux := 1, reqTag := 9, chunkCount := 1 } []

def pull0 : Pull :=
  { seq := 6, org := .win 2, via := .window 2, hdr := { Header.zero with reqTag := 9 }, vc := .weight, qty := 0, job := 1,
    matrix := 0, epoch := 0, first := 0, total := 1, chunks := [owed 0 1], status := 0, closed := true, completed := false,
    fetchTag := none, peer := none, img := none, nextBlk := 0, outs := [], fail := none }

def sPull : State := { sT with fab := { sT.fab with pulls := [pull0] } }
def sLate (l : List Pull) : State :=
  { sCell cellC with sf := 25, fab := { (sCell cellC).fab with pulls := l, srcs := [src0] } }

theorem test_wit_resultsDelivered :
    (findInst (sCell cellC) (cellOf (sCell cellC) 3).ciid = some x0 ∧ x0.desc.cell = (3 : Fin 16384).val ∧
      (cellOf (sCell cellC) 3).st = .complete ∧ ∃ r ∈ x0.desc.ranks, r ∉ (cellOf (sCell cellC) 3).answered) ∧
    (∀ op : BitVec 8, op = 3 ∨ op = 4 → Acc (sCell cellC) w1 (ackP op) ∧ (ackP op).hdr.opcode = op ∧ (ackP op).hdr.aux = 0 ∧
      attempt (uOf cellC (ackP op)) c0 = .now ∧ findInst (uOf cellC (ackP op)) c0 = some x0 ∧
      ackRefusal x0 (ackP op).hdr 1 = 0 ∧ (instRec (uOf cellC (ackP op)) c0).harvested = false ∧
      (instRec (uOf cellC (ackP op)) c0).decided = none ∧ isErr (cellOf (uOf cellC (ackP op)) 3).st = false) ∧
    (∀ op : BitVec 8, op = 3 ∨ op = 4 → Acc sPull (.window 2) (ackL op) ∧ (ackL op).hdr.aux = 1 ∧
      namedPull (served sPull (.window 2) (ackL op)) (ctxOf sPull (.window 2) (ackL op)) = some pull0 ∧
      (ackL op).hdr.vc.toNat % 4 = vcNum pull0.vc ∧
      (ackL op).hdr.chunkIndex.toNat + (ackL op).hdr.chunkCount.toNat ≤ pull0.first + pull0.total) ∧
    ((mget (cellOf (sLate []) 3).deliv 1 []).find? (fun o => o.idx == 0) = some (owed 0 1) ∧
      (mget (cellOf (sLate []) 3).deliv 1 []).find? (fun o => o.idx == 1) = some (owed 1 8) ∧
      mget? (cellOf (sLate []) 3).bound 1 = some (.fabric 5 7, 0) ∧ resendDue (sLate []) (owed 0 1) (.fabric 5 7) = true ∧
      resendDue (sLate []) (owed 1 8) (.fabric 5 7) = true ∧ findInst (sLate []) c0 = some x0) ∧
    ((sLate [{ pull0 with org := .fabric 5 7 }]).fab.pulls.find? (fun p => p.seq == 6) = some { pull0 with org := .fabric 5 7 } ∧
      pull0.chunks.find? (fun o => o.idx == 0) = some (owed 0 1) ∧ resendDue (sLate []) (owed 0 1) (.fabric 5 7) = true) ∧
    (isErr cellC.st = false ∧ rangeIntact x0 cellC (((owedSpan x0 1).getD (0, 0)).1 + 0 * d0.outChunk) 4 = true) := by
  refine ⟨by decide +kernel, ?_, ?_, by decide +kernel, by decide +kernel, by decide +kernel⟩
  · rintro op (rfl | rfl) <;> exact ⟨acc_of (by decide +kernel), by decide +kernel⟩
  · rintro op (rfl | rfl) <;> exact ⟨acc_of (by decide +kernel), by decide +kernel⟩

/-- A record this gateway sent and keeps: a PARTIAL of shard 0 to gateway 67. -/
def rec0 : Record :=
  sealRec ⟨{ rver := 1, kind := 1, level := 2, flags := 0, srcGw := 66, dstGw := 67, ciid := c0, digest := 77, shard := 0, elemType := 1,
             subject := 0, chunkIndex := 0, chunkCount := 1, payloadLen := 4, rsvd1 := 0, hopGw := 66, rsvd2 := 0,
             valueCheck := BitVec.ofNat 64 (crc64 [1, 2, 3, 4]), check := 0 }, [1, 2, 3, 4]⟩
def kept0 (n : Nat) : Kept := ⟨rec0, none, n, 0, false, false⟩
def cellK : Cell := { cellG with kept := [kept0 1], racks := [rec0] }
def cellH : Cell := { cellC with answered := [0, 1], deliv := [], recheck := true }

theorem test_wit_cellTimers :
    (findInst { sCell cellG with sf := 11 } cellG.ciid = some x0 ∧ cellG.st = .gathering ∧ cellG.stopped = false ∧
      d0.waitLimit = 10 ∧ cellG.armSf + d0.waitLimit + 1 ≤ 11) ∧
    ((cellOf { sCell { cellC with st := .harvested, harvSf := 1 } with sf := 65 } 3).st = .harvested ∧ (1 : Nat) + 64 ≤ 65 ∧
      (64 : Nat) < 1 + 64 ∧ (sCell cellC).plans.opens = [] ∧ (sCell cellC).coll.held = []) ∧
    (findInst (sCell cellH) cellH.ciid = some x0 ∧ cellH.recheck = true ∧ owesNothing (sCell cellH) x0 c0 = true ∧
      retainedIntact (sCell cellH) x0 cellH = true) ∧
    (∃ cl : Cell, cl.recheck = true ∧ owesNothing (sCell cl) x0 c0 = true ∧ retainedIntact (sCell cl) x0 cl = false) ∧
    (findInst (sCell cellK) cellK.ciid = some x0 ∧ cellK.racks ≠ [] ∧ cellK.kept[0]? = some (kept0 1) ∧ isErr cellK.st = false ∧
      (kept0 1).acked = false ∧ (kept0 1).sf + 13 ≤ 13) ∧
    Writable sT .host (.ffe 0) := by
  refine ⟨by decide +kernel, by decide +kernel, by decide +kernel,
    ⟨{ cellH with finals := [(0, ⟨false, 1, 66, [(0, ([1, 2], 0))]⟩)] }, by decide +kernel⟩, by decide +kernel, ?_⟩
  exact writable_of (by decide +kernel)


/-! ## Witnesses: records and messages -/

/-- The instance over gateways 66 and 67 of site 1; with an odd ordinal its owner is 67. -/
def dRec (ord : Nat) : Desc :=
  { d0 with bytes := d0.bytes.take 8 ++ beBytes 8 (2 ^ 48 + 5 * 2 ^ 24 + ord * 256) ++ (d0.bytes.drop 16).take 24 ++ beBytes 2 2 ++
              d0.bytes.drop 42,
            peers := [67] }
def cRec (ord : Nat) : BitVec 64 := mkCiid 1 5 ord 0

/-- A record of a kind and level from gateway 67 to 66. -/
def rcd (ord kind level count : Nat) (subject : BitVec 8) (vchk : Nat) (l : Bytes) : Record :=
  sealRec ⟨{ rver := 1, kind := BitVec.ofNat 8 kind, level := BitVec.ofNat 8 level, flags := 0, srcGw := 67, dstGw := 66,
             ciid := cRec ord, digest := 77, shard := 0, elemType := 1, subject := subject, chunkIndex := 0,
             chunkCount := BitVec.ofNat 32 count, payloadLen := BitVec.ofNat 16 l.length, rsvd1 := 0, hopGw := 67, rsvd2 := 0,
             valueCheck := BitVec.ofNat 64 vchk, check := 0 }, l⟩

def v8 : Bytes := [1, 2, 3, 4, 5, 6, 7, 8]
def cellR (ord : Nat) (l : List RecTaken) : Cell :=
  { Cell.free with st := .gathering, ciid := cRec ord, digest := 77, recs := l }
def sRec (ord : Nat) (l : List RecTaken) : State := sDesc (dRec ord) (cellR ord l)
def site0 : RecVia := .site (dgOf 0 47445 true 64)

/-- The record arrives for the instance in its cell, and fits the descriptor. -/
def RecOk (s : State) (ord : Nat) (r : Record) : Prop :=
  RecordIn s site0 r s (xOf (dRec ord)) ∧ Holds s 3 r.hdr.ciid ∧ (instRec s r.hdr.ciid).harvested = false ∧
  r.hdr.digest = (dRec ord).digest ∧ recShapeBad (xOf (dRec ord)) r = false

theorem test_wit_recordsTaken :
    (RecOk (sRec 2 []) 2 (rcd 2 1 2 1 0 9 v8) ∧ (rcd 2 1 2 1 0 9 v8).hdr.kind = 1 ∧
      crc64 (rcd 2 1 2 1 0 9 v8).payload ≠ (rcd 2 1 2 1 0 9 v8).hdr.valueCheck.toNat) ∧
    (RecOk (sRec 2 []) 2 (rcd 2 1 2 1 0 (crc64 v8) v8) ∧
      crc64 (rcd 2 1 2 1 0 (crc64 v8) v8).payload = (rcd 2 1 2 1 0 (crc64 v8) v8).hdr.valueCheck.toNat ∧
      (cellOf (sRec 2 []) 3).recs.find? (sameChunk (recKey (rcd 2 1 2 1 0 (crc64 v8) v8))) = none) ∧
    (RecOk (sRec 2 [recKey (rcd 2 1 2 1 0 (crc64 v8) v8)]) 2 (rcd 2 1 2 1 0 (crc64 v8) v8) ∧
      (cellOf (sRec 2 [recKey (rcd 2 1 2 1 0 (crc64 v8) v8)]) 3).recs.find? (sameChunk (recKey (rcd 2 1 2 1 0 (crc64 v8) v8))) =
        some (recKey (rcd 2 1 2 1 0 (crc64 v8) v8))) ∧
    (RecOk (sRec 2 [{ recKey (rcd 2 1 2 1 0 (crc64 v8) v8) with vcheck := 5 }]) 2 (rcd 2 1 2 1 0 (crc64 v8) v8) ∧
      (cellOf (sRec 2 [{ recKey (rcd 2 1 2 1 0 (crc64 v8) v8) with vcheck := 5 }]) 3).recs.find?
        (sameChunk (recKey (rcd 2 1 2 1 0 (crc64 v8) v8))) = some { recKey (rcd 2 1 2 1 0 (crc64 v8) v8) with vcheck := 5 } ∧
      5 ≠ (rcd 2 1 2 1 0 (crc64 v8) v8).hdr.valueCheck.toNat) ∧
    (RecOk (sRec 3 []) 3 (rcd 3 2 2 1 0 (crc64 v8) v8) ∧ (rcd 3 2 2 1 0 (crc64 v8) v8).hdr.kind = 2 ∧
      bit (rcd 3 2 2 1 0 (crc64 v8) v8).hdr.flags.toNat 1 = false) ∧
    (RecOk (sRec 3 []) 3 (rcd 3 3 2 0 0 0 []) ∧ (rcd 3 3 2 0 0 0 []).hdr.kind = 3) := by
  simp only [RecOk, RecordIn, Holds, site0]; and_intros <;> decide +kernel

/-- The cell with a PARTIAL kept that it sent to gateway 67 n times. -/
def cellS (n chk : Nat) : Cell :=
  { cellR 3 [] with kept := [⟨sealRec ⟨{ (rcd 3 1 2 1 0 chk v8).hdr with srcGw := 66, dstGw := 67 }, v8⟩, none, n, 0, false, false⟩] }
def sKept (n chk : Nat) : State := sDesc (dRec 3) (cellS n chk)

theorem test_wit_recordAnswers :
    (RecordIn (sKept 1 0) site0 (rcd 3 4 2 1 1 0 []) (sKept 1 0) (xOf (dRec 3)) ∧ Holds (sKept 1 0) 3 (cRec 3) ∧
      (rcd 3 4 2 1 1 0 []).hdr.kind = 4 ∧ ∃ k ∈ (cellS 1 0).kept, namedKept (rcd 3 4 2 1 1 0 []) k = true) ∧
    (RecordIn (sKept 1 0) site0 (rcd 3 5 2 1 1 0 []) (sKept 1 0) (xOf (dRec 3)) ∧ (rcd 3 5 2 1 1 0 []).hdr.kind = 5 ∧
      ∃ k ∈ (cellS 1 0).kept, namedKept (rcd 3 5 2 1 1 0 []) k = true) ∧
    (∃ k ∈ (cellOf (sKept 8 0) 3).kept, k.acked = false ∧ 8 ≤ k.sends ∧ k.silent = false) ∧
    (∃ k ∈ (cellOf (sKept 1 0) 3).kept, k.acked = false ∧ k.sends < 8 ∧ k.rcd.payload ≠ [] ∧
      crc64 k.rcd.payload ≠ k.rcd.hdr.valueCheck.toNat) ∧
    (∃ k ∈ (cellOf (sKept 7 (crc64 v8)) 3).kept, k.acked = false ∧ k.sends < 8 ∧
      crc64 k.rcd.payload = k.rcd.hdr.valueCheck.toNat) := by
  simp only [RecordIn, Holds, site0]; and_intros <;> decide +kernel

/-- The policer of port 0 for records is on and has no tokens. -/
def sPoliced : State := { withReg sT (.tm 0) 0x5C 4 (BitVec.ofNat 32 (2 ^ 31)) with police := [((0, 4), 0)] }
def badCheckR : Record := ⟨{ (rcd 2 1 2 1 0 0 v8).hdr with check := 0 }, v8⟩
def malR : Record := sealRec ⟨{ (rcd 2 1 2 1 0 0 v8).hdr with rsvd1 := 1 }, v8⟩

theorem test_wit_recordsRefused :
    ((dgOf 0 47445 false 64).peer = false ∧ (dg 64).conforms (peerPort sPoliced) = false) ∧
    ((dgOf 0 47445 true 64).conforms (peerPort sPoliced) = true ∧ (dgOf 0 47445 true 64).peer = true ∧ policeIn sPoliced 0 4 (wireSize true false 72) = (sPoliced, false)) ∧
    policeIn (sRec 2 []) 0 4 (wireSize true false 72) = (sRec 2 [], true) ∧
    badCheckR.hdr.check.toNat ≠ recCheck badCheckR ∧
    (malR.hdr.check.toNat = recCheck malR ∧ recMalformed malR = true) ∧
    ((rcd 2 1 2 1 0 0 v8).hdr.check.toNat = recCheck (rcd 2 1 2 1 0 0 v8) ∧ recMalformed (rcd 2 1 2 1 0 0 v8) = false ∧
      attempt { sRec 2 [] with plans := { (sRec 2 []).plans with rolled := [(1, 5, 0)] } } (rcd 2 1 2 1 0 0 v8).hdr.ciid = .stale) ∧
    (attempt (sRec 2 []) (rcd 9 1 2 1 0 0 v8).hdr.ciid ≠ .stale ∧ recMalformed (rcd 9 1 2 1 0 0 v8) = false ∧
      findInst (sRec 2 []) (rcd 9 1 2 1 0 0 v8).hdr.ciid = none) ∧
    (attempt (sRec 2 []) (rcd 2 1 3 1 0 0 v8).hdr.ciid = .now ∧ recMalformed (rcd 2 1 3 1 0 0 v8) = false ∧
      findInst (sRec 2 []) (rcd 2 1 3 1 0 0 v8).hdr.ciid = some (xOf (dRec 2)) ∧
      recRouted (xOf (dRec 2)) (gw (sRec 2 [])) (rcd 2 1 3 1 0 0 v8) = false) := by
  decide +kernel

/-- A control message of gateway 67, sealed. -/
def ctlM (t st : BitVec 8) (c : BitVec 64) : Ctl :=
  let m : Ctl := { cver := 2, ctype := t, state := st, rsvd1 := 0, srcGw := 67, rsvd2 := 0, ciid := c, epoch := 0, rsvd3 := 0,
                   sf := 0, digest := 0, rsvd4 := 0, check := 0 }
  { m with check := BitVec.ofNat 32 (crc32c (ctlBody m)) }

/-- Gateway 66 as a master with quorum, and its decision windows. -/
def sMaster (w : PMap (BitVec 64) Window) : State :=
  let s := sCell cellG
  { s with sf := 10, lt := { s.lt with st := .master, d := 3 }, rseq := { s.rseq with live := [(66, (10, 0))] },
           coll := { s.coll with windows := w } }

/-- The state a control message for the master is acted on, and one of the master. -/
def upAt (s : State) (via : RecVia) (m : Ctl) : State := (takeMsg s via (.ctl m)).1
def downAt (s : State) (via : RecVia) (m : Ctl) : State :=
  let r := takeMsg s via (.ctl m)
  let v := { r.1 with rseq := { r.1.rseq with ctls := m :: r.1.rseq.ctls } }
  if via = .own then v else flood v (.ctl m) via

def win0 : Window := ⟨0, 3, [.timeout], none, 0⟩

theorem test_wit_failureDecisions :
    ((ctlM 1 6 c0).ctype = 1 ∧ CtlUp (sMaster []) site0 (ctlM 1 6 c0) (upAt (sMaster []) site0 (ctlM 1 6 c0)) ∧
      mget? (upAt (sMaster []) site0 (ctlM 1 6 c0)).coll.windows c0 = none) ∧
    (CtlUp (sMaster [(c0, win0)]) site0 (ctlM 1 6 c0) (upAt (sMaster [(c0, win0)]) site0 (ctlM 1 6 c0)) ∧
      mget? (upAt (sMaster [(c0, win0)]) site0 (ctlM 1 6 c0)).coll.windows c0 = some win0) ∧
    (mget? (sMaster [(c0, win0)]).coll.windows c0 = some win0 ∧ win0.decided = none ∧ quorum (sMaster [(c0, win0)]) = true ∧
      win0.opened + 2 * win0.d + 4 ≤ (sMaster []).sf ∧ (sMaster []).sf < 1 + 2 * win0.d + 4) ∧
    ((ctlM 2 6 c0).ctype = 2 ∧ CtlDown (sCell cellG) site0 (ctlM 2 6 c0) (downAt (sCell cellG) site0 (ctlM 2 6 c0)) ∧
      attempt (downAt (sCell cellG) site0 (ctlM 2 6 c0)) c0 ≠ .stale ∧
      ciidReplay c0 = replayOf (downAt (sCell cellG) site0 (ctlM 2 6 c0)) (ciidJob c0) (ciidStep c0) ∧
      findInst (downAt (sCell cellG) site0 (ctlM 2 6 c0)) c0 = some x0 ∧
      (instRec (downAt (sCell cellG) site0 (ctlM 2 6 c0)) c0).decided = none ∧
      (cellOf (downAt (sCell cellG) site0 (ctlM 2 6 c0)) 3).st ≠ .free ∧
      (cellOf (downAt (sCell cellG) site0 (ctlM 2 6 c0)) 3).ciid = c0) ∧
    (instRec { sCell cellG with coll := { (sCell cellG).coll with insts := [(c0, { InstRec.none with decided := some .timeout })] } }
      c0).decided.isSome = true := by
  unfold CtlUp CtlDown; decide +kernel

def xk0 (r : Option (Fin 64)) : Xchk := ⟨4, 3, c0, 1, 0, 0, 5, 6, r, .copy v8, 0, 2, ⟨false, 0, 0, 0, 66, 0, 1, none⟩, v8, []⟩
def sXchk (l : List Xchk) (s : State) : State := { s with coll := { s.coll with xchks := l } }
/-- Every tile of quadrant 0 is quarantined. -/
def sNoRef : State := (List.finRange 16).foldl
  (fun s i => setPage s (.tile ⟨i.val, by omega⟩) { Page.reset with quarantined := true }) (sCell cellG)

theorem test_wit_crossChecks :
    ((sXchk [xk0 none] (sCell cellG)).coll.xchks.find? (fun k => k.id == 4 && k.referee.isNone) = some (xk0 none) ∧
      refereeOf (sXchk [xk0 none] (sCell cellG)) (xk0 none) = some 0 ∧ (xk0 none).tile ≠ (xk0 none).shadow ∧
      Holds (sXchk [xk0 none] (sCell cellG)) 3 c0) ∧
    (flipBytes (xk0 none).again.1 [] = (xk0 none).bits ∧ flipBytes (xk0 none).again.1 [(0, 1)] ≠ (xk0 none).bits) ∧
    refereeOf (sXchk [xk0 none] sNoRef) (xk0 none) = none ∧
    (sXchk [xk0 (some 0)] (sCell cellG)).coll.xchks.find? (fun k => k.id == 4) = some (xk0 (some 0)) ∧
    (flipBytes (xk0 (some 0)).again.1 [] ≠ (xk0 (some 0)).sh ∧ (xk0 (some 0)).referee = some 0) := by
  unfold Holds; decide +kernel


/-! ## Witnesses: plan words -/

/-- A plan word: its operation, extension words, and the other bits of its first word. -/
def word (op ext low : Nat) : BitVec 64 := BitVec.ofNat 64 (op * 2 ^ 58 + ext * 2 ^ 56 + low)

/-- Tile 0 of gateway 66 runs step 5, whose stream for it is the words given; `f` changes the tile. -/
def sWord (ws : List (BitVec 64)) (f : Tile → Tile) : State :=
  let s := sCell cellG
  let x : Tile := { Tile.reset with seq := .issue, slot := 0, active := true, step := 5 }
  let pl : Plan := { (xOf d0).plan with steps := [⟨5, [d0], 0, 0, [ws]⟩] }
  { s with plans := { s.plans with slot0 := { s.plans.slot0 with plan := some pl }, tiles := [(0, f x)] } }

/-- The plan of `sWord` and its step. -/
def planW (ws : List (BitVec 64)) : Plan := { (xOf d0).plan with steps := [⟨5, [d0], 0, 0, [ws]⟩] }
def stepW (ws : List (BitVec 64)) : PlanStep := ⟨5, [d0], 0, 0, [ws]⟩
def nums (ws : List (BitVec 64)) : List Nat := ws.map (·.toNat)

/-- The stream's word is the next of tile 0, of its operation. -/
def AtWord (ws : List (BitVec 64)) (f : Tile → Tile) (op : Nat) : Prop :=
  Reaches (sWord ws f) 0 op (planW ws) (stepW ws) (nums ws)

/-- A DMA word of 64 bytes in flight. -/
def fl0 : InFlight := ⟨.dma, 0x40000, 64, false⟩
def busyTile (x : Tile) : Tile := { x with flight := [fl0] }

def wSync := [word 2 0 0]
def wLt (t : Nat) := [word 3 0 t]
def wCell (cond : Nat) := [word 4 0 (3 + cond * 2 ^ 14)]
def wSig := [word 5 0 (1 + 3 * 2 ^ 6)]
def wEvt (v : Nat) := [word 6 0 (2 + v * 2 ^ 5)]
def wEnd := [word 1 0 0]

/-- Two tiles in the same attempt. -/
def sTwo : State :=
  let s := sWord wSig id
  { s with plans := { s.plans with tiles := s.plans.tiles ++ [(1, { Tile.reset with seq := .issue, active := true, step := 5 })] } }

theorem test_wit_sequencerWords :
    (AtWord wSync id 2 ∧ drained (sWord wSync id) 0 = true) ∧
    (AtWord wSync busyTile 2 ∧ drained (sWord wSync busyTile) 0 = false) ∧
    (AtWord (wLt 0) id 3 ∧ instant (sWord (wLt 0) id) 0 (wF (nums (wLt 0)) 0 48 0) = (sWord (wLt 0) id).sf * 8000 + (0 : Fin 8000).val ∧
      instant (sWord (wLt 0) id) 0 (wF (nums (wLt 0)) 0 48 0) < (sWord (wLt 0) id).sf * 8000 + (1 : Fin 8000).val ∧
      (tileOf (sWord (wLt 0) id) 0).seq ≠ .waitLt) ∧
    (tileOf (sWord (wLt 0) (fun x => { x with seq := .waitLt })) 0).seq = .waitLt ∧
    (AtWord (wLt 1) id 3 ∧ (sWord (wLt 1) id).sf * 8000 + (7999 : Fin 8000).val <
      instant (sWord (wLt 1) id) 0 (wF (nums (wLt 1)) 0 48 0)) ∧
    (AtWord (wCell 2) id 4 ∧ namedInst (sWord (wCell 2) id) 0 (planW (wCell 2)) (fun d => d.cell == wF (nums (wCell 2)) 0 13 0) =
        some (d0, c0) ∧ instFailed (sWord (wCell 2) id) d0 c0 = false ∧
      condReached (sWord (wCell 2) id) d0 c0 (wF (nums (wCell 2)) 0 17 14) = false) ∧
    (instFailed { sWord (wCell 2) id with coll := (sCell { cellG with st := .timeout }).coll } d0 c0 = true ∧
      condReached { sWord (wCell 2) id with coll := (sCell cellC).coll } d0 c0 2 = true) ∧
    (Reaches sTwo 0 5 (planW wSig) (stepW wSig) (nums wSig) ∧ drained sTwo 0 = true ∧
      replayOf sTwo 1 (tileOf sTwo 0).step ≤ (tileOf sTwo 0).replay ∧ tileIx (wF (nums wSig) 0 5 0) = 1 ∧
      (tileOf sTwo 1).active = true ∧ (tileOf sTwo 1).step = (tileOf sTwo 0).step ∧ (tileOf sTwo 1).seq ≠ .boundary) ∧
    (AtWord (wEvt 1) (fun x => { x with evt := [(2, 1)] }) 6 ∧
      wF (nums (wEvt 1)) 0 20 5 ≤ mget (tileOf (sWord (wEvt 1) (fun x => { x with evt := [(2, 1)] })) 0).evt 2 0) ∧
    (AtWord (wEvt 1) id 6 ∧ mget (tileOf (sWord (wEvt 1) id) 0).evt 2 0 < wF (nums (wEvt 1)) 0 20 5) ∧
    (AtWord wEnd id 1 ∧ drained (sWord wEnd id) 0 = true ∧ (stepW wEnd).step = (planW wEnd).last) ∧
    hasNext (sWord wEnd id) 0 (planW wEnd) (stepW wEnd) = false ∧
    (tileOf (sWord wEnd (fun x => { x with bufFull := true })) 0).bufFull = true := by
  unfold AtWord Reaches; and_intros <;> decide +kernel

/-- DMA of 64 bytes, LAUNCH on line launcher 0, MMA of 1 × 1 × 32, RAMP. -/
def wDma := [word 8 1 0x40000, BitVec.ofNat 64 (0x40040 + 2 ^ 40)]
def wLaunch := [word 9 1 (3 + 2 * 2 ^ 20), BitVec.ofNat 64 (9 * 1)]
def wMma := [word 0xA 3 (0x40000 + 0x10 * 2 ^ 40 + 0x10 * 2 ^ 48), BitVec.ofNat 64 0x40040, BitVec.ofNat 64 0x40080, BitVec.ofNat 64 (31 * 2 ^ 32)]
def wRamp := [word 7 0 (100 + 500 * 2 ^ 8 + 2 * 2 ^ 18)]
def eight (e : Engine) (x : Tile) : Tile := { x with flight := List.replicate 8 ⟨e, 0, 64, false⟩ }

/-- The launchers of quadrant 0 take work. -/
def sLaunchers : State := setPage (sWord wLaunch id) (.launch 0) { Page.reset with enable := true }

theorem test_wit_engineWords :
    (AtWord wRamp id 7 ∧ engineRoom (sWord wRamp id) 0 .power = true) ∧
    (AtWord wDma id 8 ∧ EngineFree (sWord wDma id) 0 .dma (nums wDma)) ∧
    (Reaches sLaunchers 0 9 (planW wLaunch) (stepW wLaunch) (nums wLaunch) ∧ engineRoom sLaunchers 0 .launch = true ∧
      takesWork sLaunchers (.launch (quadOf 0)) = true ∧ (sLaunchers.plans.launches.filter (fun l => l.quad == quadOf 0 && l.line == !bit ((nums wLaunch).getD 0 0) 22 &&
        l.index == wF (nums wLaunch) 0 26 23)).length < 64) ∧
    (AtWord wMma id 0xA ∧ EngineFree (sWord wMma id) 0 .tensor (nums wMma)) ∧
    (AtWord wDma (eight .dma) 8 ∧ engineRoom (sWord wDma (eight .dma)) 0 .dma = false) ∧
    (AtWord wMma (eight .tensor) 0xA ∧ engineRoom (sWord wMma (eight .tensor)) 0 .tensor = false) := by
  unfold AtWord Reaches EngineFree; and_intros <;> decide +kernel

/-- R202: DMA copies 64 bytes. -/
theorem test_dma_copies :
    Answers (.dma 0) { sWord wDma id with mem := [(0x40000, 7), (0x4003F, 9)] } (fun t =>
      memRead t.mem 0x40040 = 7 ∧ memRead t.mem 0x4007F = 9 ∧ memRead t.mem 0x40080 = 0 ∧ (tileOf t 0).pc = 2) :=
  ⟨_, rfl, by decide +kernel⟩

/-- A CRYS word of a function over one group of 32 FP32 elements. -/
def wCrys (fn : Nat) := [word 0xB 2 (fn * 2 ^ 52 + 1 * 2 ^ 44 + 1 * 2 ^ 36), BitVec.ofNat 64 (0x40000 + 2 ^ 40), BitVec.ofNat 64 0x40080]

theorem test_wit_crystalliserWords : ∀ fn ∈ [1, 2, 3, 4, 5, 6, 7],
    AtWord (wCrys fn) id 0xB ∧ EngineFree (sWord (wCrys fn) id) 0 .crys (nums (wCrys fn)) ∧ wF (nums (wCrys fn)) 0 55 52 = fn := by
  unfold AtWord Reaches EngineFree; decide +kernel

/-- R210: ADD adds the source to the destination, 1 + 2 = 3. -/
theorem test_crysAdd :
    Answers (.crysAdd 0) { sWord (wCrys 1) id with mem := memPut (memPut [] 0x40000 [0, 0, 0x80, 0x3F]) 0x40080 [0, 0, 0, 0x40] }
      (fun t => memBytes t.mem 0x40080 4 = [0, 0, 0x40, 0x40]) :=
  ⟨_, rfl, by decide +kernel⟩

/-- A KERNEL word of a kind over 16 × 16, rank 16. -/
def wKern (kd : Nat) := [word 0xC 3 (0x40000 + kd * 2 ^ 52), BitVec.ofNat 64 0x50000, BitVec.ofNat 64 0x60000,
  BitVec.ofNat 64 (15 + 15 * 2 ^ 16 + 1 * 2 ^ 32 + 1 * 2 ^ 42)]

theorem test_wit_kernelWords : ∀ kd ∈ [1, 2, 3, 4],
    (AtWord (wKern kd) id 0xC ∧ drained (sWord (wKern kd) id) 0 = true ∧
      EngineFree (sWord (wKern kd) id) 0 .kernel (nums (wKern kd)) ∧ wF (nums (wKern kd)) 0 55 52 = kd) ∧
    (AtWord (wKern kd) busyTile 0xC ∧ drained (sWord (wKern kd) busyTile) 0 = false) := by
  unfold AtWord Reaches EngineFree; decide +kernel

/-! ## Witnesses: steps, power and plans -/

def todo0 (x : Tile) : Tile := { x with seq := .idle, active := false, todo := some (0, 5) }
/-- Tile 0 enabled, to begin step 5. -/
def sBegin : State := setPage (sWord wSync todo0) (.tile 0) { Page.reset with enable := true }
/-- Tile 0 runs step 5 of a plan of two steps. -/
def planN : Plan := { planW wSync with count := 2, steps := [stepW wSync, { stepW wSync with step := 6 }] }
def sNext : State :=
  let s := sWord wSync id
  { s with plans := { s.plans with slot0 := { s.plans.slot0 with plan := some planN } } }
def open5 : OpenRec := ⟨0, 1, 5, 0, 0, 0, [0]⟩
def sEnded : State :=
  let s := sCell { cellC with st := .harvested }
  { s with plans := { s.plans with opens := [open5] }, coll := { s.coll with insts := [(c0, { InstRec.none with harvested := true })] } }
def ramp0 : Ramp := ⟨3, 100, 1, 5⟩
def sCap : State := { sT with sf := 125000, power := { sT.power with module := 28001, throttle := 25, overSf := some 0 } }

theorem test_wit_stepsAndPower :
    ((tileOf (sWord wSync busyTile) 0).flight[0]? = some fl0 ∧ fl0.behind = false) ∧
    ((tileOf sBegin 0).todo = some (0, 5) ∧ mayBegin sBegin 0 = true ∧ slotRuns sBegin 0 = true ∧
      (slotOf sBegin 0).stopping = false ∧ slotPlan sBegin 0 = some (planW wSync) ∧
      (planW wSync).stepOf 5 = some (stepW wSync) ∧ outerWaits sBegin (planW wSync) (stepW wSync) = false ∧ (stepW wSync).streams.getD (0 : Fin 64).val [] ≠ []) ∧
    (mayBegin sT 0 = false ∧ (tileOf sT 0).seq ≠ .boundary) ∧ 
    (tileStep sNext 0 = some (planN, stepW wSync) ∧ issuing sNext 0 = true ∧ hasNext sNext 0 planN (stepW wSync) = true) ∧
    (sEnded.plans.opens.find? (fun o => o.step == (5 : BitVec 24).toNat && recordEnded sEnded o) = some open5 ∧
      slotPlan sEnded open5.slot = some (xOf d0).plan) ∧
    (({ sT with sf := 3, power := { sT.power with queued := [ramp0] } } : State).power.queued.find? (fun r => r.start ≤ 3) =
        some ramp0 ∧ sT.power.queued.find? (fun r => r.start ≤ sT.sf) = none) ∧
    (10 * sCap.i3c.cap < sCap.power.module ∧ sCap.power.ceil = 0 ∧ sCap.power.throttle ≤ 25 ∧ 0 + 125000 ≤ sCap.sf) ∧
    ({ sCap with sf := 124999 } : State).sf < 0 + 125000 ∧ Writable sT .host (.tile 0) := by
  unfold Writable; and_intros <;> decide +kernel

/-- A plan image of job 1 for gateway 66: step 5 without descriptors or words. -/
def image (crc : Nat) : Bytes :=
  beBytes 4 0x4759504C ++ beBytes 2 1 ++ beBytes 2 1 ++ beBytes 2 66 ++ beBytes 2 0 ++ beBytes 4 5 ++ beBytes 4 1 ++
  beBytes 4 0 ++ beBytes 8 1 ++ beBytes 8 0 ++ beBytes 8 0 ++ beBytes 4 128 ++ beBytes 4 32 ++ beBytes 4 160 ++ beBytes 4 512 ++
  beBytes 8 0 ++ beBytes 8 0 ++ beBytes 4 672 ++ beBytes 4 crc ++ List.replicate 40 0 ++
  (beBytes 4 5 ++ List.replicate 28 0) ++ List.replicate 512 0
def image0 : Bytes := image (crc32c (image 0))

/-- The 16-byte parameter block of a slot and a mode. -/
def blk16 (i m : Byte) : Bytes := [i, m] ++ List.replicate 14 0

/-- Gateway 66, locked to line time, with two plan slots. -/
def sSlots (a b : Slot) : State :=
  let s := sCell Cell.free
  { s with lt := { s.lt with st := .locked }, plans := { s.plans with slot0 := a, slot1 := b } }
def slotP (st : SlotSt) (p : Plan) : Slot := { Slot.empty with st := st, plan := some p }
def plan4 : Plan := { (xOf d0).plan with first := 4, steps := [{ (xOf d0).step with step := 4 }] }

def uP (a b : Slot) (fn : BitVec 32) (l : Bytes) : State := served (sSlots a b) (.window 0) (mg fn l)

/-- What a load of one chunk leaves for the check of its image. -/
def loadEnd (l : Bytes) : State :=
  let u := uP Slot.empty Slot.empty 0x100 l
  match growLoad u (reqOf u (.win 0)) { LoadBuf.none with count := 1 } 0 l with
  | some (v, b) => endLoad (setSlot (setLoads v (mset v.plans.loads (.win 0) b)) 0 { slotOf v 0 with st := .loading, prior := .empty })
      (.win 0) b
  | none => u

theorem test_wit_planLoad :
    (Acc (sSlots Slot.empty Slot.empty) (.window 0) (mg 0x100 (blk16 0 0 ++ image0)) ∧
      isMg 0x100 (mg 0x100 (blk16 0 0 ++ image0)) = true ∧
      loadable (uP Slot.empty Slot.empty 0x100 (blk16 0 0 ++ image0)) Slot.empty = true ∧
      (growLoad (uP Slot.empty Slot.empty 0x100 (blk16 0 0 ++ image0)) 0 { LoadBuf.none with count := 1 } 0
        (blk16 0 0 ++ image0)).isSome = true ∧
      (checkPlan (loadEnd (blk16 0 0 ++ image0)) 0 0 image0).isRight = true) ∧
    (Acc (sSlots Slot.empty Slot.empty) (.window 0) (mg 0x100 (blk16 0 0)) ∧
      (checkPlan (loadEnd (blk16 0 0)) 0 0 []).isLeft = true) :=
  ⟨⟨acc_of (by decide +kernel), by decide +kernel⟩, ⟨acc_of (by decide +kernel), by decide +kernel⟩⟩

theorem test_wit_planFunctions :
    (Acc (sSlots (slotP .loaded (xOf d0).plan) Slot.empty) (.window 0) (mg 0x101 (blk16 0 0)) ∧
      isMg 0x101 (mg 0x101 (blk16 0 0)) = true ∧
      joined (uP (slotP .loaded (xOf d0).plan) Slot.empty 0x101 (blk16 0 0)) = true) ∧
    (Acc (sSlots (slotP .loaded (xOf d0).plan) (slotP .active plan4)) (.window 0) (mg 0x101 (blk16 0 0)) ∧
      plan4.job = (xOf d0).plan.job ∧ (xOf d0).plan.first = nextStep plan4.last ∧ (slotP .active plan4).lastEnded = []) ∧
    (Acc (sSlots (slotP .loaded (xOf d0).plan) (slotP .held (xOf d0).plan)) (.window 0) (mg 0x101 (blk16 0 1)) ∧
      replaceBad (xOf d0).plan (xOf d0).plan ((oldestStep (uP (slotP .loaded (xOf d0).plan) (slotP .held (xOf d0).plan) 0x101
        (blk16 0 1)) (xOf d0).plan).getD 5) = none) ∧
    (Acc (sSlots (slotP .active (xOf d0).plan) Slot.empty) (.window 0) (mg 0x102 (blk16 0 0)) ∧
      Acc (sSlots (slotP .next (xOf d0).plan) Slot.empty) (.window 0) (mg 0x102 (blk16 0 0)) ∧
      (slotP .next (xOf d0).plan).begun = []) ∧
    (Acc (sSlots (slotP .loaded (xOf d0).plan) Slot.empty) (.window 0) (mg 0x103 (blk16 0 0)) ∧
      uncommitted (uP (slotP .loaded (xOf d0).plan) Slot.empty 0x103 (blk16 0 0)) (slotP .loaded (xOf d0).plan) = false) ∧
    Acc (sSlots (slotP .active (xOf d0).plan) Slot.empty) (.window 0) (mg 0x103 (blk16 0 0)) ∧
    Acc (sSlots Slot.empty Slot.empty) (.window 0) (mg 0x104 []) ∧
    (Acc (sSlots Slot.empty Slot.empty) (.window 0) (mg 0x105 (blk16 63 0)) ∧
      (uP Slot.empty Slot.empty 0x105 (blk16 63 0)).mode = some .test ∧ byteAt (mg 0x105 (blk16 63 0)).payload 0 = 63) ∧
    Acc { sSlots Slot.empty Slot.empty with mode := some .service } (.window 0) (mg 0x105 (blk16 63 0)) := by
  and_intros <;> first | decide +kernel | exact acc_of (by decide +kernel)


/-! ## Witnesses: the outer step -/

/-- Matrix 4, homed here (66) with partner 131, and matrix 5, the other way round; 2 × 4 elements in FP32. -/
def mat (n home part : Nat) : Matrix :=
  { matrix := n, rows := 2, cols := 4, home := home, partner := part, rule := 2, wType := 1, dType := 1, delivType := 1, mu := 0,
    keep := 0, stepw := 0, hW0 := 2 ^ 39, hW1 := 2 ^ 39 + 65536, hM := 2 ^ 39 + 2 * 65536, hD := 2 ^ 39 + 3 * 65536,
    pW0 := 2 ^ 39 + 4 * 65536, pW1 := 2 ^ 39 + 5 * 65536, pM := 2 ^ 39 + 6 * 65536, pD := 2 ^ 39 + 7 * 65536 }
def tab0 : JobTab := ⟨9, false, [mat 4 66 131, mat 5 131 66], 0, []⟩

/-- Job 1 at epoch 3, whose epoch 2 is readable. -/
def job0 : Job := { Job.none with tab := some tab0, epoch := 3, prev := true, written := [(1, 4, 3)] }
def sJob (j : Job) (img : List Image) : State :=
  { sT with fab := { sT.fab with net := { sT.fab.net with number := some (1, 2) } }, outer := [(1, j)],
            tdec := { sT.tdec with images := img } }
def img0 : Image := ⟨0, 1, 4, 3, 1, [[1, 2, 3]], false⟩

/-- A state request of job 1 about a matrix and an epoch. -/
def stP (op vc : BitVec 8) (qty ty m e i n : Nat) (l : Bytes) : Packet :=
  pkt { Header.zero with opcode := op, vc := vc, ciid := mkCiid 1 0 0 0, aux := BitVec.ofNat 8 qty, elemType := BitVec.ofNat 8 ty,
                         arg1 := BitVec.ofNat 64 m, arg0 := BitVec.ofNat 32 e, chunkIndex := BitVec.ofNat 32 i,
                         chunkCount := BitVec.ofNat 32 n } l
def epochP : Packet := pkt { Header.zero with opcode := 5, vc := 3, ciid := mkCiid 1 0 0 0 } []
def w0 : Via := .window 0
def w2 : Via := .window 2
def uJ (img : List Image) (via : Via) (p : Packet) : State := served (sJob job0 img) via p

/-- The matrix named and the job's state, as a request finds them. -/
def finds (img : List Image) (via : Via) (p : Packet) (m : Matrix) : Bool :=
  matrixOf (uJ img via p) (ciidJob p.hdr.ciid) p.hdr.arg1.toNat == some m &&
  !(jobOf (uJ img via p) (ciidJob p.hdr.ciid)).lost && serverOf (uJ img via p) m == m.home && gw (uJ img via p) == 66

theorem test_wit_stateReads :
    (Acc (sJob job0 []) w0 epochP ∧ epochP.hdr.opcode = 5 ∧ (jobOf (uJ [] w0 epochP) (ciidJob epochP.hdr.ciid)).lost = false) ∧
    (Acc (sJob job0 []) w2 (stP 6 2 0 1 4 4 0 1 []) ∧ finds [] w2 (stP 6 2 0 1 4 4 0 1 []) (mat 4 66 131) = true ∧
      0 + 1 ≤ matChunks (mat 4 66 131) 1 ∧ job0.epoch < 4) ∧
    (Acc (sJob job0 []) w2 (stP 6 2 0 1 4 1 0 1 []) ∧ finds [] w2 (stP 6 2 0 1 4 1 0 1 []) (mat 4 66 131) = true ∧
      1 < job0.epoch ∧ ¬(1 + 1 = job0.epoch ∧ job0.prev = true)) ∧
    (Acc (sJob job0 []) w2 (stP 6 2 0 1 4 2 0 1 []) ∧ finds [] w2 (stP 6 2 0 1 4 2 0 1 []) (mat 4 66 131) = true ∧
      2 + 1 = job0.epoch ∧ imageFor (uJ [] w2 (stP 6 2 0 1 4 2 0 1 [])) 1 4 2 = none) ∧
    (Acc (sJob job0 [img0]) w2 (stP 6 2 0 1 4 3 0 1 []) ∧ imageFor (uJ [img0] w2 (stP 6 2 0 1 4 3 0 1 [])) 1 4 3 = some img0) ∧
    (Acc (sJob job0 []) w2 (stP 6 2 0 1 5 3 0 1 []) ∧ finds [] w2 (stP 6 2 0 1 5 3 0 1 []) (mat 5 131 66) = true ∧
      serverOf (uJ [] w2 (stP 6 2 0 1 5 3 0 1 [])) (mat 5 131 66) ≠ 66) ∧
    (Acc (sJob job0 []) w0 (stP 9 3 1 1 4 3 0 1 []) ∧ finds [] w0 (stP 9 3 1 1 4 3 0 1 []) (mat 4 66 131) = true ∧
      0 + 1 ≤ recChunks 1 (2 * 4)) ∧
    (Acc (sJob job0 []) w0 (stP 9 3 2 1 4 3 0 1 []) ∧ finds [] w0 (stP 9 3 2 1 4 3 0 1 []) (mat 4 66 131) = true ∧
      job0.outer = none ∧ (mat 4 66 131).rule ≠ 1) ∧
    (Acc (sJob job0 [img0]) w0 (stP 9 3 4 1 4 3 0 1 []) ∧ imageFor (uJ [img0] w0 (stP 9 3 4 1 4 3 0 1 [])) 1 4 3 = some img0 ∧
      0 + 1 ≤ cdiv (img0.blocks.flatMap id).length 8192) ∧
    (pull0.chunks ≠ [] ∧ ({ pull0 with completed := false } : Pull).peer = none ∧ (pull0.chunks.map (·.idx)).Nodup ∧
      (∀ o ∈ pull0.chunks, o.acked = false) ∧ ∀ y ∈ sT.fab.pulls, y.seq ≠ pull0.seq) := by
  and_intros <;> first | decide +kernel | exact acc_of (by decide +kernel)

/-- A table of one matrix: number 4, 2 × 4 elements, homed at a gateway with a partner. -/
def tableOf (home part : Nat) : Bytes :=
  beBytes 2 1 ++ beBytes 2 1 ++ beBytes 4 1 ++ List.replicate 24 0 ++ beBytes 4 4 ++ beBytes 4 2 ++ beBytes 4 4 ++ beBytes 2 home ++
  beBytes 2 part ++ [2, 1, 1, 1] ++ List.replicate 20 0 ++
  (List.range 8).flatMap (fun i => beBytes 8 (2 ^ 39 + i * 65536)) ++ List.replicate 24 0
def table0 : Bytes := tableOf 66 131
def tableFar : Bytes := tableOf 130 200

def uW (p : Packet) : State := served (sJob { job0 with tab := none } []) w0 p

theorem test_wit_stateWrites_tablePart :
    Acc (sJob { job0 with tab := none } []) w0 (stP 8 3 0 0 0 0 0 2 [1]) ∧
      (addLoad (uW (stP 8 3 0 0 0 0 0 2 [1])) 1 (0, 0, 0) 2 0 [1]).full = false :=
  ⟨acc_of (by decide +kernel), by decide +kernel⟩

theorem test_wit_stateWrites_tableBad :
    Acc (sJob { job0 with tab := none } []) w0 (stP 8 3 0 0 0 0 0 1 [1]) ∧
      (addLoad (uW (stP 8 3 0 0 0 0 0 1 [1])) 1 (0, 0, 0) 1 0 [1]).full = true ∧
      tableBad (dropJobLoad (uW (stP 8 3 0 0 0 0 0 1 [1])) 1 (0, 0, 0)) 1 [1] = true :=
  ⟨acc_of (by decide +kernel), by decide +kernel, by decide +kernel⟩

theorem test_wit_stateWrites_table :
    Acc (sJob { job0 with tab := none } []) w0 (stP 8 3 0 0 0 0 0 1 table0) ∧
      tableBad (dropJobLoad (uW (stP 8 3 0 0 0 0 0 1 table0)) 1 (0, 0, 0)) 1 table0 = false ∧
      planRuns (uW (stP 8 3 0 0 0 0 0 1 table0)) 1 = false :=
  ⟨acc_of (by decide +kernel), by decide +kernel, by decide +kernel⟩

/-- A table whose matrices lie at other gateways reserves nothing here. -/
theorem test_wit_stateWrites_areas :
    Acc (sJob { job0 with tab := none } []) w0 (stP 8 3 0 0 0 0 0 1 tableFar) ∧
      tableBad (dropJobLoad (uW (stP 8 3 0 0 0 0 0 1 tableFar)) 1 (0, 0, 0)) 1 tableFar = false ∧
      (reserveAreas (dropJobLoad (uW (stP 8 3 0 0 0 0 0 1 tableFar)) 1 (0, 0, 0)) 0
        (((tableEntries tableFar).map parseMatrix).flatMap areasOf)).isSome = true :=
  ⟨acc_of (by decide +kernel), by decide +kernel, by decide +kernel⟩

theorem test_wit_stateWrites_weights (q : Nat) (h : q = 1 ∨ q = 2) :
    Acc (sJob job0 []) w0 (stP 8 3 q 1 4 3 0 1 (List.replicate 32 7)) ∧
      finds [] w0 (stP 8 3 q 1 4 3 0 1 (List.replicate 32 7)) (mat 4 66 131) = true ∧
      planRuns (uJ [] w0 (stP 8 3 q 1 4 3 0 1 (List.replicate 32 7))) 1 = false ∧ 1 = recChunks 1 (2 * 4) ∧
      (List.replicate 32 (7 : Byte)).length = chunkLen 1 (2 * 4) 0 := by
  obtain rfl | rfl := h <;> exact ⟨acc_of (by decide +kernel), by decide +kernel⟩

theorem test_wit_stateWrites_blocksPart :
    Acc (sJob job0 []) w0 (stP 8 3 4 1 4 3 1 2 [1]) ∧ finds [] w0 (stP 8 3 4 1 4 3 1 2 [1]) (mat 4 66 131) = true ∧
      (1, 4, 3) ∈ job0.written ∧ (addLoad (uJ [] w0 (stP 8 3 4 1 4 3 1 2 [1])) 1 (4, 4, 3) 2 1 [1]).full = false :=
  ⟨acc_of (by decide +kernel), by decide +kernel⟩

theorem test_wit_stateWrites_blocksBad :
    (Acc (sJob job0 []) w0 (stP 8 3 4 1 4 3 0 1 [1]) ∧
      (addLoad (uJ [] w0 (stP 8 3 4 1 4 3 0 1 [1])) 1 (4, 4, 3) 1 0 [1]).full = true ∧
      (cutBlocks 2 [1]).1 = [] ∧ seqBad 1 32 (cutBlocks 2 [1]).1 (cutBlocks 2 [1]).2 = some [1]) ∧
    (Acc (sJob job0 []) w0 (stP 8 3 4 1 4 3 0 1 (List.replicate 32 0)) ∧
      (cutBlocks 33 (List.replicate 32 0)).1.find? (fun y => !bCheckOk y) = some (List.replicate 32 0)) :=
  ⟨⟨acc_of (by decide +kernel), by decide +kernel⟩, ⟨acc_of (by decide +kernel), by decide +kernel⟩⟩

/-- A state record of a kind from gateway 131 about a matrix, quantity and chunk. -/
def srec (kind qty m e idx cnt status tag vchk : Nat) (flags : BitVec 8) (l : Bytes) : StRec :=
  sealSt ⟨{ sver := 1, kind := BitVec.ofNat 8 kind, qty := BitVec.ofNat 8 qty, flags := flags, srcGw := 131, dstGw := 66, job := 1,
            elemType := 1, rsvd1 := 0, epoch := BitVec.ofNat 32 e, matrix := BitVec.ofNat 32 m, chunkIndex := BitVec.ofNat 32 idx,
            chunkCount := BitVec.ofNat 32 cnt, payloadLen := BitVec.ofNat 16 l.length, status := BitVec.ofNat 16 status,
            tag := BitVec.ofNat 32 tag, rsvd2 := 0, valueCheck := BitVec.ofNat 64 vchk, check := 0 }, l⟩

def b32 : Bytes := List.replicate 32 7
def repl0 (e vchk : Nat) : StRec := srec 1 1 5 e 0 1 0 0 vchk 0 b32

/-- A record this gateway sent to 131 and keeps. -/
def sent0 (kind m tag n : Nat) : StSend := ⟨{ srec kind 1 m 3 0 1 0 tag 0 0 [] with hdr := { (srec kind 1 m 3 0 1 0 tag 0 0 []).hdr with srcGw := 66, dstGw := 131 } }, n, 0⟩
def sSent (l : List StSend) : State := { sJob job0 [] with stTx := l }

/-- The record arrives for this gateway on port 0. -/
def InOk (s : State) (r : StRec) : Prop := StateIn s site0 r s

theorem test_wit_stateRecords :
    (InOk (sJob job0 []) (repl0 4 0) ∧ replFits (sJob job0 []) (repl0 4 0) = true ∧
      stMatrix (sJob job0 []) (repl0 4 0) = some (mat 5 131 66) ∧ stIntact (repl0 4 0) = false) ∧
    (InOk (sJob job0 []) (repl0 4 (crc64 b32)) ∧ stIntact (repl0 4 (crc64 b32)) = true ∧
      (repl0 4 (crc64 b32)).hdr.flags.getLsbD 1 = false ∧ mget? job0.repl (4, 5, 1, 0) = none ∧
      (replTarget 66 (mat 5 131 66) job0 (repl0 4 (crc64 b32))).isSome = true ∧
      replTarget 66 (mat 5 131 66) job0 (repl0 3 (crc64 b32)) = none ∧ replFits (sJob job0 []) (repl0 3 (crc64 b32)) = true) ∧
    (mget? ({ job0 with repl := [((4, 5, 1, 0), crc64 b32)] } : Job).repl (4, 5, 1, 0) = some (repl0 4 (crc64 b32)).hdr.valueCheck.toNat ∧
      0 ≠ (repl0 4 (crc64 b32)).hdr.valueCheck.toNat) ∧
    (InOk (sJob job0 []) (srec 2 1 4 3 0 1 0 0 0 0 []) ∧ (stMatrix (sJob job0 []) (srec 2 1 4 3 0 1 0 0 0 0 [])).isSome = true) ∧
    (InOk (sSent [sent0 1 4 0 1]) (srec 3 1 4 3 0 1 0 0 0 0 []) ∧
      ∃ x ∈ (sSent [sent0 1 4 0 1]).stTx, namesSt (srec 3 1 4 3 0 1 0 0 0 0 []) 1 x = true) ∧
    (InOk (sJob job0 []) (srec 3 1 4 3 0 1 0 9 0 0 []) ∧ (srec 3 1 4 3 0 1 0 9 0 0 []).hdr.tag ≠ 0 ∧
      ∀ x ∈ (sJob job0 []).stTx, namesSt (srec 3 1 4 3 0 1 0 9 0 0 []) 1 x = false) ∧
    (InOk (sJob job0 []) (srec 4 1 9 3 0 1 0 9 0 0 []) ∧ stMatrix (sJob job0 []) (srec 4 1 9 3 0 1 0 9 0 0 []) = none) ∧
    (InOk (sJob job0 []) (srec 4 1 4 5 0 1 0 9 0 0 []) ∧ fetchRefusal (sJob job0 []) (mat 4 66 131) (srec 4 1 4 5 0 1 0 9 0 0 []) ≠ 0) ∧
    (InOk (sJob job0 []) (srec 4 1 4 3 0 1 0 9 0 0 []) ∧ fetchRefusal (sJob job0 []) (mat 4 66 131) (srec 4 1 4 3 0 1 0 9 0 0 []) = 0) ∧
    (InOk (sSent [sent0 4 5 9 1]) (srec 5 1 5 3 0 1 0 9 0 0 b32) ∧
      stMatrix (sSent [sent0 4 5 9 1]) (srec 5 1 5 3 0 1 0 9 0 0 b32) = some (mat 5 131 66) ∧
      stIntact (srec 5 1 5 3 0 1 0 9 0 0 b32) = false ∧ stIntact (srec 5 1 5 3 0 1 0 9 (crc64 b32) 0 b32) = true ∧
      InOk (sSent [sent0 4 5 9 1]) (srec 5 1 5 3 0 1 0 9 (crc64 b32) 0 b32)) ∧
    (∃ x ∈ (sSent [sent0 4 5 9 1]).stTx, x.rcd.hdr.kind = 4 ∧ x.rcd.hdr.tag = 9 ∧ x.rcd.hdr.dstGw = 131 ∧ x.rcd.hdr.matrix = 5 ∧
      x.rcd.hdr.qty = 1 ∧ x.rcd.hdr.epoch = 3 ∧ x.rcd.hdr.chunkIndex = 0) ∧
    (InOk (sJob job0 []) (srec 6 1 5 3 0 0 0 9 0 0 []) ∧ InOk (sJob job0 []) (srec 6 1 5 3 0 0 0x2101 9 0 0 []) ∧
      blockFailure 0x2101 = false) ∧
    ((sSent [sent0 1 4 0 7]).stTx[0]? = some (sent0 1 4 0 7) ∧ (131 : Nat) / 64 ≠ site (sSent []) ∧
      15 < (sent0 1 4 0 7).sf + 2 * sT.lt.d + 16 ∧ (sent0 1 4 0 7).sends < 8 ∧ (sent0 1 4 0 8).sends = 8 ∧
      (sent0 1 4 0 8).rcd.hdr.kind = 1 ∧ (sent0 4 5 9 8).rcd.hdr.kind = 4) := by
  unfold InOk StateIn site0; and_intros <;> decide +kernel

def cJob (n : Nat) : BitVec 64 := mkCiid 1 n 0 0
/-- A master with quorum whose job's step 5 is harvested everywhere, or is its outer step with READY from every gateway. -/
def sHarv (outer : Bool) : State :=
  let s := sMaster []
  let j : Job := { job0 with outer := if outer then some (5, 0) else none, readies := [⟨66, 4, 9⟩] }
  { s with outer := [(1, j)], commits := [⟨1, 5, 0, [66]⟩] }

/-- A PUBLISH for an epoch at a superframe. -/
def pubM (e : BitVec 32) (sf : BitVec 64) : Ctl :=
  let m := { ctlM 6 0 (cJob 0) with epoch := e, sf := sf, check := 0 }
  { m with check := BitVec.ofNat 32 (crc32c (ctlBody m)) }

theorem test_wit_commitAndPublish :
    (∀ t : BitVec 8, t = 3 ∨ t = 5 → CtlUp (sMaster []) site0 (ctlM t 0 (cJob (if t = 3 then 5 else 0)))
      (upAt (sMaster []) site0 (ctlM t 0 (cJob (if t = 3 then 5 else 0))))) ∧
    (∀ t : BitVec 8, t = 4 ∨ t = 6 ∨ t = 7 → CtlDown (sJob job0 []) site0 (ctlM t 0 (cJob (if t = 4 then 5 else 0)))
      (downAt (sJob job0 []) site0 (ctlM t 0 (cJob (if t = 4 then 5 else 0))))) ∧
    ((pubM 3 9).epoch.toNat ≤ job0.epoch ∧ (pubM 4 9).ctype = 6 ∧ job0.epoch < (pubM 4 9).epoch.toNat ∧ job0.pub = none ∧
      CtlDown (sJob job0 []) site0 (pubM 3 9) (downAt (sJob job0 []) site0 (pubM 3 9)) ∧
      CtlDown (sJob job0 []) site0 (pubM 4 9) (downAt (sJob job0 []) site0 (pubM 4 9)) ∧
      (downAt (sJob job0 []) site0 (pubM 4 9)).sf ≤ (pubM 4 9).sf.toNat ∧ (pubM 4 9).sf.toNat < (sMaster []).sf) ∧
    ((jobOf (sHarv false) 1).outer ≠ some (5, 0) ∧ committed (sHarv false) 1 5 = false ∧ allHarvested (sHarv false) 1 5 0 = true ∧
      jobQuiet (sHarv false) 1 = true) ∧
    ((jobOf (sHarv true) 1).outer = some (5, 0) ∧ committed (sHarv true) 1 5 = false ∧ allHarvested (sHarv true) 1 5 0 = true ∧
      jobQuiet (sHarv true) 1 = true ∧ earlierCommitted (sHarv true) 1 5 = true ∧ (jobOf (sHarv true) 1).pub = none ∧
      (jobOf (sHarv true) 1).epoch + 1 < 0xFFFFFFFF ∧
      (∀ r ∈ (jobOf (sHarv true) 1).readies, r.epoch = (jobOf (sHarv true) 1).epoch + 1 → r.digest = 9) ∧
      ∀ a ∈ activeGws (sHarv true), ∃ r ∈ (jobOf (sHarv true) 1).readies, r.gw = a ∧ r.epoch = (jobOf (sHarv true) 1).epoch + 1) ∧
    ((jobOf (sJob { job0 with pub := some (4, 9) } []) (1 : BitVec 16).toNat).pub = some (4, 9) ∧ (sJob job0 []).sf < 9 ∧
      9 ≤ ({ sJob { job0 with pub := some (4, 9) } [] with sf := 9 } : State).sf) := by
  unfold CtlUp CtlDown; and_intros <;> decide +kernel


/-! ## Witnesses: coded weights -/

/-- A decode table of generation 3 for tile 63, retiring generation 2 when built. -/
def tblPay : Bytes := beBytes 4 0x42544142 ++ [1, 12] ++ beBytes 2 2 ++ List.replicate 4104 0
def tblP : Packet := pkt { Header.zero with opcode := 7, vc := 3, chunkCount := 1, arg0 := 3, arg1 := 2 ^ 63 } tblPay

def slotAt (i gen refs : Nat) (st : TSt) (s : State) : State := setTslot s 63 i ⟨st, gen, refs, []⟩
def load0 (slot : Nat) : TLoad := ⟨1, .win 0, Header.zero, 2 ^ 63, 3, 2, [], slot⟩
def sFull : State := (List.range 8).foldl (fun s i => slotAt i (10 + i) 0 .resident s) sT
def sBuild : State :=
  slotAt 6 2 1 .resident (slotAt 7 3 0 .loading { sT with tdec := { sT.tdec with loads := [load0 7] } })

/-- What TABLE_LOAD asks of the packet, for every slot state. -/
theorem test_wit_decodeTables_packet :
    tblP.hdr.opcode = 7 ∧ tblP.hdr.chunkIndex = 0 ∧ tblP.hdr.chunkCount = 1 ∧ tblP.payload.length = 4112 ∧
    beAt tblP.payload 0 4 = 0x42544142 ∧ byteAt tblP.payload 4 = 1 ∧ byteAt tblP.payload 5 = 12 ∧
    (slice tblP.payload 8 8).any (· != 0) = false ∧ tblP.hdr.arg0 ≠ 0 ∧ tblP.hdr.arg1 ≠ 0 := by
  decide +kernel

/-- The parts of a state that a TABLE_LOAD looks at. -/
def tblCase (s : State) (loads inUse : Bool) (free : Option Nat) : Bool :=
  passes s (.window 0) tblP &&
  (let u := served s (.window 0) tblP
   (maskTiles tblP.hdr.arg1.toNat).all (fun t => !quarantined u t.val) && (u.tdec.loads == []) == loads &&
   genInUse u tblP.hdr.arg1.toNat tblP.hdr.arg0.toNat == inUse && freeIn u tblP.hdr.arg1.toNat == free)

theorem test_wit_decodeTables_load :
    tblCase (slotAt 0 3 0 .resident sT) true true (some 1) = true ∧ tblCase sFull true false none = true ∧
    tblCase (slotAt 0 4 0 .resident sT) true false (some 1) = true ∧ tblCase sBuild false true (some 0) = true := by
  decide +kernel

theorem test_wit_decodeTables_retire :
    (sBuild.tdec.loads = [load0 7] ∧ (load0 7).slot < 8 ∧ (load0 7).retire ≠ 0 ∧ (tslot sBuild 63 7).gen ≠ 2 ∧
      (tslot sBuild 63 6).gen = 2 ∧ (tslot sBuild 63 6).st = .resident ∧ (tslot sBuild 63 6).refs ≠ 0) ∧
    (Writable sFull .ccf (.tdec 63) ∧ (tslot sBuild 63 6).st = .resident ∧ (tslot sBuild 63 6).refs ≠ 0 ∧
      (tslot sFull 63 7).st = .resident ∧ (tslot sFull 63 7).refs = 0 ∧ (tslot sBuild 63 7).st ≠ .resident) ∧
    Writable sBuild .ccf (.tdec 63) := by
  unfold Writable; decide +kernel

/-- A block of mode m that expands to n elements, sealed. -/
def sealBlock (h pl : Bytes) : Bytes := h ++ beBytes 4 (crc32c (h ++ [0, 0, 0, 0] ++ pl)) ++ pl
def blkOf (m n : Nat) (pl : Bytes) : Bytes :=
  sealBlock (beBytes 1 1 ++ beBytes 1 m ++ [1, 0] ++ List.replicate 12 0 ++ beBytes 4 n ++ beBytes 4 pl.length ++ beBytes 4 0) pl

theorem test_wit_blocksExpand :
    (bCheckOk ((blkOf 2 2 [5, 6]).set 33 7) = false) ∧ (bCheckOk (blkOf 3 2 [5, 6]) = true ∧ bFieldsOk (blkOf 3 2 [5, 6]) = false) ∧
    (bCheckOk (blkOf 2 2 [5, 6]) = true ∧ bFieldsOk (blkOf 2 2 [5, 6]) = true ∧ bMode (blkOf 2 2 [5, 6]) = 2 ∧
      bPlen (blkOf 2 2 [5, 6]) = bOut (blkOf 2 2 [5, 6])) ∧
    (bCheckOk (blkOf 2 3 [5, 6]) = true ∧ bFieldsOk (blkOf 2 3 [5, 6]) = true ∧ bPlen (blkOf 2 3 [5, 6]) < bOut (blkOf 2 3 [5, 6])) ∧
    (bCheckOk (blkOf 2 1 [5, 6]) = true ∧ bFieldsOk (blkOf 2 1 [5, 6]) = true ∧ bOut (blkOf 2 1 [5, 6]) < bPlen (blkOf 2 1 [5, 6])) ∧
    (tqueue (setTqueue (slotAt 0 3 2 .resident sT) 63 [⟨.check 1, 0, blkOf 3 2 [], some 0⟩]) 63 =
        [⟨.check 1, 0, blkOf 3 2 [], some 0⟩] ∧
      1 < (tslot (setTqueue (slotAt 0 3 2 .resident sT) 63 [⟨.check 1, 0, blkOf 3 2 [], some 0⟩]) 63 0).refs ∧
      (expandBlock (blkOf 3 2 []) []).2 ≠ 0) ∧ tqueue sT 63 = [] := by
  decide +kernel

/-- R267: a stored block expands to its payload. -/
theorem test_expandBlock_stored : expandBlock (blkOf 2 2 [5, 6]) [] = ([5, 6], 0) := by decide +kernel


/-! ## Witnesses: lanes, links and frames -/

/-- Gateway 66 with link 0 of group 0 to gateway 131 over slots 17 and 16, which fibre pair 0 carries. -/
def cfg0 : Word := 0x98000083
def sLine (x : LSlot) (y : LLink) : State :=
  let s := withReg (withReg (withReg sT (.line 0) 0x50 0 0) (.line 0) 0x54 0 cfg0) .wrt 0x50 0 0x11
  { s with sf := 100, boot := { s.boot with reg := true },
           fab := { s.fab with net := { s.fab.net with number := some (1, 2) } },
           line := { s.line with slots := [((0, 17), x)], links := [((0, 0), y)] } }

def time0 : TimeHdr := ⟨131, 1, 2, 3, 0, 0x8000, 0, 0, false, 0⟩
def hdr0 (src rxs cmd : Nat) : SfHdr := ⟨17, 0, src, 100, 0, 2, rxs, 2, cmd, 100, 99, 5, 7, time0⟩
def slot0 (tx : TxSt) (rx : RxSt) (clean : Nat) : LSlot := { LSlot.reset with tx := tx, rx := rx, clean := clean }
def en0 : LLink := { LLink.reset with en := true, validSf := 90 }

/-- The header arrives and is valid, and names this gateway's time domain. -/
def hdrCase (s : State) (h : SfHdr) : Bool :=
  (lslot s 0 17).rx != .off && (pairOf s 0 17).isSome && slotOwner s 0 17 == some (0, 0) && sfCheckOk (sfBytes h) &&
  !(lslot s 0 17).failed.contains ((parseSf (sfBytes h)).sf, 0) && (lslot s 0 17).last == none &&
  (parseSf (sfBytes h)).time.domain == ltDomain s

theorem headerIn_of {s : State} {h : SfHdr} (c : hdrCase s h = true) :
    HeaderIn s 0 17 (sfBytes h) (0, 0) ∧ (parseSf (sfBytes h)).time.domain = ltDomain s := by
  simp only [hdrCase, Bool.and_eq_true, bne_iff_ne, beq_iff_eq, Bool.not_eq_true'] at c
  obtain ⟨⟨⟨⟨⟨⟨h1, h2⟩, h3⟩, h4⟩, h5⟩, h6⟩, h7⟩ := c
  exact ⟨⟨h1, h2, h3, h4, h5, .inl h6⟩, h7⟩

def env0 : Env := ⟨[], [], 40, 40, 40, 48000, 100, 0, 0, 0, 0, 0, [], [], [], 0, []⟩
def envHot : Env := { env0 with die := 4000 }

theorem test_wit_lanes_boundary :
    sT.boot.reg = false ∧ ((sLine LSlot.reset en0).boot.reg = true ∧
      (tripped (thermTick (sample { sLine LSlot.reset en0 with sf := 101 } envHot))).isSome = true) ∧
    (tripped (thermTick (sample { sLine LSlot.reset en0 with sf := 101 } env0)) = none ∧
      (sLine LSlot.reset en0).lt.st = .free ∧ offers (thermTick (sample { sLine LSlot.reset en0 with sf := 101 } env0)) = []) := by
  decide +kernel

theorem test_wit_lanes_headers :
    (hdrCase (sLine (slot0 .off .hunt 0) en0) (hdr0 132 1 0) = true ∧ (132 : Nat) ≠ linkPeer (sLine (slot0 .off .hunt 0) en0) (0, 0)) ∧
    (hdrCase (sLine (slot0 .off .ready 0) en0) (hdr0 131 1 0) = true ∧ 2048 < 2049 ∧
      (parseSf (sfBytes (hdr0 131 1 0))).src = linkPeer (sLine (slot0 .off .ready 0) en0) (0, 0)) ∧
    (hdrCase (sLine (slot0 .train .hunt 63) en0) (hdr0 131 2 1) = true ∧
      cleanSf (sLine (slot0 .train .hunt 63) en0) 0 (endFec { slot0 .train .hunt 63 with seen := true }) = true ∧
      (100000 : Int).natAbs ≤ 100000) ∧
    (hdrCase (sLine (slot0 .up .ready 64) en0) (hdr0 131 1 1) = true ∧ (parseSf (sfBytes (hdr0 131 1 1))).rxs = 1 ∧
      (parseSf (sfBytes (hdr0 131 1 1))).cmd = 1 ∧ (parseSf (sfBytes (hdr0 131 1 1))).cmdSf = (parseSf (sfBytes (hdr0 131 1 1))).sf) ∧
    (hdrCase (sLine (slot0 .up .up 64) en0) (hdr0 131 3 0) = true ∧ (parseSf (sfBytes (hdr0 131 3 0))).rxs ≠ 1) ∧
    (slotOwner (sLine { slot0 .up .up 0 with missing := 3 } en0) 0 17 = some (0, 0) ∧ sfCheckOk [] = false ∧
      (lslot (sLine { slot0 .up .up 0 with missing := 3 } en0) 0 17).missing = 3 ∧
      (lslot (sLine (slot0 .up .up 0) en0) 0 17).missing < 3) ∧ (lslot sT 0 17).rx = .off ∧ pairOf (withReg sT .wrt 0x50 0 0) 0 17 = none := by
  and_intros <;> decide +kernel

/-- A slot in TRAIN whose laser and transmit rings are ready. -/
def sReady : State :=
  let s := setLaser (sLine (slot0 .train .up 64) en0) 1 17 { Laser.absent with st := .lit }
  setRing (setRing s 0 17 0 { Ring.none with locked := true }) 0 17 1 { Ring.none with locked := true }

theorem test_wit_lanes_train :
    hdrCase sReady (hdr0 131 2 0) = true ∧ txOptics sReady 0 17 = true ∧ (parseSf (sfBytes (hdr0 131 2 0))).rxs = 2 ∧
    (lslot sReady 0 17).upAt = none ∧ laneFree sReady 0 = true := by
  decide +kernel

theorem test_wit_lanes_links :
    ((lslot (sLine (slot0 .up .up 0) en0) 0 17).rx ≠ .off ∧ (pairOf (sLine (slot0 .up .up 0) en0) 0 17).isSome = true) ∧
    ((llink (sLine LSlot.reset { en0 with validSf := 34 }) (0, 0)).validSf + 2 * dLink (sLine LSlot.reset { en0 with validSf := 34 }) (0, 0) + 64 ≤ 100) ∧
    ((100 : Nat) < (llink (sLine LSlot.reset { en0 with validSf := 35 }) (0, 0)).validSf +
      2 * dLink (sLine LSlot.reset { en0 with validSf := 35 }) (0, 0) + 64) := by
  decide +kernel

theorem test_wit_lanes_config :
    (Writable (sLine LSlot.reset en0) .host (.line 0) ∧ (gwNum (sLine LSlot.reset en0)).isSome = true ∧
      blkState (sLine LSlot.reset en0) (.line 0) ≠ 2 ∧ blkState (sLine LSlot.reset en0) (.line 0) ≠ 3 ∧
      ∀ m < 4, m ≠ 0 → fld cfg0.toNat 28 11 &&&
        fld (regAccepted (pageOf (sLine LSlot.reset en0) (.line 0)) (.line 0) 0x54 m).toNat 28 11 = 0) ∧
    linkState (sLine LSlot.reset { en0 with en := false }) (0, 0) = 0 ∧
    linkState (sLine LSlot.reset { en0 with lost := true }) (0, 0) = 3 ∧ linkState (sLine LSlot.reset en0) (0, 0) = 1 := by
  unfold Writable; decide +kernel

def key5 : LKey := ⟨5, List.replicate 32 1, List.replicate 6 2, 0⟩
def keyed0 : LCiph := { LCiph.reset with tx := some key5, rx := some key5 }

/-- Link 0 keyed, its slots lit and up. -/
def sKeyed (y : LLink) (held : List HeldFrame) : State :=
  let s := setLCiph (sLine (slot0 .up .up 64) y) (0, 0) keyed0
  { s with ciph := { s.ciph with hold := [(0, held)] } }

def frHdr (kind vc seq len key slot dst : Nat) : FrHdr := ⟨kind, vc, false, slot, 131, dst, seq, len, key, 1⟩

/-- A frame with a body and a tag of zeros. -/
def rawFrame (h : FrHdr) : Bytes := frBytes h ++ List.replicate (h.len + 16) 0

def frCase (s : State) (b : Bytes) : Bool :=
  let h := parseFr b
  slotOwner s 0 17 == some (0, 0) && (pairOf s 0 17).isSome && (lslot s 0 17).rx == .up && frCheckOk b && frFieldsOk b && !spanFailed s 0 17 [(100, 3)] &&
  b.length == h.len + 48 && h.src == linkPeer s (0, 0) && h.dst == gw s && decide (64 ≤ h.len) && decide (h.len ≤ 16384) &&
  cipherRefusal s (0, 0) 17 h == 0

theorem frameIn_of {s : State} {b : Bytes} (c : frCase s b = true) : FrameIn s 0 17 b [(100, 3)] (0, 0) := by
  simp only [frCase, Bool.and_eq_true, beq_iff_eq, Bool.not_eq_true', decide_eq_true_eq] at c
  obtain ⟨⟨⟨⟨⟨⟨⟨⟨⟨⟨⟨h1, h2⟩, h3⟩, h4⟩, h5⟩, h6⟩, h7⟩, h8⟩, h9⟩, h10⟩, h11⟩, h12⟩ := c
  exact ⟨h1, h2, h3, h4, h5, h6, h7, h8, h9, h10, h11, h12⟩

def badSpan : State :=
  sLine { slot0 .up .up 64 with failed := [(100, 3)] } en0

/-- A FILL of the peer. -/
def fill0 : FrHdr := { frHdr 0 0 0 64 0 17 66 with ctr := 0 }

theorem test_wit_frames_data :
    (frCase (sKeyed en0 []) (rawFrame (frHdr 1 2 0 64 5 17 66)) = true ∧ holdBytes (sKeyed en0 []) 0 + 64 ≤ 8388608 ∧
      (sKeyed en0 []).ciph.early.contains 0 = false) ∧
    (frCheckOk (rawFrame fill0) = true ∧ frFieldsOk (rawFrame fill0) = true ∧ (parseFr (rawFrame fill0)).kind = 0 ∧
      (parseFr (rawFrame fill0)).src = linkPeer (sKeyed en0 []) (0, 0) ∧ (parseFr (rawFrame fill0)).dst = gw (sKeyed en0 [])) ∧
    (frCheckOk (rawFrame { fill0 with dst := 67 }) = true ∧ frFieldsOk (rawFrame { fill0 with dst := 67 }) = true ∧
      (parseFr (rawFrame { fill0 with dst := 67 })).dst ≠ gw (sKeyed en0 [])) ∧
    (frCheckOk (rawFrame { fill0 with seq := 1 }) = true ∧ frFieldsOk (rawFrame { fill0 with seq := 1 }) = false ∧
      (parseFr (rawFrame { fill0 with seq := 1 })).kind = 0) ∧
    (frCheckOk ((rawFrame (frHdr 1 2 0 64 5 17 66)).set 4 9) = false ∧ (parseFr ((rawFrame (frHdr 1 2 0 64 5 17 66)).set 4 9)).kind = 1) ∧
    (slotOwner badSpan 0 17 = some (0, 0) ∧ spanFailed badSpan 0 17 [(100, 3)] = true) ∧
    (frCheckOk (rawFrame (frHdr 1 5 0 64 5 17 66)) = true ∧ frFieldsOk (rawFrame (frHdr 1 5 0 64 5 17 66)) = false ∧
      (parseFr (rawFrame (frHdr 1 5 0 64 5 17 66))).kind = 1) ∧
    (frCheckOk (rawFrame (frHdr 1 2 0 64 5 17 67)) = true ∧ frFieldsOk (rawFrame (frHdr 1 2 0 64 5 17 67)) = true ∧
      (parseFr (rawFrame (frHdr 1 2 0 64 5 17 67))).dst ≠ gw (sKeyed en0 [])) ∧
    frCase (sKeyed en0 []) (rawFrame (frHdr 2 0 0 112 5 17 66)) = true := by
  decide +kernel

/-- 8 MiB held, where no release may go early. -/
theorem test_wit_frames_full :
    (∃ l : Bytes, 8388608 < holdBytes (sKeyed en0 [⟨(0, 0), 17, [], l, [], false⟩]) 0 + 1) ∧
    fldV (sKeyed en0 []) (.ciph 0 1) 0x68 0 0 = 0 := by
  have h (l : Bytes) : holdBytes (sKeyed en0 [⟨(0, 0), 17, [], l, [], false⟩]) 0 = l.length := by
    simp [holdBytes, sKeyed, mget, mget?]
  refine ⟨⟨List.replicate 8388608 0, ?_⟩, by decide +kernel⟩
  rw [h, List.length_replicate]; decide

/-- Bodies that a tag verifies: an ACK and a data frame of VC2. -/
def ackBody0 : Bytes := ackBody 99 (seqVcs.map (fun v => ⟨v, 0, 0, 9, []⟩))
def sealed (h : FrHdr) (body : Bytes) : Bytes := sealFrame key5 h body

theorem test_wit_frames_open :
    (openFrame (sKeyed en0 []) (0, 0) ((sealed (frHdr 2 0 0 112 5 17 66) ackBody0).take 32)
      (slice (sealed (frHdr 2 0 0 112 5 17 66) ackBody0) 32 112) ((sealed (frHdr 2 0 0 112 5 17 66) ackBody0).drop 144) = some ackBody0 ∧
      (parseAck ackBody0).isSome = true) ∧
    openFrame (sKeyed en0 []) (0, 0) ((rawFrame (frHdr 2 0 0 112 5 17 66)).take 32)
      (slice (rawFrame (frHdr 2 0 0 112 5 17 66)) 32 112) ((rawFrame (frHdr 2 0 0 112 5 17 66)).drop 144) = none := by
  decide +kernel

def dataH (seq : Nat) : FrHdr := frHdr 1 2 seq 64 5 17 66
def data0 : Bytes := sealed (dataH 0) (padBody [])
def held0 (seq : Nat) : HeldFrame :=
  ⟨(0, 0), 17, frBytes (dataH seq), slice data0 32 64, data0.drop 96, false⟩

theorem test_wit_frames_tag :
    openFrame (sKeyed en0 [held0 0]) (0, 0) (held0 0).hdr (held0 0).cipher (held0 0).tag = some (padBody []) := by
  decide +kernel

theorem test_wit_frames_seq :
    ((mget (sKeyed en0 [held0 0]).ciph.hold 0 [])[0]?).isSome = true ∧ (parseFr (held0 0).hdr).vc = 2 ∧ (parseFr (held0 0).hdr).keyId ≠ 0 ∧
    seqCheck (sKeyed en0 []) (0, 0) 2 0 = 0 ∧ stageCheck (sKeyed en0 []) (0, 0) 2 (frameCost (padBody [])) (32 + 64) = 0 ∧
    seqCheck (sKeyed en0 []) (0, 0) 2 0x400000 = 6 ∧ seqCheck (sKeyed en0 []) (0, 0) 2 0xFFFFFFFF = 7 := by
  decide +kernel

theorem test_wit_frames_ack : (BitVec.ofNat 32 0x7FFFFFFF - (0 : BitVec 32)).toNat < 2 ^ 31 := by decide

/-- A control message waits on VC0; a retained frame of VC2 is queued again. -/
def ret0 (queued : Bool) (retx : Nat) : RetFrame := ⟨2, 4, padBody [], 60, retx, queued⟩
def ctl0 : LUnit := .key (List.replicate 64 0x40)
def sLaunch (ret : List RetFrame) (us : List LUnit) : State :=
  { sKeyed { en0 with ret := ret } [] with lineTx := [(((0, 0), 6), us)] }

theorem test_wit_frames_launch :
    pickLane (sLine LSlot.reset en0) (0, 0) = none ∧
    (pickLane (sLaunch [] [ctl0]) (0, 0) = some 17 ∧ (sLaunch [] [ctl0]).ciph.erasing = none ∧ paceOk (sLaunch [] [ctl0]) 0 = true ∧
      linkKeyed (sLaunch [] [ctl0]) (0, 0) = true ∧ pickVc (sLaunch [] [ctl0]) (0, 0) = some 6 ∧
      (nextBody (sLaunch [] [ctl0]) (0, 0) 6).isSome = true ∧
      ((nextBody (sLaunch [] [ctl0]) (0, 0) 6).map (fun b => retRoom (sLaunch [] [ctl0]) 0 b.1)) = some true) ∧
    (pickLane (sLaunch [ret0 true 1] []) (0, 0) = some 17 ∧ pickVc (sLaunch [ret0 true 1] []) (0, 0) = some 5 ∧
      (llink (sLaunch [ret0 true 1] []) (0, 0)).ret.find? (·.queued) = some (ret0 true 1) ∧ (ret0 true 1).body.length = 64) := by
  decide +kernel

theorem test_wit_frames_timers :
    (linkUp (sLaunch [] []) (0, 0) = true ∧ pickLane (sLaunch [] []) (0, 0) = some 17 ∧
      (llink (sLaunch [] []) (0, 0)).ackSf + fldV (sLaunch [] []) (.line 0) 0x70 31 24 ≤ 100) ∧
    (100 < (llink (sKeyed { en0 with ackSf := 100 } []) (0, 0)).ackSf + fldV (sLaunch [] []) (.line 0) 0x70 31 24) ∧
    ((llink (sLaunch [ret0 false 0] []) (0, 0)).ret.find? (fun f => f.vc == 2 && f.seq == 4) = some (ret0 false 0) ∧
      60 + 2 * dLink (sLaunch [ret0 false 0] []) (0, 0) + fldV (sLaunch [] []) (.line 0) 0x70 11 4 ≤ 100 ∧
      (ret0 false 0).retx < fldV (sLaunch [] []) (.line 0) 0x70 16 12) ∧
    (fldV (sLaunch [] []) (.line 0) 0x70 16 12 ≤ (ret0 false 31).retx ∧
      (llink (sLaunch [ret0 false 31] []) (0, 0)).lost = false) ∧
    (60 : Nat) < 60 + 2 * dLink (sLaunch [ret0 false 0] []) (0, 0) + fldV (sLaunch [] []) (.line 0) 0x70 11 4 := by
  decide +kernel


/-! ## Witnesses: keys -/

/-- A key message that waits as one fragment of session 4. -/
def frag (kind : Nat) (m : Bytes) : Bytes := fragment kind 4 0 1 m.length m
def hs0 (st : HsSt) (init : Bool) : Hs := ⟨st, init, 4, 6, [], [], [], [], none, 10, false⟩

/-- Link 0 with a handshake, and a delivered key message. -/
def sHs (c : LCiph) (b : Bytes) : State :=
  let s := setLCiph (sLine (slot0 .up .up 64) en0) (0, 0) c
  { s with line := { s.line with inbox := [⟨(0, 0), 6, 0, false, .key b⟩] } }
def withHs (st : HsSt) (init : Bool) : LCiph := { keyed0 with hs := some (hs0 st init) }
def tookKey (c : LCiph) (kind : Nat) (m : Bytes) : Bool :=
  (takeKey (sHs c (frag kind m)) (0, 0) kind (frag kind m)).2 == some m &&
  (lciph (takeKey (sHs c (frag kind m)) (0, 0) kind (frag kind m)).1 (0, 0)).hs == c.hs

/-- Where `tookKey` holds, the message is whole as `KeyIn` says. -/
theorem keyIn_of {c : LCiph} {kind : Nat} {m : Bytes} (h : tookKey c kind m = true) :
    KeyIn (sHs c (frag kind m)) (0, 0) kind (frag kind m) (takeKey (sHs c (frag kind m)) (0, 0) kind (frag kind m)).1 m ∧
    (lciph (takeKey (sHs c (frag kind m)) (0, 0) kind (frag kind m)).1 (0, 0)).hs = c.hs := by
  simp only [tookKey, Bool.and_eq_true, beq_iff_eq] at h
  exact ⟨Sys2Proof.Laws.takeKey_keyIn h.1, h.2⟩

def hsDone : Hs := { hs0 .sentConfirm true with sw := some 90 }
def cDone : LCiph := { keyed0 with hs := some hsDone }

theorem test_wit_handshake_messages :
    beAt (frag 0x40 [1]) 2 2 = 4 ∧
    (tookKey (withHs .sentHello true) 0x40 [1] = true ∧ gw (sHs (withHs .sentHello true) []) < linkPeer (sHs (withHs .sentHello true) []) (0, 0)) ∧
    (tookKey keyed0 0x40 [1] = true ∧ helloOk [1] = false) ∧ tookKey (withHs .sentHello true) 0x41 [1] = true ∧
    (tookKey (withHs .sentAccept false) 0x42 (List.replicate 39 0) = true) ∧
    tookKey cDone 0x43 (List.replicate 31 0) = true ∧ tookKey (withHs .sentHello true) 0x44 [0, 5] = true := by
  decide +kernel

/-- A CONFIRM and a DONE that verify, and ones that do not. -/
theorem test_wit_handshake_tags :
    (beBytes 8 90 ++ confTag (hs0 .sentAccept false) true 90).length = 40 ∧
    (beBytes 8 90 ++ confTag (hs0 .sentAccept false) true 90).drop 8 =
      confTag (hs0 .sentAccept false) true (beAt (beBytes 8 90 ++ confTag (hs0 .sentAccept false) true 90) 0 8) ∧
    List.replicate 32 0 ≠ confTag hsDone false 90 ∧ (confTag hsDone false 90).length = 32 := by
  decide +kernel

theorem test_wit_handshake_confirm :
    tookKey (withHs .sentAccept false) 0x42 (beBytes 8 90 ++ confTag (hs0 .sentAccept false) true 90) = true ∧
    tookKey cDone 0x43 (confTag hsDone false 90) = true := by
  decide +kernel

/-- A HELLO of the least length that is well formed. -/
theorem test_wit_handshake_hello : helloOk (List.replicate 18700 0) = true := by decide +kernel

/-- A HELLO that its checks refuse, and one that passes wherever the certificate functions admit its chain. -/
def helloMsg : Bytes := beBytes 2 131 ++ beBytes 2 66 ++ [6] ++ List.replicate 1607 0
theorem test_wit_handshake_chain :
    ((lciph (sHs (withHs .verifyHello false) []) (0, 0)).hs = some (hs0 .verifyHello false) ∧
      helloReason (sHs (withHs .verifyHello false) []) (0, 0) (hs0 .verifyHello false).hello ≠ 0) ∧
    (chainCheck (sHs (withHs .verifyHello false) []) (0, 0) helloMsg 1608 = 0 →
      helloReason (sHs (withHs .verifyHello false) []) (0, 0) helloMsg = 0) := by
  refine ⟨by decide +kernel, fun h => ?_⟩
  have h1 : beAt helloMsg 2 2 = gw (sHs (withHs .verifyHello false) []) := by decide +kernel
  have h2 : beAt helloMsg 0 2 = linkPeer (sHs (withHs .verifyHello false) []) (0, 0) := by decide +kernel
  have h3 : byteAt helloMsg 4 = nextKeyId (curKeyId (sHs (withHs .verifyHello false) []) (0, 0)) := by decide +kernel
  simp only [helloReason, h, h1, h2, h3, ne_eq, not_true_eq_false, decide_false, Bool.or_self, Bool.false_eq_true, if_false]

theorem test_wit_handshake_timers :
    ((lciph (sHs (withHs .signHello true) []) (0, 0)).hs = some (hs0 .signHello true) ∧
      (sHs (withHs .signHello true) []).boot.chain.length < 2 ^ 32) ∧
    ((hs0 .sentHello true).st = .sentHello ∧ (hs0 .signAccept false).st = .signAccept) ∧
    (lciph (sHs { keyed0 with retrySf := some 100 } []) (0, 0)).retrySf = some 100 ∧
    ((lciph (sHs keyed0 []) (0, 0)).hs = none ∧ (lciph (sHs keyed0 []) (0, 0)).pendSw = none ∧
      (sHs keyed0 []).ciph.erasing = none ∧ (llink (sHs keyed0 []) (0, 0)).en = true ∧
      ({ sHs keyed0 [] with boot := { (sHs keyed0 []).boot with idState := 1 } } : State).boot.idState = 1) := by
  decide +kernel

def cPend (w : Nat) : LCiph := { keyed0 with pendSw := some (w, key5, key5), drain := some 100, verified := [17] }

theorem test_wit_keysAndAlarms :
    ((lciph (sHs (cPend 101) []) (0, 0)).pendSw = some (101, key5, key5) ∧ (sHs (cPend 101) []).sf < 101) ∧
    ((lciph (sHs (cPend 100) []) (0, 0)).pendSw = some (100, key5, key5) ∧ 100 ≤ (sHs (cPend 100) []).sf) ∧
    ((lciph (sHs (cPend 1) []) (0, 0)).drain = some 100 ∧ 100 ≤ (sHs (cPend 1) []).sf ∧
      ∀ k ∈ rxUp (sHs (cPend 1) []) (0, 0), k.val ∈ (lciph (sHs (cPend 1) []) (0, 0)).verified) ∧
    (∃ k ∈ rxUp (sHs { cPend 1 with verified := [] } []) (0, 0), k.val ∉ ({ cPend 1 with verified := [] } : LCiph).verified) ∧
    ((lciph (sHs keyed0 []) (0, 0)).tx = some key5 ∧ (lciph (sHs keyed0 []) (0, 0)).retrySf = none) := by
  decide +kernel

theorem test_wit_lineAlarm :
    (({ sT with msix := { sT.msix with words := [(92, 0)] } } : State).msix.word 92).getLsbD 0 = false ∧
    (sT.msix.word 92).getLsbD 0 = true := by
  decide +kernel

def sErase (n : Nat) (act : BitVec 4) : State := { sT with sf := 2000, ciph := { sT.ciph with erasing := some n, active := act } }
theorem test_wit_alarms :
    ((sErase 976 0).ciph.erasing = some 976 ∧ (sErase 976 0).ciph.active = 0 ∧ 976 + 1024 ≤ (sErase 976 0).sf) ∧
    ((sErase 977 0).sf < 977 + 1024) ∧ (sErase 1 1).ciph.active ≠ 0 := by
  decide +kernel


/-! ## Witnesses: light -/

def sBay (i : Fin 2) (st : CartSt) (n : Nat) : State :=
  setBay { sT with sf := 200000 } i { Cart.empty with st := st, present := true, lasers := n, sinceSf := 12500 }

theorem test_wit_cartridges :
    ((bay sT 0).st = .empty ∧ sT.mode = some .test ∧ (bay sT 0).present = false) ∧ (bay (sBay 1 .powering 0) 1).st = .powering ∧
    ((bay (sBay 1 .auth 71) 1).st = .auth ∧ (bay (sBay 1 .auth 71) 1).lasers ≠ bayLasers 1 ∧
      (bay (sBay 1 .auth 72) 1).lasers = bayLasers 1 ∧ (bay (sBay 0 .auth 20) 0).lasers = bayLasers 0 ∧
      (bay (sBay 1 .auth 72) 1).sinceSf + 187500 ≤ (sBay 1 .auth 72).sf) ∧
    ((bay (sBay 0 .ready 20) 0).present = true ∧ (bay (sBay 0 .ready 20) 0).st = .ready) ∧
    (Writable (sBay 1 .ready 72) .ccf (.cart 1) ∧ blkState (sBay 1 .ready 72) (.cart 1) ≠ 2 ∧
      blkState (sBay 1 .ready 72) (.cart 1) ≠ 3) ∧ (bay (sBay 0 .releasing 20) 0).st = .releasing ∧
    ((bay (sBay 0 .refused 20) 0).st ≠ .empty ∧ (bay (sBay 0 .refused 20) 0).st ≠ .safe) := by
  unfold Writable; decide +kernel

/-- Fabric laser 19 lit, and half 1 of engine 1 of quadrant 3 on the spare. -/
def sLaser : State :=
  let s := setLaser (setLaser (sBay 0 .ready 20) 0 19 { Laser.absent with st := .lit }) 0 18 { Laser.absent with st := .dark }
  { s with light := { s.light with halves := [((3, 1, 1), 1), ((3, 1, 0), 0)] } }
def sLine72 : State := setLaser (sBay 1 .ready 72) 1 71 { Laser.absent with st := .tuning }

theorem test_wit_lasers :
    ((bay sLaser 0).st = .ready ∧ (19 : Fin 72).val < bayLasers 0 ∧ (laserOf sLaser 0 19).st = .lit ∧
      (fedBy sLaser 19).length = 1) ∧
    ((bay sLine72 1).st = .ready ∧ (71 : Fin 72).val < bayLasers 1 ∧ (laserOf sLine72 1 71).st = .tuning) ∧
    (Writable sLaser .ccf (.fpe 2 1) ∧ (∀ a b, halfOf sLaser 2 a b ≠ 1) ∧ (laserOf sLaser 0 (16 + (2 : Fin 4).val)).st = .dark) ∧
    (Writable sLaser .ccf (.fpe 3 0) ∧ ∃ a b, halfOf sLaser 3 a b = 1) ∧ 18 ≤ 19 := by
  unfold Writable; decide +kernel

/-- Where the certificate functions accept the cartridge, the first case of CART_AUTH_RESPONSE holds. -/
theorem test_wit_cartAuth (chain sig : Bytes) :
    (bay (sBay 1 .auth 72) 1).st = .auth ∧ (bay (sBay 1 .auth 72) 1).lasers = bayLasers 1 ∧
    (Config.cartType chain = 1 → Config.cartType chain = (1 : Fin 2).val) ∧
    ((Config.cartChainValid chain && Config.slhVerify (Config.leafKey chain)
      ((bay (sBay 1 .auth 72) 1).nonce ++ beBytes 8 (bay (sBay 1 .auth 72) 1).serial.toNat ++
        beBytes 8 (sBay 1 .auth 72).boot.serial.toNat) sig) = true ∨
     (Config.cartChainValid chain && Config.slhVerify (Config.leafKey chain)
      ((bay (sBay 1 .auth 72) 1).nonce ++ beBytes 8 (bay (sBay 1 .auth 72) 1).serial.toNat ++
        beBytes 8 (sBay 1 .auth 72).boot.serial.toNat) sig) = false) :=
  ⟨by decide +kernel, by decide +kernel, fun h => h, by cases (_ && _) <;> simp⟩

def ringL (lost : Bool) : Ring := { Ring.none with ring := 19, shift := 300, locked := !lost, lost := lost, fails := 7 }
def sRings (lost : Bool) : State := setRing (setLaser (sLine (slot0 .up .up 64) en0) 1 17 { Laser.absent with st := .lit }) 0 17 1 (ringL lost)

theorem test_wit_rings :
    (Writable (sBay 1 .ready 72) .ccf (.leng 3) ∧ blkState (sBay 1 .ready 72) (.leng 3) ≠ 2 ∧
      blkState (sBay 1 .ready 72) (.leng 3) ≠ 3 ∧ (bay (sBay 1 .ready 72) 1).st = .ready ∧
      (3 : Fin 4) ∉ (sBay 1 .ready 72).light.searching) ∧
    (3 : Fin 4) ∈ (startSearch (sBay 1 .ready 72) 3).light.searching ∧
    ((slotLaser sLine72 3 17).st = .tuning ∧ (3 : Fin 4) ∉ sLine72.light.searching) ∧
    ((ringOf (sRings false) 0 17 1).locked = true ∧ (1 : Fin 4).val < 2 ∧ (lslot (sRings false) 0 17).tx = .up) ∧
    ((ringOf (sRings true) 0 17 1).locked = false ∧ (ringOf (sRings true) 0 17 1).lost = true ∧ lit (sRings true) 0 17 = true ∧
      shiftOk (sRings true) (ringOf (sRings true) 0 17 1) = true ∧ (ringOf (sRings true) 0 17 1).fails + 1 = 8) := by
  unfold Writable; decide +kernel

def sPhy : State :=
  let s := setHalf sT 3 1 1 0
  setPhy s 63 ⟨2, 8, 0, 0, 7⟩

theorem test_wit_fabricRings :
    ((phy sPhy 63).locked.getLsbD 3 = true) ∧
    ((phy sPhy 63).locked.getLsbD 2 = false ∧ halfOf sPhy (portHalf 63).1 (portHalf 63).2.1 (portHalf 63).2.2 ≠ 2 ∧
      (phy sPhy 63).fails = 7) := by
  decide +kernel

def ins0 (w : Nat) (acc early : Bool) : Insert := ⟨4, 17, 16, true, w, 3, acc, acc, false, early, [], [], 0, 0⟩
def sIns (w : Nat) (acc early : Bool) : State := setIns (sLine (slot0 .up .up 64) en0) (0, 0) (ins0 w acc early)

theorem test_wit_spares :
    (insertOf (sIns 101 true false) (0, 0) = some (ins0 101 true false) ∧ (sIns 101 true false).sf < (ins0 101 true false).w ∧
      (∀ k : Fin 18, ((0, 0), k) ∉ (sIns 101 true false).light.waits) ∧ (ins0 101 true false).slot ≠ (ins0 101 true false).spare) ∧
    (insertOf (sIns 100 true false) (0, 0) = some (ins0 100 true false) ∧ (ins0 100 true false).w ≤ (sIns 100 true false).sf ∧
      (ins0 100 true false).accLocal = true ∧ (ins0 100 true false).accPeer = true) ∧
    ((ins0 100 false true).early = true) ∧ ((ins0 100 false false).early = false ∧ (ins0 100 false false).accLocal = false) := by
  decide +kernel

def sOffs (n : Nat) : State :=
  let s := sLine LSlot.reset en0
  { s with light := { s.light with offs := [((0, 17), n)], retries := [((0, 0), 17, n)] } }

theorem test_wit_spareTimes (n : Nat) :
    (sOffs n).light.offs.find? (fun o => o.1 == (0, 17)) = some ((0, 17), n) ∧
    (sOffs n).light.retries.find? (fun r => r.1 == (0, 0) && r.2.1 == 17) = some ((0, 0), 17, n) ∧ (sOffs n).sf = 100 := by
  refine ⟨?_, ?_, rfl⟩ <;> simp [sOffs]

def sRun (r : WrtRun) (sf : Nat) : State := { sT with sf := sf, light := { sT.light with wrt := { Wrt.reset with run := some r } } }
def run0 (restoring : Bool) : WrtRun := ⟨3, [(0, 17)], 24, restoring⟩
/-- Entry (0, 0) of bank 3 holds a code above 8. -/
def sMap : State := withReg sT .wrt 0x48 3 9

theorem test_wit_router :
    (Writable sT .ccf .wrt ∧ sT.light.wrt.run = none ∧ mapRefusal sT 3 = none ∧ Writable sMap .ccf .wrt ∧
      mapRefusal sMap 3 = some (1, 0, 0)) ∧
    ((sRun (run0 false) 600).light.wrt.run = some (run0 false) ∧ (run0 false).restoring = false ∧ 24 + 576 ≤ (sRun (run0 false) 600).sf) ∧
    (anySlot (sRun (run0 false) 600) [.active, .next] = false ∧
      anySlot { sCell Cell.free with light := (sRun (run0 false) 600).light } [.active, .next] = true) ∧
    (24 + 513 ≤ (sRun (run0 false) 537).sf) ∧ ((sRun (run0 false) 536).sf < 24 + 513) ∧ (run0 true).restoring = true := by
  unfold Writable; decide +kernel


/-! ## Witnesses: queues, audits -/

def eg0 (b : Body) : EgPkt := ⟨.mgmt, b, 100, 3⟩
def cmd0 : Body := .cmd ⟨9, 5, 47444, 4000, false, 0⟩ nopP
def sQueue (q : Fin 32) (b : Body) : State :=
  let s := setEgQ (setPhy (withReg sT (.tm 3) 0x50 q.val 1) 63 ⟨2, 15, 0, 0, 0⟩) 63 q ⟨[eg0 b], [], 1, 100, 0, 0, 0⟩
  { s with rr := [(63, q)] }

theorem test_wit_egress :
    (phy sT 63).link ≠ 2 ∧ ((phy (sQueue 3 cmd0) 63).link = 2 ∧ (∀ r, (egQ (sQueue 3 cmd0) 63 r).waiting = []) ∧
      (egQ (sQueue 3 cmd0) 63 3).pkts = [eg0 cmd0] ∧ sendable (sQueue 3 cmd0) 63 3 = true ∧
      ∀ r : Fin 32, r.val < 4 → r < 3 → sendable (sQueue 3 cmd0) 63 r = false) ∧
    ((∀ r, (egQ (sQueue 31 cmd0) 63 r).waiting = []) ∧ (egQ (sQueue 31 cmd0) 63 31).pkts = [eg0 cmd0] ∧
      sendable (sQueue 31 cmd0) 63 31 = true ∧ mget (sQueue 31 cmd0).rr 63 3 = 31 ∧ 0 < queueWeight (sQueue 31 cmd0) 63 31 ∧
      (eg0 cmd0).wire ≤ (egQ (sQueue 31 cmd0) 63 31).deficit ∧
      ∀ r : Fin 32, r.val < 4 → r < 31 → sendable (sQueue 31 cmd0) 63 r = false) ∧
    ((phy (setPhy sT 63 ⟨2, 15, 0, 0, 0⟩) 63).link = 2 ∧ (∀ r, (egQ (setPhy sT 63 ⟨2, 15, 0, 0, 0⟩) 63 r).waiting = []) ∧
      ∀ r, sendable (setPhy sT 63 ⟨2, 15, 0, 0, 0⟩) 63 r = false) := by
  decide +kernel

theorem test_wit_egress_body : ∀ n m, cmd0 ≠ .ptp n m := by intro n m h; cases h

theorem test_wit_refillAndSamples :
    (mget? (sQueue 3 cmd0).egress (63, 3)).isSome = true ∧ (mget? ({ sT with police := [((0, 1), 5)] } : State).police (0, 1)).isSome = true ∧
    sT.refills % 2 ^ fldV sT (fportOf 63) 0x64 3 0 = 0 ∧ Writable sT .host (fportOf 63) := by
  unfold Writable; decide +kernel

def heldRec : HeldInput := ⟨3, cRec 2, .record site0 (rcd 2 1 2 1 0 (crc64 v8) v8), none, true⟩
def sRetry : State :=
  let s := sDesc (dRec 2) Cell.free
  { s with coll := { s.coll with held := [heldRec] } }

theorem test_wit_trayRetry :
    ((cellOf (sRec 2 []) (3 : Fin 16384).val).st ≠ .free) ∧
    ((cellOf sRetry (3 : Fin 16384).val).st = .free ∧ sRetry.plans.opens = [] ∧ attempt sRetry (cRec 2) = .now ∧
      sRetry.coll.held = [⟨(3 : Fin 16384).val, cRec 2, .record site0 (rcd 2 1 2 1 0 (crc64 v8) v8), none, true⟩]) := by
  decide +kernel

def sAudit (sf : Nat) (g : Ledger) : State := { withReg sT .ledger 0x44 0 1 with sf := sf, ledger := g }

theorem test_wit_audits :
    ((sAudit 2048 Ledger.reset).mode = some .test ∧ (sAudit 2048 Ledger.reset).sf % 1024 = 0 ∧
      (sAudit 2048 Ledger.reset).ledger.atSf ≠ some 2048 ∧ fldV (sAudit 2048 Ledger.reset) .ledger 0x44 0 0 = 1 ∧
      (sAudit 2048 Ledger.reset).ledger.running = none) ∧
    ((sAudit 2048 { Ledger.reset with running := some 1024 }).ledger.running ≠ none) ∧ (sAudit 2047 Ledger.reset).sf % 1024 ≠ 0 ∧
    ((sAudit 2050 { Ledger.reset with running := some 2048 }).ledger.running = some 2048 ∧
      (sAudit 2050 { Ledger.reset with running := some 2048 }).ledger.fails = []) ∧
    (sAudit 2050 { Ledger.reset with running := some 2048, fails := [(2, 3, 0)] }).ledger.fails = (2, 3, 0) :: [] ∧
    (pageUp sT (.tile 63) = true ∧ (3 : Fin 4) ≠ 1) := by
  decide +kernel

theorem test_wit_jobDrop :
    (Writable sT .host .tpool ∧ sT.plans.slot0.st = .empty ∧ sT.plans.slot1.st = .empty) ∧
    (Writable (sRec 2 []) .host .tpool ∧ (sRec 2 []).plans.slot0.st ≠ .empty ∧
      ((sRec 2 []).plans.slot0.plan.map (·.job)) = some ((1 : BitVec 16).toNat)) := by
  unfold Writable; decide +kernel


/-! ## Witnesses: time -/

/-- A gateway whose line time has a state, with PRIO 7 and one slot on which headers of the domain come. -/
def hIn : HdrIn := ⟨99, 99, 2, 2, 98, 5, 7, 99, 0, 0, 3, 4, { time0 with domain := 0x8000 }⟩
def sTime (lt : Lt) : State :=
  let s := sLine { slot0 .up .up 64 with last := some hIn } en0
  { withReg s .time 0x50 0 7 with lt := lt }
def lt0 (st : LtSt) (n : Nat) : Lt := { Lt.reset with st := st, lossSf := some n, quietSf := some n }

theorem test_wit_lineTime :
    ((sTime (lt0 .locked 5)).lt.st = .locked ∧ (sTime (lt0 .locked 5)).lt.lossSf = some 5) ∧ (sTime (lt0 .free 5)).lt.st ≠ .locked ∧
    (let s := { sTime (lt0 .holdover 0) with sf := 100 }
     let v := withReg s .time 0x6C 0 (BitVec.ofNat 32 (100 * 65536))
     v.lt.quietSf = some 0 ∧ v.lt.st = .holdover ∧ ltPrio v < 255 ∧ qualHeaders v ≠ [] ∧ 0 + fldV v .time 0x6C 31 16 ≤ v.sf) ∧
    ((sTime (lt0 .locked 5)).lt.st ≠ .free ∧ (sTime (lt0 .locked 5)).lt.st ≠ .holdover) ∧
    (Writable (sTime (lt0 .locked 5)) .ccf .time ∧ fldV (sTime (lt0 .locked 5)) .time 0x50 7 0 < 255) ∧
    (Writable (sTime (lt0 .free 5)) .ccf .time ∧ blkState sT .time ≠ 2 ∧ blkState sT .time ≠ 3 ∧ Writable sT .ccf .time) ∧
    pageUp sT .time = true := by
  unfold Writable; decide +kernel

def sStamp (n : Nat) : State := { sT with tsq := [(63, ⟨List.replicate n ⟨9, 5, 127999⟩, false⟩)] }

theorem test_wit_stamps :
    (pageUp (sStamp 1) (fportOf 63) = true ∧ (tsqOf (sStamp 1) 63).ents = ⟨9, 5, 127999⟩ :: []) ∧ Writable sT .ccf (fportOf 63) := by
  unfold Writable; decide +kernel

def ptpM (seq : Nat) : PtpMsg := ⟨2, 1, 0, seq, true, 500, [1]⟩
def sPtp : State :=
  let s := setPage (setPage sT (.tm 3) { Page.reset with enable := true }) (fportOf 63) { Page.reset with enable := true }
  let s := withReg (withReg s .time 0x80 0 0x100) (fportOf 63) 0x100 0 1
  { s with ptp := { s.ptp with port := some 63, twoStep := true, syncSeq := 4, reqSeq := 5, t1 := some 1, t2 := some 2, t3 := some 3,
                               valid := true } }

theorem test_wit_ptp :
    (ptpFor sPtp 63 (ptpM 4) = true ∧ sPtp.ptp.port = some 63 ∧ sPtp.ptp.twoStep = true ∧ (ptpM 4).seq = sPtp.ptp.syncSeq) ∧
    ((ptpM 5).seq = sPtp.ptp.reqSeq ∧ sPtp.ptp.t3.isSome = true ∧ sPtp.ptp.t1.isSome = true ∧ sPtp.ptp.t2.isSome = true) ∧
    ptpFor sT 63 (ptpM 4) = false ∧
    (fldV sPtp .time 0x80 8 8 = 1 ∧ fldV sPtp (fportOf 63) 0x100 0 0 = 1 ∧
      (egQ sPtp 63 (queueOf sPtp (quadOf 63) .ptp)).waiting = [] ∧
      egTakes sPtp 63 (queueOf sPtp (quadOf 63) .ptp) (wireSize true false 44) = true) := by
  decide +kernel

def sPtpOut (n : Nat) : State := { sQueue 0 (.ptp 9 1) with tsq := [(63, ⟨List.replicate n ⟨9, 5, 0⟩, false⟩)] }

theorem test_wit_ptpStamp :
    ((phy (sPtpOut 31) 63).link = 2 ∧ (∀ r, (egQ (sPtpOut 31) 63 r).waiting = []) ∧
      (egQ (sPtpOut 31) 63 0).pkts = [eg0 (.ptp 9 1)] ∧ (eg0 (.ptp 9 1)).body = .ptp 9 1 ∧ (0 : Fin 32).val < 4 ∧
      sendable (sPtpOut 31) 63 0 = true ∧ (∀ r : Fin 32, r < 0 → sendable (sPtpOut 31) 63 r = false) ∧
      (tsqOf (sPtpOut 31) 63).ents.length < 32) ∧ 32 ≤ (tsqOf (sPtpOut 32) 63).ents.length := by
  decide +kernel

/-- Pulse output 15: enabled, periodic, active high, START at superframe 100 and 7,999 ns. -/
def sPulse (o : Fin 16) (en : Bool) : State :=
  let s := withReg { sT with sf := 100, lt := { sT.lt with st := .master } } .tio 0x44 o.val (if en then 7 else 6)
  let s := withReg (withReg s .tio 0x48 o.val 100) .tio 0x50 o.val 7999
  { s with tio := { s.tio with since := [(o, 99)], ends := [(o, (800000, false))] } }

theorem test_wit_pulses :
    ((sPulse 15 true).lt.st ≠ .free ∧ plsF (sPulse 15 true) 15 0x44 0 0 = 1 ∧ plsF (sPulse 15 true) 15 0x44 3 3 = 0 ∧
      plsF (sPulse 15 true) 15 0x44 1 1 = 1 ∧ (15 : Fin 16) ∉ (sPulse 15 true).tio.fired ∧
      (((plsF (sPulse 15 true) 15 0x4C 31 0 * 2 ^ 32 + plsF (sPulse 15 true) 15 0x48 31 0) * 8000 +
        plsF (sPulse 15 true) 15 0x50 31 0 + 0 * plsF (sPulse 15 true) 15 0x54 31 0) / 8000 = (sPulse 15 true).sf) ∧
      mget (sPulse 15 true).tio.since 15 0 * 8000 + 1000 ≤ 807999) ∧
    (mget? (sPulse 15 true).tio.ends 15 = some ((800000 : Int), false) ∧ 800000 / 8000 = (sPulse 15 true).sf) ∧
    plsF (sPulse 15 false) 15 0x44 0 0 = 0 := by
  decide +kernel

def sEvt (n v : Nat) : State :=
  { withReg (withReg sT .tio 0x64 3 (BitVec.ofNat 32 v)) .tio 0x60 0 3 with
    tio := { sT.tio with evts := [(3, ⟨List.replicate n ⟨1, 5, 0⟩, false⟩)] } }

theorem test_wit_timingInputs :
    fldB (sEvt 0 0) .tio 0x64 (3 : Fin 4).val 0 0 = 0 ∧
    (fldB (sEvt 15 5) .tio 0x64 (3 : Fin 4).val 0 0 = 1 ∧ fldB (sEvt 15 5) .tio 0x64 (3 : Fin 4).val 2 1 = 2 ∧
      (evtOf (sEvt 15 5) 3).ents.length < 16) ∧ 16 ≤ (evtOf (sEvt 16 5) 3).ents.length ∧
    (Writable (sEvt 16 5) .ccf .tio ∧ fldV (sEvt 16 5) .tio 0x60 1 0 = (3 : Fin 4).val ∧
      fld (regAccepted (pageOf (sEvt 16 5) .tio) .tio 0x60 0).toNat 1 0 = (3 : Fin 4).val ∧
      fld (regAccepted (pageOf (sEvt 16 5) .tio) .tio 0x64 (3 : Fin 4).val).toNat 2 1 ≤ 2) ∧
    Writable sT .ccf (.launch 3) := by
  unfold Writable; decide +kernel

/-- A launch of a record of the instance at superframe 100, slot 63, on the line or on the fabric. -/
def lch (line late : Bool) : Launch := ⟨0, line, 0, 0, 3, cRec 2, 0, 2, 100, 63, late⟩
def sLaunchAt (sf : Nat) (l : Launch) : State :=
  let s := sDesc (dRec 2) { cellR 2 [] with ready := [((0, 2), [rcd 2 1 2 1 0 (crc64 v8) v8])] }
  { s with sf := sf, lt := { s.lt with st := .master }, plans := { s.plans with launches := [l] } }
def launchCase (sf ns : Nat) (l : Launch) : Bool :=
  let s := sLaunchAt sf l
  s.plans.launches[0]? == some l && findInst s l.ciid == some (xOf (dRec 2)) && (cellOf s l.cell).ciid == l.ciid &&
  mget (cellOf s l.cell).ready (l.shard, l.level) [] == [rcd 2 1 2 1 0 (crc64 v8) v8] && s.lt.st != .free && decide (ns < 8000)

theorem test_wit_launchFire :
    (launchCase 100 7874 (lch false false) = true ∧ 100 * 8000 + 7874 < 100 * 8000 + 63 * 125) ∧
    (launchCase 100 7875 (lch false false) = true ∧ isErr ({ cellR 2 [] with st := .timeout } : Cell).st = true ∧
      isErr (cellOf (sLaunchAt 100 (lch false false)) 3).st = false ∧ (lch false false).late = false) ∧
    (launchCase 100 7975 (lch false false) = true ∧ 100 * 8000 + 7975 ≤ 100 * 8000 + 63 * 125 + 100) ∧
    (launchCase 101 275 (lch true false) = true ∧ 101 * 8000 + 275 ≤ 100 * 8000 + 63 * 125 + 400) ∧
    (launchCase 101 276 (lch true false) = true ∧ 100 * 8000 + 63 * 125 + 400 < 101 * 8000 + 276) := by
  decide +kernel


/-! ## Witnesses: recovery -/

/-- A recovery message of gateway 67, sealed. -/
def rcvM (kind level serial subject arg sf value : Nat) (c : BitVec 64) : Rcv :=
  sealRcv { mkind := BitVec.ofNat 8 kind, mver := 1, srcGw := 67, dstGw := 66, ttl := 1, level := BitVec.ofNat 8 level,
            serial := BitVec.ofNat 32 serial, code := 0, ciid := c, subjectGw := BitVec.ofNat 16 subject,
            arg := BitVec.ofNat 8 arg, rsvd1 := 0, sf := BitVec.ofNat 64 sf, value := BitVec.ofNat 64 value, matrix := 0,
            rsvd2 := 0, check := 0 }
def badRcv : Rcv := { rcvM 0x14 0 1 0 0 0 0 0 with check := 0 }
def cStep : BitVec 64 := mkCiid 1 5 0 0

def jobOne (r : JobRec) (s : State) : State := { s with rseq := { s.rseq with jobs := [(1, r)] } }
/-- The state a recovery message for the master is acted on, and one for every gateway. -/
def rcvUpAt (m : Rcv) (s : State) : State := noted (takeMsg s site0 (.rcv m)).1 m
def rcvDownAt (m : Rcv) (s : State) : State := (relayed m).elim (rcvUpAt m s) (fun q => flood (rcvUpAt m s) (.rcv q) site0)

/-- The message arrives for the first time and meets its table. -/
def comes (m : Rcv) (s : State) : Bool :=
  (takeMsg s site0 (.rcv m)).2 && rcvOk m &&
  !(takeMsg s site0 (.rcv m)).1.rseq.dups.contains (m.srcGw.toNat, m.mkind.toNat, m.serial.toNat)
def actsUp (m : Rcv) (s : State) : Bool :=
  comes m s && (rcvUpAt m s).lt.st == .master && quorum (rcvUpAt m s)

theorem rcvIn_of {m : Rcv} {s : State} (h : comes m s = true) : RcvIn s site0 m (rcvUpAt m s) := by
  simp only [comes, Bool.and_eq_true, Bool.not_eq_true'] at h
  exact ⟨h.1.1, h.1.2, .inr (fun c => by simp [c] at h), rfl⟩

theorem rcvUp_of {m : Rcv} {s : State} (h : actsUp m s = true) : RcvUp s site0 m (rcvUpAt m s) := by
  simp only [actsUp, Bool.and_eq_true, beq_iff_eq] at h
  exact ⟨rcvIn_of h.1.1, h.1.2, .inl h.2⟩

theorem rcvDown_of {m : Rcv} {s : State} (h : comes m s = true) : RcvDown s site0 m (rcvDownAt m s) :=
  ⟨_, rcvIn_of h, rfl⟩

theorem test_wit_recovery_form :
    ((takeMsg sT site0 (.rcv badRcv)).2 = true ∧ rcvOk badRcv = false ∧ badRcv.mkind = 0x14) ∧
    ((takeMsg { sT with rseq := { sT.rseq with dups := [(67, 0x11, 7)] } } site0 (.rcv (rcvM 0x11 3 7 0 0 0 0 cStep))).2 = true ∧
      rcvOk (rcvM 0x11 3 7 0 0 0 0 cStep) = true ∧
      (takeMsg { sT with rseq := { sT.rseq with dups := [(67, 0x11, 7)] } } site0 (.rcv (rcvM 0x11 3 7 0 0 0 0 cStep))).1.rseq.dups.contains
        ((rcvM 0x11 3 7 0 0 0 0 cStep).srcGw.toNat, (rcvM 0x11 3 7 0 0 0 0 cStep).mkind.toNat,
          (rcvM 0x11 3 7 0 0 0 0 cStep).serial.toNat) = true) := by
  decide +kernel

def reqM : Rcv := rcvM 0x10 3 7 66 0 0 0 cStep
def doneM : Rcv := rcvM 0x12 3 9 66 0 0 6 cStep
def recOf (level : Nat) : JobRec := { JobRec.none with level := level, serial := 9, step := 5, count := 1 }

theorem test_wit_recovery_master :
    actsUp (rcvM 0x14 0 7 0 0 0 3 0) (sMaster []) = true ∧
    (actsUp reqM (sMaster []) = true ∧ reqM.mkind = 0x10 ∧ reqM.code = 0 ∧ reqM.level = 3 ∧ namesStep reqM.ciid = true ∧
      covered (noteAttempt (rcvUpAt reqM (sMaster [])) 67 reqM.ciid) 1 (jobRec (noteAttempt (rcvUpAt reqM (sMaster [])) 67 reqM.ciid) 1)
        reqM.ciid = false ∧ (jobRec (rcvUpAt reqM (sMaster [])) 1).level = 0 ∧
      rollFrom (noteAttempt (rcvUpAt reqM (sMaster [])) 67 reqM.ciid) 1 reqM.ciid = 5 ∧
      1 ≤ fldV (rcvUpAt reqM (sMaster [])) .rseq 0x4C 7 0 ∧
      mget (jobRec (noteAttempt (rcvUpAt reqM (sMaster [])) 67 reqM.ciid) 1).maxCount 5 0 = 0 ∧
      ownCount (noteAttempt (rcvUpAt reqM (sMaster [])) 67 reqM.ciid) 1 5 = 0) ∧
    (actsUp reqM (jobOne { recOf 0 with cover := [(5, 5, 1)] } (sMaster [])) = true ∧
      (covered (noteAttempt (rcvUpAt reqM (jobOne { recOf 0 with cover := [(5, 5, 1)] } (sMaster []))) 67 reqM.ciid) 1
        (jobRec (noteAttempt (rcvUpAt reqM (jobOne { recOf 0 with cover := [(5, 5, 1)] } (sMaster []))) 67 reqM.ciid) 1)
        reqM.ciid = true)) ∧
    (actsUp reqM (jobOne (recOf 3) (sMaster [])) = true ∧ 3 ≤ (jobRec (rcvUpAt reqM (jobOne (recOf 3) (sMaster []))) 1).level) := by
  decide +kernel

/-- The master with gateways 66 and 67 ACTIVE. -/
def sTwoGws : State :=
  let s := jobOne (recOf 3) (sMaster [])
  let s := withReg (withReg s .rseq 0x64 66 1) .rseq 0x64 67 1
  { s with rseq := { s.rseq with live := [(66, (10, 0)), (67, (10, 0))] } }

theorem test_wit_recovery_done :
    (actsUp doneM (jobOne (recOf 3) (sMaster [])) = true ∧ doneM.mkind = 0x12 ∧
      (jobRec (rcvUpAt doneM (jobOne (recOf 3) (sMaster []))) 1).serial = doneM.serial.toNat ∧
      (jobRec (rcvUpAt doneM (jobOne (recOf 3) (sMaster []))) 1).waiting = [] ∧
      (∀ c ∈ (rcvUpAt doneM (jobOne (recOf 3) (sMaster []))).commits, c.job ≠ 1) ∧
      doneM.mkind = 0x12 ∧ (recOf 2).level < 3 ∧
      ∃ d : PMap Nat Nat, ∀ x ∈ awaited (rcvUpAt doneM (jobOne { recOf 3 with done := d } (sMaster [])))
        { recOf 3 with done := d }, x = 67 ∨ (mget? d x).isSome = true) ∧
    (actsUp doneM sTwoGws = true ∧ ∃ x ∈ awaited (rcvUpAt doneM sTwoGws) (recOf 3), x ≠ 67 ∧ mget? (recOf 3).done x = none) := by
  refine ⟨⟨by decide +kernel, by decide +kernel, by decide +kernel, by decide +kernel, by decide +kernel, by decide,
      by decide, [(66, 6)], by decide +kernel⟩, by decide +kernel,
    66, by decide +kernel, by decide, by decide⟩

def proveAt (d : PMap (Nat × Nat × Nat × Nat) Nat) : Prove := { Prove.none with subject := 67, phase := 3, incumbent := 68, digests := d }
def sProve (p : Prove) : State := { sMaster [] with rseq := { (sMaster []).rseq with prove := p } }
def digM : Rcv := rcvM 0x16 0 7 67 3 0 4 cStep

theorem test_wit_recovery_prove :
    (actsUp digM (sProve (proveAt [])) = true ∧ digM.mkind = 0x16 ∧ digM.arg = 3 ∧
      digestAt (rcvUpAt digM (sProve (proveAt []))).rseq.prove 68 (2 ^ 32) 5 0 = none) ∧
    (actsUp digM (sProve (proveAt [((68, 3, 5, 0), 9)])) = true ∧ (9 : Nat) ≠ digM.value.toNat) := by
  decide +kernel

def recM (serial n : Nat) : Rcv := rcvM 0x11 3 serial 66 0 0 0 (mkCiid 1 5 0 n)
def lastD (serial : Nat) : State := { sCell cellG with rseq := { (sCell cellG).rseq with serial := 7, lastDone := [(1, rcvM 0x12 3 serial 0 0 0 0 0)] } }

theorem test_wit_recovery_recover :
    (comes (recM 6 1) (lastD 7) = true ∧ (recM 6 1).serial.toNat < (rcvDownAt (recM 6 1) (lastD 7)).rseq.serial) ∧
    (comes (recM 7 1) (lastD 7) = true ∧ (rcvDownAt (recM 7 1) (lastD 7)).rseq.serial ≤ (recM 7 1).serial.toNat ∧
      mget? (rcvDownAt (recM 7 1) (lastD 7)).rseq.lastDone 1 = some (rcvM 0x12 3 7 0 0 0 0 0) ∧
      (rcvM 0x12 3 7 0 0 0 0 0).serial = (recM 7 1).serial ∧ (jobOf (rcvDownAt (recM 7 1) (lastD 7)) 1).restore = []) ∧
    (comes (recM 8 1) (lastD 7) = true ∧ mget? (rcvDownAt (recM 8 1) (lastD 7)).rseq.lastDone 1 = some (rcvM 0x12 3 7 0 0 0 0 0) ∧
      (rcvM 0x12 3 7 0 0 0 0 0).serial ≠ (recM 8 1).serial ∧ (recM 8 1).level = 3 ∧
      replayOf (rcvDownAt (recM 8 1) (lastD 7)) 1 5 ≤ ciidReplay (recM 8 1).ciid ∧
      (rcvDownAt (recM 8 1) (lastD 7)).coll.held = [] ∧ (rcvDownAt (recM 8 1) (lastD 7)).plans.opens = []) ∧
    (comes (rcvM 0x11 4 8 66 0 0 0 (mkCiid 1 5 0 1)) (lastD 7) = true ∧
      (rcvM 0x11 4 8 66 0 0 0 (mkCiid 1 5 0 1)).subjectGw.toNat = gw (rcvDownAt (rcvM 0x11 4 8 66 0 0 0 (mkCiid 1 5 0 1)) (lastD 7))) := by
  decide +kernel

theorem test_wit_recovery_resume :
    (comes (rcvM 0x13 3 7 0 0 200 6 cStep) (lastD 7) = true ∧ (rcvDownAt (rcvM 0x13 3 7 0 0 200 6 cStep) (lastD 7)).sf < 200) ∧
    (comes (rcvM 0x13 3 7 0 0 0 6 cStep) (lastD 7) = true ∧ 0 ≤ (rcvDownAt (rcvM 0x13 3 7 0 0 0 6 cStep) (lastD 7)).sf) ∧
    (comes (rcvM 0x15 0 7 2047 3 0 9 0) sT = true ∧ (rcvM 0x15 0 7 2047 3 0 9 0).subjectGw.toNat < 2048) := by
  decide +kernel

/-- A plan whose step 5 has words for tile 0 and no descriptors, at the superframe of its resumption. -/
def res0 (rz : Nat) : Resume := ⟨1, 5, 1, rz, 5⟩
def planR : Plan := { (xOf d0).plan with steps := [⟨5, [], 0, 0, [wEnd]⟩], tileMask := 1 }
def sResume (rz : Nat) : State :=
  let s := setPage (sDesc d0 Cell.free) (.tile 0) { Page.reset with enable := true }
  { s with sf := 50, rseq := { s.rseq with resumes := [res0 rz], halted := [1] },
           plans := { s.plans with slot0 := { s.plans.slot0 with st := .active, plan := some planR } } }

theorem test_wit_recovery_rz :
    ((sResume 51).rseq.resumes = [res0 51] ∧ (res0 51).job = (1 : BitVec 16).toNat ∧ (res0 51).step < 2 ^ 24 ∧ (sResume 51).sf < 51) ∧
    (50 ≤ (sResume 50).sf ∧ (sResume 50).coll.held = [] ∧ (sResume 50).plans.slot0.plan = some planR ∧ planR.job = (res0 50).job ∧
      (sResume 50).plans.slot0.st = .active ∧ (sResume 50).plans.slot0.stopping = false ∧ (sResume 50).plans.slot1.plan = none ∧
      planR.stepOf 5 = some ⟨5, [], 0, 0, [wEnd]⟩ ∧
      outerWaits (sResume 50) planR ⟨5, [], 0, 0, [wEnd]⟩ = false ∧ bit planR.tileMask (0 : Fin 64).val = true ∧ ([wEnd] : List _).getD (0 : Fin 64).val [] ≠ [] ∧
      (pageOf (sResume 50) (.tile 0)).enable = true ∧ (pageOf (sResume 50) (.tile 0)).quiesce = false ∧
      (pageOf (sResume 50) (.tile 0)).halted = false ∧ (pageOf (sResume 50) (.tile 0)).quarantined = false) := by
  decide +kernel

def sPhase (sf : Nat) : State := { sProve { Prove.none with subject := 67, phase := 1, startSf := 10 } with sf := sf }
theorem test_wit_watch_prove :
    ((sPhase (10 + 2 ^ fldV sT .rseq 0x50 4 0)).rseq.prove.phase = 1 ∧
      10 + 2 ^ fldV (sPhase (10 + 2 ^ fldV sT .rseq 0x50 4 0)) .rseq 0x50 4 0 ≤ (sPhase (10 + 2 ^ fldV sT .rseq 0x50 4 0)).sf) ∧
    (sPhase 10).sf < 10 + 2 ^ fldV (sPhase 10) .rseq 0x50 4 0 ∧ sT.rseq.prove.phase ≠ 1 := by
  decide +kernel

/-- A master of three gateways at superframe 5000 which has not heard 68. -/
def sWatch : State :=
  let s := withReg (jobOne (recOf 3) (sMaster [])) .rseq 0x64 66 1
  let s := withReg (withReg s .rseq 0x64 67 1) .rseq 0x64 68 1
  { s with sf := 2 ^ 31, rseq := { s.rseq with live := [(66, (2 ^ 31, 0)), (67, (2 ^ 31, 0))], watchSf := some (2 ^ 31 - 4096) } }

theorem test_wit_watch_live :
    (quorum sWatch = true ∧ sWatch.rseq.watchSf = some (2 ^ 31 - 4096) ∧ 2 ^ 31 - 4096 + 4096 ≤ sWatch.sf ∧ (68 : Fin 2048).val ≠ gw sWatch ∧
      (68 : Fin 2048).val ∈ activeGws sWatch ∧ (68 : Fin 2048).val ∉ sWatch.rseq.lost ∧ isLive sWatch 68 = false ∧ isLive sWatch 67 = true) ∧
    (3 ≤ (jobRec sWatch (1 : BitVec 16).toNat).level ∧ (68 : Fin 2048).val ∈ awaited sWatch (jobRec sWatch 1) ∧
      mget? (jobRec sWatch 1).done 68 = none ∧ (jobRec sWatch 1).startSf + 2 ^ fldV sWatch .rseq 0x50 4 0 ≤ sWatch.sf) ∧
    (sMaster []).sf < (jobRec (sMaster []) 1).startSf + 2 ^ fldV (sMaster []) .rseq 0x50 4 0 := by
  decide +kernel

def owed0 (silent : Bool) : OwedChunk := ⟨0, [1], none, true, 8, 0, false, silent⟩
def sSilent (silent : Bool) : State :=
  { sCell { cellG with st := .complete, bound := [(1, (.win 1, 0))], deliv := [(1, [owed0 silent])] } with sf := 2 ^ 31 }
def sHeld : State :=
  let s := sT
  { s with rseq := { s.rseq with heldSf := [(1, 5)] }, plans := { s.plans with slot1 := { Slot.empty with st := .held } } }

theorem test_wit_watch_consumer :
    ((cellOf (sSilent true) (3 : Fin 16384).val).st = .complete ∧ (cellOf (sSilent true) 3).deliv = [(1, [owed0 true])] ∧
      mget? (cellOf (sSilent true) 3).bound 1 = some (.win 1, 0) ∧ (owed0 true).silent = true ∧ (owed0 true).acked = false ∧
      (owed0 true).sf + 2 ^ fldV (sSilent true) .rseq 0x50 28 24 ≤ (sSilent true).sf) ∧ (owed0 false).silent ≠ true ∧
    (mget? sHeld.rseq.heldSf (1 : Fin 2).val = some 5 ∧ (slotOf sHeld (1 : Fin 2).val).st = .held) := by
  decide +kernel

theorem test_wit_watch_commands :
    (Writable (sMaster []) .ccf .rseq ∧ (sMaster []).lt.st = .master) ∧ Writable sT .ccf .elog ∧
    (Writable (withReg sT .rseq 0x60 0 2047) .ccf .rseq ∧ fldV (withReg sT .rseq 0x60 0 2047) .rseq 0x60 10 0 = 2047 ∧
      fld (regAccepted (pageOf (withReg sT .rseq 0x60 0 2047) .rseq) .rseq 0x60 0).toNat 10 0 = 2047 ∧
      fld (regAccepted (pageOf (withReg sT .rseq 0x60 0 2047) .rseq) .rseq 0x64 2047).toNat 1 0 = 0) ∧
    (sT.mode = some .test ∧ (pageOf sT (.tile 63)).quarantined = false) ∧ State.reset.mode ≠ some .test := by
  unfold Writable; decide +kernel


/-! ## Witnesses: images, modes, power, counters -/

def bareS (b : Boot) : State := { State.reset with mode := some .bare, boot := b }
/-- BARE with an identity and regulation. -/
def boot1 : Boot := { Boot.reset with reg := true, vin := true, idState := 1 }
def sq1 : Via := .window 1
def imgP (op aux idx cnt : Nat) (l : Bytes) : Packet :=
  pkt { Header.zero with opcode := BitVec.ofNat 8 op, vc := 3, aux := BitVec.ofNat 8 aux, chunkIndex := BitVec.ofNat 32 idx,
                         chunkCount := BitVec.ofNat 32 cnt } l
def goP (m : Nat) : Packet := pkt { Header.zero with opcode := 0x72, vc := 3, arg0 := BitVec.ofNat 32 m } []
def stagedB (k : Nat) (b : LoadBuf) : Boot := { boot1 with staged := [(k, b)] }

theorem test_wit_imageWrites :
    (Acc sT w0 (imgP 0x70 1 0 1 [1]) ∧ (imgP 0x70 1 0 1 [1]).hdr.aux ≠ 7 ∧ (served sT w0 (imgP 0x70 1 0 1 [1])).mode ≠ some .bare) ∧
    (Acc (bareS boot1) sq1 (imgP 0x70 1 0 1 [1]) ∧ (served (bareS boot1) sq1 (imgP 0x70 1 0 1 [1])).mode = some .bare) ∧
    (Acc (bareS (stagedB 1 ⟨2, [(0, [1])], []⟩)) sq1 (imgP 0x70 1 1 2 [1]) ∧
      (mget (served (bareS (stagedB 1 ⟨2, [(0, [1])], []⟩)) sq1 (imgP 0x70 1 1 2 [1])).boot.staged 1 LoadBuf.none).count = 2) ∧
    (Acc (bareS (stagedB 1 ⟨1, [(0, [1])], []⟩)) sq1 (imgP 0x71 1 0 0 []) ∧
      containerBad 1 ⟨1, [(0, [1])], []⟩ [1] ≠ 0) :=
  ⟨⟨acc_of (by decide +kernel), by decide +kernel⟩, ⟨acc_of (by decide +kernel), by decide +kernel⟩,
    ⟨acc_of (by decide +kernel), by decide +kernel⟩, ⟨acc_of (by decide +kernel), by decide +kernel⟩⟩

theorem test_wit_bootGo :
    (Acc (bareS boot1) sq1 (goP 1) ∧ (served (bareS boot1) sq1 (goP 1)).mode = some .bare ∧
      mget? (served (bareS boot1) sq1 (goP 1)).boot.objs 1 = none) ∧
    (Acc sT w0 (imgP 0x73 0 0 0 []) ∧ Acc sT w0 (imgP 0x75 0 0 0 []) ∧ Acc (bareS boot1) sq1 (imgP 0x74 0 0 0 [])) :=
  ⟨⟨acc_of (by decide +kernel), by decide +kernel⟩, acc_of (by decide +kernel), acc_of (by decide +kernel), acc_of (by decide +kernel)⟩

def sGoing (m : Option Mode) : State := bareS { boot1 with going := some .service, stage := 4 } |> fun s => { s with mode := m }
theorem test_wit_modeEntry :
    ((sGoing (some .bare)).boot.going = some .service ∧ (sGoing (some .bare)).mode = some .bare ∧ sq1Waits (sGoing (some .bare)) = false ∧
      (sGoing (some .bare)).cpw.held = [] ∧ sRing.cpw.held ≠ [] ∧
      61 ≤ (61 : BitVec 16).toNat ∧ Mode.service ≠ .bare) ∧ (sGoing (some .test)).mode ≠ some .bare ∧ (60 : BitVec 16).toNat < 61 := by
  decide +kernel

def darkS (b : Boot) : State := { State.reset with boot := b }
theorem test_wit_power :
    (sGoing none).boot.vin = true ∧ State.reset.boot.vin = false ∧
    ((darkS { Boot.reset with vin := true }).boot.vin = true ∧ (darkS { Boot.reset with vin := true }).boot.fuse = false ∧
      (darkS { Boot.reset with vin := true }).boot.trip = false ∧ (darkS { Boot.reset with vin := true }).boot.reg = false ∧
      helperOk [] = false) ∧
    (sT.mode ≠ none ∧ State.reset.mode = none) ∧
    ((darkS { boot1 with perst := true }).boot.reg = true ∧ (darkS { boot1 with perst := true }).boot.perst = true ∧
      (darkS { boot1 with perst := true }).mode = none) ∧
    ((bareS { boot1 with perst := true }).mode ≠ none ∧ (bareS { boot1 with perst := true }).boot.perst = true) ∧
    ((bareS { boot1 with hostUp := true }).boot.hostUp = true ∧ sT.boot.hostUp = false) := by
  decide +kernel

theorem test_wit_counters :
    (sT.mode ≠ none ∧ pageUp sT (.tile 63) = true ∧ PageId.tile 63 ≠ .dir ∧ (pageOf sT (.tile 63)).uctr = false ∧ (6 : Fin 256).val < ctrCount (.tile 63) ∧
      6 ≤ (6 : Fin 256).val) ∧
    (pageUp sT (.line 3) = true ∧ (0 : Fin 256).val < ctrCount (.line 3) ∧ ∀ x, PageId.line 3 ≠ .tile x) ∧
    ctrCount (.line 3) ≤ (255 : Fin 256).val := by
  refine ⟨by decide +kernel, ⟨by decide +kernel, by decide +kernel, fun x h => by cases h⟩, by decide +kernel⟩

/-- R445: VIN reaches a dark module. -/
theorem test_vinContact : Answers (.vinContact 0) State.reset (fun t => t.boot.vin = true ∧ t.mode = none) :=
  ⟨_, rfl, by decide⟩

/-- A policy that is in range, committed in BARE. -/
def pol : Bytes := [1, 1, 1, 39, 32] ++ List.replicate 11 0
theorem test_wit_policyCommit :
    Acc (bareS (stagedB 7 ⟨1, [(0, pol)], []⟩)) sq1 (imgP 0x71 7 0 0 []) ∧
    policyBad (served (bareS (stagedB 7 ⟨1, [(0, pol)], []⟩)) sq1 (imgP 0x71 7 0 0 [])) ⟨1, [(0, pol)], []⟩
      (LoadBuf.bytes ⟨1, [(0, pol)], []⟩) = 0 :=
  ⟨acc_of (by decide +kernel), by decide +kernel⟩

/-- The flash holds a policy with its MAC. -/
def sFlash : State :=
  let s := bareS boot1
  bareS { boot1 with stored := [(7, pol ++ flashMac s 7 pol)] }
theorem test_wit_flashLoad :
    Acc sFlash sq1 (imgP 0x74 0 0 0 []) ∧
    (served sFlash sq1 (imgP 0x74 0 0 0 [])).boot.stored = [(7, pol ++ flashMac (served sFlash sq1 (imgP 0x74 0 0 0 [])) 7 pol)] ∧
    (flashMac (served sFlash sq1 (imgP 0x74 0 0 0 [])) 7 pol).length = 32 ∧
    policyBad (served sFlash sq1 (imgP 0x74 0 0 0 [])) ⟨1, [(0, pol)], []⟩ pol = 0 :=
  ⟨acc_of (by decide +kernel), by decide +kernel, by decide +kernel, by decide +kernel⟩

/-- Objects 1 to 5 committed, the compatibility list of which names the stepping and their epochs. -/
def obj0 (body : Bytes) : ImgObj := ⟨2, 0, 1, [], body, []⟩
def compat : Bytes := beBytes 4 0x42534D46 ++ List.replicate 4 0 ++ beBytes 4 1 ++ List.replicate 4 0 ++ [0xB1, 0, 0, 2, 0, 2, 0, 2, 0, 2, 0, 0]
def sReadyGo : State := bareS { boot1 with objs := [(1, obj0 []), (2, obj0 []), (3, obj0 []), (4, obj0 []), (5, obj0 compat)] }
theorem test_wit_bootGo_ready :
    Acc sReadyGo sq1 (goP 3) ∧ (served sReadyGo sq1 (goP 3)).boot.idState = 1 ∧
    (∀ x < 6, 1 ≤ x → (mget? (served sReadyGo sq1 (goP 3)).boot.objs x).isSome = true) ∧
    lists (served sReadyGo sq1 (goP 3)) 5 true = true :=
  ⟨acc_of (by decide +kernel), by decide +kernel, by decide +kernel, by decide +kernel⟩

def helper0 : Bytes :=
  let h : Bytes := beBytes 4 0x42505546 ++ [1] ++ List.replicate 4123 0
  h ++ beBytes 4 (crc32c h)
theorem test_wit_helper : helperOk helper0 = true := by decide +kernel

def sRetryPuf : State := darkS { boot1 with stage := 1, reads := 2, helper := helper0 }
theorem test_wit_pufRetry : sRetryPuf.boot.reg = true ∧ sRetryPuf.mode = none ∧ sRetryPuf.boot.stage = 1 ∧ sRetryPuf.boot.reads < 3 ∧
    sRetryPuf.boot.helper = helper0 := ⟨rfl, rfl, rfl, by decide, rfl⟩


/-! ## Units -/

/-- R90: the bytes of a NOP on queue 0 read back, from the layout of the header: VERSION 1, OPCODE 0x0D, VC 3. -/
theorem test_units_nop : (parseHdr (hdrBytes nopP.hdr)).opcode = 0x0D ∧ (parseHdr (hdrBytes nopP.hdr)).vc = 3 ∧ (hdrBytes nopP.hdr).length = 64 := by
  decide +kernel

end Sys2Proof.Tests
end

section
/-! PROOFS. Register writes: where a word written at an offset of a page arrives (R35, R39), what a register of one RW field takes,
shows and refuses (R11, R14, R47, R48, R51), and the settlement of O11. -/
namespace Sys2Proof.RegisterWrites
open Sys2Proof Sys2Proof.Machine Sys2Proof.Laws

/-! ## Fields of words -/

/-- The value of a replaced field is what it was replaced by. -/
theorem fld_setFld_same (w hi lo v : Nat) : fld (setFld w hi lo v) hi lo = v % 2 ^ (hi + 1 - lo) := by
  simp only [fld, setFld, Nat.shiftLeft_eq, Nat.shiftRight_eq_div_pow]
  generalize 2 ^ (hi + 1 - lo) = m
  have hpos : 0 < 2 ^ lo := Nat.two_pow_pos lo
  have hle : w / 2 ^ lo % m * 2 ^ lo ≤ w :=
    (Nat.mul_le_mul_right _ (Nat.mod_le _ _)).trans (Nat.div_mul_le_self w (2 ^ lo))
  have hdiv : (w - w / 2 ^ lo % m * 2 ^ lo) / 2 ^ lo = m * (w / 2 ^ lo / m) := by
    rw [Nat.mul_comm _ (2 ^ lo), Nat.sub_mul_div]
    have := Nat.mod_add_div (w / 2 ^ lo) m
    omega
  rw [Nat.add_mul_div_right _ _ hpos, hdiv, Nat.mul_add_mod, Nat.mod_mod]

/-- A field of the word that holds a number is the number's field. -/
theorem fld_ofNat (n hi lo : Nat) (h : hi < 32) : fld (BitVec.ofNat 32 n).toNat hi lo = fld n hi lo := by
  apply Nat.eq_of_testBit_eq
  intro i
  simp only [fld, BitVec.toNat_ofNat, Nat.testBit_mod_two_pow, Nat.testBit_shiftRight]
  by_cases hi' : i < hi + 1 - lo
  · simp [hi', show lo + i < 32 by omega]
  · simp [hi']

theorem fld_lt (n hi lo : Nat) : fld n hi lo < 2 ^ (hi + 1 - lo) := Nat.mod_lt _ (Nat.two_pow_pos _)

/-- A field replaced by another word's field is that field. -/
theorem fld_setFld_fld (w v hi lo : Nat) : fld (setFld w hi lo (fld v hi lo)) hi lo = fld v hi lo := by
  rw [fld_setFld_same, Nat.mod_eq_of_lt (fld_lt v hi lo)]

/-- A low field of a number is its own low field. -/
theorem fld_fld_low (n hi : Nat) : fld (fld n hi 0) hi 0 = fld n hi 0 := by simp [fld]

/-! ## The page map (R35, R39) -/

/-- R39: the page that stands at a page's address is that page. -/
theorem pageAt_pageAddr (pg : PageId) : pageAt (pageAddr pg) = some pg := by
  cases pg with
  | fpe q i | ciph q i | fport q i => revert q i; decide
  | quad i | tm i | ffe i | leng i | line i | fec i | pond i | launch i | cart i | tile i | tdec i => revert i; decide
  | _ => decide

/-- R35: a page is 4 KiB, and what it answers to is decided by the address of its start. -/
theorem pageAt_page_start (a : Nat) : pageAt (a / 4096 * 4096) = pageAt a := by
  have h : a / 4096 * 4096 / 4096 * 4096 = a / 4096 * 4096 := by omega
  simp only [pageAt, h]

/-- R39: page addresses are multiples of 4 KiB below the tiles' end, and none lies in the MSI-X ranges. -/
theorem pageAddr_bounds (pg : PageId) :
    pageAddr pg % 4096 = 0 ∧ (pageAddr pg < 0x140000 ∨ 0x200000 ≤ pageAddr pg ∧ pageAddr pg < 0x280000) := by
  cases pg <;> simp [pageAddr] <;> omega

/-- R35, R39: every offset of a page belongs to the page. -/
theorem pageAt_pageAddr_add (pg : PageId) {o : Nat} (ho : o < 4096) : pageAt (pageAddr pg + o) = some pg := by
  have hstart : (pageAddr pg + o) / 4096 * 4096 = pageAddr pg := by have := (pageAddr_bounds pg).1; omega
  rw [← pageAt_page_start, hstart, pageAt_pageAddr]

/-- R35: a write of a word at an offset of a page reaches the page. -/
theorem busWrite_page (s : State) (ag : Agent) (pg : PageId) {o : Nat} (ho : o < 4096) (v : Nat) :
    busWrite s ag (pageAddr pg + o) v = pageWrite s ag pg o v := by
  obtain ⟨hmod, hrange⟩ := pageAddr_bounds pg
  have hlow : ¬ pageAddr pg + o ≥ 0x1000000 := by omega
  have hmsix : inMsix (pageAddr pg + o) = false := by simp [inMsix]; omega
  have hoff : (pageAddr pg + o) % 4096 = o := by omega
  simp [busWrite, hlow, hmsix, pageAt_pageAddr_add pg ho, hoff]

/-- R37: an aligned word written at an offset of a page is a write of the page's register there. -/
theorem exec_registerWrite_page (s : State) (ag : Agent) (pg : PageId) {o : Nat} (ho : o < 4096) (h4 : o % 4 = 0) (v : Word) :
    exec (.registerWrite ag (BitVec.ofNat 26 (pageAddr pg + o)) v) s = .next (pageWrite s ag pg o v.toNat).1 := by
  obtain ⟨hmod, hrange⟩ := pageAddr_bounds pg
  have haddr : (BitVec.ofNat 26 (pageAddr pg + o)).toNat = pageAddr pg + o := by
    rw [BitVec.toNat_ofNat, Nat.mod_eq_of_lt (by omega)]
  have hwin : ¬ pageAddr pg + o ≥ 0x2000000 := by omega
  have halign : ¬ (pageAddr pg + o) % 4 ≠ 0 := by omega
  change execRegisterWrite ag _ v s = _
  simp only [execRegisterWrite, haddr, if_neg hwin, if_neg halign, busWrite_page s ag pg ho]

/-! ## One page -/

/-- R42: a page that answered still does when only pages have changed. -/
theorem pageUp_of_onlyPage {s t : State} {pg : PageId} (h : OnlyPage pg s t) (q : PageId) : pageUp t q = pageUp s q := by
  have hmode : t.mode = s.mode := h.1 .mode (by simp)
  simp [pageUp, hmode]

/-- R47: where nothing is pending for a page, the accepted values are the active ones. -/
theorem regActive_of_pend_nil {p : Page} (h : p.pend = []) (pg : PageId) (o b : Nat) :
    regActive p pg o b = regAccepted p pg o b := by simp [regAccepted, h]

/-- R47: a boundary leaves nothing pending. -/
@[simp] theorem pend_apply (p : Page) (n : Nat) : (p.apply n).pend = [] := by
  unfold Page.apply
  split
  · simp_all
  · rfl

/-- R47: pending values applied at an idle block change that page alone. -/
theorem applyIfIdle_onlyPage (s : State) (pg : PageId) : OnlyPage pg s (applyIfIdle s pg) := (applyIfIdle_wrote s pg 0 0).1

/-- R47: at an idle block the pending values apply. -/
theorem applyIfIdle_of_idle {s : State} {pg : PageId} (h : blkIdle s pg = true) :
    ∃ n, applyIfIdle s pg = setPage s pg ((pageOf s pg).apply n) := ⟨epochNow s pg, if_pos h⟩

/-- R47: pending values applied at an idle block leave every accepted value. -/
theorem regAccepted_applyIfIdle (s : State) (pg : PageId) (o b : Nat) :
    regAccepted (pageOf (applyIfIdle s pg) pg) pg o b = regAccepted (pageOf s pg) pg o b := by
  simpa using (applyIfIdle_wrote s pg o b).2.1 o b

/-- R43: CFG_STATUS.PENDING shows whether the page holds a pending value. -/
theorem reads_pending (s : State) (pg : PageId) (h : pageUp s pg = true) :
    reads s pg 0x24 % 2 = if (pageOf s pg).pend.isEmpty then 0 else 1 := by
  have hread : reads s pg 0x24 = flag 0 (!(pageOf s pg).pend.isEmpty) + flag 1 (pageOf s pg).appliedValid := by
    simp [reads, readReg, h, headerReg]
  rw [hread]
  cases (pageOf s pg).pend.isEmpty <;> cases (pageOf s pg).appliedValid <;> rfl

/-! ## A register of one RW field -/

/-- The word active in a register of the one field `f` after the field of a word has been taken: an E-class field waits (R14). -/
def activeAfter (p : Page) (pg : PageId) (off : Nat) (f : Fld) (v : Nat) : Nat :=
  if f.cls = .epoch then (regActive p pg off 0).toNat
  else setFld (regActive p pg off 0).toNat f.hi f.lo (fld v f.hi f.lo)

/-- A page whose register of the one field `f` has taken the field of a word: what is not active after it waits (R47). -/
def takeField (p : Page) (pg : PageId) (off : Nat) (f : Fld) (v : Nat) : Page :=
  let acc := setFld (regAccepted p pg off 0).toNat f.hi f.lo (fld v f.hi f.lo)
  let act := activeAfter p pg off f v
  let q := { p with regs := mset p.regs (off, 0) (BitVec.ofNat 32 act) }
  if (f.cls = .epoch ∧ fld acc f.hi f.lo ≠ fld act f.hi f.lo) ∨ (mget? p.pend (off, 0)).isSome = true then
    { q with pend := mset q.pend (off, 0) (BitVec.ofNat 32 acc) }
  else q

theorem inRange_within {lo hi x : Nat} : inRange (.within lo hi) x = true ↔ lo ≤ x ∧ x ≤ hi := by simp [inRange]

section OneField
variable {pg : PageId} {off : Nat} {f : Fld} (hd : regDef? pg off = some (reg off [f])) (hrw : f.acc = .rw)
  (s : State) (ag : Agent) (v : Nat)
include hd hrw

/-- R11, R47, R48, R51: what a write of the register does: permission, range, the chapter's own refusals, change class, and
then the field. -/
theorem writeField_oneField :
    writeField s ag pg off v =
      if fld v f.hi f.lo ≠ fld (regAccepted (pageOf s pg) pg off 0).toNat f.hi f.lo ∧ mayWriteAll ag pg = false then
        refusePerm s ag pg off
      else if inRange f.rng (fld v f.hi f.lo) = false ∨ extraRefusal s pg off 0 v = 0x2008 then refuseCfg s ag pg off 0x2008
      else if extraRefusal s pg off 0 v ≠ 0 then refuseCfg s ag pg off (extraRefusal s pg off 0 v)
      else if (f.cls = .idle ∧ fld v f.hi f.lo ≠ fld (regAccepted (pageOf s pg) pg off 0).toNat f.hi f.lo) ∧
          (blkState s pg = 2 ∨ blkState s pg = 3) then refuseCfg s ag pg off 0x2001
      else (applyIfIdle (setPage s pg (takeField (pageOf s pg) pg off f v)) pg, 0) := by
  by_cases hx : extraRefusal s pg off 0 v = 0x2008
  · simp [writeField, hd, reg, bankOf, hrw, hx]
  · simp [writeField, hd, reg, bankOf, hrw, takeField, activeAfter, hx]
    congr -- the conditions of the two sides are the same and differ in how they are decided

/-- R51: a write that would change the field, by an agent without the right, is refused. -/
theorem writeField_refusesPerm (hag : mayWriteAll ag pg = false)
    (hne : fld v f.hi f.lo ≠ fld (regAccepted (pageOf s pg) pg off 0).toNat f.hi f.lo) :
    writeField s ag pg off v = refusePerm s ag pg off := by
  rw [writeField_oneField hd hrw, if_pos ⟨hne, hag⟩]

/-- R48: a value outside the field's range, or one that the chapter refuses as such, is refused with CFG_RANGE. -/
theorem writeField_refusesRange (hag : mayWriteAll ag pg = true)
    (h : inRange f.rng (fld v f.hi f.lo) = false ∨ extraRefusal s pg off 0 v = 0x2008) :
    writeField s ag pg off v = refuseCfg s ag pg off 0x2008 := by
  rw [writeField_oneField hd hrw, if_neg (by simp [hag]), if_pos h]

/-- R48: a change of an I-class field of a block that is BUSY or QUIESCING is refused with CFG_BUSY. -/
theorem writeField_refusesBusy (hag : mayWriteAll ag pg = true) (hr : inRange f.rng (fld v f.hi f.lo) = true)
    (hx : extraRefusal s pg off 0 v = 0) (hi : f.cls = .idle) (hb : blkState s pg = 2 ∨ blkState s pg = 3)
    (hne : fld v f.hi f.lo ≠ fld (regAccepted (pageOf s pg) pg off 0).toNat f.hi f.lo) :
    writeField s ag pg off v = refuseCfg s ag pg off 0x2001 := by
  rw [writeField_oneField hd hrw, if_neg (by simp [hag]), if_neg (by simp [hr, hx]), if_neg (by simp [hx]),
    if_pos ⟨⟨hi, hne⟩, hb⟩]

/-- R11, R47: any other write by an agent with the right is taken; at an idle block it is active at once. -/
theorem writeField_takes (hag : mayWriteAll ag pg = true) (hr : inRange f.rng (fld v f.hi f.lo) = true)
    (hx : extraRefusal s pg off 0 v = 0) (hb : f.cls = .idle → ¬(blkState s pg = 2 ∨ blkState s pg = 3)) :
    writeField s ag pg off v = (applyIfIdle (setPage s pg (takeField (pageOf s pg) pg off f v)) pg, 0) := by
  rw [writeField_oneField hd hrw, if_neg (by simp [hag]), if_neg (by simp [hr, hx]), if_neg (by simp [hx]),
    if_neg fun h => hb h.1.1 h.2]

/-- R47: the read of a register of one field from bit 0 up shows the last accepted value, where its page reads it as its fields. -/
theorem reads_oneField (hc : pg ≠ .cpw) (hs : pg ≠ .rseq) (hlo : f.lo = 0) (hhi : f.hi < 32) (hro : roPart s pg off = 0)
    (hread : (readReg s 0 pg off 0).2 = (rwPart s pg off ||| roPart s pg off) % 2 ^ 32) :
    reads s pg off = fld (regAccepted (pageOf s pg) pg off 0).toNat f.hi f.lo := by
  have hrw : rwPart s pg off = fld (regAccepted (pageOf s pg) pg off 0).toNat f.hi f.lo := by
    simp [rwPart, hd, reg, bankOf, hrw, hc, hs, hlo]
  have hfit : fld (regAccepted (pageOf s pg) pg off 0).toNat f.hi f.lo < 2 ^ 32 :=
    (fld_lt _ _ _).trans_le (Nat.pow_le_pow_right (by decide) (by omega))
  rw [reads, hread, hro, hrw, Nat.or_zero, Nat.mod_eq_of_lt hfit]

end OneField

/-! ## What a page shows once the field is taken -/

section Taken
variable (p : Page) (pg : PageId) (off : Nat) (f : Fld) (v : Nat)

/-- R43, R44: the control bits stay. -/
theorem takeField_control : (takeField p pg off f v).halted = p.halted ∧ (takeField p pg off f v).quarantined = p.quarantined ∧
    (takeField p pg off f v).enable = p.enable ∧ (takeField p pg off f v).quiescing = p.quiescing := by
  simp only [takeField]
  split <;> exact ⟨rfl, rfl, rfl, rfl⟩

/-- R47: the value taken is the accepted value. -/
theorem fld_accepted_takeField (hf : f.hi < 32) :
    fld (regAccepted (takeField p pg off f v) pg off 0).toNat f.hi f.lo = fld v f.hi f.lo := by
  unfold takeField
  extract_lets acc act q
  split
  · simp [regAccepted, -BitVec.toNat_ofNat, fld_ofNat _ _ _ hf, acc, fld_setFld_fld]
  · rename_i hwaits
    obtain ⟨hne, hpend⟩ := not_or.1 hwaits
    have hnone : mget? p.pend (off, 0) = none := by simpa using hpend
    have hact : fld act f.hi f.lo = fld v f.hi f.lo := by
      by_cases he : f.cls = .epoch
      · rw [← not_not.1 (not_and.1 hne he)]; exact fld_setFld_fld _ _ _ _
      · simp only [act, activeAfter, if_neg he]; exact fld_setFld_fld _ _ _ _
    simpa [regAccepted, regActive, hnone, q, -BitVec.toNat_ofNat, fld_ofNat _ _ _ hf] using hact

/-- R14, R47: taking a value leaves the active value of an E-class field. -/
theorem regActive_takeField_epoch (he : f.cls = .epoch) :
    regActive (takeField p pg off f v) pg off 0 = regActive p pg off 0 := by
  have hreg : mget? (takeField p pg off f v).regs (off, 0) = some (regActive p pg off 0) := by
    simp only [takeField]
    split <;> simp [activeAfter, he]
  rw [regActive, hreg]

/-- R47: an E-class field that takes another value than its active one waits. -/
theorem pend_takeField_epoch (he : f.cls = .epoch) (hne : fld v f.hi f.lo ≠ fld (regActive p pg off 0).toNat f.hi f.lo) :
    (takeField p pg off f v).pend.isEmpty = false := by
  simp [takeField, activeAfter, he, fld_setFld_fld, hne, mset]

end Taken

/-! ## Register writes -/

/-- R43: ERR_ENABLE takes the mask at once from an agent that may write it. -/
theorem pageWrite_errEnable (s : State) (ag : Agent) (pg : PageId) (v : Nat) (hup : pageUp s pg = true)
    (hag : mayWriteCommon ag pg = true) :
    (pageWrite s ag pg 0x14 v).1 = setPage s pg { pageOf s pg with irq := BitVec.ofNat 5 v } := by
  have hw : writeReg s ag pg 0x14 v = (setPage s pg { pageOf s pg with irq := BitVec.ofNat 5 v }, 0) := by
    simp [writeReg, writeHeader, hag]
  have ha : ∀ t, afterHeader t pg 0x14 = t := fun t => by cases pg <;> rfl
  simp [pageWrite, hup, doWrite, hw, ha]

/-- R48, R51: a refused write of a register beyond the header ends with the refusal. -/
theorem pageWrite_refused {s t : State} {ag : Agent} {pg : PageId} {off v code : Nat} (hup : pageUp s pg = true)
    (ho : off < 0x800) (hw : writeReg s ag pg off v = (t, code)) (hc : code ≠ 0) : (pageWrite s ag pg off v).1 = t := by
  simp [pageWrite, hup, doWrite, show ¬ off ≥ 0x800 by omega, hw, hc]

/-- R48: what a refusal of a configuration value leaves. -/
theorem refuseCfg_eq (s : State) (ag : Agent) (pg : PageId) {off code : Nat} (ho : off < 4096)
    (hc : code = 0x2008 ∨ code = 0x2001) :
    refuseCfg s ag pg off code =
      (setPage (raise s pg code (off + 4096 * agentNum ag)) pg
        { pageOf (raise s pg code (off + 4096 * agentNum ag)) pg with cfgRefused := true }, code) := by
  simp [refuseCfg, refusalInfo, hc, Nat.mod_eq_of_lt ho, Nat.mul_comm]

/-- R51: what a refusal for want of permission leaves. -/
theorem refusePerm_eq (s : State) (ag : Agent) (pg : PageId) {off : Nat} (ho : off < 4096) :
    refusePerm s ag pg off =
      (setPage (raise s pg 0x2002 (off + 4096 * agentNum ag + 16384)) pg
        { pageOf (raise s pg 0x2002 (off + 4096 * agentNum ag + 16384)) pg with permRefused := true }, 0x2002) := by
  simp [refusePerm, refusalInfo, Nat.mod_eq_of_lt ho, Nat.mul_comm]

/-- R48: a write that the register's field refuses with a code of R48 leaves the error record and CFG_REFUSED. -/
theorem answers_refusedCfg {s : State} {ag : Agent} {pg : PageId} {off code : Nat} {v : Word} (hup : pageUp s pg = true)
    (ho : off < 0x800) (h4 : off % 4 = 0) (hc : code = 0x2008 ∨ code = 0x2001)
    (hw : writeReg s ag pg off v.toNat = refuseCfg s ag pg off code) :
    Answers (.registerWrite ag (BitVec.ofNat 26 (pageAddr pg + off)) v) s (fun t =>
      ∃ u, u = raise s pg code (off + 4096 * agentNum ag) ∧ t = setPage u pg { pageOf u pg with cfgRefused := true }) := by
  rw [refuseCfg_eq s ag pg (by omega) hc] at hw
  exact ⟨_, exec_registerWrite_page s ag pg (by omega) h4 v, _, rfl, pageWrite_refused hup ho hw (by omega)⟩

/-- R11, R47: a write that a register of one field takes does nothing more where its page gives it no action. -/
theorem exec_oneField_takes {s : State} {ag : Agent} {pg : PageId} {off : Nat} {f : Fld} {v : Word}
    (hd : regDef? pg off = some (reg off [f])) (hrw : f.acc = .rw) (hw : Writable s ag pg)
    (ho : 0x40 ≤ off) (ho2 : off < 0x800) (h4 : off % 4 = 0)
    (hr : inRange f.rng (fld v.toNat f.hi f.lo) = true) (hx : extraRefusal s pg off 0 v.toNat = 0)
    (hb : f.cls = .idle → ¬(blkState s pg = 2 ∨ blkState s pg = 3))
    (hreg : writeReg s ag pg off v.toNat = writeField s ag pg off v.toNat)
    (hafter : ∀ u, afterWrite s u pg off v.toNat = u) :
    exec (.registerWrite ag (BitVec.ofNat 26 (pageAddr pg + off)) v) s =
      .next (applyIfIdle (setPage s pg (takeField (pageOf s pg) pg off f v.toNat)) pg) := by
  have ht := writeField_takes hd hrw s ag v.toNat hw.2 hr hx hb
  rw [exec_registerWrite_page s ag pg (by omega) h4,
    pageWrite_accepted s ag pg off v.toNat _ hw.1 hw.2 ho ho2 hd hreg (by rw [ht]), hafter, ht]

/-! ## FEC_CFG (R316) -/

/-- R316: FEC_CFG.ITER. -/
def iterFld : Fld := rwE 3 0 12 (.within 4 15)

theorem regDef?_fecCfg (g : Fin 4) : regDef? (.fec g) 0x40 = some (reg 0x40 [iterFld]) := rfl

theorem writeReg_fec (s : State) (ag : Agent) (g : Fin 4) {v : Nat} :
    writeReg s ag (.fec g) 0x40 v = writeField s ag (.fec g) 0x40 v := by simp [writeReg]

theorem inRange_iter (x : Nat) : inRange iterFld.rng (fld x 3 0) = true ↔ 4 ≤ fld x 3 0 := by
  have hlt : fld x 3 0 < 16 := fld_lt x 3 0
  rw [show iterFld.rng = .within 4 15 from rfl, inRange_within]
  omega

/-- R47: FEC_CFG reads as its last accepted value. -/
theorem reads_fecCfg (s : State) (g : Fin 4) (h : pageUp s (.fec g) = true) :
    reads s (.fec g) 0x40 = fld (regAccepted (pageOf s (.fec g)) (.fec g) 0x40 0).toNat 3 0 :=
  reads_oneField (regDef?_fecCfg g) rfl s nofun nofun rfl (by decide) rfl (by simp [readReg, h])

/-- R44, R316: whether a FEC is idle rests on its slots and its control bits, which a taken field leaves as they are. -/
theorem blkIdle_takeField_fec (s : State) (g : Fin 4) (off : Nat) (f : Fld) (v : Nat) :
    blkIdle (setPage s (.fec g) (takeField (pageOf s (.fec g)) (.fec g) off f v)) (.fec g) = blkIdle s (.fec g) := by
  obtain ⟨hh, hq, he, hqu⟩ := takeField_control (pageOf s (.fec g)) (.fec g) off f v
  simp [blkIdle, blkState, busy, lslot, hh, hq, he, hqu]

/-- R316: FEC_CFG.ITER in range, by an agent with the right, is taken. -/
theorem exec_fecCfg_takes {s : State} {ag : Agent} {g : Fin 4} {v : Word} (hw : Writable s ag (.fec g))
    (hv : 4 ≤ fld v.toNat 3 0) :
    exec (.registerWrite ag (BitVec.ofNat 26 (pageAddr (.fec g) + 0x40)) v) s =
      .next (applyIfIdle (setPage s (.fec g) (takeField (pageOf s (.fec g)) (.fec g) 0x40 iterFld v.toNat)) (.fec g)) :=
  exec_oneField_takes (regDef?_fecCfg g) rfl hw (by decide) (by decide) (by decide)
    ((inRange_iter _).2 hv) rfl nofun (writeReg_fec s ag g) (fun _ => rfl)

/-- R47, R316: at an idle FEC the value of FEC_CFG.ITER is active after the write, and nothing is pending. -/
theorem fecCfg_idle {s : State} {ag : Agent} {g : Fin 4} {v : Word} (hw : Writable s ag (.fec g))
    (hv : 4 ≤ fld v.toNat 3 0) (hidle : blkIdle s (.fec g) = true) :
    Answers (.registerWrite ag (BitVec.ofNat 26 (pageAddr (.fec g) + 0x40)) v) s (fun t =>
      OnlyPage (.fec g) s t ∧ fldV t (.fec g) 0x40 3 0 = fld v.toNat 3 0 ∧ reads t (.fec g) 0x24 % 2 = 0) := by
  refine ⟨_, exec_fecCfg_takes hw hv, ?_⟩
  have hidle' := (blkIdle_takeField_fec s g 0x40 iterFld v.toNat).trans hidle
  obtain ⟨n, hn⟩ := applyIfIdle_of_idle hidle'
  have honly := onlyPage_trans (setPage_onlyPage s (.fec g) (takeField (pageOf s (.fec g)) (.fec g) 0x40 iterFld v.toNat))
    (applyIfIdle_onlyPage _ _)
  rw [hn, pageOf_setPage] at honly ⊢
  refine ⟨honly, ?_, ?_⟩
  · rw [fldV, fldB, pageOf_setPage, regActive_of_pend_nil (pend_apply _ _), regAccepted_apply]
    exact fld_accepted_takeField _ _ _ iterFld _ (by decide)
  · rw [reads_pending _ _ ((pageUp_of_onlyPage honly _).trans hw.1), pageOf_setPage, pend_apply]
    rfl

/-- R47, R316: at a busy FEC another value of FEC_CFG.ITER is read back, the active one stays, and the value is pending. -/
theorem fecCfg_busy {s : State} {ag : Agent} {g : Fin 4} {v : Word} (hw : Writable s ag (.fec g))
    (hv : 4 ≤ fld v.toNat 3 0) (hbusy : blkIdle s (.fec g) = false) (hne : fld v.toNat 3 0 ≠ fldV s (.fec g) 0x40 3 0) :
    Answers (.registerWrite ag (BitVec.ofNat 26 (pageAddr (.fec g) + 0x40)) v) s (fun t =>
      OnlyPage (.fec g) s t ∧ reads t (.fec g) 0x40 % 16 = fld v.toNat 3 0 ∧
      fldV t (.fec g) 0x40 3 0 = fldV s (.fec g) 0x40 3 0 ∧ reads t (.fec g) 0x24 % 2 = 1) := by
  refine ⟨_, exec_fecCfg_takes hw hv, ?_⟩
  rw [applyIfIdle, blkIdle_takeField_fec, hbusy, if_neg Bool.false_ne_true]
  have honly := setPage_onlyPage s (.fec g) (takeField (pageOf s (.fec g)) (.fec g) 0x40 iterFld v.toNat)
  have hup := (pageUp_of_onlyPage honly (.fec g)).trans hw.1
  refine ⟨honly, ?_, ?_, ?_⟩
  · rw [reads_fecCfg _ g hup, pageOf_setPage]
    have := fld_accepted_takeField (pageOf s (.fec g)) (.fec g) 0x40 iterFld v.toNat (by decide)
    rw [show fld _ 3 0 = fld v.toNat 3 0 from this]
    exact Nat.mod_eq_of_lt (fld_lt _ _ _)
  · rw [fldV, fldB, pageOf_setPage, regActive_takeField_epoch _ _ _ _ _ rfl]
    rfl
  · rw [reads_pending _ _ hup, pageOf_setPage, pend_takeField_epoch _ _ _ iterFld _ rfl hne]
    rfl

/-- R48, R316: FEC_CFG.ITER below 4 is refused with CFG_RANGE. -/
theorem fecCfg_refused {s : State} {ag : Agent} {g : Fin 4} {v : Word} (hw : Writable s ag (.fec g))
    (hv : fld v.toNat 3 0 < 4) :
    Answers (.registerWrite ag (BitVec.ofNat 26 (pageAddr (.fec g) + 0x40)) v) s (fun t =>
      ∃ u, u = raise s (.fec g) 0x2008 (0x40 + 4096 * agentNum ag) ∧
        t = setPage u (.fec g) { pageOf u (.fec g) with cfgRefused := true }) := by
  have hr := writeField_refusesRange (regDef?_fecCfg g) rfl s ag v.toNat hw.2
    (.inl (Bool.eq_false_iff.2 fun h => by have := (inRange_iter _).1 h; omega))
  exact answers_refusedCfg hw.1 (by decide) (by decide) (.inl rfl) ((writeReg_fec s ag g).trans hr)

/-! ## STAGE_MAX (R315, R382) -/

/-- R315: STAGE_MAX. -/
def stageFld : Fld := rwI 12 0 1024 (.within 64 6144)

theorem regDef?_stageMax (g : Fin 4) : regDef? (.line g) 0x8C = some (reg 0x8C [stageFld]) := rfl

theorem writeReg_stageMax (s : State) (ag : Agent) (g : Fin 4) {v : Nat} :
    writeReg s ag (.line g) 0x8C v = writeField s ag (.line g) 0x8C v := by simp [writeReg]

theorem inRange_stage {x : Nat} (h : 64 ≤ fld x 12 0) (h' : fld x 12 0 ≤ 6144) :
    inRange stageFld.rng (fld x 12 0) = true := inRange_within.2 ⟨h, h'⟩

/-- R382: STAGE_MAX is refused beyond its range exactly where it leaves less than 1 GiB of the line region. -/
theorem extraRefusal_stageMax (s : State) (g : Fin 4) (v : Nat) :
    (StageFits s g (fld v 12 0) → extraRefusal s (.line g) 0x8C 0 v = 0) ∧
    (¬StageFits s g (fld v 12 0) → extraRefusal s (.line g) 0x8C 0 v = 0x2008) := by
  simp only [StageFits, extraRefusal]
  constructor <;> intro h <;> simp <;> omega

/-- R47: STAGE_MAX reads as its last accepted value. -/
theorem reads_stageMax (s : State) (g : Fin 4) (h : pageUp s (.line g) = true) :
    reads s (.line g) 0x8C = fld (regAccepted (pageOf s (.line g)) (.line g) 0x8C 0).toNat 12 0 :=
  reads_oneField (regDef?_stageMax g) rfl s nofun nofun rfl (by decide) rfl (by simp [readReg, h])

/-- R14, R315: at a line neither BUSY nor QUIESCING, STAGE_MAX takes a value in range that leaves 1 GiB. -/
theorem stageMax_takes {s : State} {ag : Agent} {g : Fin 4} {v : Word} (hw : Writable s ag (.line g))
    (hlo : 64 ≤ fld v.toNat 12 0) (hhi : fld v.toNat 12 0 ≤ 6144) (hfit : StageFits s g (fld v.toNat 12 0))
    (h2 : blkState s (.line g) ≠ 2) (h3 : blkState s (.line g) ≠ 3) :
    Answers (.registerWrite ag (BitVec.ofNat 26 (pageAddr (.line g) + 0x8C)) v) s (fun t =>
      OnlyPage (.line g) s t ∧ reads t (.line g) 0x8C = fld v.toNat 12 0) := by
  refine ⟨_, exec_oneField_takes (regDef?_stageMax g) rfl hw (by decide) (by decide) (by decide) (inRange_stage hlo hhi)
    ((extraRefusal_stageMax s g _).1 hfit) (fun _ => not_or.2 ⟨h2, h3⟩) (writeReg_stageMax s ag g) (fun _ => rfl), ?_⟩
  have honly := onlyPage_trans (setPage_onlyPage s (.line g) (takeField (pageOf s (.line g)) (.line g) 0x8C stageFld v.toNat))
    (applyIfIdle_onlyPage _ _)
  refine ⟨honly, ?_⟩
  rw [reads_stageMax _ g ((pageUp_of_onlyPage honly _).trans hw.1), regAccepted_applyIfIdle, pageOf_setPage]
  exact fld_accepted_takeField _ _ _ stageFld _ (by decide)

/-- R48, R382: STAGE_MAX that leaves less than 1 GiB is refused with CFG_RANGE. -/
theorem stageMax_refusedRange {s : State} {ag : Agent} {g : Fin 4} {v : Word} (hw : Writable s ag (.line g))
    (hfit : ¬StageFits s g (fld v.toNat 12 0)) :
    Answers (.registerWrite ag (BitVec.ofNat 26 (pageAddr (.line g) + 0x8C)) v) s (fun t =>
      ∃ u, u = raise s (.line g) 0x2008 (0x8C + 4096 * agentNum ag) ∧
        t = setPage u (.line g) { pageOf u (.line g) with cfgRefused := true }) :=
  answers_refusedCfg hw.1 (by decide) (by decide) (.inl rfl) ((writeReg_stageMax s ag g).trans
    (writeField_refusesRange (regDef?_stageMax g) rfl s ag v.toNat hw.2 (.inr ((extraRefusal_stageMax s g _).2 hfit))))

/-- R48, R315: a change of STAGE_MAX while the line is BUSY or QUIESCING is refused with CFG_BUSY. -/
theorem stageMax_refusedBusy {s : State} {ag : Agent} {g : Fin 4} {v : Word} (hw : Writable s ag (.line g))
    (hlo : 64 ≤ fld v.toNat 12 0) (hhi : fld v.toNat 12 0 ≤ 6144) (hfit : StageFits s g (fld v.toNat 12 0))
    (hb : blkState s (.line g) = 2 ∨ blkState s (.line g) = 3)
    (hne : fld v.toNat 12 0 ≠ fld (reads s (.line g) 0x8C) 12 0) :
    Answers (.registerWrite ag (BitVec.ofNat 26 (pageAddr (.line g) + 0x8C)) v) s (fun t =>
      ∃ u, u = raise s (.line g) 0x2001 (0x8C + 4096 * agentNum ag) ∧
        t = setPage u (.line g) { pageOf u (.line g) with cfgRefused := true }) := by
  rw [reads_stageMax s g hw.1, fld_fld_low] at hne
  exact answers_refusedCfg hw.1 (by decide) (by decide) (.inr rfl) ((writeReg_stageMax s ag g).trans
    (writeField_refusesBusy (regDef?_stageMax g) rfl s ag v.toNat hw.2 (inRange_stage hlo hhi)
      ((extraRefusal_stageMax s g _).1 hfit) rfl hb hne))

/-! ## LEDGER (R397, R51) -/

/-- R397: the one field of the ledger's configuration register. -/
def ledgerFld : Fld := rwE 0 0 1

theorem regDef?_ledgerCfg : regDef? .ledger 0x44 = some (reg 0x44 [ledgerFld]) := rfl

/-- R47: the ledger's configuration register reads as its last accepted value. -/
theorem reads_ledgerCfg (s : State) (h : pageUp s .ledger = true) :
    reads s .ledger 0x44 = fld (regAccepted (pageOf s .ledger) .ledger 0x44 0).toNat 0 0 :=
  reads_oneField regDef?_ledgerCfg rfl s nofun nofun rfl (by decide) rfl (by simp [readReg, h])

/-- R39, R51: the host does not own the LEDGER page: a change it writes is refused with PERM_DENIED. -/
theorem ledgerCfg_refusedPerm {s : State} {v : Word} (hup : pageUp s .ledger = true)
    (hne : fld v.toNat 0 0 ≠ fld (reads s .ledger 0x44) 0 0) :
    Answers (.registerWrite .host (BitVec.ofNat 26 (pageAddr .ledger + 0x44)) v) s (fun t =>
      ∃ u, u = raise s .ledger 0x2002 (0x44 + 16384) ∧ t = setPage u .ledger { pageOf u .ledger with permRefused := true }) := by
  rw [reads_ledgerCfg s hup, fld_fld_low] at hne
  have hw : writeReg s .host .ledger 0x44 v.toNat = refusePerm s .host .ledger 0x44 :=
    (by simp [writeReg] : writeReg s .host .ledger 0x44 v.toNat = writeField s .host .ledger 0x44 v.toNat).trans
      (writeField_refusesPerm regDef?_ledgerCfg rfl s .host v.toNat rfl hne)
  rw [refusePerm_eq s .host _ (by decide)] at hw
  exact ⟨_, exec_registerWrite_page s .host _ (by decide) (by decide) v, _, rfl, pageWrite_refused hup (by decide) hw (by decide)⟩

/-! ## O11 -/

/-- Settles O11: each clause is the rule of its register above. -/
theorem registerWriteClasses : Obligations.RegisterWriteClasses := by
  intro s ag v g
  refine ⟨fun pg hup hag => ?_, fecCfg_idle, fecCfg_busy, fecCfg_refused, stageMax_takes, stageMax_refusedRange,
    stageMax_refusedBusy, ledgerCfg_refusedPerm⟩
  rw [exec_registerWrite_page s ag pg (by decide) (by decide), pageWrite_errEnable s ag pg v.toNat hup hag]

end Sys2Proof.RegisterWrites
end

section
/-! PROOFS. Memory, reset and the page map: read after write (R53, R395), the reset values (R43, R52), where the pages lie (R35, R39),
and accesses that reach no register (R36, R37, R42). Settles O3, O4, O5, O7, O8, O9 and O13. -/
namespace Sys2Proof.MemoryAndReset
open Sys2Proof Sys2Proof.Machine Sys2Proof.Laws Sys2Proof.RegisterWrites

/-! ## Memory -/

/-- A byte written to a canonical list is the byte read; every other address reads as before. -/
theorem memRead_memWrite {lo : Nat} {m : List Host.Cell} (w : Memory.wfFrom lo m = true) (a : Nat) (b : Byte) (x : Nat) :
    memRead (memWrite m a b) x = if x = a then b else memRead m x := by
  induction m generalizing lo with
  | nil =>
    unfold memWrite
    split
    · rename_i hb
      simp [memRead, hb]
    · simp [memRead]
  | cons c m ih =>
    simp only [Memory.wfFrom, Bool.and_eq_true, decide_eq_true_eq] at w
    obtain ⟨⟨-, -⟩, hm⟩ := w
    have hlow : ∀ y, y ≤ c.1 → memRead m y = 0 := fun y hy => memRead_below hm (by omega)
    rcases Nat.lt_trichotomy a c.1 with ha | ha | ha
    · by_cases hb : b = 0 <;> simp only [memWrite, ha, hb, if_true, if_false, memRead] <;> grind
    · subst ha
      by_cases hb : b = 0 <;> simp only [memWrite, hb, lt_irrefl, if_true, if_false, memRead] <;> grind
    · simp only [memWrite, show ¬ a < c.1 by omega, show a ≠ c.1 by omega, if_false, memRead, ih hm]
      grind

/-- A string written leaves every address outside it. -/
theorem memRead_memPut_outside {m : List Host.Cell} (w : Memory.wf m = true) (l : Bytes) {a x : Nat}
    (h : x < a ∨ a + l.length ≤ x) : memRead (memPut m a l) x = memRead m x := by
  induction l generalizing m a with
  | nil => rfl
  | cons b l ih =>
    simp only [List.length_cons] at h
    rw [memPut, ih (memWrite_wf w a b) (by omega), memRead_memWrite w, if_neg (by omega)]

/-- A string written is the string read. -/
theorem memBytes_memPut {m : List Host.Cell} (w : Memory.wf m = true) (a : Nat) (l : Bytes) :
    memBytes (memPut m a l) a l.length = l := by
  induction l generalizing m a with
  | nil => rfl
  | cons b l ih =>
    have w' := memWrite_wf w a b
    rw [List.length_cons, memBytes, memPut, ih w', memRead_memPut_outside w' l (.inl (Nat.lt_succ_self a)),
      memRead_memWrite w, if_pos rfl]

/-- Settles O7, by the reads above: one byte first, then byte by byte along the string. -/
theorem memoryReadAfterWrite : Obligations.MemoryReadAfterWrite := by
  refine ⟨fun m a b w => ⟨memWrite_wf w a b, ?_, fun x hx => ?_⟩,
    fun m a l w => ⟨memPut_wf w a l, memBytes_memPut w a l, fun x hx => memRead_memPut_outside w l hx⟩⟩
  · rw [memRead_memWrite w, if_pos rfl]
  · rw [memRead_memWrite w, if_neg hx]

/-! ## Reset -/

/-- Settles O5: memory and the window are empty. -/
theorem memoryOkReset : Obligations.MemoryOkReset := ⟨rfl, rfl⟩

/-- Settles O3, field by field. -/
theorem resetState : Obligations.ResetState := by
  refine ⟨rfl, rfl, rfl, fun _ => ⟨rfl, rfl, rfl, rfl, rfl, rfl, rfl⟩, fun _ => rfl, rfl, rfl, rfl, rfl, rfl, rfl, rfl,
    fun _ _ => ⟨rfl, rfl⟩, fun _ => rfl, rfl, rfl, rfl⟩

/-- Settles O4, register by register. -/
theorem resetRegisters : Obligations.ResetRegisters := by
  unfold Obligations.ResetRegisters
  refine ⟨by decide, by decide, by decide, by decide, by decide⟩

/-! ## The page map -/

/-- R39: an address of the quads is its offset in the quad of its number. -/
theorem quad_base {b : Nat} (hlo : 0x40000 ≤ b) (hhi : b < 0x140000) :
    0x40000 * ((b / 0x40000 - 1) % 4 + 1) + b % 0x40000 = b := by
  have h1 : 1 ≤ b / 0x40000 := (Nat.le_div_iff_mul_le (by decide)).2 hlo
  have h2 : b / 0x40000 < 5 := (Nat.div_lt_iff_lt_mul (by decide)).2 hhi
  rw [Nat.mod_eq_of_lt (by omega), Nat.sub_add_cancel h1, Nat.div_add_mod]

/-- R39: a page's address is the start of the 4 KiB that answer as it. -/
theorem pageAddr_of_pageAt {a : Nat} {pg : PageId} (h : pageAt a = some pg) : pageAddr pg = a / 4096 * 4096 := by
  generalize hb : a / 4096 * 4096 = b
  have hmod : b % 4096 = 0 := by omega
  simp only [pageAt, hb] at h
  split at h
  · obtain ⟨hn, -⟩ := List.getElem?_eq_some_iff.1 h
    have hb : b = b / 4096 * 4096 := by omega
    generalize b / 4096 = n at h hn hb
    simp only [List.length_cons, List.length_nil] at hn
    subst hb
    interval_cases n <;> simp at h <;> subst h <;> rfl
  · split at h
    · rename_i hq
      simp only [Bool.and_eq_true, decide_eq_true_eq] at hq
      have hbase := quad_base hq.1 hq.2
      have ho : b % 0x40000 = b % 0x40000 / 4096 * 4096 := by omega
      generalize hqv : (⟨(b / 0x40000 - 1) % 4, _⟩ : Fin 4) = q at h
      rw [show (b / 0x40000 - 1) % 4 = q.val by rw [← hqv]] at hbase
      split at h
      · rename_i hp
        simp only [Bool.and_eq_true, decide_eq_true_eq] at hp
        cases h
        simp only [pageAddr]
        clear hqv
        omega
      · obtain ⟨hn, -⟩ := List.getElem?_eq_some_iff.1 h
        generalize b % 0x40000 / 4096 = n at h hn ho
        simp only [List.length_cons, List.length_nil] at hn
        rw [ho] at hbase
        interval_cases n <;> simp at h <;> subst h <;> exact hbase
    · split at h
      · rename_i ht
        simp only [Bool.and_eq_true, decide_eq_true_eq] at ht
        cases h
        split <;> simp only [pageAddr] <;> omega
      · cases h

/-- R39: a quad's pages are listed with the quad. -/
theorem mem_allPages_of_quad {pg : PageId} (q : Fin 4)
    (h : pg ∈ [.quad q, .fpe q 0, .fpe q 1, .tm q, .ffe q, .leng q, .line q, .fec q, .ciph q 0, .ciph q 1, .pond q, .launch q] ++
      (List.finRange 16).map (fun p => PageId.fport q p)) : pg ∈ allPages :=
  List.mem_append_left _ (List.mem_append_right _ (List.mem_flatMap.2 ⟨q, List.mem_finRange q, h⟩))

/-- R39: every page is in the list of pages. -/
theorem mem_allPages (pg : PageId) : pg ∈ allPages := by
  cases pg with
  | tile t | tdec t => exact List.mem_append_right _ (List.mem_flatMap.2 ⟨t, List.mem_finRange t, by simp⟩)
  | fpe q i | ciph q i => exact mem_allPages_of_quad q (by revert i; simp [Fin.forall_fin_two])
  | fport q p => exact mem_allPages_of_quad q (by simp)
  | quad q | tm q | ffe q | leng q | line q | fec q | pond q | launch q => exact mem_allPages_of_quad q (by simp)
  | cart i => exact List.mem_append_left _ (List.mem_append_left _ (by revert i; simp [Fin.forall_fin_two]))
  | _ => exact List.mem_append_left _ (List.mem_append_left _ (by simp))

theorem length_allPages : allPages.length = 258 := by
  simp [allPages, List.length_flatMap]
/-- Settles O8, by the page map both ways. -/
theorem pageMap : Obligations.PageMap :=
  ⟨fun _ _ => pageAt_pageAddr_add _, fun _ _ => pageAddr_of_pageAt, length_allPages, mem_allPages⟩

/-! ## Accesses that reach no register -/

/-- R36: a host access to a page that does not respond changes only the record of UNMAPPED_ACCESS, and a read returns 0. -/
theorem exec_unmappedAccess {s : State} {off : BitVec 26} (h : isUnmapped s off.toNat = true) :
    exec (.unmappedAccess .host off true) s = .next (unmapped s off.toNat true 4) ∧
    exec (.unmappedAccess .host off false) s = .next (emit (unmapped s off.toNat false 4) (.readAnswer off.toNat 0)) := by
  change execUnmappedAccess .host off true s = _ ∧ execUnmappedAccess .host off false s = _
  simp [execUnmappedAccess, h]

/-- R35: an offset of a page as a bus address. -/
theorem toNat_pageOffset (pg : PageId) {o : Nat} (ho : o < 4096) :
    (BitVec.ofNat 26 (pageAddr pg + o)).toNat = pageAddr pg + o := by
  have := pageAddr_bounds pg
  rw [BitVec.toNat_ofNat, Nat.mod_eq_of_lt (by omega)]

/-- R36, R39: the offsets of a page that does not respond are unmapped. -/
theorem isUnmapped_of_pageDown {s : State} {pg : PageId} (h : pageUp s pg = false) {o : Nat} (ho : o < 4096) :
    isUnmapped s (pageAddr pg + o) = true := by
  obtain ⟨hmod, hrange⟩ := pageAddr_bounds pg
  have hlow : (pageAddr pg + o) % 0x1000000 = pageAddr pg + o := Nat.mod_eq_of_lt (by omega)
  have hmsix : inMsix (pageAddr pg + o) = false := by simp [inMsix]; omega
  simp only [isUnmapped, hlow, hmsix, pageAt_pageAddr_add pg ho, h]
  simp
  omega

/-- Settles O9: what responds is read off the mode, and what does not is unmapped. -/
theorem barePages : Obligations.BarePages := by
  intro s
  refine ⟨fun hm pg => ⟨by simp [pageUp, hm], fun hd => ⟨fun ag off v => by simp [pageWrite, hd],
    fun r off ofs => by simp [readReg, hd], fun off ho => ?_⟩⟩, fun hm pg => by simp [pageUp]; tauto⟩
  have ha := toNat_pageOffset pg ho
  have hu := isUnmapped_of_pageDown hd ho
  rw [← ha] at hu
  rw [(exec_unmappedAccess hu).2, ha]

/-- Settles O13, by the rule of the empty slot and the conditions of a well-formed access. -/
theorem unmappedAndSize : Obligations.UnmappedAndSize := by
  intro s off z
  refine ⟨exec_unmappedAccess, fun ho hl hz => ?_⟩
  change execAccessSize off z true s = _ ∧ execAccessSize off z false s = _
  have hbad : ¬ (decide (off.toNat ≥ 0x2000000) || decide (z.len = 0) ||
      (decide (z.len = 4) && decide (off.toNat % 4 = 0) && z.full)) = true := by
    simp only [Bool.or_eq_true, Bool.and_eq_true, decide_eq_true_eq]
    rintro ((h | h) | h)
    · omega
    · exact hl h
    · exact hz (and_assoc.1 h)
  exact ⟨congrArg Host.Outcome.next (if_neg hbad), congrArg Host.Outcome.next (if_neg hbad)⟩

end Sys2Proof.MemoryAndReset
end

section
/-! PROOFS. Header writes: BLK_CTRL and the re-arming of ERR_STATUS (R43, R44, R49, R51), and the settlement of O12. -/
namespace Sys2Proof.HeaderWrites
open Sys2Proof Sys2Proof.Machine Sys2Proof.Laws Sys2Proof.RegisterWrites

/-- The bits of a word of BLK_CTRL: ENABLE, QUIESCE, and one of the write-only bits ERR_CLR and CFG_ABORT, or neither. -/
theorem bit_blkCtrlWord (en qu : Bool) {wo : Nat} (h : wo = 0 ∨ wo = 4 ∨ wo = 8) :
    bit (flag 0 en + flag 1 qu + wo) 0 = en ∧ bit (flag 0 en + flag 1 qu + wo) 1 = qu ∧
    bit (flag 0 en + flag 1 qu + wo) 2 = decide (wo = 4) ∧ bit (flag 0 en + flag 1 qu + wo) 3 = decide (wo = 8) := by
  revert en qu
  rcases h with rfl | rfl | rfl <;> decide

/-- R43: a page after a write of BLK_CTRL that is taken. -/
def blkCtrlPage (s : State) (pg : PageId) (en qu abort clr : Bool) : Page :=
  let p := { pageOf s pg with enable := en, quiesce := qu, quiescing := quiescingOf s pg qu }
  let p := if abort then { p with pend := [] } else p
  if clr then
    { p with classSeen := 0, firstValid := false, cfgRefused := false, permRefused := false, firstCode := 0, firstSf := 0,
             firstInfo := 0, errCount := 0 }
  else p

section BlkCtrl
variable {s : State} {ag : Agent} {pg : PageId} {en qu : Bool} {wo : Nat} (hwo : wo = 0 ∨ wo = 4 ∨ wo = 8)
include hwo

/-- R43, R44, R51: a write of BLK_CTRL is taken where the agent may write what it changes, and ENABLE keeps its value or the
block is neither BUSY nor QUIESCING. -/
theorem writeBlkCtrl_takes
    (hall : (en ≠ (pageOf s pg).enable ∨ qu ≠ (pageOf s pg).quiesce ∨ wo = 8) → mayWriteAll ag pg = true)
    (hcommon : wo = 4 → mayWriteCommon ag pg = true)
    (hidle : en = (pageOf s pg).enable ∨ (blkState s pg ≠ 2 ∧ blkState s pg ≠ 3)) :
    writeBlkCtrl s ag pg (flag 0 en + flag 1 qu + wo) =
      (applyIfIdle (setPage s pg (blkCtrlPage s pg en qu (decide (wo = 8)) (decide (wo = 4)))) pg, 0) := by
  obtain ⟨h0, h1, h2, h3⟩ := bit_blkCtrlWord en qu hwo
  have hperm : ¬ ((en != (pageOf s pg).enable || qu != (pageOf s pg).quiesce || decide (wo = 8)) && !mayWriteAll ag pg) = true := by
    simpa [or_assoc] using hall
  have hclr : ¬ (decide (wo = 4) && !mayWriteCommon ag pg) = true := by simpa using hcommon
  have hbusy : ¬ (en != (pageOf s pg).enable && (decide (blkState s pg = 2) || decide (blkState s pg = 3))) = true := by
    simp; tauto
  simp only [writeBlkCtrl, h0, h1, h2, h3, if_neg hperm, if_neg hclr, if_neg hbusy]
  rfl

/-- R44: a write that would change ENABLE of a block that is BUSY or QUIESCING is refused with CFG_BUSY. -/
theorem writeBlkCtrl_refusesBusy (hall : mayWriteAll ag pg = true) (hcommon : wo ≠ 4)
    (hne : en ≠ (pageOf s pg).enable) (hbusy : blkState s pg = 2 ∨ blkState s pg = 3) :
    writeBlkCtrl s ag pg (flag 0 en + flag 1 qu + wo) = refuseCfg s ag pg 8 0x2001 := by
  obtain ⟨h0, h1, h2, h3⟩ := bit_blkCtrlWord en qu hwo
  simp [writeBlkCtrl, h0, h1, h2, h3, hall, hcommon, hne, hbusy]

end BlkCtrl

/-- R35: a word written at BLK_CTRL or ERR_STATUS of a page that responds is written there, and the decoders that take work
again then take it. -/
theorem pageWrite_header {s t : State} {ag : Agent} {pg : PageId} {off v : Nat} (hup : pageUp s pg = true) (ho : off < 0x40)
    (hw : writeHeader s ag pg off v = (t, 0)) : (pageWrite s ag pg off v).1 = afterHeader t pg off := by
  simp [pageWrite, hup, doWrite, writeReg, ho, hw, show ¬ off ≥ 0x800 by omega]

/-- R43: a write of BLK_CTRL that is taken. -/
theorem pageWrite_blkCtrl {s t : State} {ag : Agent} {pg : PageId} {v : Nat} (hup : pageUp s pg = true)
    (hw : writeBlkCtrl s ag pg v = (t, 0)) : (pageWrite s ag pg 8 v).1 = afterHeader t pg 8 :=
  pageWrite_header hup (by decide) hw

/-- R44: an agent with all rights has the rights of every agent on the header. -/
theorem mayWriteCommon_of_all {ag : Agent} {pg : PageId} (h : mayWriteAll ag pg = true) : mayWriteCommon ag pg = true := by
  simp [mayWriteCommon, h]

/-- A page set twice is the page set the second time. -/
theorem setPage_setPage (s : State) (pg : PageId) (p q : Page) : setPage (setPage s pg p) pg q = setPage s pg q := by
  simp [setPage, mset, mdel]

/-- R47: with nothing pending, nothing applies. -/
theorem applyIfIdle_setPage_of_pend_nil {s : State} {pg : PageId} {p : Page} (h : p.pend = []) :
    applyIfIdle (setPage s pg p) pg = setPage s pg p := by
  have happly : ∀ n, p.apply n = p := fun n => by simp [Page.apply, h]
  simp only [applyIfIdle, pageOf_setPage, happly, setPage_setPage, ite_self]

/-- R49: the rest of the mask of a write of FIRST_VALID alone keeps ERROR_CLASS. -/
theorem writeErrStatus_firstRearm {s : State} {ag : Agent} {pg : PageId} (hc : mayWriteCommon ag pg = true) :
    writeErrStatus s ag pg 0x100 = (setPage s pg { pageOf s pg with
        firstValid := false, firstCode := 0, firstSf := 0, firstInfo := 0 }, 0) := by
  have h8 : bit 0x100 8 = true := by decide
  have h9 : bit 0x100 9 = false := by decide
  have h10 : bit 0x100 10 = false := by decide
  have hkeep : (pageOf s pg).classSeen &&& ~~~(BitVec.ofNat 5 0x100) = (pageOf s pg).classSeen := by
    rw [show ~~~(BitVec.ofNat 5 0x100) = BitVec.allOnes 5 by decide, BitVec.and_allOnes]
  simp only [writeErrStatus, hc, hkeep, h8, h9, h10]
  simp

/-- Settles O12: each clause is a write of BLK_CTRL or ERR_STATUS that is taken, or the one that is refused. -/
theorem headerWrites : Obligations.HeaderWrites := by
  intro s ag pg v
  refine ⟨fun hw h => ?_, fun hw hne hb => ?_, fun hw => ?_, fun hup hc => ?_, fun hw => ?_, fun hup hc => ?_⟩
  · have ht := writeBlkCtrl_takes (qu := (pageOf s pg).quiesce) (wo := 0) (.inl rfl) (fun _ => hw.2) nofun h
    exact congrArg Host.Outcome.next (pageWrite_blkCtrl hw.1 ht)
  · have hr := writeBlkCtrl_refusesBusy (qu := (pageOf s pg).quiesce) (wo := 0) (.inl rfl) hw.2 (by decide) hne hb
    rw [refuseCfg_eq s ag pg (by decide) (.inr rfl)] at hr
    exact ⟨_, congrArg Host.Outcome.next (pageWrite_refused hw.1 (by decide) hr (by decide)), _, rfl, rfl⟩
  · have ht := writeBlkCtrl_takes (s := s) (qu := v) (wo := 0) (.inl rfl) (fun _ => hw.2) nofun (.inl rfl)
    exact congrArg Host.Outcome.next (pageWrite_blkCtrl hw.1 ht)
  · have ht := writeBlkCtrl_takes (s := s) (qu := (pageOf s pg).quiesce) (wo := 4) (.inr (.inl rfl)) (by simp) (fun _ => hc)
      (.inl rfl)
    exact congrArg Host.Outcome.next (pageWrite_blkCtrl hup ht)
  · have ht := writeBlkCtrl_takes (s := s) (qu := (pageOf s pg).quiesce) (wo := 8) (.inr (.inr rfl)) (fun _ => hw.2) nofun (.inl rfl)
    rw [applyIfIdle_setPage_of_pend_nil rfl] at ht
    exact congrArg Host.Outcome.next (pageWrite_blkCtrl hw.1 ht)
  · have hw : writeHeader s ag pg 0x10 0x100 = _ := writeErrStatus_firstRearm hc
    have ha : ∀ t, afterHeader t pg 0x10 = t := fun t => by cases pg <;> rfl
    exact congrArg Host.Outcome.next ((pageWrite_header hup (by decide) hw).trans (ha _))

end Sys2Proof.HeaderWrites
end

section
/-! PROOFS. The submission window and the completion ring (R52, R53, R54), and the settlement of O14. -/
namespace Sys2Proof.SubmissionWindow
open Sys2Proof Sys2Proof.Machine Sys2Proof.Laws Sys2Proof.RegisterWrites

/-- R53: bytes written within the slots of one queue are stored where the queue is enabled, and dropped where it is not. -/
theorem windowWrite_oneQueue (s : State) (q : Fin 4) (off : Nat) (data : Bytes) (hlo : 0x800000 * q.val ≤ off)
    (hhi : off + data.length ≤ 0x800000 * (q.val + 1)) :
    windowWrite s off data = if sqEn s q then { s with win := memPut s.win off data } else s := by
  induction data generalizing s off with
  | nil => exact (ite_self s).symm
  | cons b l ih =>
    rw [List.length_cons] at hhi
    have hq : fin4 (off / 0x800000) = q := by
      have : off / 0x800000 = q.val := by omega
      exact Fin.ext (by simp only [fin4, this]; omega)
    have hin : off < 0x2000000 := by omega
    simp only [windowWrite, hq, hin]
    by_cases he : sqEn s q = true
    · simp only [he, decide_true, Bool.and_true, if_true]
      exact (ih { s with win := memWrite s.win off b } (off + 1) (by omega) (by omega)).trans (if_pos he)
    · simp only [he, Bool.and_false, Bool.false_eq_true, if_false]
      exact (ih s (off + 1) (by omega) (by omega)).trans (if_neg he)

/-! ## SQn_TAIL (R52, R53) -/

/-- R52: TAIL. -/
def tailFld : Fld := rwL 15 0 0 (.within 0 511)

/-- R52: SQn_TAIL is a register of one field. -/
theorem regDef?_tail (q : Fin 4) : regDef? .cpw (0x40 + 16 * q.val) = some (reg (0x40 + 16 * q.val) [tailFld]) := by
  fin_cases q <;> rfl

/-- R52: a write of a register of CPW is a write of its fields. -/
theorem writeReg_cpw (s : State) (ag : Agent) {off v : Nat} (h : 0x40 ≤ off) :
    writeReg s ag .cpw off v = writeField s ag .cpw off v := by
  simp [writeReg, show ¬ off < 0x40 by omega]

/-- R53: the occupancy of a queue at a tail. -/
def occupancy (s : State) (q : Fin 4) (tail : Nat) : Nat := (tail + 512 - mget s.cpw.heads q 0) % 512

/-- R53: SQn_TAIL is refused beyond its range exactly where it lowers the occupancy. -/
theorem extraRefusal_tail (s : State) (q : Fin 4) (v : Nat) :
    extraRefusal s .cpw (0x40 + 16 * q.val) 0 v =
      if occupancy s q (fld v 15 0) < occupancy s q (fldV s .cpw (0x40 + 16 * q.val) 15 0) then 0x2004 else 0 := by
  have hoff : 0x40 + 16 * q.val < 0x80 ∧ (0x40 + 16 * q.val) % 16 = 0 := by omega
  have hq : (⟨(0x40 + 16 * q.val - 0x40) / 16 % 4, by omega⟩ : Fin 4) = q := Fin.ext (by simp)
  simp only [extraRefusal, hoff, hq, occupancy]
  simp [fld]

theorem inRange_tail {x : Nat} : inRange tailFld.rng x = true ↔ x ≤ 511 := by
  rw [show tailFld.rng = .within 0 511 from rfl, inRange_within]
  omega

theorem afterWrite_tail (s u : State) (q : Fin 4) (v : Nat) : afterWrite s u .cpw (0x40 + 16 * q.val) v = u :=
  if_neg (by omega)

section Tail
variable {s : State} {ag : Agent} {q : Fin 4} {v : Word} (hw : Writable s ag .cpw)
include hw

/-- R53: a tail that does not lower the occupancy is taken. -/
theorem sqTail_takes (hr : fld v.toNat 15 0 ≤ 511)
    (ho : occupancy s q (fldV s .cpw (0x40 + 16 * q.val) 15 0) ≤ occupancy s q (fld v.toNat 15 0)) :
    Answers (.sqTailWrite ag q v) s (fun t =>
      Wrote s t .cpw (0x40 + 16 * q.val) 0 (wordWith s .cpw (0x40 + 16 * q.val) 0 15 0 (fld v.toNat 15 0))) := by
  have hx : extraRefusal s .cpw (0x40 + 16 * q.val) 0 v.toNat = 0 := by
    rw [extraRefusal_tail, if_neg (by omega)]
  have hro : rangesOk (reg (0x40 + 16 * q.val) [tailFld]) v.toNat = true := by
    simp [rangesOk, reg, tailFld, rwL, inRange]
    exact hr
  obtain ⟨t, ht, hwr⟩ := writeField_wrote s ag .cpw (0x40 + 16 * q.val) v.toNat _ (regDef?_tail q) hw.2 hro hx
    (by simp [reg, tailFld, rwL])
  refine ⟨t, congrArg Host.Outcome.next ?_, hwr⟩
  rw [pageWrite_accepted s ag .cpw _ v.toNat _ hw.1 hw.2 (by omega) (by omega) (regDef?_tail q) (writeReg_cpw s ag (by omega))
    (by rw [ht]), ht, afterWrite_tail]

/-- R53: a tail that lowers the occupancy is refused with SQ_TAIL_INVALID, and the old tail stays. -/
theorem sqTail_refusesLower (hr : fld v.toNat 15 0 ≤ 511)
    (ho : occupancy s q (fld v.toNat 15 0) < occupancy s q (fldV s .cpw (0x40 + 16 * q.val) 15 0)) :
    exec (.sqTailWrite ag q v) s = .next (raise s .cpw 0x2004 (0x40 + 16 * q.val + 4096 * agentNum ag)) := by
  have hx : extraRefusal s .cpw (0x40 + 16 * q.val) 0 v.toNat = 0x2004 := by
    rw [extraRefusal_tail, if_pos ho]
  have hwf : writeReg s ag .cpw (0x40 + 16 * q.val) v.toNat =
      (raise s .cpw 0x2004 (0x40 + 16 * q.val + 4096 * agentNum ag), 0x2004) := by
    rw [writeReg_cpw s ag (by omega), writeField_oneField (regDef?_tail q) rfl, hx, if_neg (by simp [hw.2]),
      if_neg (by simp [show inRange tailFld.rng (fld v.toNat tailFld.hi tailFld.lo) = true from inRange_tail.2 hr]),
      if_pos (by decide)]
    have hinfo : refusalInfo ag (0x40 + 16 * q.val) false = 0x40 + 16 * q.val + 4096 * agentNum ag := by
      simp only [refusalInfo, Bool.false_eq_true, if_false]
      omega
    rw [refuseCfg, hinfo, if_neg (by decide)]
  exact congrArg Host.Outcome.next (pageWrite_refused hw.1 (by omega) hwf (by decide))

/-- R48, R52: a tail above 511 is refused with CFG_RANGE. -/
theorem sqTail_refusesRange (hr : 511 < fld v.toNat 15 0) :
    Answers (.sqTailWrite ag q v) s (fun t => ∃ u, u = raise s .cpw 0x2008 (0x40 + 16 * q.val + 4096 * agentNum ag) ∧
      t = setPage u .cpw { pageOf u .cpw with cfgRefused := true }) := by
  have hout : inRange tailFld.rng (fld v.toNat 15 0) = false := Bool.eq_false_iff.2 fun h => by have := inRange_tail.1 h; omega
  have hwf := (writeReg_cpw s ag (show 0x40 ≤ 0x40 + 16 * q.val by omega)).trans
    (writeField_refusesRange (regDef?_tail q) rfl s ag v.toNat hw.2 (.inl hout))
  rw [refuseCfg_eq s ag .cpw (by omega) (.inl rfl)] at hwf
  exact ⟨_, congrArg Host.Outcome.next (pageWrite_refused hw.1 (by omega) hwf (by decide)), _, rfl, rfl⟩

end Tail

/-! ## CQ_HEAD (R52, R54) -/

theorem regDef?_cqHead : regDef? .cpw 0x8C = some (reg 0x8C [rwL 11 0 0]) := rfl

/-- R54: with nothing held, an advance of the ring ends the hold. -/
theorem cqAdvanced_of_held_nil {s : State} (h : s.cpw.held = []) :
    cqAdvanced s = { s with cpw := { s.cpw with fullSf := none, stalled := false } } := by
  simp [cqAdvanced, h, drainCq]

/-- R54: CQ_HEAD takes every value, and completions held are then written. -/
theorem cqHead_takes {s : State} {ag : Agent} {v : Word} (hw : Writable s ag .cpw) :
    ∃ u, Wrote s u .cpw 0x8C 0 (wordWith s .cpw 0x8C 0 11 0 (fld v.toNat 11 0)) ∧
      exec (.cqHeadWrite ag v) s = .next (cqAdvanced u) ∧
      (s.cpw.held = [] → cqAdvanced u = { u with cpw := { s.cpw with fullSf := none, stalled := false } }) := by
  obtain ⟨u, hu, hwr⟩ := writeField_wrote s ag .cpw 0x8C v.toNat _ regDef?_cqHead hw.2 rfl rfl (by simp [reg, rwL])
  have hcpw : u.cpw = s.cpw := hwr.1.1 .cpw (by simp)
  refine ⟨u, hwr, congrArg Host.Outcome.next ?_, fun h => ?_⟩
  · rw [pageWrite_accepted s ag .cpw 0x8C v.toNat _ hw.1 hw.2 (by decide) (by decide) regDef?_cqHead
      (writeReg_cpw s ag (by decide)) (by rw [hu]), hu]
    rfl
  · rw [cqAdvanced_of_held_nil (by rw [hcpw, h]), hcpw]

/-- Settles O14: the window, the tail and CQ_HEAD by the rules above, the timers by their conditions. -/
theorem windowAndRing : Obligations.WindowAndRing := by
  intro s q ag v
  refine ⟨fun off data hlo hhi => congrArg Host.Outcome.next (windowWrite_oneQueue s q _ data hlo hhi), sqTail_takes,
    sqTail_refusesLower, sqTail_refusesRange, cqHead_takes, fun f hf hheld hst hlim => ?_, fun hst => ?_, fun hi => ?_⟩
  · have hlate : ¬ 8 * (s.sf - f) < fldV s .cpw 0x9C 23 0 := by omega
    change execCqStall s = _
    simp [execCqStall, hf, hheld, hst, hlate]
  · change execCqStall s = _
    unfold execCqStall
    cases s.cpw.fullSf <;> simp [hst]
  · exact congrArg Host.Outcome.next (if_pos hi)

end Sys2Proof.SubmissionWindow
end

section
/-! PROOFS. The I3C target (R57, R58, R59), and the settlement of O15. -/
namespace Sys2Proof.I3cTarget
open Sys2Proof Sys2Proof.Machine Sys2Proof.Laws

/-- R58: a word read moves the index and nothing that a register shows. -/
theorem i3cReg_next (s : State) (w : Emission) (x : Nat) : i3cReg (i3cNext (emit s w)) x = i3cReg s x := rfl

/-- R58: n words read from the index on: each is the register's value there, and the index ends 4n further. -/
theorem i3cRead_eq (n : Nat) (s : State) :
    i3cRead n s = { s with
      i3c := { s.i3c with index := s.i3c.index + BitVec.ofNat 16 (4 * n) },
      out := s.out ++ (List.range n).map (fun i =>
        Emission.i3cWord (BitVec.ofNat 32 (i3cReg s (s.i3c.index + BitVec.ofNat 16 (4 * i)).toNat))) } := by
  induction n generalizing s with
  | zero => simp [i3cRead]
  | succ n ih =>
    have hindex : ∀ i, s.i3c.index + 4 + BitVec.ofNat 16 (4 * i) = s.i3c.index + BitVec.ofNat 16 (4 * (i + 1)) := by
      intro i
      rw [Nat.mul_add, Nat.add_comm, BitVec.ofNat_add, BitVec.add_assoc]
      rfl
    have hfirst : s.i3c.index + BitVec.ofNat 16 (4 * 0) = s.i3c.index := BitVec.add_zero _
    rw [i3cRead, ih, List.range_succ_eq_map, List.map_cons, List.map_map]
    simp only [i3cReg_next]
    simp only [i3cNext, emit, hindex, hfirst, List.append_assoc, List.singleton_append]
    rfl

/-- R58: the index after the word at a given index. -/
theorem i3cNext_at {s : State} {ix : BitVec 16} (h : s.i3c.index = ix) :
    i3cNext s = { s with i3c := { s.i3c with index := ix + 4 } } := by rw [i3cNext, h]

/-- Settles O15: each clause is its command on a target that answers. -/
theorem i3cTarget : Obligations.I3cTarget := by
  intro s a ibi ix n v hup
  have haddr : exec (.entdaa ⟨a, ibi⟩) s = .next (i3cAddress s a ibi) ∧ exec (.setdasa ⟨a, ibi⟩) s = .next (i3cAddress s a ibi) :=
    ⟨rfl, rfl⟩
  refine ⟨fun h => ?_, fun b h => ?_, ?_, fun hx hlo hhi => ?_, fun hx h => ?_, fun hx hx' => ?_, fun hx => ?_⟩
  · simp [haddr, i3cAddress, hup, h]
  · simp [haddr, i3cAddress, hup, h]
  · exact congrArg Host.Outcome.next ((if_pos hup).trans (i3cRead_eq n _))
  · have hr : (decide (1000 ≤ v.toNat) && decide (v.toNat ≤ 2800)) = true := by simp [hlo, hhi]
    refine congrArg Host.Outcome.next ((if_neg (by simp [hup, hx])).trans ((if_pos hr).trans ?_))
    rw [i3cNext_at hx]
    rfl
  · have hr : ¬ (decide (1000 ≤ v.toNat) && decide (v.toNat ≤ 2800)) = true := by simp; omega
    refine congrArg Host.Outcome.next ((if_neg (by simp [hup, hx])).trans ((if_neg hr).trans ?_))
    rw [i3cNext_at hx]
    rfl
  · exact congrArg Host.Outcome.next (if_neg (by simpa [hup] using ⟨hx, hx'⟩))
  · refine congrArg Host.Outcome.next ((if_neg (by simp [hup, hx])).trans ?_)
    rw [i3cNext_at hx]
    cases v.getLsbD 0 <;> simp

end Sys2Proof.I3cTarget
end

section
/-! PROOFS. Accepted packets (R91): what serving one answers, and what answering it can change (R54, R89, R105, R106). -/
namespace Sys2Proof.AcceptedPackets
open Sys2Proof Sys2Proof.Machine Sys2Proof.Laws

/-- R106: a packet's release of credits leaves the FENCEs. -/
theorem fenced_released (k : Ctx) (s : State) (org : Origin) (stream : BitVec 8) :
    fenced (released k s) org stream = fenced s org stream := by
  unfold released updCredit
  split
  · rfl
  · split <;> rfl

section
variable {s : State} {via : Via} {p : Packet} {k : Ctx} {u : State} (h : Accepted s via p k u)
include h

/-- R91: an accepted packet is served as its context on the state in which its credits are released, and then settled. -/
theorem receive_of_accepted (f : Ctx → State → State × Disp) : receive via p f s = settle k (f k u) := by
  obtain ⟨a, hin, hhdr, hperm, rfl, hcr, rfl, hfen⟩ := h
  rw [fenced_released] at hfen
  simp only [receive, hin, hhdr, hperm]
  rw [if_neg (by decide)]
  simp only [Ctx.h, Ctx.cost] at hcr hfen ⊢
  simp [hcr, hfen, handle]

/-- R91: a row of the table whose packet is accepted answers the serving of that packet. -/
theorem rowPacket_of_accepted {row : Header → Bool} (hrow : row p.hdr = true) :
    rowPacket row via p s = settle k (serve k u) := (if_pos hrow).trans (receive_of_accepted h serve)

theorem accepted_pkt : k.pkt = p := by
  obtain ⟨a, -, -, -, rfl, -⟩ := h
  rfl

end

/-! ## What answering a packet can change -/

/-- The parts that the answer to a packet may change: the fabric's tables and queues, the completion ring, and what leaves. -/
def answerParts : List Part := [.fab, .egress, .cpw, .out, .ctr, .msix]

theorem onlyChanges_fab (s : State) (f : Fab) : OnlyChanges [.fab] s { s with fab := f } := by
  intro p hp
  cases p <;> first | rfl | simp at hp

theorem onlyChanges_cpw (s : State) (c : Cpw) : OnlyChanges [.cpw] s { s with cpw := c } := by
  intro p hp
  cases p <;> first | rfl | simp at hp

theorem onlyChanges_putSrc (s : State) (x : Source) : OnlyChanges [.fab] s (putSrc s x) := onlyChanges_fab s _

/-- R54: a completion written in the ring. -/
theorem onlyChanges_cqWrite (s : State) (p : Packet) : OnlyChanges [.cpw, .out, .ctr, .msix] s (cqWrite s p) := by
  simp only [cqWrite]
  have hout : OnlyChanges [.out, .ctr] s (emit (emit (count s .cpw 1 1) (.hostSlot (cqBase (count s .cpw 1 1) +
      (count s .cpw 1 1).cpw.tail * 16384) p)) (.hostTail (cqWb (count s .cpw 1 1)) ((s.cpw.tail + 1) % cqSlots s))) :=
    onlyChanges_mono (onlyChanges_trans (onlyChanges_trans (onlyChanges_count _ _ _ _) (onlyChanges_emit _ _))
      (onlyChanges_emit _ _)) (by simp)
  refine onlyChanges_ite _ ?_ ?_
  · exact onlyChanges_mono (onlyChanges_trans (onlyChanges_trans hout (onlyChanges_cpw _ _)) (onlyChanges_notify _ _)) (by simp)
  · exact onlyChanges_mono (onlyChanges_trans hout (onlyChanges_cpw _ _)) (by simp)

/-- R54: a completion written, or held while the ring is full. -/
theorem onlyChanges_cqPush (s : State) (p : Packet) : OnlyChanges [.cpw, .out, .ctr, .msix] s (cqPush s p) :=
  onlyChanges_ite _ (onlyChanges_cqWrite s p) (onlyChanges_mono (onlyChanges_cpw _ _) (by simp))

/-- R89: a packet sent to its origin. -/
theorem onlyChanges_sendHdr (s : State) (org : Origin) (vc : Fvc) (h : Header) (b : Bytes) :
    OnlyChanges answerParts s (sendHdr s org vc h b) := by
  cases org with
  | win q => exact onlyChanges_mono (onlyChanges_cqPush _ _) (by simp [answerParts])
  | fabric ip id =>
    simp only [sendHdr]
    split
    · exact onlyChanges_refl _ _
    · exact onlyChanges_mono (onlyChanges_trans (onlyChanges_putSrc _ _) (onlyChanges_egPush _ _ _ _ _)) (by simp [answerParts])

theorem onlyChanges_sendTo (s : State) (org : Origin) (vc : Fvc) (h : Header) (b : Bytes) :
    OnlyChanges answerParts s (sendTo s org vc h b) := onlyChanges_sendHdr _ _ _ _ _

theorem onlyChanges_sendComplete (s : State) (org : Origin) (h : Header) (st : Nat) (b : Bytes) :
    OnlyChanges answerParts s (sendComplete s org h st b) := onlyChanges_sendTo _ _ _ _ _

theorem onlyChanges_refuseBare (s : State) (k : Ctx) (code : Nat) : OnlyChanges answerParts s (refuseBare s k code) := by
  have hcount := onlyChanges_count s (.tm (viaQuad k.via)) 1 1
  simp only [refuseBare]
  split
  · simp only [refuseRaw]
    split
    · exact onlyChanges_mono (onlyChanges_trans hcount (onlyChanges_cqPush _ _)) (by simp [answerParts])
    · exact onlyChanges_mono (onlyChanges_trans hcount (onlyChanges_egPush _ _ _ _ _)) (by simp [answerParts])
  · exact onlyChanges_mono (onlyChanges_trans hcount (onlyChanges_sendHdr _ _ _ _ _)) (by simp [answerParts])

theorem onlyChanges_updCredit (s : State) (org : Origin) (vc : Fvc) (f : Credit → Credit) :
    OnlyChanges [.fab] s (updCredit s org vc f) := by
  unfold updCredit
  split
  · exact onlyChanges_putSrc _ _
  · exact onlyChanges_refl _ _

/-- R106: half a grant's credits reported. -/
theorem onlyChanges_reportHalf (s : State) (org : Origin) (vc : Fvc) : OnlyChanges answerParts s (reportHalf s org vc) := by
  unfold reportHalf
  split
  · exact onlyChanges_ite _ (onlyChanges_sendTo _ _ _ _ _) (onlyChanges_refl _ _)
  · exact onlyChanges_refl _ _

/-- R89, R110: what settling a packet adds to what its serving changed. -/
theorem onlyChanges_settle (k : Ctx) (r : State × Disp) : OnlyChanges answerParts r.1 (settle k r) := by
  obtain ⟨t, d⟩ := r
  have hreport : OnlyChanges answerParts t (if k.cost = 0 then t else reportHalf t k.org k.vc) :=
    onlyChanges_ite _ (onlyChanges_refl _ _) (onlyChanges_reportHalf _ _ _)
  have hfab : ∀ {v : State} (f : Fab), OnlyChanges answerParts t v → OnlyChanges answerParts t { v with fab := f } :=
    fun f h => onlyChanges_mono (onlyChanges_trans h (onlyChanges_fab _ f)) (by simp [answerParts])
  cases d with
  | taken => exact hfab _ hreport
  | done st => exact hfab _ (hfab _ hreport)
  | refuse code => exact hfab _ (hfab _ (hfab _ (onlyChanges_refuseBare _ _ _)))
  | held => exact hreport
  | waits =>
    exact onlyChanges_ite _ (onlyChanges_refl _ _) (onlyChanges_mono (onlyChanges_updCredit _ _ _ _) (by simp [answerParts]))

theorem onlyChanges_policeIn (s : State) (p : Fin 64) (c wire : Nat) : OnlyChanges [.police] s (policeIn s p c wire).1 := by
  unfold policeIn
  dsimp only
  split
  · exact onlyChanges_refl _ _
  · split
    · intro p hp
      cases p <;> first | rfl | simp at hp
    · exact onlyChanges_refl _ _

/-- R380: what the arrival of a packet changes. -/
theorem onlyChanges_ingress {s a : State} {via : Via} {p : Packet} (h : ingress s via p = some a) :
    OnlyChanges [.fab, .police] s a := by
  cases via with
  | window q => cases h; exact onlyChanges_refl _ _
  | fabric d =>
    have hpol := onlyChanges_policeIn s d.port (p.hdr.vc.toNat % 4) (wireSize (isV6 d.ip) d.tagged (d.udpLen - 8))
    simp only [ingress] at h
    split at h
    · cases h
    · split at h
      · cases h
      · split at h
        · cases h
          exact onlyChanges_mono hpol (by simp)
        · split at h
          · cases h
            exact onlyChanges_mono (onlyChanges_trans hpol (onlyChanges_fab _ _)) (by simp)
          · cases h

theorem onlyChanges_creditStep (s : State) (org : Origin) (h : Header) (cost : Nat) :
    OnlyChanges [.fab] s (creditStep s org h cost).1 := by
  fun_cases creditStep with
  | case5 => exact onlyChanges_putSrc _ _
  | _ => exact onlyChanges_refl _ _

/-- R91, R380: what a packet's acceptance changes. -/
theorem onlyChanges_accepted {s : State} {via : Via} {p : Packet} {k : Ctx} {u : State} (h : Accepted s via p k u) :
    OnlyChanges [.fab, .police] s u := by
  obtain ⟨a, hin, -, -, -, -, rfl, -⟩ := h
  have hn : ∀ t, OnlyChanges [.fab] t (newFlight t k) := fun t => onlyChanges_fab _ _
  have hr : ∀ t, OnlyChanges [.fab] t (released k t) := fun t =>
    onlyChanges_ite _ (onlyChanges_refl _ _) (onlyChanges_updCredit _ _ _ _)
  exact onlyChanges_mono (onlyChanges_trans (onlyChanges_trans (onlyChanges_trans (onlyChanges_ingress hin)
    (onlyChanges_creditStep _ _ _ _)) (hn _)) (hr _))
    (by simp)

end Sys2Proof.AcceptedPackets
end

section
/-! PROOFS. NOP, credits and submission slots (R53, R106, R108, R109), and the settlement of O23. -/
namespace Sys2Proof.CreditsAndSlots
open Sys2Proof Sys2Proof.Machine Sys2Proof.Laws Sys2Proof.AcceptedPackets

/-! ## The source table -/

/-- A source put back under its address and number is the one found there. -/
theorem findSrc_putSrc {s : State} {ip : BitVec 128} {id : BitVec 16} {x y : Source} (hx : findSrc s ip id = some x)
    (hip : y.ip = x.ip) (hid : y.id = x.id) : findSrc (putSrc s y) ip id = some y := by
  have hkey : isSrc ip id x = true := List.find?_some hx
  simp only [isSrc, Bool.and_eq_true, beq_iff_eq] at hkey
  have hy : y.ip = ip ∧ y.id = id := ⟨hip.trans hkey.1, hid.trans hkey.2⟩
  simp only [findSrc, putSrc] at hx ⊢
  rw [hy.1, hy.2]
  generalize s.fab.srcs = l at hx
  induction l with
  | nil => simp at hx
  | cons z l ih =>
    by_cases hz : isSrc ip id z = true
    · have hyk : isSrc ip id y = true := by simp [isSrc, hy]
      simp [hz, hyk]
    · simp only [List.map_cons, hz]
      rw [List.find?_cons_of_neg (by simpa using hz)] at hx
      simp only [Bool.false_eq_true, if_false]
      rw [List.find?_cons_of_neg (by simpa using hz)]
      exact ih hx

theorem get_set_same {α : Type} (v : Vc4 α) (c : Fvc) (x : α) : (v.set c x).get c = x := by
  cases c <;> rfl

/-- R105: a CREDIT packet reports the credits of its VC and changes no other of its source's values. -/
theorem sendCredit_reports {s : State} {ip : BitVec 128} {id : BitVec 16} (vc : Fvc) {x : Source} (hx : findSrc s ip id = some x)
    (stream : BitVec 8) (tag : BitVec 32) :
    OnlyChanges [.fab, .egress] s (sendCredit s ip id vc stream tag) ∧
      findSrc (sendCredit s ip id vc stream tag) ip id =
        some { x with credit := x.credit.set vc { x.credit.get vc with unrep := 0 } } := by
  simp only [sendCredit, sendTo, sendHdr, hx, sendDgram]
  have hput := findSrc_putSrc (y := { x with credit := x.credit.set vc { x.credit.get vc with unrep := 0 } }) hx rfl rfl
  have heg := fun s p c b w => onlyChanges_egPush s p c b w
  refine ⟨onlyChanges_mono (onlyChanges_trans (onlyChanges_putSrc _ _) (heg _ _ _ _ _)) (by simp), ?_⟩
  have hfab := heg (putSrc s { x with credit := x.credit.set vc { x.credit.get vc with unrep := 0 } }) 
  rw [findSrc, (hfab _ _ _ _ .fab (by simp) : _ = _)]
  exact hput

/-- R108: a gap written off: CREDIT_RETURN and the count of credits written off rise by the gap's, and the gap is gone. -/
theorem writeOff_gap (c : Credit) (g : Gap) (sf : Nat) :
    (writeOff c g sf).ret = c.ret + BitVec.ofNat 32 ((g.hi - g.lo).toNat + 1) ∧
    (writeOff c g sf).off = c.off + ((g.hi - g.lo).toNat + 1) ∧ (writeOff c g sf).gaps = c.gaps.filter (· != g) :=
  ⟨rfl, rfl, rfl⟩

/-- R108: the lowest gap that has stood for two superframes is written off, and a CREDIT packet may follow. -/
theorem creditGapWriteOff_answers {s : State} {ip : BitVec 128} {id : BitVec 16} {vc : Fvc} {x : Source}
    (hx : findSrc s ip id = some x) {g : Gap} (hg : (x.credit.get vc).gaps.find? (fun g => decide (g.sf + 2 ≤ s.sf)) = some g) :
    Answers (.creditGapWriteOff ip id vc) s (fun t => OnlyChanges [.fab, .egress] s t ∧
      ∃ y, findSrc t ip id = some y ∧
        (y.credit.get vc).ret = (x.credit.get vc).ret + BitVec.ofNat 32 ((g.hi - g.lo).toNat + 1) ∧
        (y.credit.get vc).off = (x.credit.get vc).off + ((g.hi - g.lo).toNat + 1) ∧
        (y.credit.get vc).gaps = (x.credit.get vc).gaps.filter (· != g)) := by
  refine ⟨_, rfl, ?_⟩
  obtain ⟨hret, hoff, hgaps⟩ := writeOff_gap (x.credit.get vc) g s.sf
  simp only [hx, hg]
  generalize writeOff (x.credit.get vc) g s.sf = c at *
  have hput := findSrc_putSrc (y := { x with credit := x.credit.set vc c }) hx rfl rfl
  have honly := onlyChanges_putSrc s { x with credit := x.credit.set vc c }
  split
  · obtain ⟨hsend, hfind⟩ := sendCredit_reports vc hput 0 0
    refine ⟨onlyChanges_mono (onlyChanges_trans honly hsend) (by simp), _, hfind, ?_⟩
    simpa only [get_set_same] using ⟨hret, hoff, hgaps⟩
  · refine ⟨onlyChanges_mono honly (by simp), _, hput, ?_⟩
    simpa only [get_set_same] using ⟨hret, hoff, hgaps⟩

/-- R106: credits that have not been reported are reported in a CREDIT packet. -/
theorem creditReport_reports {s : State} {ip : BitVec 128} {id : BitVec 16} {vc : Fvc} {x : Source}
    (hx : findSrc s ip id = some x) (h : (x.credit.get vc).unrep ≠ 0) :
    exec (.creditReport ip id vc) s = .next (sendCredit s ip id vc 0 0) ∧
      ∃ y, findSrc (sendCredit s ip id vc 0 0) ip id = some y ∧ (y.credit.get vc).unrep = 0 ∧
        (y.credit.get vc).ret = (x.credit.get vc).ret := by
  refine ⟨?_, _, (sendCredit_reports vc hx 0 0).2, ?_⟩
  · change execCreditReport ip id vc s = _
    simp [execCreditReport, hx, h]
  · simp only [get_set_same, and_self]

/-- R53: the slot at the head of an enabled queue is taken while the page takes work, or in BARE. -/
theorem exec_sqSlotTake {s : State} {q : Fin 4} (hen : sqEn s q = true) (hw : s.mode = some .bare ∨ takesWork s .cpw = true)
    (hne : mget s.cpw.heads q 0 ≠ fldV s .cpw (0x40 + 0x10 * q.val) 15 0) :
    exec (.sqSlotTake q) s = .next (takeSlot
      (count { s with cpw := { s.cpw with heads := mset s.cpw.heads q ((mget s.cpw.heads q 0 + 1) % 512) } } .cpw 0 1) q
      (slotPacket s q (mget s.cpw.heads q 0))) :=
  congrArg Host.Outcome.next (if_pos (by simpa [hen, hne] using hw))

/-- Settles O23: NOP as an accepted packet, the credits by the source table, the slots by their head. -/
theorem creditsAndSlots : Obligations.CreditsAndSlots := by
  refine ⟨fun s via p k u ha hop => ?_, fun s ip id vc x hx => ⟨creditReport_reports hx, fun g => creditGapWriteOff_answers hx⟩,
    fun s q hen hw => ⟨fun hne => ⟨fun v t hal => ?_, fun hal => ?_⟩,
      fun he => congrArg Host.Outcome.next (if_neg (by simp [he]))⟩⟩
  · have hserve : serve k u = nopCore k u := by simp [serve, Ctx.h, accepted_pkt ha, hop]
    refine congrArg Host.Outcome.next ((rowPacket_of_accepted ha (by simp [opIs, hop])).trans ?_)
    rw [hserve, nopCore, Ctx.h, accepted_pkt ha]
  · rw [exec_sqSlotTake hen hw hne, takeSlot, hal]
  · rw [exec_sqSlotTake hen hw hne, takeSlot, hal]

end Sys2Proof.CreditsAndSlots
end

section
/-! PROOFS. MGMT of one chunk (R74, R102, R103), and the settlement of O24. -/
namespace Sys2Proof.MgmtFunctions
open Sys2Proof Sys2Proof.Machine Sys2Proof.Laws Sys2Proof.AcceptedPackets

/-- R102: a parameter block of one chunk is handed to its function at once. -/
theorem assembled_oneChunk (f : Ctx → State → State × Disp) {k : Ctx} (s : State) (hi : k.h.chunkIndex = 0)
    (hn : k.h.chunkCount.toNat ≤ 1) : assembled f k s = f k s := by
  have hone : max k.h.chunkCount.toNat 1 = 1 := by omega
  simp [assembled, hi, hone]

/-- What holds of every record holds of the list of them. -/
theorem all_map_range {α : Type} {n : Nat} {f : Nat → α} {q : α → Bool} (h : ∀ i < n, q (f i) = true) :
    ((List.range n).map f).all q = true := by
  simpa using h

section
variable {s : State} {via : Via} {p : Packet} {k : Ctx} {u : State} (ha : Accepted s via p k u) (hop : p.hdr.opcode = 0x0A)
  (hi : p.hdr.chunkIndex = 0) (hn : p.hdr.chunkCount.toNat ≤ 1)
include ha hop hi hn

/-- R102: an accepted MGMT of one chunk is answered by its function. -/
theorem mgmt_oneChunk {f : Nat} {g : Ctx → State → State × Disp} (hf : p.hdr.arg0.toNat = f)
    (hcore : k.h.arg0.toNat = f → mgmtCore k u = assembled g k u) :
    rowPacket (mgmtIs f) via p s = settle k (g k u) := by
  have hk := accepted_pkt ha
  have hserve : serve k u = mgmtCore k u := by simp [serve, Ctx.h, hk, hop]
  rw [rowPacket_of_accepted ha (by simp [mgmtIs, opIs, hop, hf]), hserve, hcore (by rw [Ctx.h, hk, hf]),
    assembled_oneChunk g u (by rw [Ctx.h, hk, hi]) (by rw [Ctx.h, hk]; exact hn)]

theorem exec_netCfg (hf : p.hdr.arg0 = 1) : exec (.netCfg via p) s = .next (settle k (netCfg k u)) :=
  congrArg Host.Outcome.next (mgmt_oneChunk ha hop hi hn (f := 1) (by simp [hf]) fun h => by simp only [mgmtCore, h])

theorem exec_srcRule (hf : p.hdr.arg0 = 2) : exec (.srcRule via p) s = .next (settle k (srcRule k u)) :=
  congrArg Host.Outcome.next (mgmt_oneChunk ha hop hi hn (f := 2) (by simp [hf]) fun h => by simp only [mgmtCore, h])

theorem exec_setEpoch (hf : p.hdr.arg0 = 3) : exec (.setEpoch via p) s = .next (settle k (setEpoch k u)) :=
  congrArg Host.Outcome.next (mgmt_oneChunk ha hop hi hn (f := 3) (by simp [hf]) fun h => by simp only [mgmtCore, h])

theorem exec_pageRead (hf : p.hdr.arg0 = 4) : exec (.pageRead via p) s = .next (settle k (pageRead k u)) :=
  congrArg Host.Outcome.next (mgmt_oneChunk ha hop hi hn (f := 4) (by simp [hf]) fun h => by simp only [mgmtCore, h])

theorem exec_pageWrite (hf : p.hdr.arg0 = 5) : exec (.pageWrite via p) s = .next (settle k (pageWriteFn k u)) :=
  congrArg Host.Outcome.next (mgmt_oneChunk ha hop hi hn (f := 5) (by simp [hf]) fun h => by simp only [mgmtCore, h])

end

/-- R102: NET_CFG without a payload reads the configuration. -/
theorem netCfg_reads {k : Ctx} (s : State) (h : k.pkt.payload = []) : netCfg k s = completeNow s k (netBytes s.fab.net) := by
  simp [netCfg, h]

/-- R33, R102: NET_CFG in range is taken where it changes nothing, or no link, plan or traffic manager forbids it. -/
theorem netCfg_sets {k : Ctx} {s : State} (hl : k.pkt.payload.length = 144) (h0 : byteAt k.pkt.payload 0 ≤ 31)
    (h1 : byteAt k.pkt.payload 1 ≤ 63) (hok : netOk k.pkt.payload = true)
    (h : parseNet k.pkt.payload = s.fab.net ∨
        ((∀ l : LinkId, linkState s l = 0) ∧ s.plans.slot0.st = .empty ∧ s.plans.slot1.st = .empty ∧
          ∀ q : Fin 4, blkState s (.tm q) ≠ 2 ∧ blkState s (.tm q) ≠ 3)) :
    netCfg k s = completeNow { s with fab := { s.fab with net := parseNet k.pkt.payload } } k [] := by
  have hne : k.pkt.payload.isEmpty = false := by
    cases hb : k.pkt.payload with
    | nil => simp [hb] at hl
    | cons b l => rfl
  have hfree : ¬ (((parseNet k.pkt.payload).number != s.fab.net.number &&
      (allLinks.any (fun l => linkState s l != 0) || (s.plans.slot0.st != .empty || s.plans.slot1.st != .empty))) ||
      (parseNet k.pkt.payload != s.fab.net &&
        (List.finRange 4).any (fun q => blkState s (.tm q) == 2 || blkState s (.tm q) == 3))) = true := by
    rcases h with h | ⟨hlinks, hs0, hs1, htm⟩
    · simp [h]
    · simp [hlinks, hs0, hs1, htm]
  simp only [netCfg, hne, hl, hok, Bool.false_eq_true, if_false, ne_eq, not_true, Bool.not_true]
  rw [if_neg (by simp; omega)]
  exact if_neg hfree

/-- R103: a SRC_RULE of 1 to 256 entries, all in their ranges, replaces the rules and matches every attached source anew. -/
theorem srcRule_replaces {k : Ctx} (s : State) {n : Nat} (h1 : 1 ≤ n) (h256 : n ≤ 256) (hl : k.pkt.payload.length = 32 * n)
    (hok : ∀ i < n, ruleOk (slice k.pkt.payload (32 * i) 32) = true) :
    let rules := (List.range n).map (fun i => parseRule (slice k.pkt.payload (32 * i) 32))
    srcRule k s = completeNow { s with fab := { s.fab with rules := rules, srcs := s.fab.srcs.map (rematch rules) } } k [] := by
  have hdiv : 32 * n / 32 = n := by omega
  have hne : ((List.range n).map (fun i => slice k.pkt.payload (32 * i) 32)).isEmpty = false := by
    simp; omega
  have hall := all_map_range hok
  simp only [srcRule, hl, hdiv]
  rw [if_neg (by simp [hall]; simp at hne; omega)]
  simp only [List.map_map, Function.comp_def]

theorem onlyChanges_forgetJob (s : State) (j : Nat) : OnlyChanges [.plans, .coll] s (forgetJob s j) := by
  intro p hp
  cases p <;> first | rfl | simp at hp

theorem onlyChanges_setJob (s : State) (j : Nat) (x : Job) : OnlyChanges [.outer] s (setJob s j x) := by
  intro p hp
  cases p <;> first | rfl | simp at hp

theorem onlyChanges_rseq (s : State) (r : Rseq) : OnlyChanges [.rseq] s { s with rseq := r } := by
  intro p hp
  cases p <;> first | rfl | simp at hp

theorem jobOf_setJob (s : State) (j : Nat) (x : Job) : jobOf (setJob s j x) j = x := mget_mset_same _ _ _ _

/-- R74: SET_EPOCH with a number in range, while no plan of the job runs, makes it the job's current epoch. -/
theorem setEpoch_sets {k : Ctx} {s : State} (hl : k.pkt.payload.length = 8) (h2 : beAt k.pkt.payload 2 2 = 0)
    (he : beAt k.pkt.payload 4 4 ≤ 0xFFFFFFFE) (hr : planRuns s (beAt k.pkt.payload 0 2) = false) :
    ∃ t, setEpoch k s = completeNow t k [] ∧ (jobOf t (beAt k.pkt.payload 0 2)).epoch = beAt k.pkt.payload 4 4 ∧
      (jobOf t (beAt k.pkt.payload 0 2)).prev = false ∧ OnlyChanges [.plans, .coll, .outer, .rseq] s t := by
  simp only [setEpoch]
  rw [if_neg (by simp [hl, h2]; omega), if_neg (by simp [hr])]
  generalize hj : beAt k.pkt.payload 0 2 = j
  generalize beAt k.pkt.payload 4 4 = e
  generalize hv : (if (jobOf s j).lost = true then forgetJob s j else s) = v
  have hforget : OnlyChanges [.plans, .coll] s v := hv ▸ onlyChanges_ite _ (onlyChanges_forgetJob s j) (onlyChanges_refl _ _)
  have hjob := onlyChanges_setJob v j { jobOf v j with epoch := e, prev := false, lost := false }
  have hset := jobOf_setJob v j { jobOf v j with epoch := e, prev := false, lost := false }
  generalize setJob v j _ = x at hjob hset
  have hlevel : OnlyChanges [.rseq] x (if mget x.rseq.level j 0 = 5 then
      { x with rseq := { x.rseq with level := mdel x.rseq.level j } } else x) :=
    onlyChanges_ite _ (onlyChanges_rseq _ _) (onlyChanges_refl _ _)
  refine ⟨_, rfl, ?_⟩
  have houter := hlevel .outer (by simp)
  simp only [jobOf, Part.same] at houter hset ⊢
  rw [houter, hset]
  exact ⟨rfl, rfl, onlyChanges_mono (onlyChanges_trans (onlyChanges_trans hforget hjob) hlevel) (by simp)⟩

/-- R102: a PAGE_READ in range reads the registers named. -/
theorem pageRead_reads {k : Ctx} (s : State) (hl : k.pkt.payload.length = 8) (h6 : beAt k.pkt.payload 6 2 = 0)
    (h4 : beAt k.pkt.payload 0 4 % 4 = 0) (ha : beAt k.pkt.payload 0 4 < 0x1000000) (h1 : 1 ≤ beAt k.pkt.payload 4 2)
    (hn : beAt k.pkt.payload 4 2 ≤ 1024) (hpage : beAt k.pkt.payload 0 4 % 4096 + 4 * beAt k.pkt.payload 4 2 ≤ 4096) :
    pageRead k s = completeNow (pageReads s (beAt k.pkt.payload 0 4) (beAt k.pkt.payload 4 2)).1 k
      (pageReads s (beAt k.pkt.payload 0 4) (beAt k.pkt.payload 4 2)).2 :=
  if_neg (by simp [hl, h6, h4]; omega)

/-- R102: a PAGE_WRITE in range writes its entries in order and answers the status of each. -/
theorem pageWriteFn_writes {k : Ctx} (s : State) {n : Nat} (h1 : 1 ≤ n) (hn : n ≤ 128) (hc : beAt k.pkt.payload 0 2 = n)
    (hl : k.pkt.payload.length = 8 + 8 * n) (hz : (slice k.pkt.payload 2 6).all (· == 0) = true)
    (he : ∀ i < n, beAt k.pkt.payload (8 + 8 * i) 4 % 4 = 0 ∧ beAt k.pkt.payload (8 + 8 * i) 4 < 0x1000000) :
    let r := pageWrites s ((List.range n).map (fun i => (beAt k.pkt.payload (8 + 8 * i) 4, beAt k.pkt.payload (12 + 8 * i) 4)))
    let st := (r.2.find? (· != 0)).getD 0
    pageWriteFn k s = (sendComplete r.1 k.org k.h st (r.2.flatMap (beBytes 2)), .done st) := by
  have hz' : (slice k.pkt.payload 2 6).any (· != 0) = false := by simpa using hz
  have he' : ((List.range n).map (fun i => (beAt k.pkt.payload (8 + 8 * i) 4, beAt k.pkt.payload (12 + 8 * i) 4))).any
      (fun e => e.1 % 4 != 0 || e.1 ≥ 0x1000000) = false := by
    simpa using he
  simp only [pageWriteFn, hc, hl, hz', he']
  exact if_neg (by simp; omega)

/-- Settles O24: each clause is an accepted MGMT answered by the rule of its function. -/
theorem mgmtFunctions : Obligations.MgmtFunctions := by
  intro s via p k u ha hop hi hn
  have hk := accepted_pkt ha
  refine ⟨fun hf hl h0 h1 hok h => ?_, fun hf hl => ?_, fun hf n h1 h256 hl hok => ?_, fun hf hl h2 he hr => ?_,
    fun hf hl h6 h4 hlt h1 hc hpage => ?_, fun hf n h1 h128 hc hl hz he => ?_⟩
  · subst hk
    rw [exec_netCfg ha hop hi hn hf, netCfg_sets hl h0 h1 hok h]
  · subst hk
    rw [exec_netCfg ha hop hi hn hf, netCfg_reads u hl]
  · subst hk
    exact (exec_srcRule ha hop hi hn hf).trans (by rw [srcRule_replaces u h1 h256 hl hok])
  · subst hk
    obtain ⟨t, ht, hepoch, hprev, honly⟩ := setEpoch_sets hl h2 he hr
    have hend : OnlyChanges answerParts t (settle k (setEpoch k u)) := by
      rw [ht]
      exact onlyChanges_then (onlyChanges_sendComplete _ _ _ _ _) (onlyChanges_settle k (completeNow t k []))
    have hall := onlyChanges_trans (onlyChanges_trans (onlyChanges_accepted ha) honly) hend
    have houter : (settle k (setEpoch k u)).outer = t.outer := hend .outer (by simp [answerParts])
    refine ⟨_, exec_setEpoch ha hop hi hn hf, ?_⟩
    simp only [jobOf] at hepoch hprev ⊢
    rw [houter]
    exact ⟨hepoch, hprev, hall .mem (by simp [answerParts]), hall .win (by simp [answerParts]),
      hall .line (by simp [answerParts])⟩
  · subst hk
    exact (exec_pageRead ha hop hi hn hf).trans (by rw [pageRead_reads u hl h6 h4 hlt h1 hc hpage])
  · subst hk
    exact (exec_pageWrite ha hop hi hn hf).trans (by rw [pageWriteFn_writes u h1 h128 hc hl hz he])

end Sys2Proof.MgmtFunctions
end

section
/-! PROOFS. Memory and the window in canonical form: what leaves their bytes, what writes them, and every command (O6). -/
namespace Sys2Proof.KeepsMemory
open Sys2Proof Sys2Proof.Machine Sys2Proof.Laws

/-- Memory and the submission window are the same bytes in two states. -/
@[simp] abbrev SameBytes (s t : State) : Prop := t.mem = s.mem ∧ t.win = s.win

/-- The command answers a state, with the bytes of memory and window as they were. -/
def LeavesBytes (s : State) (o : Host.Outcome State Fault Refusal) : Prop := ∃ t, o = .next t ∧ SameBytes s t

theorem SameBytes.trans {s t u : State} (h : SameBytes s t) (g : SameBytes t u) : SameBytes s u :=
  ⟨g.1.trans h.1, g.2.trans h.2⟩

/-- What changes neither memory nor the window leaves their bytes. -/
theorem sameBytes_of_onlyChanges {ps : List Part} {s t : State} (h : OnlyChanges ps s t) (hm : Part.mem ∉ ps)
    (hw : Part.win ∉ ps) : SameBytes s t :=
  ⟨h .mem hm, h .win hw⟩

@[simp] theorem mem_ite (c : Prop) [Decidable c] (s t : State) : (if c then s else t).mem = if c then s.mem else t.mem :=
  apply_ite State.mem c s t

@[simp] theorem win_ite (c : Prop) [Decidable c] (s t : State) : (if c then s else t).win = if c then s.win else t.win :=
  apply_ite State.win c s t

@[simp] theorem fst_ite {α : Type} (c : Prop) [Decidable c] (p q : State × α) :
    (if c then p else q).1 = if c then p.1 else q.1 :=
  apply_ite Prod.fst c p q

theorem sameBytes_ite {s t u : State} (c : Prop) [Decidable c] (h : SameBytes s t) (g : SameBytes s u) :
    SameBytes s (if c then t else u) := by
  split
  · exact h
  · exact g

@[simp] theorem sameBytes_foldl {α : Type} {f : State → α → State} (h : ∀ s a, SameBytes s (f s a)) (l : List α)
    (s : State) :    SameBytes s (l.foldl f s) := by
  induction l generalizing s with
  | nil => exact ⟨rfl, rfl⟩
  | cons a l ih => exact (h s a).trans (ih _)

@[simp] theorem sameBytes_foldl_fst {α β : Type} {f : State × β → α → State × β} (h : ∀ p a, SameBytes p.1 (f p a).1)
    (l : List α) (p : State × β) : SameBytes p.1 (l.foldl f p).1 := by
  induction l generalizing p with
  | nil => exact ⟨rfl, rfl⟩
  | cons a l ih => exact (h p a).trans (ih _)

/-! ## What leaves the bytes of memory and window, in the order of the model's files

One lemma for each function that writes neither, by the branches of its definition and the lemmas of the functions it calls, so
that what follows has to speak of the few functions that do write. Each is a `simp` lemma about `mem` and `win`. -/

/-! ### Machine/Ops.lean -/

@[simp] theorem sameBytes_setPage (s pg p) : SameBytes s (setPage s pg p) := ⟨rfl, rfl⟩

@[simp] theorem sameBytes_setFldB (s pg off bank hi lo v) : SameBytes s (setFldB s pg off bank hi lo v) := ⟨rfl, rfl⟩

@[simp] theorem sameBytes_count (s pg i n) : SameBytes s (count s pg i n) := by simp [count]

@[simp] theorem sameBytes_emit (s e) : SameBytes s (emit s e) := ⟨rfl, rfl⟩

@[simp] theorem sameBytes_countPond (s x) : SameBytes s (countPond s x) := by simp [countPond]

@[simp] theorem sameBytes_setEgQ (s p q e) : SameBytes s (setEgQ s p q e) := ⟨rfl, rfl⟩

@[simp] theorem sameBytes_egPush (s p c b wire) : SameBytes s (egPush s p c b wire) := by simp [egPush]

@[simp] theorem sameBytes_sendSite (s g m) : SameBytes s (sendSite s g m) := by unfold sendSite; split <;> simp

@[simp] theorem sameBytes_lineSend (s l vc u) : SameBytes s (lineSend s l vc u) := ⟨rfl, rfl⟩

@[simp] theorem sameBytes_sendLink (s l m) : SameBytes s (sendLink s l m) := by unfold sendLink; split <;> simp

@[simp] theorem sameBytes_owe (s m) : SameBytes s (owe s m) := ⟨rfl, rfl⟩

@[simp] theorem sameBytes_sendMaster (s m) : SameBytes s (sendMaster s m) := by fun_cases sendMaster <;> simp

@[simp] theorem sameBytes_logPush (s e) : SameBytes s (logPush s e) := ⟨rfl, rfl⟩

@[simp] theorem sameBytes_setSlot (s i x) : SameBytes s (setSlot s i x) := by simp [setSlot]

@[simp] theorem sameBytes_sendRecoverReq (s level code ciid subject) :
    SameBytes s (sendRecoverReq s level code ciid subject) := by
  simp [sendRecoverReq]

@[simp] theorem sameBytes_noteClock (s pg) : SameBytes s (noteClock s pg) := by unfold noteClock; split <;> simp

@[simp] theorem sameBytes_oneClock {f : State → State} (hf : ∀ s, SameBytes s (f s)) (s) : SameBytes s (oneClock f s) :=
  by
  simp [oneClock, hf]

@[simp] theorem sameBytes_notify (s v) : SameBytes s (notify s v) := by simp [notify]

@[simp] theorem sameBytes_raiseSubj (s pg code info ciid subject) :
    SameBytes s (raiseSubj s pg code info ciid subject) :=
  sameBytes_of_onlyChanges (onlyChanges_raiseSubj s pg code info ciid subject) (by decide) (by decide)

@[simp] theorem sameBytes_raiseFor (s pg code info ciid) : SameBytes s (raiseFor s pg code info ciid) := by
  simp [raiseFor]

@[simp] theorem sameBytes_raise (s pg code info) : SameBytes s (raise s pg code info) := by simp [raise]

/-! ### Machine/Links.lean -/

@[simp] theorem sameBytes_setLSlot (s q k x) : SameBytes s (setLSlot s q k x) := ⟨rfl, rfl⟩

@[simp] theorem sameBytes_setLLink (s l x) : SameBytes s (setLLink s l x) := ⟨rfl, rfl⟩

@[simp] theorem sameBytes_setLCiph (s l x) : SameBytes s (setLCiph s l x) := ⟨rfl, rfl⟩

@[simp] theorem sameBytes_setLaser (s b n x) : SameBytes s (setLaser s b n x) := ⟨rfl, rfl⟩

@[simp] theorem sameBytes_setRing (s g k b x) : SameBytes s (setRing s g k b x) := ⟨rfl, rfl⟩

@[simp] theorem sameBytes_freeRx (s l vc seq) : SameBytes s (freeRx s l vc seq) := by fun_cases freeRx <;> simp

theorem sameBytes_takeUnit (s l b) : ∀ t ∈ takeUnit s l b, SameBytes s t := by fun_cases takeUnit <;> simp +zetaDelta

/-! ### Machine/Trays.lean -/

@[simp] theorem sameBytes_trayMoved (s i n) : SameBytes s (trayMoved s i n) := by unfold trayMoved; split <;> simp

@[simp] theorem sameBytes_holdTray (s i r aside) : SameBytes s (holdTray s i r aside) := ⟨rfl, rfl⟩

theorem sameBytes_allocPond (s r q) : ∀ x ∈ allocPond s r q, SameBytes s x.1 := by
  unfold allocPond; split <;> simp

theorem sameBytes_allocPonds (s r q n) : ∀ x ∈ allocPonds s r q n, SameBytes s x.1 := by
  fun_induction allocPonds with
  | case1 => simp
  | case2 s n ih =>
    intro x h
    simp only [Option.bind_eq_bind, Option.mem_def, Option.bind_eq_some_iff, Option.pure_def, Option.some.injEq] at h
    obtain ⟨t, ht, u, hu, rfl⟩ := h
    exact (sameBytes_allocPond _ _ _ _ ht).trans (ih _ u hu)

theorem sameBytes_takePonds (s r l) : ∀ x ∈ takePonds s r l, SameBytes s x.1 := by
  fun_cases takePonds <;> simp +zetaDelta

@[simp] theorem sameBytes_freeTray (s i r) : SameBytes s (freeTray s i r) := by unfold freeTray; split <;> simp

@[simp] theorem sameBytes_releaseTray (s i) : SameBytes s (releaseTray s i) := by unfold releaseTray; split <;> simp

@[simp] theorem sameBytes_releaseTrays (s l) : SameBytes s (releaseTrays s l) := by simp [releaseTrays]

@[simp] theorem sameBytes_releaseOpt (s i) : SameBytes s (releaseOpt s i) := by unfold releaseOpt; split <;> simp

theorem sameBytes_makeAside (s slot a) : ∀ t ∈ makeAside s slot a, SameBytes s t := by fun_cases makeAside <;> simp

@[simp] theorem sameBytes_dropAside (s slot) : SameBytes s (dropAside s slot) := ⟨rfl, rfl⟩

theorem sameBytes_takeAside (s slot a t q m n) : ∀ r ∈ takeAside s slot a t q m n, SameBytes s r.1 := by
  fun_induction takeAside <;> simp_all [Option.bind_eq_some_iff]
  all_goals grind

/-! ### Machine/Pages.lean -/

@[simp] theorem sameBytes_setTile (s t x) : SameBytes s (setTile s t x) := ⟨rfl, rfl⟩

@[simp] theorem sameBytes_setCell (s c x) : SameBytes s (setCell s c x) := ⟨rfl, rfl⟩

@[simp] theorem sameBytes_calm (s pg) : SameBytes s (calm s pg) := by simp [calm]

@[simp] theorem sameBytes_applyIfIdle (s pg) : SameBytes s (applyIfIdle s pg) := by simp [applyIfIdle]

@[simp] theorem sameBytes_settlePage (s pg) : SameBytes s (settlePage s pg) := by simp [settlePage]

@[simp] theorem sameBytes_refusePerm (s ag pg off) : SameBytes s (refusePerm s ag pg off).1 := by simp [refusePerm]

@[simp] theorem sameBytes_refuseCfg (s ag pg off code) : SameBytes s (refuseCfg s ag pg off code).1 := by
  unfold refuseCfg; split <;> simp

@[simp] theorem sameBytes_writeBlkCtrl (s ag pg v) : SameBytes s (writeBlkCtrl s ag pg v).1 := by
  fun_cases writeBlkCtrl <;> simp

@[simp] theorem sameBytes_writeErrStatus (s ag pg v) : SameBytes s (writeErrStatus s ag pg v).1 := by
  unfold writeErrStatus; split <;> simp

@[simp] theorem sameBytes_writeHeader (s ag pg off v) : SameBytes s (writeHeader s ag pg off v).1 := by
  fun_cases writeHeader <;> simp

@[simp] theorem sameBytes_writeField (s ag pg off v) : SameBytes s (writeField s ag pg off v).1 := by
  fun_cases writeField <;> simp

@[simp] theorem sameBytes_writeReg (s ag pg off v) : SameBytes s (writeReg s ag pg off v).1 := by
  fun_cases writeReg <;> simp

@[simp] theorem sameBytes_unmapped (s off write len) : SameBytes s (unmapped s off write len) := by simp [unmapped]

/-! ### Machine/Packets.lean -/

@[simp] theorem sameBytes_putSrc (s x) : SameBytes s (putSrc s x) := ⟨rfl, rfl⟩

@[simp] theorem sameBytes_dropSrc (s ip id) : SameBytes s (dropSrc s ip id) := ⟨rfl, rfl⟩

@[simp] theorem sameBytes_cqWrite (s p) : SameBytes s (cqWrite s p) := by simp [cqWrite]

@[simp] theorem sameBytes_cqPush (s p) : SameBytes s (cqPush s p) := by simp [cqPush]

@[simp] theorem sameBytes_sendDgram (s port ip udpPort tagged vc p) :
    SameBytes s (sendDgram s port ip udpPort tagged vc p) := by
  simp [sendDgram]

@[simp] theorem sameBytes_sendHdr (s org vc h payload) : SameBytes s (sendHdr s org vc h payload) := by
  fun_cases sendHdr <;> simp +zetaDelta

@[simp] theorem sameBytes_sendTo (s org vc h payload) : SameBytes s (sendTo s org vc h payload) := by simp [sendTo]

@[simp] theorem sameBytes_refuseRaw (s via h code) : SameBytes s (refuseRaw s via h code) := by
  unfold refuseRaw; split <;> simp

@[simp] theorem sameBytes_sendCredit (s ip id vc stream tag) : SameBytes s (sendCredit s ip id vc stream tag) := by
  simp [sendCredit]

@[simp] theorem sameBytes_updCredit (s org vc f) : SameBytes s (updCredit s org vc f) := by
  unfold updCredit; split <;> simp

@[simp] theorem sameBytes_reportHalf (s org vc) : SameBytes s (reportHalf s org vc) := by
  unfold reportHalf; split <;> simp

@[simp] theorem sameBytes_releaseCredits (s org vc cost) : SameBytes s (releaseCredits s org vc cost) := by
  simp [releaseCredits]

@[simp] theorem sameBytes_updFlight (s f g) : SameBytes s (updFlight s f g) := ⟨rfl, rfl⟩

@[simp] theorem sameBytes_markDone (s f status) : SameBytes s (markDone s f status) := ⟨rfl, rfl⟩

@[simp] theorem sameBytes_pruneFlights (s) : SameBytes s (pruneFlights s) := ⟨rfl, rfl⟩

@[simp] theorem sameBytes_refuseBare (s c code) : SameBytes s (refuseBare s c code) := by
  unfold refuseBare; split <;> simp

@[simp] theorem sameBytes_refusePkt (s c code) : SameBytes s (refusePkt s c code) := by simp [refusePkt]

@[simp] theorem sameBytes_sendComplete (s org h status payload) :
    SameBytes s (sendComplete s org h status payload) := by
  simp [sendComplete]

@[simp] theorem sameBytes_holdAgain (c s) : SameBytes s (holdAgain c s) := by simp [holdAgain]

@[simp] theorem sameBytes_settle (c r) : SameBytes r.1 (settle c r) := by
  fun_cases settle <;> simp +zetaDelta

@[simp] theorem sameBytes_released (c s) : SameBytes s (released c s) := by simp [released]

@[simp] theorem sameBytes_handle (c) {f : Ctx → State → State × Disp} (hf :
    ∀ k s, SameBytes s (f k s).1) (s) : SameBytes s (handle c f s) :=
  by
  simp [handle, hf]

@[simp] theorem sameBytes_policeIn (s p c wire) : SameBytes s (policeIn s p c wire).1 := by fun_cases policeIn <;> simp

@[simp] theorem sameBytes_countFree (s org) : SameBytes s (countFree s org) := ⟨rfl, rfl⟩

@[simp] theorem sameBytes_peerIn (s d port n) : SameBytes s (peerIn s d port n).1 := by
  fun_cases peerIn <;> simp +zetaDelta

theorem sameBytes_ingress (s via p) : ∀ t ∈ ingress s via p, SameBytes s t := by
  fun_cases ingress <;> simp_all +zetaDelta

@[simp] theorem sameBytes_creditStep (s org h cost) : SameBytes s (creditStep s org h cost).1 := by
  fun_cases creditStep <;> simp

@[simp] theorem sameBytes_newFlight (s c) : SameBytes s (newFlight s c) := ⟨rfl, rfl⟩

@[simp] theorem sameBytes_holdPkt (s c) : SameBytes s (holdPkt s c).1 := by
  fun_cases holdPkt with
  | case1 => simp
  | case2 t r h => simpa using sameBytes_allocPond _ _ _ _ h

/-! ### Machine/Flags.lean -/

@[simp] theorem sameBytes_orOpen (s step replay bits) : SameBytes s (orOpen s step replay bits) := by simp [orOpen]

@[simp] theorem sameBytes_landTile (s t f o) : SameBytes s (landTile s t f o) := by simp [landTile]

@[simp] theorem sameBytes_landFast (s q f o) : SameBytes s (landFast s q f o) := by simp [landFast]

@[simp] theorem sameBytes_landCell (s cell f ciid outType) : SameBytes s (landCell s cell f ciid outType) := by
  simp [landCell]

/-! ### Machine/Plans.lean -/

@[simp] theorem sameBytes_setJob (s j x) : SameBytes s (setJob s j x) := ⟨rfl, rfl⟩

theorem sameBytes_checkPlan (s slot req img) {x : Plan × State × Aside} (h : checkPlan s slot req img = .inr x) :
    SameBytes s x.2.1 :=
  by
  revert h
  fun_cases checkPlan <;> simp
  rintro rfl
  rename_i ht _ _
  simpa using sameBytes_makeAside _ _ _ _ ht

/-! ### Machine/Cells.lean -/

@[simp] theorem sameBytes_setInst (s c x) : SameBytes s (setInst s c x) := ⟨rfl, rfl⟩

@[simp] theorem sameBytes_raiseCell (s cell code info c) : SameBytes s (raiseCell s cell code info c) := by
  simp [raiseCell]

@[simp] theorem sameBytes_charge (s t issued wasted starved blocked wait) :
    SameBytes s (charge s t issued wasted starved blocked wait) := by
  simp [charge]

@[simp] theorem sameBytes_sendNotice (s cl) : SameBytes s (sendNotice s cl) := by simp [sendNotice]

theorem sameBytes_armTrays (s x) : ∀ r ∈ armTrays s x, SameBytes s r.1 := by
  fun_cases armTrays with
  | case3 _ a => exact sameBytes_takeAside _ _ _ _ _ _ _
  | _ => simp

theorem sameBytes_arm (s x c) : ∀ t ∈ arm s x c, SameBytes s t := by
  fun_cases arm with
  | case3 _ t l h => simpa using sameBytes_armTrays _ _ _ h
  | _ => simp

@[simp] theorem sameBytes_freeCellTrays (s cell) : SameBytes s (freeCellTrays s cell) := by simp [freeCellTrays]

@[simp] theorem sameBytes_enterError (s cell c st cause info) : SameBytes s (enterError s cell c st cause info) := by
  simp [enterError]

@[simp] theorem sameBytes_mismatch (s x c cause rank) : SameBytes s (mismatch s x c cause rank) := by simp [mismatch]

@[simp] theorem sameBytes_taint (s cell c cause level tile) : SameBytes s (taint s cell c cause level tile) := by
  simp [taint]

@[simp] theorem sameBytes_emitRec (s x r) : SameBytes s (emitRec s x r) := by fun_cases emitRec <;> simp

@[simp] theorem sameBytes_sendKept (s x r) : SameBytes s (sendKept s x r) := by simp [sendKept]

@[simp] theorem sameBytes_sendAll (s x rs) : SameBytes s (sendAll s x rs) := by simp [sendAll]

@[simp] theorem sameBytes_formed (s x c level src e lo n idx vs out) :
    SameBytes s (formed s x c level src e lo n idx vs out) := by
  simp [formed]

@[simp] theorem sameBytes_formChunks (s x c level lo src e vs) :
    SameBytes s (formChunks s x c level lo src e vs).1 := by
  simp [formChunks]

@[simp] theorem sameBytes_formCopies (s x c level e bs) : SameBytes s (formCopies s x c level e bs).1 := by
  simp [formCopies]

@[simp] theorem sameBytes_formShard (s x c k point t) : SameBytes s (formShard s x c k point t).1 := by
  fun_cases formShard <;> simp

@[simp] theorem sameBytes_sendOrHold (s x k level rs) : SameBytes s (sendOrHold s x k level rs) := by simp [sendOrHold]

@[simp] theorem sameBytes_markSent (s cell k level) : SameBytes s (markSent s cell k level) := ⟨rfl, rfl⟩

@[simp] theorem sameBytes_sendLevel2 (s x c k) : SameBytes s (sendLevel2 s x c k) := by simp [sendLevel2]

@[simp] theorem sameBytes_sendLevel3 (s x c k) : SameBytes s (sendLevel3 s x c k) := by simp [sendLevel3]

@[simp] theorem sameBytes_distribute (s x c k flags src level t chunks owed notOwed) :
    SameBytes s (distribute s x c k flags src level t chunks owed notOwed) := by
  simp [distribute]

@[simp] theorem sameBytes_storeFinal (s cell k src chunks) : SameBytes s (storeFinal s cell k src chunks) := ⟨rfl, rfl⟩

@[simp] theorem sameBytes_formFinal (s x c k) : SameBytes s (formFinal s x c k) := by simp [formFinal]

@[simp] theorem sameBytes_setProj (s cell p) : SameBytes s (setProj s cell p) := ⟨rfl, rfl⟩

@[simp] theorem sameBytes_setPState (s x p) : SameBytes s (setPState s x p) := ⟨rfl, rfl⟩

@[simp] theorem sameBytes_giveFactor (s x c q src vs) : SameBytes s (giveFactor s x c q src vs) := by simp [giveFactor]

@[simp] theorem sameBytes_sendFactorFinal (s x c flags src vs) :
    SameBytes s (sendFactorFinal s x c flags src vs).1 := by
  simp [sendFactorFinal]

@[simp] theorem sameBytes_projFirst (s x c) : SameBytes s (projFirst s x c) := by simp [projFirst]

@[simp] theorem sameBytes_projSecond (s x c) : SameBytes s (projSecond s x c) := by simp [projSecond]

@[simp] theorem sameBytes_trimTrays (s x) : SameBytes s (trimTrays s x) := by simp [trimTrays]

/-! ### Machine/Reduce.lean -/

@[simp] theorem sameBytes_memberComplete (s x c rank dst status count) :
    SameBytes s (memberComplete s x c rank dst status count) := by
  simp [memberComplete]

@[simp] theorem sameBytes_sendResult (s x c rank dst count o resent) :
    SameBytes s (sendResult s x c rank dst count o resent) := by
  simp [sendResult]

@[simp] theorem sameBytes_deliverTo (x c s rank) : SameBytes s (deliverTo x c s rank) := by
  fun_cases deliverTo <;> simp +zetaDelta

@[simp] theorem sameBytes_tryHarvest (s x c) : SameBytes s (tryHarvest s x c) := by simp [tryHarvest]

@[simp] theorem sameBytes_reportHarvest (s x c) : SameBytes s (reportHarvest s x c) := by simp [reportHarvest]

@[simp] theorem sameBytes_harvestCell (s x c) : SameBytes s (harvestCell s x c) := by simp [harvestCell]

theorem sameBytes_holdInput (s cell c i req) : ∀ t ∈ holdInput s cell c i req, SameBytes s t := by
  fun_cases holdInput with
  | case1 => simp
  | case2 t r h => simpa using sameBytes_allocPond _ _ _ _ h

@[simp] theorem sameBytes_holdUpstream (s cell c i) : SameBytes s (holdUpstream s cell c i) := ⟨rfl, rfl⟩

@[simp] theorem sameBytes_armWait (s x c i) : SameBytes s (armWait s x c i) := by simp [armWait]

@[simp] theorem sameBytes_noteHeld (s cell c) : SameBytes s (noteHeld s cell c) := by simp [noteHeld]

@[simp] theorem sameBytes_addContrib (s x c h payload) : SameBytes s (addContrib s x c h payload) := by
  simp [addContrib]

@[simp] theorem sameBytes_answerFailed (s x c st rank dst) : SameBytes s (answerFailed s x c st rank dst) := by
  simp [answerFailed]

@[simp] theorem sameBytes_repeatComplete (s x c rank) : SameBytes s (repeatComplete s x c rank) := by
  fun_cases repeatComplete <;> simp

@[simp] theorem sameBytes_settleHeld (c r) : SameBytes r.1 (settleHeld c r) := by
  fun_cases settleHeld <;> simp +zetaDelta

@[simp] theorem sameBytes_rack (s x r) : SameBytes s (rack s x r) := ⟨rfl, rfl⟩

@[simp] theorem sameBytes_flushRacks (s x) : SameBytes s (flushRacks s x) := by simp [flushRacks]

@[simp] theorem sameBytes_relayTo (s x r g) : SameBytes s (relayTo s x r g) := by simp [relayTo]

@[simp] theorem sameBytes_relay (s x r) : SameBytes s (relay s x r) := by simp [relay]

@[simp] theorem sameBytes_takeRecord (s x r) : SameBytes s (takeRecord s x r) := by simp [takeRecord]

@[simp] theorem sameBytes_takeRack (s x r) : SameBytes s (takeRack s x r) := by simp [takeRack]

@[simp] theorem sameBytes_resendKept (s x k) : SameBytes s (resendKept s x k) := by simp [resendKept]

@[simp] theorem sameBytes_takeRresend (s x r) : SameBytes s (takeRresend s x r) := by simp [takeRresend]

@[simp] theorem sameBytes_recordAfter (s x r) : SameBytes s (recordAfter s x r) := by simp [recordAfter]

@[simp] theorem sameBytes_answerNow (s x r live) : SameBytes s (answerNow s x r live) := by simp [answerNow]

@[simp] theorem sameBytes_refuseHeld (s f) : SameBytes s (refuseHeld s f) := by
  fun_cases refuseHeld <;> simp +zetaDelta (disch := (intros; split <;> simp))

@[simp] theorem sameBytes_failMembers (s x c st bound) : SameBytes s (failMembers s x c st bound) := by
  simp [failMembers]

@[simp] theorem sameBytes_dropHeldFor (s x c st) : SameBytes s (dropHeldFor s x c st) := by
  fun_cases dropHeldFor <;> simp +zetaDelta (disch := (intros; split <;> simp))

@[simp] theorem sameBytes_applyDecision (s c st) : SameBytes s (applyDecision s c st) := by
  unfold applyDecision; split <;> simp

@[simp] theorem sameBytes_rollCell (s cell) : SameBytes s (rollCell s cell) := by
  fun_cases rollCell <;> simp +zetaDelta <;> split <;> simp

/-! ### Machine/Tiles.lean -/

@[simp] theorem sameBytes_clearPoison (s a n) : SameBytes s (clearPoison s a n) := ⟨rfl, rfl⟩

@[simp] theorem sameBytes_addPoison (s a n) : SameBytes s (addPoison s a n) := by simp [addPoison]

@[simp] theorem sameBytes_sweepImages (s) : SameBytes s (sweepImages s) := ⟨rfl, rfl⟩

@[simp] theorem sameBytes_releaseImages (s f) : SameBytes s (releaseImages s f) := ⟨rfl, rfl⟩

@[simp] theorem sameBytes_slotEnded (s i) : SameBytes s (slotEnded s i) := by fun_cases slotEnded <;> simp +zetaDelta

@[simp] theorem sameBytes_planEnded (s i) : SameBytes s (planEnded s i) := by simp [planEnded]

@[simp] theorem sameBytes_stopDone (s i) : SameBytes s (stopDone s i) := by fun_cases stopDone <;> simp

@[simp] theorem sameBytes_endStep (s t) : SameBytes s (endStep s t) := by unfold endStep; split <;> simp

@[simp] theorem sameBytes_haltTile (s t) : SameBytes s (haltTile s t) := by simp [haltTile]

@[simp] theorem sameBytes_tileFlag (s t bits) : SameBytes s (tileFlag s t bits) := by simp [tileFlag]

@[simp] theorem sameBytes_slotRefuse (s code slot fn) : SameBytes s (slotRefuse s code slot fn).1 := by
  simp [slotRefuse]

@[simp] theorem sameBytes_clearSlot (s i) : SameBytes s (clearSlot s i) := by simp [clearSlot]

@[simp] theorem sameBytes_refusePlan (s k r) : SameBytes s (refusePlan s k r).1 := by simp [refusePlan]

theorem sameBytes_growLoad (s req b idx bytes) : ∀ r ∈ growLoad s req b idx bytes, SameBytes s r.1 := by
  unfold growLoad
  intro r h
  obtain ⟨x, hx, rfl⟩ := Option.map_eq_some_iff.1 h
  have := sameBytes_allocPonds _ _ _ _ _ hx
  dsimp only
  split <;> simp [this]

@[simp] theorem sameBytes_setLoads (s m) : SameBytes s (setLoads s m) := ⟨rfl, rfl⟩

@[simp] theorem sameBytes_endLoad (s org b) : SameBytes s (endLoad s org b) := by unfold endLoad; split <;> simp

@[simp] theorem sameBytes_finishLoad (s k b) : SameBytes s (finishLoad s k b).1 := by
  have hend := sameBytes_endLoad s k.org b
  fun_cases finishLoad with
  | case1 => simp +zetaDelta
  | case2 s1 _ _ _ t _ h =>
    have ht : SameBytes s t := hend.trans (sameBytes_checkPlan _ _ _ _ h)
    simp +zetaDelta [ht]

@[simp] theorem sameBytes_planLoad (k s) : SameBytes s (planLoad k s).1 := by
  fun_cases planLoad
  case case5 =>
    rename_i t b h v w _
    have ht : SameBytes s t := sameBytes_growLoad _ _ _ _ _ _ h
    simp +zetaDelta [ht]
  case case6 =>
    rename_i t b h v w _
    have ht : SameBytes s t := sameBytes_growLoad _ _ _ _ _ _ h
    simp +zetaDelta [ht]
  all_goals simp

@[simp] theorem sameBytes_planStop (k s) : SameBytes s (planStop k s).1 := by
  fun_cases planStop <;> simp +zetaDelta (disch := (intros; split <;> simp))

@[simp] theorem sameBytes_planDrop (k s) : SameBytes s (planDrop k s).1 := by fun_cases planDrop <;> simp

@[simp] theorem sameBytes_planStatus (k s) : SameBytes s (planStatus k s).1 := by unfold planStatus; split <;> simp

@[simp] theorem sameBytes_tileRelease (k s) : SameBytes s (tileRelease k s).1 := by
  fun_cases tileRelease <;> simp +zetaDelta

@[simp] theorem sameBytes_holdPlans (t s) : SameBytes s (holdPlans t s) := by simp [holdPlans]

@[simp] theorem sameBytes_quarantineTile (s t) : SameBytes s (quarantineTile s t) := by simp [quarantineTile]

@[simp] theorem sameBytes_noteMomentum (s a n) : SameBytes s (noteMomentum s a n) := ⟨rfl, rfl⟩

/-! ### Machine/Seq.lean -/

@[simp] theorem sameBytes_onWord (s t is) {f : Plan → PlanStep → List Nat → State} (hf :
    ∀ p st w, SameBytes s (f p st w)) :
    SameBytes s (onWord s t is f) := by
  fun_cases onWord <;> simp [hf]

@[simp] theorem sameBytes_stall (s t q arg wait) : SameBytes s (stall s t q arg wait) := by simp [stall]

@[simp] theorem sameBytes_starve (s t) : SameBytes s (starve s t) := ⟨rfl, rfl⟩

@[simp] theorem sameBytes_issue (s t w poisonSrc) : SameBytes s (issue s t w poisonSrc) := by simp [issue]

@[simp] theorem sameBytes_enqueue (s t w) : SameBytes s (enqueue s t w) := ⟨rfl, rfl⟩

@[simp] theorem sameBytes_noteProof (s t ix dst) : SameBytes s (noteProof s t ix dst) := by simp [noteProof]

theorem sameBytes_execEngineWordDone (t i s) : LeavesBytes s (execEngineWordDone t i s) := ⟨_, rfl, by split <;> simp⟩

theorem sameBytes_execStepEnd (t s) : LeavesBytes s (execStepEnd t s) := ⟨_, rfl, by simp⟩

theorem sameBytes_execSync (t s) : LeavesBytes s (execSync t s) := ⟨_, rfl, by simp⟩

theorem sameBytes_execWaitLt (t ns s) : LeavesBytes s (execWaitLt t ns s) := ⟨_, rfl, by simp⟩

@[simp] theorem sameBytes_failStep (s t p) : SameBytes s (failStep s t p) := ⟨rfl, rfl⟩

theorem sameBytes_execWaitCell (t s) : LeavesBytes s (execWaitCell t s) :=
  ⟨_, rfl, by simp (disch := (intros; split <;> simp))⟩

@[simp] theorem sameBytes_signalTo (s t step replay ctr) : SameBytes s (signalTo s t step replay ctr) := by
  simp [signalTo]

theorem sameBytes_execSignal (t s) : LeavesBytes s (execSignal t s) := ⟨_, rfl, by simp⟩

theorem sameBytes_execWaitEvt (t s) : LeavesBytes s (execWaitEvt t s) := ⟨_, rfl, by simp⟩

theorem sameBytes_execPlanBufferCopyDone (t s) : LeavesBytes s (execPlanBufferCopyDone t s) :=
  ⟨_, rfl, by split <;> simp⟩

theorem sameBytes_execRampStart (s) : LeavesBytes s (execRampStart s) := ⟨_, rfl, by split <;> simp⟩

theorem sameBytes_execPwrCapUnmet (s) : LeavesBytes s (execPwrCapUnmet s) := ⟨_, rfl, by simp⟩

/-! ### Machine/Messages.lean -/

@[simp] theorem sameBytes_flood (s m via) : SameBytes s (flood s m via) := by simp [flood]

@[simp] theorem sameBytes_masterSends (s m) : SameBytes s (masterSends s m) := by simp [masterSends]

@[simp] theorem sameBytes_takeIn (s via port n u) : SameBytes s (takeIn s via port n u).1 := by
  fun_cases takeIn with
  | case2 g l t h => exact sameBytes_takeUnit _ _ _ _ h
  | _ => simp

@[simp] theorem sameBytes_takeMsg (s via m) : SameBytes s (takeMsg s via m).1 := by fun_cases takeMsg <;> simp

@[simp] theorem sameBytes_holdMsg (s m) : SameBytes s (holdMsg s m) := ⟨rfl, rfl⟩

@[simp] theorem sameBytes_freeHeld (s) : SameBytes s (freeHeld s) := by simp [freeHeld]

@[simp] theorem sameBytes_arriveCtl (via m b s) : SameBytes s (arriveCtl via m b s).1 := by
  have h := sameBytes_takeMsg s via (.ctl m)
  fun_cases arriveCtl <;> simp_all +zetaDelta [-sameBytes_takeMsg]

@[simp] theorem sameBytes_arriveRcv (via m b s) : SameBytes s (arriveRcv via m b s).1 := by
  have h := sameBytes_takeMsg s via (.rcv m)
  fun_cases arriveRcv <;> simp_all +zetaDelta [-sameBytes_takeMsg]

/-! ### Machine/Master.lean -/

@[simp] theorem sameBytes_setJobRec (s job r) : SameBytes s (setJobRec s job r) := ⟨rfl, rfl⟩

@[simp] theorem sameBytes_setLevel (s job level code subject att) :
    SameBytes s (setLevel s job level code subject att) := by
  simp [setLevel]

@[simp] theorem sameBytes_logRoster (s g e) : SameBytes s (logRoster s g e) := ⟨rfl, rfl⟩

@[simp] theorem sameBytes_setRoster (s g e) : SameBytes s (setRoster s g e) := ⟨rfl, rfl⟩

@[simp] theorem sameBytes_nextSerial (s) : SameBytes s (nextSerial s).1 := ⟨rfl, rfl⟩

@[simp] theorem sameBytes_floodRoster (s g e) : SameBytes s (floodRoster s g e) := by simp [floodRoster]

@[simp] theorem sameBytes_noteWait (s) : SameBytes s (noteWait s) := by simp [noteWait]

@[simp] theorem sameBytes_beginRecovery (s job e) : SameBytes s (beginRecovery s job e) := by simp [beginRecovery]

@[simp] theorem sameBytes_masterRequest (s e) : SameBytes s (masterRequest s e) := by simp [masterRequest]

@[simp] theorem sameBytes_endRecovery (s job last) : SameBytes s (endRecovery s job last) := by
  fun_cases endRecovery <;> simp +zetaDelta

@[simp] theorem sameBytes_launchResume (s job) : SameBytes s (launchResume s job) := by simp [launchResume]

@[simp] theorem sameBytes_checkDone (s job) : SameBytes s (checkDone s job) := by simp [checkDone]

/-! ### Machine/Collect.lean -/

@[simp] theorem sameBytes_putPull (s p) : SameBytes s (putPull s p) := ⟨rfl, rfl⟩

@[simp] theorem sameBytes_pullResult (s p o resent) : SameBytes s (pullResult s p o resent) := by simp [pullResult]

@[simp] theorem sameBytes_harvestPull (s seq) : SameBytes s (harvestPull s seq) := ⟨rfl, rfl⟩

@[simp] theorem sameBytes_onInstance (k s) {f : State → Placed → Nat → State} (hf :
    ∀ s x n, SameBytes s (f s x n)) : SameBytes s (onInstance k s f).1 :=
  by
  fun_cases onInstance <;> simp [hf]

@[simp] theorem sameBytes_onPull (k s) {f : State → Pull → State} (hf :
    ∀ s p, SameBytes s (f s p)) : SameBytes s (onPull k s f).1 :=
  by
  fun_cases onPull <;> simp [hf]

@[simp] theorem sameBytes_ackCore (k s) : SameBytes s (ackCore k s).1 := by simp [ackCore]

@[simp] theorem sameBytes_resendChunk (x c rank s idx) : SameBytes s (resendChunk x c rank s idx) := by
  fun_cases resendChunk <;> simp +zetaDelta

@[simp] theorem sameBytes_resendPull (seq s idx) : SameBytes s (resendPull seq s idx) := by
  fun_cases resendPull <;> simp

@[simp] theorem sameBytes_resendCore (k s) : SameBytes s (resendCore k s).1 := by simp [resendCore]

theorem sameBytes_execResultResendTimer (i e s) : LeavesBytes s (execResultResendTimer i e s) := by
  refine ⟨_, rfl, ?_⟩
  dsimp only
  repeat' split
  all_goals simp

theorem sameBytes_execResultDelivery (cell ns s) : LeavesBytes s (execResultDelivery cell ns s) :=
  ⟨_, rfl, by split <;> simp⟩

theorem sameBytes_execCellWaitTimeout (cell s) : LeavesBytes s (execCellWaitTimeout cell s) :=
  ⟨_, rfl, by split <;> simp⟩

theorem sameBytes_execHarvestRecheckDone (cell s) : LeavesBytes s (execHarvestRecheckDone cell s) :=
  ⟨_, rfl, by split <;> simp⟩

theorem sameBytes_execRackGatherExpiry (cell s) : LeavesBytes s (execRackGatherExpiry cell s) :=
  ⟨_, rfl, by split <;> simp⟩

theorem sameBytes_execRecordResendTimer (cell i s) : LeavesBytes s (execRecordResendTimer cell i s) :=
  ⟨_, rfl, by split <;> simp⟩

theorem sameBytes_execFailNoticeRx (i e s) : LeavesBytes s (execFailNoticeRx i e s) := by
  refine ⟨_, rfl, ?_⟩
  dsimp only
  repeat' split
  all_goals simp

theorem sameBytes_execDecisionWindowExpiry (ciid s) : LeavesBytes s (execDecisionWindowExpiry ciid s) :=
  ⟨_, rfl, by split <;> simp⟩

theorem sameBytes_execDecisionRx (via m s) : LeavesBytes s (execDecisionRx via m s) := ⟨_, rfl, by simp⟩

@[simp] theorem sameBytes_chargeTile (s t) : SameBytes s (chargeTile s t) := by simp [chargeTile]

@[simp] theorem sameBytes_chargeBy (s k verdict) : SameBytes s (chargeBy s k verdict) := by simp [chargeBy]

@[simp] theorem sameBytes_dropXchk (s id) : SameBytes s (dropXchk s id) := ⟨rfl, rfl⟩

@[simp] theorem sameBytes_recompute (s k t err) : SameBytes s (recompute s k t err).1 := by simp [recompute]

theorem sameBytes_execXchkCompare (i e s) : LeavesBytes s (execXchkCompare i e s) := by
  refine ⟨_, rfl, ?_⟩
  dsimp only
  repeat' split
  all_goals simp

theorem sameBytes_execRefereeVerdict (i e s) : LeavesBytes s (execRefereeVerdict i e s) := by
  refine ⟨_, rfl, ?_⟩
  dsimp only
  repeat' split
  all_goals simp

/-! ### Machine/Blocks.lean -/

@[simp] theorem sameBytes_setTslot (s t i x) : SameBytes s (setTslot s t i x) := ⟨rfl, rfl⟩

@[simp] theorem sameBytes_setTqueue (s t l) : SameBytes s (setTqueue s t l) := ⟨rfl, rfl⟩

@[simp] theorem sameBytes_freeIfIdle (s t i) : SameBytes s (freeIfIdle s t i) := by simp [freeIfIdle]

@[simp] theorem sameBytes_retireSlot (s t i) : SameBytes s (retireSlot s t i) := by simp [retireSlot]

@[simp] theorem sameBytes_unref (s t b) : SameBytes s (unref s t b) := by unfold unref; split <;> simp

theorem sameBytes_beginLoad (s l) {t} (h : beginLoad s l = .inl t) : SameBytes s t := by
  revert h
  fun_cases beginLoad <;> simp +zetaDelta
  rintro rfl
  simp

@[simp] theorem sameBytes_tableLoad (k s) : SameBytes s (tableLoad k s).1 := by
  fun_cases tableLoad with
  | case4 _ _ _ _ _ _ _ _ t h => exact sameBytes_beginLoad _ _ h
  | _ => simp

@[simp] theorem sameBytes_nextLoad (n s) : SameBytes s (nextLoad n s) := by
  fun_induction nextLoad with
  | case4 _ _ _ _ _ _ _ t h => simpa using sameBytes_beginLoad _ _ h
  | case5 _ _ _ _ _ _ _ _ _ _ ih => simpa +zetaDelta using ih
  | _ => simp

theorem sameBytes_execTableBuildDone (s) : LeavesBytes s (execTableBuildDone s) := ⟨_, rfl, by split <;> simp⟩

theorem sameBytes_placeBlock (s what idx b) {t : State} (h : placeBlock s what idx b = .queued t) : SameBytes s t := by
  revert h
  fun_cases placeBlock <;> simp +zetaDelta
  rintro rfl
  simp

@[simp] theorem sameBytes_withdraw (s f) : SameBytes s (withdraw s f) := by simp [withdraw]

@[simp] theorem sameBytes_emitSt (s vc r) : SameBytes s (emitSt s vc r) := by fun_cases emitSt <;> simp

@[simp] theorem sameBytes_sendSt (s r) : SameBytes s (sendSt s r) := by simp [sendSt]

@[simp] theorem sameBytes_pushChunk (s seq o) : SameBytes s (pushChunk s seq o) := by
  fun_cases pushChunk <;> simp +zetaDelta

@[simp] theorem sameBytes_closePull (s seq) : SameBytes s (closePull s seq) := by
  fun_cases closePull <;> simp +zetaDelta

@[simp] theorem sameBytes_endPoisoned (s seq f code total) : SameBytes s (endPoisoned s seq f code total) := by
  fun_cases endPoisoned <;> simp +zetaDelta

@[simp] theorem sameBytes_imageProgress (s seq) : SameBytes s (imageProgress s seq) := by
  fun_cases imageProgress <;> simp +zetaDelta

@[simp] theorem sameBytes_failPull (s seq blk code) : SameBytes s (failPull s seq blk code) := by
  unfold failPull; split <;> simp

@[simp] theorem sameBytes_queueBlocks (seq n s) : SameBytes s (queueBlocks seq n s) := by
  fun_induction queueBlocks with
  | case6 s n p _ i _ _ _ b _ t ht ih => simp_all [sameBytes_placeBlock _ _ _ _ ht]
  | _ => simp_all +zetaDelta

@[simp] theorem sameBytes_drivePull (s seq) : SameBytes s (drivePull s seq) := by simp [drivePull]

@[simp] theorem sameBytes_endCheck (s c code) : SameBytes s (endCheck s c code) := by simp [endCheck]

@[simp] theorem sameBytes_driveCheck (id n s) : SameBytes s (driveCheck id n s) := by
  fun_induction driveCheck with
  | case6 s n p _ _ _ t ht ih => simp_all [sameBytes_placeBlock _ _ _ _ ht]
  | _ => simp_all +zetaDelta

@[simp] theorem sameBytes_withdrawJob (s job) : SameBytes s (withdrawJob s job) := by
  unfold withdrawJob
  dsimp only
  refine SameBytes.trans (t := _) ?_ (sameBytes_foldl (fun s c => by simp) _ _)
  refine SameBytes.trans (t := _) (sameBytes_withdraw _ _) (sameBytes_foldl (fun s p => ?_) _ _)
  split <;> simp

@[simp] theorem sameBytes_judgeImage (s id) : SameBytes s (judgeImage s id) := by unfold judgeImage; split <;> simp

@[simp] theorem sameBytes_pullBlockDone (s seq b got code) : SameBytes s (pullBlockDone s seq b got code) := by
  simp [pullBlockDone]

@[simp] theorem sameBytes_checkBlockDone (s id b got code) : SameBytes s (checkBlockDone s id b got code) := by
  unfold checkBlockDone; split <;> simp

@[simp] theorem sameBytes_driveOnce (s) : SameBytes s (driveOnce s) := by simp [driveOnce]

@[simp] theorem sameBytes_driveN (x0 x1) : SameBytes x1 (driveN x0 x1) := by
  fun_induction driveN <;> simp_all +zetaDelta

@[simp] theorem sameBytes_driveAll (s) : SameBytes s (driveAll s) := by simp [driveAll]

theorem sameBytes_execBlockDecodeEnd (t s) : LeavesBytes s (execBlockDecodeEnd t s) := by
  refine ⟨_, rfl, ?_⟩
  dsimp only
  repeat' split
  all_goals simp

/-! ### Machine/Outer.lean -/

theorem sameBytes_reserveAreas (s req l) : ∀ r ∈ reserveAreas s req l, SameBytes s r.1 := sameBytes_takePonds _ _ _

@[simp] theorem sameBytes_setJobLoad (s job q b) : SameBytes s (setJobLoad s job q b) := ⟨rfl, rfl⟩

@[simp] theorem sameBytes_dropJobLoad (s job q) : SameBytes s (dropJobLoad s job q) := ⟨rfl, rfl⟩

@[simp] theorem sameBytes_installTable (s job req b trays) : SameBytes s (installTable s job req b trays) := ⟨rfl, rfl⟩

@[simp] theorem sameBytes_refuseOuter (s code) : SameBytes s (refuseOuter s code).1 := by simp [refuseOuter]

@[simp] theorem sameBytes_writeTable (k s) : SameBytes s (writeTable k s).1 := by
  fun_cases writeTable
  case case7 =>
    rename_i t l h
    have ht : SameBytes s t := (sameBytes_dropJobLoad s _ _).trans (sameBytes_reserveAreas _ _ _ _ h)
    simp [ht]
  all_goals simp +zetaDelta

theorem sameBytes_stateMatrix (k s ty) {r} (h : stateMatrix k s ty = .inr r) : SameBytes s r.1 := by
  revert h
  fun_cases stateMatrix <;> simp <;> rintro rfl <;> simp

@[simp] theorem sameBytes_keepSt (s r) : SameBytes s (keepSt s r) := by simp [keepSt]

@[simp] theorem sameBytes_replicateTo (s dst job m qty flags epoch t n bytes) :
    SameBytes s (replicateTo s dst job m qty flags epoch t n bytes) := by
  simp [replicateTo]

@[simp] theorem sameBytes_replicate (s job m qty flags epoch t base size) :
    SameBytes s (replicate s job m qty flags epoch t base size) := by
  simp [replicate]

@[simp] theorem sameBytes_checkImage (k s m bytes) : SameBytes s (checkImage k s m bytes).1 := by
  fun_cases checkImage <;> simp +zetaDelta

@[simp] theorem sameBytes_writeBlocks (k s) : SameBytes s (writeBlocks k s).1 := by
  fun_cases writeBlocks with
  | case1 r h => exact sameBytes_stateMatrix _ _ _ h
  | _ => simp +zetaDelta

@[simp] theorem sameBytes_addPull (s p) : SameBytes s (addPull s p) := ⟨rfl, rfl⟩

@[simp] theorem sameBytes_serveNow (s p bytes) : SameBytes s (serveNow s p bytes) := by simp [serveNow]

@[simp] theorem sameBytes_refuseEpoch (k s code) : SameBytes s (refuseEpoch k s code).1 := by simp [refuseEpoch]

@[simp] theorem sameBytes_readQty (k qty s) : SameBytes s (readQty k qty s).1 := by
  fun_cases readQty with
  | case1 r h => exact sameBytes_stateMatrix _ _ _ h
  | _ => simp

@[simp] theorem sameBytes_readWeights (k s) : SameBytes s (readWeights k s).1 := by simp [readWeights]

@[simp] theorem sameBytes_readMomentum (k s) : SameBytes s (readMomentum k s).1 := by simp [readMomentum]

@[simp] theorem sameBytes_readBlocks (k s) : SameBytes s (readBlocks k s).1 := by
  fun_cases readBlocks with
  | case1 r h => exact sameBytes_stateMatrix _ _ _ h
  | _ => simp +zetaDelta

@[simp] theorem sameBytes_readEpoch (k s) : SameBytes s (readEpoch k s).1 := by simp [readEpoch]

@[simp] theorem sameBytes_fetchRange (s dst job t epoch matrix qty first n tag) :
    SameBytes s (fetchRange s dst job t epoch matrix qty first n tag) := by
  simp [fetchRange]

@[simp] theorem sameBytes_weightPull (k s) : SameBytes s (weightPull k s).1 := by
  fun_cases weightPull <;> simp +zetaDelta

/-! ### Machine/StateRec.lean -/

@[simp] theorem sameBytes_onState (kind via r ok s) {f : State → State} (hf : ∀ s, SameBytes s (f s)) :
    SameBytes s (onState kind via r ok f s) := by
  have h := sameBytes_takeIn s via (statePort s) (64 + r.payload.length) (.srec r)
  fun_cases onState <;> simp_all [-sameBytes_takeIn]

@[simp] theorem sameBytes_answerSt (s kind r) : SameBytes s (answerSt s kind r) := by simp [answerSt]

@[simp] theorem sameBytes_sendReady (s job e) : SameBytes s (sendReady s job e) := by simp [sendReady]

@[simp] theorem sameBytes_readyIfDone (s job) : SameBytes s (readyIfDone s job) := by simp [readyIfDone]

@[simp] theorem sameBytes_againRepl (s job matrix qty) : SameBytes s (againRepl s job matrix qty) := by simp [againRepl]

theorem sameBytes_execSackRx (via r s) : LeavesBytes s (execSackRx via r s) := ⟨_, rfl, by simp⟩

@[simp] theorem sameBytes_sendWdata (s r m job i count resent) : SameBytes s (sendWdata s r m job i count resent) := by
  simp [sendWdata]

@[simp] theorem sameBytes_refuseFetch (via r s code) : SameBytes s (refuseFetch via r s code) := by simp [refuseFetch]

theorem sameBytes_execSresendRx (via r s) : LeavesBytes s (execSresendRx via r s) := by
  refine ⟨_, rfl, sameBytes_onState _ _ _ _ _ fun s => ?_⟩
  dsimp only
  split
  · exact SameBytes.trans (t := _) ⟨rfl, rfl⟩ (sameBytes_foldl (fun s x => by simp) _ _)
  · split
    · split
      · simp
      · split
        · simp
        · exact sameBytes_foldl (fun s i => by simp) _ _
    · simp

@[simp] theorem sameBytes_serveFetch (via r s) : SameBytes s (serveFetch via r s) := by
  fun_cases serveFetch <;> simp +zetaDelta

theorem sameBytes_execFetchRx (via r s) : LeavesBytes s (execFetchRx via r s) := ⟨_, rfl, by simp⟩

@[simp] theorem sameBytes_restoreDone (s job) : SameBytes s (restoreDone s job) := by fun_cases restoreDone <;> simp

@[simp] theorem sameBytes_endFetched (s p code f) : SameBytes s (endFetched s p code f) := by simp [endFetched]

@[simp] theorem sameBytes_takeFetchEnd (r s) : SameBytes s (takeFetchEnd r s) := by
  fun_cases takeFetchEnd <;> simp +zetaDelta

theorem sameBytes_execFetchEndRx (via r s) : LeavesBytes s (execFetchEndRx via r s) := ⟨_, rfl, by simp⟩

theorem sameBytes_execStateRecordTimer (i s) : LeavesBytes s (execStateRecordTimer i s) := by
  refine ⟨_, rfl, ?_⟩
  dsimp only
  repeat' split
  all_goals simp

/-! ### Machine/Publish.lean -/

@[simp] theorem sameBytes_phase1 (s job) : SameBytes s (phase1 s job) := by fun_cases phase1 <;> simp

@[simp] theorem sameBytes_closeProof (s o p) : SameBytes s (closeProof s o p) := by simp [closeProof]

theorem sameBytes_execStepRecordClose (i s) : LeavesBytes s (execStepRecordClose i s) := by
  refine ⟨_, rfl, ?_⟩
  dsimp only
  repeat' split
  all_goals simp

@[simp] theorem sameBytes_dropHeldStep (s job step) : SameBytes s (dropHeldStep s job step) := by simp [dropHeldStep]

@[simp] theorem sameBytes_commitStep (s job step) : SameBytes s (commitStep s job step) := by simp [commitStep]

@[simp] theorem sameBytes_tryPublish (pg s job) : SameBytes s (tryPublish pg s job) := by
  fun_cases tryPublish <;> simp +zetaDelta

@[simp] theorem sameBytes_tryCommit (pg s job step replay) : SameBytes s (tryCommit pg s job step replay) := by
  simp [tryCommit]

@[simp] theorem sameBytes_settleCommits (pg s job) : SameBytes s (settleCommits pg s job) := by simp [settleCommits]

theorem sameBytes_execCommitRx (via m s) : LeavesBytes s (execCommitRx via m s) := ⟨_, rfl, by simp⟩

theorem sameBytes_execHarvestRx (via m s) : LeavesBytes s (execHarvestRx via m s) := ⟨_, rfl, by simp⟩

theorem sameBytes_execReadyRx (via m s) : LeavesBytes s (execReadyRx via m s) := ⟨_, rfl, by simp⟩

@[simp] theorem sameBytes_switchEpoch (s job e p) : SameBytes s (switchEpoch s job e p) := by
  fun_cases switchEpoch <;> simp +zetaDelta

theorem sameBytes_execPublishRx (via m s) : LeavesBytes s (execPublishRx via m s) := by
  refine ⟨_, rfl, ?_⟩
  dsimp only
  repeat' split
  all_goals simp

theorem sameBytes_execEpochSwitch (job s) : LeavesBytes s (execEpochSwitch job s) := ⟨_, rfl, by split <;> simp⟩

theorem sameBytes_execTableMismatchRx (via m s) : LeavesBytes s (execTableMismatchRx via m s) := by
  refine ⟨_, rfl, ?_⟩
  dsimp only
  repeat' split
  all_goals simp

/-! ### Machine/Frames.lean -/

@[simp] theorem sameBytes_txDown (s g k why) : SameBytes s (txDown s g k why) := by simp [txDown]

@[simp] theorem sameBytes_rxHunt (s g k why) : SameBytes s (rxHunt s g k why) := by simp [rxHunt]

@[simp] theorem sameBytes_startHs (s l) : SameBytes s (startHs s l) := by simp [startHs]

@[simp] theorem sameBytes_putFrame (s g k b) : SameBytes s (putFrame s g k b) := ⟨rfl, rfl⟩

@[simp] theorem sameBytes_chargeFarm (s g n) : SameBytes s (chargeFarm s g n) := ⟨rfl, rfl⟩

@[simp] theorem sameBytes_sendFrame (s l k kind vc retx seq body) :
    SameBytes s (sendFrame s l k kind vc retx seq body) := by
  simp [sendFrame]

@[simp] theorem sameBytes_sendAck (s l) : SameBytes s (sendAck s l) := by unfold sendAck; split <;> simp

@[simp] theorem sameBytes_restartTimers (s us) : SameBytes s (restartTimers s us) := by
  fun_cases restartTimers <;> simp +zetaDelta (disch := (intros; split <;> simp))

@[simp] theorem sameBytes_chargeLine (s g vc n) : SameBytes s (chargeLine s g vc n) := by simp [chargeLine]

@[simp] theorem sameBytes_sendData (s l k vc retx seq body) : SameBytes s (sendData s l k vc retx seq body) := by
  fun_cases sendData <;> simp +zetaDelta

@[simp] theorem sameBytes_launchNew (s l k vc body rest) : SameBytes s (launchNew s l k vc body rest) := by
  simp [launchNew]

@[simp] theorem sameBytes_pondFirst (s g n) : SameBytes s (pondFirst s g n) := by simp [pondFirst]

@[simp] theorem sameBytes_launchRetx (s l k only) : SameBytes s (launchRetx s l k only) := by
  fun_cases launchRetx <;> simp +zetaDelta

@[simp] theorem sameBytes_noteFull (s g) : SameBytes s (noteFull s g) := by simp [noteFull]

@[simp] theorem sameBytes_clearFull (s g) : SameBytes s (clearFull s g) := ⟨rfl, rfl⟩

@[simp] theorem sameBytes_launchOr (s l k vc b) : SameBytes s (launchOr s l k vc b) := by
  unfold launchOr; split <;> simp

theorem sameBytes_execFrameLaunch (g i s) : LeavesBytes s (execFrameLaunch g i s) := by
  refine ⟨_, rfl, ?_⟩
  dsimp only
  repeat' split
  all_goals simp

/-! ### Machine/Line.lean -/

@[simp] theorem sameBytes_measureLink (s l) : SameBytes s (measureLink s l) := by simp [measureLink]

@[simp] theorem sameBytes_refreshSlot (s g k) : SameBytes s (refreshSlot s g k) := by simp [refreshSlot]

@[simp] theorem sameBytes_missHeader (s g k) : SameBytes s (missHeader s g k) := by simp [missHeader]

@[simp] theorem sameBytes_judgeFec (s g k) : SameBytes s (judgeFec s g k) := by simp [judgeFec]

@[simp] theorem sameBytes_headerStates (s g k h) : SameBytes s (headerStates s g k h) := by simp [headerStates]

theorem sameBytes_execSfHeaderRx (g k hdr rx cd skew s) : LeavesBytes s (execSfHeaderRx g k hdr rx cd skew s) := by
  refine ⟨_, rfl, ?_⟩
  split
  · simp
  · split
    · simp
    · rename_i l _
      have hend : ∀ u, SameBytes s u → SameBytes s (if (parseSf hdr).src ≠ linkPeer u l then rxHunt u g k 6
          else if skew > 2048 then rxHunt u g k 5 else headerStates u g k (parseSf hdr)) := by
        intro u hu
        split
        · simp [hu]
        · split <;> simp [hu]
      refine sameBytes_ite _ (by simp) (hend _ (SameBytes.trans (t := _) ?_ (sameBytes_judgeFec _ g k)))
      exact sameBytes_ite _ (by simp) (by simp)

@[simp] theorem sameBytes_fecSlotDone (s g k sf slot d) : SameBytes s (fecSlotDone s g k sf slot d) := by
  simp [fecSlotDone]

theorem sameBytes_execFecSlotDecode (g k slot xI xQ yI yQ s) :
    LeavesBytes s (execFecSlotDecode g k slot xI xQ yI yQ s) :=
  ⟨_, rfl, by simp⟩

@[simp] theorem sameBytes_pushUnits (s l vc seq us) : SameBytes s (pushUnits s l vc seq us) := by simp [pushUnits]

@[simp] theorem sameBytes_pushRun (s l vc q n) : SameBytes s (pushRun s l vc q n) := by
  fun_induction pushRun with
  | case1 => simp
  | case2 s q n x t ih =>
    have ht : SameBytes s t := by unfold t; split <;> simp
    exact ht.trans ih

@[simp] theorem sameBytes_gotFrame (s l) : SameBytes s (gotFrame s l) := ⟨rfl, rfl⟩

@[simp] theorem sameBytes_noteCopy (s l slot vc seq body) : SameBytes s (noteCopy s l slot vc seq body) := by
  unfold noteCopy; split <;> simp

@[simp] theorem sameBytes_bootUnits (s l id us) : SameBytes s (bootUnits s l id us).1 := by
  unfold bootUnits; split <;> simp

@[simp] theorem sameBytes_acceptFrame (s l h body) : SameBytes s (acceptFrame s l h body) := by simp [acceptFrame]

@[simp] theorem sameBytes_finishFrame (s l slot h body) : SameBytes s (finishFrame s l slot h body) := by
  fun_cases finishFrame <;> simp +zetaDelta

@[simp] theorem sameBytes_delineate (s g k bytes) : SameBytes s (delineate s g k bytes) := by simp [delineate]

@[simp] theorem sameBytes_dropFrame (s g) : SameBytes s (dropFrame s g) := ⟨rfl, rfl⟩

theorem sameBytes_frameLink (s g k bytes whole touched) {t} (h : frameLink s g k bytes whole touched = .inl t) :
    SameBytes s t :=
  by
  revert h
  fun_cases frameLink <;> simp <;> rintro rfl <;> simp

theorem sameBytes_takeFrame (s g k bytes touched) {t} (h : takeFrame s g k bytes touched = .inl t) : SameBytes s t := by
  revert h
  fun_cases takeFrame with
  | case1 _ h => rintro ⟨⟩; exact sameBytes_frameLink _ _ _ _ _ _ h
  | case4 => nofun
  | _ => rintro ⟨⟩; simp

@[simp] theorem sameBytes_noteVerified (s l slot h) : SameBytes s (noteVerified s l slot h) := ⟨rfl, rfl⟩

@[simp] theorem sameBytes_setHold (s g l) : SameBytes s (setHold s g l) := ⟨rfl, rfl⟩

@[simp] theorem sameBytes_noteHold (s g) : SameBytes s (noteHold s g) := ⟨rfl, rfl⟩

@[simp] theorem sameBytes_releaseEarly (s l h f) : SameBytes s (releaseEarly s l h f) := by
  fun_cases releaseEarly <;> simp +zetaDelta

theorem sameBytes_execDataFrameRx (g k bytes span s) : LeavesBytes s (execDataFrameRx g k bytes span s) := by
  refine ⟨_, rfl, ?_⟩
  split
  · simp
  · have hd := sameBytes_delineate s g k bytes
    dsimp only
    split
    · rename_i t h; exact hd.trans (sameBytes_takeFrame _ _ _ _ _ h)
    · split
      · simp
      · split <;> simp

@[simp] theorem sameBytes_verifyEarly (s l slot h body) : SameBytes s (verifyEarly s l slot h body) := by
  fun_cases verifyEarly <;> simp

@[simp] theorem sameBytes_failEarly (s l h) : SameBytes s (failEarly s l h) := by
  unfold failEarly
  dsimp only
  refine SameBytes.trans (t := _) ?_ (sameBytes_foldl (fun s u => ?_) _ _)
  · exact ⟨rfl, rfl⟩
  · split
    · split
      · split <;> simp
      · simp
    · simp

theorem sameBytes_execTagFinalise (g i s) : LeavesBytes s (execTagFinalise g i s) := by
  refine ⟨_, rfl, ?_⟩
  dsimp only
  repeat' split
  all_goals simp

theorem sameBytes_execFillFrameRx (arr hdr s) : LeavesBytes s (execFillFrameRx arr hdr s) := by
  refine ⟨_, rfl, ?_⟩
  split
  · simp
  · have hd := sameBytes_delineate s arr.g arr.k hdr
    dsimp only
    split
    · rename_i t h; exact hd.trans (sameBytes_frameLink _ _ _ _ _ _ h)
    · exact hd

@[simp] theorem sameBytes_loseLink (s l) : SameBytes s (loseLink s l) := by simp [loseLink]

@[simp] theorem sameBytes_triggerRetx (s l f) : SameBytes s (triggerRetx s l f) := by simp [triggerRetx]

@[simp] theorem sameBytes_takeEnt (l s e) : SameBytes s (takeEnt l s e) := by simp [takeEnt]

theorem sameBytes_execAckFrameRx (g k bytes span s) : LeavesBytes s (execAckFrameRx g k bytes span s) := by
  refine ⟨_, rfl, ?_⟩
  split
  · simp
  · have hd := sameBytes_delineate s g k bytes
    dsimp only
    split
    · rename_i t h; exact hd.trans (sameBytes_takeFrame _ _ _ _ _ h)
    · split
      · simp
      · split
        · simp
        · split <;> simp

theorem sameBytes_execAckIdleTimer (g i s) : LeavesBytes s (execAckIdleTimer g i s) := ⟨_, rfl, by simp⟩

theorem sameBytes_execArqRtoExpiry (g i vc seq s) : LeavesBytes s (execArqRtoExpiry g i vc seq s) :=
  ⟨_, rfl, by split <;> simp⟩

theorem sameBytes_execLinkLost (g i s) : LeavesBytes s (execLinkLost g i s) := ⟨_, rfl, by simp⟩

@[simp] theorem sameBytes_resetLink (s l) : SameBytes s (resetLink s l) := ⟨rfl, rfl⟩

@[simp] theorem sameBytes_fillFrames (s g k peer x4 x5) : SameBytes s (fillFrames s g k peer x4 x5) := by
  fun_induction fillFrames <;> simp_all +zetaDelta

@[simp] theorem sameBytes_sendArea (s g k) : SameBytes s (sendArea s g k) := by fun_cases sendArea <;> simp +zetaDelta

@[simp] theorem sameBytes_slotTick (s g k) : SameBytes s (slotTick s g k) := by fun_cases slotTick <;> simp +zetaDelta

@[simp] theorem sameBytes_linkEnable (s l) : SameBytes s (linkEnable s l) := by simp [linkEnable]

@[simp] theorem sameBytes_linkTick (s l) : SameBytes s (linkTick s l) := by simp [linkTick]

@[simp] theorem sameBytes_lineTick (s) : SameBytes s (lineTick s) := by simp [lineTick]

/-! ### Machine/Cipher.lean -/

@[simp] theorem sameBytes_drawBytes (s n) : SameBytes s (drawBytes s n).1 := ⟨rfl, rfl⟩

@[simp] theorem sameBytes_sendKey (s l kind session m) : SameBytes s (sendKey s l kind session m) := by simp [sendKey]

@[simp] theorem sameBytes_abortHs (s l session reason) : SameBytes s (abortHs s l session reason) := by simp [abortHs]

@[simp] theorem sameBytes_takeKey (s l kind b) : SameBytes s (takeKey s l kind b).1 := by
  have ht : ∀ t ∈ (if byteAt b 0 = kind then takeUnit s l (.key b) else none), SameBytes s t := by
    split
    · exact sameBytes_takeUnit s l _
    · simp
  fun_cases takeKey <;> simp_all

@[simp] theorem sameBytes_setHs (s l h) : SameBytes s (setHs s l h) := ⟨rfl, rfl⟩

theorem sameBytes_execHandshakeSignDone (g i s) : LeavesBytes s (execHandshakeSignDone g i s) :=
  ⟨_, rfl, by split <;> simp⟩

theorem sameBytes_execHelloRx (g i b s) : LeavesBytes s (execHelloRx g i b s) := ⟨_, rfl, by split <;> simp⟩

@[simp] theorem sameBytes_lateKey (s l ses) : SameBytes s (lateKey s l ses) := by simp [lateKey]

theorem sameBytes_execAcceptRx (g i b s) : LeavesBytes s (execAcceptRx g i b s) := ⟨_, rfl, by split <;> simp⟩

@[simp] theorem sameBytes_installRx (s l h) : SameBytes s (installRx s l h) := ⟨rfl, rfl⟩

theorem sameBytes_execHandshakeVerifyDone (g i s) : LeavesBytes s (execHandshakeVerifyDone g i s) := by
  refine ⟨_, rfl, ?_⟩
  dsimp only
  repeat' split
  all_goals simp

theorem sameBytes_execConfirmRx (g i b s) : LeavesBytes s (execConfirmRx g i b s) := ⟨_, rfl, by split <;> simp⟩

theorem sameBytes_execDoneRx (g i b s) : LeavesBytes s (execDoneRx g i b s) := ⟨_, rfl, by split <;> simp⟩

theorem sameBytes_execAbortRx (g i b s) : LeavesBytes s (execAbortRx g i b s) := ⟨_, rfl, by split <;> simp⟩

theorem sameBytes_execHandshakeTimeout (g i s) : LeavesBytes s (execHandshakeTimeout g i s) :=
  ⟨_, rfl, by split <;> simp⟩

theorem sameBytes_execHandshakeRetry (g i s) : LeavesBytes s (execHandshakeRetry g i s) := ⟨_, rfl, by split <;> simp⟩

theorem sameBytes_execKeySwitch (g i s) : LeavesBytes s (execKeySwitch g i s) := ⟨_, rfl, by split <;> simp⟩

theorem sameBytes_execKeyDrainEnd (g i s) : LeavesBytes s (execKeyDrainEnd g i s) := ⟨_, rfl, by split <;> simp⟩

theorem sameBytes_execKeyAgeExpiry (g i s) : LeavesBytes s (execKeyAgeExpiry g i s) := ⟨_, rfl, by split <;> simp⟩

@[simp] theorem sameBytes_dropHolds (s) : SameBytes s (dropHolds s) :=
  sameBytes_foldl (fun s g => SameBytes.trans (t :=
  noteHold (setHold s g []) g) (by simp) (sameBytes_foldl (fun s f => by simp) _ _)) _ _

theorem sameBytes_execLineAlarm (src q dir engine s) : LeavesBytes s (execLineAlarm src q dir engine s) :=
  ⟨_, rfl, by simp⟩

theorem sameBytes_execAlarmEraseEnd (s) : LeavesBytes s (execAlarmEraseEnd s) := ⟨_, rfl, by split <;> simp⟩

theorem sameBytes_execCipherClusterOut (g d n s) : LeavesBytes s (execCipherClusterOut g d n s) := ⟨_, rfl, by simp⟩

@[simp] theorem sameBytes_cipherTick (s active) : SameBytes s (cipherTick s active) := ⟨rfl, rfl⟩

/-! ### Machine/Light.lean -/

@[simp] theorem sameBytes_setBay (s i c) : SameBytes s (setBay s i c) := ⟨rfl, rfl⟩

@[simp] theorem sameBytes_darken (s g k) : SameBytes s (darken s g k) := by simp [darken]

@[simp] theorem sameBytes_tune (s g k) : SameBytes s (tune s g k) := by simp [tune]

@[simp] theorem sameBytes_lockLaser (s g k) : SameBytes s (lockLaser s g k) := by simp [lockLaser]

@[simp] theorem sameBytes_startSearch (s g) : SameBytes s (startSearch s g) := by simp [startSearch]

@[simp] theorem sameBytes_setHalf (s q j h v) : SameBytes s (setHalf s q j h v) := ⟨rfl, rfl⟩

@[simp] theorem sameBytes_setPhy (s p x) : SameBytes s (setPhy s p x) := ⟨rfl, rfl⟩

@[simp] theorem sameBytes_dropHalf (s q j h link) : SameBytes s (dropHalf s q j h link) := by simp [dropHalf]

@[simp] theorem sameBytes_swapFabric (s q j h) : SameBytes s (swapFabric s q j h) := by simp [swapFabric]

@[simp] theorem sameBytes_setIns (s l i) : SameBytes s (setIns s l i) := ⟨rfl, rfl⟩

@[simp] theorem sameBytes_beginInsert (s l k sp init w) : SameBytes s (beginInsert s l k sp init w) := by
  simp [beginInsert]

@[simp] theorem sameBytes_startInsert (s l k) : SameBytes s (startInsert s l k) := by fun_cases startInsert <;> simp

@[simp] theorem sameBytes_nextInsert (s l) : SameBytes s (nextInsert s l) := by fun_cases nextInsert <;> simp

@[simp] theorem sameBytes_cancelInsert (s l i) : SameBytes s (cancelInsert s l i) := by simp [cancelInsert]

@[simp] theorem sameBytes_swapLanes (s l k sp) : SameBytes s (swapLanes s l k sp) := by simp [swapLanes]

@[simp] theorem sameBytes_swapInsert (s l i) : SameBytes s (swapInsert s l i) := by simp [swapInsert]

theorem sameBytes_execSpareSwapAtW (g i s) : LeavesBytes s (execSpareSwapAtW g i s) := ⟨_, rfl, by split <;> simp⟩

theorem sameBytes_execSpareLaserOff (g k s) : LeavesBytes s (execSpareLaserOff g k s) := ⟨_, rfl, by split <;> simp⟩

theorem sameBytes_execSpareRetry (g i k s) : LeavesBytes s (execSpareRetry g i k s) := ⟨_, rfl, by split <;> simp⟩

@[simp] theorem sameBytes_laserRaise (s b n code) : SameBytes s (laserRaise s b n code) := by simp [laserRaise]

@[simp] theorem sameBytes_failLaser (s b n) : SameBytes s (failLaser s b n) := by simp [failLaser]

@[simp] theorem sameBytes_crossSpare (s b n) : SameBytes s (crossSpare s b n) := by
  fun_cases crossSpare <;> simp +zetaDelta

@[simp] theorem sameBytes_judgeFade (s b n) : SameBytes s (judgeFade s b n) := by simp [judgeFade]

@[simp] theorem sameBytes_samplePower (s e) : SameBytes s (samplePower s e) := by simp [samplePower]

theorem sameBytes_execCartInsert (i s) : LeavesBytes s (execCartInsert i s) := ⟨_, rfl, by simp⟩

theorem sameBytes_execCartControllerAnswer (i serial lasers s) :
    LeavesBytes s (execCartControllerAnswer i serial lasers s) :=
  ⟨_, rfl, by simp⟩

@[simp] theorem sameBytes_refuseCart (s i certified) : SameBytes s (refuseCart s i certified) := by simp [refuseCart]

@[simp] theorem sameBytes_readyCart (s i) : SameBytes s (readyCart s i) := by simp [readyCart]

theorem sameBytes_execCartAuthResponse (i chain sig s) : LeavesBytes s (execCartAuthResponse i chain sig s) :=
  ⟨_, rfl, by simp⟩

theorem sameBytes_execCartAuthTimeout (i s) : LeavesBytes s (execCartAuthTimeout i s) := ⟨_, rfl, by simp⟩

@[simp] theorem sameBytes_unpower (s i) : SameBytes s (unpower s i) := by simp [unpower]

theorem sameBytes_execCartLost (i s) : LeavesBytes s (execCartLost i s) := ⟨_, rfl, by simp⟩

@[simp] theorem sameBytes_releaseCart (s i) : SameBytes s (releaseCart s i) := by simp [releaseCart]

theorem sameBytes_execCartReleaseDone (i s) : LeavesBytes s (execCartReleaseDone i s) := ⟨_, rfl, by simp⟩

@[simp] theorem sameBytes_commission (s i) : SameBytes s (commission s i) := ⟨rfl, rfl⟩

theorem sameBytes_execLaserFaultReport (i n s) : LeavesBytes s (execLaserFaultReport i n s) := ⟨_, rfl, by simp⟩

@[simp] theorem sameBytes_fitRing (s g b ps e) : SameBytes s (fitRing s g b ps e) := ⟨rfl, rfl⟩

theorem sameBytes_execRingSearchDone (g ps s) : LeavesBytes s (execRingSearchDone g ps s) := by
  refine ⟨_, rfl, ?_⟩
  split
  · simp
  · extract_lets _ t0 t1 out _ t2 ks r t3 _ t4 t5
    have h1 : SameBytes s t1 := SameBytes.trans (t := t0) ⟨rfl, rfl⟩ (sameBytes_foldl (fun s e => by simp) _ _)
    have h3 : SameBytes t2 t3 := sameBytes_foldl (fun s e => by simp) _ _
    have h5 : SameBytes t4 t5 := sameBytes_foldl (fun s b => by
      split
      · exact sameBytes_foldl (fun s e => by simp) _ _
      · simp) _ _
    have h2 : SameBytes t1 t2 := by simp [t2]
    have h4 : SameBytes t3 t4 := by simp [t4]
    have h : SameBytes s t5 := h1.trans (h2.trans (h3.trans (h4.trans h5)))
    exact h.trans (sameBytes_foldl (fun s e => sameBytes_ite _ ⟨rfl, rfl⟩ (by simp)) _ _)

@[simp] theorem sameBytes_singleRing (s g k b ps) : SameBytes s (singleRing s g k b ps) := by
  fun_cases singleRing <;> simp

theorem sameBytes_execLaserLocked (g k ps s) : LeavesBytes s (execLaserLocked g k ps s) := ⟨_, rfl, by simp⟩

theorem sameBytes_execRingLockLoss (r s) : LeavesBytes s (execRingLockLoss r s) := ⟨_, rfl, by split <;> simp⟩

theorem sameBytes_execRingRelock (r s) : LeavesBytes s (execRingRelock r s) := ⟨_, rfl, by split <;> simp⟩

theorem sameBytes_execRingRelockRetry (r s) : LeavesBytes s (execRingRelockRetry r s) := ⟨_, rfl, by split <;> simp⟩

theorem sameBytes_execFabricPortLinkChange (p link locked rxp s) :
    LeavesBytes s (execFabricPortLinkChange p link locked rxp s) :=
  ⟨_, rfl, by simp⟩

@[simp] theorem sameBytes_feedForward (s g) : SameBytes s (feedForward s g) := ⟨rfl, rfl⟩

@[simp] theorem sameBytes_tickInsert (s l) : SameBytes s (tickInsert s l) := by unfold tickInsert; split <;> simp

@[simp] theorem sameBytes_answerSwapAt (s l) : SameBytes s (answerSwapAt s l) := by fun_cases answerSwapAt <;> simp

@[simp] theorem sameBytes_tickSlot (s g k) : SameBytes s (tickSlot s g k) := by simp [tickSlot]

@[simp] theorem sameBytes_lightTick (s powers rx) : SameBytes s (lightTick s powers rx) := by simp [lightTick]

@[simp] theorem sameBytes_applyMap (s bank) : SameBytes s (applyMap s bank) := by unfold applyMap; split <;> simp

theorem sameBytes_execWrtApplyDone (ok s) : LeavesBytes s (execWrtApplyDone ok s) := ⟨_, rfl, by split <;> simp⟩

theorem sameBytes_execWrtRestoreDone (s) : LeavesBytes s (execWrtRestoreDone s) := ⟨_, rfl, by split <;> simp⟩

/-! ### Machine/Time.lean -/

@[simp] theorem sameBytes_sendHeaders (s) : SameBytes s (sendHeaders s) := by simp [sendHeaders]

@[simp] theorem sameBytes_setLt (s x) : SameBytes s (setLt s x) := ⟨rfl, rfl⟩

@[simp] theorem sameBytes_adopt (s a os) : SameBytes s (adopt s a os) := by unfold adopt; split <;> simp

@[simp] theorem sameBytes_declare (s) : SameBytes s (declare s) := by simp [declare]

@[simp] theorem sameBytes_keepParent (s a os) : SameBytes s (keepParent s a os) := by
  fun_cases keepParent <;> simp +zetaDelta

@[simp] theorem sameBytes_noteHeaders (s) : SameBytes s (noteHeaders s) := ⟨rfl, rfl⟩

@[simp] theorem sameBytes_elect (s) : SameBytes s (elect s) := by fun_cases elect <;> simp +zetaDelta

theorem sameBytes_execLtHoldTimeout (s) : LeavesBytes s (execLtHoldTimeout s) := ⟨_, rfl, by split <;> simp⟩

theorem sameBytes_execLtElectTimeout (s) : LeavesBytes s (execLtElectTimeout s) := ⟨_, rfl, by split <;> simp⟩

@[simp] theorem sameBytes_stepTo (s n ofs) : SameBytes s (stepTo s n ofs) := by simp [stepTo]

@[simp] theorem sameBytes_stepBy (s th) : SameBytes s (stepBy s th) := by simp [stepBy]

@[simp] theorem sameBytes_servo (s l) : SameBytes s (servo s l) := by simp [servo]

@[simp] theorem sameBytes_tickD (s) : SameBytes s (tickD s) := by unfold tickD; split <;> simp

@[simp] theorem sameBytes_timeTick (s) : SameBytes s (timeTick s) := by
  fun_cases timeTick <;> simp +zetaDelta <;> split <;> simp

@[simp] theorem sameBytes_takeMaster (s) : SameBytes s (takeMaster s) := ⟨rfl, rfl⟩

@[simp] theorem sameBytes_changeDomain (s) : SameBytes s (changeDomain s) := ⟨rfl, rfl⟩

@[simp] theorem sameBytes_setPtp (s x) : SameBytes s (setPtp s x) := ⟨rfl, rfl⟩

theorem sameBytes_execPtpSyncRx (p m ofs s) : LeavesBytes s (execPtpSyncRx p m ofs s) := ⟨_, rfl, by simp⟩

theorem sameBytes_execPtpFollowUpRx (p m s) : LeavesBytes s (execPtpFollowUpRx p m s) := ⟨_, rfl, by simp⟩

theorem sameBytes_execPtpDelayRespRx (p m s) : LeavesBytes s (execPtpDelayRespRx p m s) := ⟨_, rfl, by simp⟩

theorem sameBytes_execPtpAnnounceRx (p m s) : LeavesBytes s (execPtpAnnounceRx p m s) := ⟨_, rfl, by simp⟩

theorem sameBytes_execPtpUnsupportedRx (p s) : LeavesBytes s (execPtpUnsupportedRx p s) := ⟨_, rfl, by simp⟩

theorem sameBytes_execPtpUnlocked (s) : LeavesBytes s (execPtpUnlocked s) := ⟨_, rfl, by simp⟩

theorem sameBytes_execPtpDelayReqTx (p id seq s) : LeavesBytes s (execPtpDelayReqTx p id seq s) := ⟨_, rfl, by simp⟩

@[simp] theorem sameBytes_setTsq (s p x) : SameBytes s (setTsq s p x) := ⟨rfl, rfl⟩

@[simp] theorem sameBytes_stampTx (s p id ofs) : SameBytes s (stampTx s p id ofs) := by simp [stampTx]

@[simp] theorem sameBytes_tsqPop (s p) : SameBytes s (tsqPop s p) := ⟨rfl, rfl⟩

@[simp] theorem sameBytes_latchAll (s pg l) : SameBytes s (latchAll s pg l) := ⟨rfl, rfl⟩

@[simp] theorem sameBytes_answer (s pg off v) : SameBytes s (answer s pg off v) := ⟨rfl, rfl⟩

@[simp] theorem sameBytes_latchRead (s pg off v l) : SameBytes s (latchRead s pg off v l) := by simp [latchRead]

theorem sameBytes_execTsqIdRead (p s) : LeavesBytes s (execTsqIdRead p s) := ⟨_, rfl, by simp⟩

theorem sameBytes_execLtNowRead (ofs s) : LeavesBytes s (execLtNowRead ofs s) := ⟨_, rfl, by simp⟩

theorem sameBytes_execMapRead (s) : LeavesBytes s (execMapRead s) := ⟨_, rfl, by simp⟩

@[simp] theorem sameBytes_pulseApplied (s o) : SameBytes s (pulseApplied s o) := by
  fun_cases pulseApplied <;> simp +zetaDelta

@[simp] theorem sameBytes_pulsesApplied (old s) : SameBytes s (pulsesApplied old s) := by simp [pulsesApplied]

@[simp] theorem sameBytes_pulseLead (s o k) : SameBytes s (pulseLead s o k) := by unfold pulseLead; split <;> simp

@[simp] theorem sameBytes_pulseTrail (s o) : SameBytes s (pulseTrail s o) := by unfold pulseTrail; split <;> simp

theorem sameBytes_execPulseEdge (o k lead s) : LeavesBytes s (execPulseEdge o k lead s) := ⟨_, rfl, by simp⟩

@[simp] theorem sameBytes_setEvt (s i x) : SameBytes s (setEvt s i x) := ⟨rfl, rfl⟩

theorem sameBytes_execTimingInputEdge (i rise ofs s) : LeavesBytes s (execTimingInputEdge i rise ofs s) :=
  ⟨_, rfl, by simp⟩

@[simp] theorem sameBytes_evtLatch (s i) : SameBytes s (evtLatch s i) := ⟨rfl, rfl⟩

@[simp] theorem sameBytes_evtPop (s i) : SameBytes s (evtPop s i) := ⟨rfl, rfl⟩

@[simp] theorem sameBytes_launchRec (l s x r) : SameBytes s (launchRec l s x r) := by
  fun_cases launchRec <;> simp +zetaDelta <;> split <;> simp

@[simp] theorem sameBytes_launchLate (s l) : SameBytes s (launchLate s l) := by simp [launchLate]

theorem sameBytes_execLaunchFire (i ns s) : LeavesBytes s (execLaunchFire i ns s) := by
  unfold execLaunchFire
  generalize s.sf * 8000 + ns.val = now
  refine ⟨_, rfl, ?_⟩
  split
  · simp
  · rename_i l _
    generalize l.sf * 8000 + l.slot * 125 = due
    repeat' split
    all_goals simp

/-! ### Machine/Traffic.lean -/

@[simp] theorem sameBytes_admitQueue (p s q) : SameBytes s (admitQueue p s q) := by
  fun_cases admitQueue <;> simp +zetaDelta (disch := (intros; split <;> simp))

@[simp] theorem sameBytes_admitPort (s p) : SameBytes s (admitPort s p) := by simp [admitPort]

@[simp] theorem sameBytes_startHead (s p q ofs) : SameBytes s (startHead s p q ofs) := by
  fun_cases startHead <;> simp +zetaDelta <;> split <;> simp

theorem sameBytes_dwrr (s p x2 x3) : ∀ r ∈ dwrr s p x2 x3, SameBytes s r.1 := by fun_induction dwrr <;> simp_all

@[simp] theorem sameBytes_startWeighted (s p q ofs) : SameBytes s (startWeighted s p q ofs) := by simp [startWeighted]

theorem sameBytes_execEgressPacketStart (p ofs s) : LeavesBytes s (execEgressPacketStart p ofs s) := by
  refine ⟨_, rfl, ?_⟩
  split
  · simp
  · split
    · simp
    · split
      · rename_i t q h
        have ht : SameBytes s t := sameBytes_dwrr _ _ _ _ _ h
        simpa using ht
      · simp

@[simp] theorem sameBytes_refillQueue (s x) : SameBytes s (refillQueue s x) := by simp [refillQueue]

@[simp] theorem sameBytes_refillPolice (s x) : SameBytes s (refillPolice s x) := by simp [refillPolice]

theorem sameBytes_execShaperRefill (s) : LeavesBytes s (execShaperRefill s) := ⟨_, rfl, by simp⟩

@[simp] theorem sameBytes_sampleQueue (p delays s q) : SameBytes s (sampleQueue p delays s q) := ⟨rfl, rfl⟩

theorem sameBytes_execQueueSample (p delays s) : LeavesBytes s (execQueueSample p delays s) := ⟨_, rfl, by simp⟩

@[simp] theorem sameBytes_clearSamples (s p) : SameBytes s (clearSamples s p) := ⟨rfl, rfl⟩

@[simp] theorem sameBytes_sendLive (s) : SameBytes s (sendLive s) := by simp [sendLive]

theorem sameBytes_execAuditStart (s) : LeavesBytes s (execAuditStart s) := ⟨_, rfl, by simp⟩

@[simp] theorem sameBytes_auditFailed (s f more) : SameBytes s (auditFailed s f more) := by simp [auditFailed]

theorem sameBytes_execAuditDone (us s) : LeavesBytes s (execAuditDone us s) := by
  refine ⟨_, rfl, ?_⟩
  dsimp only
  repeat' split
  all_goals simp

@[simp] theorem sameBytes_dropJob (s job) : SameBytes s (dropJob s job) := by
  unfold dropJob
  extract_lets j s1 n s2
  have h : SameBytes s s1 := by unfold s1; split <;> simp
  simp [s2, h]

/-! ### Machine/Recovery.lean -/

@[simp] theorem sameBytes_quotaOver (s r) : SameBytes s (quotaOver s r) := by simp [quotaOver]

@[simp] theorem sameBytes_raiseLogged (s pg code info) : SameBytes s (raiseLogged s pg code info) := by
  simp [raiseLogged]

@[simp] theorem sameBytes_enterMode (s m) : SameBytes s (enterMode s m) := by simp [enterMode]

@[simp] theorem sameBytes_logProve (s candidate other what) : SameBytes s (logProve s candidate other what) :=
  ⟨rfl, rfl⟩

@[simp] theorem sameBytes_setProve (s p) : SameBytes s (setProve s p) := ⟨rfl, rfl⟩

@[simp] theorem sameBytes_beginProving (s g) : SameBytes s (beginProving s g) := by simp [beginProving]

@[simp] theorem sameBytes_failProving (s reason cand other what) :
    SameBytes s (failProving s reason cand other what) := by
  simp [failProving]

@[simp] theorem sameBytes_passProving (s) : SameBytes s (passProving s) := by simp [passProving]

@[simp] theorem sameBytes_replicateQty (s g job m q) : SameBytes s (replicateQty s g job m q) := by simp [replicateQty]

@[simp] theorem sameBytes_stateDone (s) : SameBytes s (stateDone s) := by simp [stateDone]

@[simp] theorem sameBytes_takeStateDigest (s g matrix v) : SameBytes s (takeStateDigest s g matrix v) := by
  fun_cases takeStateDigest <;> simp +zetaDelta

@[simp] theorem sameBytes_takeStepDigest (s g step v) : SameBytes s (takeStepDigest s g step v) := by
  fun_cases takeStepDigest <;> simp +zetaDelta

theorem sameBytes_execProveDigestRx (via m s) : LeavesBytes s (execProveDigestRx via m s) := ⟨_, rfl, by simp⟩

theorem sameBytes_execProveLinksTimeout (s) : LeavesBytes s (execProveLinksTimeout s) := ⟨_, rfl, by simp⟩

@[simp] theorem sameBytes_renewIncumbent (s) : SameBytes s (renewIncumbent s) := by simp [renewIncumbent]

@[simp] theorem sameBytes_sendDigest (s job step matrix phase v subject) :
    SameBytes s (sendDigest s job step matrix phase v subject) := by
  simp [sendDigest]

@[simp] theorem sameBytes_replicatePrev (s g job m) : SameBytes s (replicatePrev s g job m) := by simp [replicatePrev]

@[simp] theorem sameBytes_beginReplicas (s g) : SameBytes s (beginReplicas s g) := by simp [beginReplicas]

@[simp] theorem sameBytes_sendDue (s d) : SameBytes s (sendDue s d) := by fun_cases sendDue <;> simp +zetaDelta

@[simp] theorem sameBytes_candidateDigests (s) : SameBytes s (candidateDigests s) := by simp [candidateDigests]

/-- R438: a shard's check, for any code. -/
theorem sameBytes_raiseShard (code : Nat) (s : State) (j g) : SameBytes s (let z := (oldestOf s j).getD 0
    raiseSubj s .rseq code 0 (mkCiid j z 0 (replayOf s j z)) g) := sameBytes_raiseSubj _ _ _ _ _ _

@[simp] theorem sameBytes_shardCheck (s g) : SameBytes s (shardCheck s g) := by
  unfold shardCheck
  dsimp only
  exact sameBytes_foldl (fun s j => sameBytes_raiseShard _ s j g) _ _

@[simp] theorem sameBytes_loseGateway (s g att) : SameBytes s (loseGateway s g att) := by simp [loseGateway]

theorem sameBytes_execGatewayLiveTimeout (g s) : LeavesBytes s (execGatewayLiveTimeout g s) := ⟨_, rfl, by simp⟩

theorem sameBytes_execRecoverDoneTimeout (job g s) : LeavesBytes s (execRecoverDoneTimeout job g s) := ⟨_, rfl, by simp⟩

theorem sameBytes_execLiveRx (via m s) : LeavesBytes s (execLiveRx via m s) := ⟨_, rfl, by simp⟩

theorem sameBytes_execConsumerLost (cell s) : LeavesBytes s (execConsumerLost cell s) := ⟨_, rfl, by split <;> simp⟩

theorem sameBytes_execReplanLate (slot s) : LeavesBytes s (execReplanLate slot s) := ⟨_, rfl, by split <;> simp⟩

theorem sameBytes_execChargeAgeOut (t s) : LeavesBytes s (execChargeAgeOut t s) := ⟨_, rfl, by simp⟩

@[simp] theorem sameBytes_noteAttempt (s g c) : SameBytes s (noteAttempt s g c) := ⟨rfl, rfl⟩

theorem sameBytes_execRecoverReqRx (via m s) : LeavesBytes s (execRecoverReqRx via m s) := ⟨_, rfl, by simp⟩

theorem sameBytes_execRecoverDoneRx (via m s) : LeavesBytes s (execRecoverDoneRx via m s) := ⟨_, rfl, by simp⟩

@[simp] theorem sameBytes_holdTile (s t) : SameBytes s (holdTile s t) := by simp [holdTile]

@[simp] theorem sameBytes_releaseTiles (s) : SameBytes s (releaseTiles s) := by simp [releaseTiles]

@[simp] theorem sameBytes_haltJob (s job) : SameBytes s (haltJob s job) := by simp [haltJob]

@[simp] theorem sameBytes_replayedHeld (s org p n) : SameBytes s (replayedHeld s org p n) := by simp [replayedHeld]

@[simp] theorem sameBytes_freeJob (s un) : SameBytes s (freeJob s un) := by
  unfold freeJob
  dsimp only
  refine SameBytes.trans (t := _) ?_ (sameBytes_foldl (fun s i => ?_) _ _)
  · simp
  · split <;> simp

@[simp] theorem sameBytes_freeUnits (s un) : SameBytes s (freeUnits s un) := by simp [freeUnits]

@[simp] theorem sameBytes_restoreMomentum (s job x) : SameBytes s (restoreMomentum s job x) := by
  unfold restoreMomentum; split <;> simp

@[simp] theorem sameBytes_undoOuter (s job z all) : SameBytes s (undoOuter s job z all) := by simp [undoOuter]

@[simp] theorem sameBytes_undoPlans (s job z count un) : SameBytes s (undoPlans s job z count un) := ⟨rfl, rfl⟩

@[simp] theorem sameBytes_resetPeer (s g) : SameBytes s (resetPeer s g) := by simp [resetPeer]

@[simp] theorem sameBytes_haltAll (s) : SameBytes s (haltAll s) := by simp [haltAll]

@[simp] theorem sameBytes_restartJob (s job) : SameBytes s (restartJob s job) := by
  have h0 : SameBytes s (([0, 1] : List Nat).foldl (fun s i => match (slotOf s i).plan with
    | some p => if p.job = job then clearSlot s i else s
    | none => s) s) := sameBytes_foldl (fun s i => by split <;> simp) _ _
  unfold restartJob
  generalize List.foldl _ s [0, 1] = t at h0
  exact h0.trans (by simp)

@[simp] theorem sameBytes_rewindSlots (s job i) : SameBytes s (rewindSlots s job i) := by
  fun_cases rewindSlots <;> simp +zetaDelta

theorem sameBytes_execRosterRx (via m s) : LeavesBytes s (execRosterRx via m s) := ⟨_, rfl, by simp⟩

@[simp] theorem sameBytes_rosterWritten (s g off) : SameBytes s (rosterWritten s g off) := by simp [rosterWritten]

@[simp] theorem sameBytes_rsCommand (s level job) : SameBytes s (rsCommand s level job) := by simp [rsCommand]

@[simp] theorem sameBytes_latchEntry (s) : SameBytes s (latchEntry s) := ⟨rfl, rfl⟩

@[simp] theorem sameBytes_clearLog (s) : SameBytes s (clearLog s) := ⟨rfl, rfl⟩

@[simp] theorem sameBytes_resendHarvest (s i) : SameBytes s (resendHarvest s i) := by
  fun_cases resendHarvest <;> simp +zetaDelta (disch := (intros; split <;> simp))

@[simp] theorem sameBytes_resendReady (s x) : SameBytes s (resendReady s x) := by simp [resendReady]

@[simp] theorem sameBytes_reportTo (s) : SameBytes s (reportTo s) := by
  unfold reportTo
  extract_lets bad s1 owed _ s2 s3 s4 s5
  have h1 : SameBytes s s1 := sameBytes_foldl (fun s e => by simp) _ _
  have h2 : SameBytes s1 s2 := SameBytes.trans (t := _) ⟨rfl, rfl⟩ (sameBytes_foldl (fun s e => by simp) _ _)
  have h3 : SameBytes s2 s3 := sameBytes_foldl (fun s e => by simp) _ _
  have h4 : SameBytes s3 s4 := SameBytes.trans (t := _) (by simp) (sameBytes_foldl (fun s e => by simp) _ _)
  have h5 : SameBytes s s5 := h1.trans (h2.trans (h3.trans (h4.trans (by simp [s5]))))
  split
  · exact h5.trans (sameBytes_foldl (fun s e => by split <;> simp) _ _)
  · exact h5

/-! ### Machine/Boot.lean -/

@[simp] theorem sameBytes_tear (s t) : SameBytes s (tear s t) := by fun_cases tear <;> simp

theorem sameBytes_execVinContact (absentMs s) : LeavesBytes s (execVinContact absentMs s) := ⟨_, rfl, by simp⟩

theorem sameBytes_execPerstDeassert (s) : LeavesBytes s (execPerstDeassert s) := ⟨_, rfl, by simp⟩

theorem sameBytes_execPcieConfigRequest (off s) : LeavesBytes s (execPcieConfigRequest off s) := ⟨_, rfl, by simp⟩

@[simp] theorem sameBytes_flashBad (s) : SameBytes s (flashBad s) := by simp [flashBad]

@[simp] theorem sameBytes_checkFlash (s) : SameBytes s (checkFlash s) := by simp [checkFlash]

@[simp] theorem sameBytes_enterBare (s ms) : SameBytes s (enterBare s ms) := by simp [enterBare]

@[simp] theorem sameBytes_failId (s cause ms) : SameBytes s (failId s cause ms) := by simp [failId]

@[simp] theorem sameBytes_attestWith (s root worst ms) : SameBytes s (attestWith s root worst ms) := by
  simp [attestWith]

@[simp] theorem sameBytes_derive (s cells ms) : SameBytes s (derive s cells ms) := by fun_cases derive <;> simp

theorem sameBytes_execPufRetry (cells ms s) : LeavesBytes s (execPufRetry cells ms s) := ⟨_, rfl, by simp⟩

@[simp] theorem sameBytes_applyPolicy (s l) : SameBytes s (applyPolicy s l) := by simp [applyPolicy]

@[simp] theorem sameBytes_commitObj (s kind) : SameBytes s (commitObj s kind).1 := by simp [commitObj]

@[simp] theorem sameBytes_completeNow (s k payload) : SameBytes s (completeNow s k payload).1 := by simp [completeNow]

@[simp] theorem sameBytes_imgWrite (k s) : SameBytes s (imgWrite k s).1 := by fun_cases imgWrite <;> simp

@[simp] theorem sameBytes_imgCommit (k s) : SameBytes s (imgCommit k s).1 := by simp [imgCommit]

@[simp] theorem sameBytes_bootGo (k s) : SameBytes s (bootGo k s).1 := by fun_cases bootGo <;> simp +zetaDelta

@[simp] theorem sameBytes_flashStore (k s) : SameBytes s (flashStore k s).1 := by simp [flashStore]

@[simp] theorem sameBytes_loadStored (x0 x1) : SameBytes x1 (loadStored x0 x1).1 := by
  fun_induction loadStored <;> simp_all +zetaDelta

@[simp] theorem sameBytes_flashLoad (k s) : SameBytes s (flashLoad k s).1 := by simp [flashLoad]

@[simp] theorem sameBytes_bootQuery (k s) : SameBytes s (bootQuery k s).1 := by simp [bootQuery]

@[simp] theorem sameBytes_resetSqCfg (s) : SameBytes s (resetSqCfg s) := ⟨rfl, rfl⟩

theorem sameBytes_execModeEntry (failed ms s) : LeavesBytes s (execModeEntry failed ms s) := by
  refine ⟨_, rfl, ?_⟩
  split
  · simp
  · split
    · simp
    · extract_lets b t0 t1 t2 t3
      have h0 : SameBytes s t0 := by simp [t0]
      have h1 : SameBytes t0 t1 := sameBytes_foldl (fun s e => by split <;> simp) _ _
      have h3 : SameBytes t1 t3 := by
        simp only [t3, t2]
        split <;> simp
      exact h0.trans (h1.trans (h3.trans (sameBytes_foldl (fun s e => by split <;> simp) _ _)))

@[simp] theorem sameBytes_orphanResults (s) : SameBytes s (orphanResults s) := ⟨rfl, rfl⟩

theorem sameBytes_execHostLinkLoss (s) : LeavesBytes s (execHostLinkLoss s) := ⟨_, rfl, by simp⟩

/-! ### Machine/View.lean -/

@[simp] theorem sameBytes_readCtrLo (s r pg i) : SameBytes s (readCtrLo s r pg i).1 := by fun_cases readCtrLo <;> simp

@[simp] theorem sameBytes_readReg (s r pg off ofs) : SameBytes s (readReg s r pg off ofs).1 := by
  fun_cases readReg <;> simp

@[simp] theorem sameBytes_busRead (s r a ofs) : SameBytes s (busRead s r a ofs).1 := by fun_cases busRead <;> simp

@[simp] theorem sameBytes_counterRead (r pg i s) : SameBytes s (counterRead r pg i s) := by simp [counterRead]

theorem sameBytes_execCtrLoRead (r pg i s) : LeavesBytes s (execCtrLoRead r pg i s) := ⟨_, rfl, by simp⟩

theorem sameBytes_execLedgerGroupRead (r t s) : LeavesBytes s (execLedgerGroupRead r t s) := ⟨_, rfl, by simp⟩

/-! ### Machine/Actions.lean -/

@[simp] theorem sameBytes_drainCq (x0 x1) : SameBytes x1 (drainCq x0 x1) := by fun_induction drainCq <;> simp_all

@[simp] theorem sameBytes_cqAdvanced (s) : SameBytes s (cqAdvanced s) := by simp [cqAdvanced]

@[simp] theorem sameBytes_clearExc (s t v) : SameBytes s (clearExc s t v) := by simp [clearExc]

@[simp] theorem sameBytes_clearWrap (s pg i) : SameBytes s (clearWrap s pg i) := ⟨rfl, rfl⟩

@[simp] theorem sameBytes_afterWrite (old s pg off v) : SameBytes s (afterWrite old s pg off v) := by
  unfold afterWrite; split <;> simp

@[simp] theorem sameBytes_afterHeader (s pg off) : SameBytes s (afterHeader s pg off) := by
  unfold afterHeader; split <;> simp

@[simp] theorem sameBytes_counterWrite (s ag pg off v) : SameBytes s (counterWrite s ag pg off v).1 := by
  fun_cases counterWrite <;> simp

@[simp] theorem sameBytes_doWrite (s ag pg off v) : SameBytes s (doWrite s ag pg off v).1 := by simp [doWrite]

@[simp] theorem sameBytes_pageWrite (s ag pg off v) : SameBytes s (pageWrite s ag pg off v).1 := by simp [pageWrite]

@[simp] theorem sameBytes_msixWrite (s off v) : SameBytes s (msixWrite s off v) := by simp [msixWrite]

@[simp] theorem sameBytes_busWrite (s ag a v) : SameBytes s (busWrite s ag a v).1 := by fun_cases busWrite <;> simp

@[simp] theorem sameBytes_badAccess (s a len write) : SameBytes s (badAccess s a len write) := by simp [badAccess]

theorem sameBytes_execBlkEnable (ag pg v s) : LeavesBytes s (execBlkEnable ag pg v s) := ⟨_, rfl, by simp⟩

theorem sameBytes_execBlkQuiesce (ag pg v s) : LeavesBytes s (execBlkQuiesce ag pg v s) := ⟨_, rfl, by simp⟩

theorem sameBytes_execErrClr (ag pg s) : LeavesBytes s (execErrClr ag pg s) := ⟨_, rfl, by simp⟩

theorem sameBytes_execCfgAbort (ag pg s) : LeavesBytes s (execCfgAbort ag pg s) := ⟨_, rfl, by simp⟩

theorem sameBytes_execErrFirstRearm (ag pg s) : LeavesBytes s (execErrFirstRearm ag pg s) := ⟨_, rfl, by simp⟩

theorem sameBytes_execUnmappedAccess (ag off write s) : LeavesBytes s (execUnmappedAccess ag off write s) :=
  ⟨_, rfl, by simp⟩

theorem sameBytes_execAccessSize (off size write s) : LeavesBytes s (execAccessSize off size write s) :=
  ⟨_, rfl, by simp⟩

theorem sameBytes_execSqTailWrite (ag q v s) : LeavesBytes s (execSqTailWrite ag q v s) := ⟨_, rfl, by simp⟩

theorem sameBytes_execCqHeadWrite (ag v s) : LeavesBytes s (execCqHeadWrite ag v s) := ⟨_, rfl, by simp⟩

theorem sameBytes_execCqStall (s) : LeavesBytes s (execCqStall s) := ⟨_, rfl, by split <;> simp⟩

theorem sameBytes_execCqIntDelayExpiry (s) : LeavesBytes s (execCqIntDelayExpiry s) := ⟨_, rfl, by simp⟩

@[simp] theorem sameBytes_i3cAddress (s addr ibi) : SameBytes s (i3cAddress s addr ibi) := by simp [i3cAddress]

theorem sameBytes_execEntdaa (asg s) : LeavesBytes s (execEntdaa asg s) := ⟨_, rfl, by simp⟩

theorem sameBytes_execSetdasa (asg s) : LeavesBytes s (execSetdasa asg s) := ⟨_, rfl, by simp⟩

@[simp] theorem sameBytes_i3cNext (s) : SameBytes s (i3cNext s) := ⟨rfl, rfl⟩

@[simp] theorem sameBytes_i3cRead (x0 x1) : SameBytes x1 (i3cRead x0 x1) := by fun_induction i3cRead <;> simp_all

theorem sameBytes_execI3cIndexWrite (ix s) : LeavesBytes s (execI3cIndexWrite ix s) := ⟨_, rfl, by simp⟩

@[simp] theorem sameBytes_i3cRefuse (s) : SameBytes s (i3cRefuse s) := by simp [i3cRefuse]

theorem sameBytes_execPwrCapWrite (v s) : LeavesBytes s (execPwrCapWrite v s) := ⟨_, rfl, by simp⟩

theorem sameBytes_execI3cRegisterWrite (v s) : LeavesBytes s (execI3cRegisterWrite v s) := ⟨_, rfl, by simp⟩

theorem sameBytes_execI3cStatusWrite (v s) : LeavesBytes s (execI3cStatusWrite v s) := ⟨_, rfl, by simp⟩

theorem sameBytes_execFfeCellSelWrite (ag q v s) : LeavesBytes s (execFfeCellSelWrite ag q v s) := ⟨_, rfl, by simp⟩

theorem sameBytes_execFfeLatMaxClr (ag q s) : LeavesBytes s (execFfeLatMaxClr ag q s) := ⟨_, rfl, by simp⟩

theorem sameBytes_execTileCellSelWrite (ag t v s) : LeavesBytes s (execTileCellSelWrite ag t v s) := ⟨_, rfl, by simp⟩

theorem sameBytes_execExcClear (ag t s) : LeavesBytes s (execExcClear ag t s) := ⟨_, rfl, by simp⟩

theorem sameBytes_execTdecRetire (ag t slot s) : LeavesBytes s (execTdecRetire ag t slot s) := ⟨_, rfl, by simp⟩

theorem sameBytes_execLinkCfgWrite (ag g v s) : LeavesBytes s (execLinkCfgWrite ag g v s) := ⟨_, rfl, by simp⟩

theorem sameBytes_execLinkReset (ag g i s) : LeavesBytes s (execLinkReset ag g i s) := ⟨_, rfl, by simp⟩

theorem sameBytes_execLaneSelWrite (ag g v s) : LeavesBytes s (execLaneSelWrite ag g v s) := ⟨_, rfl, by simp⟩

theorem sameBytes_execCiphLinkSelWrite (ag q i v s) : LeavesBytes s (execCiphLinkSelWrite ag q i v s) :=
  ⟨_, rfl, by simp⟩

theorem sameBytes_execCiphLaneSelWrite (ag q i v s) : LeavesBytes s (execCiphLaneSelWrite ag q i v s) :=
  ⟨_, rfl, by simp⟩

theorem sameBytes_execCartRelease (ag i s) : LeavesBytes s (execCartRelease ag i s) := ⟨_, rfl, by simp⟩

theorem sameBytes_execCartCommission (ag i s) : LeavesBytes s (execCartCommission ag i s) := ⟨_, rfl, by simp⟩

theorem sameBytes_execLaserSelWrite (ag i v s) : LeavesBytes s (execLaserSelWrite ag i v s) := ⟨_, rfl, by simp⟩

theorem sameBytes_execRingSearchGo (ag g s) : LeavesBytes s (execRingSearchGo ag g s) := ⟨_, rfl, by simp⟩

theorem sameBytes_execFabricSpareSwap (ag q j h s) : LeavesBytes s (execFabricSpareSwap ag q j h s) := ⟨_, rfl, by simp⟩

theorem sameBytes_execWrtApply (ag bank s) : LeavesBytes s (execWrtApply ag bank s) := ⟨_, rfl, by simp⟩

theorem sameBytes_execLengSlotSelWrite (ag g v s) : LeavesBytes s (execLengSlotSelWrite ag g v s) := ⟨_, rfl, by simp⟩

theorem sameBytes_execFpePortSelWrite (ag q j v s) : LeavesBytes s (execFpePortSelWrite ag q j v s) := ⟨_, rfl, by simp⟩

theorem sameBytes_execSampleClear (ag p s) : LeavesBytes s (execSampleClear ag p s) := ⟨_, rfl, by simp⟩

theorem sameBytes_execFportQselWrite (ag p v s) : LeavesBytes s (execFportQselWrite ag p v s) := ⟨_, rfl, by simp⟩

theorem sameBytes_execJobDrop (ag job s) : LeavesBytes s (execJobDrop ag job s) := ⟨_, rfl, by simp⟩

theorem sameBytes_execLtElectTake (ag s) : LeavesBytes s (execLtElectTake ag s) := ⟨_, rfl, by simp⟩

theorem sameBytes_execLtDomainWrite (ag v s) : LeavesBytes s (execLtDomainWrite ag v s) := ⟨_, rfl, by simp⟩

theorem sameBytes_execTsqPop (ag p s) : LeavesBytes s (execTsqPop ag p s) := ⟨_, rfl, by simp⟩

theorem sameBytes_execEvtSelWrite (ag v s) : LeavesBytes s (execEvtSelWrite ag v s) := ⟨_, rfl, by simp⟩

theorem sameBytes_execEvtPop (ag s) : LeavesBytes s (execEvtPop ag s) := ⟨_, rfl, by simp⟩

theorem sameBytes_execMaxLateClr (ag q s) : LeavesBytes s (execMaxLateClr ag q s) := ⟨_, rfl, by simp⟩

theorem sameBytes_execRsCmdGo (ag level job s) : LeavesBytes s (execRsCmdGo ag level job s) := ⟨_, rfl, by simp⟩

theorem sameBytes_execRosterWrite (ag i v s) : LeavesBytes s (execRosterWrite ag i v s) := ⟨_, rfl, by simp⟩

theorem sameBytes_execRosterSelWrite (ag v s) : LeavesBytes s (execRosterSelWrite ag v s) := ⟨_, rfl, by simp⟩

theorem sameBytes_execRsTileSelWrite (ag v s) : LeavesBytes s (execRsTileSelWrite ag v s) := ⟨_, rfl, by simp⟩

theorem sameBytes_execElSelWrite (ag v s) : LeavesBytes s (execElSelWrite ag v s) := ⟨_, rfl, by simp⟩

theorem sameBytes_execElClear (ag s) : LeavesBytes s (execElClear ag s) := ⟨_, rfl, by simp⟩

/-! ### Machine/Serve.lean -/

@[simp] theorem sameBytes_fenceCore (k s) : SameBytes s (fenceCore k s).1 := ⟨rfl, rfl⟩

@[simp] theorem sameBytes_fenceEnd (s f) : SameBytes s (fenceEnd s f) := by simp [fenceEnd]

@[simp] theorem sameBytes_srcRule (k s) : SameBytes s (srcRule k s).1 := by fun_cases srcRule <;> simp

@[simp] theorem sameBytes_attachCore (k s) : SameBytes s (attachCore k s).1 := by fun_cases attachCore <;> simp

@[simp] theorem sameBytes_detachCore (k s) : SameBytes s (detachCore k s).1 := by fun_cases detachCore <;> simp

@[simp] theorem sameBytes_nopCore (k s) : SameBytes s (nopCore k s).1 := by simp [nopCore]

@[simp] theorem sameBytes_assembled {f : Ctx → State → State × Disp} (hf :
    ∀ k s, SameBytes s (f k s).1) (k s) : SameBytes s (assembled f k s).1 :=
  by
  fun_cases assembled <;> simp [hf]

@[simp] theorem sameBytes_netCfg (k s) : SameBytes s (netCfg k s).1 := by fun_cases netCfg <;> simp

@[simp] theorem sameBytes_forgetJob (s job) : SameBytes s (forgetJob s job) := ⟨rfl, rfl⟩

@[simp] theorem sameBytes_setEpoch (k s) : SameBytes s (setEpoch k s).1 := by fun_cases setEpoch <;> simp +zetaDelta

@[simp] theorem sameBytes_pageReadOne (s a) : SameBytes s (pageReadOne s a).1 := by simp [pageReadOne]

@[simp] theorem sameBytes_pageReads (s a x2) : SameBytes s (pageReads s a x2).1 := by
  fun_induction pageReads <;> simp_all +zetaDelta

@[simp] theorem sameBytes_pageRead (k s) : SameBytes s (pageRead k s).1 := by fun_cases pageRead <;> simp +zetaDelta

@[simp] theorem sameBytes_pageWrites (s x1) : SameBytes s (pageWrites s x1).1 := by
  fun_induction pageWrites <;> simp_all +zetaDelta

@[simp] theorem sameBytes_pageWriteFn (k s) : SameBytes s (pageWriteFn k s).1 := by simp [pageWriteFn]

@[simp] theorem sameBytes_stateReadCore (k s) : SameBytes s (stateReadCore k s).1 := by
  unfold stateReadCore; split <;> simp

theorem sameBytes_execFabricFrameDrop (d s) : LeavesBytes s (execFabricFrameDrop d s) := ⟨_, rfl, by simp⟩

@[simp] theorem sameBytes_endFlights (s org op st) : SameBytes s (endFlights s org op st) := ⟨rfl, rfl⟩

theorem sameBytes_execAttachReset (ip id s) : LeavesBytes s (execAttachReset ip id s) := ⟨_, rfl, by split <;> simp⟩

@[simp] theorem sameBytes_leaveSrc (s ip id) : SameBytes s (leaveSrc s ip id) := ⟨rfl, rfl⟩

theorem sameBytes_execSourceDetach (ip id s) : LeavesBytes s (execSourceDetach ip id s) := ⟨_, rfl, by split <;> simp⟩

theorem sameBytes_execUnadmittedSourceDetach (ip id s) : LeavesBytes s (execUnadmittedSourceDetach ip id s) :=
  ⟨_, rfl, by split <;> simp⟩

theorem sameBytes_execCreditReport (ip id vc s) : LeavesBytes s (execCreditReport ip id vc s) :=
  ⟨_, rfl, by split <;> simp⟩

theorem sameBytes_execCreditGapWriteOff (i e v s) : LeavesBytes s (execCreditGapWriteOff i e v s) := by
  refine ⟨_, rfl, ?_⟩
  dsimp only
  repeat' split
  all_goals simp

/-! ### Machine/Module.lean -/

@[simp] theorem sameBytes_warnClass (s i) : SameBytes s (warnClass s i) := by simp [warnClass]

@[simp] theorem sameBytes_limitClass (s i) : SameBytes s (limitClass s i) := by unfold limitClass; split <;> simp

@[simp] theorem sameBytes_thermAlarm (s) : SameBytes s (thermAlarm s) := by simp [thermAlarm]

@[simp] theorem sameBytes_thermTick (s) : SameBytes s (thermTick s) := by simp [thermTick]

@[simp] theorem sameBytes_powerTick (rise s) : SameBytes s (powerTick rise s) := by simp [powerTick]

theorem sameBytes_execCartFeedOvercurrent (i s) : LeavesBytes s (execCartFeedOvercurrent i s) := ⟨_, rfl, by simp⟩

theorem sameBytes_execTileQuarantineCommand (t s) : LeavesBytes s (execTileQuarantineCommand t s) := ⟨_, rfl, by simp⟩

/-! ### Machine/Boundary.lean -/

@[simp] theorem sameBytes_applyPages (s) : SameBytes s (applyPages s) := by simp [applyPages]

@[simp] theorem sameBytes_farmsSlowed (old s) : SameBytes s (farmsSlowed old s) := by simp [farmsSlowed]

@[simp] theorem sameBytes_countWaits (s q) : SameBytes s (countWaits s q) := by simp [countWaits]

@[simp] theorem sameBytes_pondTick (s q) : SameBytes s (pondTick s q) := ⟨rfl, rfl⟩

/-! ## What writes memory -/

/-- States with the same bytes have canonical memory together. -/
theorem SameBytes.memoryOk {s t : State} (h : SameBytes s t) (w : MemoryOk s) : MemoryOk t := by
  rwa [MemoryOk, h.1, h.2]

theorem memoryOk_ite {c : Prop} [Decidable c] {s t : State} (h : MemoryOk s) (g : MemoryOk t) :
    MemoryOk (if c then s else t) := by
  split
  · exact h
  · exact g

theorem memoryOk_foldl {α : Type} {f : State → α → State} (h : ∀ s a, MemoryOk s → MemoryOk (f s a)) (l : List α)
    {s : State} (w : MemoryOk s) : MemoryOk (l.foldl f s) := by
  induction l generalizing s with
  | nil => exact w
  | cons a l ih => exact ih (h s a w)

/-- R395: a string written to memory. -/
theorem memoryOk_memPut {s : State} (w : MemoryOk s) (a : Nat) (b : Bytes) : MemoryOk { s with mem := memPut s.mem a b } :=
  ⟨memPut_wf w.1 a b, w.2⟩

theorem memoryOk_storeMem {s : State} (w : MemoryOk s) (a : Nat) (b : Bytes) : MemoryOk (storeMem s a b) := by
  refine ⟨storeMem_wf w.1 a b, ?_⟩
  rw [onlyChanges_storeMem s a b .win (by decide)]
  exact w.2

/-! ## Results and projections (R115 to R147) -/

theorem memoryOk_writeState {s : State} (w : MemoryOk s) (x step ef qn) : MemoryOk (writeState s x step ef qn) :=
  (sameBytes_setPState _ _ _).memoryOk (memoryOk_storeMem (memoryOk_storeMem w _ _) _ _)

theorem memoryOk_projResult {s : State} (w : MemoryOk s) (x c p) : MemoryOk (projResult s x c p) := by
  unfold projResult
  extract_lets me d cl a dm e ef bare s1 s2 here
  have h1 : MemoryOk s1 := memoryOk_writeState w _ _ _ _
  have h2 : MemoryOk s2 := SameBytes.memoryOk (by simp [s2]) h1
  exact SameBytes.memoryOk (by simp) h2

theorem memoryOk_projThird {s : State} (w : MemoryOk s) (x c) : MemoryOk (projThird s x c) := by
  unfold projThird
  extract_lets d p
  have hsum : SameBytes s (if x.owns (gw s) 0 then
      sendFactorFinal s x c 6 (.adds 1 false [(0x01, 0, accVals p.vAcc 0 (x.cols * d.proj))]) (accVals p.vAcc 0 (x.cols * d.proj))
    else (s, p.qn)).1 := by
    split <;> simp
  revert hsum
  generalize (if x.owns (gw s) 0 then _ else (s, p.qn)) = r
  intro hsum
  exact memoryOk_projResult (SameBytes.memoryOk (by simpa using hsum) w) _ _ _

theorem memoryOk_projStage {s : State} (w : MemoryOk s) (x c) : MemoryOk (projStage s x c) := by
  unfold projStage
  dsimp only
  split
  · exact SameBytes.memoryOk (by simp) w
  · exact SameBytes.memoryOk (by simp) w
  · exact memoryOk_ite (memoryOk_projThird w x c) w
  · exact w

theorem memoryOk_progressShard {s : State} (w : MemoryOk s) (x c k) : MemoryOk (progressShard x c s k) := by
  fun_cases progressShard with
  | case3 => exact memoryOk_projStage (memoryOk_projStage (memoryOk_projStage w x c) x c) x c
  | _ => exact SameBytes.memoryOk (by simp) w

theorem memoryOk_progress {s : State} (w : MemoryOk s) (x c) : MemoryOk (progress s x c) := by
  unfold progress
  dsimp only
  refine SameBytes.memoryOk (s := x.shardList.foldl (progressShard x c) s) (by simp) ?_
  exact memoryOk_foldl (fun s k w => memoryOk_progressShard w x c k) _ w

theorem memoryOk_storePseudo {s : State} (w : MemoryOk s) (x) : MemoryOk (storePseudo s x) := by
  fun_cases storePseudo with
  | case3 => exact memoryOk_storeMem w _ _
  | _ => exact w

/-- R126, R129: the inputs taken so far are reduced, and a complete cell is harvested. -/
theorem memoryOk_reduced {s : State} (w : MemoryOk s) (x c) : MemoryOk (tryHarvest (storePseudo (progress s x c) x) x c) :=
  (sameBytes_tryHarvest _ _ _).memoryOk (memoryOk_storePseudo (memoryOk_progress w x c) x)

/-! ## Steps (R209, R210) -/

theorem memoryOk_armEmpty {s : State} (w : MemoryOk s) (i p st replay d) : MemoryOk (armEmpty i p st replay s d) := by
  fun_cases armEmpty with
  | case3 _ _ _ _ t h => exact memoryOk_reduced (SameBytes.memoryOk (sameBytes_arm _ _ _ _ h) w) _ _
  | _ => exact w

theorem memoryOk_gatewayBegins {s : State} (w : MemoryOk s) (i p st replay) : MemoryOk (gatewayBegins s i p st replay) := by
  unfold gatewayBegins
  dsimp only
  refine memoryOk_ite w (memoryOk_foldl (fun s d w => memoryOk_armEmpty w i p st replay d) _ ?_)
  exact SameBytes.memoryOk (by simp) w

theorem memoryOk_beginStep {s : State} (w : MemoryOk s) (t) : MemoryOk (beginStep s t) := by
  unfold beginStep
  dsimp only
  split
  · exact w
  · split
    · exact w
    · split
      · exact w
      · split
        · exact w
        · split
          · exact w
          · rename_i i n _ _ _ p _ _ st _ _
            have hreplay : MemoryOk (gatewayBegins { s with plans := { s.plans with
                replay := mset s.plans.replay (p.job, n) (replayOf s p.job n) } } i p st (replayOf s p.job n)) := by
              refine memoryOk_gatewayBegins ?_ _ _ _ _
              exact w
            exact SameBytes.memoryOk (by split <;> simp) hreplay

theorem memoryOk_startTiles {s : State} (w : MemoryOk s) (i p n) : MemoryOk (startTiles s i p n) :=
  memoryOk_foldl (fun s t w => memoryOk_ite (memoryOk_beginStep (SameBytes.memoryOk (by simp) w) t) w) _ w

/-! ## Plans and state packets (R207, R208, R240) -/

theorem memoryOk_planStart {s : State} (w : MemoryOk s) (k) : MemoryOk (planStart k s).1 := by
  fun_cases planStart
  case case6 =>
    refine (sameBytes_sendComplete _ _ _ _ _).memoryOk (memoryOk_foldl (fun s t w => ?_) _ ?_)
    · exact memoryOk_ite (memoryOk_beginStep ((sameBytes_setTile _ _ _).memoryOk w) t) w
    · exact (sameBytes_setSlot _ _ _).memoryOk w
  case case7 =>
    exact (sameBytes_sendComplete _ _ _ _ _).memoryOk (memoryOk_startTiles ((sameBytes_setSlot _ _ _).memoryOk w) _ _ _)
  all_goals exact SameBytes.memoryOk (by simp) w

theorem memoryOk_planReplace {s : State} (w : MemoryOk s) (k) : MemoryOk (planReplace k s).1 := by
  fun_cases planReplace
  case case6 =>
    exact (sameBytes_sendComplete _ _ _ _ _).memoryOk
      (memoryOk_startTiles ((sameBytes_setSlot _ _ _).memoryOk ((sameBytes_setSlot _ _ _).memoryOk w)) _ _ _)
  all_goals exact SameBytes.memoryOk (by simp) w

theorem memoryOk_writeQty {s : State} (w : MemoryOk s) (k qty) : MemoryOk (writeQty k qty s).1 := by
  fun_cases writeQty
  case case1 r h => exact (sameBytes_stateMatrix _ _ _ h).memoryOk w
  case case5 =>
    refine (sameBytes_sendComplete _ _ _ _ _).memoryOk ?_
    rename_i t _ _ u
    have ht : MemoryOk t := memoryOk_storeMem w _ _
    refine SameBytes.memoryOk (s := t) ?_ ht
    simp only [u]
    split <;> simp
  all_goals exact SameBytes.memoryOk (by simp) w

theorem memoryOk_stateWriteCore {s : State} (w : MemoryOk s) (k) : MemoryOk (stateWriteCore k s).1 := by
  fun_cases stateWriteCore
  case case2 => exact memoryOk_writeQty w k 1
  case case3 => exact memoryOk_writeQty w k 2
  all_goals exact SameBytes.memoryOk (by simp) w

/-! ## Contributions and records (R95, R149) -/

theorem memoryOk_contribArmed {s : State} (w : MemoryOk s) (x k) : MemoryOk (contribArmed s x k).1 := by
  fun_cases contribArmed
  case case5 =>
    dsimp only
    refine memoryOk_reduced ?_ _ _
    exact (sameBytes_addContrib _ _ _ _ _).memoryOk ((sameBytes_setCell _ _ _).memoryOk w)
  all_goals exact SameBytes.memoryOk (by simp +zetaDelta) w

theorem memoryOk_contribNow {s : State} (w : MemoryOk s) (x k) : MemoryOk (contribNow s x k).1 := by
  fun_cases contribNow
  case case8 => exact memoryOk_contribArmed w x k
  case case9 h => exact SameBytes.memoryOk (by simpa using sameBytes_holdInput _ _ _ _ _ _ h) w
  case case12 h => exact memoryOk_contribArmed ((sameBytes_arm _ _ _ _ h).memoryOk w) x k
  all_goals exact SameBytes.memoryOk (by simp +zetaDelta) w

theorem memoryOk_contribCore {s : State} (w : MemoryOk s) (k) : MemoryOk (contribCore k s).1 := by
  fun_cases contribCore
  case case3 h => exact (sameBytes_holdInput _ _ _ _ _ _ h).memoryOk w
  case case5 => exact memoryOk_contribNow w _ k
  all_goals exact SameBytes.memoryOk (by simp) w

theorem memoryOk_recordInCell {s : State} (w : MemoryOk s) (x r) : MemoryOk (recordInCell s x r) := by
  fun_cases recordInCell
  case case6 =>
    refine memoryOk_reduced ?_ _ _
    exact (sameBytes_rack _ _ _).memoryOk ((sameBytes_takeRecord _ _ _).memoryOk w)
  all_goals exact SameBytes.memoryOk (by simp +zetaDelta) w

theorem memoryOk_recordNow {s : State} (w : MemoryOk s) (via x r) : MemoryOk (recordNow s via x r) := by
  fun_cases recordNow
  case case3 h => exact SameBytes.memoryOk (by simpa using sameBytes_holdInput _ _ _ _ _ _ h) w
  case case8 => exact memoryOk_recordInCell w x r
  case case9 h => exact memoryOk_recordInCell ((sameBytes_arm _ _ _ _ h).memoryOk w) x r
  all_goals exact SameBytes.memoryOk (by simp) w

theorem memoryOk_recordCore {s : State} (w : MemoryOk s) (via r) : MemoryOk (recordCore via r s) := by
  fun_cases recordCore
  case case7 h => exact SameBytes.memoryOk (by simpa using sameBytes_holdInput _ _ _ _ _ _ h) w
  case case9 => exact memoryOk_recordNow w via _ r
  all_goals exact SameBytes.memoryOk (by simp) w

/-! ## Packets (R91) -/

theorem memoryOk_settle {r : State × Disp} (w : MemoryOk r.1) (k) : MemoryOk (settle k r) := (sameBytes_settle k r).memoryOk w

/-- A packet handled by what keeps memory canonical. -/
theorem memoryOk_handle {s : State} (w : MemoryOk s) (k) {f : Ctx → State → State × Disp}
    (hf : ∀ k s, MemoryOk s → MemoryOk (f k s).1) : MemoryOk (handle k f s) :=
  memoryOk_settle (hf _ _ ((sameBytes_released k s).memoryOk w)) k

theorem memoryOk_assembled {s : State} (w : MemoryOk s) (k) {f : Ctx → State → State × Disp}
    (hf : ∀ k s, MemoryOk s → MemoryOk (f k s).1) : MemoryOk (assembled f k s).1 := by
  fun_cases assembled
  case case1 => exact w
  case case2 => exact hf _ _ w
  case case3 => exact hf _ _ w
  case case4 => exact (sameBytes_completeNow _ _ _).memoryOk w

theorem memoryOk_mgmtCore {s : State} (w : MemoryOk s) (k) : MemoryOk (mgmtCore k s).1 := by
  fun_cases mgmtCore
  case case7 =>
    refine memoryOk_assembled w k fun k s w => ?_
    split
    · exact memoryOk_planReplace w k
    · exact memoryOk_planStart w k
  all_goals exact SameBytes.memoryOk (by simp) w

theorem memoryOk_serve {s : State} (w : MemoryOk s) (k) : MemoryOk (serve k s).1 := by
  fun_cases serve
  case case1 => exact memoryOk_contribCore w k
  case case8 => exact memoryOk_stateWriteCore w k
  case case10 => exact memoryOk_mgmtCore w k
  all_goals exact SameBytes.memoryOk (by simp) w

theorem sameBytes_of_creditStep {s t : State} {org h cost n} (e : creditStep s org h cost = (t, n)) : SameBytes s t := by
  have hc := sameBytes_creditStep s org h cost
  rwa [e] at hc

theorem memoryOk_receive {s : State} (w : MemoryOk s) (via p) : MemoryOk (receive via p serve s) := by
  have hin : ∀ t, ingress s via p = some t → MemoryOk t := fun t h => (sameBytes_ingress _ _ _ _ h).memoryOk w
  fun_cases receive
  case case5 h _ _ => exact (sameBytes_refuseRaw _ _ _ _).memoryOk (hin _ h)
  case case6 h _ _ _ _ _ _ => exact (sameBytes_refuseBare _ _ _).memoryOk (hin _ h)
  case case7 h _ _ _ _ hcr _ => exact (sameBytes_refusePkt _ _ _).memoryOk ((sameBytes_of_creditStep hcr).memoryOk (hin _ h))
  case case8 h _ _ _ _ _ _ => exact (sameBytes_refuseBare _ _ _).memoryOk (hin _ h)
  case case9 h _ _ _ _ hcr _ _ _ =>
    refine memoryOk_handle ?_ _ fun k s w => (sameBytes_holdPkt s k).memoryOk w
    exact (sameBytes_newFlight _ _).memoryOk ((sameBytes_of_creditStep hcr).memoryOk (hin _ h))
  case case10 h _ _ _ _ hcr _ _ _ =>
    refine memoryOk_handle ?_ _ fun k s w => memoryOk_serve w k
    exact (sameBytes_newFlight _ _).memoryOk ((sameBytes_of_creditStep hcr).memoryOk (hin _ h))
  all_goals exact SameBytes.memoryOk (by simp) w

theorem memoryOk_rowPacket {s : State} (w : MemoryOk s) (row via p) : MemoryOk (rowPacket row via p s) :=
  memoryOk_ite (memoryOk_receive w via p) w

theorem memoryOk_takeSlot {s : State} (w : MemoryOk s) (q p) : MemoryOk (takeSlot s q p) := by
  unfold takeSlot
  split
  · exact SameBytes.memoryOk (by simp) w
  · rename_i t i h
    have ht : MemoryOk t := (sameBytes_allocPond _ _ _ _ h).memoryOk w
    refine memoryOk_receive ?_ _ _
    exact SameBytes.memoryOk (by simp) ht

theorem memoryOk_takeFenced {s : State} (w : MemoryOk s) (l) : MemoryOk (takeFenced l s) := by
  fun_induction takeFenced with
  | case1 => exact w
  | case2 => exact w
  | case3 p l s _ t u k ih =>
    have hu : MemoryOk u := SameBytes.memoryOk (s := s) (by simp [u, t]) w
    exact ih (memoryOk_handle hu _ fun k s w => memoryOk_serve w k)

theorem memoryOk_windowWrite {s : State} (w : MemoryOk s) (off l) : MemoryOk (windowWrite s off l) := by
  fun_induction windowWrite with
  | case1 => exact w
  | case2 s off b l t ih => exact ih (memoryOk_ite ⟨w.1, memWrite_wf w.2 _ _⟩ w)

/-! ## Held inputs (R123, R126) -/

theorem memoryOk_serveHeld {s : State} (w : MemoryOk s) (i) : MemoryOk (serveHeld s i) := by
  have hs : MemoryOk (releaseOpt s i.tray) := (sameBytes_releaseOpt _ _).memoryOk w
  unfold serveHeld
  dsimp only
  split
  · refine memoryOk_ite (memoryOk_handle hs _ fun k s w => memoryOk_contribCore w k) ?_
    exact (sameBytes_settleHeld _ _).memoryOk (memoryOk_contribCore hs _)
  · exact memoryOk_recordCore hs _ _

theorem memoryOk_takeHeldIf {s : State} (w : MemoryOk s) (f) : MemoryOk (takeHeldIf s f) := by
  unfold takeHeldIf
  refine memoryOk_foldl (fun s i w => memoryOk_serveHeld w i) _ ?_
  exact w

theorem memoryOk_takeHeld {s : State} (w : MemoryOk s) (c) : MemoryOk (takeHeld s c) := memoryOk_takeHeldIf w _

theorem memoryOk_armOpen {s : State} (w : MemoryOk s) (c) : MemoryOk (armOpen s c) := by
  refine memoryOk_foldl (fun s o w => ?_) _ w
  split
  · exact w
  · split
    · exact w
    · exact memoryOk_ite w (memoryOk_foldl (fun s d w => memoryOk_armEmpty w _ _ _ _ d) _ w)

/-! ## Records (R149) -/

theorem memoryOk_recordRx {s : State} (w : MemoryOk s) (via r) : MemoryOk (recordRx via r s) := by
  fun_cases recordRx
  case case1 => exact memoryOk_recordCore ((sameBytes_peerIn _ _ _ _).memoryOk w) _ _
  case case2 => exact (sameBytes_peerIn _ _ _ _).memoryOk w
  case case3 h => exact memoryOk_recordCore ((sameBytes_takeUnit _ _ _ _ h).memoryOk w) _ _
  case case4 => exact w
  case case5 => exact w

theorem memoryOk_onKind {s : State} (w : MemoryOk s) (n via r) : MemoryOk (onKind n via r s) :=
  memoryOk_ite (memoryOk_recordRx w via r) w

/-! ## Recovery (R424 to R440) -/

theorem memoryOk_rollBack {s : State} (w : MemoryOk s) (m) : MemoryOk (rollBack s m) := by
  unfold rollBack
  extract_lets job z cnt all un last _ s1 s2 cells s3 s4 s5 _ s6 s7
  have h1 : MemoryOk s1 := w
  have h2 : MemoryOk s2 := SameBytes.memoryOk (by simp [s2]) h1
  have h3 : MemoryOk s3 := SameBytes.memoryOk (by simp [s3]) h2
  have h4 : MemoryOk s4 := SameBytes.memoryOk (by simp [s4]) h3
  have h5 : MemoryOk s5 := memoryOk_foldl (fun s k w => memoryOk_takeHeld (memoryOk_armOpen w k) k) _ h4
  have h6 : MemoryOk s6 := memoryOk_ite ((sameBytes_restartJob _ _).memoryOk h5) h5
  have h7 : MemoryOk s7 := memoryOk_ite ((sameBytes_resetPeer _ _).memoryOk h6) h6
  exact h7

theorem memoryOk_takeRecover {s : State} (w : MemoryOk s) (m) : MemoryOk (takeRecover m s) := by
  fun_cases takeRecover
  case case5 => exact (sameBytes_restoreDone _ _).memoryOk (memoryOk_rollBack w m)
  all_goals exact SameBytes.memoryOk (by simp) w

theorem memoryOk_resumeJob {s : State} (w : MemoryOk s) (r) : MemoryOk (resumeJob s r) := by
  unfold resumeJob
  extract_lets _ s1 _ s2 s3 s4 s5
  have h1 : MemoryOk s1 := w
  have h2 : MemoryOk s2 := h1
  have h4 : MemoryOk s4 := SameBytes.memoryOk (by simp [s4, s3]) h2
  refine memoryOk_takeHeldIf ?_ _
  simp only [s5]
  split
  · exact h4
  · rename_i i _
    have hr : MemoryOk (rewindSlots s4 r.job i) := (sameBytes_rewindSlots s4 r.job i).memoryOk h4
    split
    · exact memoryOk_startTiles hr _ _ _
    · exact hr

theorem memoryOk_startProof {s : State} (w : MemoryOk s) (i) : MemoryOk (startProof s i) := by
  unfold startProof
  split
  · exact w
  · refine memoryOk_startTiles ?_ _ _ _
    exact w

theorem memoryOk_proveTick {s : State} (w : MemoryOk s) : MemoryOk (proveTick s) := by
  unfold proveTick
  extract_lets gs _ s1 s2 s3 s4
  have h1 : MemoryOk s1 := w
  have h2 : MemoryOk s2 := (sameBytes_foldl (fun s g => by simp) _ _).memoryOk h1
  have h3 : MemoryOk s3 := (sameBytes_foldl (fun s g => by simp) _ _).memoryOk h2
  have h4 : MemoryOk s4 := memoryOk_ite ((sameBytes_candidateDigests _).memoryOk h3) h3
  refine memoryOk_ite h4 ?_
  split
  · exact memoryOk_ite (memoryOk_startProof h4 _) h4
  · exact h4

theorem memoryOk_recoveryTick {s : State} (w : MemoryOk s) : MemoryOk (recoveryTick s) := by
  unfold recoveryTick
  refine memoryOk_proveTick ((sameBytes_freeHeld _).memoryOk (memoryOk_ite ((sameBytes_reportTo _).memoryOk ?_) ?_))
  · exact w
  · exact w

/-- The counters and the ponds' regulation at the boundary. -/
theorem sameBytes_boundaryEnd (s : State) (l : List (Fin 4)) : SameBytes s (l.foldl pondTick (l.foldl countWaits s)) :=
  (sameBytes_foldl (f := countWaits) sameBytes_countWaits l s).trans (sameBytes_foldl (f := pondTick) sameBytes_pondTick l _)

/-- The boundary's steps for light and the cipher. -/
theorem sameBytes_boundaryLight (s : State) (e : Env) :
    SameBytes s (cipherTick (lightTick (sendHeaders s) e.lasers e.rx) e.alarms) :=
  (sameBytes_sendHeaders s).trans ((sameBytes_lightTick _ _ _).trans (sameBytes_cipherTick _ _))

theorem sameBytes_slowed (s : State) : SameBytes s (farmsSlowed s (applyPages s)) :=
  (sameBytes_applyPages s).trans (sameBytes_farmsSlowed s _)

theorem sameBytes_settlePages (s : State) (l : List PageId) : SameBytes s (l.foldl settlePage s) :=
  sameBytes_foldl (f := settlePage) sameBytes_settlePage l s

theorem memoryOk_boot {s : State} (w : MemoryOk s) (b) : MemoryOk { s with boot := b } := w

theorem memoryOk_boundary {s : State} (w : MemoryOk s) (e) : MemoryOk (boundary e s) := by
  unfold boundary
  extract_lets s1 s2 s3 s4 s5 s6 s7 s8 s9 s10
  have h2 : MemoryOk s2 := (sameBytes_lineTick _).memoryOk ((sameBytes_timeTick _).memoryOk w)
  have h3 : MemoryOk s3 := memoryOk_recoveryTick h2
  have h6 : MemoryOk s6 := (sameBytes_boundaryLight s3 e).memoryOk h3
  have h7 : MemoryOk s7 := (sameBytes_slowed s6).memoryOk h6
  have h8 : MemoryOk s8 := (sameBytes_powerTick e.rise s7).memoryOk h7
  have h9 : MemoryOk s9 := (sameBytes_boundaryEnd s8 _).memoryOk h8
  have h10 : MemoryOk s10 := (sameBytes_settlePages s9 _).memoryOk h9
  exact memoryOk_boot h10 _
theorem memoryOk_oneClock {s : State} (w : MemoryOk s) {f : State → State} (hf : ∀ s, MemoryOk s → MemoryOk (f s)) :
    MemoryOk (oneClock f s) := by
  have h : MemoryOk (f { s with clk := some [] }) := hf _ w
  exact h

/-! ## Upsets, power and reset -/

theorem memoryOk_upset {s : State} (w : MemoryOk s) (u) : MemoryOk (upset s u) := by
  fun_cases upset
  case case3 => exact ⟨memWrite_wf w.1 _ _, w.2⟩
  all_goals exact SameBytes.memoryOk (s := s) (by simp +zetaDelta) w

theorem memoryOk_cleared (s : State) : MemoryOk (cleared s) := ⟨rfl, rfl⟩

theorem memoryOk_trip (s : State) (i) : MemoryOk (trip s i) := ⟨rfl, rfl⟩

theorem memoryOk_sample {s : State} (w : MemoryOk s) (e) : MemoryOk (sample s e) := by
  unfold sample
  have h1 : MemoryOk (e.upsets.foldl upset s) := memoryOk_foldl (fun s u w => memoryOk_upset w u) _ w
  refine memoryOk_foldl (fun s x w => (sameBytes_setBay _ _ _).memoryOk w) _ ?_
  exact h1

/-! ## State records -/

theorem memoryOk_onState {s : State} (w : MemoryOk s) (kind via r ok) {f : State → State}
    (hf : ∀ s, MemoryOk s → MemoryOk (f s)) : MemoryOk (onState kind via r ok f s) := by
  have taken : ∀ t b, takeIn s via (statePort s) (64 + r.payload.length) (.srec r) = (t, b) → MemoryOk t := fun t b e => by
    have h := (sameBytes_takeIn s via (statePort s) (64 + r.payload.length) (.srec r)).memoryOk w
    rwa [e] at h
  fun_cases onState
  case case1 => exact w
  case case2 x => exact taken _ _ x
  case case3 x => exact (sameBytes_count _ _ _ _).memoryOk (taken _ _ ‹_›)
  case case4 x => exact (sameBytes_count _ _ _ _).memoryOk (taken _ _ ‹_›)
  case case5 => exact taken _ _ ‹_›
  case case6 x => exact (sameBytes_raise _ _ _ _).memoryOk (taken _ _ x)
  case case7 x => exact hf _ (taken _ _ x)

theorem memoryOk_takeWdata {s : State} (w : MemoryOk s) (r) : MemoryOk (takeWdata r s) := by
  fun_cases takeWdata
  case case4 =>
    rename_i t _ _ _ _ u
    have ht : MemoryOk t := w
    have hu : MemoryOk u := memoryOk_storeMem ht _ _
    exact SameBytes.memoryOk (s := u) (by simp) hu
  all_goals exact SameBytes.memoryOk (by simp +zetaDelta) w

theorem memoryOk_takeRepl {s : State} (w : MemoryOk s) (via r) : MemoryOk (takeRepl via r s) := by
  fun_cases takeRepl
  case case6 job fresh m _ _ _ t _ _ a _ _ u =>
    have ht : MemoryOk t := memoryOk_ite ((sameBytes_againRepl _ _ _ _).memoryOk w) w
    have hu : MemoryOk u := (sameBytes_setJob _ _ _).memoryOk (memoryOk_storeMem ht a r.payload)
    exact SameBytes.memoryOk (s := u) (by simp) hu
  all_goals exact SameBytes.memoryOk (by simp +zetaDelta) w

/-! ## Words of the engines (R211 to R215) -/

theorem memoryOk_onWord {s : State} (w : MemoryOk s) (t is) {f : Plan → PlanStep → List Nat → State}
    (hf : ∀ p st w, MemoryOk (f p st w)) : MemoryOk (onWord s t is f) := by
  unfold onWord
  split
  · exact memoryOk_ite (hf _ _ _) w
  · exact w

/-- A word that issues: the rule is about its effect. -/
theorem memoryOk_engineWord {s : State} (w : MemoryOk s) (t p e ws) {effect : State → State}
    (hf : ∀ s, MemoryOk s → MemoryOk (effect s)) : MemoryOk (engineWord s t p e ws effect) := by
  unfold engineWord
  extract_lets sp g spent dst pc s1 s2 s3 s4
  have h1 : MemoryOk s1 := (sameBytes_issue s t ws _).memoryOk w
  have h2 : MemoryOk s2 := (sameBytes_foldl (fun s x => sameBytes_addPoison s _ _) _ s1).memoryOk h1
  have h3 : MemoryOk s3 := (sameBytes_foldl (fun s x => sameBytes_countPond s _) _ s1).memoryOk h1
  have hnote : ∀ (s : State) (x : Nat × Nat), SameBytes s (noteMomentum (clearPoison s x.1 x.2) x.1 x.2) := fun s x =>
    (sameBytes_clearPoison s _ _).trans (sameBytes_noteMomentum _ _ _)
  have h4 : MemoryOk s4 := (sameBytes_foldl hnote _ s3).memoryOk h3
  refine memoryOk_ite ((sameBytes_stall _ _ _ _ _).memoryOk w) (memoryOk_ite ?_ (memoryOk_ite ?_ ?_))
  · exact (sameBytes_foldl (fun s q => sameBytes_count s _ _ _) _ _).memoryOk ((sameBytes_stall _ _ _ _ _).memoryOk w)
  · exact (sameBytes_enqueue _ _ _).memoryOk ((sameBytes_raiseFor _ _ _ _ _).memoryOk h2)
  · exact (sameBytes_enqueue _ _ _).memoryOk ((sameBytes_noteProof _ _ _ _).memoryOk (hf s4 h4))

theorem memoryOk_crysWord {s : State} (w : MemoryOk s) (t fn f) : MemoryOk (crysWord s t fn f) :=
  memoryOk_onWord w t _ fun p _ ws => memoryOk_engineWord w t p .crys ws fun _ w =>
    (sameBytes_landTile _ _ _ _).memoryOk (memoryOk_memPut w _ _)

theorem memoryOk_kernelWord {s : State} (w : MemoryOk s) (t kd f) : MemoryOk (kernelWord s t kd f) := by
  refine memoryOk_onWord w t _ fun p st ws => memoryOk_ite ((sameBytes_stall _ _ _ _ _).memoryOk w) ?_
  refine memoryOk_engineWord w t p .kernel ws fun s w => ?_
  extract_lets r ys u
  have hy : Memory.wf ys = true := by
    simp only [ys]
    split
    · exact memPut_wf w.1 _ _
    · exact w.1
  have hm : MemoryOk { s with mem := memPut ys (wF ws 2 39 0) r.1 } := ⟨memPut_wf hy _ _, w.2⟩
  have hu : MemoryOk u := (sameBytes_landTile _ _ _ _).memoryOk hm
  exact (sameBytes_foldl (fun s _ => sameBytes_raiseFor s _ _ _ _) _ u).memoryOk hu

theorem wf_foldl_memPut {α : Type} (l : List α) (a : α → Nat) (b : α → Bytes) {m : List Host.Cell}
    (w : Memory.wf m = true) :
    Memory.wf (l.foldl (fun m i => memPut m (a i) (b i)) m) = true := by
  induction l generalizing m with
  | nil => exact w
  | cons i l ih => exact ih (memPut_wf w _ _)

/-! ## The commands -/

/-- Where the command answers a state, its memory is canonical. -/
def Keeps (o : Host.Outcome State Fault Refusal) : Prop := ∀ t, o = .next t → MemoryOk t

theorem keeps_next {t : State} (h : MemoryOk t) : Keeps (.next t) := by
  rintro _ ⟨⟩
  exact h

theorem keeps_of_sameBytes {s : State} {o : Host.Outcome State Fault Refusal} (w : MemoryOk s)
    (h : LeavesBytes s o) : Keeps o := by
  obtain ⟨t, rfl, h⟩ := h
  exact keeps_next (h.memoryOk w)

theorem keeps_row {s : State} (w : MemoryOk s) (row via p) : Keeps (.next (rowPacket row via p s)) :=
  keeps_next (memoryOk_rowPacket w row via p)

theorem keeps_onKind {s : State} (w : MemoryOk s) (n via r) : Keeps (.next (onKind n via r s)) :=
  keeps_next (memoryOk_onKind w n via r)

theorem keeps_crys {s : State} (w : MemoryOk s) (t fn f) : Keeps (.next (crysWord s t fn f)) :=
  keeps_next (memoryOk_crysWord w t fn f)

theorem keeps_kernel {s : State} (w : MemoryOk s) (t kd f) : Keeps (.next (kernelWord s t kd f)) :=
  keeps_next (memoryOk_kernelWord w t kd f)

theorem keeps_execRamp {s : State} (w : MemoryOk s) (t) : Keeps (execRamp t s) :=
  keeps_next (memoryOk_onWord w t _ fun p _ ws => memoryOk_engineWord w t p .power ws fun _ w => w)

theorem keeps_execDma {s : State} (w : MemoryOk s) (t) : Keeps (execDma t s) :=
  keeps_next (memoryOk_onWord w t _ fun p _ ws => memoryOk_engineWord w t p .dma ws fun _ w => memoryOk_memPut w _ _)

theorem keeps_execLaunch {s : State} (w : MemoryOk s) (t ns) : Keeps (execLaunch t ns s) := by
  refine keeps_next (memoryOk_onWord w t _ fun p _ ws => memoryOk_ite ((sameBytes_stall _ _ _ _ _).memoryOk w) ?_)
  refine memoryOk_engineWord w t p .launch ws fun s w => ?_
  refine memoryOk_ite ((sameBytes_tileFlag _ _ _).memoryOk ((sameBytes_raiseFor _ _ _ _ _).memoryOk ?_)) ?_
  · exact w
  · exact w

theorem keeps_execMma {s : State} (w : MemoryOk s) (t) : Keeps (execMma t s) := by
  refine keeps_next (memoryOk_onWord w t _ fun p _ ws => memoryOk_engineWord w t p .tensor ws fun s w => ?_)
  refine (sameBytes_setTile _ _ _).memoryOk ((sameBytes_landTile _ _ _ _).memoryOk ?_)
  exact ⟨wf_foldl_memPut _ _ _ w.1, w.2⟩

theorem keeps_execCrysEncode {s : State} (w : MemoryOk s) (t) : Keeps (execCrysEncode t s) :=
  keeps_next (memoryOk_onWord w t _ fun p _ ws => memoryOk_engineWord w t p .crys ws fun _ w =>
    (sameBytes_landTile _ _ _ _).memoryOk (memoryOk_memPut w _ _))

theorem keeps_execTileStepBegin {s : State} (w : MemoryOk s) (t) : Keeps (execTileStepBegin t s) :=
  keeps_next (memoryOk_ite (memoryOk_beginStep w t) (memoryOk_ite ((sameBytes_charge _ _ _ _ _ _ _).memoryOk w) w))

theorem keeps_execCellFreeAfterHarvest {s : State} (w : MemoryOk s) (c) : Keeps (execCellFreeAfterHarvest c s) := by
  refine keeps_next (memoryOk_ite w (memoryOk_takeHeld (memoryOk_armOpen ?_ _) _))
  exact (sameBytes_setCell _ _ _).memoryOk ((sameBytes_setInst _ _ _).memoryOk w)

theorem keeps_execTrayRetry {s : State} (w : MemoryOk s) (c) : Keeps (execTrayRetry c s) :=
  keeps_next (memoryOk_ite w (memoryOk_takeHeldIf (memoryOk_armOpen w _) _))

theorem keeps_execReplRx {s : State} (w : MemoryOk s) (via r) : Keeps (execReplRx via r s) :=
  keeps_next (memoryOk_onState w _ _ _ _ fun _ w => memoryOk_takeRepl w via r)

theorem keeps_execWdataRx {s : State} (w : MemoryOk s) (via r) : Keeps (execWdataRx via r s) :=
  keeps_next (memoryOk_onState w _ _ _ _ fun _ w => memoryOk_takeWdata w r)

theorem keeps_execRecoverRx {s : State} (w : MemoryOk s) (via m) : Keeps (execRecoverRx via m s) := by
  have h := (sameBytes_arriveRcv via m false s).memoryOk w
  exact keeps_next (memoryOk_ite w (memoryOk_ite (memoryOk_takeRecover h m) h))

theorem keeps_execResumeRx {s : State} (w : MemoryOk s) (via m) : Keeps (execResumeRx via m s) := by
  have h := (sameBytes_arriveRcv via m false s).memoryOk w
  refine keeps_next (memoryOk_ite w (memoryOk_ite h (memoryOk_ite (memoryOk_resumeJob ?_ _) ?_)))
  · exact (sameBytes_raise _ _ _ _).memoryOk h
  · exact h

theorem keeps_execResumeAtRz {s : State} (w : MemoryOk s) (job) : Keeps (execResumeAtRz job s) := by
  refine keeps_next ?_
  split
  · exact w
  · exact memoryOk_ite w (memoryOk_resumeJob w _)

theorem keeps_execVinLoss {s : State} (w : MemoryOk s) (torn) : Keeps (execVinLoss torn s) :=
  keeps_next (memoryOk_ite w (memoryOk_cleared (torn.foldl tear s)))

theorem keeps_execInputFuseOpen {s : State} (w : MemoryOk s) : Keeps (execInputFuseOpen s) :=
  keeps_next (memoryOk_ite w (memoryOk_cleared s))

theorem keeps_execPowerUp {s : State} (w : MemoryOk s) (cells helper chain serial ms) :
    Keeps (execPowerUp cells helper chain serial ms s) :=
  keeps_next (memoryOk_ite w ((sameBytes_derive _ _ _).memoryOk (memoryOk_cleared s)))

theorem keeps_execFunctionLevelReset {s : State} (w : MemoryOk s) (cells ms) : Keeps (execFunctionLevelReset cells ms s) :=
  keeps_next (memoryOk_ite w ((sameBytes_derive _ _ _).memoryOk (memoryOk_cleared s)))

theorem keeps_execRegisterWrite {s : State} (w : MemoryOk s) (ag off v) : Keeps (execRegisterWrite ag off v s) :=
  keeps_next (memoryOk_ite (memoryOk_windowWrite w _ _)
    (memoryOk_ite ((sameBytes_badAccess _ _ _ _).memoryOk w) ((sameBytes_busWrite _ _ _ _).memoryOk w)))

theorem keeps_execWindowSlotWrite {s : State} (w : MemoryOk s) (off data) : Keeps (execWindowSlotWrite off data s) :=
  keeps_next (memoryOk_windowWrite w _ _)

theorem keeps_execSqSlotTake {s : State} (w : MemoryOk s) (q) : Keeps (execSqSlotTake q s) := by
  refine keeps_next (memoryOk_ite (memoryOk_takeSlot ((sameBytes_count _ _ _ _).memoryOk ?_) _ _) w)
  exact w

theorem keeps_execFenceDone {s : State} (w : MemoryOk s) (org stream) : Keeps (execFenceDone org stream s) := by
  refine keeps_next ?_
  split
  · exact w
  · exact memoryOk_ite (memoryOk_takeFenced ((sameBytes_fenceEnd _ _).memoryOk w) _) w

theorem keeps_execSuperframeBoundary {s : State} (w : MemoryOk s) (e) : Keeps (execSuperframeBoundary e s) := by
  have h : MemoryOk { s with sf := (s.sf + 1) % 2 ^ 64 } := w
  have hs := (sameBytes_thermTick _).memoryOk (memoryOk_sample h e)
  refine keeps_next (memoryOk_ite w ?_)
  dsimp only
  split
  · exact memoryOk_trip _ _
  · exact memoryOk_oneClock hs fun s w => memoryOk_boundary w e

/-- Every command keeps memory canonical. -/
theorem keeps_exec (i : Instr) {s : State} (w : MemoryOk s) : Keeps (exec i s) := by
  cases i with
  | undefinedOpcode via p | contrib via p | fenceAccept via p | fenceComplete via p | fenceStep via p | ack via p
  | resend via p | readEpoch via p | weightPull via p | tableLoad via p | stateWriteTable via p
  | stateWriteWeights via p | stateWriteMomentum via p | stateWriteWeightBlocks via p | stateReadWeights via p
  | stateReadMomentum via p | stateReadWeightBlocks via p | netCfg via p | srcRule via p | setEpoch via p
  | pageRead via p | pageWrite via p | mgmtUndefinedFunction via p | planLoad via p | planStart via p
  | planReplace via p | planStop via p | planDrop via p | planStatus via p | tileRelease via p | attach via p
  | detach via p | nop via p | imgWrite via p | imgCommit via p | bootGo via p | flashStore via p | flashLoad via p
  | bootQuery via p | invalidQuantityCode via p => exact keeps_row w _ via p
  | partialRx via r | finalRx via r | markRx via r | rackRx via r | rresendRx via r => exact keeps_onKind w _ via r
  | crysAdd t | crysLoad t | crysMax t | crysMin t | crysAxpby t | crysScale t => exact keeps_crys w t _ _
  | kernelBasis t | kernelOrtho t | kernelExpand t | kernelNs5 t => exact keeps_kernel w t _ _
  | registerWrite ag off v => exact keeps_execRegisterWrite w ag off v
  | windowSlotWrite off data => exact keeps_execWindowSlotWrite w off data
  | sqSlotTake q => exact keeps_execSqSlotTake w q
  | fenceDone org stream => exact keeps_execFenceDone w org stream
  | cellFreeAfterHarvest cell => exact keeps_execCellFreeAfterHarvest w cell
  | ramp t => exact keeps_execRamp w t
  | dma t => exact keeps_execDma w t
  | launch t ns => exact keeps_execLaunch w t ns
  | mma t => exact keeps_execMma w t
  | crysEncode t => exact keeps_execCrysEncode w t
  | tileStepBegin t => exact keeps_execTileStepBegin w t
  | replRx via r => exact keeps_execReplRx w via r
  | wdataRx via r => exact keeps_execWdataRx w via r
  | superframeBoundary e => exact keeps_execSuperframeBoundary w e
  | trayRetry cell => exact keeps_execTrayRetry w cell
  | recoverRx via m => exact keeps_execRecoverRx w via m
  | resumeRx via m => exact keeps_execResumeRx w via m
  | resumeAtRz job => exact keeps_execResumeAtRz w job
  | powerUp cells helper chain serial ms => exact keeps_execPowerUp w cells helper chain serial ms
  | inputFuseOpen => exact keeps_execInputFuseOpen w
  | functionLevelReset cells ms => exact keeps_execFunctionLevelReset w cells ms
  | vinLoss torn => exact keeps_execVinLoss w torn
  | blkEnable ag pg v => exact keeps_of_sameBytes w (sameBytes_execBlkEnable ag pg v s)
  | blkQuiesce ag pg v => exact keeps_of_sameBytes w (sameBytes_execBlkQuiesce ag pg v s)
  | errClr ag pg => exact keeps_of_sameBytes w (sameBytes_execErrClr ag pg s)
  | cfgAbort ag pg => exact keeps_of_sameBytes w (sameBytes_execCfgAbort ag pg s)
  | errFirstRearm ag pg => exact keeps_of_sameBytes w (sameBytes_execErrFirstRearm ag pg s)
  | unmappedAccess ag off write => exact keeps_of_sameBytes w (sameBytes_execUnmappedAccess ag off write s)
  | accessSize off size write => exact keeps_of_sameBytes w (sameBytes_execAccessSize off size write s)
  | sqTailWrite ag q v => exact keeps_of_sameBytes w (sameBytes_execSqTailWrite ag q v s)
  | cqHeadWrite ag v => exact keeps_of_sameBytes w (sameBytes_execCqHeadWrite ag v s)
  | cqStall => exact keeps_of_sameBytes w (sameBytes_execCqStall s)
  | cqIntDelayExpiry => exact keeps_of_sameBytes w (sameBytes_execCqIntDelayExpiry s)
  | entdaa asg => exact keeps_of_sameBytes w (sameBytes_execEntdaa asg s)
  | setdasa asg => exact keeps_of_sameBytes w (sameBytes_execSetdasa asg s)
  | i3cIndexWrite ix => exact keeps_of_sameBytes w (sameBytes_execI3cIndexWrite ix s)
  | pwrCapWrite v => exact keeps_of_sameBytes w (sameBytes_execPwrCapWrite v s)
  | i3cRegisterWrite v => exact keeps_of_sameBytes w (sameBytes_execI3cRegisterWrite v s)
  | i3cStatusWrite v => exact keeps_of_sameBytes w (sameBytes_execI3cStatusWrite v s)
  | fabricFrameDrop d => exact keeps_of_sameBytes w (sameBytes_execFabricFrameDrop d s)
  | attachReset ip id => exact keeps_of_sameBytes w (sameBytes_execAttachReset ip id s)
  | sourceDetach ip id => exact keeps_of_sameBytes w (sameBytes_execSourceDetach ip id s)
  | unadmittedSourceDetach ip id => exact keeps_of_sameBytes w (sameBytes_execUnadmittedSourceDetach ip id s)
  | creditReport ip id vc => exact keeps_of_sameBytes w (sameBytes_execCreditReport ip id vc s)
  | creditGapWriteOff ip id vc => exact keeps_of_sameBytes w (sameBytes_execCreditGapWriteOff ip id vc s)
  | resultDelivery cell ns => exact keeps_of_sameBytes w (sameBytes_execResultDelivery cell ns s)
  | resultResendTimer owed chunk => exact keeps_of_sameBytes w (sameBytes_execResultResendTimer owed chunk s)
  | cellWaitTimeout cell => exact keeps_of_sameBytes w (sameBytes_execCellWaitTimeout cell s)
  | failNoticeRx via m => exact keeps_of_sameBytes w (sameBytes_execFailNoticeRx via m s)
  | decisionWindowExpiry ciid => exact keeps_of_sameBytes w (sameBytes_execDecisionWindowExpiry ciid s)
  | decisionRx via m => exact keeps_of_sameBytes w (sameBytes_execDecisionRx via m s)
  | ffeCellSelWrite ag q v => exact keeps_of_sameBytes w (sameBytes_execFfeCellSelWrite ag q v s)
  | ffeLatMaxClr ag q => exact keeps_of_sameBytes w (sameBytes_execFfeLatMaxClr ag q s)
  | rackGatherExpiry cell => exact keeps_of_sameBytes w (sameBytes_execRackGatherExpiry cell s)
  | recordResendTimer cell dest => exact keeps_of_sameBytes w (sameBytes_execRecordResendTimer cell dest s)
  | harvestRecheckDone cell => exact keeps_of_sameBytes w (sameBytes_execHarvestRecheckDone cell s)
  | xchkCompare id err => exact keeps_of_sameBytes w (sameBytes_execXchkCompare id err s)
  | refereeVerdict id err => exact keeps_of_sameBytes w (sameBytes_execRefereeVerdict id err s)
  | stepEnd t => exact keeps_of_sameBytes w (sameBytes_execStepEnd t s)
  | sync t => exact keeps_of_sameBytes w (sameBytes_execSync t s)
  | waitLt t ns => exact keeps_of_sameBytes w (sameBytes_execWaitLt t ns s)
  | waitCell t => exact keeps_of_sameBytes w (sameBytes_execWaitCell t s)
  | signal t => exact keeps_of_sameBytes w (sameBytes_execSignal t s)
  | waitEvt t => exact keeps_of_sameBytes w (sameBytes_execWaitEvt t s)
  | engineWordDone t e => exact keeps_of_sameBytes w (sameBytes_execEngineWordDone t e s)
  | planBufferCopyDone t => exact keeps_of_sameBytes w (sameBytes_execPlanBufferCopyDone t s)
  | stepRecordClose step => exact keeps_of_sameBytes w (sameBytes_execStepRecordClose step s)
  | rampStart => exact keeps_of_sameBytes w (sameBytes_execRampStart s)
  | pwrCapUnmet => exact keeps_of_sameBytes w (sameBytes_execPwrCapUnmet s)
  | tileCellSelWrite ag t v => exact keeps_of_sameBytes w (sameBytes_execTileCellSelWrite ag t v s)
  | excClear ag t => exact keeps_of_sameBytes w (sameBytes_execExcClear ag t s)
  | sackRx via r => exact keeps_of_sameBytes w (sameBytes_execSackRx via r s)
  | sresendRx via r => exact keeps_of_sameBytes w (sameBytes_execSresendRx via r s)
  | fetchRx via r => exact keeps_of_sameBytes w (sameBytes_execFetchRx via r s)
  | fetchEndRx via r => exact keeps_of_sameBytes w (sameBytes_execFetchEndRx via r s)
  | stateRecordTimer ix => exact keeps_of_sameBytes w (sameBytes_execStateRecordTimer ix s)
  | readyRx via m => exact keeps_of_sameBytes w (sameBytes_execReadyRx via m s)
  | publishRx via m => exact keeps_of_sameBytes w (sameBytes_execPublishRx via m s)
  | epochSwitch job => exact keeps_of_sameBytes w (sameBytes_execEpochSwitch job s)
  | harvestRx via m => exact keeps_of_sameBytes w (sameBytes_execHarvestRx via m s)
  | commitRx via m => exact keeps_of_sameBytes w (sameBytes_execCommitRx via m s)
  | tableMismatchRx via m => exact keeps_of_sameBytes w (sameBytes_execTableMismatchRx via m s)
  | tableBuildDone => exact keeps_of_sameBytes w (sameBytes_execTableBuildDone s)
  | tdecRetire ag t slot => exact keeps_of_sameBytes w (sameBytes_execTdecRetire ag t slot s)
  | blockDecodeEnd t => exact keeps_of_sameBytes w (sameBytes_execBlockDecodeEnd t s)
  | sfHeaderRx g k hdr rx cd skew => exact keeps_of_sameBytes w (sameBytes_execSfHeaderRx g k hdr rx cd skew s)
  | fecSlotDecode g k slot xI xQ yI yQ => exact keeps_of_sameBytes w (sameBytes_execFecSlotDecode g k slot xI xQ yI yQ s)
  | dataFrameRx g k bytes span => exact keeps_of_sameBytes w (sameBytes_execDataFrameRx g k bytes span s)
  | ackFrameRx g k bytes span => exact keeps_of_sameBytes w (sameBytes_execAckFrameRx g k bytes span s)
  | fillFrameRx arr hdr => exact keeps_of_sameBytes w (sameBytes_execFillFrameRx arr hdr s)
  | frameLaunch g l => exact keeps_of_sameBytes w (sameBytes_execFrameLaunch g l s)
  | ackIdleTimer g l => exact keeps_of_sameBytes w (sameBytes_execAckIdleTimer g l s)
  | arqRtoExpiry g l vc seq => exact keeps_of_sameBytes w (sameBytes_execArqRtoExpiry g l vc seq s)
  | linkLost g l => exact keeps_of_sameBytes w (sameBytes_execLinkLost g l s)
  | linkCfgWrite ag g v => exact keeps_of_sameBytes w (sameBytes_execLinkCfgWrite ag g v s)
  | linkReset ag g l => exact keeps_of_sameBytes w (sameBytes_execLinkReset ag g l s)
  | laneSelWrite ag g v => exact keeps_of_sameBytes w (sameBytes_execLaneSelWrite ag g v s)
  | tagFinalise g l => exact keeps_of_sameBytes w (sameBytes_execTagFinalise g l s)
  | helloRx g l b => exact keeps_of_sameBytes w (sameBytes_execHelloRx g l b s)
  | acceptRx g l b => exact keeps_of_sameBytes w (sameBytes_execAcceptRx g l b s)
  | confirmRx g l b => exact keeps_of_sameBytes w (sameBytes_execConfirmRx g l b s)
  | doneRx g l b => exact keeps_of_sameBytes w (sameBytes_execDoneRx g l b s)
  | abortRx g l b => exact keeps_of_sameBytes w (sameBytes_execAbortRx g l b s)
  | handshakeSignDone g l => exact keeps_of_sameBytes w (sameBytes_execHandshakeSignDone g l s)
  | keySwitch g l => exact keeps_of_sameBytes w (sameBytes_execKeySwitch g l s)
  | keyDrainEnd g l => exact keeps_of_sameBytes w (sameBytes_execKeyDrainEnd g l s)
  | keyAgeExpiry g l => exact keeps_of_sameBytes w (sameBytes_execKeyAgeExpiry g l s)
  | handshakeTimeout g l => exact keeps_of_sameBytes w (sameBytes_execHandshakeTimeout g l s)
  | handshakeRetry g l => exact keeps_of_sameBytes w (sameBytes_execHandshakeRetry g l s)
  | lineAlarm src q dir engine => exact keeps_of_sameBytes w (sameBytes_execLineAlarm src q dir engine s)
  | alarmEraseEnd => exact keeps_of_sameBytes w (sameBytes_execAlarmEraseEnd s)
  | cipherClusterOut g d n => exact keeps_of_sameBytes w (sameBytes_execCipherClusterOut g d n s)
  | ciphLinkSelWrite ag q ix v => exact keeps_of_sameBytes w (sameBytes_execCiphLinkSelWrite ag q ix v s)
  | ciphLaneSelWrite ag q ix v => exact keeps_of_sameBytes w (sameBytes_execCiphLaneSelWrite ag q ix v s)
  | cartInsert ix => exact keeps_of_sameBytes w (sameBytes_execCartInsert ix s)
  | cartAuthResponse ix chain sig => exact keeps_of_sameBytes w (sameBytes_execCartAuthResponse ix chain sig s)
  | cartAuthTimeout ix => exact keeps_of_sameBytes w (sameBytes_execCartAuthTimeout ix s)
  | cartLost ix => exact keeps_of_sameBytes w (sameBytes_execCartLost ix s)
  | cartRelease ag ix => exact keeps_of_sameBytes w (sameBytes_execCartRelease ag ix s)
  | cartReleaseDone ix => exact keeps_of_sameBytes w (sameBytes_execCartReleaseDone ix s)
  | cartCommission ag ix => exact keeps_of_sameBytes w (sameBytes_execCartCommission ag ix s)
  | laserSelWrite ag ix v => exact keeps_of_sameBytes w (sameBytes_execLaserSelWrite ag ix v s)
  | laserFaultReport ix n => exact keeps_of_sameBytes w (sameBytes_execLaserFaultReport ix n s)
  | cartFeedOvercurrent ix => exact keeps_of_sameBytes w (sameBytes_execCartFeedOvercurrent ix s)
  | ringSearchGo ag g => exact keeps_of_sameBytes w (sameBytes_execRingSearchGo ag g s)
  | ringSearchDone g ps => exact keeps_of_sameBytes w (sameBytes_execRingSearchDone g ps s)
  | ringLockLoss r => exact keeps_of_sameBytes w (sameBytes_execRingLockLoss r s)
  | ringRelock r => exact keeps_of_sameBytes w (sameBytes_execRingRelock r s)
  | ringRelockRetry r => exact keeps_of_sameBytes w (sameBytes_execRingRelockRetry r s)
  | spareSwapAtW g l => exact keeps_of_sameBytes w (sameBytes_execSpareSwapAtW g l s)
  | spareLaserOff g k => exact keeps_of_sameBytes w (sameBytes_execSpareLaserOff g k s)
  | spareRetry g l k => exact keeps_of_sameBytes w (sameBytes_execSpareRetry g l k s)
  | fabricSpareSwap ag q j h => exact keeps_of_sameBytes w (sameBytes_execFabricSpareSwap ag q j h s)
  | fabricPortLinkChange p link locked rxp => exact keeps_of_sameBytes w (sameBytes_execFabricPortLinkChange p link locked rxp s)
  | wrtApply ag bank => exact keeps_of_sameBytes w (sameBytes_execWrtApply ag bank s)
  | wrtApplyDone ok => exact keeps_of_sameBytes w (sameBytes_execWrtApplyDone ok s)
  | wrtRestoreDone => exact keeps_of_sameBytes w (sameBytes_execWrtRestoreDone s)
  | lengSlotSelWrite ag g v => exact keeps_of_sameBytes w (sameBytes_execLengSlotSelWrite ag g v s)
  | fpePortSelWrite ag q j v => exact keeps_of_sameBytes w (sameBytes_execFpePortSelWrite ag q j v s)
  | egressPacketStart p ofs => exact keeps_of_sameBytes w (sameBytes_execEgressPacketStart p ofs s)
  | shaperRefill => exact keeps_of_sameBytes w (sameBytes_execShaperRefill s)
  | queueSample p delays => exact keeps_of_sameBytes w (sameBytes_execQueueSample p delays s)
  | sampleClear ag p => exact keeps_of_sameBytes w (sameBytes_execSampleClear ag p s)
  | fportQselWrite ag p v => exact keeps_of_sameBytes w (sameBytes_execFportQselWrite ag p v s)
  | auditStart => exact keeps_of_sameBytes w (sameBytes_execAuditStart s)
  | auditDone us => exact keeps_of_sameBytes w (sameBytes_execAuditDone us s)
  | jobDrop ag job => exact keeps_of_sameBytes w (sameBytes_execJobDrop ag job s)
  | ltHoldTimeout => exact keeps_of_sameBytes w (sameBytes_execLtHoldTimeout s)
  | ltElectTimeout => exact keeps_of_sameBytes w (sameBytes_execLtElectTimeout s)
  | ltElectTake ag => exact keeps_of_sameBytes w (sameBytes_execLtElectTake ag s)
  | ltDomainWrite ag v => exact keeps_of_sameBytes w (sameBytes_execLtDomainWrite ag v s)
  | ptpSyncRx p m ofs => exact keeps_of_sameBytes w (sameBytes_execPtpSyncRx p m ofs s)
  | ptpFollowUpRx p m => exact keeps_of_sameBytes w (sameBytes_execPtpFollowUpRx p m s)
  | ptpDelayRespRx p m => exact keeps_of_sameBytes w (sameBytes_execPtpDelayRespRx p m s)
  | ptpAnnounceRx p m => exact keeps_of_sameBytes w (sameBytes_execPtpAnnounceRx p m s)
  | ptpUnsupportedRx p => exact keeps_of_sameBytes w (sameBytes_execPtpUnsupportedRx p s)
  | ptpUnlocked => exact keeps_of_sameBytes w (sameBytes_execPtpUnlocked s)
  | tsqPop ag p => exact keeps_of_sameBytes w (sameBytes_execTsqPop ag p s)
  | tsqIdRead p => exact keeps_of_sameBytes w (sameBytes_execTsqIdRead p s)
  | ltNowRead ofs => exact keeps_of_sameBytes w (sameBytes_execLtNowRead ofs s)
  | mapRead => exact keeps_of_sameBytes w (sameBytes_execMapRead s)
  | pulseEdge o k lead => exact keeps_of_sameBytes w (sameBytes_execPulseEdge o k lead s)
  | timingInputEdge ix rise ofs => exact keeps_of_sameBytes w (sameBytes_execTimingInputEdge ix rise ofs s)
  | evtSelWrite ag v => exact keeps_of_sameBytes w (sameBytes_execEvtSelWrite ag v s)
  | evtPop ag => exact keeps_of_sameBytes w (sameBytes_execEvtPop ag s)
  | maxLateClr ag q => exact keeps_of_sameBytes w (sameBytes_execMaxLateClr ag q s)
  | launchFire ix ns => exact keeps_of_sameBytes w (sameBytes_execLaunchFire ix ns s)
  | liveRx via m => exact keeps_of_sameBytes w (sameBytes_execLiveRx via m s)
  | recoverReqRx via m => exact keeps_of_sameBytes w (sameBytes_execRecoverReqRx via m s)
  | recoverDoneRx via m => exact keeps_of_sameBytes w (sameBytes_execRecoverDoneRx via m s)
  | rosterRx via m => exact keeps_of_sameBytes w (sameBytes_execRosterRx via m s)
  | proveDigestRx via m => exact keeps_of_sameBytes w (sameBytes_execProveDigestRx via m s)
  | proveLinksTimeout => exact keeps_of_sameBytes w (sameBytes_execProveLinksTimeout s)
  | gatewayLiveTimeout g => exact keeps_of_sameBytes w (sameBytes_execGatewayLiveTimeout g s)
  | recoverDoneTimeout job g => exact keeps_of_sameBytes w (sameBytes_execRecoverDoneTimeout job g s)
  | consumerLost cell => exact keeps_of_sameBytes w (sameBytes_execConsumerLost cell s)
  | replanLate slot => exact keeps_of_sameBytes w (sameBytes_execReplanLate slot s)
  | chargeAgeOut t => exact keeps_of_sameBytes w (sameBytes_execChargeAgeOut t s)
  | rsCmdGo ag level job => exact keeps_of_sameBytes w (sameBytes_execRsCmdGo ag level job s)
  | rosterWrite ag ix v => exact keeps_of_sameBytes w (sameBytes_execRosterWrite ag ix v s)
  | rosterSelWrite ag v => exact keeps_of_sameBytes w (sameBytes_execRosterSelWrite ag v s)
  | rsTileSelWrite ag v => exact keeps_of_sameBytes w (sameBytes_execRsTileSelWrite ag v s)
  | elSelWrite ag v => exact keeps_of_sameBytes w (sameBytes_execElSelWrite ag v s)
  | elClear ag => exact keeps_of_sameBytes w (sameBytes_execElClear ag s)
  | modeEntry failed ms => exact keeps_of_sameBytes w (sameBytes_execModeEntry failed ms s)
  | vinContact absentMs => exact keeps_of_sameBytes w (sameBytes_execVinContact absentMs s)
  | pufRetry cells ms => exact keeps_of_sameBytes w (sameBytes_execPufRetry cells ms s)
  | perstDeassert => exact keeps_of_sameBytes w (sameBytes_execPerstDeassert s)
  | pcieConfigRequest off => exact keeps_of_sameBytes w (sameBytes_execPcieConfigRequest off s)
  | hostLinkLoss => exact keeps_of_sameBytes w (sameBytes_execHostLinkLoss s)
  | ctrLoRead r pg ix => exact keeps_of_sameBytes w (sameBytes_execCtrLoRead r pg ix s)
  | ledgerGroupRead r t => exact keeps_of_sameBytes w (sameBytes_execLedgerGroupRead r t s)
  | laserLocked g k ps => exact keeps_of_sameBytes w (sameBytes_execLaserLocked g k ps s)
  | cartControllerAnswer ix serial lasers => exact keeps_of_sameBytes w (sameBytes_execCartControllerAnswer ix serial lasers s)
  | handshakeVerifyDone g l => exact keeps_of_sameBytes w (sameBytes_execHandshakeVerifyDone g l s)
  | tileQuarantineCommand t => exact keeps_of_sameBytes w (sameBytes_execTileQuarantineCommand t s)
  | ptpDelayReqTx p id seq => exact keeps_of_sameBytes w (sameBytes_execPtpDelayReqTx p id seq s)

/-- Settles O6: no command writes memory or the window but through `memWrite`, which keeps the form. -/
theorem memoryOkKept : Obligations.MemoryOkKept := by
  unfold Obligations.MemoryOkKept
  intro s t w h
  unfold step at h
  split at h
  · rcases h with ⟨⟩
    exact w
  · rename_i c rest _
    have wd : MemoryOk (s.dropPending rest) := w
    exact keeps_exec c wd t h

end Sys2Proof.KeepsMemory
end

section
/-! PROOFS. Codes raised: what raising them keeps, and the class seen; modes entered and policies applied. -/
namespace Sys2Proof.RaisedCodes
open Sys2Proof Sys2Proof.Machine Sys2Proof.Laws

/-! ## What raising a code on a page leaves -/

/-- What raising codes on pages other than CPW's keeps: the parts it does not change, CPW's registers, every error class seen,
and whether the I3C target answers. -/
structure Raises (s t : State) : Prop where
  only : OnlyChanges raisedParts s t
  regs : (pageOf t .cpw).regs = (pageOf s .cpw).regs
  seen : ∀ pg i, (pageOf s pg).classSeen.getLsbD i = true → (pageOf t pg).classSeen.getLsbD i = true
  up : t.i3c.up = s.i3c.up

namespace Raises
variable {s t u : State}

theorem refl (s : State) : Raises s s := ⟨onlyChanges_refl _ _, rfl, fun _ _ h => h, rfl⟩

theorem trans (h : Raises s t) (g : Raises t u) : Raises s u :=
  ⟨onlyChanges_then h.only g.only, g.regs.trans h.regs, fun pg i x => g.seen pg i (h.seen pg i x), g.up.trans h.up⟩

theorem ite {c : Prop} [Decidable c] (h : Raises s t) (g : Raises s u) : Raises s (if c then t else u) := by
  split
  · exact h
  · exact g

theorem foldl {α : Type} {f : State → α → State} (h : ∀ s a, Raises s (f s a)) (l : List α) (s : State) :
    Raises s (l.foldl f s) := by
  induction l generalizing s with
  | nil => exact refl s
  | cons a l ih => exact (h s a).trans (ih _)

theorem boot (h : Raises s t) : t.boot = s.boot := h.only .boot (by decide)

theorem mode (h : Raises s t) : t.mode = s.mode := h.only .mode (by decide)

theorem light (h : Raises s t) : t.light = s.light := h.only .light (by decide)

end Raises

/-- What changes none of the pages and not the I3C target raises nothing. -/
theorem raises_of_onlyChanges {ps : List Part} {s t : State} (h : OnlyChanges ps s t) (hp : ∀ p ∈ ps, p ∈ raisedParts)
    (hpg : Part.pages ∉ ps) (hi : Part.i3c ∉ ps) : Raises s t := by
  have hpages : t.pages = s.pages := h .pages hpg
  have hpage : ∀ pg, pageOf t pg = pageOf s pg := fun pg => by rw [pageOf, pageOf, hpages]
  have hi3c : t.i3c = s.i3c := h .i3c hi
  exact ⟨onlyChanges_mono h hp, by rw [hpage], fun pg i x => by rwa [hpage], by rw [hi3c]⟩

/-- A page other than CPW's that keeps its error classes. -/
theorem raises_setPage {s : State} {pg : PageId} {p : Page} (hpg : pg ≠ .cpw)
    (hs : ∀ i, (pageOf s pg).classSeen.getLsbD i = true → p.classSeen.getLsbD i = true) : Raises s (setPage s pg p) := by
  refine ⟨onlyChanges_mono (onlyChanges_setPage s pg p) (by simp [raisedParts]), ?_, fun q i x => ?_, rfl⟩
  · rw [pageOf_setPage_ne s p hpg.symm]
  · by_cases hq : q = pg
    · subst hq
      rw [pageOf_setPage]
      exact hs i x
    · rwa [pageOf_setPage_ne s p hq]

theorem raises_logPush (s : State) (e : LogEnt) : Raises s (logPush s e) :=
  raises_of_onlyChanges (onlyChanges_logPush s e) (by decide) (by decide) (by decide)

theorem raises_notify (s : State) (v : Nat) : Raises s (notify s v) :=
  raises_of_onlyChanges (onlyChanges_notify s v) (by decide) (by decide) (by decide)

theorem raises_sendRecoverReq (s : State) (level code : Nat) (c : BitVec 64) (g : Nat) :
    Raises s (sendRecoverReq s level code c g) :=
  raises_of_onlyChanges (onlyChanges_sendRecoverReq s level code c g) (by decide) (by decide) (by decide)

theorem classSeen_apply (p : Page) (n : Nat) : (p.apply n).classSeen = p.classSeen := by
  unfold Page.apply
  split <;> rfl

theorem classSeen_halt (p : Page) (n : Nat) : (p.halt n).classSeen = p.classSeen := by
  unfold Page.halt
  split
  · exact classSeen_apply _ n
  · rfl

/-- R49: a recorded error adds its class to those seen. -/
theorem classSeen_record (p : Page) (code info sf : Nat) (same : Bool) :
    (p.record code info sf same).classSeen = p.classSeen ||| BitVec.ofNat 5 (2 ^ codeClass code) := by
  unfold Page.record
  dsimp only
  split
  · split <;> rfl
  · rfl

/-- The record of an error on its page. -/
def recorded (s : State) (pg : PageId) (code info : Nat) : Page :=
  let p := (pageOf s pg).record code info s.sf (inClock s pg)
  if codeClass code = 4 then p.halt (epochNow s pg) else p

theorem classSeen_recorded (s : State) (pg : PageId) (code info : Nat) :
    (recorded s pg code info).classSeen = (pageOf s pg).classSeen ||| BitVec.ofNat 5 (2 ^ codeClass code) := by
  unfold recorded
  dsimp only
  split
  · rw [classSeen_halt, classSeen_record]
  · rw [classSeen_record]

/-- R49: an error raised is an error recorded, and what follows from it keeps the pages. -/
theorem raises_recorded (s : State) (pg : PageId) (code info : Nat) (c : BitVec 64) (g : Nat) :
    Raises (setPage (noteClock s pg) pg (recorded s pg code info)) (raiseSubj s pg code info c g) := by
  unfold raiseSubj
  extract_lets cls p0 p1 s1 s2 ic sc s3 a lg s4
  have h2 : Raises s1 s2 := (raises_notify _ _).ite (.refl _)
  have hsc : Raises s2 sc := ⟨by intro x hx; cases x <;> first | rfl | simp [raisedParts] at hx, rfl, fun _ _ h => h, rfl⟩
  have hemit : Raises sc (emit sc .ibi) :=
    raises_of_onlyChanges (onlyChanges_emit _ _) (by decide) (by decide) (by decide)
  have h3 : Raises s2 s3 := ((hsc.trans hemit).ite hsc).ite (.refl _)
  have h4 : Raises s3 s4 := (raises_logPush _ _).ite (.refl _)
  have h := h2.trans (h3.trans h4)
  refine h.ite ?_
  cases a with
  | some d => exact h.trans (raises_sendRecoverReq _ _ _ _ _)
  | none => exact (h.trans (raises_sendRecoverReq _ _ _ _ _)).ite h

theorem raises_noteClock (s : State) (pg : PageId) : Raises s (noteClock s pg) :=
  raises_of_onlyChanges (onlyChanges_noteClock s pg) (by decide) (by decide) (by decide)

theorem pageOf_noteClock (s : State) (pg q : PageId) : pageOf (noteClock s pg) q = pageOf s q := by
  have h : (noteClock s pg).pages = s.pages := onlyChanges_noteClock s pg .pages (by decide)
  rw [pageOf, pageOf, h]

theorem raises_raiseSubj (s : State) {pg : PageId} (hpg : pg ≠ .cpw) (code info : Nat) (c : BitVec 64) (g : Nat) :
    Raises s (raiseSubj s pg code info c g) := by
  refine ((raises_noteClock s pg).trans (raises_setPage hpg fun i x => ?_)).trans (raises_recorded s pg code info c g)
  rw [pageOf_noteClock] at x
  rw [classSeen_recorded, BitVec.getLsbD_or, x, Bool.true_or]

theorem raises_raise (s : State) {pg : PageId} (hpg : pg ≠ .cpw) (code info : Nat) : Raises s (raise s pg code info) :=
  raises_raiseSubj s hpg code info _ _

theorem raises_raiseLogged (s : State) {pg : PageId} (hpg : pg ≠ .cpw) (code info : Nat) :
    Raises s (raiseLogged s pg code info) :=
  (raises_raise s hpg code info).ite ((raises_raise s hpg code info).trans (raises_logPush _ _))

/-- R49: a raised code's class is seen. -/
theorem seen_raise (s : State) (pg : PageId) {code : Nat} (hc : codeClass code < 5) (info : Nat) :
    (pageOf (raise s pg code info) pg).classSeen.getLsbD (codeClass code) = true := by
  refine (raises_recorded s pg code info 0 (gw s)).seen pg _ ?_
  rw [pageOf_setPage, classSeen_recorded, BitVec.getLsbD_or]
  generalize codeClass code = k at hc
  have hbit : (BitVec.ofNat 5 (2 ^ k)).getLsbD k = true := by interval_cases k <;> rfl
  rw [hbit, Bool.or_true]

theorem seen_raiseLogged (s : State) (pg : PageId) {code : Nat} (hc : codeClass code < 5) (info : Nat) :
    (pageOf (raiseLogged s pg code info) pg).classSeen.getLsbD (codeClass code) = true := by
  have h := seen_raise s pg hc info
  unfold raiseLogged
  dsimp only
  split
  · exact h
  · exact (raises_logPush _ _).seen pg _ h

/-! ## Modes entered and policies applied -/

theorem raises_quotaOver (s : State) (r : Nat) : Raises s (quotaOver s r) := by
  unfold quotaOver
  extract_lets s1
  have h : Raises s s1 := (raises_raise s (pg := .tpool) nofun _ _).ite (.refl s)
  exact (h.trans (raises_raise s1 (pg := .tpool) nofun _ _)).ite h

/-- R455: the entry of a mode. -/
theorem raises_enterMode (s : State) (m : Mode) : Raises { s with mode := some m } (enterMode s m) := by
  unfold enterMode
  extract_lets s1
  have h : Raises { s with mode := some m } s1 := (raises_raiseLogged _ (pg := .boot) nofun _ _).trans (raises_notify _ _)
  exact (h.trans (Raises.foldl raises_quotaOver _ s1)).ite h

theorem raises_refused (s : State) {pg : PageId} (hpg : pg ≠ .cpw) (code info : Nat) {p : Page}
    (hp : p.classSeen = (pageOf (raise s pg code info) pg).classSeen) : Raises s (setPage (raise s pg code info) pg p) :=
  (raises_raise s hpg code info).trans (raises_setPage hpg fun i x => by rwa [hp])

theorem raises_writeField (s : State) (ag : Agent) {pg : PageId} (hpg : pg ≠ .cpw) (off v : Nat) :
    Raises s (writeField s ag pg off v).1 := by
  have hcfg : ∀ code, Raises s (refuseCfg s ag pg off code).1 := fun code => by
    unfold refuseCfg
    dsimp only
    split
    · exact raises_refused s hpg _ _ rfl
    · exact raises_raise s hpg _ _
  unfold writeField
  split
  · exact .refl s
  · extract_lets p bank old changes x rangeBad busyBad rws act0 act acc p1 waits p2
    have hseen : p2.classSeen = (pageOf s pg).classSeen := by
      simp only [p2]
      split <;> rfl
    have hset : Raises s (setPage s pg p2) := raises_setPage hpg fun i x => by rwa [hseen]
    have happly : Raises (setPage s pg p2) (applyIfIdle (setPage s pg p2) pg) :=
      (raises_setPage hpg fun i x => by rwa [classSeen_apply]).ite (.refl _)
    split
    · exact raises_refused s hpg _ _ rfl
    · split
      · exact hcfg _
      · split
        · exact hcfg _
        · split
          · exact hcfg _
          · exact hset.trans happly

theorem raises_writeReg_ciph (s : State) (ag : Agent) (q : Fin 4) (d : Fin 2) {off : Nat} (ho : 0x40 ≤ off) (v : Nat) :
    Raises s (writeReg s ag (.ciph q d) off v).1 := by
  have h : writeReg s ag (.ciph q d) off v = writeField s ag (.ciph q d) off v := by
    simp [writeReg, show ¬off < 0x40 by omega]
  rw [h]
  exact raises_writeField s ag (pg := .ciph q d) nofun off v

/-- R459: a security policy applied. -/
theorem raises_applyPolicy (s : State) (l : Bytes) : Raises s (applyPolicy s l) := by
  refine Raises.foldl (fun s q => ?_) _ s
  have w := fun (s : State) (d : Fin 2) (off : Nat) (ho : 0x40 ≤ off) (v : Nat) => raises_writeReg_ciph s .sec q d ho v
  exact (((w _ _ _ (by decide) _).trans (w _ _ _ (by decide) _)).trans (w _ _ _ (by decide) _)).trans (w _ _ _ (by decide) _)

/-! ## Registers dropped -/

/-- A key that a filter drops is not in the map. -/
theorem mget?_filter_dropped {κ α : Type} [DecidableEq κ] (l : PMap κ α) (keep : κ × α → Bool) {k : κ}
    (h : ∀ v, keep (k, v) = false) : mget? (l.filter keep) k = none := by
  induction l with
  | nil => rfl
  | cons e l ih =>
    obtain ⟨j, v⟩ := e
    by_cases hj : keep (j, v) = true
    · have hne : j ≠ k := fun hjk => by simp [hjk, h v] at hj
      rw [List.filter_cons_of_pos hj, mget?, if_neg hne, ih]
    · rw [List.filter_cons_of_neg hj, ih]

end Sys2Proof.RaisedCodes
end

section
/-! PROOFS. Images, boot requests and the entry of a mode (O58). -/
namespace Sys2Proof.ImagesAndModes
open Sys2Proof Sys2Proof.Machine Sys2Proof.Laws Sys2Proof.AcceptedPackets Sys2Proof.RaisedCodes

section
variable {s : State} {via : Via} {p : Packet} {k : Ctx} {u : State} (ha : Accepted s via p k u)
include ha

/-! ## What an accepted packet of the boot requests answers -/

theorem boot_row {op : Nat} {g : Ctx → State → State × Disp} (hop : p.hdr.opcode.toNat = op)
    (hserve : k.h.opcode.toNat = op → serve k u = g k u) : rowPacket (opIs op) via p s = settle k (g k u) := by
  have hk := accepted_pkt ha
  rw [rowPacket_of_accepted ha (by simp [opIs, hop]), hserve (by rw [Ctx.h, hk, hop])]

theorem exec_imgWrite (hop : p.hdr.opcode = 0x70) : exec (.imgWrite via p) s = .next (settle k (imgWrite k u)) :=
  congrArg Host.Outcome.next (boot_row ha (op := 0x70) (by simp [hop]) fun h => by simp only [serve, h])

theorem exec_imgCommit (hop : p.hdr.opcode = 0x71) : exec (.imgCommit via p) s = .next (settle k (imgCommit k u)) :=
  congrArg Host.Outcome.next (boot_row ha (op := 0x71) (by simp [hop]) fun h => by simp only [serve, h])

theorem exec_bootGo (hop : p.hdr.opcode = 0x72) : exec (.bootGo via p) s = .next (settle k (bootGo k u)) :=
  congrArg Host.Outcome.next (boot_row ha (op := 0x72) (by simp [hop]) fun h => by simp only [serve, h])

theorem exec_flashStore (hop : p.hdr.opcode = 0x73) : exec (.flashStore via p) s = .next (settle k (flashStore k u)) :=
  congrArg Host.Outcome.next (boot_row ha (op := 0x73) (by simp [hop]) fun h => by simp only [serve, h])

theorem exec_flashLoad (hop : p.hdr.opcode = 0x74) : exec (.flashLoad via p) s = .next (settle k (flashLoad k u)) :=
  congrArg Host.Outcome.next (boot_row ha (op := 0x74) (by simp [hop]) fun h => by simp only [serve, h])

theorem exec_bootQuery (hop : p.hdr.opcode = 0x75) : exec (.bootQuery via p) s = .next (settle k (bootQuery k u)) :=
  congrArg Host.Outcome.next (boot_row ha (op := 0x75) (by simp [hop]) fun h => by simp only [serve, h])

end

/-! ## What the answer leaves -/

section
variable (k : Ctx) (r : State × Disp)

theorem settle_boot : (settle k r).boot = r.1.boot := onlyChanges_settle k r .boot (by decide)
theorem settle_mode : (settle k r).mode = r.1.mode := onlyChanges_settle k r .mode (by decide)

theorem settle_pageOf (pg : PageId) : pageOf (settle k r) pg = pageOf r.1 pg := by
  have h : (settle k r).pages = r.1.pages := onlyChanges_settle k r .pages (by decide)
  rw [pageOf, pageOf, h]

theorem completeNow_boot (s : State) (payload : Bytes) : (completeNow s k payload).1.boot = s.boot :=
  onlyChanges_sendComplete s k.org k.h 0 payload .boot (by decide)

end

/-! ## Images (R451 to R459) -/

/-- R457: a mode that takes no image. -/
theorem imgWrite_refuses {k : Ctx} {s : State} (h7 : k.h.aux.toNat ≠ 7) (hm : s.mode ≠ some .bare) :
    imgWrite k s = (s, .refuse 0x220F) :=
  if_pos (Bool.and_eq_true_iff.mpr ⟨decide_eq_true h7, decide_eq_true hm⟩)

/-- R453: the chunk staged. -/
theorem imgWrite_stages {k : Ctx} {s : State} (hm : k.h.aux.toNat = 7 ∨ s.mode = some .bare)
    (hi : k.h.chunkIndex.toNat < k.h.chunkCount.toNat)
    (hc : k.h.chunkIndex.toNat = 0 ∨ (mget s.boot.staged k.h.aux.toNat LoadBuf.none).count = k.h.chunkCount.toNat) :
    imgWrite k s = completeNow { s with boot := { s.boot with
      staged := mset s.boot.staged k.h.aux.toNat
        (if k.h.chunkIndex.toNat = 0 then ⟨k.h.chunkCount.toNat, [(0, k.pkt.payload)], []⟩
        else ⟨k.h.chunkCount.toNat,
          mset (mget s.boot.staged k.h.aux.toNat LoadBuf.none).chunks k.h.chunkIndex.toNat k.pkt.payload,
          (mget s.boot.staged k.h.aux.toNat LoadBuf.none).trays⟩),
      refused := s.boot.refused.filter (· != k.h.aux.toNat) } } k [] := by
  have hmode : (k.h.aux.toNat ≠ 7 && s.mode ≠ some .bare : Bool) = false := by rcases hm with h | h <;> simp [h]
  have hrange : (k.h.chunkCount.toNat = 0 || k.h.chunkIndex.toNat ≥ k.h.chunkCount.toNat : Bool) = false := by
    simp
    omega
  unfold imgWrite
  simp only [hmode, hrange, Bool.false_eq_true, if_false]
  by_cases h0 : k.h.chunkIndex.toNat = 0
  · simp [h0, LoadBuf.none, mset, mdel]
  · have hcount := hc.resolve_left h0
    simp [h0, hcount]

/-- R454: the code an IMG_COMMIT of a kind finds. -/
def commitBad (s : State) (kind : Nat) : Nat :=
  let b := mget s.boot.staged kind LoadBuf.none
  if kind = 7 then policyBad s b b.bytes else containerBad kind b b.bytes

/-- R454: a refused object leaves the committed ones. -/
theorem commitObj_refuses {s : State} {kind : Nat} (h : commitBad s kind ≠ 0) :
    (commitObj s kind).2 = commitBad s kind ∧ (commitObj s kind).1.boot.objs = s.boot.objs ∧
      kind ∈ (commitObj s kind).1.boot.refused := by
  have hc : commitObj s kind = (raiseLogged { s with boot := { s.boot with
      refused := kind :: s.boot.refused.filter (· != kind) } } .boot (commitBad s kind) kind, commitBad s kind) := if_pos h
  have hb := (raises_raiseLogged { s with boot := { s.boot with refused := kind :: s.boot.refused.filter (· != kind) } }
    (pg := .boot) nofun (commitBad s kind) kind).boot
  rw [hc, hb]
  exact ⟨rfl, rfl, List.mem_cons_self⟩

/-- R454: the object a container or a policy holds. -/
def objOf (kind : Nat) (l : Bytes) : ImgObj :=
  if kind = 7 then ⟨0, 0, 0, [], l, l⟩
  else ⟨beAt l 12 2, byteAt l 6, beAt l 8 4, slice l 20 32, slice l 128 (beAt l 16 4), l⟩

/-- R454: an object that passes its checks replaces the one committed of its kind. -/
theorem commitObj_takes {s : State} {kind : Nat} (h : commitBad s kind = 0) :
    (commitObj s kind).2 = 0 ∧ (commitObj s kind).1.boot = { s.boot with
      objs := mset s.boot.objs kind (objOf kind (mget s.boot.staged kind LoadBuf.none).bytes),
      staged := mdel s.boot.staged kind, refused := s.boot.refused.filter (· != kind) } := by
  have hc : commitObj s kind = (let t := { s with boot := { s.boot with
      objs := mset s.boot.objs kind (objOf kind (mget s.boot.staged kind LoadBuf.none).bytes),
      staged := mdel s.boot.staged kind, refused := s.boot.refused.filter (· != kind) } }
      if kind = 7 && t.mode ≠ some .bare then applyPolicy t (mget s.boot.staged kind LoadBuf.none).bytes else t, 0) :=
    if_neg (not_not.mpr h)
  rw [hc]
  refine ⟨rfl, ?_⟩
  dsimp only
  split
  · exact (raises_applyPolicy _ _).boot
  · rfl

theorem imgCommit_eq {k : Ctx} {s : State} (hm : k.h.aux.toNat = 7 ∨ s.mode = some .bare) :
    imgCommit k s = if (commitObj s k.h.aux.toNat).2 ≠ 0 then
      ((commitObj s k.h.aux.toNat).1, .refuse (commitObj s k.h.aux.toNat).2)
    else completeNow (commitObj s k.h.aux.toNat).1 k [] := by
  have hmode : (k.h.aux.toNat ≠ 7 && s.mode ≠ some .bare : Bool) = false := by rcases hm with h | h <;> simp [h]
  unfold imgCommit
  simp only [hmode, Bool.false_eq_true, if_false]

/-- R455: the first kind that is missing. -/
theorem bootBad_missing {s : State} {x : Nat} (m : Nat) (h1 : 1 ≤ x) (h5 : x ≤ 5) (hx : mget? s.boot.objs x = none)
    (hy : ∀ y, 1 ≤ y → y < x → (mget? s.boot.objs y).isSome = true) : bootBad s m = (0x2404, x) := by
  have hf : [1, 2, 3, 4, 5].find? (fun k => (mget? s.boot.objs k).isNone) = some x := by
    have hn : ∀ y, 1 ≤ y → y < x → (mget? s.boot.objs y).isNone = false := fun y h h' => by
      rw [← Option.not_isSome, hy y h h', Bool.not_true]
    have hxn : (mget? s.boot.objs x).isNone = true := by rw [hx, Option.isNone_none]
    interval_cases x <;> simp [List.find?, hn, hxn]
  simp only [bootBad, hf]

theorem bootBad_ok {s : State} {m : Nat} (h : ∀ x, 1 ≤ x → x ≤ 5 → (mget? s.boot.objs x).isSome = true)
    (hid : m = 1 ∨ s.boot.idState = 1) (hl : lists s 5 true = true) : bootBad s m = (0, 0) := by
  have hn : ∀ x, 1 ≤ x → x ≤ 5 → (mget? s.boot.objs x).isNone = false := fun x h1 h5 => by
    rw [← Option.not_isSome, h x h1 h5, Bool.not_true]
  have hf : [1, 2, 3, 4, 5].find? (fun k => (mget? s.boot.objs k).isNone) = none := by simp [List.find?, hn]
  have hm : (m ≠ 1 && s.boot.idState ≠ 1 : Bool) = false := by rcases hid with h | h <;> simp [h]
  simp only [bootBad, hf, hm, hl, Bool.false_eq_true, if_false, Bool.true_or, if_true]

/-- R455: an accepted BOOT_GO without an object it needs. -/
theorem bootGo_missing {k : Ctx} {s : State} {x : Nat} (hm : s.mode = some .bare)
    (h : bootBad s (k.h.arg0.toNat % 4) = (0x2404, x)) :
    bootGo k s = (raiseLogged { s with boot := { s.boot with lastMode := k.h.arg0.toNat % 4, lastCode := 0x2404 } }
      .boot 0x2404 x, .refuse 0x2404) := by
  simp [bootGo, hm, h]

theorem bootGo_goes {k : Ctx} {s : State} (hm : s.mode = some .bare) (h : bootBad s (k.h.arg0.toNat % 4) = (0, 0))
    (hl : lists s 5 true = true) :
    bootGo k s = completeNow { s with boot := { s.boot with
      lastMode := k.h.arg0.toNat % 4, lastCode := 0, going := some (modeOf (k.h.arg0.toNat % 4)), stage := 4,
      waiver := false } } k [] := by
  have hl' : ∀ t : State, t.boot.objs = s.boot.objs → lists t 5 true = true := fun t ht => by simpa [lists, ht] using hl
  simp [bootGo, hm, h, hl']

/-- R460: the objects stored, each with its MAC. -/
theorem mget?_filterMap (f : Nat → Option Bytes) (l : List Nat) (x : Nat) :
    mget? (l.filterMap (fun kind => (f kind).map (fun o => (kind, o)))) x = if x ∈ l then f x else none := by
  induction l with
  | nil => rfl
  | cons y l ih =>
    cases hy : f y with
    | none =>
      rw [List.filterMap_cons_none (by simp [hy]), ih]
      by_cases hx : x = y
      · subst hx
        simp [hy]
      · simp [hx]
    | some o =>
      rw [List.filterMap_cons_some (b := (y, o)) (by simp [hy]), mget?]
      by_cases hx : y = x
      · subst hx
        simp [hy]
      · simp [hx, Ne.symm hx, ih]

/-! ## Flash (R460) -/

/-- R460: a policy stored with its MAC is the policy read back. -/
theorem storedObj_policy {u : State} {l : Bytes} (hst : u.boot.stored = [(7, l ++ flashMac u 7 l)])
    (hlen : (flashMac u 7 l).length = 32) (hid : u.boot.idState = 1) : storedObj u 7 = some l := by
  have hget : mget? u.boot.stored 7 = some (l ++ flashMac u 7 l) := by rw [hst, mget?, if_pos rfl]
  simp [storedObj, hget, hid, hlen]

theorem loadStored_absent {s : State} {kind : Nat} (h : mget? s.boot.stored kind = none) (l : List Nat) :
    loadStored (kind :: l) s = loadStored l s := by
  rw [loadStored, h]
  exact if_pos rfl

/-- A stored object staged as one chunk. -/
def stageStored (s : State) (kind : Nat) (o : Bytes) : State :=
  { s with boot := { s.boot with staged := mset s.boot.staged kind ⟨1, [(0, o)], []⟩ } }

theorem loadStored_last {s : State} {kind : Nat} {o : Bytes} (h : storedObj s kind = some o)
    (hc : (commitObj (stageStored s kind o) kind).2 = 0) :
    loadStored [kind] s = ((commitObj (stageStored s kind o) kind).1, 0) := by
  have hsome : (mget? s.boot.stored kind).isNone = false := by
    cases hget : mget? s.boot.stored kind with
    | none => simp [storedObj, hget] at h
    | some r => rfl
  rw [loadStored, hsome]
  simp only [h, Bool.false_eq_true, if_false]
  exact if_neg (not_not.mpr hc)

/-- R459: a stored policy that passes its checks is committed. -/
theorem commitObj_stored {s : State} {l : Bytes} (hok : policyBad s ⟨1, [(0, l)], []⟩ l = 0) :
    (commitObj (stageStored s 7 l) 7).2 = 0 ∧
      ∃ o, mget? (commitObj (stageStored s 7 l) 7).1.boot.objs 7 = some o ∧ o.whole = l := by
  have hbuf : mget (stageStored s 7 l).boot.staged 7 LoadBuf.none = ⟨1, [(0, l)], []⟩ := mget_mset_same _ _ _ _
  have hbytes : (⟨1, [(0, l)], []⟩ : LoadBuf).bytes = l := by simp [LoadBuf.bytes, mget, mget?]
  have hbad : commitBad (stageStored s 7 l) 7 = 0 := by
    rw [commitBad, hbuf, hbytes]
    exact hok
  obtain ⟨hcode, hboot⟩ := commitObj_takes hbad
  refine ⟨hcode, _, by rw [hboot]; exact mget?_mset_same _ _ _, ?_⟩
  rw [hbuf, hbytes]
  rfl

/-- R460: flash that holds a good policy only. -/
theorem flashLoad_policy {k : Ctx} {u : State} {l : Bytes} (hm : u.mode = some .bare)
    (hst : u.boot.stored = [(7, l ++ flashMac u 7 l)]) (hlen : (flashMac u 7 l).length = 32) (hid : u.boot.idState = 1)
    (hok : policyBad u ⟨1, [(0, l)], []⟩ l = 0) :
    flashLoad k u = completeNow (commitObj (stageStored u 7 l) 7).1 k [] := by
  have habsent : ∀ x, x ≠ 7 → mget? u.boot.stored x = none := fun x hx => by
    rw [hst, mget?, if_neg (Ne.symm hx), mget?_nil]
  have hload : loadStored [1, 2, 3, 4, 5, 7] u = ((commitObj (stageStored u 7 l) 7).1, 0) := by
    iterate 5 rw [loadStored_absent (habsent _ (by decide))]
    exact loadStored_last (storedObj_policy hst hlen hid) (commitObj_stored hok).1
  simp [flashLoad, hm, hload]

/-! ## The boot requests -/

section
variable {s : State} {via : Via} {p : Packet} {k : Ctx} {u : State} (ha : Accepted s via p k u)
include ha

theorem imgCommit_refuses (hop : p.hdr.opcode = 0x71) (hm : p.hdr.aux.toNat = 7 ∨ u.mode = some .bare)
    (hb : commitBad u p.hdr.aux.toNat ≠ 0) : Answers (.imgCommit via p) s (fun t =>
      t.boot.objs = u.boot.objs ∧ p.hdr.aux.toNat ∈ t.boot.refused) := by
  refine ⟨_, exec_imgCommit ha hop, ?_⟩
  have hk := accepted_pkt ha
  subst hk
  obtain ⟨hcode, hobjs, href⟩ := commitObj_refuses hb
  beta_reduce
  rw [settle_boot, imgCommit_eq hm, if_pos (by rw [Ctx.h, hcode]; exact hb)]
  exact ⟨hobjs, href⟩

theorem imgCommit_takes (hop : p.hdr.opcode = 0x71) (hm : p.hdr.aux.toNat = 7 ∨ u.mode = some .bare)
    (hb : commitBad u p.hdr.aux.toNat = 0) : Answers (.imgCommit via p) s (fun t => t.boot = { u.boot with
      objs := mset u.boot.objs p.hdr.aux.toNat (objOf p.hdr.aux.toNat (mget u.boot.staged p.hdr.aux.toNat LoadBuf.none).bytes),
      staged := mdel u.boot.staged p.hdr.aux.toNat, refused := u.boot.refused.filter (· != p.hdr.aux.toNat) }) := by
  refine ⟨_, exec_imgCommit ha hop, ?_⟩
  have hk := accepted_pkt ha
  subst hk
  obtain ⟨hcode, hboot⟩ := commitObj_takes hb
  beta_reduce
  rw [settle_boot, imgCommit_eq hm, if_neg (by rw [Ctx.h, hcode]; exact not_not.mpr rfl), completeNow_boot]
  exact hboot

theorem bootGo_answersMissing (hop : p.hdr.opcode = 0x72) (hm : u.mode = some .bare) {x : Nat}
    (hx : bootBad u (p.hdr.arg0.toNat % 4) = (0x2404, x)) : Answers (.bootGo via p) s (fun t =>
      t.mode = some .bare ∧ t.boot.going = u.boot.going ∧ t.boot.lastCode = 0x2404 ∧ t.boot.objs = u.boot.objs ∧
      (pageOf t .boot).classSeen.getLsbD 2 = true) := by
  refine ⟨_, exec_bootGo ha hop, ?_⟩
  have hk := accepted_pkt ha
  subst hk
  have hseen := seen_raiseLogged { u with boot := { u.boot with lastMode := k.h.arg0.toNat % 4, lastCode := 0x2404 } } .boot
    (code := 0x2404) (by decide) x
  have hr := raises_raiseLogged { u with boot := { u.boot with lastMode := k.h.arg0.toNat % 4, lastCode := 0x2404 } }
    (pg := .boot) nofun 0x2404 x
  beta_reduce
  rw [settle_boot, settle_mode, settle_pageOf, bootGo_missing hm hx, hr.boot, hr.mode]
  exact ⟨hm, rfl, rfl, rfl, hseen⟩

theorem flashStore_answers (hop : p.hdr.opcode = 0x73) : Answers (.flashStore via p) s (fun t =>
    (∀ x o, x ∈ [1, 2, 3, 4, 5, 7] → mget? u.boot.objs x = some o →
      mget? t.boot.stored x = some (o.whole ++ flashMac u x o.whole)) ∧
    (∀ x, x = 6 ∨ mget? u.boot.objs x = none → mget? t.boot.stored x = none) ∧ t.boot.objs = u.boot.objs) := by
  refine ⟨_, exec_flashStore ha hop, ?_⟩
  beta_reduce
  rw [settle_boot, flashStore, completeNow_boot]
  have hstored : ∀ x, mget? ([1, 2, 3, 4, 5, 7].filterMap
      (fun kind => (mget? u.boot.objs kind).map (fun o => (kind, o.whole ++ flashMac u kind o.whole)))) x =
      if x ∈ [1, 2, 3, 4, 5, 7] then (mget? u.boot.objs x).map (fun o => o.whole ++ flashMac u x o.whole) else none :=
    fun x => by
      rw [← mget?_filterMap (fun x => (mget? u.boot.objs x).map (fun o => o.whole ++ flashMac u x o.whole))]
      simp only [Option.map_map, Function.comp_def]
  refine ⟨fun x o hx ho => ?_, fun x hx => ?_, rfl⟩
  · exact (hstored x).trans (by rw [if_pos hx, ho, Option.map_some])
  · refine (hstored x).trans ?_
    rcases hx with rfl | hx
    · rfl
    · rw [hx, Option.map_none, ite_self]

theorem flashLoad_answers (hop : p.hdr.opcode = 0x74) (hm : u.mode = some .bare) {l : Bytes}
    (hst : u.boot.stored = [(7, l ++ flashMac u 7 l)]) (hlen : (flashMac u 7 l).length = 32) (hid : u.boot.idState = 1)
    (hok : policyBad u ⟨1, [(0, l)], []⟩ l = 0) :
    Answers (.flashLoad via p) s (fun t => ∃ o, mget? t.boot.objs 7 = some o ∧ o.whole = l) := by
  refine ⟨_, exec_flashLoad ha hop, ?_⟩
  beta_reduce
  rw [settle_boot, flashLoad_policy hm hst hlen hid hok, completeNow_boot]
  exact (commitObj_stored hok).2

end

theorem length_flatMap_const {α β : Type} (l : List α) {f : α → List β} {n : Nat} (h : ∀ a, (f a).length = n) :
    (l.flatMap f).length = l.length * n := by
  induction l with
  | nil => simp
  | cons a l ih => simp [h, ih, Nat.succ_mul, Nat.add_comm]

theorem length_beBytes (n v : Nat) : (beBytes n v).length = n := by
  induction n generalizing v with
  | zero => rfl
  | succ n ih => simp [beBytes, ih]

/-- R465: the boot report is 72 bytes. -/
theorem length_bootReport (s : State) : (bootReport s).length = 72 := by
  unfold bootReport
  rw [List.length_append, length_flatMap_const _ (n := 10)]
  · rfl
  · intro i
    dsimp only
    split <;> simp [length_beBytes]

/-! ## MODE_ENTRY (R455 to R458) -/

theorem raises_withMode {s t : State} (h : Raises s t) (m : Option Mode) : Raises { s with mode := m } { t with mode := m } := by
  refine ⟨fun p hp => ?_, h.regs, h.seen, h.up⟩
  have hsame := h.only p hp
  cases p <;> first | exact hsame | rfl

/-- R455: the queues' configuration goes back to its reset value: no queue is enabled. -/
theorem enable_resetSqCfg (s : State) (q : Fin 4) (t : State) (h : (pageOf t .cpw).regs = (pageOf (resetSqCfg s) .cpw).regs) :
    fldV t .cpw (0x48 + 0x10 * q.val) 0 0 = 0 := by
  have hdrop : mget? (pageOf t .cpw).regs (0x48 + 0x10 * q.val, 0) = none := by
    rw [h, resetSqCfg, pageOf_setPage]
    refine mget?_filter_dropped _ _ fun v => ?_
    have hkey : ∀ q : Fin 4, 0x48 + 0x10 * q.val ∈ [0x48, 0x58, 0x68, 0x78] := by decide
    exact congrArg (!·) (decide_eq_true (hkey q))
  have hreset : ∀ q : Fin 4, fld (resetWord .cpw (0x48 + 0x10 * q.val) 0).toNat 0 0 = 0 := by decide
  rw [fldV, fldB, regActive, hdrop]
  exact hreset q

/-- The boot state at the entry of a mode. -/
def enteredBoot (s : State) (failed : BitVec 32) (ms : BitVec 16) : Boot :=
  { s.boot with
    going := none, stage := 5, goMs := ms.toNat, staged := [], devOk := trained failed, cores := 0xFF, ccf := true,
    beat := 0, tsmEpoch := match mget? s.boot.objs 3 with | some o => o.epoch | none => 0 }

/-- R456: each device that failed its training raises POND_FAIL. -/
def raiseFailed (s : State) (failed : BitVec 32) : State :=
  (List.range 32).foldl (fun s i => if failed.getLsbD i then raiseLogged s .boot 0x4402 0 else s) s

theorem raises_raiseFailed (s : State) (failed : BitVec 32) : Raises s (raiseFailed s failed) :=
  Raises.foldl (fun s _ => (raises_raiseLogged s (pg := .boot) nofun _ _).ite (.refl s)) _ s

theorem seen_foldl_raise (failed : BitVec 32) {i : Nat} (hi : failed.getLsbD i = true) (l : List Nat) (hl : i ∈ l) (s : State) :
    (pageOf (l.foldl (fun s i => if failed.getLsbD i then raiseLogged s .boot 0x4402 0 else s) s) .boot).classSeen.getLsbD 4 =
      true := by
  induction l generalizing s with
  | nil => cases hl
  | cons j l ih =>
    rcases List.mem_cons.mp hl with rfl | hl
    · refine (Raises.foldl (fun s j => (raises_raiseLogged s (pg := .boot) nofun _ _).ite (.refl s)) l _).seen .boot 4 ?_
      beta_reduce
      rw [if_pos hi]
      exact seen_raiseLogged s .boot (code := 0x4402) (by decide) 0
    · exact ih hl _

theorem seen_raiseFailed (s : State) {failed : BitVec 32} (h : failed ≠ 0) :
    (pageOf (raiseFailed s failed) .boot).classSeen.getLsbD 4 = true := by
  obtain ⟨i, hi⟩ : ∃ i, failed.getLsbD i = true := by
    by_contra hno
    exact h (BitVec.eq_of_getLsbD_eq fun i _ => by simpa using fun hb => hno ⟨i, hb⟩)
  have h32 : i < 32 := by
    by_contra hge
    rw [BitVec.getLsbD_of_ge _ _ (by omega)] at hi
    cases hi
  exact seen_foldl_raise failed hi _ (List.mem_range.mpr h32) s

/-- R349: an empty bay that holds a cartridge is powered. -/
def powerBay (s : State) (i : Fin 2) : State :=
  if (bay s i).present && (bay s i).st == .empty then setBay s i { bay s i with st := .powering, sinceSf := s.sf } else s

theorem onlyChanges_powerBay (s : State) (i : Fin 2) : OnlyChanges [.light] s (powerBay s i) := by
  refine onlyChanges_ite _ ?_ (onlyChanges_refl _ _)
  intro p hp
  cases p <;> first | rfl | simp at hp

theorem bay_powerBay_ne (s : State) {i j : Fin 2} (h : j ≠ i) : bay (powerBay s i) j = bay s j := by
  unfold powerBay
  split
  · exact mget_mset_ne _ _ _ h
  · rfl

theorem bay_powerBay (s : State) (i : Fin 2) (hp : (bay s i).present = true) (he : (bay s i).st = .empty) :
    (bay (powerBay s i) i).st = .powering := by
  rw [powerBay, if_pos (by simp [hp, he])]
  exact congrArg Cart.st (mget_mset_same _ _ _ _)

/-- The bays at the entry of a mode. -/
def powerBays (s : State) : State := (List.finRange 2).foldl powerBay s

theorem powerBays_eq (s : State) : powerBays s = powerBay (powerBay s 0) 1 := by
  simp [powerBays, List.finRange_succ]

theorem onlyChanges_powerBays (s : State) : OnlyChanges [.light] s (powerBays s) := by
  rw [powerBays_eq]
  exact onlyChanges_then (onlyChanges_powerBay s 0) (onlyChanges_powerBay _ 1)

theorem bay_powerBays (s : State) (i : Fin 2) (hp : (bay s i).present = true) (he : (bay s i).st = .empty) :
    (bay (powerBays s) i).st = .powering := by
  rw [powerBays_eq]
  match i with
  | 0 => rw [bay_powerBay_ne _ (by decide), bay_powerBay s 0 hp he]
  | 1 =>
    have hsame : bay (powerBay s 0) 1 = bay s 1 := bay_powerBay_ne s (by decide)
    exact bay_powerBay _ 1 (by rw [hsame, hp]) (by rw [hsame, he])

/-- A stored policy applies at the entry of a mode. -/
def withPolicy (b : Boot) (s : State) : State := match mget? b.objs 7 with | some o => applyPolicy s o.body | none => s

theorem raises_withPolicy (b : Boot) (s : State) : Raises s (withPolicy b s) := by
  unfold withPolicy
  split
  · exact raises_applyPolicy s _
  · exact .refl s

/-- The state before the bays are powered. -/
def entered (s : State) (failed : BitVec 32) (ms : BitVec 16) (m : Mode) : State :=
  withPolicy s.boot (enterMode (raiseFailed (resetSqCfg { s with boot := enteredBoot s failed ms }) failed) m)

theorem exec_modeEntry {s : State} {failed : BitVec 32} {ms : BitVec 16} {m : Mode} (hg : s.boot.going = some m)
    (hm : s.mode = some .bare) (hw : sq1Waits s = false) (hh : s.cpw.held = []) (hms : 61 ≤ ms.toNat) :
    exec (.modeEntry failed ms) s = .next (powerBays (entered s failed ms m)) := by
  have hgo : (s.mode ≠ some .bare || sq1Waits s || !s.cpw.held.isEmpty || ms.toNat < 61 : Bool) = false := by
    simp [hm, hw, hh, hms]
  have h : exec (.modeEntry failed ms) s = .next (match s.boot.going with
    | none => s
    | some m => if s.mode ≠ some .bare || sq1Waits s || !s.cpw.held.isEmpty || ms.toNat < 61 then s
      else powerBays (entered s failed ms m)) := rfl
  rw [h, hg]
  dsimp only
  rw [hgo, if_neg (by decide)]

theorem exec_modeEntry_waits {s : State} {failed : BitVec 32} {ms : BitVec 16} {m : Mode} (hg : s.boot.going = some m)
    (h : s.mode ≠ some .bare ∨ sq1Waits s = true ∨ s.cpw.held ≠ [] ∨ ms.toNat < 61) :
    exec (.modeEntry failed ms) s = .next s := by
  have hwait : (s.mode ≠ some .bare || sq1Waits s || !s.cpw.held.isEmpty || ms.toNat < 61 : Bool) = true := by
    simp only [Bool.or_eq_true, decide_eq_true_eq, Bool.not_eq_true', List.isEmpty_eq_false_iff]
    tauto
  have hx : exec (.modeEntry failed ms) s = .next (match s.boot.going with
    | none => s
    | some m => if s.mode ≠ some .bare || sq1Waits s || !s.cpw.held.isEmpty || ms.toNat < 61 then s
      else powerBays (entered s failed ms m)) := rfl
  rw [hx, hg]
  dsimp only
  rw [hwait, if_pos rfl]

/-- The state before the bays are powered comes from raising codes in the mode entered. -/
theorem raises_entered (s : State) (failed : BitVec 32) (ms : BitVec 16) (m : Mode) :
    Raises { raiseFailed (resetSqCfg { s with boot := enteredBoot s failed ms }) failed with mode := some m }
      (entered s failed ms m) :=
  (raises_enterMode _ m).trans (raises_withPolicy _ _)

theorem trained_bit (failed : BitVec 32) (q : Fin 4) {i : Nat} (hi : i < 8) :
    (mget (trained failed) q 0).getLsbD i = !failed.getLsbD (8 * q.val + i) := by
  have h : mget (trained failed) q 0 = ~~~(BitVec.ofNat 8 (failed.toNat >>> (8 * q.val))) := by
    fin_cases q <;> rfl
  rw [h, BitVec.getLsbD_not, BitVec.getLsbD_ofNat]
  simp [hi, Nat.testBit_shiftRight, BitVec.testBit_toNat]

/-- The mode entered, its boot state, no queue enabled, the failed devices raised, and the bays still to be powered. -/
theorem entered_facts (s : State) (failed : BitVec 32) (ms : BitVec 16) {m : Mode} (hm : m ≠ .bare) :
    (entered s failed ms m).mode = some m ∧ (entered s failed ms m).boot = enteredBoot s failed ms ∧
      (entered s failed ms m).light = s.light ∧ (∀ q, sqEn (entered s failed ms m) q = false) ∧
      (failed ≠ 0 → (pageOf (entered s failed ms m) .boot).classSeen.getLsbD 4 = true) := by
  have hr := raises_entered s failed ms m
  have hf := raises_raiseFailed (resetSqCfg { s with boot := enteredBoot s failed ms }) failed
  have hmode : (entered s failed ms m).mode = some m := hr.mode
  refine ⟨hmode, hr.boot.trans hf.boot, hr.light.trans hf.light, fun q => ?_, fun h => ?_⟩
  · have hen := enable_resetSqCfg { s with boot := enteredBoot s failed ms } q _ (hr.regs.trans hf.regs)
    simp [sqEn, hmode, hm, hen]
  · exact hr.seen .boot 4 (seen_raiseFailed _ h)

/-- R455 to R458: MODE_ENTRY. -/
theorem modeEntry_enters {s : State} {failed : BitVec 32} {ms : BitVec 16} {m : Mode} (hg : s.boot.going = some m)
    (hmode : s.mode = some .bare) (hw : sq1Waits s = false) (hh : s.cpw.held = []) (hms : 61 ≤ ms.toNat) (hm : m ≠ .bare) :
    Answers (.modeEntry failed ms) s (fun t =>
      t.mode = some m ∧ t.boot.going = none ∧ t.boot.stage = 5 ∧ t.boot.goMs = ms.toNat ∧ t.boot.staged = [] ∧
      t.boot.objs = s.boot.objs ∧ (∀ q, sqEn t q = false) ∧
      (∀ (q : Fin 4) (i : Nat), i < 8 → (mget t.boot.devOk q 0).getLsbD i = !failed.getLsbD (8 * q.val + i)) ∧
      (failed ≠ 0 → (pageOf t .boot).classSeen.getLsbD 4 = true) ∧
      (∀ i, (bay s i).present = true → (bay s i).st = .empty → (bay t i).st = .powering)) := by
  refine ⟨_, exec_modeEntry hg hmode hw hh hms, ?_⟩
  obtain ⟨heMode, heBoot, heLight, heSq, heSeen⟩ := entered_facts s failed ms hm
  generalize entered s failed ms m = e at heMode heBoot heLight heSq heSeen
  have hp := onlyChanges_powerBays e
  have hboot : (powerBays e).boot = enteredBoot s failed ms := (hp .boot (by decide)).trans heBoot
  have hmode : (powerBays e).mode = e.mode := hp .mode (by decide)
  have hpages : (powerBays e).pages = e.pages := hp .pages (by decide)
  have hbay : ∀ i, bay e i = bay s i := fun i => by rw [bay, bay, heLight]
  have hpage : ∀ pg, pageOf (powerBays e) pg = pageOf e pg := fun pg => by rw [pageOf, pageOf, hpages]
  have hsq : ∀ q, sqEn (powerBays e) q = sqEn e q := fun q => by
    rw [sqEn, sqEn, hmode, fldV, fldV, fldB, fldB, hpage]
  rw [hboot, hmode, heMode]
  refine ⟨rfl, rfl, rfl, rfl, rfl, rfl, fun q => (hsq q).trans (heSq q), fun q i hi => trained_bit failed q hi, fun h => ?_,
    fun i hpr hst => bay_powerBays e i (by rw [hbay, hpr]) (by rw [hbay, hst])⟩
  rw [hpage]
  exact heSeen h

/-- Settles O58: each request by what it does once it is accepted, and MODE_ENTRY as codes raised in the mode entered. -/
theorem imagesAndModes : Obligations.ImagesAndModes := by
  unfold Obligations.ImagesAndModes
  refine ⟨fun s via p k u ha => ?_, fun s failed ms m hg => ⟨fun hmode hw hh hms hm => modeEntry_enters hg hmode hw hh hms hm,
    exec_modeEntry_waits hg⟩⟩
  have hk := accepted_pkt ha
  subst hk
  intro kind i n b done
  refine ⟨fun hop => ⟨fun h7 hm => ?_, fun hm hi hc => ?_⟩, fun hop hm => ?_,
    fun hop hm => ⟨fun x h1 h5 hx hy => ?_, fun hall hid hl => ?_⟩,
    flashStore_answers ha, fun hop hm l => flashLoad_answers ha hop hm,
    fun hop => ⟨exec_bootQuery ha hop, length_bootReport u⟩⟩
  · rw [exec_imgWrite ha hop, imgWrite_refuses h7 hm]
  · rw [exec_imgWrite ha hop, imgWrite_stages hm hi hc]
    rfl
  · by_cases hb : commitBad u k.pkt.hdr.aux.toNat = 0
    · obtain ⟨t, ht, hboot⟩ := imgCommit_takes ha hop hm hb
      refine ⟨t, ht, fun hne => absurd hb hne, fun _ => ?_⟩
      rw [hboot]
      refine ⟨⟨_, mget?_mset_same _ _ _, ?_, fun h7 => ?_⟩, mget?_mdel_same _ _, fun x hx => mget?_mset_ne _ _ hx⟩
      · unfold objOf
        split <;> rfl
      · rw [objOf, if_neg h7]
        exact ⟨rfl, rfl, rfl⟩
    · obtain ⟨t, ht, hobjs, href⟩ := imgCommit_refuses ha hop hm hb
      exact ⟨t, ht, fun _ => ⟨hobjs, href⟩, fun h0 => absurd h0 hb⟩
  · exact bootGo_answersMissing ha hop hm (bootBad_missing _ h1 h5 hx hy)
  · rw [exec_bootGo ha hop, bootGo_goes hm (bootBad_ok hall hid hl) hl]
    rfl

end Sys2Proof.ImagesAndModes
end

section
/-! PROOFS. Power, reset, the host link and counter reads (O59). -/
namespace Sys2Proof.PowerAndHost
open Sys2Proof Sys2Proof.Machine Sys2Proof.Laws Sys2Proof.RaisedCodes

/-! ## What the identity's derivation keeps (R445 to R450) -/

/-- What the derivation keeps of a state: the parts it does not change, the error classes seen, and the boot state's images,
flash and counts. -/
structure Derives (s t : State) : Prop where
  only : OnlyChanges (.mode :: .boot :: .light :: raisedParts) s t
  up : t.i3c.up = s.i3c.up
  seen : ∀ pg i, (pageOf s pg).classSeen.getLsbD i = true → (pageOf t pg).classSeen.getLsbD i = true
  reg : t.boot.reg = s.boot.reg
  serial : t.boot.serial = s.boot.serial
  reads : t.boot.reads = s.boot.reads
  objs : t.boot.objs = s.boot.objs
  staged : t.boot.staged = s.boot.staged
  stored : t.boot.stored = s.boot.stored

theorem Derives.trans {s t u : State} (h : Derives s t) (g : Derives t u) : Derives s u :=
  ⟨onlyChanges_then h.only g.only, g.up.trans h.up, fun pg i x => g.seen pg i (h.seen pg i x), g.reg.trans h.reg,
    g.serial.trans h.serial, g.reads.trans h.reads, g.objs.trans h.objs, g.staged.trans h.staged, g.stored.trans h.stored⟩

theorem Derives.ite {s t u : State} {c : Prop} [Decidable c] (h : Derives s t) (g : Derives s u) :
    Derives s (if c then t else u) := by
  split
  · exact h
  · exact g

theorem derives_of_raises {s t : State} (h : Raises s t) : Derives s t := by
  have hb := h.boot
  exact ⟨onlyChanges_mono h.only fun p hp => by simp [hp], h.up, h.seen, by rw [hb], by rw [hb], by rw [hb], by rw [hb],
    by rw [hb], by rw [hb]⟩

/-- A boot state that keeps images, flash and counts. -/
theorem derives_withBoot (s : State) {b : Boot} (h : b.reg = s.boot.reg ∧ b.serial = s.boot.serial ∧
    b.reads = s.boot.reads ∧ b.objs = s.boot.objs ∧ b.staged = s.boot.staged ∧ b.stored = s.boot.stored) :
    Derives s { s with boot := b } := by
  obtain ⟨h1, h2, h3, h4, h5, h6⟩ := h
  refine ⟨?_, rfl, fun _ _ x => x, h1, h2, h3, h4, h5, h6⟩
  intro p hp
  cases p <;> first | rfl | simp at hp

/-- Codes raised after the boot state has changed. -/
theorem derives_raised {s t : State} {b : Boot} (h : Raises { s with boot := b } t) (hb : b.reg = s.boot.reg ∧
    b.serial = s.boot.serial ∧ b.reads = s.boot.reads ∧ b.objs = s.boot.objs ∧ b.staged = s.boot.staged ∧
    b.stored = s.boot.stored) : Derives s t :=
  (derives_withBoot s hb).trans (derives_of_raises h)

theorem derives_withMode (s : State) (m : Option Mode) : Derives s { s with mode := m } := by
  refine ⟨?_, rfl, fun _ _ x => x, rfl, rfl, rfl, rfl, rfl, rfl⟩
  intro p hp
  cases p <;> first | rfl | simp at hp

theorem derives_withP0s (s : State) : Derives s { s with light := { s.light with p0s := [] } } := by
  refine ⟨?_, rfl, fun _ _ x => x, rfl, rfl, rfl, rfl, rfl, rfl⟩
  intro p hp
  cases p <;> first | rfl | simp at hp

theorem derives_withLog (s : State) : Derives s { s with elog := { s.elog with flash := [] } } := by
  refine ⟨?_, rfl, fun _ _ x => x, rfl, rfl, rfl, rfl, rfl, rfl⟩
  intro p hp
  cases p <;> first | rfl | simp [raisedParts] at hp

theorem raises_flashBad (s : State) :
    Raises { s with boot := { s.boot with macFail := min (s.boot.macFail + 1) 255 } } (flashBad s) :=
  raises_raiseLogged _ (pg := .boot) nofun _ _

theorem derives_flashBad (s : State) : Derives s (flashBad s) :=
  derives_raised (raises_flashBad s) ⟨rfl, rfl, rfl, rfl, rfl, rfl⟩

theorem derives_checkFlash (s : State) : Derives s (checkFlash s) := by
  unfold checkFlash
  extract_lets b s1 _ s2 _
  have h1 : Derives s s1 := derives_withBoot s ⟨rfl, rfl, rfl, rfl, rfl, rfl⟩
  have h2 : Derives s s2 := (h1.trans ((derives_withP0s s1).trans (derives_flashBad _))).ite h1
  exact (h2.trans ((derives_withLog s2).trans (derives_flashBad _))).ite h2

/-- R461: flash torn by a loss of power is erased, and counted. -/
theorem checkFlash_boot (s : State) : (checkFlash s).mode = s.mode ∧
    ∃ n, (checkFlash s).boot = { s.boot with torn := [], macFail := n } := by
  have hflash : ∀ t : State, (flashBad t).mode = t.mode ∧
      (flashBad t).boot = { t.boot with macFail := min (t.boot.macFail + 1) 255 } :=
    fun t => ⟨(raises_flashBad t).mode, (raises_flashBad t).boot⟩
  unfold checkFlash
  extract_lets b s1 _ s2 _
  have h2 : s2.mode = s.mode ∧ ∃ n, s2.boot = { s.boot with torn := [], macFail := n } := by
    simp only [s2]
    split
    · exact ⟨(hflash _).1, _, (hflash _).2⟩
    · exact ⟨rfl, _, rfl⟩
  obtain ⟨hm, n, hb⟩ := h2
  split
  · exact ⟨(hflash _).1.trans hm, _, (hflash _).2.trans (by rw [hb])⟩
  · exact ⟨hm, n, hb⟩

/-! ## BARE entered (R446) -/

theorem raises_enterBare (s : State) (ms : Fin 3) : Raises { s with mode := some .bare, boot := { s.boot with
    stage := 2, bareMs := 13 + ms.val + 25 * s.boot.reads } } (enterBare s ms) :=
  raises_enterMode { s with boot := { s.boot with stage := 2, bareMs := 13 + ms.val + 25 * s.boot.reads } } .bare

theorem derives_enterBare (s : State) (ms : Fin 3) : Derives s (enterBare s ms) :=
  (derives_withMode s (some .bare)).trans (derives_raised (raises_enterBare s ms) ⟨rfl, rfl, rfl, rfl, rfl, rfl⟩)

theorem enterBare_boot (s : State) (ms : Fin 3) : (enterBare s ms).mode = some .bare ∧
    (enterBare s ms).boot = { s.boot with stage := 2, bareMs := 13 + ms.val + 25 * s.boot.reads } :=
  ⟨(raises_enterBare s ms).mode, (raises_enterBare s ms).boot⟩

theorem raises_idFailed (s : State) (c : Nat) : Raises { s with boot := { s.boot with idState := 2, cause := c } }
    (raiseLogged { s with boot := { s.boot with idState := 2, cause := c } } .boot 0x4401 c) :=
  raises_raiseLogged _ (pg := .boot) nofun _ _

theorem derives_failId (s : State) (c : Nat) (ms : Fin 3) : Derives s (failId s c ms) :=
  (derives_raised (raises_idFailed s c) ⟨rfl, rfl, rfl, rfl, rfl, rfl⟩).trans (derives_enterBare _ ms)

/-- R445, R449: a failed identity enters BARE, and raises ID_FAIL. -/
theorem failId_boot (s : State) (c : Nat) (ms : Fin 3) : (failId s c ms).mode = some .bare ∧
    (failId s c ms).boot = { s.boot with
      idState := 2, cause := c, stage := 2, bareMs := 13 + ms.val + 25 * s.boot.reads } ∧
    (pageOf (failId s c ms) .boot).classSeen.getLsbD 4 = true := by
  have hb := enterBare_boot (raiseLogged { s with boot := { s.boot with idState := 2, cause := c } } .boot 0x4401 c) ms
  refine ⟨hb.1, hb.2.trans (by rw [(raises_idFailed s c).boot]), ?_⟩
  exact (derives_enterBare _ ms).seen .boot 4 (seen_raiseLogged _ .boot (code := 0x4401) (by decide) c)

/-- R447: the chain is good and ends in the key derived from the root. -/
def Good (chain root : Bytes) : Prop :=
  Config.chainValid chain = true ∧ Config.leafKey chain = Config.slhPublic (hkdfExpand root sgAttest 48)

/-- The state in which a good identity is held. -/
def attested (s : State) (root : Bytes) (worst : Nat) : State :=
  checkFlash { s with boot := { s.boot with
    worst := worst, idState := 1, attest := hkdfExpand root sgAttest 48, flashKey := hkdfExpand root sgFlash 32,
    fp := BitVec.ofNat 64 (fromBe ((sha256 (Config.leafSpki s.boot.chain)).take 8)) } }

theorem derives_attested (s : State) (root : Bytes) (worst : Nat) : Derives s (attested s root worst) := by
  refine Derives.trans ?_ (derives_checkFlash _)
  exact derives_withBoot s ⟨rfl, rfl, rfl, rfl, rfl, rfl⟩

theorem attestWith_good {s : State} {root : Bytes} (worst : Nat) (ms : Fin 3) (h : Good s.boot.chain root) :
    attestWith s root worst ms = enterBare (attested s root worst) ms := by
  obtain ⟨hv, hk⟩ := h
  simp only [attestWith, hv, hk, Bool.not_true, Bool.false_eq_true, if_false, ne_eq, not_true]
  rfl

theorem attestWith_bad {s : State} {root : Bytes} (worst : Nat) (ms : Fin 3) (h : ¬Good s.boot.chain root) :
    ∃ c, attestWith s root worst ms = failId { s with boot := { s.boot with worst := worst } } c ms := by
  by_cases hv : Config.chainValid s.boot.chain = true
  · have hk : Config.leafKey s.boot.chain ≠ Config.slhPublic (hkdfExpand root sgAttest 48) := fun hk => h ⟨hv, hk⟩
    exact ⟨4, by simp only [attestWith, hv, Bool.not_true, Bool.false_eq_true, if_false, if_pos hk]⟩
  · exact ⟨3, by simp only [attestWith, hv, Bool.not_false, if_true]⟩

theorem derives_attestWith (s : State) (root : Bytes) (worst : Nat) (ms : Fin 3) : Derives s (attestWith s root worst ms) := by
  have hw : Derives s { s with boot := { s.boot with worst := worst } } := derives_withBoot s ⟨rfl, rfl, rfl, rfl, rfl, rfl⟩
  by_cases h : Good s.boot.chain root
  · rw [attestWith_good worst ms h]
    exact (derives_attested s root worst).trans (derives_enterBare _ ms)
  · obtain ⟨c, hc⟩ := attestWith_bad worst ms h
    rw [hc]
    exact hw.trans (derives_failId _ c ms)

/-- R447 to R449: a root read enters BARE, with the identity held exactly if the chain and its key are good. -/
theorem attestWith_boot (s : State) (root : Bytes) (worst : Nat) (ms : Fin 3) :
    (attestWith s root worst ms).mode = some .bare ∧ (attestWith s root worst ms).boot.worst = worst ∧
    (attestWith s root worst ms).boot.bareMs = 13 + ms.val + 25 * s.boot.reads ∧
    (Good s.boot.chain root → (attestWith s root worst ms).boot.idState = 1) ∧
    (¬Good s.boot.chain root → (attestWith s root worst ms).boot.idState = 2) := by
  by_cases h : Good s.boot.chain root
  · rw [attestWith_good worst ms h]
    obtain ⟨hm, hb⟩ := enterBare_boot (attested s root worst) ms
    obtain ⟨-, n, ha⟩ : (attested s root worst).mode = _ ∧ ∃ n, (attested s root worst).boot = _ := checkFlash_boot _
    rw [hb, ha]
    exact ⟨hm, rfl, rfl, fun _ => rfl, fun hn => absurd h hn⟩
  · obtain ⟨c, hc⟩ := attestWith_bad worst ms h
    obtain ⟨hm, hb, -⟩ := failId_boot { s with boot := { s.boot with worst := worst } } c ms
    rw [hc, hb]
    exact ⟨hm, rfl, rfl, fun hg => absurd hg h, fun _ => rfl⟩

/-! ## The derivation by case (R445) -/

theorem derive_badHelper {s : State} (cells : Bytes) (ms : Fin 3) (h : helperOk s.boot.helper = false) :
    derive s cells ms = failId s 1 ms := by
  simp only [derive, h, Bool.not_false, if_true]

theorem derive_read {s : State} {cells : Bytes} (ms : Fin 3) {root : Bytes} {worst : Nat} (h : helperOk s.boot.helper = true)
    (hr : reconstruct s.boot.helper cells = some (root, worst)) : derive s cells ms = attestWith s root worst ms := by
  simp only [derive, h, hr, Bool.not_true, Bool.false_eq_true, if_false]

theorem derive_unread {s : State} {cells : Bytes} (ms : Fin 3) (h : helperOk s.boot.helper = true)
    (hr : reconstruct s.boot.helper cells = none) :
    derive s cells ms = if s.boot.reads ≥ 3 then failId s 2 ms else { s with boot := { s.boot with stage := 1 } } := by
  simp only [derive, h, hr, Bool.not_true, Bool.false_eq_true, if_false]

theorem derives_derive (s : State) (cells : Bytes) (ms : Fin 3) : Derives s (derive s cells ms) := by
  cases h : helperOk s.boot.helper with
  | false => rw [derive_badHelper cells ms h]; exact derives_failId s 1 ms
  | true =>
    cases hr : reconstruct s.boot.helper cells with
    | some r => rw [derive_read ms h hr]; exact derives_attestWith s _ _ ms
    | none =>
      rw [derive_unread ms h hr]
      exact (derives_failId s 2 ms).ite (derives_withBoot s ⟨rfl, rfl, rfl, rfl, rfl, rfl⟩)

theorem derive_mode (s : State) (cells : Bytes) (ms : Fin 3) :
    (derive s cells ms).mode = s.mode ∨ (derive s cells ms).mode = some .bare := by
  cases h : helperOk s.boot.helper with
  | false => rw [derive_badHelper cells ms h]; exact .inr (failId_boot s 1 ms).1
  | true =>
    cases hr : reconstruct s.boot.helper cells with
    | some r => rw [derive_read ms h hr]; exact .inr (attestWith_boot s _ _ ms).1
    | none =>
      rw [derive_unread ms h hr]
      split
      · exact .inr (failId_boot s 2 ms).1
      · exact .inl rfl

/-! ## Power and reset (R444 to R450, R470 to R473) -/

theorem exec_vinContact (s : State) (absent : Nat) : exec (.vinContact absent) s = .next (if s.boot.vin ∨ s.boot.fuse then s
    else { s with boot := { s.boot with vin := true, trip := s.boot.trip && decide (absent < 1000) } }) := by
  have h : exec (.vinContact absent) s = .next (if (s.boot.vin || s.boot.fuse) = true then s
    else { s with boot := { s.boot with vin := true, trip := s.boot.trip && decide (absent < 1000) } }) := rfl
  rw [h]
  simp only [Bool.or_eq_true]

/-- R471: what a write torn by the loss of power keeps. -/
theorem tear_keeps (s : State) (x : Nat × Nat) : (tear s x).pending = s.pending ∧ (tear s x).out = s.out ∧
    (tear s x).boot.helper = s.boot.helper := by
  unfold tear
  dsimp only
  split
  · exact ⟨rfl, rfl, rfl⟩
  · split <;> exact ⟨rfl, rfl, rfl⟩

theorem torn_keeps (torn : List (Nat × Nat)) (s : State) : (torn.foldl tear s).pending = s.pending ∧
    (torn.foldl tear s).out = s.out ∧ (torn.foldl tear s).boot.helper = s.boot.helper := by
  induction torn generalizing s with
  | nil => exact ⟨rfl, rfl, rfl⟩
  | cons x l ih =>
    obtain ⟨hp, ho, hh⟩ := ih (tear s x)
    obtain ⟨hp', ho', hh'⟩ := tear_keeps s x
    exact ⟨hp.trans hp', ho.trans ho', hh.trans hh'⟩

theorem exec_vinLoss {s : State} (torn : List (Nat × Nat)) (h : s.boot.vin = true) : exec (.vinLoss torn) s =
    .next { cleared (torn.foldl tear s) with boot := { (cleared (torn.foldl tear s)).boot with vin := false } } :=
  congrArg Host.Outcome.next (if_neg (by simp [h]))

theorem exec_inputFuseOpen {s : State} (h : s.boot.vin = true) : exec .inputFuseOpen s =
    .next { cleared s with boot := { (cleared s).boot with vin := false, fuse := true } } :=
  congrArg Host.Outcome.next (if_neg (by simp [h]))

/-- The state at power-up, before the identity is derived. -/
def poweredUp (s : State) (helper chain : Bytes) (serial : BitVec 64) : State :=
  { cleared s with
    boot := { (cleared s).boot with reg := true, helper := helper, chain := chain, serial := serial },
    i3c := { (cleared s).i3c with up := true } }

theorem exec_powerUp {s : State} (cells helper chain : Bytes) (serial : BitVec 64) (ms : Fin 3) (hv : s.boot.vin = true)
    (hf : s.boot.fuse = false) (ht : s.boot.trip = false) (hr : s.boot.reg = false) :
    exec (.powerUp cells helper chain serial ms) s = .next (derive (poweredUp s helper chain serial) cells ms) :=
  congrArg Host.Outcome.next (if_neg (by simp [hv, hf, ht, hr]))

theorem powerUp_answers {s : State} (cells helper chain : Bytes) (serial : BitVec 64) (ms : Fin 3) (hv : s.boot.vin = true)
    (hf : s.boot.fuse = false) (ht : s.boot.trip = false) (hr : s.boot.reg = false) :
    Answers (.powerUp cells helper chain serial ms) s (fun t =>
      t.boot.reg = true ∧ t.boot.serial = serial ∧ t.i3c.up = true ∧
      (helperOk helper = false → t.mode = some .bare ∧ t.boot.idState = 2 ∧ t.boot.cause = 1 ∧
        (pageOf t .boot).classSeen.getLsbD 4 = true) ∧
      (helperOk helper = true → match reconstruct helper cells with
        | none => t.mode = none ∧ t.boot.stage = 1
        | some (root, worst) => t.mode = some .bare ∧ t.boot.worst = worst ∧ t.boot.bareMs = 13 + ms.val ∧
          (Good chain root → t.boot.idState = 1) ∧ (¬Good chain root → t.boot.idState = 2))) := by
  refine ⟨_, exec_powerUp cells helper chain serial ms hv hf ht hr, ?_⟩
  have hd := derives_derive (poweredUp s helper chain serial) cells ms
  refine ⟨hd.reg, hd.serial, hd.up, fun hbad => ?_, fun hok => ?_⟩
  · obtain ⟨hm, hb, hs⟩ := failId_boot (poweredUp s helper chain serial) 1 ms
    rw [derive_badHelper (s := poweredUp s helper chain serial) cells ms hbad, hb]
    exact ⟨hm, rfl, rfl, hs⟩
  · cases hrec : reconstruct helper cells with
    | none =>
      have hreads : ¬(poweredUp s helper chain serial).boot.reads ≥ 3 := Nat.not_succ_le_zero 2
      rw [derive_unread (s := poweredUp s helper chain serial) ms hok hrec, if_neg hreads]
      exact ⟨rfl, rfl⟩
    | some r =>
      rw [derive_read (s := poweredUp s helper chain serial) ms hok hrec]
      exact attestWith_boot (poweredUp s helper chain serial) r.1 r.2 ms

/-- The state of a further read of the array. -/
def readAgain (s : State) : State := raiseLogged { s with boot := { s.boot with reads := s.boot.reads + 1 } } .boot 0x0402 0

theorem raises_readAgain (s : State) : Raises { s with boot := { s.boot with reads := s.boot.reads + 1 } } (readAgain s) :=
  raises_raiseLogged _ (pg := .boot) nofun _ _

theorem exec_pufRetry {s : State} (cells : Bytes) (ms : Fin 3) (hr : s.boot.reg = true) (hm : s.mode = none)
    (hst : s.boot.stage = 1) (hn : s.boot.reads < 3) : exec (.pufRetry cells ms) s = .next (derive (readAgain s) cells ms) :=
  congrArg Host.Outcome.next (if_neg (by simp [hr, hm, hst, hn]))

theorem pufRetry_answers {s : State} (cells : Bytes) (ms : Fin 3) (hr : s.boot.reg = true) (hm : s.mode = none)
    (hst : s.boot.stage = 1) (hn : s.boot.reads < 3) (hok : helperOk s.boot.helper = true) :
    Answers (.pufRetry cells ms) s (fun t => t.boot.reads = s.boot.reads + 1 ∧ (pageOf t .boot).classSeen.getLsbD 0 = true ∧
      match reconstruct s.boot.helper cells with
      | none => if s.boot.reads = 2 then t.mode = some .bare ∧ t.boot.idState = 2 ∧ t.boot.cause = 2 else t.mode = none
      | some (root, _) => t.mode = some .bare ∧ (Good s.boot.chain root → t.boot.idState = 1)) := by
  refine ⟨_, exec_pufRetry cells ms hr hm hst hn, ?_⟩
  have hd := derives_derive (readAgain s) cells ms
  have hboot := (raises_readAgain s).boot
  have hmode : (readAgain s).mode = none := (raises_readAgain s).mode.trans hm
  have hhelper : (readAgain s).boot.helper = s.boot.helper := by rw [hboot]
  have hreads : (readAgain s).boot.reads = s.boot.reads + 1 := by rw [hboot]
  have hchain : (readAgain s).boot.chain = s.boot.chain := by rw [hboot]
  rw [← hhelper] at hok
  refine ⟨hd.reads.trans hreads, hd.seen .boot 0 (seen_raiseLogged _ .boot (code := 0x0402) (by decide) 0), ?_⟩
  rw [← hhelper, ← hchain]
  cases hrec : reconstruct (readAgain s).boot.helper cells with
  | none =>
    dsimp only
    rw [derive_unread ms hok hrec, hreads]
    by_cases h2 : s.boot.reads = 2
    · obtain ⟨hm, hb, -⟩ := failId_boot (readAgain s) 2 ms
      rw [if_pos h2, if_pos (by omega), hb]
      exact ⟨hm, rfl, rfl⟩
    · rw [if_neg h2, if_neg (by omega)]
      exact hmode
  | some r =>
    obtain ⟨hm, -, -, hgood, -⟩ := attestWith_boot (readAgain s) r.1 r.2 ms
    dsimp only
    rw [derive_read ms hok hrec]
    exact ⟨hm, hgood⟩

/-- The state at a Function Level Reset, before the identity is derived again. -/
def levelReset (s : State) : State :=
  { cleared s with i3c := s.i3c, elog := s.elog, boot := { (cleared s).boot with reg := true, hostUp := s.boot.hostUp } }

theorem exec_functionLevelReset {s : State} (cells : Bytes) (ms : Fin 3) (h : s.mode ≠ none) :
    exec (.functionLevelReset cells ms) s = .next (derive (levelReset s) cells ms) :=
  congrArg Host.Outcome.next (if_neg (by simpa using h))

theorem functionLevelReset_answers {s : State} (cells : Bytes) (ms : Fin 3) (h : s.mode ≠ none) :
    Answers (.functionLevelReset cells ms) s (fun t => t.boot.objs = [] ∧ t.boot.staged = [] ∧
      t.boot.stored = s.boot.stored ∧ t.coll = State.reset.coll ∧ t.plans = State.reset.plans ∧ t.ciph.links = [] ∧
      t.mem = [] ∧ t.win = [] ∧ (t.mode = none ∨ t.mode = some .bare)) := by
  refine ⟨_, exec_functionLevelReset cells ms h, ?_⟩
  have hd := derives_derive (levelReset s) cells ms
  have hciph : (derive (levelReset s) cells ms).ciph = (levelReset s).ciph := hd.only .ciph (by decide)
  exact ⟨hd.objs, hd.staged, hd.stored, hd.only .coll (by decide), hd.only .plans (by decide), by rw [hciph]; rfl,
    hd.only .mem (by decide), hd.only .win (by decide), derive_mode (levelReset s) cells ms⟩

/-! ## The host link (R57, R462, R478, R482) -/

theorem exec_pcieConfigRequest_retry {s : State} (off : BitVec 12) (hr : s.boot.reg = true) (hp : s.boot.perst = true)
    (hm : s.mode = none) : exec (.pcieConfigRequest off) s = .next (emit s .retry) :=
  congrArg Host.Outcome.next ((if_neg (by simp [hr, hp])).trans (if_pos (by simp [hm])))

theorem exec_pcieConfigRequest {s : State} (off : BitVec 12) (hr : s.boot.reg = true) (hp : s.boot.perst = true)
    (hm : s.mode ≠ none) : exec (.pcieConfigRequest off) s = .next
      (emit { s with boot := { s.boot with hostUp := true } } (.config off.toNat (Config.configSpace off.toNat))) :=
  congrArg Host.Outcome.next ((if_neg (by simp [hr, hp])).trans (if_neg (by simpa using hm)))

theorem pcieConfigRequest_answers {s : State} (off : BitVec 12) (hr : s.boot.reg = true) (hp : s.boot.perst = true)
    (hm : s.mode ≠ none) : Answers (.pcieConfigRequest off) s (fun t => t.boot = { s.boot with hostUp := true } ∧
      (∃ w, t.out = s.out ++ [.config off.toNat w]) ∧ OnlyChanges [.boot, .out] s t) := by
  refine ⟨_, exec_pcieConfigRequest off hr hp hm, rfl, ⟨_, rfl⟩, fun p hx => ?_⟩
  cases p <;> first | rfl | simp at hx

/-- A register of the rings: below CQ_INT_DELAY's offset. -/
def ringReg (e : (Nat × Nat) × Word) : Bool := decide (e.1.1 < 0x9C)

/-- The state once the rings are reset and the host's results are owed to no one. -/
def ringsReset (s : State) : State :=
  let p := pageOf s .cpw
  let q := { p with regs := p.regs.filter (fun e => !ringReg e), pend := p.pend.filter (fun e => !ringReg e) }
  orphanResults { setPage s .cpw q with cpw := Cpw.reset, boot := { s.boot with hostUp := false } }

theorem exec_hostLinkLoss {s : State} (h : s.boot.hostUp = true) :
    exec .hostLinkLoss s = .next (raiseLogged (ringsReset s) .pcie 0x1401 0) :=
  congrArg Host.Outcome.next (if_neg (by simp [h]))

theorem regs_ringsReset (s : State) :
    (pageOf (ringsReset s) .cpw).regs = (pageOf s .cpw).regs.filter (fun e => !ringReg e) :=
  congrArg Page.regs (pageOf_setPage s .cpw _)

/-- R478: each queue's TAIL is 0. -/
theorem tail_ringsReset {s t : State} (h : (pageOf t .cpw).regs = (pageOf (ringsReset s) .cpw).regs) (q : Fin 4) :
    fldV t .cpw (0x40 + 16 * q.val) 15 0 = 0 := by
  have hdrop : mget? (pageOf t .cpw).regs (0x40 + 16 * q.val, 0) = none := by
    rw [h, regs_ringsReset]
    refine mget?_filter_dropped _ _ fun v => ?_
    have hlt : 0x40 + 16 * q.val < 0x9C := by omega
    exact congrArg (!·) (decide_eq_true hlt)
  have hreset : ∀ q : Fin 4, fld (resetWord .cpw (0x40 + 16 * q.val) 0).toNat 15 0 = 0 := by decide
  rw [fldV, fldB, regActive, hdrop]
  exact hreset q

/-- R482: a chunk owed counts as sent 8 times. -/
theorem orphan_spent {s : State} {os : List OwedChunk} : ∀ o ∈ orphan s os, o.acked = true ∨ 8 ≤ o.sends := by
  intro o ho
  obtain ⟨x, -, rfl⟩ := List.mem_map.mp ho
  by_cases hx : x.acked = true
  · rw [if_pos hx]
    exact .inl hx
  · rw [if_neg hx]
    exact .inr (le_max_right _ _)

theorem pulls_ringsReset {s : State} : ∀ x ∈ (ringsReset s).fab.pulls, isWin x.org = true →
    ∀ o ∈ x.chunks, o.acked = true ∨ 8 ≤ o.sends := by
  intro x hx hw
  obtain ⟨p, -, rfl⟩ := List.mem_map.mp hx
  by_cases hp : isWin p.org = true
  · rw [if_pos hp]
    exact orphan_spent
  · rw [if_neg hp] at hw
    exact absurd hw hp

theorem hostLinkLoss_answers {s : State} (h : s.boot.hostUp = true) : Answers .hostLinkLoss s (fun t =>
    t.boot.hostUp = false ∧ t.mode = s.mode ∧ t.cpw = Cpw.reset ∧
    (∀ q : Fin 4, fldV t .cpw (0x40 + 16 * q.val) 15 0 = 0) ∧
    (pageOf t .pcie).classSeen.getLsbD 1 = true ∧
    (∀ x ∈ t.fab.pulls, isWin x.org = true → ∀ o ∈ x.chunks, o.acked = true ∨ 8 ≤ o.sends) ∧
    t.plans = s.plans ∧ t.mem = s.mem) := by
  refine ⟨_, exec_hostLinkLoss h, ?_⟩
  have hr : Raises (ringsReset s) (raiseLogged (ringsReset s) .pcie 0x1401 0) := raises_raiseLogged _ (pg := .pcie) nofun _ _
  have hfab : (raiseLogged (ringsReset s) .pcie 0x1401 0).fab = (ringsReset s).fab := hr.only .fab (by decide)
  refine ⟨by rw [hr.boot]; rfl, hr.mode, hr.only .cpw (by decide), tail_ringsReset hr.regs,
    seen_raiseLogged _ .pcie (code := 0x1401) (by decide) 0, ?_, hr.only .plans (by decide), hr.only .mem (by decide)⟩
  rw [hfab]
  exact pulls_ringsReset

/-! ## Counters (R40) -/

/-- R35, R40: a read at a page, directly or at its user address. -/
theorem busRead_page (s : State) (r : Fin 4) {pg : PageId} (hup : pageUp s pg = true) {base o : Nat}
    (hb : base = 0 ∨ base = 0x1000000) (ho : o < 4096) : busRead s r (base + pageAddr pg + o) 0 =
      if base ≠ 0 ∧ aliasReads s pg o = false then (s, 0) else readReg s r pg o 0 := by
  obtain ⟨hmod, hrange⟩ := RegisterWrites.pageAddr_bounds pg
  have hin : (base + pageAddr pg + o) % 0x1000000 = pageAddr pg + o := by omega
  have hlow : ¬base + pageAddr pg + o ≥ 0x2000000 := by omega
  have hmsix : inMsix (pageAddr pg + o) = false := by
    simp only [inMsix, Bool.and_eq_false_iff, decide_eq_false_iff_not]
    omega
  have hoff : (pageAddr pg + o) % 4096 = o := by omega
  have halias : (base + pageAddr pg + o ≥ 0x1000000) = (base ≠ 0) := propext (by omega)
  simp [busRead, hin, hlow, hmsix, RegisterWrites.pageAt_pageAddr_add pg ho, hup, hoff, halias]

theorem readReg_ctrLo {s : State} (r : Fin 4) {pg : PageId} (hup : pageUp s pg = true) (hd : pg ≠ .dir) (i : Nat) :
    readReg s r pg (0x800 + 8 * i) 0 = if i < ctrCount pg then readCtrLo s r pg i else (s, 0) := by
  have hi : (0x800 + 8 * i - 0x800) / 8 = i := by omega
  simp only [readReg, hup, Bool.not_true, Bool.false_eq_true, if_false, if_neg hd, hi]
  rw [if_neg (by omega), if_pos (by omega), if_pos (by omega)]

theorem readReg_ctrHi {s : State} (r : Fin 4) {pg : PageId} (hup : pageUp s pg = true) (hd : pg ≠ .dir) (i : Nat) :
    readReg s r pg (0x804 + 8 * i) 0 = (s, readCtrHi s r pg i) := by
  have hi : (0x804 + 8 * i - 0x800) / 8 = i := by omega
  simp only [readReg, hup, Bool.not_true, Bool.false_eq_true, if_false, if_neg hd, hi]
  rw [if_neg (by omega), if_pos (by omega), if_neg (by omega)]

theorem ctrHi_lt (v : Nat) : ctrHi v < 2 ^ 32 := by
  unfold ctrHi flag
  split <;> omega

/-- R40: a read of CTR_LO latches the high word for its reader, but for the six counters of a tile that latch together. -/
theorem readCtrLo_latches (s : State) (r : Fin 4) {pg : PageId} {i : Nat} (h : 6 ≤ i ∨ ∀ x, pg ≠ .tile x) :
    ∃ l, readCtrLo s r pg i = (setPage s pg { pageOf s pg with
      latch := mset l (latchKey r (0x804 + 8 * i)) (BitVec.ofNat 32 (ctrHi (ctrVal s pg i))) }, ctrLo (ctrVal s pg i)) := by
  unfold readCtrLo
  extract_lets p lo tile
  have htile : tile = false ∨ 6 ≤ i := by
    refine h.symm.imp (fun hn => ?_) id
    simp only [tile]
  have h0 : (tile && decide (i = 0)) = false := by
    rcases htile with ht | hi
    · rw [ht, Bool.false_and]
    · rw [decide_eq_false (by omega), Bool.and_false]
  have h6 : (tile && decide (i < 6)) = false := by
    rcases htile with ht | hi
    · rw [ht, Bool.false_and]
    · rw [decide_eq_false (by omega), Bool.and_false]
  have hlo : lo i + 4 = 0x804 + 8 * i := by simp only [lo]; omega
  rw [h0, h6, hlo]
  exact ⟨_, rfl⟩

theorem readCtrHi_latched {s : State} {r : Fin 4} {pg : PageId} {i v : Nat} {l : PMap Nat Word} {p : Page}
    (h : pageOf s pg = { p with latch := mset l (latchKey r (0x804 + 8 * i)) (BitVec.ofNat 32 (ctrHi v)) }) :
    readCtrHi s r pg i = ctrHi v := by
  simpa [readCtrHi, h] using ctrHi_lt v

/-- The base of the user addresses, for agent 1. -/
def aliasBase (r : Fin 4) : Nat := if r = 1 then 0x1000000 else 0

theorem aliasBase_cases (r : Fin 4) : aliasBase r = 0 ∨ aliasBase r = 0x1000000 := by
  unfold aliasBase
  split
  · exact .inr rfl
  · exact .inl rfl

theorem exec_ctrLoRead (s : State) (r : Fin 4) {pg : PageId} (hup : pageUp s pg = true) (i : Fin 256) :
    exec (.ctrLoRead r pg i) s = .next (
      let x := if aliasBase r ≠ 0 ∧ aliasReads s pg (0x800 + 8 * i.val) = false then (s, 0)
        else readReg s r pg (0x800 + 8 * i.val) 0
      emit x.1 (.readAnswer (pageAddr pg + (aliasBase r + (0x800 + 8 * i.val))) (BitVec.ofNat 32 x.2))) := by
  have h : exec (.ctrLoRead r pg i) s = .next (emit (busRead s r (aliasBase r + pageAddr pg + (0x800 + 8 * i.val)) 0).1
      (.readAnswer (aliasBase r + pageAddr pg + (0x800 + 8 * i.val))
        (BitVec.ofNat 32 (busRead s r (aliasBase r + pageAddr pg + (0x800 + 8 * i.val)) 0).2))) := rfl
  rw [h, busRead_page s r hup (aliasBase_cases r) (by omega),
    show aliasBase r + pageAddr pg + (0x800 + 8 * i.val) = pageAddr pg + (aliasBase r + (0x800 + 8 * i.val)) by omega]

theorem exec_ctrLoRead_dir (s : State) (r : Fin 4) (i : Fin 256) : exec (.ctrLoRead r .dir i) s =
    .next (emit s (if r = 1 then .readAnswer (0x1000000 + (0x800 + 8 * i.val)) 0
      else .readAnswer (0x800 + 8 * i.val) (BitVec.ofNat 32 (dirReg s (0x800 + 8 * i.val))))) := by
  have hup : pageUp s .dir = true := by
    unfold pageUp
    split <;> rfl
  have halias : aliasReads s .dir (0x800 + 8 * i.val) = false := by
    rw [aliasReads, if_neg (by omega)]
    rfl
  have hread : readReg s r .dir (0x800 + 8 * i.val) 0 = (s, dirReg s (0x800 + 8 * i.val)) := by
    simp only [readReg, hup, Bool.not_true, Bool.false_eq_true, if_false]
    rw [if_neg (by omega), if_true]
  have hdir : pageAddr .dir = 0 := rfl
  rw [exec_ctrLoRead s r hup, halias, hread, hdir]
  by_cases hr : r = 1
  · simp [aliasBase, hr]
  · simp [aliasBase, hr]

theorem aliasReads_counter (s : State) {pg : PageId} (hd : pg ≠ .dir) (i : Nat) :
    aliasReads s pg (0x800 + 8 * i) = (pageOf s pg).uctr := by
  rw [aliasReads, if_neg (by omega)]
  simp [hd]

section
variable {s : State} {r : Fin 4} {pg : PageId} {i : Fin 256} (hup : pageUp s pg = true) (hd : pg ≠ .dir)
include hup hd

theorem exec_ctrLoRead_noAlias (hr : r = 1) (hu : (pageOf s pg).uctr = false) : exec (.ctrLoRead r pg i) s =
    .next (emit s (.readAnswer (pageAddr pg + (aliasBase r + (0x800 + 8 * i.val))) 0)) := by
  have hb : aliasBase r ≠ 0 := by simp [aliasBase, hr]
  rw [exec_ctrLoRead s r hup, aliasReads_counter s hd, if_pos ⟨hb, hu⟩]
  rfl

/-- R40: a read that UCTR lets through is that of the counter. -/
theorem exec_ctrLoRead_reads (hr : r ≠ 1 ∨ (pageOf s pg).uctr = true) : exec (.ctrLoRead r pg i) s = .next (
    let x := if i.val < ctrCount pg then readCtrLo s r pg i.val else (s, 0)
    emit x.1 (.readAnswer (pageAddr pg + (aliasBase r + (0x800 + 8 * i.val))) (BitVec.ofNat 32 x.2))) := by
  have hno : ¬(aliasBase r ≠ 0 ∧ (pageOf s pg).uctr = false) := by
    rintro ⟨hb, hu⟩
    rcases hr with h | h
    · exact hb (if_neg h)
    · rw [hu] at h
      cases h
  rw [exec_ctrLoRead s r hup, aliasReads_counter s hd, if_neg hno, readReg_ctrLo r hup hd]

theorem ctrLoRead_answers (hr : r ≠ 1 ∨ (pageOf s pg).uctr = true) (hi : i.val < ctrCount pg)
    (h : 6 ≤ i.val ∨ ∀ x, pg ≠ .tile x) : Answers (.ctrLoRead r pg i) s (fun t =>
      t.out = s.out ++ [.readAnswer (pageAddr pg + (aliasBase r + (0x800 + 8 * i.val)))
        (BitVec.ofNat 32 (ctrLo (ctrVal s pg i.val)))] ∧
      (readReg t r pg (0x804 + 8 * i.val) 0).2 = ctrHi (ctrVal s pg i.val) ∧ OnlyChanges [.pages, .out] s t) := by
  refine ⟨_, exec_ctrLoRead_reads hup hd hr, ?_⟩
  obtain ⟨l, hl⟩ := readCtrLo_latches s r h
  rw [if_pos hi, hl]
  refine ⟨rfl, ?_, onlyChanges_trans (onlyChanges_setPage s pg _) (onlyChanges_emit _ _)⟩
  rw [readReg_ctrHi r (by exact hup) hd]
  exact readCtrHi_latched (pageOf_setPage s pg _)

end

/-- Settles O59: power and reset by what the identity's derivation keeps, the host link and the counters by their reads. -/
theorem powerHostAndCounters : Obligations.PowerHostAndCounters := by
  unfold Obligations.PowerHostAndCounters
  refine ⟨exec_vinContact, fun s torn => ⟨fun hv => ?_, fun hv => ?_, fun hv => ?_⟩,
    fun s cells helper chain serial ms => ?_,
    fun s off => ⟨rfl, exec_pcieConfigRequest_retry off, pcieConfigRequest_answers off⟩,
    fun s => ⟨hostLinkLoss_answers, fun hn => ?_⟩, fun s r i _ => exec_ctrLoRead_dir s r i, fun s r pg i hup hd => ?_⟩
  · obtain ⟨hp, ho, hh⟩ := torn_keeps torn s
    refine ⟨_, exec_vinLoss torn hv, rfl, rfl, rfl, rfl, rfl, rfl, rfl, rfl, rfl, hp, ho, hh, ?_⟩
    rintro rfl
    exact ⟨rfl, rfl, rfl⟩
  · exact congrArg Host.Outcome.next (if_pos (by simp [hv]))
  · exact ⟨_, exec_inputFuseOpen hv, rfl, rfl, rfl, rfl, rfl, rfl⟩
  · exact ⟨powerUp_answers cells helper chain serial ms, pufRetry_answers cells ms, functionLevelReset_answers cells ms,
      fun hm => congrArg Host.Outcome.next (if_pos (by simp [hm]))⟩
  · exact congrArg Host.Outcome.next (if_pos (by simp [hn]))
  · refine ⟨exec_ctrLoRead_noAlias hup hd, fun hr hi => ?_, ctrLoRead_answers hup hd⟩
    have h := exec_ctrLoRead_reads (i := i) hup hd hr
    rw [if_neg (by omega)] at h
    exact h

end Sys2Proof.PowerAndHost
end

section
/-! PROOFS. Contributions (R64, R81, R95, R96, R122, R128, R129, R146): what adding one does, what taking or refusing one answers,
and the settlement of O25, O26 and O27. -/
namespace Sys2Proof.Contributions
open Sys2Proof Sys2Proof.Machine Sys2Proof.Laws Sys2Proof.AcceptedPackets

/-! ## The accumulators (R146) -/

/-- R146: what an accumulator element holds once a value has joined it. -/
def joined (op : Nat) (strict : Bool) (acc : PMap Nat Nat) (j v : Nat) : Nat :=
  (match mget? acc j with
    | some a => accumulate op strict a v
    | none => initAcc op strict v).1

/-- The accumulators and the next element, once a value has joined the next element. -/
def joinNext (op : Nat) (strict : Bool) (p : PMap Nat Nat × Nat) (v : Nat) : PMap Nat Nat × Nat :=
  (mset p.1 p.2 (joined op strict p.1 p.2 v), p.2 + 1)

/-- Adding values joins them one by one; the flags do not reach the accumulators. -/
theorem addElems_fst (op : Nat) (strict : Bool) (acc : PMap Nat Nat) (lo : Nat) (vs : List Nat) :
    (addElems op strict acc lo vs).1 = (vs.foldl (joinNext op strict) (acc, lo)).1 :=
  (congrArg Prod.fst (List.foldl_hom (fun p : PMap Nat Nat × Flg × Nat => (p.1, lo + p.2.2)) (fun _ _ => rfl))).symm

theorem mget?_foldl_joinNext (op : Nat) (strict : Bool) (vs : List Nat) (acc : PMap Nat Nat) (lo j : Nat) :
    mget? (vs.foldl (joinNext op strict) (acc, lo)).1 j =
      if lo ≤ j ∧ j < lo + vs.length then some (joined op strict acc j (vs.getD (j - lo) 0)) else mget? acc j := by
  induction vs generalizing acc lo with
  | nil => rw [if_neg (by simp)]; rfl
  | cons v vs ih =>
    rw [List.foldl_cons, joinNext, ih, List.length_cons]
    by_cases hj : j = lo
    · subst hj
      rw [if_neg (by omega), if_pos (by omega), mget?_mset_same, Nat.sub_self]
      rfl
    · rw [mget?_mset_ne _ _ hj, joined, mget?_mset_ne _ _ hj, ← joined]
      by_cases hin : lo ≤ j ∧ j < lo + (vs.length + 1)
      · rw [if_pos hin, if_pos (by omega), show j - lo = j - (lo + 1) + 1 by omega]
        rfl
      · rw [if_neg hin, if_neg (by omega)]

/-- R146: a value joins each element from `lo` on, and no other. -/
theorem mget?_addElems (op : Nat) (strict : Bool) (acc : PMap Nat Nat) (lo : Nat) (vs : List Nat) (j : Nat) :
    mget? (addElems op strict acc lo vs).1 j =
      if lo ≤ j ∧ j < lo + vs.length then some (joined op strict acc j (vs.getD (j - lo) 0)) else mget? acc j := by
  rw [addElems_fst, mget?_foldl_joinNext]

/-! ## Cells -/

@[simp] theorem cellOf_setCell (s : State) (n : Nat) (x : Cell) : cellOf (setCell s n x) n = x := mget_mset_same _ _ _ _

theorem cellOf_setCell_ne (s : State) {n m : Nat} (x : Cell) (h : m ≠ n) : cellOf (setCell s n x) m = cellOf s m :=
  mget_mset_ne _ _ _ h

theorem onlyChanges_setCell (s : State) (n : Nat) (x : Cell) : OnlyChanges [.coll] s (setCell s n x) := by
  intro p hp
  cases p <;> first | rfl | simp at hp

theorem onlyChanges_setTile (s : State) (t : Fin 64) (x : Tile) : OnlyChanges [.plans] s (setTile s t x) := by
  intro p hp
  cases p <;> first | rfl | simp at hp

/-- What leaves the collectives leaves every cell. -/
theorem cellOf_of_onlyChanges {ps : List Part} {s t : State} (h : OnlyChanges ps s t) (hc : Part.coll ∉ ps) (n : Nat) :
    cellOf t n = cellOf s n := congrArg (fun x : Coll => mget x.cells n Cell.free) (h .coll hc)

/-! ## Flags land outside the cells (R197) -/

theorem onlyChanges_orOpen (s : State) (step replay bits : Nat) : OnlyChanges [.plans] s (orOpen s step replay bits) := by
  refine onlyChanges_ite _ (onlyChanges_refl _ _) ?_
  intro p hp
  cases p <;> first | rfl | simp at hp

theorem onlyChanges_landTile (s : State) (t : Fin 64) (f : Flg) (o : OpAt) : OnlyChanges [.plans, .ctr] s (landTile s t f o) := by
  have hcount : ∀ (v : State) pg i n, OnlyChanges [.plans, .ctr] v (count v pg i n) := fun v pg i n =>
    onlyChanges_mono (onlyChanges_count v pg i n) (by simp)
  have htile : ∀ x, OnlyChanges [.plans, .ctr] s (orOpen (setTile s t x) o.step o.replay f.recBits) := fun x =>
    onlyChanges_mono (onlyChanges_trans (onlyChanges_setTile s t x) (onlyChanges_orOpen _ _ _ _)) (by simp)
  exact onlyChanges_then (onlyChanges_then (onlyChanges_then (onlyChanges_then (onlyChanges_then (htile _) (hcount _ _ _ _))
    (hcount _ _ _ _)) (hcount _ _ _ _)) (hcount _ _ _ _)) (hcount _ _ _ _)

theorem onlyChanges_landFast (s : State) (q : Fin 4) (f : Flg) (o : OpAt) : OnlyChanges [.plans, .ctr] s (landFast s q f o) :=
  onlyChanges_mono (onlyChanges_trans (onlyChanges_trans (onlyChanges_trans (onlyChanges_count _ _ _ _)
    (onlyChanges_count _ _ _ _)) (onlyChanges_count _ _ _ _)) (onlyChanges_orOpen _ _ _ _)) (by simp)

theorem onlyChanges_landCell (s : State) (cell : Nat) (f : Flg) (c : BitVec 64) (t : Nat) :
    OnlyChanges [.plans, .ctr] s (landCell s cell f c t) :=
  onlyChanges_ite _ (onlyChanges_landFast _ _ _ _) (onlyChanges_landTile _ _ _ _)

/-- R64, R146: a contribution changes its cell alone, and where flags and counts land; its chunk joins the chunks taken, and the
values of a reduction join the accumulators. -/
theorem addContrib_cell (s : State) (x : Placed) (c : BitVec 64) (h : Header) (payload : Bytes) :
    let d := x.desc
    let per := d.inChunk / groupBytes d.inT * groupElems d.inT
    let i := h.chunkIndex.toNat
    let vs := (decodeElems d.strict d.inT (min per (elemsOf d x.inst - i * per)) payload).1
    let old := cellOf s d.cell
    ∃ cl, OnlyChanges [.plans, .ctr] (setCell s d.cell cl) (addContrib s x c h payload) ∧
      cl.taken = old.taken ++ [⟨h.member.toNat, i, crc64 payload⟩] ∧ cl.st = old.st ∧ cl.bound = old.bound ∧
      (d.coll ≠ 4 → cl.ins = old.ins ++ [(d.inT, i * per, vs)] ∧
        cl.acc = (addElems d.redOp d.strict old.acc (i * per) vs).1) := by
  simp only [addContrib]
  split
  next hgather => exact ⟨_, onlyChanges_refl _ _, List.concat_eq_append, rfl, rfl, fun hn => absurd hgather hn⟩
  next => exact ⟨_, onlyChanges_landCell _ _ _ _ _, List.concat_eq_append, rfl, rfl, fun _ => ⟨List.concat_eq_append, rfl⟩⟩

/-- Settles O26: the values join element by element, and the chunk's cell is the one that `addContrib` sets. -/
theorem contributionAdds : Obligations.ContributionAdds := by
  refine ⟨fun op strict acc lo vs => ⟨fun j hj => ?_, fun j hj => ?_⟩, fun s x c h payload t ht => ?_⟩
  · rw [mget?_addElems, if_pos (by omega), Nat.add_sub_cancel_left, joined]
    cases mget? acc (lo + j) <;> rfl
  · rw [mget?_addElems, if_neg (by omega)]
  · subst ht
    obtain ⟨cl, honly, htaken, hst, hbound, hred⟩ := addContrib_cell s x c h payload
    have hcell := cellOf_of_onlyChanges honly (by decide)
    refine ⟨?_, ?_, ?_, ?_, fun n hn => (hcell n).trans (cellOf_setCell_ne _ _ hn),
      onlyChanges_mono (onlyChanges_trans (onlyChanges_setCell _ _ _) honly) (by simp)⟩
    all_goals rw [hcell, cellOf_setCell]
    · exact htaken
    · exact hst
    · exact hbound
    · exact hred

/-! ## What an accepted CONTRIB answers -/

section
variable {s : State} {via : Via} {p : Packet} {k : Ctx} {u : State} (ha : Accepted s via p k u) (hop : p.hdr.opcode = 1)
include ha hop

omit hop in
theorem accepted_via : k.via = via := by
  obtain ⟨a, -, -, -, rfl, -⟩ := ha
  rfl

theorem exec_contrib : exec (.contrib via p) s = .next (settle k (contribCore k u)) := by
  have hserve : serve k u = contribCore k u := by simp [serve, Ctx.h, accepted_pkt ha, hop]
  exact congrArg Host.Outcome.next ((rowPacket_of_accepted ha (by simp [opIs, hop])).trans (by rw [hserve]))

/-- R81, R95: a CONTRIB of the attempt that runs, for an instance that the plan places here. -/
theorem exec_contrib_now {x : Placed} (hat : attempt u p.hdr.ciid = .now) (hx : findInst u p.hdr.ciid = some x) :
    exec (.contrib via p) s = .next (settle k (contribNow u x k)) := by
  rw [exec_contrib ha hop, contribCore, Ctx.h, accepted_pkt ha, hat, hx]

end

/-! ## What a contribution of the attempt that runs answers -/

/-- A cell is in use for an instance. -/
abbrev Own (s : State) (cell : Nat) (c : BitVec 64) : Prop := (cellOf s cell).st ≠ .free ∧ (cellOf s cell).ciid = c

theorem decide_own (s : State) (cell : Nat) (c : BitVec 64) :
    (decide ((cellOf s cell).st ≠ .free) && decide ((cellOf s cell).ciid = c)) = decide (Own s cell c) :=
  (Bool.decide_and _ _).symm

theorem own_of_holds {s : State} {cell : Nat} {c : BitVec 64} (h : Holds s cell c) : Own s cell c := ⟨h.1, h.2.1⟩

/-- The cell of a contribution's instance, with its rank bound to its source and stream. -/
def bound (s : State) (x : Placed) (k : Ctx) : State :=
  setCell s x.desc.cell (bindRank (cellOf s x.desc.cell) k.h.member.toNat (k.org, k.h.stream))

/-- R131: what a member of a failed instance is answered, by the decision. -/
def failedAnswer (v : State) (x : Placed) (k : Ctx) : Option CellSt → State × Disp
  | some st => (answerFailed v x k.h.ciid st k.h.member.toNat (k.org, k.h.stream), .done (errCode st))
  | none => (v, .taken)

section
variable {s : State} {x : Placed} {k : Ctx}

/-- R95: an instance harvested, whose cell is no longer its own, is unknown. -/
theorem contribNow_gone (hown : ¬Own s x.desc.cell k.h.ciid) (hh : (instRec s k.h.ciid).harvested = true)
    (hd : (instRec s k.h.ciid).decided = none) : contribNow s x k = (s, .refuse 0x220D) := by
  simp only [contribNow, decide_own]
  exact if_pos (by rw [hh, hd, decide_eq_false hown]; rfl)

/-- The instance of a contribution has its cell, has yet to be harvested, or has been decided. -/
def Known (s : State) (x : Placed) (c : BitVec 64) : Prop :=
  Own s x.desc.cell c ∨ (instRec s c).harvested = false ∨ (instRec s c).decided ≠ none

theorem not_gone {c : BitVec 64} (h : Known s x c) :
    ¬(!decide (Own s x.desc.cell c) && (instRec s c).harvested && (instRec s c).decided.isNone) = true := by
  rcases h with hown | hh | hd
  · simp [hown]
  · simp [hh]
  · simp [hd]

/-- R95: a rank beyond N. -/
theorem contribNow_beyond (h : Known s x k.h.ciid) (hr : x.desc.n ≤ k.h.member.toNat) :
    contribNow s x k = (s, .refuse 0x2206) := by
  simp only [contribNow, decide_own]
  rw [if_neg (not_gone h), if_pos hr]

/-- R95: a rank placed elsewhere. -/
theorem contribNow_elsewhere (h : Known s x k.h.ciid) (hr : k.h.member.toNat < x.desc.n)
    (hm : k.h.member.toNat ∉ x.desc.ranks) :
    contribNow s x k = (raiseCell s x.desc.cell 0x2501 0 k.h.ciid, .refuse 0x2501) := by
  simp only [contribNow, decide_own]
  rw [if_neg (not_gone h), if_neg (by omega), if_pos (by simpa using hm)]

section Placed
variable (hr : k.h.member.toNat < x.desc.n) (hm : k.h.member.toNat ∈ x.desc.ranks)
include hr hm

/-- R128, R131: a cell in an error state takes the chunk without adding it, and answers once the decision is known. -/
theorem contribNow_failed (hown : Own s x.desc.cell k.h.ciid) (he : isErr (cellOf s x.desc.cell).st = true) :
    contribNow s x k = failedAnswer (bound s x k) x k (instRec s k.h.ciid).decided := by
  simp only [contribNow, decide_own]
  rw [if_neg (not_gone (.inl hown)), if_neg (by omega), if_neg (by simpa using hm), if_pos (by simp [hown, he]),
    if_pos (decide_eq_true hown)]
  cases (instRec s k.h.ciid).decided <;> rfl

section InService
variable (h : Holds s x.desc.cell k.h.ciid ∨
  ¬Own s x.desc.cell k.h.ciid ∧ (instRec s k.h.ciid).harvested = false ∧ (instRec s k.h.ciid).decided = none)
include h

omit hr hm in
theorem inService : Known s x k.h.ciid ∧ ¬(decide (Own s x.desc.cell k.h.ciid) && isErr (cellOf s x.desc.cell).st ||
    !decide (Own s x.desc.cell k.h.ciid) && (instRec s k.h.ciid).decided.isSome) = true := by
  rcases h with hh | ⟨hown, hh, hd⟩
  · exact ⟨.inl (own_of_holds hh), by simp [own_of_holds hh, hh.2.2]⟩
  · exact ⟨.inr (.inl hh), by simp [hown, hd]⟩

/-- R95: a wrong chunk count or index. -/
theorem contribNow_badChunk (hc : k.h.chunkCount.toNat ≠ x.desc.inChunks ∨ x.desc.inChunks ≤ k.h.chunkIndex.toNat) :
    contribNow s x k = (s, .refuse 0x2207) := by
  obtain ⟨hknown, hlive⟩ := inService h
  simp only [contribNow, decide_own]
  rw [if_neg (not_gone hknown), if_neg (by omega), if_neg (by simpa using hm), if_neg hlive, if_pos (by simpa using hc)]

section Chunk
variable (hcount : k.h.chunkCount.toNat = x.desc.inChunks) (hidx : k.h.chunkIndex.toNat < x.desc.inChunks)
include hcount hidx

/-- R95: a wrong length. -/
theorem contribNow_badLength
    (hl : k.h.payloadLen.toNat ≠ min x.desc.inChunk (x.desc.inBytes - k.h.chunkIndex.toNat * x.desc.inChunk)) :
    contribNow s x k = (s, .refuse 0x2204) := by
  obtain ⟨hknown, hlive⟩ := inService h
  simp only [contribNow, decide_own]
  rw [if_neg (not_gone hknown), if_neg (by omega), if_neg (by simpa using hm), if_neg hlive,
    if_neg (by simp [hcount]; omega), if_pos hl]

variable (hl : k.h.payloadLen.toNat = min x.desc.inChunk (x.desc.inBytes - k.h.chunkIndex.toNat * x.desc.inChunk))
include hl

/-- R95, R122: a contribution that fits its instance is taken into the cell that holds it, or that its arming makes. -/
theorem contribNow_armed {v : State} (hv : v = s ∧ Holds s x.desc.cell k.h.ciid ∨
      (cellOf s x.desc.cell).st = .free ∧ fieldCause x.desc k.h = 0 ∧ arm s x k.h.ciid = some v) :
    contribNow s x k = contribArmed v x k := by
  obtain ⟨hknown, hlive⟩ := inService h
  simp only [contribNow, decide_own]
  rw [if_neg (not_gone hknown), if_neg (by omega), if_neg (by simpa using hm), if_neg hlive,
    if_neg (by simp [hcount]; omega), if_neg (by simp [hl])]
  rcases hv with ⟨rfl, hh⟩ | ⟨hf, hcause, ha⟩
  · exact if_pos (decide_eq_true (own_of_holds hh))
  · rw [if_neg (by simp [hf]), if_neg (by simp [hf]), if_neg (by simp [hcause]), ha]

end Chunk

end InService

end Placed

/-! ## A contribution whose cell is armed -/

/-- R129: a contribution of another descriptor, source, stream or content puts its cell in MISMATCH. -/
def misfits (s : State) (x : Placed) (k : Ctx) (cause : Nat) : State × Disp :=
  (mismatch (bound s x k) x k.h.ciid cause k.h.member.toNat, .taken)

/-- R64, R146: what a contribution that fits is answered, by what was taken of its chunk: added where it is new, dropped where it has
the same content, and in MISMATCH where it has another. -/
def byTaken (s : State) (x : Placed) (k : Ctx) : Option Taken → State × Disp
  | some t =>
    if t.check = crc64 k.pkt.payload then
      (repeatComplete (sendComplete (raiseCell s x.desc.cell 0x0101 0 k.h.ciid) k.org k.h 0x0101 []) x k.h.ciid k.h.member.toNat,
        .done 0x0101)
    else misfits s x k 3
  | none =>
    (tryHarvest (storePseudo (progress (addContrib (bound s x k) x k.h.ciid k.h k.pkt.payload) x k.h.ciid) x) x k.h.ciid, .taken)

theorem contribArmed_misfit (hcause : fieldCause x.desc k.h ≠ 0) :
    contribArmed s x k = misfits s x k (fieldCause x.desc k.h) := if_pos hcause

section Fits
variable (hcause : fieldCause x.desc k.h = 0)
include hcause

theorem contribArmed_stranger {b : Origin × BitVec 8} (hb : mget? (cellOf s x.desc.cell).bound k.h.member.toNat = some b)
    (hne : b ≠ (k.org, k.h.stream)) : contribArmed s x k = misfits s x k 4 := by
  simp only [contribArmed]
  rw [if_neg (by simp [hcause]), hb]
  exact if_pos (by simpa using hne)

omit hcause in
/-- R96: a rank bound to no other source or stream than a packet's is no stranger's. -/
theorem not_stranger (hdst : ∀ b, mget? (cellOf s x.desc.cell).bound k.h.member.toNat = some b → b = (k.org, k.h.stream))
    {b : Origin × BitVec 8} (hb : mget? (cellOf s x.desc.cell).bound k.h.member.toNat = some b) :
    ¬(b != (k.org, k.h.stream)) = true := by simp [hdst b hb]

/-- R64, R96: a contribution that fits its descriptor and its rank's binding is answered by what was taken of its chunk. -/
theorem contribArmed_fits
    (hdst : ∀ b, mget? (cellOf s x.desc.cell).bound k.h.member.toNat = some b → b = (k.org, k.h.stream)) :
    contribArmed s x k = byTaken s x k ((cellOf s x.desc.cell).taken.find?
      (fun t => t.member == k.h.member.toNat && t.chunk == k.h.chunkIndex.toNat)) := by
  have hfit : ¬fieldCause x.desc k.h ≠ 0 := not_not.2 hcause
  cases hb : mget? (cellOf s x.desc.cell).bound k.h.member.toNat with
  | none =>
    simp only [contribArmed, if_neg hfit, hb, Bool.false_eq_true, if_false]
    cases List.find? _ _ <;> rfl
  | some b =>
    simp only [contribArmed, if_neg hfit, hb, if_neg (not_stranger hdst hb)]
    cases List.find? _ _ <;> rfl

end Fits

end

/-! ## Mismatches (R129) -/

/-- R96: binding a rank leaves the rest of its cell. -/
theorem bindRank_keeps (cl : Cell) (rank : Nat) (dst : Origin × BitVec 8) :
    ∃ b, bindRank cl rank dst = { cl with bound := b } := by
  unfold bindRank
  split
  · exact ⟨cl.bound, rfl⟩
  · exact ⟨_, rfl⟩

theorem onlyChanges_enterError (s : State) (cell : Nat) (c : BitVec 64) (st : CellSt) (cause info : Nat) :
    OnlyChanges raisedParts (setCell s cell { cellOf s cell with
        st := st, ciid := c, remote := false, cause := if st = .mismatch then cause else 0,
        taint := if st = .tainted then cause else 0, recheck := false, ready := [] })
      (enterError s cell c st cause info) :=
  onlyChanges_then (onlyChanges_raiseSubj _ _ _ _ _ _)
    (onlyChanges_mono (onlyChanges_sendMaster _ _) (by simp [raisedParts]))

/-- R129: a cell in use for the instance goes to MISMATCH with the cause, and keeps what it has taken. -/
theorem mismatch_cell {s : State} {x : Placed} {c : BitVec 64} (h : Own s x.desc.cell c) (cause rank : Nat) :
    ∃ cl, OnlyChanges raisedParts (setCell s x.desc.cell cl) (mismatch s x c cause rank) ∧ cl.st = .mismatch ∧
      cl.cause = cause ∧ cl.taken = (cellOf s x.desc.cell).taken ∧ cl.acc = (cellOf s x.desc.cell).acc := by
  unfold mismatch
  dsimp only
  rw [if_neg (by simp [h.1, h.2])]
  exact ⟨_, onlyChanges_enterError _ _ _ _ _ _, rfl, rfl, rfl, rfl⟩

/-- R129: a contribution that misfits leaves its cell in MISMATCH with the cause, and every other cell as it was. -/
theorem settle_misfits {u : State} {x : Placed} {k : Ctx} (hown : Own u x.desc.cell k.h.ciid) (cause : Nat) :
    let t := settle k (misfits u x k cause)
    (cellOf t x.desc.cell).st = .mismatch ∧ (cellOf t x.desc.cell).cause = cause ∧
      (cellOf t x.desc.cell).taken = (cellOf u x.desc.cell).taken ∧
      (cellOf t x.desc.cell).acc = (cellOf u x.desc.cell).acc ∧ ∀ n, n ≠ x.desc.cell → cellOf t n = cellOf u n := by
  obtain ⟨b, hb⟩ := bindRank_keeps (cellOf u x.desc.cell) k.h.member.toNat (k.org, k.h.stream)
  have hbound : cellOf (bound u x k) x.desc.cell = { cellOf u x.desc.cell with bound := b } := by
    rw [bound, cellOf_setCell, hb]
  obtain ⟨cl, honly, hst, hcause, htaken, hacc⟩ := mismatch_cell (s := bound u x k) (x := x) (c := k.h.ciid)
    (by rw [Own, hbound]; exact hown) cause k.h.member.toNat
  have hcell : ∀ n, cellOf (settle k (misfits u x k cause)) n = cellOf (setCell (bound u x k) x.desc.cell cl) n := fun n =>
    (cellOf_of_onlyChanges (onlyChanges_settle k (misfits u x k cause)) (by decide) n).trans
      (cellOf_of_onlyChanges honly (by decide) n)
  rw [hbound] at htaken hacc
  simp only [hcell x.desc.cell, cellOf_setCell]
  refine ⟨hst, hcause, htaken, hacc, fun n hn => ?_⟩
  rw [hcell, cellOf_setCell_ne _ _ hn, bound, cellOf_setCell_ne _ _ hn]

/-- Settles O25: each clause is the contribution's answer by the rules above. -/
theorem contributionTaken : Obligations.ContributionTaken := by
  intro s via p k u ha hop
  obtain rfl := accepted_pkt ha
  have hexec := exec_contrib ha hop
  refine ⟨fun hat => ?_, fun hat hx => ?_, fun x hat hx => ?_⟩
  · rw [hexec, contribCore, Ctx.h, hat, accepted_via ha]
  · rw [hexec, contribCore, Ctx.h, hx]
    cases hc : attempt u k.pkt.hdr.ciid with
    | stale => exact absurd hc hat
    | now => rfl
    | later => rfl
  · have hnow := exec_contrib_now ha hop hat hx
    have hto : ∀ {r}, contribNow u x k = r → exec (.contrib via k.pkt) s = .next (settle k r) := fun h => h ▸ hnow
    refine ⟨fun hown hh hd => hto (contribNow_gone hown hh hd),
      fun hin => ⟨fun hr => hto (contribNow_beyond hin hr), fun hr hm => hto (contribNow_elsewhere hin hr hm)⟩,
      fun hr hm hown he => ?_, fun hr hm hin => ⟨fun hc => hto (contribNow_badChunk hr hm hin hc), fun hc hi =>
        ⟨fun hl => hto (contribNow_badLength hr hm hin hc hi hl), fun hl hcause v hv hdst hnew => ?_⟩⟩⟩
    · have hf := contribNow_failed hr hm hown he
      exact ⟨fun hd => hto (hf.trans (congrArg _ hd)), fun st hd => hto (hf.trans (congrArg _ hd))⟩
    · have hv' : v = u ∧ Holds u x.desc.cell k.h.ciid ∨
          (cellOf u x.desc.cell).st = .free ∧ fieldCause x.desc k.h = 0 ∧ arm u x k.h.ciid = some v :=
        hv.imp_right fun h => ⟨h.1, hcause, h.2⟩
      have hfind : (cellOf v x.desc.cell).taken.find?
          (fun t => t.member == k.h.member.toNat && t.chunk == k.h.chunkIndex.toNat) = none :=
        List.find?_eq_none.2 fun t ht => by simpa [Ctx.h] using fun hm' => not_and.1 (hnew t ht) hm'
      refine hto ((contribNow_armed hr hm hin hc hi hl hv').trans ((contribArmed_fits hcause hdst).trans ?_))
      rw [hfind]
      rfl

/-- Settles O27: the contribution reaches its armed cell, and misfits there or repeats a chunk taken. -/
theorem contributionMisfits : Obligations.ContributionMisfits := by
  intro s via p k u x ha hop hat hx c d rank idx cl hh hr hm hc hi hl ends
  obtain rfl := accepted_pkt ha
  have harmed := contribNow_armed (k := k) hr hm (.inl hh) hc hi hl (.inl ⟨rfl, hh⟩)
  have hto : ∀ {r}, contribArmed u x k = r → exec (.contrib via k.pkt) s = .next (settle k r) := fun h =>
    h ▸ harmed ▸ exec_contrib_now ha hop hat hx
  have hends : ∀ cause, contribArmed u x k = misfits u x k cause → ends cause := fun cause h =>
    ⟨_, hto h, settle_misfits (own_of_holds hh) cause⟩
  refine ⟨fun hcause => hends _ (contribArmed_misfit hcause), fun hcause b hb =>
    ⟨fun hne => hends _ (contribArmed_stranger hcause hb hne), fun he t ht => ?_⟩⟩
  have hfits : contribArmed u x k = byTaken u x k (some t) :=
    (contribArmed_fits hcause fun b' hb' => (Option.some.inj (hb'.symm.trans hb)).trans he).trans (congrArg _ ht)
  exact ⟨fun hne => hends _ (hfits.trans (if_neg hne)), fun heq => hto (hfits.trans (if_pos heq))⟩

end Sys2Proof.Contributions
end

section
/-! PROOFS. Packets under way: what answering leaves of the FENCEs, flights, held packets and pulls; FENCE (R69 to R71), and the
settlement of O21. -/
namespace Sys2Proof.PacketsUnderWay
open Sys2Proof Sys2Proof.Machine Sys2Proof.Laws Sys2Proof.AcceptedPackets

/-! ## What leaves the packets under way -/

/-- The FENCEs, with what each found, the packets under way and held, and the pulls are the same in two states. -/
structure SameTraffic (s t : State) : Prop where
  fences : t.fab.fences = s.fab.fences
  fwaits : t.fab.fwaits = s.fab.fwaits
  flights : t.fab.flights = s.fab.flights
  held : t.fab.held = s.fab.held
  pulls : t.fab.pulls = s.fab.pulls

namespace SameTraffic
variable {s t u : State}

theorem refl (s : State) : SameTraffic s s := ⟨rfl, rfl, rfl, rfl, rfl⟩

theorem trans (h : SameTraffic s t) (g : SameTraffic t u) : SameTraffic s u :=
  ⟨g.fences.trans h.fences, g.fwaits.trans h.fwaits, g.flights.trans h.flights, g.held.trans h.held, g.pulls.trans h.pulls⟩

theorem ite {c : Prop} [Decidable c] (h : SameTraffic s t) (g : SameTraffic s u) : SameTraffic s (if c then t else u) := by
  split
  · exact h
  · exact g

end SameTraffic

/-- What leaves the fabric state leaves the packets under way. -/
theorem sameTraffic_of_onlyChanges {ps : List Part} {s t : State} (h : OnlyChanges ps s t) (hf : Part.fab ∉ ps) :
    SameTraffic s t := by
  have hfab : t.fab = s.fab := h .fab hf
  exact ⟨by rw [hfab], by rw [hfab], by rw [hfab], by rw [hfab], by rw [hfab]⟩

theorem sameTraffic_putSrc (s : State) (x : Source) : SameTraffic s (putSrc s x) := ⟨rfl, rfl, rfl, rfl, rfl⟩

theorem sameTraffic_sendHdr (s : State) (org : Origin) (vc : Fvc) (h : Header) (b : Bytes) :
    SameTraffic s (sendHdr s org vc h b) := by
  cases org with
  | win q => exact sameTraffic_of_onlyChanges (onlyChanges_cqPush _ _) (by decide)
  | fabric ip id =>
    simp only [sendHdr]
    split
    · exact .refl s
    · exact (sameTraffic_putSrc _ _).trans (sameTraffic_of_onlyChanges (onlyChanges_egPush _ _ _ _ _) (by decide))

theorem sameTraffic_sendTo (s : State) (org : Origin) (vc : Fvc) (h : Header) (b : Bytes) :
    SameTraffic s (sendTo s org vc h b) := sameTraffic_sendHdr _ _ _ _ _

theorem sameTraffic_sendComplete (s : State) (org : Origin) (h : Header) (st : Nat) (b : Bytes) :
    SameTraffic s (sendComplete s org h st b) := sameTraffic_sendHdr _ _ _ _ _

theorem sameTraffic_raise (s : State) (pg : PageId) (code info : Nat) : SameTraffic s (raise s pg code info) :=
  sameTraffic_of_onlyChanges (onlyChanges_raise s pg code info) (by decide)

theorem sameTraffic_updCredit (s : State) (org : Origin) (vc : Fvc) (f : Credit → Credit) :
    SameTraffic s (updCredit s org vc f) := by
  unfold updCredit
  split
  · exact sameTraffic_putSrc _ _
  · exact .refl s

theorem sameTraffic_released (k : Ctx) (s : State) : SameTraffic s (released k s) :=
  .ite (.refl s) (sameTraffic_updCredit _ _ _ _)

theorem sameTraffic_reportHalf (s : State) (org : Origin) (vc : Fvc) : SameTraffic s (reportHalf s org vc) := by
  unfold reportHalf
  split
  · exact .ite (sameTraffic_sendTo _ _ _ _ _) (.refl s)
  · exact .refl s

theorem sameTraffic_creditStep (s : State) (org : Origin) (h : Header) (cost : Nat) :
    SameTraffic s (creditStep s org h cost).1 := by
  fun_cases creditStep with
  | case5 => exact sameTraffic_putSrc _ _
  | _ => exact .refl s

theorem sameTraffic_ingress {s a : State} {via : Via} {p : Packet} (h : ingress s via p = some a) : SameTraffic s a := by
  cases via with
  | window q => cases h; exact .refl s
  | fabric d =>
    have hpol := sameTraffic_of_onlyChanges (onlyChanges_policeIn s d.port (p.hdr.vc.toNat % 4)
      (wireSize (isV6 d.ip) d.tagged (d.udpLen - 8))) (by decide)
    have hfree : ∀ v org, SameTraffic v (countFree v org) := fun v org => ⟨rfl, rfl, rfl, rfl, rfl⟩
    simp only [ingress] at h
    split at h
    · cases h
    · split at h
      · cases h
      · split at h
        · cases h; exact hpol
        · split at h
          · cases h; exact hpol.trans (hfree _ _)
          · cases h

/-! ## FENCE: its acceptance (R69) -/

section
variable {s : State} {via : Via} {p : Packet} {k : Ctx} {u : State} (ha : Accepted s via p k u)
include ha

/-- R69: what an accepted packet finds: the FENCEs as they were, and for a FENCE the packets that have not reached its scope. -/
theorem accepted_traffic : u.fab.fences = s.fab.fences ∧ (p.hdr.opcode = 2 →
    (mget u.fab.fwaits k.seq ([], 0)).1 = (s.fab.flights.filter (fun x => x.org == k.org && x.stream == p.hdr.stream &&
      (if p.hdr.aux.toNat = 0 then !x.accepted else !x.done))).map (·.seq)) := by
  obtain ⟨a, hin, -, -, rfl, -, rfl, -⟩ := ha
  have hcredit := (sameTraffic_ingress hin).trans (sameTraffic_creditStep a (originOf via p.hdr) p.hdr
    (Ctx.cost ⟨via, originOf via p.hdr, p, a.fab.seq⟩))
  have hrel := fun v => sameTraffic_released ⟨via, originOf via p.hdr, p, a.fab.seq⟩ v
  refine ⟨(hrel _).fences.trans hcredit.fences, fun hop => ?_⟩
  rw [(hrel _).fwaits, ← hcredit.flights]
  simp only [newFlight, Ctx.h, hop, if_true, mget_mset_same]
  rfl

/-- R69: an accepted FENCE of a defined scope is served as its packet. -/
theorem exec_fence (hop : p.hdr.opcode = 2) {c : Instr} (hc : c = .fenceAccept via p ∧ p.hdr.aux = 0 ∨
      c = .fenceComplete via p ∧ p.hdr.aux = 1 ∨ c = .fenceStep via p ∧ p.hdr.aux = 2) :
    exec c s = .next (settle k (fenceCore k u)) := by
  have hserve : serve k u = fenceCore k u := by simp [serve, Ctx.h, accepted_pkt ha, hop]
  have hrow : ∀ {row : Header → Bool}, row p.hdr = true → rowPacket row via p s = settle k (fenceCore k u) := fun h =>
    (rowPacket_of_accepted ha h).trans (by rw [hserve])
  rcases hc with ⟨rfl, haux⟩ | ⟨rfl, haux⟩ | ⟨rfl, haux⟩
  · exact congrArg Host.Outcome.next (hrow (by simp [opIs, hop, haux]))
  · exact congrArg Host.Outcome.next (hrow (by simp [qtyIs, opIs, hop, haux]))
  · exact congrArg Host.Outcome.next (hrow (by simp [qtyIs, opIs, hop, haux]))

end

/-- R106: a CREDIT packet goes to a fabric source: it changes the source's counts and a port's queues. -/
theorem onlyChanges_sendCredit (s : State) (ip : BitVec 128) (id : BitVec 16) (vc : Fvc) (stream : BitVec 8) (tag : BitVec 32) :
    OnlyChanges [.fab, .egress] s (sendCredit s ip id vc stream tag) := by
  simp only [sendCredit, sendTo, sendHdr]
  split
  · exact onlyChanges_refl _ _
  · exact onlyChanges_trans (onlyChanges_putSrc _ _) (onlyChanges_egPush _ _ _ _ _)

/-- R106: a packet taken reports its credits and leaves the FENCEs. -/
theorem settle_taken (k : Ctx) (s : State) : OnlyChanges [.fab, .egress] s (settle k (s, .taken)) ∧
    (settle k (s, .taken)).fab.fences = s.fab.fences := by
  have hreport : OnlyChanges [.fab, .egress] s (reportHalf s k.org k.vc) := by
    unfold reportHalf
    split
    · exact onlyChanges_ite _ (onlyChanges_sendCredit _ _ _ _ _ _) (onlyChanges_refl _ _)
    · exact onlyChanges_refl _ _
  have htraffic : SameTraffic s (if k.cost = 0 then s else reportHalf s k.org k.vc) :=
    .ite (.refl s) (sameTraffic_reportHalf _ _ _)
  exact ⟨onlyChanges_mono (onlyChanges_trans (onlyChanges_ite _ (onlyChanges_refl _ _) hreport) (onlyChanges_fab _ _)) (by simp),
    htraffic.fences⟩

/-! ## FENCE: its end (R71) -/

/-- R71: a FENCE that ends leaves the list, and the packets held stay. -/
theorem fenceEnd_fab (s : State) (f : Fence) : (fenceEnd s f).fab.fences = s.fab.fences.filter (fun x => x.seq != f.seq) ∧
    (fenceEnd s f).fab.held = s.fab.held := by
  have hraise : SameTraffic s (if fenceStatus s f ≠ 0 then raise s (viaPage f.via) (fenceStatus s f) 0 else s) :=
    .ite (sameTraffic_raise _ _ _ _) (.refl s)
  have hsend := hraise.trans (sameTraffic_sendComplete _ f.org f.hdr (fenceStatus s f) [])
  exact ⟨congrArg (List.filter _) hsend.fences, hsend.held⟩

/-- Settles O21: a FENCE by what its packet found, and FENCE_DONE by whether that has reached its scope. -/
theorem fences : Obligations.Fences := by
  refine ⟨fun s via p k u c ha hop hc => ?_, fun s org stream f hf => ⟨fun hr => ⟨?_, fun g hg => ?_⟩, fun hr => ?_⟩⟩
  · obtain ⟨hfences, hwaits⟩ := accepted_traffic ha
    obtain ⟨honly, hkept⟩ := settle_taken k (fenceCore k u).1
    have hh : k.h = p.hdr := congrArg Packet.hdr (accepted_pkt ha)
    refine ⟨_, exec_fence ha hop hc, _, hkept.trans (congrArg (· ++ _) hfences), rfl, congrArg Header.stream hh,
      congrArg (fun h : Header => h.aux.toNat) hh, rfl, hh, hwaits hop, ?_⟩
    exact onlyChanges_mono (onlyChanges_trans (onlyChanges_trans (onlyChanges_accepted ha) (onlyChanges_fab u _)) honly) (by simp)
  · change execFenceDone org stream s = _
    rw [execFenceDone, hf, ← (fenceEnd_fab s f).2]
    exact congrArg Host.Outcome.next (if_pos hr)
  · rw [(fenceEnd_fab s f).1] at hg
    simpa using (List.mem_filter.1 hg).2
  · change execFenceDone org stream s = _
    rw [execFenceDone, hf]
    exact congrArg Host.Outcome.next (if_neg (by simp [hr]))

end Sys2Proof.PacketsUnderWay
end

section
/-! PROOFS. Reads of weights, momentum and epochs (R74, R77, R100, R101, R240, R255, R264), and the settlement of O41. -/
namespace Sys2Proof.StateReading
open Sys2Proof Sys2Proof.Machine Sys2Proof.Laws Sys2Proof.AcceptedPackets Sys2Proof.PacketsUnderWay

/-! ## The refusal of an epoch (R77) -/

section
variable {j : Job} {e : Nat} (hlost : j.lost = false)
include hlost

theorem epochRefusal_future (h : j.epoch < e) : epochRefusal j e = 0x2102 := by
  simp [epochRefusal, hlost, h]

theorem epochRefusal_retired (h : e < j.epoch) (hr : ¬(e + 1 = j.epoch ∧ j.prev = true)) : epochRefusal j e = 0x2101 := by
  simp only [epochRefusal, hlost]
  simp [show ¬ e > j.epoch by omega, show e ≠ j.epoch by omega, hr]

theorem epochRefusal_readable (h : e = j.epoch ∨ e + 1 = j.epoch ∧ j.prev = true) : epochRefusal j e = 0 := by
  simp only [epochRefusal, hlost]
  simp [show ¬ e > j.epoch by omega, h]

end

/-! ## The functions of the requests, case by case -/

/-- R255: a gateway that has taken the tag of its next FETCH. -/
def nextTag (s : State) : State := { s with stTag := (s.stTag + 1) % 2 ^ 32 }

/-- R101: the epochs of a job that is not lost. -/
theorem readEpoch_kept {k : Ctx} {s : State} (hlost : (jobOf s (ciidJob k.h.ciid)).lost = false) :
    readEpoch k s = completeNow s k (beBytes 4 (jobOf s (ciidJob k.h.ciid)).epoch ++
      beBytes 4 (if (jobOf s (ciidJob k.h.ciid)).prev then (jobOf s (ciidJob k.h.ciid)).epoch - 1
        else (jobOf s (ciidJob k.h.ciid)).epoch) ++ beBytes 8 (jobOf s (ciidJob k.h.ciid)).switchSf) := by
  simp [readEpoch, completeNow, hlost]

section
variable {k : Ctx} {s : State} {m : Matrix}
  (hlost : (jobOf s (ciidJob k.h.ciid)).lost = false)
  (hm : matrixOf s (ciidJob k.h.ciid) k.h.arg1.toNat = some m)
include hlost hm

section
variable (ht : k.h.elemType.toNat = m.delivType)
  (hrange : k.h.chunkIndex.toNat + k.h.chunkCount.toNat ≤ matChunks m m.delivType)
include ht hrange

section
variable (hsrv : serverOf s m = gw s) (hhome : m.home = gw s)
include hsrv hhome

/-- R77: a weight pull at the home, which serves its matrix, of an epoch that is refused. -/
theorem weightPull_refused {code : Nat} (hbad : epochRefusal (jobOf s (ciidJob k.h.ciid)) k.h.arg0.toNat = code)
    (hcode : code ≠ 0) : weightPull k s = (raise s (viaPage k.via) code 0, .refuse code) := by
  simp [weightPull, hm, ht, Nat.not_lt.2 hrange, hlost, hsrv, hhome, hbad, hcode, refuseEpoch]

variable (hok : epochRefusal (jobOf s (ciidJob k.h.ciid)) k.h.arg0.toNat = 0)
include hok

/-- R255: a weight pull at the home of a readable epoch that has no image is served from the home's bank. -/
theorem weightPull_bank (himg : imageFor s (ciidJob k.h.ciid) m.matrix k.h.arg0.toNat = none) : weightPull k s =
    (serveNow s (newPull k s .weight 1 m.matrix k.h.arg0.toNat) (bankChunk s m (homeBank m k.h.arg0.toNat)), .taken) := by
  simp [weightPull, hm, ht, Nat.not_lt.2 hrange, hlost, hsrv, hhome, hok, himg]

/-- R264: a weight pull at the home of a readable epoch with an image in force is served from the image. -/
theorem weightPull_image {img : Image} (himg : imageFor s (ciidJob k.h.ciid) m.matrix k.h.arg0.toNat = some img) :
    weightPull k s =
      (driveAll (addPull s { newPull k s .weight 1 m.matrix k.h.arg0.toNat with img := some img.id }), .taken) := by
  simp [weightPull, hm, ht, Nat.not_lt.2 hrange, hlost, hsrv, hhome, hok, himg]

end

/-- R255: a weight pull of a matrix that another gateway serves asks that gateway with a FETCH. -/
theorem weightPull_away (hsrv : serverOf s m ≠ gw s) : weightPull k s =
    (fetchRange (addPull (nextTag s) { newPull k s .weight 1 m.matrix k.h.arg0.toNat with fetchTag := some (nextTag s).stTag })
      (serverOf s m) (ciidJob k.h.ciid) m.delivType k.h.arg0.toNat m.matrix 1 k.h.chunkIndex.toNat k.h.chunkCount.toNat
      (nextTag s).stTag, .taken) := by
  simp [weightPull, hm, ht, Nat.not_lt.2 hrange, hlost, hsrv]
  rfl

end

/-! ### State reads (R240, R264) -/

section
variable (hhome : m.home = gw s)
include hhome

omit hlost in
/-- R240: a state request of a matrix homed here, in the type of its column, has its matrix. -/
theorem stateMatrix_home {ty : Matrix → Nat} (ht : k.h.elemType.toNat = ty m) : stateMatrix k s ty = .inl m := by
  simp [stateMatrix, hm, hhome, ht]

/-- R240: the weights of a readable epoch are read from the home's bank. -/
theorem readWeights_bank (ht : k.h.elemType.toNat = m.wType)
    (hok : epochRefusal (jobOf s (ciidJob k.h.ciid)) k.h.arg0.toNat = 0)
    (hrange : k.h.chunkIndex.toNat + k.h.chunkCount.toNat ≤ recChunks m.wType (m.rows * m.cols)) : readWeights k s =
      (serveNow s (newPull k s .mgmt 1 m.matrix k.h.arg0.toNat) (fun i =>
        memBytes s.mem (homeBank m k.h.arg0.toNat + i * recChunk m.wType) (chunkLen m.wType (m.rows * m.cols) i)), .taken) := by
  rw [readWeights, readQty, stateMatrix_home hm hhome (by simpa using ht)]
  simp [hlost, hok, Nat.not_lt.2 hrange]

/-- R240: the momentum of the current epoch is read from the home's area, outside an outer step. -/
theorem readMomentum_area (ht : k.h.elemType.toNat = 1) (he : k.h.arg0.toNat = (jobOf s (ciidJob k.h.ciid)).epoch)
    (houter : (jobOf s (ciidJob k.h.ciid)).outer = none) (hrule : m.rule ≠ 1)
    (hrange : k.h.chunkIndex.toNat + k.h.chunkCount.toNat ≤ recChunks 1 (m.rows * m.cols)) : readMomentum k s =
      (serveNow s (newPull k s .mgmt 2 m.matrix k.h.arg0.toNat) (fun i =>
        memBytes s.mem (m.hM + i * recChunk 1) (chunkLen 1 (m.rows * m.cols) i)), .taken) := by
  rw [readMomentum, readQty, stateMatrix_home hm hhome (by simpa using ht)]
  simp [hlost, epochRefusal_readable hlost (.inl rfl), he, houter, hrule, Nat.not_lt.2 hrange]

/-- R264: the blocks of the image in force are read as they were written. -/
theorem readBlocks_image (ht : k.h.elemType.toNat = m.delivType) {img : Image}
    (himg : imageFor s (ciidJob k.h.ciid) m.matrix k.h.arg0.toNat = some img)
    (hrange : k.h.chunkIndex.toNat + k.h.chunkCount.toNat ≤ cdiv (img.blocks.flatMap id).length 8192) : readBlocks k s =
      (serveNow s { newPull k s .mgmt 4 m.matrix k.h.arg0.toNat with img := some img.id }
        (fun i => slice (img.blocks.flatMap id) (8192 * i) 8192), .taken) := by
  rw [readBlocks, stateMatrix_home hm hhome ht]
  simp only [hlost, himg, Bool.false_eq_true, if_false, if_neg (Nat.not_lt.2 hrange)]

end
end

/-! ## The commands -/

/-- What a command settles, by what its function returns. -/
theorem settles {c : Instr} {s : State} {k : Ctx} {r r' : State × Disp} (h : exec c s = .next (settle k r)) (hr : r = r') :
    exec c s = .next (settle k r') := hr ▸ h

section
variable {s : State} {via : Via} {p : Packet} {k : Ctx} {u : State} (ha : Accepted s via p k u)
include ha

theorem exec_readEpoch (hop : p.hdr.opcode = 5) : exec (.readEpoch via p) s = .next (settle k (readEpoch k u)) :=
  congrArg Host.Outcome.next (ImagesAndModes.boot_row ha (op := 5) (by simp [hop]) fun h => by simp only [serve, h])

theorem exec_weightPull (hop : p.hdr.opcode = 6) : exec (.weightPull via p) s = .next (settle k (weightPull k u)) :=
  congrArg Host.Outcome.next (ImagesAndModes.boot_row ha (op := 6) (by simp [hop]) fun h => by simp only [serve, h])

/-- R240: an accepted STATE_READ is served by its quantity code. -/
theorem stateRead_row (hop : p.hdr.opcode = 9) {qty : Nat} (hqty : p.hdr.aux.toNat = qty) :
    rowPacket (qtyIs 9 qty) via p s = settle k (stateReadCore k u) := by
  rw [rowPacket_of_accepted ha (by simp [qtyIs, opIs, hop, hqty])]
  simp [serve, Ctx.h, accepted_pkt ha, hop]

theorem exec_stateReadWeights (hop : p.hdr.opcode = 9) (hqty : p.hdr.aux = 1) :
    exec (.stateReadWeights via p) s = .next (settle k (readWeights k u)) :=
  congrArg Host.Outcome.next ((stateRead_row ha hop (by simp [hqty])).trans (by simp [stateReadCore, Ctx.h, accepted_pkt ha, hqty]))

theorem exec_stateReadMomentum (hop : p.hdr.opcode = 9) (hqty : p.hdr.aux = 2) :
    exec (.stateReadMomentum via p) s = .next (settle k (readMomentum k u)) :=
  congrArg Host.Outcome.next ((stateRead_row ha hop (by simp [hqty])).trans (by simp [stateReadCore, Ctx.h, accepted_pkt ha, hqty]))

theorem exec_stateReadWeightBlocks (hop : p.hdr.opcode = 9) (hqty : p.hdr.aux = 4) :
    exec (.stateReadWeightBlocks via p) s = .next (settle k (readBlocks k u)) :=
  congrArg Host.Outcome.next ((stateRead_row ha hop (by simp [hqty])).trans (by simp [stateReadCore, Ctx.h, accepted_pkt ha, hqty]))

end

/-! ## A pull served at once (R100) -/

/-- R100: a chunk of a pull as it stands once it has been sent, in the bytes that `f` gives its index. -/
def sentChunk (f : Nat → Bytes) (sf : Nat) (o : OwedChunk) : OwedChunk :=
  { o with bytes := f o.idx, ready := true, sends := 1, sf := sf }

section
variable {s : State} {old : List Pull} {q : Pull} (hpulls : s.fab.pulls = old ++ [q]) (hold : ∀ y ∈ old, y.seq ≠ q.seq)
include hpulls hold

/-- The last pull is found by its number. -/
theorem find_last : s.fab.pulls.find? (fun p => p.seq == q.seq) = some q := by
  rw [hpulls, List.find?_append, List.find?_eq_none.2 (by simpa using hold)]
  simp

/-- The last pull is the one that a change by its number changes. -/
theorem pulls_putPull {q' : Pull} (hseq : q'.seq = q.seq) : (putPull s q').fab.pulls = old ++ [q'] := by
  have hkeep : old.map (fun y => if y.seq = q.seq then q' else y) = old :=
    (List.map_congr_left fun y hy => if_neg (hold y hy)).trans (List.map_id old)
  simp [putPull, hpulls, hkeep, hseq]

variable (hpeer : q.peer = none)
include hpeer

/-- R100: a chunk that is pushed replaces the pull's chunk of its index. -/
theorem pushChunk_pulls (o : OwedChunk) :
    (pushChunk s q.seq o).fab.pulls = old ++ [{ q with chunks := (q.chunks.map fun y =>
      if y.idx = o.idx then { o with ready := true, sends := 1, sf := s.sf } else y) }] ∧
    (pushChunk s q.seq o).sf = s.sf := by
  simp only [pushChunk, find_last hpulls hold, hpeer]
  exact ⟨(sameTraffic_sendTo _ _ _ _ _).pulls.trans (pulls_putPull hpulls hold rfl),
    onlyChanges_sendTo _ _ _ _ _ .sf (by decide)⟩

end

/-- R100: pushing the chunks of a pull one after another sends each once. -/
theorem pushAll_pulls {old : List Pull} (f : Nat → Bytes) (l : List OwedChunk) : ∀ (s : State) (q : Pull) (gone : List _),
    s.fab.pulls = old ++ [q] → (∀ y ∈ old, y.seq ≠ q.seq) → q.peer = none → q.chunks = gone ++ l →
    (q.chunks.map (·.idx)).Nodup →
    (l.foldl (fun s o => pushChunk s q.seq { o with bytes := f o.idx }) s).fab.pulls =
      old ++ [{ q with chunks := gone ++ l.map (sentChunk f s.sf) }] := by
  induction l with
  | nil => exact fun s q gone hpulls _ _ hchunks _ => by simpa [← hchunks] using hpulls
  | cons o l ih =>
    intro s q gone hpulls hold hpeer hchunks hnodup
    obtain ⟨hpushed, hsf⟩ := pushChunk_pulls hpulls hold hpeer { o with bytes := f o.idx }
    have hothers : ∀ y ∈ gone ++ l, y.idx ≠ o.idx := by
      rw [hchunks, List.map_append, List.map_cons, List.nodup_middle, List.nodup_cons] at hnodup
      exact fun y hy he => hnodup.1 (he ▸ List.map_append .. ▸ List.mem_map_of_mem hy)
    have hmap : q.chunks.map (fun y => if y.idx = o.idx then sentChunk f s.sf o else y) =
        (gone ++ [sentChunk f s.sf o]) ++ l := by
      have hkeep : ∀ x ⊆ gone ++ l, x.map (fun y => if y.idx = o.idx then sentChunk f s.sf o else y) = x := fun x hx =>
        (List.map_congr_left fun y hy => if_neg (hothers y (hx hy))).trans (List.map_id x)
      simp [hchunks, hkeep gone (by simp), hkeep l (by simp)]
    have hnodup' : (((gone ++ [sentChunk f s.sf o]) ++ l).map (·.idx)).Nodup := by
      simpa [hchunks, sentChunk] using hnodup
    have hrest := ih _ { q with chunks := (gone ++ [sentChunk f s.sf o]) ++ l } (gone ++ [sentChunk f s.sf o])
      (hpushed.trans (by rw [← hmap]; rfl)) hold hpeer rfl hnodup'
    rw [hsf] at hrest
    simpa using hrest

/-- R100: a pull whose every chunk has gone, one of them not acknowledged, is completed and kept. -/
theorem closePull_sent {s : State} {old : List Pull} {q : Pull} (hpulls : s.fab.pulls = old ++ [q])
    (hold : ∀ y ∈ old, y.seq ≠ q.seq) (hpeer : q.peer = none) (hopen : q.completed = false)
    (hsent : ∀ o ∈ q.chunks, 0 < o.sends) (howed : ∃ o ∈ q.chunks, o.acked = false) :
    { q with completed := true } ∈ (closePull s q.seq).fab.pulls := by
  have hall : q.chunks.all (fun o => o.sends > 0) = true := by simpa using hsent
  have hnot : q.chunks.all (fun o => o.acked) = false := by simpa using howed
  have hput := (sameTraffic_sendComplete _ q.org q.hdr q.status []).pulls.trans
    (pulls_putPull hpulls hold (q' := { q with completed := true }) rfl)
  rw [hpeer] at hput
  simp only [closePull, find_last hpulls hold, hopen, hall, hpeer, Bool.not_true, Bool.or_false, Bool.false_eq_true, if_false]
  refine List.mem_filter.2 ⟨?_, by simp [hnot]⟩
  exact hput ▸ List.mem_append_right _ (List.mem_singleton.2 rfl)

/-- R100: a pull whose chunks are at hand has sent every chunk once and is completed. -/
theorem serveNow_sent {s : State} {p : Pull} (f : Nat → Bytes) (hpeer : p.peer = none) (hopen : p.completed = false)
    (hne : p.chunks ≠ []) (hnodup : (p.chunks.map (·.idx)).Nodup) (howed : ∀ o ∈ p.chunks, o.acked = false)
    (hold : ∀ y ∈ s.fab.pulls, y.seq ≠ p.seq) :
    { p with chunks := p.chunks.map (sentChunk f s.sf), completed := true } ∈ (serveNow s p f).fab.pulls := by
  have hall := pushAll_pulls f p.chunks (addPull s p) p [] rfl hold hpeer rfl hnodup
  obtain ⟨o, ho⟩ := List.exists_mem_of_ne_nil _ hne
  refine closePull_sent (q := { p with chunks := p.chunks.map (sentChunk f s.sf) }) hall hold hpeer hopen ?_
    ⟨_, List.mem_map_of_mem ho, howed o ho⟩
  simp only [List.mem_map]
  rintro - ⟨o, -, rfl⟩
  exact Nat.zero_lt_one

/-- Settles O41: reads by their requests' functions, and a pull served at once chunk by chunk. -/
theorem stateReads : Obligations.StateReads := by
  refine ⟨fun s via p k u ha => ?_, fun s p f hpeer hopen hne hnodup howed hold =>
    ⟨_, serveNow_sent f hpeer hopen hne hnodup howed hold, rfl, rfl, by simp [sentChunk]⟩⟩
  obtain rfl := accepted_pkt ha
  obtain rfl := Contributions.accepted_via ha
  refine ⟨fun hop hlost => ?_, fun m hlost hm => ⟨fun hop ht hrange => ⟨fun hsrv hhome => ⟨fun he => ?_, fun he hr => ?_,
    fun he => ⟨fun himg => ?_, fun img himg => ?_⟩⟩, fun hsrv => ?_⟩, fun hop hhome =>
    ⟨fun hq ht he hrange => ?_, fun hq ht he houter hrule hrange => ?_, fun hq ht img himg hrange => ?_⟩⟩⟩
  · exact settles (exec_readEpoch ha hop) (readEpoch_kept hlost)
  · exact settles (exec_weightPull ha hop)
      (weightPull_refused hlost hm ht hrange hsrv hhome (epochRefusal_future hlost he) (by decide))
  · exact settles (exec_weightPull ha hop)
      (weightPull_refused hlost hm ht hrange hsrv hhome (epochRefusal_retired hlost he hr) (by decide))
  · exact settles (exec_weightPull ha hop) (weightPull_bank hlost hm ht hrange hsrv hhome (epochRefusal_readable hlost he) himg)
  · exact settles (exec_weightPull ha hop) (weightPull_image hlost hm ht hrange hsrv hhome (epochRefusal_readable hlost he) himg)
  · exact settles (exec_weightPull ha hop) (weightPull_away hlost hm ht hrange hsrv)
  · exact settles (exec_stateReadWeights ha hop hq) (readWeights_bank hlost hm hhome ht (epochRefusal_readable hlost he) hrange)
  · exact settles (exec_stateReadMomentum ha hop hq) (readMomentum_area hlost hm hhome ht he houter hrule hrange)
  · exact settles (exec_stateReadWeightBlocks ha hop hq) (readBlocks_image hlost hm hhome ht himg hrange)

end Sys2Proof.StateReading
end

section
/-! PROOFS. Commit, READY, publish and the epoch switch (R74, R76, R79, R239, R248, R253, R254): what the master's and the
gateways' steps leave, and the settlement of O44. -/
namespace Sys2Proof.CommitsAndEpochs
open Sys2Proof Sys2Proof.Machine Sys2Proof.Laws Sys2Proof.AcceptedPackets Sys2Proof.RaisedCodes

/-! ## Errors stay seen -/

/-- What changes some parts of the state and keeps every error class seen. -/
structure KeepsSeen (ps : List Part) (s t : State) : Prop where
  only : OnlyChanges ps s t
  seen : ∀ pg i, (pageOf s pg).classSeen.getLsbD i = true → (pageOf t pg).classSeen.getLsbD i = true

namespace KeepsSeen
variable {ps : List Part} {s t u : State}

theorem refl (s : State) : KeepsSeen ps s s := ⟨onlyChanges_refl _ _, fun _ _ h => h⟩

theorem trans (h : KeepsSeen ps s t) (g : KeepsSeen ps t u) : KeepsSeen ps s u :=
  ⟨onlyChanges_then h.only g.only, fun pg i x => g.seen pg i (h.seen pg i x)⟩

theorem ite {c : Prop} [Decidable c] (h : KeepsSeen ps s t) (g : KeepsSeen ps s u) : KeepsSeen ps s (if c then t else u) := by
  split
  · exact h
  · exact g

theorem foldl {α : Type} {f : State → α → State} (h : ∀ s a, KeepsSeen ps s (f s a)) (l : List α) (s : State) :
    KeepsSeen ps s (l.foldl f s) := by
  induction l generalizing s with
  | nil => exact refl s
  | cons a l ih => exact (h s a).trans (ih _)

/-- What leaves the pages keeps the error classes seen. -/
theorem of_only {qs : List Part} (h : OnlyChanges qs s t) (hsub : ∀ p ∈ qs, p ∈ ps) (hpg : Part.pages ∉ qs) : KeepsSeen ps s t := by
  have hpages : t.pages = s.pages := h .pages hpg
  exact ⟨onlyChanges_mono h hsub, fun pg i x => by rwa [pageOf, hpages]⟩

theorem of_raises (h : Raises s t) (hsub : ∀ p ∈ raisedParts, p ∈ ps) : KeepsSeen ps s t := ⟨onlyChanges_mono h.only hsub, h.seen⟩

end KeepsSeen

/-! ## What the master's messages leave -/

theorem onlyChanges_foldl {ps : List Part} {α : Type} {f : State → α → State} (h : ∀ s a, OnlyChanges ps s (f s a)) (l : List α)
    (s : State) : OnlyChanges ps s (l.foldl f s) := by
  induction l generalizing s with
  | nil => exact onlyChanges_refl _ s
  | cons a l ih => exact onlyChanges_then (h s a) (ih _)

/-- R426: a message relayed enters queues of links and of the site fabric. -/
theorem onlyChanges_flood (s : State) (m : Msg) (via : RecVia) : OnlyChanges [.egress, .lineTx] s (flood s m via) :=
  onlyChanges_then
    (onlyChanges_foldl (fun s l => onlyChanges_mono (onlyChanges_sendLink s l m) (by simp)) _ s)
    (onlyChanges_foldl (fun s g => onlyChanges_mono (onlyChanges_sendSite s g m) (by simp)) _ _)

theorem onlyChanges_masterSends (s : State) (m : Msg) : OnlyChanges [.rseq, .egress, .lineTx] s (masterSends s m) :=
  onlyChanges_mono (onlyChanges_trans (onlyChanges_flood s m .own) (MgmtFunctions.onlyChanges_rseq _ _)) (by simp)

/-- R426: the master owes itself what it sends. -/
theorem mem_loop_masterSends (s : State) (m : Msg) : m ∈ (masterSends s m).rseq.loop :=
  List.mem_append_right _ (List.mem_singleton.2 rfl)

theorem raises_masterSends (s : State) (m : Msg) : Raises s (masterSends s m) :=
  raises_of_onlyChanges (onlyChanges_masterSends s m) (by decide) (by decide) (by decide)

theorem raises_rseq (s : State) (r : Rseq) : Raises s { s with rseq := r } :=
  raises_of_onlyChanges (MgmtFunctions.onlyChanges_rseq s r) (by decide) (by decide) (by decide)

/-- R436: a roster entry set keeps the errors seen. -/
theorem raises_setRoster (s : State) (g : Nat) (e : RosterEnt) : Raises s (setRoster s g e) :=
  have hfld : ∀ t off bank hi lo v, Raises t (setFldB t .rseq off bank hi lo v) := fun _ _ _ _ _ _ => raises_setPage nofun fun _ x => x
  (((hfld s _ _ _ _ _).trans (hfld _ _ _ _ _ _)).trans (hfld _ _ _ _ _ _)).trans (raises_logPush _ _)

theorem raises_floodRoster (s : State) (g : Nat) (e : RosterEnt) : Raises s (floodRoster s g e) :=
  (raises_rseq s _).trans (raises_masterSends _ _)

/-- R420, R423, R437: the beginning of a recovery. -/
theorem raises_beginRecovery (s : State) (job : Nat) (e : SeqEvent) : Raises s (beginRecovery s job e) := by
  unfold beginRecovery
  extract_lets r z seen count above s1 level code serial q1 s2 r1 r2 s3 ent s4 q2 p s5
  have habove : Raises s s1 := (raises_raiseSubj s (pg := .rseq) nofun _ _ _ _).ite (.refl s)
  have hrec : Raises s1 s3 := (raises_rseq s1 _).trans (raises_rseq s2 _)
  have hroster : Raises s3 s4 := ((raises_setRoster _ _ _).trans (raises_floodRoster _ _ _)).ite (.refl _)
  have hprove : Raises s4 s5 := (raises_rseq _ _).ite (.refl _)
  exact ((habove.trans hrec).trans (hroster.trans hprove)).trans (raises_masterSends _ _)

/-- R421: a request taken by the master. -/
theorem raises_masterRequest (s : State) (e : SeqEvent) : Raises s (masterRequest s e) := by
  have hwait : ∀ t, Raises t (noteWait t) := fun t => raises_raise t (pg := .rseq) nofun _ _
  exact (hwait s).ite ((hwait s).ite ((raises_beginRecovery _ _ _).ite ((raises_rseq s _).trans (hwait _))))

/-! ## What committing and publishing leave at the master -/

theorem recPage_ne_cpw (via : RecVia) : recPage via ≠ .cpw := by
  cases via <;> exact nofun

/-- The parts that the master's commits and publishes may change. -/
def commitParts : List Part := .commits :: .outer :: raisedParts

/-- What the master's commits and publishes keep: the parts they do not change, the error classes seen, and the jobs but for the
READYs joined. -/
structure Publishes (s t : State) : Prop where
  keeps : KeepsSeen commitParts s t
  jobs : ∀ j, { jobOf t j with readies := [] } = { jobOf s j with readies := [] }

namespace Publishes
variable {s t u : State}

theorem refl (s : State) : Publishes s s := ⟨.refl s, fun _ => rfl⟩

theorem trans (h : Publishes s t) (g : Publishes t u) : Publishes s u :=
  ⟨h.keeps.trans g.keeps, fun j => (g.jobs j).trans (h.jobs j)⟩

theorem foldl {α : Type} {f : State → α → State} (h : ∀ s a, Publishes s (f s a)) (l : List α) (s : State) :
    Publishes s (l.foldl f s) := by
  induction l generalizing s with
  | nil => exact refl s
  | cons a l ih => exact (h s a).trans (ih _)

theorem of_raises (h : Raises s t) : Publishes s t := by
  have houter : t.outer = s.outer := h.only .outer (by decide)
  exact ⟨.of_raises h (fun p hp => by simp [commitParts, hp]), fun j => by rw [jobOf, jobOf, houter]⟩

theorem epoch (h : Publishes s t) (j : Nat) : (jobOf t j).epoch = (jobOf s j).epoch := (congrArg Job.epoch (h.jobs j) :)
theorem prev (h : Publishes s t) (j : Nat) : (jobOf t j).prev = (jobOf s j).prev := (congrArg Job.prev (h.jobs j) :)
theorem pub (h : Publishes s t) (j : Nat) : (jobOf t j).pub = (jobOf s j).pub := (congrArg Job.pub (h.jobs j) :)
theorem plans (h : Publishes s t) : t.plans = s.plans := h.keeps.only .plans (by decide)
theorem mem (h : Publishes s t) : t.mem = s.mem := h.keeps.only .mem (by decide)
theorem committed (h : Publishes s t) (x y : Nat) : committed t x y = Machine.committed s x y := by
  rw [Machine.committed, Machine.committed, h.plans]

end Publishes

theorem jobOf_setJob_ne (s : State) {j i : Nat} (x : Job) (h : i ≠ j) : jobOf (setJob s j x) i = jobOf s i :=
  mget_mset_ne _ _ _ h

/-- R253: the READYs of a job dropped. -/
theorem publishes_dropReadies (s : State) (job : Nat) : Publishes s (setJob s job { jobOf s job with readies := [] }) := by
  refine ⟨.of_only (MgmtFunctions.onlyChanges_setJob s job _) (by decide) (by decide), fun j => ?_⟩
  by_cases hj : j = job
  · subst hj
    rw [MgmtFunctions.jobOf_setJob]
  · rw [jobOf_setJob_ne _ _ hj]

theorem onlyChanges_commits (s : State) (l : List Commit) : OnlyChanges [.commits] s { s with commits := l } := by
  intro p hp
  cases p <;> simp_all [Part.same]

theorem publishes_commits (s : State) (l : List Commit) : Publishes s { s with commits := l } :=
  ⟨.of_only (onlyChanges_commits s l) (by decide) (by decide), fun _ => rfl⟩

theorem publishes_masterSends (s : State) (m : Msg) : Publishes s (masterSends s m) := .of_raises (raises_masterSends s m)

/-- R253: what the master's publish, or a mismatch of the READYs, leaves. -/
theorem publishes_tryPublish {pg : PageId} (hpg : pg ≠ .cpw) (s : State) (job : Nat) : Publishes s (tryPublish pg s job) := by
  have hdrop := publishes_dropReadies s job
  unfold tryPublish
  extract_lets j
  split
  · exact .refl s
  · extract_lets e
    split
    · exact .refl s
    · split
      · exact (hdrop.trans (publishes_masterSends _ _)).trans (.of_raises (raises_masterRequest _ _))
      · split
        · exact .refl s
        · split
          · exact hdrop.trans (.of_raises (raises_raiseSubj _ hpg _ _ _ _))
          · exact ((publishes_commits s _).trans (publishes_dropReadies _ job)).trans (publishes_masterSends _ _)

/-- R79: what the master's commit leaves. -/
theorem publishes_tryCommit {pg : PageId} (hpg : pg ≠ .cpw) (s : State) (job step rep : Nat) :
    Publishes s (tryCommit pg s job step rep) := by
  unfold tryCommit
  split
  · exact publishes_tryPublish hpg s job
  · split
    · exact .refl s
    · exact (publishes_commits s _).trans (publishes_masterSends _ _)

/-- R79: what the commits and publishes that were waiting leave. -/
theorem publishes_settleCommits {pg : PageId} (hpg : pg ≠ .cpw) (s : State) (job : Nat) : Publishes s (settleCommits pg s job) := by
  unfold settleCommits
  split
  · exact .refl s
  · exact .foldl (fun s (c : Commit) => publishes_tryCommit hpg s job c.step c.replay) _ s

/-! ## Inputs refused and decisions applied -/

/-- The parts that answering inputs held, and applying decisions, may change. -/
def answeredParts : List Part := .coll :: .trays :: .fab :: .cpw :: raisedParts

theorem onlyChanges_coll (s : State) (c : Coll) : OnlyChanges [.coll] s { s with coll := c } := by
  intro p hp
  cases p <;> simp_all [Part.same]

theorem onlyChanges_trays (s : State) (x : Trays) : OnlyChanges [.trays] s { s with trays := x } := by
  intro p hp
  cases p <;> simp_all [Part.same]

theorem keepsSeen_coll (s : State) (c : Coll) : KeepsSeen answeredParts s { s with coll := c } :=
  .of_only (onlyChanges_coll s c) (by decide) (by decide)

theorem keepsSeen_raiseFor (s : State) {pg : PageId} (hpg : pg ≠ .cpw) (code info : Nat) (c : BitVec 64) :
    KeepsSeen answeredParts s (raiseFor s pg code info c) :=
  .of_raises (raises_raiseSubj s hpg code info c _) (by decide)

theorem keepsSeen_raiseCell (s : State) (cell code info : Nat) (c : BitVec 64) :
    KeepsSeen answeredParts s (raiseCell s cell code info c) := by
  refine keepsSeen_raiseFor s ?_ code info c
  unfold cellPage
  split <;> exact nofun

/-- R388: a tray released. -/
theorem keepsSeen_releaseOpt (s : State) (i : Option TrayId) : KeepsSeen answeredParts s (releaseOpt s i) := by
  have hdouble : ∀ info, KeepsSeen answeredParts s (raise (count s .tpool 1 1) .tpool 0x2E01 info) := fun info =>
    (KeepsSeen.of_only (onlyChanges_count s _ _ _) (by decide) (by decide)).trans (keepsSeen_raiseFor _ (pg := .tpool) nofun _ _ _)
  cases i with
  | none => exact .refl s
  | some i =>
    rw [releaseOpt, releaseTray]
    split
    · rw [freeTray]
      split
      · exact .ite (.of_only (onlyChanges_trays s _) (by decide) (by decide)) (hdouble _)
      · exact hdouble _
    · exact .refl s

/-- R131: the failure COMPLETE of a member. -/
theorem keepsSeen_answerFailed (s : State) (x : Placed) (c : BitVec 64) (st : CellSt) (rank : Nat) (dst : Origin × BitVec 8) :
    KeepsSeen answeredParts s (answerFailed s x c st rank dst) := by
  refine .ite (.refl s) ?_
  have hsend : KeepsSeen answeredParts s (memberComplete s x c rank dst (errCode st) 0) :=
    .of_only (onlyChanges_sendTo _ _ _ _ _) (by decide) (by decide)
  exact (hsend.trans (keepsSeen_coll _ _)).trans (.of_only (onlyChanges_fab _ _) (by decide) (by decide))

theorem keepsSeen_failMembers (s : State) (x : Placed) (c : BitVec 64) (st : CellSt) (bound : PMap Nat (Origin × BitVec 8)) :
    KeepsSeen answeredParts s (failMembers s x c st bound) :=
  .foldl (fun s (e : Nat × Origin × BitVec 8) => keepsSeen_answerFailed s x c st e.1 e.2) _ s

theorem keepsSeen_releaseCredits (s : State) (org : Origin) (vc : Fvc) (cost : Nat) :
    KeepsSeen answeredParts s (releaseCredits s org vc cost) :=
  .ite (.refl s) ((KeepsSeen.of_only (onlyChanges_updCredit _ _ _ _) (by decide) (by decide)).trans
    (.of_only (onlyChanges_reportHalf _ _ _) (by decide) (by decide)))

/-- R499: inputs held for a failed instance discarded. -/
theorem keepsSeen_dropHeldFor (s : State) (x : Placed) (c : BitVec 64) (st : CellSt) :
    KeepsSeen answeredParts s (dropHeldFor s x c st) := by
  refine (keepsSeen_coll s _).trans (.foldl (fun s (i : HeldInput) => (keepsSeen_releaseOpt s i.tray).trans ?_) _ _)
  cases i.input with
  | contrib n org via p => exact (KeepsSeen.ite (keepsSeen_releaseCredits _ _ _ _) (.refl _)).trans (keepsSeen_answerFailed _ _ _ _ _ _)
  | record via r => exact .refl _

/-- R130, R131, R499: the master's decision applied. -/
theorem keepsSeen_applyDecision (s : State) (c : BitVec 64) (st : CellSt) : KeepsSeen answeredParts s (applyDecision s c st) := by
  unfold applyDecision
  split
  · extract_lets cell cl ir s1 away n detail info fresh old cl0 cl1 here cl2 s2 s3 s4
    have hset : KeepsSeen answeredParts s s1 := keepsSeen_coll s _
    have hcell : KeepsSeen answeredParts s1 s4 := ((keepsSeen_coll _ _).trans (.ite (keepsSeen_raiseCell _ _ _ _ _) (.refl _))).trans
      (.ite (.refl _) (keepsSeen_raiseCell _ _ _ _ _))
    refine .ite (.refl s) (hset.trans (.ite ?_ (hcell.trans ?_)))
    · exact ((keepsSeen_raiseCell _ _ _ _ _).trans (keepsSeen_failMembers _ _ _ _ _)).trans (keepsSeen_dropHeldFor _ _ _ _)
    · exact (keepsSeen_failMembers _ _ _ _ _).trans (keepsSeen_dropHeldFor _ _ _ _)
  · exact .refl s

/-- R106: a packet handled by a function that changes the parts of an answer. -/
theorem onlyChanges_handle (k : Ctx) {f : Ctx → State → State × Disp} (hf : ∀ t, OnlyChanges answeredParts t (f k t).1) (s : State) :
    OnlyChanges answeredParts s (handle k f s) := by
  have hreleased : OnlyChanges answeredParts s (released k s) :=
    onlyChanges_ite _ (onlyChanges_refl _ _) (onlyChanges_mono (onlyChanges_updCredit s k.org k.vc _) (by decide))
  exact onlyChanges_then (onlyChanges_then hreleased (hf _))
    (onlyChanges_mono (onlyChanges_settle k (f k (released k s))) (by decide))

/-- R82, R89: an input that was held is settled. -/
theorem onlyChanges_settleHeld (k : Ctx) (r : State × Disp) : OnlyChanges answeredParts r.1 (settleHeld k r) := by
  have hfab : ∀ (v : State) (f : Fab), OnlyChanges answeredParts v { v with fab := f } := fun v f =>
    onlyChanges_mono (onlyChanges_fab v f) (by decide)
  obtain ⟨t, d⟩ := r
  cases d with
  | taken => exact hfab _ _
  | done st => exact onlyChanges_then (hfab _ _) (hfab _ _)
  | refuse code =>
    exact onlyChanges_then (onlyChanges_mono (onlyChanges_refuseBare t k code) (by decide)) (onlyChanges_then (hfab _ _) (hfab _ _))
  | held => exact onlyChanges_refl _ _
  | waits => exact onlyChanges_refl _ _

/-- R82: inputs held that are refused. -/
theorem onlyChanges_refuseHeld (s : State) (f : HeldInput → Bool) : OnlyChanges answeredParts s (refuseHeld s f) := by
  refine onlyChanges_then (keepsSeen_coll s _).only
    (onlyChanges_foldl (fun s (i : HeldInput) => onlyChanges_then (keepsSeen_releaseOpt s i.tray).only ?_) _ _)
  have hraise : ∀ t pg, OnlyChanges answeredParts t (raiseFor t pg 0x2103 0 i.ciid) := fun t pg =>
    onlyChanges_mono (onlyChanges_raiseSubj t pg _ _ _ _) (by decide)
  cases i.input with
  | contrib n org via p =>
    have hheld := fun t pg => onlyChanges_then (hraise t pg)
      (onlyChanges_settleHeld ⟨via, org, p, n⟩ (raiseFor t pg 0x2103 0 i.ciid, .refuse 0x2103))
    exact onlyChanges_ite _ (onlyChanges_handle _ (fun t => hraise t _) _) (hheld _ _)
  | record via r => exact onlyChanges_refl _ _

/-! ## A step commits (R79) -/

theorem onlyChanges_plans (s : State) (x : Plans) (l : Ledger) (c : Coll) :
    OnlyChanges [.plans, .ledger, .coll] s { s with plans := x, ledger := l, coll := c } := by
  intro p hp
  cases p <;> simp_all [Part.same]

/-- R79: a step that commits joins the committed ones, and the rest of the plans stays. -/
theorem commitStep_plans (s : State) (job step : Nat) : (commitStep s job step).plans =
    if committed s job step then s.plans else { s.plans with committed := (job, step) :: s.plans.committed } := by
  unfold commitStep
  split
  · rfl
  · exact onlyChanges_refuseHeld _ _ .plans (by decide)

/-- R79: what a commit changes. -/
theorem onlyChanges_commitStep (s : State) (job step : Nat) :
    OnlyChanges (.plans :: .ledger :: answeredParts) s (commitStep s job step) :=
  onlyChanges_ite _ (onlyChanges_refl _ _) (onlyChanges_then
    (onlyChanges_mono (onlyChanges_plans s _ _ _) (by decide)) (onlyChanges_mono (onlyChanges_refuseHeld _ _) (by decide)))

theorem committed_commitStep (s : State) (job step x y : Nat) :
    committed (commitStep s job step) x y = if (x, y) = (job, step) then true else committed s x y := by
  rw [committed, commitStep_plans]
  by_cases hxy : (x, y) = (job, step)
  · obtain ⟨rfl, rfl⟩ := Prod.mk.inj hxy
    by_cases h : committed s x y = true
    · rw [if_pos h, if_pos rfl]
      exact h
    · simp [h]
  · split <;> simp [committed, hxy]

theorem slots_commitStep (s : State) (job step : Nat) :
    (commitStep s job step).plans.slot0 = s.plans.slot0 ∧ (commitStep s job step).plans.slot1 = s.plans.slot1 := by
  rw [commitStep_plans]
  split <;> exact ⟨rfl, rfl⟩

/-- R253: a notice commits the outer step, if one runs. -/
def commitOuter (s : State) (job : Nat) : State :=
  match (jobOf s job).outer with
  | some x => commitStep s job x.1
  | none => s

theorem onlyChanges_commitOuter (s : State) (job : Nat) :
    OnlyChanges (.plans :: .ledger :: answeredParts) s (commitOuter s job) := by
  unfold commitOuter
  split
  · exact onlyChanges_commitStep _ _ _
  · exact onlyChanges_refl _ _

/-! ## The epoch switch (R253, R254) -/

/-- R253: a job whose epoch e has become current, published for superframe p. -/
def switched (j : Job) (e p : Nat) : Job :=
  { j with epoch := e, prev := true, switchSf := p, pub := none, marks := [], outer := none, momWritten := [], readySent := [],
           repl := j.repl.filter (fun x => x.1.1 == e) }

theorem onlyChanges_emitSt (s : State) (vc : Nat) (r : StRec) : OnlyChanges [.egress, .lineTx] s (emitSt s vc r) := by
  unfold emitSt
  dsimp only
  split
  · exact onlyChanges_mono (onlyChanges_egPush _ _ _ _ _) (by simp)
  · split
    · intro p hp
      cases p <;> simp_all [Part.same, lineSend]
    · exact onlyChanges_refl _ _

theorem onlyChanges_keepSt (s : State) (r : StRec) : OnlyChanges [.stTx, .egress, .lineTx] s (keepSt s r) := by
  refine onlyChanges_mono (onlyChanges_trans (onlyChanges_emitSt s (stVc r) r) (qs := [.stTx]) ?_) (by simp)
  intro p hp
  cases p <;> simp_all [Part.same, keepSt, sendSt]

/-- R254: what the records of a switch change. -/
theorem onlyChanges_replicate (s : State) (job : Nat) (m : Matrix) (qty flags epoch t base size : Nat) :
    OnlyChanges [.stTx, .egress, .lineTx] s (replicate s job m qty flags epoch t base size) :=
  onlyChanges_foldl (fun s _ => onlyChanges_keepSt s _) _ s

/-- R253, R254: the job switches, and its matrices' records leave. -/
theorem switchEpoch_keeps (s : State) (job e p : Nat) :
    OnlyChanges [.stTx, .egress, .lineTx] (setJob s job (switched (jobOf s job) e p)) (switchEpoch s job e p) := by
  unfold switchEpoch
  dsimp only
  split
  · exact onlyChanges_refl _ _
  · exact onlyChanges_foldl (fun s (m : Matrix) => onlyChanges_replicate s job m 2 0 e 1 m.hM (mSize m)) _ _

theorem onlyChanges_switchEpoch (s : State) (job e p : Nat) :
    OnlyChanges [.outer, .stTx, .egress, .lineTx] s (switchEpoch s job e p) :=
  onlyChanges_trans (MgmtFunctions.onlyChanges_setJob s job _) (switchEpoch_keeps s job e p)

theorem jobOf_switchEpoch (s : State) (job e p j : Nat) : jobOf (switchEpoch s job e p) j =
    if j = job then switched (jobOf s job) e p else jobOf s j := by
  have houter : (switchEpoch s job e p).outer = (setJob s job (switched (jobOf s job) e p)).outer :=
    switchEpoch_keeps s job e p .outer (by decide)
  rw [jobOf, houter]
  split
  case isTrue h => exact h ▸ mget_mset_same _ _ _ _
  case isFalse h => exact mget_mset_ne _ _ _ h

/-! ## Arrival (R295, R426, R428) -/

/-- R295, R428: what reaches a master of quorum is acted on. -/
theorem arriveCtl_up {s : State} {via : RecVia} {m : Ctl} {u : State} (h : CtlUp s via m u) : arriveCtl via m true s = (u, true) := by
  obtain ⟨htaken, hok, hmaster, hquorum, rfl⟩ := h
  rw [arriveCtl, show takeMsg s via (.ctl m) = ((takeMsg s via (.ctl m)).1, true) from Prod.ext rfl htaken]
  simp [hok, hmaster, hquorum]

/-- R295, R426: what arrives from the master for the first time is acted on. -/
theorem arriveCtl_down {s : State} {via : RecVia} {m : Ctl} {u : State} (h : CtlDown s via m u) :
    arriveCtl via m false s = (u, true) := by
  obtain ⟨htaken, hok, hnew, rfl⟩ := h
  rw [arriveCtl, show takeMsg s via (.ctl m) = ((takeMsg s via (.ctl m)).1, true) from Prod.ext rfl htaken]
  simp [hok, hnew]

/-! ## The commands -/

section
variable {s : State} {via : RecVia} {m : Ctl} {u : State}

/-- R79, R428: what a master notes of a gateway's harvest report. -/
def noteHarvest (s : State) (job step rep g : Nat) : State :=
  let mine := fun (c : Commit) => c.job == job && c.step == step && c.replay == rep
  if s.commits.any mine then
    { s with commits := s.commits.map (fun c => if mine c && !c.gws.contains g then { c with gws := g :: c.gws } else c) }
  else { s with commits := s.commits.concat ⟨job, step, rep, [g]⟩ }

theorem exec_harvestRx (ht : m.ctype = 3) (h : CtlUp s via m u) : exec (.harvestRx via m) s =
    .next (tryCommit (recPage via) (noteHarvest u (ciidJob m.ciid) (ciidStep m.ciid) (ciidReplay m.ciid) m.srcGw.toNat)
      (ciidJob m.ciid) (ciidStep m.ciid) (ciidReplay m.ciid)) := by
  change execHarvestRx via m s = _
  simp only [execHarvestRx, ht, arriveCtl_up h]
  rfl

theorem exec_commitRx (ht : m.ctype = 4) (h : CtlDown s via m u) : exec (.commitRx via m) s =
    .next (settleCommits (recPage via) (commitStep u (ciidJob m.ciid) (ciidStep m.ciid)) (ciidJob m.ciid)) := by
  change execCommitRx via m s = _
  simp only [execCommitRx, ht, arriveCtl_down h]
  rfl

theorem exec_readyRx (ht : m.ctype = 5) (h : CtlUp s via m u) : exec (.readyRx via m) s =
    .next (tryPublish (recPage via) (setJob u (ciidJob m.ciid) { jobOf u (ciidJob m.ciid) with
      readies := (jobOf u (ciidJob m.ciid)).readies.filter (fun x => x.gw != m.srcGw.toNat) ++
        [⟨m.srcGw.toNat, m.epoch.toNat, m.digest⟩] }) (ciidJob m.ciid)) := by
  change execReadyRx via m s = _
  simp only [execReadyRx, ht, arriveCtl_up h, List.concat_eq_append]
  rfl

/-- R429: a notice of an epoch that is current or held already has no effect. -/
theorem exec_publishRx_known (ht : m.ctype = 6) (h : CtlDown s via m u)
    (hknown : m.epoch.toNat ≤ (jobOf u (ciidJob m.ciid)).epoch ∨ (jobOf u (ciidJob m.ciid)).pub ≠ none) :
    exec (.publishRx via m) s = .next u := by
  change execPublishRx via m s = _
  have hskip : (decide (m.epoch.toNat ≤ (jobOf u (ciidJob m.ciid)).epoch) || (jobOf u (ciidJob m.ciid)).pub.isSome) = true := by
    simpa [Option.isSome_iff_ne_none] using hknown
  simp only [execPublishRx, ht, arriveCtl_down h, hskip]
  rfl

/-- R76: what a new notice of epoch e for superframe p makes of its job: late, the switch at once with PUBLISH_LATE; else the
notice held. -/
def publishAt (s : State) (pg : PageId) (job e p : Nat) : State :=
  if s.sf > p then switchEpoch (raise s pg 0x1101 0) job e p else setJob s job { jobOf s job with pub := some (e, p) }

theorem exec_publishRx_new (ht : m.ctype = 6) (h : CtlDown s via m u)
    (hnew : (jobOf u (ciidJob m.ciid)).epoch < m.epoch.toNat) (hpub : (jobOf u (ciidJob m.ciid)).pub = none) :
    exec (.publishRx via m) s = .next (settleCommits (recPage via)
      (publishAt (commitOuter u (ciidJob m.ciid)) (recPage via) (ciidJob m.ciid) m.epoch.toNat m.sf.toNat) (ciidJob m.ciid)) := by
  change execPublishRx via m s = _
  have hskip : (decide (m.epoch.toNat ≤ (jobOf u (ciidJob m.ciid)).epoch) || (jobOf u (ciidJob m.ciid)).pub.isSome) = false := by
    simp [hpub, hnew]
  simp only [execPublishRx, ht, arriveCtl_down h, hskip]
  rfl

theorem exec_tableMismatchRx_idle (ht : m.ctype = 7) (h : CtlDown s via m u) (ho : (jobOf u (ciidJob m.ciid)).outer = none) :
    exec (.tableMismatchRx via m) s = .next (raise u (.quad 0) 0x3901 0) := by
  change execTableMismatchRx via m s = _
  simp only [execTableMismatchRx, ht, arriveCtl_down h, ho]
  rfl

/-- R239: a mismatch fails the instances of the outer step. -/
theorem exec_tableMismatchRx_outer (ht : m.ctype = 7) (h : CtlDown s via m u) {st rep : Nat}
    (ho : (jobOf u (ciidJob m.ciid)).outer = some (st, rep)) : ∃ ds : List Desc, exec (.tableMismatchRx via m) s =
      .next (ds.foldl (fun s d => applyDecision s (d.full rep) .tainted)
        (raiseFor u (.quad 0) 0x3901 0 (mkCiid (ciidJob m.ciid) st 0 rep))) := by
  change ∃ ds : List Desc, execTableMismatchRx via m s = _
  simp only [execTableMismatchRx, ht, arriveCtl_down h, ho]
  exact ⟨_, rfl⟩

theorem exec_epochSwitch {job : BitVec 16} {e p : Nat} (h : (jobOf s job.toNat).pub = some (e, p)) :
    exec (.epochSwitch job) s = .next (if s.sf < p then s else switchEpoch s job.toNat e p) := by
  change execEpochSwitch job s = _
  rw [execEpochSwitch, h]

end

/-! ## The conditions of the master (R79, R253) -/

theorem onlyChanges_noteHarvest (s : State) (job step rep g : Nat) : OnlyChanges [.commits] s (noteHarvest s job step rep g) :=
  onlyChanges_ite _ (onlyChanges_commits s _) (onlyChanges_commits s _)

/-- R79: a gateway's report stands with its step attempt. -/
theorem mem_noteHarvest (s : State) (job step rep g : Nat) :
    ∃ c ∈ (noteHarvest s job step rep g).commits, c.job = job ∧ c.step = step ∧ c.replay = rep ∧ g ∈ c.gws := by
  unfold noteHarvest
  extract_lets mine
  split
  case isTrue h =>
    obtain ⟨c, hc, hmine⟩ := List.any_eq_true.1 h
    obtain ⟨hjob, hstep, hrep⟩ : c.job = job ∧ c.step = step ∧ c.replay = rep := by simpa [mine, and_assoc] using hmine
    refine ⟨_, List.mem_map_of_mem hc, ?_⟩
    split
    case isTrue hadd => exact ⟨hjob, hstep, hrep, List.mem_cons_self⟩
    case isFalse hhas => exact ⟨hjob, hstep, hrep, by simpa [hmine] using hhas⟩
  case isFalse => exact ⟨_, by simp only [List.concat_eq_append]; exact List.mem_append_right _ (List.mem_singleton.2 rfl), by simp⟩

/-- R79: the master's commit of a step that every gateway has harvested, without an outer update. -/
theorem tryCommit_commits (pg : PageId) {s : State} {job step rep : Nat} (houter : (jobOf s job).outer ≠ some (step, rep))
    (hnew : committed s job step = false) (hall : allHarvested s job step rep = true) (hquiet : jobQuiet s job = true) :
    Msg.ctl (mkCtl s 4 0 (mkCiid job step 0 rep) 0 s.sf 0) ∈ (tryCommit pg s job step rep).rseq.loop := by
  rw [tryCommit, if_neg houter, if_neg (by simp [hnew, hall, hquiet])]
  exact mem_loop_masterSends _ _

/-- R253: what the master publishes on, and with what. -/
theorem tryPublish_publishes (pg : PageId) {s : State} {job step rep : Nat} {g : BitVec 64}
    (houter : (jobOf s job).outer = some (step, rep)) (hnew : committed s job step = false)
    (hall : allHarvested s job step rep = true) (hquiet : jobQuiet s job = true) (hearlier : earlierCommitted s job step = true)
    (hpub : (jobOf s job).pub = none) (hlast : (jobOf s job).epoch + 1 < 0xFFFFFFFF)
    (hsame : ∀ r ∈ (jobOf s job).readies, r.epoch = (jobOf s job).epoch + 1 → r.digest = g)
    (hready : ∀ a ∈ activeGws s, ∃ r ∈ (jobOf s job).readies, r.gw = a ∧ r.epoch = (jobOf s job).epoch + 1) :
    tryPublish pg s job = masterSends (setJob { s with commits := s.commits.filter (fun c => !(c.job == job && c.step == step)) }
      job { jobOf s job with readies := [] })
      (.ctl (mkCtl s 6 0 (mkCiid job 0 0 0) ((jobOf s job).epoch + 1) (s.sf + s.lt.d + 64) 0)) := by
  unfold tryPublish
  extract_lets j e rs first
  rw [show j.outer = some (step, rep) from houter]
  have hrs : ∀ r ∈ rs, r.digest = g := fun r hr => by
    obtain ⟨hmem, he⟩ := List.mem_filter.1 hr
    exact hsame r hmem (by simpa using he)
  have hevery : (activeGws s).all (fun a => rs.any (fun r => r.gw == a)) = true := by
    refine List.all_eq_true.2 fun a ha => ?_
    obtain ⟨r, hr, hgw, he⟩ := hready a ha
    exact List.any_eq_true.2 ⟨r, List.mem_filter.2 ⟨hr, by simpa using he⟩, by simpa using hgw⟩
  have hfirst : ∀ r ∈ rs, first = g := fun r hr => by
    cases hl : rs with
    | nil => exact absurd (hl ▸ hr) List.not_mem_nil
    | cons x l => exact (show first = x.digest by simp only [first, hl]).trans (hrs x (hl ▸ List.mem_cons_self))
  have hagree : rs.any (fun r => r.digest != first) = false :=
    List.any_eq_false.2 fun r hr => by simp [hrs r hr, hfirst r hr]
  dsimp only
  rw [if_neg (by simp [hevery, hnew]), if_neg (by simp [hagree]), if_neg (by simp [hall, hquiet, hearlier, j, hpub]),
    if_neg (Nat.not_le.2 hlast)]
  rfl

/-- R49: OUTER_TABLE_MISMATCH is seen on the page it is raised on. -/
theorem seen_mismatch (s : State) (pg : PageId) (info : Nat) (c : BitVec 64) :
    (pageOf (raiseFor s pg 0x3901 info c) pg).classSeen.getLsbD 3 = true := by
  refine (raises_recorded s pg 0x3901 info c (gw s)).seen pg 3 ?_
  rw [pageOf_setPage, classSeen_recorded, BitVec.getLsbD_or, show (BitVec.ofNat 5 (2 ^ codeClass 0x3901)).getLsbD 3 = true from rfl,
    Bool.or_true]

/-! ## The settlement -/

section
variable {s : State} {via : RecVia} {m : Ctl} {u : State}

/-- R79: COMMIT. -/
theorem commitRx_commits (ht : m.ctype = 4) (h : CtlDown s via m u) : Answers (.commitRx via m) s fun t =>
    committed t (ciidJob m.ciid) (ciidStep m.ciid) = true ∧ t.mem = u.mem ∧ t.plans.slot0 = u.plans.slot0 ∧
      t.plans.slot1 = u.plans.slot1 ∧
      ∀ x y, (x, y) ≠ (ciidJob m.ciid, ciidStep m.ciid) → committed t x y = committed u x y := by
  have hsettled := publishes_settleCommits (recPage_ne_cpw via) (commitStep u (ciidJob m.ciid) (ciidStep m.ciid)) (ciidJob m.ciid)
  obtain ⟨hslot0, hslot1⟩ := slots_commitStep u (ciidJob m.ciid) (ciidStep m.ciid)
  have hmem : (commitStep u (ciidJob m.ciid) (ciidStep m.ciid)).mem = u.mem := onlyChanges_commitStep _ _ _ .mem (by decide)
  refine ⟨_, exec_commitRx ht h, ?_, hsettled.mem.trans hmem, ?_, ?_, fun x y hxy => ?_⟩
  · rw [hsettled.committed, committed_commitStep, if_pos rfl]
  · rw [hsettled.plans, hslot0]
  · rw [hsettled.plans, hslot1]
  · rw [hsettled.committed, committed_commitStep, if_neg hxy]

/-- R253: the outer step stands committed once its publish has come. -/
theorem committed_commitOuter (s : State) (job : Nat) {st r : Nat} (h : (jobOf s job).outer = some (st, r)) :
    committed (commitOuter s job) job st = true := by
  rw [commitOuter, h]
  exact (committed_commitStep _ _ _ _ _).trans (if_pos rfl)

/-- R76, R253: a notice that is not late is held for its superframe. -/
theorem publishAt_held {s : State} {pg : PageId} {job e p : Nat} (h : s.sf ≤ p) :
    publishAt s pg job e p = setJob s job { jobOf s job with pub := some (e, p) } := if_neg (Nat.not_lt.2 h)

/-- R76, R253: a late notice switches at once. -/
theorem publishAt_late {s : State} {pg : PageId} {job e p : Nat} (h : p < s.sf) :
    publishAt s pg job e p = switchEpoch (raise s pg 0x1101 0) job e p := if_pos h

theorem plans_publishAt (s : State) (pg : PageId) (job e p : Nat) : (publishAt s pg job e p).plans = s.plans := by
  unfold publishAt
  split
  · exact (onlyChanges_switchEpoch _ _ _ _ .plans (by decide)).trans (onlyChanges_raise _ _ _ _ .plans (by decide))
  · rfl

/-- R76, R253: a new notice. -/
theorem publishRx_new (ht : m.ctype = 6) (h : CtlDown s via m u) (hnew : (jobOf u (ciidJob m.ciid)).epoch < m.epoch.toNat)
    (hpub : (jobOf u (ciidJob m.ciid)).pub = none) : Answers (.publishRx via m) s fun t =>
      (∀ st r, (jobOf u (ciidJob m.ciid)).outer = some (st, r) → committed t (ciidJob m.ciid) st = true) ∧
      (u.sf ≤ m.sf.toNat → (jobOf t (ciidJob m.ciid)).pub = some (m.epoch.toNat, m.sf.toNat) ∧
        (jobOf t (ciidJob m.ciid)).epoch = (jobOf u (ciidJob m.ciid)).epoch) ∧
      (m.sf.toNat < u.sf → (jobOf t (ciidJob m.ciid)).epoch = m.epoch.toNat ∧ (jobOf t (ciidJob m.ciid)).prev = true ∧
        (pageOf t (recPage via)).classSeen.getLsbD 1 = true) := by
  refine ⟨_, exec_publishRx_new ht h hnew hpub, ?_⟩
  have honly := onlyChanges_commitOuter u (ciidJob m.ciid)
  have hcommitted := fun {st r} => committed_commitOuter u (ciidJob m.ciid) (st := st) (r := r)
  generalize commitOuter u (ciidJob m.ciid) = w at honly hcommitted
  have hsf : w.sf = u.sf := honly .sf (by decide)
  have houter : w.outer = u.outer := honly .outer (by decide)
  have hsettled := publishes_settleCommits (recPage_ne_cpw via)
    (publishAt w (recPage via) (ciidJob m.ciid) m.epoch.toNat m.sf.toNat) (ciidJob m.ciid)
  refine ⟨fun st r ho => ?_, fun hintime => ?_, fun hlate => ?_⟩
  · rw [hsettled.committed, committed, plans_publishAt]
    exact hcommitted ho
  · rw [hsettled.pub, hsettled.epoch, publishAt_held (hsf ▸ hintime), MgmtFunctions.jobOf_setJob, jobOf, jobOf, houter]
    exact ⟨rfl, rfl⟩
  · have hseen := (onlyChanges_switchEpoch (raise w (recPage via) 0x1101 0) (ciidJob m.ciid) m.epoch.toNat m.sf.toNat)
      .pages (by decide)
    rw [hsettled.epoch, hsettled.prev]
    refine ⟨?_, ?_, hsettled.keeps.seen _ 1 ?_⟩
    · rw [publishAt_late (hsf ▸ hlate), jobOf_switchEpoch, if_pos rfl]; rfl
    · rw [publishAt_late (hsf ▸ hlate), jobOf_switchEpoch, if_pos rfl]; rfl
    · rw [publishAt_late (hsf ▸ hlate), pageOf, hseen]
      exact seen_raise w (recPage via) (code := 0x1101) (by decide) 0

/-- R239: a table mismatch. -/
theorem tableMismatchRx_raises (ht : m.ctype = 7) (h : CtlDown s via m u) : Answers (.tableMismatchRx via m) s fun t =>
    (pageOf t (.quad 0)).classSeen.getLsbD 3 = true ∧ t.mem = u.mem ∧
      (jobOf t (ciidJob m.ciid)).epoch = (jobOf u (ciidJob m.ciid)).epoch := by
  have hkeeps : ∀ t, KeepsSeen answeredParts u t → t.mem = u.mem ∧
      (jobOf t (ciidJob m.ciid)).epoch = (jobOf u (ciidJob m.ciid)).epoch := fun t ht => by
    have houter : t.outer = u.outer := ht.only .outer (by decide)
    exact ⟨ht.only .mem (by decide), by rw [jobOf, jobOf, houter]⟩
  cases ho : (jobOf u (ciidJob m.ciid)).outer with
  | none =>
    exact ⟨_, exec_tableMismatchRx_idle ht h ho, seen_mismatch u _ _ _, hkeeps _ (keepsSeen_raiseFor u (pg := .quad 0) nofun _ _ _)⟩
  | some x =>
    obtain ⟨ds, hexec⟩ := exec_tableMismatchRx_outer ht h (st := x.1) (rep := x.2) ho
    have hfold := KeepsSeen.foldl (fun s (d : Desc) => keepsSeen_applyDecision s (d.full x.2) .tainted) ds
      (raiseFor u (.quad 0) 0x3901 0 (mkCiid (ciidJob m.ciid) x.1 0 x.2))
    exact ⟨_, hexec, hfold.seen _ _ (seen_mismatch u _ _ _), hkeeps _ ((keepsSeen_raiseFor u (pg := .quad 0) nofun _ _ _).trans hfold)⟩

end

/-- Settles O44: harvest, COMMIT, READY, PUBLISH and the table mismatch on arrival, the master's conditions, and the switch. -/
theorem commitAndPublish : Obligations.CommitAndPublish := by
  refine ⟨fun s via m u => ⟨fun ht h => ⟨_, onlyChanges_noteHarvest _ _ _ _ _, mem_noteHarvest _ _ _ _ _, exec_harvestRx ht h⟩,
      commitRx_commits, exec_readyRx, exec_publishRx_known, publishRx_new, tableMismatchRx_raises⟩,
    fun pg s job step rep => tryCommit_commits pg,
    fun pg s job step rep g houter hnew hall hquiet hearlier hpub hlast hsame hready => ?_, fun s job e p hpub => ?_⟩
  · rw [tryPublish_publishes pg houter hnew hall hquiet hearlier hpub hlast hsame hready]
    refine ⟨mem_loop_masterSends _ _, ?_⟩
    rw [jobOf, onlyChanges_masterSends _ _ .outer (by decide)]
    exact congrArg Job.readies (MgmtFunctions.jobOf_setJob _ _ _)
  · refine ⟨fun hbefore => (exec_epochSwitch hpub).trans (by rw [if_pos hbefore]), fun hat => ?_⟩
    refine ⟨_, (exec_epochSwitch hpub).trans (by rw [if_neg (Nat.not_lt.2 hat)]), ?_⟩
    have honly := onlyChanges_switchEpoch s job.toNat e p
    beta_reduce
    rw [jobOf_switchEpoch, if_pos rfl]
    exact ⟨rfl, rfl, rfl, rfl, rfl, rfl, rfl, honly .mem (by decide), fun j hj => (jobOf_switchEpoch _ _ _ _ _).trans (if_neg hj), honly⟩

end Sys2Proof.CommitsAndEpochs
end

section
/-! PROOFS. Byte forms (R90, R150, R250, R295, R424): what a network-order field reads where it was written, and the settlement of
O60. -/
namespace Sys2Proof.ByteForms
open Sys2Proof Sys2Proof.Machine Sys2Proof.ImagesAndModes

/-! ## Fields of a byte string (R7) -/

theorem foldl_beBytes (n v a : Nat) :
    (beBytes n v).foldl (fun a b => a * 256 + b.toNat) a = a * 256 ^ n + v % 256 ^ n := by
  induction n generalizing a with
  | zero => simp [beBytes, Nat.mod_one]
  | succ n ih =>
    have hsplit : v % 256 ^ (n + 1) = 256 ^ n * (v / 256 ^ n % 256) + v % 256 ^ n := by
      rw [pow_succ, Nat.mod_mul, Nat.add_comm]
    rw [beBytes, List.foldl_cons, ih, hsplit, BitVec.toNat_ofNat, show 2 ^ 8 = 256 from rfl]
    ring

/-- R7: a number's n low bytes spell it modulo 256^n. -/
theorem fromBe_beBytes (n v : Nat) : fromBe (beBytes n v) = v % 256 ^ n := by
  rw [fromBe, foldl_beBytes, Nat.zero_mul, Nat.zero_add]

/-- A field that starts at or behind the end of the bytes in front reads what follows them. -/
theorem beAt_append {m v off : Nat} (h : m ≤ off) (l : Bytes) (n : Nat) :
    beAt (beBytes m v ++ l) off n = beAt l (off - m) n := by
  rw [beAt, beAt, slice, slice, List.drop_append, length_beBytes, List.drop_of_length_le (by rw [length_beBytes]; exact h),
    List.nil_append]

/-- A field at the front reads back the word it was written from. -/
theorem ofNat_beAt_front {w n : Nat} (h : w = 8 * n) (x : BitVec w) (l : Bytes) :
    BitVec.ofNat w (beAt (beBytes n x.toNat ++ l) 0 n) = x := by
  have hx : x.toNat % 256 ^ n = x.toNat := Nat.mod_eq_of_lt (by simpa [h, pow_mul] using x.isLt)
  rw [beAt, slice, List.drop_zero, List.take_left' (length_beBytes n _), fromBe_beBytes, hx, BitVec.ofNat_toNat,
    BitVec.setWidth_eq]

theorem beAt_cons {off : Nat} (h : 1 ≤ off) (b : Byte) (l : Bytes) (n : Nat) : beAt (b :: l) off n = beAt l (off - 1) n := by
  obtain ⟨k, rfl⟩ := Nat.exists_eq_add_of_le' h
  rfl

theorem ofNat_beAt_cons (b : Byte) (l : Bytes) : BitVec.ofNat 8 (beAt (b :: l) 0 1) = b := by
  simp [beAt, slice, fromBe]

/-! ## Headers and messages

The three header bodies are unfolded by `delta`: the equation lemmas that `simp` and `rw` would ask Lean for are too costly to
check for byte strings of this length. -/

/-- R90: a command packet header, whatever follows it. -/
theorem parseHdr_hdrBytes (h : Header) (l : Bytes) : parseHdr (hdrBytes h ++ l) = h := by
  simp only [parseHdr, hdrBytes]
  delta hdrBody
  simp only [List.append_assoc]
  simp [beAt_append, ofNat_beAt_front]

theorem length_hdrBytes (h : Header) : (hdrBytes h).length = 64 := by
  rw [hdrBytes]
  delta hdrBody
  simp [length_beBytes]

/-- R150: a record header, whatever payload follows it. -/
theorem parseRecHdr_append (h : RecHdr) (l : Bytes) : parseRecHdr (recBody h ++ beBytes 8 h.check.toNat ++ l) = h := by
  simp only [parseRecHdr]
  delta recBody
  simp only [List.append_assoc]
  simp [beAt_append, ofNat_beAt_front]

theorem length_recHdr (h : RecHdr) : (recBody h ++ beBytes 8 h.check.toNat).length = 64 := by
  delta recBody
  simp [length_beBytes]

/-- R250: a state record header, whatever payload follows it. -/
theorem parseStHdr_append (h : StHdr) (l : Bytes) : parseStHdr (stBody h ++ beBytes 8 h.check.toNat ++ l) = h := by
  simp only [parseStHdr]
  delta stBody
  simp only [List.append_assoc]
  simp [beAt_append, ofNat_beAt_front]

theorem length_stHdr (h : StHdr) : (stBody h ++ beBytes 8 h.check.toNat).length = 64 := by
  delta stBody
  simp [length_beBytes]

/-- R295: a control message, whatever follows it. -/
theorem parseCtl_append (m : Ctl) (l : Bytes) : parseCtl (ctlBytes m ++ l) = m := by
  simp only [parseCtl, ctlBytes, ctlBody, List.append_assoc]
  simp [beAt_append, ofNat_beAt_front, beAt_cons, ofNat_beAt_cons]

theorem length_ctlBytes (m : Ctl) : (ctlBytes m).length = 48 := by
  simp [ctlBytes, ctlBody, length_beBytes]

/-- R424: a recovery message, whatever follows it. -/
theorem parseRcv_append (m : Rcv) (l : Bytes) : parseRcv (rcvBytes m ++ l) = m := by
  simp only [parseRcv, rcvBytes, rcvBody, List.append_assoc]
  simp [beAt_append, ofNat_beAt_front, beAt_cons, ofNat_beAt_cons]

theorem length_rcvBytes (m : Rcv) : (rcvBytes m).length = 64 := by
  simp [rcvBytes, rcvBody, length_beBytes]

/-! ## Records with their payloads -/

theorem parseRec_recBytes (r : Record) : parseRec (recBytes r) = r := by
  rw [parseRec, recBytes, parseRecHdr_append, List.drop_left' (length_recHdr r.hdr)]

theorem parseSt_stBytes (r : StRec) : parseSt (stBytes r) = r := by
  rw [parseSt, stBytes, parseStHdr_append, List.drop_left' (length_stHdr r.hdr)]

/-- Settles O60: every layout reads back field by field, and has the bytes of its table. -/
theorem unitsReadBack : Obligations.UnitsReadBack := by
  refine ⟨fun h l => ⟨parseHdr_hdrBytes h l, length_hdrBytes h⟩, fun r => ⟨parseRec_recBytes r, ?_⟩,
    fun r => ⟨parseSt_stBytes r, ?_⟩, fun m => ⟨?_, length_ctlBytes m⟩, fun m => ⟨?_, length_rcvBytes m⟩⟩
  · rw [recBytes, List.length_append, length_recHdr]
  · rw [stBytes, List.length_append, length_stHdr]
  · simpa using parseCtl_append m []
  · simpa using parseRcv_append m []

end Sys2Proof.ByteForms
end

section
/-! PROOFS. Packets refused on arrival (R86, R91, R94, R102, R110, R240) and what packets cost (R104): the settlement of O18 and
O19. -/
namespace Sys2Proof.RefusedPackets
open Sys2Proof Sys2Proof.Machine Sys2Proof.Laws Sys2Proof.AcceptedPackets

/-! ## What a packet costs (R104) -/

theorem creditCost_free {op : Nat} (h : op = 0x0B ∨ op = 0x0C ∨ op = 0x0D) (len : Nat) : creditCost op len = 0 :=
  if_pos (by simpa [or_assoc] using h)

/-- R104: header and payload in units of 256 bytes, rounded up. -/
theorem creditCost_costed {op : Nat} (hb : op ≠ 0x0B) (hc : op ≠ 0x0C) (hd : op ≠ 0x0D) (len : Nat) :
    creditCost op len = (64 + len + 255) / 256 :=
  if_neg (by simp [hb, hc, hd])

/-- Settles O18: the cost of a costed packet is a quotient rounded up, and the others cost nothing. -/
theorem creditCost : Obligations.CreditCost := by
  refine ⟨fun op len hb hc hd => ?_, fun op hb hc hd => ?_, fun len =>
    ⟨creditCost_free (by simp) len, creditCost_free (by simp) len, creditCost_free (by simp) len⟩⟩
  · rw [creditCost_costed hb hc hd]
    omega
  · simp only [creditCost_costed hb hc hd]
    decide

/-! ## The first status of R91 -/

section
variable {s : State} {via : Via} {p : Packet}

theorem headerCheck_badCheck (h : p.hdr.check.toNat ≠ packetCheck p) : headerCheck s via p = 0x2201 := if_pos h

variable (hcheck : p.hdr.check.toNat = packetCheck p) (hver : p.hdr.version = 1)
include hcheck hver

theorem headerCheck_badOpcode (hop : isRequest p.hdr.opcode.toNat = false) : headerCheck s via p = 0x2203 := by
  unfold headerCheck
  rw [if_neg (not_not.2 hcheck), if_neg (not_not.2 hver), if_pos (by simp [hop])]

/-- R91: the lengths of a packet are right: its payload is as long as the header says, and its datagram is as long as both. -/
def Sized (via : Via) (p : Packet) : Prop :=
  p.hdr.payloadLen.toNat ≤ 8192 ∧ p.payload.length = p.hdr.payloadLen.toNat ∧
    (hasPayload p.hdr.opcode.toNat = true ∨ p.payload = []) ∧ ∀ d : Dgram, via = .fabric d → d.udpLen = 72 + p.payload.length

theorem headerCheck_badField (hop : isRequest p.hdr.opcode.toNat = true) (hsize : Sized via p) (hf : fieldsOk p.hdr = false) :
    headerCheck s via p = 0x2206 := by
  obtain ⟨hmax, hlen, hpay, hdgram⟩ := hsize
  have hnone : hasPayload p.hdr.opcode.toNat = true ∨ p.hdr.payloadLen = 0 :=
    hpay.imp_right fun h => BitVec.eq_of_toNat_eq (by rw [← hlen, h]; rfl)
  have hbare : (!hasPayload p.hdr.opcode.toNat && decide (p.hdr.payloadLen ≠ 0)) = false := by
    rcases hnone with h | h <;> simp [h]
  unfold headerCheck
  rw [if_neg (not_not.2 hcheck), if_neg (not_not.2 hver), if_neg (by simp [hop]), if_neg, if_pos (by simp [hf])]
  rw [hbare]
  cases via with
  | window q => simp [hlen, hmax]
  | fabric d => simp [hlen, hmax, hdgram d rfl]

end

/-- R240: a quantity code that a STATE_WRITE or STATE_READ does not take is out of the range of its field. -/
theorem fieldsOk_badQty {h : Header} (hq : badQty h = true) : fieldsOk h = false := by
  simp only [badQty, opIs, Bool.or_eq_true, Bool.and_eq_true, beq_iff_eq] at hq
  rcases hq with ⟨hop, haux⟩ | ⟨hop, haux⟩
  · have hzero : ¬h.aux = 0#8 := fun h0 => by simp [h0] at haux
    have hcodes : ¬h.aux.toNat ∈ [1, 2, 4] := fun hm => by simp_all
    simp [fieldsOk, hop, hzero, hcodes, isImageOp]
  · have hcodes : ¬h.aux.toNat ∈ [1, 2, 4] := fun hm => by simp_all
    simp [fieldsOk, hop, hcodes, isImageOp]

/-! ## Refusals on arrival (R91, R110) -/

section
variable {s a : State} {via : Via} {p : Packet} (hin : ingress s via p = some a)
include hin

theorem receive_badCheck (hcheck : p.hdr.check.toNat ≠ packetCheck p) (f : Ctx → State → State × Disp) :
    receive via p f s = refuseRaw a via p.hdr 0x2201 := by
  simp only [receive, hin, headerCheck_badCheck hcheck]
  rfl

/-- R91, R110: a packet of a wrong header is refused, with its credits released where they were accepted. -/
theorem receive_badHeader {code : Nat} (hcode : headerCheck a via p = code) (h0 : code ≠ 0) (h1 : code ≠ 0x2201)
    (f : Ctx → State → State × Disp) :
    let k : Ctx := ⟨via, originOf via p.hdr, p, a.fab.seq⟩
    receive via p f s = if (creditStep a k.org p.hdr k.cost).2 ≠ 0 then refuseBare a k code
      else refusePkt (creditStep a k.org p.hdr k.cost).1 k code := by
  simp only [receive, hin, hcode]
  rw [if_neg h1, if_pos h0, if_pos h0]

end

/-- R110: a refusal of a window queue's packet is answered in the completion ring. -/
theorem refusePkt_window {k : Ctx} {q : Fin 4} (hvia : k.via = .window q) (horg : k.org = .win q) (s : State) (code : Nat) :
    refusePkt s k code = cqPush (count s (.tm 0) 1 1) (sealPacket ⟨{ echo k.h code with credit := 0 }, []⟩) := by
  simp only [refusePkt, refuseBare, updCredit, srcOf, horg, hvia, sendHdr, viaQuad]

theorem mgmtCore_undefined {k : Ctx} (s : State) (h : mgmtDefined k.h.arg0.toNat = false) : mgmtCore k s = (s, .refuse 0x2206) := by
  unfold mgmtCore
  split <;> simp_all [mgmtDefined]

/-- Settles O19: each clause is the drop, or the refusal under the first status that applies. -/
theorem packetsRefused : Obligations.PacketsRefused := by
  refine fun s via p d => ⟨fun h => ?_, fun q hcheck hver hop => ?_, fun a hin hcheck hver hop => ?_, fun a hin hcheck hop => ?_,
    fun k u ha hop hf => ?_, fun a hin hcheck hver hq hmax hlen hread hdgram => ?_⟩
  · have hforeign : admitsFrame s d = false := by
      rcases h with h | h | h
      · simp [admitsFrame, h]
      · simp [admitsFrame, show ¬72 ≤ d.udpLen by omega]
      · simp [admitsFrame, h]
    exact congrArg Host.Outcome.next (if_neg (by simp [hforeign]))
  · have hbad := receive_badHeader (s := s) (via := .window q) rfl (headerCheck_badOpcode hcheck hver hop) (by decide) (by decide) serve
    refine congrArg Host.Outcome.next ((if_pos (by simp [hop])).trans (hbad.trans ?_))
    exact (if_neg (not_not.2 rfl)).trans (refusePkt_window (q := q) rfl rfl _ _)
  · exact congrArg Host.Outcome.next ((if_pos (by simp [hop])).trans
      (receive_badHeader hin (headerCheck_badOpcode hcheck hver hop) (by decide) (by decide) serve))
  · exact congrArg Host.Outcome.next ((if_pos (by simp [hop])).trans (receive_badCheck hin hcheck serve))
  · have hk := accepted_pkt ha
    have hserve : serve k u = (u, .refuse 0x2206) := by
      rw [← mgmtCore_undefined u (by rwa [Ctx.h, hk])]
      simp [serve, Ctx.h, hk, hop]
    exact congrArg Host.Outcome.next ((rowPacket_of_accepted ha (by simp [opIs, hop, hf])).trans (by rw [hserve]))
  · have hops : p.hdr.opcode = 8 ∨ p.hdr.opcode = 9 := by
      simp only [badQty, opIs, Bool.or_eq_true, Bool.and_eq_true, beq_iff_eq] at hq
      exact hq.imp (fun h => BitVec.eq_of_toNat_eq h.1) fun h => BitVec.eq_of_toNat_eq h.1
    have hreq : isRequest p.hdr.opcode.toNat = true := by
      rcases hops with h | h <;> rw [h] <;> rfl
    have hpay : hasPayload p.hdr.opcode.toNat = true ∨ p.payload = [] :=
      hops.imp (fun h => by rw [h]; rfl) hread
    have hbad : headerCheck a via p = 0x2206 :=
      headerCheck_badField hcheck hver hreq ⟨hmax, hlen, hpay, hdgram⟩ (fieldsOk_badQty hq)
    exact congrArg Host.Outcome.next ((if_pos hq).trans (receive_badHeader hin hbad (by decide) (by decide) serve))

end Sys2Proof.RefusedPackets
end

section
/-! PROOFS. Attachment and detachment of sources (R89, R103), and the settlement of O22. -/
namespace Sys2Proof.Attaching
open Sys2Proof Sys2Proof.Machine Sys2Proof.Laws Sys2Proof.AcceptedPackets Sys2Proof.CreditsAndSlots

/-! ## ATTACH and DETACH as accepted packets -/

section
variable {s : State} {via : Via} {p : Packet} {k : Ctx} {u : State} (ha : Accepted s via p k u)
include ha

theorem accepted_org : k.org = originOf via p.hdr := by
  obtain ⟨a, -, -, -, rfl, -⟩ := ha
  rfl

theorem exec_attach (hop : p.hdr.opcode = 0x0B) : exec (.attach via p) s = .next (settle k (attachCore k u)) :=
  congrArg Host.Outcome.next (ImagesAndModes.boot_row ha (op := 0x0B) (by simp [hop]) fun h => by simp only [serve, h])

theorem exec_detach (hop : p.hdr.opcode = 0x0C) : exec (.detach via p) s = .next (settle k (detachCore k u)) :=
  congrArg Host.Outcome.next (ImagesAndModes.boot_row ha (op := 0x0C) (by simp [hop]) fun h => by simp only [serve, h])

/-- R104, R106: an ATTACH or DETACH that waits has no credits to hold again. -/
theorem settle_waits_free (hop : p.hdr.opcode = 0x0B ∨ p.hdr.opcode = 0x0C) (t : State) : settle k (t, .waits) = t := by
  have hfree : k.cost = 0 := by
    rw [Ctx.cost, accepted_pkt ha]
    rcases hop with h | h <;> rw [h] <;> exact RefusedPackets.creditCost_free (by decide) _
  exact if_pos hfree

end

/-! ## The functions, case by case -/

section
variable {k : Ctx} {s : State} {d : Dgram} (hvia : k.via = .fabric d)
include hvia

theorem attachCore_attached {x : Source} (hx : findSrc s d.ip k.h.sourceId = some x) (hadm : x.admitted = true) : attachCore k s =
    (putSrc s { x with port := d.port, udpPort := d.udpPort, tagged := d.tagged, resetWait := x.resetWait ++ [k.pkt] }, .waits) := by
  simp [attachCore, hvia, hx, hadm]

section
variable (hx : findSrc s d.ip k.h.sourceId = none)
include hx

theorem attachCore_noRule (hr : matchRule s.fab.rules d.ip k.h.sourceId = none) : attachCore k s = (s, .refuse 0x2209) := by
  simp [attachCore, hvia, hx, hr]

variable {r : SrcRule} (hr : matchRule s.fab.rules d.ip k.h.sourceId = some r)
include hr

theorem attachCore_full (hfull : 2048 ≤ s.fab.srcs.length) : attachCore k s = (s, .refuse 0x220A) := by
  simp [attachCore, hvia, hx, hr, hfull]

theorem attachCore_new (hroom : s.fab.srcs.length < 2048) : attachCore k s = completeNow
    { s with fab := { s.fab with srcs := s.fab.srcs ++ [newSource d k.h.sourceId r] } } k
    (attachBytes (newSource d k.h.sourceId r)) := by
  simp [attachCore, hvia, hx, hr, Nat.not_le.2 hroom]

end
end

/-- R103: DETACH of an attached source. -/
theorem detachCore_attached {k : Ctx} {s : State} {x : Source} (hx : srcOf s k.org = some x) : detachCore k s =
    if boundSrc s k.org then (s, .refuse 0x2210) else (putSrc s { x with detachWait := x.detachWait ++ [k.pkt] }, .waits) := by
  simp only [detachCore, hx]

/-! ## Answers to a fabric source -/

section
variable {s : State} {ip : BitVec 128} {id : BitVec 16}

/-- R89: a packet to a fabric source changes the source's counts and a port's queues. -/
theorem onlyChanges_sendHdr_fabric (s : State) (ip : BitVec 128) (id : BitVec 16) (vc : Fvc) (h : Header) (b : Bytes) :
    OnlyChanges [.fab, .egress] s (sendHdr s (.fabric ip id) vc h b) := by
  simp only [sendHdr]
  split
  · exact onlyChanges_refl _ _
  · exact onlyChanges_trans (onlyChanges_putSrc _ _) (onlyChanges_egPush _ _ _ _ _)

theorem findSrc_of_onlyChanges {ps : List Part} {s t : State} (h : OnlyChanges ps s t) (hf : Part.fab ∉ ps) :
    findSrc t ip id = findSrc s ip id := congrArg (fun f : Fab => f.srcs.find? (isSrc ip id)) (h .fab hf)

/-- R105: a packet to a source reports the credits of its VC. -/
theorem findSrc_sendHdr {x : Source} (hx : findSrc s ip id = some x) (vc : Fvc) (h : Header) (b : Bytes) :
    findSrc (sendHdr s (.fabric ip id) vc h b) ip id =
      some { x with credit := x.credit.set vc { x.credit.get vc with unrep := 0 } } := by
  simp only [sendHdr, hx]
  exact (findSrc_of_onlyChanges (onlyChanges_egPush _ _ _ _ _) (by decide)).trans (findSrc_putSrc hx rfl rfl)

theorem report_zero (vc : Fvc) :
    (Vc4.all Credit.zero).set vc { (Vc4.all Credit.zero).get vc with unrep := 0 } = Vc4.all Credit.zero := by
  cases vc <;> rfl

/-- R103: the answers to packets that waited, under one status. -/
def answerAll (ip : BitVec 128) (id : BitVec 16) (st : Nat) (b : Bytes) (s : State) (l : List Packet) : State :=
  l.foldl (fun s p => sendComplete s (.fabric ip id) p.hdr st b) s

theorem onlyChanges_answerAll (st : Nat) (b : Bytes) (s : State) (l : List Packet) :
    OnlyChanges [.fab, .egress] s (answerAll ip id st b s l) :=
  CommitsAndEpochs.onlyChanges_foldl (fun s _ => onlyChanges_sendHdr_fabric s ip id _ _ _) l s

/-- R103: answering leaves a source without credits as it is. -/
theorem findSrc_answerAll (st : Nat) (b : Bytes) (l : List Packet) {s : State} {x : Source} (hx : findSrc s ip id = some x)
    (hzero : x.credit = Vc4.all Credit.zero) : findSrc (answerAll ip id st b s l) ip id = some x := by
  induction l generalizing s with
  | nil => exact hx
  | cons p l ih =>
    refine ih ((findSrc_sendHdr hx _ _ _).trans ?_)
    rw [hzero, report_zero, ← hzero]

theorem onlyChanges_endFlights (s : State) (org : Origin) (op st : Nat) : OnlyChanges [.fab] s (endFlights s org op st) :=
  onlyChanges_fab s _

/-! ## Sources that leave (R103) -/

theorem onlyChanges_leaveSrc (s : State) (ip : BitVec 128) (id : BitVec 16) : OnlyChanges [.fab] s (leaveSrc s ip id) :=
  onlyChanges_fab s _

theorem findSrc_leaveSrc (s : State) (ip : BitVec 128) (id : BitVec 16) : findSrc (leaveSrc s ip id) ip id = none :=
  List.find?_eq_none.2 fun x hx => by simpa using (List.mem_filter.1 hx).2

section
variable {x : Source} (hx : findSrc s ip id = some x) (hfree : holdsPacket s x = false)
include hx hfree

theorem exec_attachReset (hw : x.resetWait ≠ []) : exec (.attachReset ip id) s =
    .next (endFlights (answerAll ip id 0 (attachBytes x) (putSrc s { x with credit := Vc4.all Credit.zero, resetWait := [] })
      x.resetWait) (.fabric ip id) 0x0B 0) := by
  change execAttachReset ip id s = _
  simp [execAttachReset, hx, hfree, hw, answerAll]

/-- R103: an ATTACH that waited leaves its source with every credit counter at 0. -/
theorem attachReset_resets (hw : x.resetWait ≠ []) : Answers (.attachReset ip id) s (fun t => OnlyChanges [.fab, .egress] s t ∧
    ∃ y, findSrc t ip id = some y ∧ y.credit = Vc4.all Credit.zero ∧ y.resetWait = [] ∧ y.grant = x.grant ∧ y.port = x.port) := by
  have hput := findSrc_putSrc (y := { x with credit := Vc4.all Credit.zero, resetWait := [] }) hx rfl rfl
  refine ⟨_, exec_attachReset hx hfree hw, ?_, _, findSrc_answerAll 0 (attachBytes x) x.resetWait hput rfl, rfl, rfl, rfl, rfl⟩
  exact onlyChanges_mono (onlyChanges_trans (onlyChanges_trans (onlyChanges_putSrc _ _) (onlyChanges_answerAll _ _ _ _))
    (onlyChanges_endFlights _ _ _ _)) (by simp)

variable (hbound : boundSrc s (.fabric ip id) = false)
include hbound

theorem exec_sourceDetach (hw : x.detachWait ≠ []) : exec (.sourceDetach ip id) s =
    .next (leaveSrc (endFlights (answerAll ip id 0 [] (putSrc s { x with detachWait := [] }) x.detachWait)
      (.fabric ip id) 0x0C 0) ip id) := by
  change execSourceDetach ip id s = _
  simp [execSourceDetach, hx, hfree, hw, hbound, answerAll]

/-- R103: a detaching source whose packets have been taken leaves. -/
theorem sourceDetach_leaves (hw : x.detachWait ≠ []) : Answers (.sourceDetach ip id) s (fun t =>
    OnlyChanges [.fab, .egress] s t ∧ findSrc t ip id = none) := by
  refine ⟨_, exec_sourceDetach hx hfree hbound hw, ?_, findSrc_leaveSrc _ _ _⟩
  exact onlyChanges_mono (onlyChanges_trans (onlyChanges_trans (onlyChanges_trans (onlyChanges_putSrc _ _)
    (onlyChanges_answerAll _ _ _ _)) (onlyChanges_endFlights _ _ _ _)) (onlyChanges_leaveSrc _ _ _)) (by simp)

theorem exec_unadmittedSourceDetach (hadm : x.admitted = false) :
    exec (.unadmittedSourceDetach ip id) s = .next (leaveSrc s ip id) := by
  change execUnadmittedSourceDetach ip id s = _
  simp [execUnadmittedSourceDetach, hx, hfree, hbound, hadm]

end
end

/-- Settles O22: ATTACH and DETACH as accepted packets, and what follows once their source's packets are taken. -/
theorem attachment : Obligations.Attachment := by
  refine ⟨fun s d p k u ha hop => ?_, fun s d p k u x ha hop hx => ?_, fun s ip id x hx hfree =>
    ⟨attachReset_resets hx hfree, fun hw hbound => sourceDetach_leaves hx hfree hbound hw,
      fun hadm hbound => ⟨exec_unadmittedSourceDetach hx hfree hbound hadm, findSrc_leaveSrc _ _ _⟩⟩⟩
  all_goals
    obtain rfl := accepted_pkt ha
    have hvia := Contributions.accepted_via ha
  · have hto : ∀ {r}, attachCore k u = r → exec (.attach (.fabric d) k.pkt) s = .next (settle k r) := fun h => h ▸ exec_attach ha hop
    exact ⟨fun r hx hr hroom => hto (attachCore_new hvia hx hr hroom), fun hx hr => hto (attachCore_noRule hvia hx hr),
      fun r hx hr hfull => hto (attachCore_full hvia hx hr hfull), fun x hx hadm =>
        (hto (attachCore_attached hvia hx hadm)).trans (by rw [settle_waits_free ha (.inl hop)])⟩
  · have horg : k.org = .fabric d.ip k.pkt.hdr.sourceId := accepted_org ha
    rw [exec_detach ha hop, detachCore_attached (by rw [horg]; exact hx), horg]
    split
    · rfl
    · rw [settle_waits_free ha (.inr hop)]

end Sys2Proof.Attaching
end

section
/-! PROOFS. Results delivered, acknowledged and sent again (R97, R98, R99, R135, R462), and the settlement of O28. -/
namespace Sys2Proof.Results
open Sys2Proof Sys2Proof.Machine Sys2Proof.Laws Sys2Proof.AcceptedPackets Sys2Proof.Contributions Sys2Proof.RaisedCodes

/-! ## Delivery to the members of an instance (R97) -/

/-- How far each chunk owed is: its index, its sendings, and whether it is acknowledged. -/
def progressOf (os : List OwedChunk) : List (Nat × Nat × Bool) := os.map fun o => (o.idx, o.sends, o.acked)

theorem onlyChanges_markDone (s : State) (f : Flight → Bool) (st : Nat) : OnlyChanges [.fab] s (markDone s f st) :=
  onlyChanges_fab s _

theorem onlyChanges_sendResult (s : State) (x : Placed) (c : BitVec 64) (r : Nat) (b : Origin × BitVec 8) (n : Nat)
    (o : OwedChunk) (resent : Bool) : OnlyChanges answerParts s (sendResult s x c r b n o resent) :=
  onlyChanges_sendTo _ _ _ _ _

/-- R97: a rank that has no answer yet and is bound is sent every chunk it is owed, once, and its COMPLETE. -/
theorem deliverTo_delivers {x : Placed} {s : State} {r : Nat} {b : Origin × BitVec 8} (c : BitVec 64)
    (hnew : r ∉ (cellOf s x.desc.cell).answered) (hb : mget? (cellOf s x.desc.cell).bound r = some b) :
    ∃ v os, OnlyChanges answerParts s v ∧ progressOf os = (List.range (owedChunks x r)).map (fun i => (i, 1, false)) ∧
      deliverTo x c s r = setCell v x.desc.cell { cellOf v x.desc.cell with
        deliv := mset (cellOf v x.desc.cell).deliv r os, answered := (cellOf v x.desc.cell).answered ++ [r] } := by
  simp only [deliverTo, hb]
  rw [if_neg (by simpa using hnew)]
  refine ⟨_, _, ?_, ?_, rfl⟩
  · have hchunks := CommitsAndEpochs.onlyChanges_foldl fun s o => onlyChanges_sendResult s x c r b (owedChunks x r) o false
    exact onlyChanges_mono (onlyChanges_trans (onlyChanges_then (hchunks _ _) (onlyChanges_sendTo _ _ _ _ _))
      (onlyChanges_markDone _ _ _)) (by simp [answerParts])
  · simp [progressOf, Function.comp_def]

/-- What delivery does to an instance's cell: its state and members stay, what was delivered stays, and what is new has been sent
once. -/
structure Delivered (x : Placed) (s t : State) : Prop where
  only : OnlyChanges (.coll :: answerParts) s t
  others : ∀ n, n ≠ x.desc.cell → cellOf t n = cellOf s n
  st : (cellOf t x.desc.cell).st = (cellOf s x.desc.cell).st
  bound : (cellOf t x.desc.cell).bound = (cellOf s x.desc.cell).bound
  kept : ∀ r ∈ (cellOf s x.desc.cell).answered, r ∈ (cellOf t x.desc.cell).answered ∧
    mget (cellOf t x.desc.cell).deliv r [] = mget (cellOf s x.desc.cell).deliv r []
  fresh : ∀ r ∈ (cellOf t x.desc.cell).answered, r ∉ (cellOf s x.desc.cell).answered →
    progressOf (mget (cellOf t x.desc.cell).deliv r []) = (List.range (owedChunks x r)).map (fun i => (i, 1, false))

namespace Delivered
variable {x : Placed} {s t u : State}

theorem refl (x : Placed) (s : State) : Delivered x s s :=
  ⟨onlyChanges_refl _ _, fun _ _ => rfl, rfl, rfl, fun _ h => ⟨h, rfl⟩, fun _ h hn => absurd h hn⟩

theorem trans (h : Delivered x s t) (g : Delivered x t u) : Delivered x s u := by
  refine ⟨onlyChanges_then h.only g.only, fun n hn => (g.others n hn).trans (h.others n hn), g.st.trans h.st,
    g.bound.trans h.bound, fun r hr => ?_, fun r hr hn => ?_⟩
  · obtain ⟨hrt, hst⟩ := h.kept r hr
    obtain ⟨hru, htu⟩ := g.kept r hrt
    exact ⟨hru, htu.trans hst⟩
  · by_cases hrt : r ∈ (cellOf t x.desc.cell).answered
    · rw [(g.kept r hrt).2]
      exact h.fresh r hrt hn
    · exact g.fresh r hr hrt

theorem foldl {f : State → Nat → State} (h : ∀ s r, Delivered x s (f s r)) (l : List Nat) (s : State) :
    Delivered x s (l.foldl f s) := by
  induction l generalizing s with
  | nil => exact refl x s
  | cons r l ih => exact (h s r).trans (ih _)

end Delivered

/-- R97: delivery to one rank, which is answered if it is bound. -/
theorem deliverTo_delivered (x : Placed) (c : BitVec 64) (s : State) (r : Nat) : Delivered x s (deliverTo x c s r) ∧
    ((mget? (cellOf s x.desc.cell).bound r).isSome = true → r ∈ (cellOf (deliverTo x c s r) x.desc.cell).answered) := by
  by_cases hans : r ∈ (cellOf s x.desc.cell).answered
  · have hstay : deliverTo x c s r = s := if_pos (by simpa using hans)
    rw [hstay]
    exact ⟨.refl x s, fun _ => hans⟩
  · cases hb : mget? (cellOf s x.desc.cell).bound r with
    | none =>
      have hstay : deliverTo x c s r = s := by
        simp only [deliverTo, hb]
        exact if_neg (by simpa using hans)
      rw [hstay]
      exact ⟨.refl x s, nofun⟩
    | some b =>
      obtain ⟨v, os, honly, hos, heq⟩ := deliverTo_delivers c hans hb
      have hv : ∀ n, cellOf v n = cellOf s n := cellOf_of_onlyChanges honly (by decide)
      rw [heq]
      refine ⟨⟨onlyChanges_mono (onlyChanges_trans honly (onlyChanges_setCell _ _ _)) (by simp [or_comm]),
        fun n hn => (cellOf_setCell_ne _ _ hn).trans (hv n), ?_, ?_, fun q hq => ?_, fun q hq hn => ?_⟩, fun _ => ?_⟩
      all_goals simp only [cellOf_setCell, hv] at *
      · have hne : q ≠ r := fun h => hans (h ▸ hq)
        exact ⟨List.mem_append_left _ hq, mget_mset_ne _ _ _ hne⟩
      · obtain rfl : q = r := by simpa [hn] using hq
        rw [mget_mset_same, hos]
      · simp

/-- R97: delivery to a list of ranks answers each that is bound. -/
theorem answered_foldl_deliverTo (x : Placed) (c : BitVec 64) {r : Nat} (l : List Nat) (hr : r ∈ l) (s : State)
    (hb : (mget? (cellOf s x.desc.cell).bound r).isSome = true) :
    r ∈ (cellOf (l.foldl (deliverTo x c) s) x.desc.cell).answered := by
  induction l generalizing s with
  | nil => cases hr
  | cons q l ih =>
    obtain ⟨hdel, hans⟩ := deliverTo_delivered x c s q
    by_cases hrq : r = q
    · subst hrq
      exact ((Delivered.foldl (fun s q => (deliverTo_delivered x c s q).1) l _).kept r (hans hb)).1
    · exact ih (List.mem_of_ne_of_mem hrq hr) _ (by rwa [hdel.bound])

/-! ## What follows a delivery: the interval of a fast instance, and the re-check -/

/-- R49: an error of class 0 is recorded on its page, and may raise vector 0. -/
theorem onlyChanges_raiseFor_minor (s : State) (pg : PageId) {code : Nat} (hc : codeClass code = 0) (info : Nat) (c : BitVec 64) :
    OnlyChanges [.pages, .out, .msix, .clk] s (raiseFor s pg code info c) := by
  unfold raiseFor raiseSubj
  extract_lets cls p0 p1 s1 s2 ic sc s3 a lg s4
  have hcls : cls = 0 := hc
  have hibi : s3 = s2 := if_neg (by simp [hcls])
  have hlog : s4 = s3 := if_neg (by simp [lg, hcls])
  have hset : OnlyChanges [.pages, .out, .msix, .clk] s s1 :=
    onlyChanges_mono (onlyChanges_trans (onlyChanges_noteClock s pg) (onlyChanges_setPage _ pg _)) (by simp)
  rw [if_pos (by simp [hcls]), hlog, hibi]
  exact onlyChanges_ite _ (onlyChanges_then hset (onlyChanges_mono (onlyChanges_notify _ _) (by simp))) hset

/-- R135: the interval of a fast instance is recorded, and counted late beyond LIMIT. -/
def fastInterval (cell : Fin 16384) (ns : Nat) (c : BitVec 64) (s : State) : State :=
  if isFastCell cell.val then
    let q := cellQuad cell.val
    let p := pageOf s (.ffe q)
    let v := setPage s (.ffe q) { p with latch := mset p.latch 0x48 (BitVec.ofNat 32 (max (mget p.latch 0x48 0).toNat (min ns 0xFFFF))) }
    if ns > fldV v (.ffe q) 0x44 10 0 then raiseCell (count v (.ffe q) 1 1) cell.val 0x0502 0 c else v
  else s

theorem onlyChanges_fastInterval (cell : Fin 16384) (ns : Nat) (c : BitVec 64) (s : State) :
    OnlyChanges [.pages, .out, .ctr, .msix, .clk] s (fastInterval cell ns c s) := by
  have hset : ∀ pg p, OnlyChanges [.pages, .out, .ctr, .msix, .clk] s (setPage s pg p) := fun pg p =>
    onlyChanges_mono (onlyChanges_setPage s pg p) (by simp)
  have hlate : ∀ v : State, OnlyChanges [.pages, .out, .ctr, .msix, .clk] v
      (raiseCell (count v (.ffe (cellQuad cell.val)) 1 1) cell.val 0x0502 0 c) := fun v =>
    onlyChanges_mono (onlyChanges_trans (onlyChanges_count _ _ _ _) (onlyChanges_raiseFor_minor _ _ rfl _ _)) (by simp)
  exact onlyChanges_ite _ (onlyChanges_ite _ (onlyChanges_then (hset _ _) (hlate _)) (hset _ _)) (onlyChanges_refl _ _)

/-- R168: the start of the re-check is noted in its cell, which keeps all else. -/
theorem tryHarvest_notes (s : State) (x : Placed) (c : BitVec 64) : OnlyChanges [.coll] s (tryHarvest s x c) ∧
    (∀ n, n ≠ x.desc.cell → cellOf (tryHarvest s x c) n = cellOf s n) ∧
    ∃ b, cellOf (tryHarvest s x c) x.desc.cell = { cellOf s x.desc.cell with recheck := b } := by
  simp only [tryHarvest]
  split
  · exact ⟨onlyChanges_setCell _ _ _, fun n hn => cellOf_setCell_ne _ _ hn, _, cellOf_setCell _ _ _⟩
  · exact ⟨onlyChanges_refl _ _, fun _ _ => rfl, _, rfl⟩

/-! ## RESULT_DELIVERY (R97, R135) -/

section
variable {s : State} {cell : Fin 16384} {x : Placed} (hx : findInst s (cellOf s cell.val).ciid = some x)
  (hst : (cellOf s cell.val).st = .complete)
include hx hst

theorem exec_resultDelivery (ns : Nat) (howed : ∃ r ∈ x.desc.ranks, r ∉ (cellOf s cell.val).answered) :
    exec (.resultDelivery cell ns) s = .next (tryHarvest (fastInterval cell ns (cellOf s cell.val).ciid
      (x.desc.ranks.foldl (deliverTo x (cellOf s cell.val).ciid) s)) x (cellOf s cell.val).ciid) := by
  change execResultDelivery cell ns s = _
  have hall : x.desc.ranks.all (fun r => (cellOf s cell.val).answered.contains r) = false := by simpa using howed
  simp only [execResultDelivery, hx, hst, hall]
  rfl

/-- R97: a COMPLETE cell delivers to every bound rank that has no answer yet. -/
theorem resultDelivery_delivers (ns : Nat) (hcell : x.desc.cell = cell.val)
    (howed : ∃ r ∈ x.desc.ranks, r ∉ (cellOf s cell.val).answered) : Answers (.resultDelivery cell ns) s (fun t =>
      (cellOf t cell.val).st = .complete ∧ (∀ n, n ≠ cell.val → cellOf t n = cellOf s n) ∧
      OnlyChanges [.coll, .fab, .egress, .cpw, .out, .ctr, .pages, .msix, .clk] s t ∧
      ∀ (r : Nat) (b : Origin × BitVec 8), r ∈ x.desc.ranks → mget? (cellOf s cell.val).bound r = some b →
        r ∈ (cellOf t cell.val).answered ∧ (r ∉ (cellOf s cell.val).answered →
          (mget (cellOf t cell.val).deliv r []).map (fun o => (o.idx, o.sends, o.acked)) =
            (List.range (owedChunks x r)).map (fun i => (i, 1, false)))) := by
  refine ⟨_, exec_resultDelivery hx hst ns howed, ?_⟩
  generalize (cellOf s cell.val).ciid = c
  have hdel := Delivered.foldl (fun s r => (deliverTo_delivered x c s r).1) x.desc.ranks s
  have hans := fun r hr => answered_foldl_deliverTo x c (r := r) x.desc.ranks hr s
  generalize x.desc.ranks.foldl (deliverTo x c) s = u at hdel hans
  have hfast := onlyChanges_fastInterval cell ns c u
  have hcells := cellOf_of_onlyChanges hfast (by decide)
  generalize fastInterval cell ns c u = v at hfast hcells
  obtain ⟨hnote, hothers, b, hrecheck⟩ := tryHarvest_notes v x c
  rw [← hcell] at hst ⊢
  rw [hrecheck, hcells]
  refine ⟨hdel.st.trans hst, fun n hn => ((hothers n hn).trans (hcells n)).trans (hdel.others n hn), ?_, fun r dst hr hb => ?_⟩
  · exact onlyChanges_mono (onlyChanges_trans (onlyChanges_trans hdel.only hfast) hnote) (by simp [answerParts])
  · have hin := hans r hr (by rw [hb]; rfl)
    exact ⟨hin, hdel.fresh r hin⟩

end

/-! ## ACK and RESEND (R98) -/

/-- R106: a packet done reports its credits. -/
theorem onlyChanges_settle_done (k : Ctx) (s : State) (st : Nat) : OnlyChanges [.fab, .egress] s (settle k (s, .done st)) := by
  have hreport : OnlyChanges [.fab, .egress] s (reportHalf s k.org k.vc) := by
    unfold reportHalf
    split
    · exact onlyChanges_ite _ (PacketsUnderWay.onlyChanges_sendCredit _ _ _ _ _ _) (onlyChanges_refl _ _)
    · exact onlyChanges_refl _ _
  exact onlyChanges_mono (onlyChanges_trans (onlyChanges_ite _ (onlyChanges_refl _ _) hreport) (onlyChanges_fab _ _)) (by simp)

section
variable {k : Ctx} {s : State}

/-- R98: an ACK or RESEND of an instance that its cell holds in no error state acts on what the rank is owed. -/
theorem onInstance_acts {x : Placed} (f : State → Placed → Nat → State) (hat : attempt s k.h.ciid = .now)
    (hx : findInst s k.h.ciid = some x) (hok : ackRefusal x k.h (k.h.vc.toNat % 4) = 0)
    (hh : (instRec s k.h.ciid).harvested = false) (hd : (instRec s k.h.ciid).decided = none)
    (hc : (cellOf s x.desc.cell).ciid = k.h.ciid) (he : isErr (cellOf s x.desc.cell).st = false) :
    onInstance k s f = (f s x k.h.member.toNat, .done 0) := by
  simp [onInstance, hat, hx, hok, hh, hd, hc, he]

/-- R98: an ACK or RESEND of a pull, in its range and on its VC. -/
theorem onPull_acts {l : Pull} (f : State → Pull → State) (hl : namedPull s k = some l) (hvc : k.h.vc.toNat % 4 = vcNum l.vc)
    (hlo : l.first ≤ k.h.chunkIndex.toNat) (hhi : k.h.chunkIndex.toNat + k.h.chunkCount.toNat ≤ l.first + l.total) :
    onPull k s f = (f s l, .done 0) := by
  simp only [onPull, hl]
  rw [if_neg (not_not.2 hvc), if_neg (by simp; omega)]

end

/-- R98: a chunk after an ACK: acknowledged where the ACK's range names it and it has been sent. -/
def acked (h : Header) (o : OwedChunk) : OwedChunk := if inRange_ h o.idx && o.sends > 0 then { o with acked := true } else o

/-- R98: a cell after an ACK of a rank. -/
def ackCell (cl : Cell) (h : Header) (r : Nat) : Cell :=
  let os := (mget cl.deliv r []).map (acked h)
  { cl with deliv := if os.isEmpty then cl.deliv else mset cl.deliv r os }

theorem deliv_ackCell (cl : Cell) (h : Header) (r : Nat) :
    mget (ackCell cl h r).deliv r [] = (mget cl.deliv r []).map (acked h) := by
  simp only [ackCell]
  split
  next he =>
    have hnone : mget cl.deliv r [] = [] := by simpa using he
    rw [hnone, List.map_nil]
  next => exact mget_mset_same _ _ _ _

section
variable {s : State} {via : Via} {p : Packet} {k : Ctx} {u : State} (ha : Accepted s via p k u)
include ha

theorem exec_ack (hop : p.hdr.opcode = 3) : exec (.ack via p) s = .next (settle k (ackCore k u)) :=
  congrArg Host.Outcome.next (ImagesAndModes.boot_row ha (op := 3) (by simp [hop]) fun h => by simp only [serve, h])

theorem exec_resend (hop : p.hdr.opcode = 4) : exec (.resend via p) s = .next (settle k (resendCore k u)) :=
  congrArg Host.Outcome.next (ImagesAndModes.boot_row ha (op := 4) (by simp [hop]) fun h => by simp only [serve, h])

end

/-- R98: what an ACK of an instance leaves: the chunks in its range that have been sent are acknowledged. -/
theorem settle_ack (k : Ctx) (u : State) (x : Placed) :
    let t := settle k (tryHarvest (setCell u x.desc.cell (ackCell (cellOf u x.desc.cell) k.h k.h.member.toNat)) x k.h.ciid, .done 0)
    mget (cellOf t x.desc.cell).deliv k.h.member.toNat [] =
      (mget (cellOf u x.desc.cell).deliv k.h.member.toNat []).map (acked k.h) ∧ OnlyChanges [.coll, .fab, .egress] u t := by
  generalize hv : setCell u x.desc.cell (ackCell (cellOf u x.desc.cell) k.h k.h.member.toNat) = v
  obtain ⟨hnote, -, b, hrecheck⟩ := tryHarvest_notes v x k.h.ciid
  have hdone := onlyChanges_settle_done k (tryHarvest v x k.h.ciid) 0
  refine ⟨?_, onlyChanges_mono (onlyChanges_trans (onlyChanges_trans (hv ▸ onlyChanges_setCell _ _ _) hnote) hdone) (by simp)⟩
  rw [cellOf_of_onlyChanges hdone (by decide), hrecheck, ← hv, cellOf_setCell]
  exact deliv_ackCell _ _ _

/-! ## RESULT_RESEND_TIMER (R99) -/

theorem seen_raiseFor (s : State) (pg : PageId) {code : Nat} (hc : codeClass code < 5) (info : Nat) (c : BitVec 64) :
    (pageOf (raiseFor s pg code info c) pg).classSeen.getLsbD (codeClass code) = true := by
  refine (raises_recorded s pg code info c (gw s)).seen pg _ ?_
  rw [pageOf_setPage, classSeen_recorded, BitVec.getLsbD_or]
  generalize codeClass code = k at hc
  have hbit : (BitVec.ofNat 5 (2 ^ k)).getLsbD k = true := by interval_cases k <;> rfl
  rw [hbit, Bool.or_true]

/-- R99: the chunks of a rank once the consumer is found silent. -/
def silenced (i sf : Nat) (os : List OwedChunk) : List OwedChunk :=
  os.map fun y => if y.idx = i then { y with silent := true, sf := sf } else y

theorem silent_of_mem_silenced {i sf : Nat} {os : List OwedChunk} {y : OwedChunk} (hy : y ∈ silenced i sf os) (hi : y.idx = i) :
    y.silent = true := by
  obtain ⟨o, -, rfl⟩ := List.mem_map.1 hy
  by_cases ho : o.idx = i
  · rw [if_pos ho]
  · rw [if_neg ho] at hi
    exact absurd hi ho

/-- R99: a chunk whose consumer is silent is not sent again. -/
theorem resendDue_silent {o : OwedChunk} (h : o.silent = true) (s : State) (org : Origin) : resendDue s o org = false := by
  simp [resendDue, h]

section
variable {s : State} {cell : Fin 16384} {r : BitVec 16} {i : Nat} {x : Placed} {o : OwedChunk} {b : Origin × BitVec 8}
  (hx : findInst s (cellOf s cell.val).ciid = some x) (hst : (cellOf s cell.val).st = .complete)
  (ho : (mget (cellOf s cell.val).deliv r.toNat []).find? (fun o => o.idx == i) = some o)
  (hb : mget? (cellOf s cell.val).bound r.toNat = some b) (hdue : resendDue s o b.1 = true)
include hx hst ho hb hdue

theorem exec_resendTimer_again (hs : o.sends < 8) : exec (.resultResendTimer (.cell cell r) i) s =
    .next (resendChunk x (cellOf s cell.val).ciid r.toNat s i) := by
  change execResultResendTimer (.cell cell r) i s = _
  simp [execResultResendTimer, hx, hst, ho, hb, hdue, hs]

theorem exec_resendTimer_silent (hs : 8 ≤ o.sends) : exec (.resultResendTimer (.cell cell r) i) s =
    .next (memberComplete (raiseFor (setCell s cell.val { cellOf s cell.val with
        deliv := mset (cellOf s cell.val).deliv r.toNat (silenced i s.sf (mget (cellOf s cell.val).deliv r.toNat [])) })
      (tmOf s b.1) 0x2211 0 (cellOf s cell.val).ciid) x (cellOf s cell.val).ciid r.toNat b 0x2211 0) := by
  change execResultResendTimer (.cell cell r) i s = _
  simp only [execResultResendTimer, hx, hst, ho, hb, hdue, Nat.not_lt.2 hs]
  rfl

/-- R99: after the eighth sending the consumer is silent, and the chunk is not sent again. -/
theorem resendTimer_silent (hs : 8 ≤ o.sends) : Answers (.resultResendTimer (.cell cell r) i) s (fun t =>
    (∀ y ∈ mget (cellOf t cell.val).deliv r.toNat [], y.idx = i → y.silent = true ∧ resendDue t y b.1 = false) ∧
    (pageOf t (tmOf s b.1)).classSeen.getLsbD 2 = true) := by
  refine ⟨_, exec_resendTimer_silent hx hst ho hb hdue hs, ?_⟩
  generalize hv : setCell s cell.val _ = v
  have hraise : OnlyChanges raisedParts v (raiseFor v (tmOf s b.1) 0x2211 0 (cellOf s cell.val).ciid) :=
    onlyChanges_raiseSubj _ _ _ _ _ _
  have hseen := seen_raiseFor v (tmOf s b.1) (code := 0x2211) (by decide) 0 (cellOf s cell.val).ciid
  generalize raiseFor v (tmOf s b.1) 0x2211 0 (cellOf s cell.val).ciid = w at hraise hseen
  have hsend : OnlyChanges answerParts w (memberComplete w x (cellOf s cell.val).ciid r.toNat b 0x2211 0) := onlyChanges_sendTo _ _ _ _ _
  refine ⟨fun y hy hi => ?_, ?_⟩
  · rw [cellOf_of_onlyChanges hsend (by decide), cellOf_of_onlyChanges hraise (by decide), ← hv, cellOf_setCell,
      mget_mset_same] at hy
    have hsilent := silent_of_mem_silenced hy hi
    exact ⟨hsilent, resendDue_silent hsilent _ _⟩
  · rw [pageOf, hsend .pages (by decide)]
    exact hseen

end

/-- R99: a chunk of a pull is sent again while it has not been sent eight times. -/
theorem exec_resendTimer_pull {s : State} {seq i : Nat} {l : Pull} {o : OwedChunk}
    (hl : s.fab.pulls.find? (fun p => p.seq == seq) = some l) (ho : l.chunks.find? (fun o => o.idx == i) = some o)
    (hdue : resendDue s o l.org = true) (hs : o.sends < 8) :
    exec (.resultResendTimer (.pull seq) i) s = .next (resendPull seq s i) := by
  change execResultResendTimer (.pull seq) i s = _
  simp [execResultResendTimer, hl, ho, hdue, hs]

/-- R98, R167: a chunk whose record chunks are intact is sent again, with RESENT. -/
theorem resendChunk_sends {s : State} {x : Placed} {r i : Nat} {o : OwedChunk} {b : Origin × BitVec 8} (c : BitVec 64)
    (ho : (mget (cellOf s x.desc.cell).deliv r []).find? (fun o => o.idx == i) = some o)
    (hb : mget? (cellOf s x.desc.cell).bound r = some b) (he : isErr (cellOf s x.desc.cell).st = false)
    (hintact : rangeIntact x (cellOf s x.desc.cell) (((owedSpan x r).getD (0, 0)).1 + i * x.desc.outChunk) o.bytes.length = true) :
    resendChunk x c r s i = sendResult (setCell s x.desc.cell { cellOf s x.desc.cell with
      deliv := mset (cellOf s x.desc.cell).deliv r ((mget (cellOf s x.desc.cell).deliv r []).map
        (fun y => if y.idx = i then { o with sends := o.sends + 1, sf := if o.sends < 8 then s.sf else o.sf } else y)) })
      x c r b (mget (cellOf s x.desc.cell).deliv r []).length o true := by
  simp [resendChunk, ho, hb, he, hintact]

/-- Settles O28: delivery rank by rank, ACK and RESEND by what they name, and the timer by the sendings of its chunk. -/
theorem resultsDelivered : Obligations.ResultsDelivered := by
  refine ⟨fun s cell ns x hx hcell hst howed => resultDelivery_delivers hx hst ns hcell howed,
    fun s via p k u x ha haux hat hx hok hh hd hc he => ?_, fun s via p k u l ha haux hl hvc hlo hhi => ?_,
    fun s cell r i x o b hx hcell hst ho hb hdue =>
      ⟨exec_resendTimer_again hx hst ho hb hdue, resendTimer_silent hx hst ho hb hdue⟩,
    fun s seq i l o hl ho hdue hs => exec_resendTimer_pull hl ho hdue hs,
    fun s x c r i o b ho hb he hintact => resendChunk_sends c ho hb he hintact⟩
  all_goals obtain rfl := accepted_pkt ha
  · have hacts := fun f => onInstance_acts (k := k) f hat hx hok hh hd hc he
    have hinst : ¬k.h.aux = 1 := by simp [Ctx.h, haux]
    refine ⟨fun hop => ?_, fun hop => ?_⟩
    · obtain ⟨hacked, honly⟩ := settle_ack k u x
      have hcore : ackCore k u = _ := (if_neg hinst).trans (hacts _)
      refine ⟨_, (exec_ack ha hop).trans (by rw [hcore]; rfl), hacked.trans ?_,
        onlyChanges_mono (onlyChanges_trans (onlyChanges_accepted ha) honly) (by simp)⟩
      exact List.map_congr_left fun o _ => by simp [acked, Ctx.h]
    · have hcore : resendCore k u = _ := (if_neg hinst).trans (hacts _)
      exact (exec_resend ha hop).trans (by rw [hcore]; rfl)
  · have hacts := fun f => onPull_acts (k := k) f hl hvc hlo hhi
    refine ⟨fun hop => ?_, fun hop => ?_⟩
    · have hcore : ackCore k u = _ := (if_pos haux).trans (hacts _)
      exact (exec_ack ha hop).trans (by rw [hcore]; rfl)
    · have hcore : resendCore k u = _ := (if_pos haux).trans (hacts _)
      exact (exec_resend ha hop).trans (by rw [hcore]; rfl)

end Sys2Proof.Results
end

section
/-! PROOFS. Failure notices, the master's decision and what it does at a cell (R130, R131, R417, R499), and the settlement of O33. -/
namespace Sys2Proof.Decisions
open Sys2Proof Sys2Proof.Machine Sys2Proof.Laws Sys2Proof.AcceptedPackets Sys2Proof.Contributions
open Sys2Proof.CommitsAndEpochs Sys2Proof.RaisedCodes

/-! ## Messages taken (R295, R380) -/

theorem onlyChanges_line (s : State) (x : Line) : OnlyChanges [.line] s { s with line := x } := by
  intro p hp
  cases p <;> simp_all [Part.same]

theorem onlyChanges_freeRx (s : State) (l : LinkId) (vc : Nat) (seq : BitVec 32) : OnlyChanges [.line] s (freeRx s l vc seq) := by
  fun_cases freeRx with
  | case3 => exact onlyChanges_line s _
  | _ => exact onlyChanges_refl _ _

/-- A unit taken from a link leaves its queue, and its credits are free. -/
theorem onlyChanges_takeUnit {s t : State} {l : LinkId} {b : LUnit} (h : takeUnit s l b = some t) : OnlyChanges [.line] s t := by
  revert h
  fun_cases takeUnit with
  | case4 =>
    intro h
    cases h
    exact onlyChanges_then (onlyChanges_line s _) (onlyChanges_freeRx _ _ _ _)
  | _ => exact nofun

theorem onlyChanges_peerIn (s : State) (d : Dgram) (port n : Nat) : OnlyChanges [.ctr, .police] s (peerIn s d port n).1 := by
  have hcount : ∀ i, OnlyChanges [.ctr, .police] s (count s (fportOf d.port) i 1) := fun i =>
    onlyChanges_mono (onlyChanges_count _ _ _ _) (by simp)
  unfold peerIn
  split
  · exact hcount 0
  · dsimp only
    split
    · exact onlyChanges_mono (onlyChanges_policeIn _ _ _ _) (by simp)
    · exact hcount 5

theorem onlyChanges_takeIn (s : State) (via : RecVia) (port n : Nat) (b : LUnit) :
    OnlyChanges [.ctr, .police, .line] s (takeIn s via port n b).1 := by
  unfold takeIn
  cases via with
  | own => exact onlyChanges_refl _ _
  | site d => exact onlyChanges_mono (onlyChanges_peerIn s d port n) (by simp)
  | link g l =>
    dsimp only
    split
    case h_1 t h => exact onlyChanges_mono (onlyChanges_takeUnit h) (by simp)
    case h_2 => exact onlyChanges_refl _ _

/-- R295: a message taken leaves the loop, a link or a port. -/
theorem onlyChanges_takeMsg (s : State) (via : RecVia) (m : Msg) :
    OnlyChanges [.ctr, .police, .line, .rseq] s (takeMsg s via m).1 := by
  have hin : ∀ port n b, OnlyChanges [.ctr, .police, .line, .rseq] s (takeIn s via port n b).1 := fun port n b =>
    onlyChanges_mono (onlyChanges_takeIn s via port n b) (by simp)
  unfold takeMsg
  split
  · split
    · exact onlyChanges_mono (MgmtFunctions.onlyChanges_rseq s _) (by simp)
    · exact onlyChanges_refl _ _
  · cases m with
    | ctl c => exact hin _ _ _
    | rcv r => exact hin _ _ _

theorem coll_of_ctlUp {s : State} {via : RecVia} {m : Ctl} {u : State} (h : CtlUp s via m u) : u.coll = s.coll := by
  obtain ⟨-, -, -, -, rfl⟩ := h
  exact onlyChanges_takeMsg s via (.ctl m) .coll (by decide)

/-! ## Notices (R130, R417) -/

/-- R130: the window of an instance at the master. -/
def putWindow (s : State) (c : BitVec 64) (w : Window) : State :=
  { s with coll := { s.coll with windows := mset s.coll.windows c w } }

theorem onlyChanges_putWindow (s : State) (c : BitVec 64) (w : Window) : OnlyChanges [.coll] s (putWindow s c w) :=
  onlyChanges_coll s _

theorem window_putWindow (s : State) (c : BitVec 64) (w : Window) : mget? (putWindow s c w).coll.windows c = some w :=
  mget?_mset_same _ _ _

theorem mkCtl_putWindow (s : State) (c : BitVec 64) (w : Window) (ctype st : Nat) (d : BitVec 64) (epoch sf digest : Nat) :
    mkCtl (putWindow s c w) ctype st d epoch sf digest = mkCtl s ctype st d epoch sf digest := by
  rw [mkCtl, mkCtl, show gw (putWindow s c w) = gw s from rfl]

/-- R130, R417: the window of an instance once a notice of a state has come: opened, joined, or late. -/
def noticed (s : State) (st : CellSt) : Option Window → Window
  | none => ⟨s.sf, s.lt.d, [st], none, 0⟩
  | some w => if w.decided.isSome then { w with late := w.late + 1 } else { w with notices := w.notices ++ [st] }

section
variable {s : State} {via : RecVia} {m : Ctl} {u : State}

theorem exec_failNoticeRx (ht : m.ctype = 1) (h : CtlUp s via m u) : exec (.failNoticeRx via m) s =
    .next (putWindow u m.ciid (noticed u (stOf m.state.toNat) (mget? u.coll.windows m.ciid))) := by
  change execFailNoticeRx via m s = _
  simp only [execFailNoticeRx, ht, arriveCtl_up h, List.concat_eq_append]
  cases mget? u.coll.windows m.ciid with
  | none => rfl
  | some w => cases hd : w.decided.isSome <;> simp [noticed, hd, putWindow]

/-- R130: a notice changes its instance's window alone. -/
theorem failNoticeRx_notices (ht : m.ctype = 1) (h : CtlUp s via m u) {o : Option Window} (ho : mget? u.coll.windows m.ciid = o) :
    Answers (.failNoticeRx via m) s (fun t => mget? t.coll.windows m.ciid = some (noticed u (stOf m.state.toNat) o) ∧
      OnlyChanges [.coll] u t ∧ t.coll.cells = s.coll.cells) := by
  subst ho
  exact ⟨_, exec_failNoticeRx ht h, window_putWindow _ _ _, onlyChanges_putWindow _ _ _,
    (congrArg Coll.cells (coll_of_ctlUp h) :)⟩

end

/-! ## What the master owes itself stays (R426) -/

/-- What the master owes itself, it still owes itself. -/
structure KeepsLoop (s t : State) : Prop where
  loop : s.rseq.loop ⊆ t.rseq.loop

namespace KeepsLoop
variable {s t u : State}

theorem of_eq (h : t.rseq.loop = s.rseq.loop) : KeepsLoop s t := ⟨by rw [h]; exact List.Subset.refl _⟩

theorem refl (s : State) : KeepsLoop s s := of_eq rfl

theorem trans (h : KeepsLoop s t) (g : KeepsLoop t u) : KeepsLoop s u := ⟨List.Subset.trans h.loop g.loop⟩

theorem ite {c : Prop} [Decidable c] (h : KeepsLoop s t) (g : KeepsLoop s u) : KeepsLoop s (if c then t else u) := by
  split
  · exact h
  · exact g

theorem of_only {ps : List Part} (h : OnlyChanges ps s t) (hr : Part.rseq ∉ ps) : KeepsLoop s t := by
  have hrseq : t.rseq = s.rseq := h .rseq hr
  exact of_eq (by rw [hrseq])

end KeepsLoop

theorem keepsLoop_sendMaster (s : State) (m : Msg) : KeepsLoop s (sendMaster s m) := by
  have howe : KeepsLoop s (owe s m) := .of_eq rfl
  have hsite : ∀ g, KeepsLoop s (sendSite s g m) := fun g => .of_only (onlyChanges_sendSite s g m) (by decide)
  unfold sendMaster
  refine .ite ⟨List.subset_append_left _ _⟩ ?_
  cases s.lt.ann with
  | none => exact howe
  | some a =>
    refine .ite (hsite _) ?_
    cases s.lt.parent with
    | some l => exact .of_only (onlyChanges_sendLink s l m) (by decide)
    | none =>
      dsimp only
      split
      · exact hsite _
      · exact howe

theorem keepsLoop_sendRecoverReq (s : State) (level code : Nat) (c : BitVec 64) (g : Nat) :
    KeepsLoop s (sendRecoverReq s level code c g) := by
  unfold sendRecoverReq
  extract_lets n r s1
  exact .trans (t := s1) (.of_eq rfl) (keepsLoop_sendMaster _ _)

theorem keepsLoop_masterSends (s : State) (m : Msg) : KeepsLoop s (masterSends s m) :=
  (KeepsLoop.of_only (onlyChanges_flood s m .own) (by decide)).trans ⟨List.subset_append_left _ _⟩

/-- R49, R420: raising a code may send the master a request, and drops nothing that it owes itself. -/
theorem keepsLoop_raiseSubj (s : State) (pg : PageId) (code info : Nat) (c : BitVec 64) (g : Nat) :
    KeepsLoop s (raiseSubj s pg code info c g) := by
  unfold raiseSubj
  extract_lets cls p0 p1 s1 s2 ic sc s3 a lg s4
  have h1 : KeepsLoop s s1 := .of_only (onlyChanges_trans (onlyChanges_noteClock s pg) (onlyChanges_setPage _ pg p1)) (by decide)
  have h2 : KeepsLoop s1 s2 := .ite (.of_only (onlyChanges_notify _ _) (by decide)) (.refl _)
  have hemit : KeepsLoop sc (emit sc .ibi) := .of_only (onlyChanges_emit sc _) (by decide)
  have h3 : KeepsLoop s2 s3 := .ite (.trans (t := sc) (.of_eq rfl) (.ite hemit (.refl sc))) (.refl s2)
  have h4 : KeepsLoop s3 s4 := .ite (.of_only (onlyChanges_logPush _ _) (by decide)) (.refl _)
  have h := (h1.trans h2).trans (h3.trans h4)
  have hreq : ∀ l k d, KeepsLoop s (sendRecoverReq s4 l k d g) := fun l k d => h.trans (keepsLoop_sendRecoverReq s4 l k d g)
  refine .ite h ?_
  cases a with
  | some d => exact hreq _ _ _
  | none => exact .ite (hreq _ _ _) h

theorem keepsLoop_raise (s : State) (pg : PageId) (code info : Nat) : KeepsLoop s (raise s pg code info) :=
  keepsLoop_raiseSubj s pg code info _ _

theorem keepsLoop_setRoster (s : State) (g : Nat) (e : RosterEnt) : KeepsLoop s (setRoster s g e) := by
  have hfld : ∀ t off bank hi lo v, KeepsLoop t (setFldB t .rseq off bank hi lo v) := fun _ _ _ _ _ _ => .of_eq rfl
  exact (((hfld s _ _ _ _ _).trans (hfld _ _ _ _ _ _)).trans (hfld _ _ _ _ _ _)).trans
    (.of_only (onlyChanges_logPush _ _) (by decide))

theorem keepsLoop_floodRoster (s : State) (g : Nat) (e : RosterEnt) : KeepsLoop s (floodRoster s g e) :=
  .trans (t := (nextSerial s).1) (.of_eq rfl) (keepsLoop_masterSends _ _)

theorem keepsLoop_beginRecovery (s : State) (job : Nat) (e : SeqEvent) : KeepsLoop s (beginRecovery s job e) := by
  unfold beginRecovery
  extract_lets r z seen count above s1 level code serial q1 s2 r1 r2 s3 ent s4 q2 p s5
  have habove : KeepsLoop s s1 := .ite (keepsLoop_raiseSubj s _ _ _ _ _) (.refl s)
  clear_value s1
  have hrec : KeepsLoop s1 s3 := .of_eq rfl
  clear_value s3
  have hroster : KeepsLoop s3 s4 := .ite ((keepsLoop_setRoster s3 _ _).trans (keepsLoop_floodRoster _ _ _)) (.refl _)
  clear_value s4
  have hprove : KeepsLoop s4 s5 := .ite (.of_eq rfl) (.refl s4)
  exact ((habove.trans hrec).trans (hroster.trans hprove)).trans (keepsLoop_masterSends _ _)

/-- R421: a request taken by the master drops nothing that it owes itself. -/
theorem keepsLoop_masterRequest (s : State) (e : SeqEvent) : KeepsLoop s (masterRequest s e) := by
  have hwait : ∀ t, KeepsLoop t (noteWait t) := fun t => keepsLoop_raise t _ _ _
  exact .ite (hwait s) (.ite (hwait s) (.ite (keepsLoop_beginRecovery _ _ _)
    (.trans (t := setJobRec s _ _) (.of_eq rfl) (hwait _))))

/-! ## The decision (R130) -/

section
variable {s : State} {c : BitVec 64} {w : Window} (hw : mget? s.coll.windows c = some w)
include hw

theorem exec_decisionWindowExpiry_due (hd : w.decided = none) (hq : quorum s = true) (hdue : w.opened + 2 * w.d + 4 ≤ s.sf) :
    ∃ e, exec (.decisionWindowExpiry c) s = .next (masterRequest (masterSends
      (putWindow s c { w with decided := some (decide_ w.notices) })
      (.ctl (mkCtl s 2 (stNum (decide_ w.notices)) c 0 s.sf 0))) e) := by
  change ∃ e, execDecisionWindowExpiry c s = _
  rw [← mkCtl_putWindow s c { w with decided := some (decide_ w.notices) }]
  simp only [execDecisionWindowExpiry, hw]
  exact ⟨_, congrArg Host.Outcome.next (if_neg (by simp [hd, hq, hdue]))⟩

theorem exec_decisionWindowExpiry_early (h : s.sf < w.opened + 2 * w.d + 4) : exec (.decisionWindowExpiry c) s = .next s := by
  change execDecisionWindowExpiry c s = _
  simp [execDecisionWindowExpiry, hw, h]

/-- R130: the master decides, and owes itself the decision. -/
theorem decisionWindowExpiry_decides (hd : w.decided = none) (hq : quorum s = true) (hdue : w.opened + 2 * w.d + 4 ≤ s.sf) :
    Answers (.decisionWindowExpiry c) s (fun t => mget? t.coll.windows c = some { w with decided := some (decide_ w.notices) } ∧
      Msg.ctl (mkCtl s 2 (stNum (decide_ w.notices)) c 0 s.sf 0) ∈ t.rseq.loop ∧ t.coll.cells = s.coll.cells ∧
      t.plans = s.plans) := by
  obtain ⟨e, hexec⟩ := exec_decisionWindowExpiry_due hw hd hq hdue
  refine ⟨_, hexec, ?_⟩
  have hkeeps := (raises_masterSends (putWindow s c { w with decided := some (decide_ w.notices) })
    (.ctl (mkCtl s 2 (stNum (decide_ w.notices)) c 0 s.sf 0))).trans (raises_masterRequest _ e)
  have hloop := (keepsLoop_masterRequest _ e).loop (mem_loop_masterSends
    (putWindow s c { w with decided := some (decide_ w.notices) }) (.ctl (mkCtl s 2 (stNum (decide_ w.notices)) c 0 s.sf 0)))
  generalize masterRequest _ e = t at hkeeps hloop
  have hcoll : t.coll = _ := hkeeps.only .coll (by decide)
  refine ⟨?_, hloop, by rw [hcoll]; rfl, hkeeps.only .plans (by decide)⟩
  rw [hcoll]
  exact window_putWindow _ _ _

end

/-- R130: MISMATCH before TAINTED before TIMEOUT. -/
theorem decide_precedence (l : List CellSt) : (CellSt.mismatch ∈ l → decide_ l = .mismatch) ∧
    (CellSt.mismatch ∉ l → CellSt.tainted ∈ l → decide_ l = .tainted) ∧
    (CellSt.mismatch ∉ l → CellSt.tainted ∉ l → decide_ l = .timeout) := by
  refine ⟨fun hm => ?_, fun hm ht => ?_, fun hm ht => ?_⟩
  · simp [decide_, hm]
  · simp [decide_, hm, ht]
  · simp [decide_, hm, ht]

/-! ## Members answered (R131, R499) -/

@[simp] theorem instRec_setInst (s : State) (c : BitVec 64) (x : InstRec) : instRec (setInst s c x) c = x := mget_mset_same _ _ _ _

/-- What answering the members of a failed instance keeps: the cells, the decision, and the members answered before. -/
structure Answering (c : BitVec 64) (s t : State) : Prop where
  cells : t.coll.cells = s.coll.cells
  decided : (instRec t c).decided = (instRec s c).decided
  answered : (instRec s c).answered ⊆ (instRec t c).answered

namespace Answering
variable {c : BitVec 64} {s t u : State}

theorem refl (c : BitVec 64) (s : State) : Answering c s s := ⟨rfl, rfl, List.Subset.refl _⟩

theorem trans (h : Answering c s t) (g : Answering c t u) : Answering c s u :=
  ⟨g.cells.trans h.cells, g.decided.trans h.decided, List.Subset.trans h.answered g.answered⟩

theorem foldl {α : Type} {f : State → α → State} (h : ∀ s a, Answering c s (f s a)) (l : List α) (s : State) :
    Answering c s (l.foldl f s) := by
  induction l generalizing s with
  | nil => exact refl c s
  | cons a l ih => exact (h s a).trans (ih _)

theorem of_only {ps : List Part} (h : OnlyChanges ps s t) (hc : Part.coll ∉ ps) : Answering c s t := by
  have hcoll : t.coll = s.coll := h .coll hc
  have hinst : instRec t c = instRec s c := by rw [instRec, instRec, hcoll]
  exact ⟨by rw [hcoll], by rw [hinst], hinst ▸ List.Subset.refl _⟩

end Answering

/-- R131: a member has its failure COMPLETE once. -/
theorem answerFailed_answers (s : State) (x : Placed) (c : BitVec 64) (st : CellSt) (rank : Nat) (dst : Origin × BitVec 8) :
    Answering c s (answerFailed s x c st rank dst) ∧ rank ∈ (instRec (answerFailed s x c st rank dst) c).answered := by
  by_cases hans : rank ∈ (instRec s c).answered
  · have hstay : answerFailed s x c st rank dst = s := if_pos (by simpa using hans)
    rw [hstay]
    exact ⟨.refl c s, hans⟩
  · have hnew : instRec (answerFailed s x c st rank dst) c =
        { instRec s c with answered := (instRec s c).answered ++ [rank] } := by
      rw [answerFailed, if_neg (by simpa using hans)]
      exact instRec_setInst _ _ _
    have hcells : (answerFailed s x c st rank dst).coll.cells = s.coll.cells := by
      rw [answerFailed, if_neg (by simpa using hans)]
      have hsent : (memberComplete s x c rank dst (errCode st) 0).coll = s.coll := onlyChanges_sendTo _ _ _ _ _ .coll (by decide)
      exact (congrArg Coll.cells hsent :)
    exact ⟨⟨hcells, by rw [hnew], hnew ▸ List.subset_append_left _ _⟩, by rw [hnew]; simp⟩

/-- R131: every member in a list of bindings is answered. -/
theorem failMembers_answers (x : Placed) (c : BitVec 64) (st : CellSt) (l : PMap Nat (Origin × BitVec 8)) (s : State) :
    Answering c s (failMembers s x c st l) ∧ ∀ e ∈ l, e.1 ∈ (instRec (failMembers s x c st l) c).answered := by
  induction l generalizing s with
  | nil => exact ⟨.refl c s, nofun⟩
  | cons a l ih =>
    obtain ⟨hone, hmem⟩ := answerFailed_answers s x c st a.1 a.2
    obtain ⟨hrest, hall⟩ := ih (answerFailed s x c st a.1 a.2)
    refine ⟨hone.trans hrest, fun e he => ?_⟩
    obtain rfl | he := List.mem_cons.1 he
    · exact hrest.answered hmem
    · exact hall e he

theorem onlyChanges_releaseTray (s : State) (i : TrayId) : OnlyChanges (.trays :: raisedParts) s (releaseTray s i) := by
  have hdouble : ∀ info, OnlyChanges (.trays :: raisedParts) s (raise (count s .tpool 1 1) .tpool 0x2E01 info) := fun info =>
    onlyChanges_mono (onlyChanges_trans (onlyChanges_count s _ _ _) (onlyChanges_raise _ _ _ _)) (by simp [raisedParts])
  unfold releaseTray
  split
  · unfold freeTray
    split
    · exact onlyChanges_ite _ (onlyChanges_mono (onlyChanges_trays s _) (by simp)) (hdouble _)
    · exact hdouble _
  · exact onlyChanges_refl _ _

/-- R388: a tray released. -/
theorem onlyChanges_releaseOpt (s : State) (i : Option TrayId) : OnlyChanges (.trays :: raisedParts) s (releaseOpt s i) := by
  cases i with
  | none => exact onlyChanges_refl _ _
  | some i => exact onlyChanges_releaseTray s i

theorem onlyChanges_releaseCredits (s : State) (org : Origin) (vc : Fvc) (cost : Nat) :
    OnlyChanges answerParts s (releaseCredits s org vc cost) :=
  onlyChanges_ite _ (onlyChanges_refl _ _)
    (onlyChanges_then (onlyChanges_mono (onlyChanges_updCredit _ _ _ _) (by simp [answerParts])) (onlyChanges_reportHalf _ _ _))

/-- R499: the inputs held for a failed instance go, and their members are answered. -/
theorem dropHeldFor_answers (s : State) (x : Placed) (c : BitVec 64) (st : CellSt) : Answering c s (dropHeldFor s x c st) := by
  unfold dropHeldFor
  refine Answering.trans (t := { s with coll := { s.coll with held := s.coll.held.filter (fun i => i.ciid != c) } })
    ⟨rfl, rfl, List.Subset.refl _⟩ (.foldl (fun s (i : HeldInput) => ?_) _ _)
  have htray : Answering c s (releaseOpt s i.tray) := .of_only (onlyChanges_releaseOpt s i.tray) (by decide)
  refine htray.trans ?_
  cases i.input with
  | contrib n org via p =>
    exact Answering.trans (.of_only (onlyChanges_ite _ (onlyChanges_releaseCredits _ _ _ _) (onlyChanges_refl _ _)) (by decide))
      (answerFailed_answers _ _ _ _ _ _).1
  | record via r => exact .refl c _

/-! ## The decision at a cell (R131, R499) -/

section
variable {u : State} {c : BitVec 64} {x : Placed} (st : CellSt) (hat : attempt u c ≠ .stale)
  (hrep : ciidReplay c = replayOf u (ciidJob c) (ciidStep c)) (hx : findInst u c = some x)
include hat hrep hx

omit hx in
theorem decision_runs : (attempt u c != .stale && ciidReplay c == replayOf u (ciidJob c) (ciidStep c)) = true := by
  simp [hat, hrep]

/-- R131: a decided instance is not decided again. -/
theorem applyDecision_again (hd : (instRec u c).decided.isSome = true) : applyDecision u c st = u := by
  simp only [applyDecision, decision_runs hat hrep, hx, hd, if_true]

/-- R131: at a cell that holds the instance, the decision is the cell's state; its members are answered, and the inputs held for it
go. -/
theorem applyDecision_here (hd : (instRec u c).decided = none) (hst : (cellOf u x.desc.cell).st ≠ .free)
    (hc : (cellOf u x.desc.cell).ciid = c) : ∃ cl v, cl.st = st ∧ cl.ciid = c ∧ cl.bound = (cellOf u x.desc.cell).bound ∧
      OnlyChanges raisedParts (setCell (setInst u c { instRec u c with decided := some st }) x.desc.cell cl) v ∧
      applyDecision u c st = dropHeldFor (failMembers v x c st cl.bound) x c st := by
  unfold applyDecision
  split
  case h_2 hne => exact absurd hx (hne x (decision_runs hat hrep))
  case h_1 y _ hy =>
  obtain rfl : y = x := Option.some.inj (hy.symm.trans hx)
  extract_lets ir cell cl s1 away n detail info fresh old cl0 cl1 here cl2 s2 s3 s4
  have haway : ¬away = true := by simp [away, cl, cell, hc]
  have hcl1 : cl1 = cl := if_neg hst
  have hraise : ∀ t code i, OnlyChanges raisedParts t (raiseCell t cell code i c) := fun t code i =>
    onlyChanges_raiseSubj _ _ _ _ _ _
  rw [if_neg (by simp [ir, hd]), if_neg haway]
  refine ⟨cl2, s4, rfl, ?_, ?_, ?_, ?_⟩
  · simp only [cl2, hcl1]
    exact hc
  · simp only [cl2, hcl1, cl, cell]
  · exact onlyChanges_then (onlyChanges_ite _ (hraise s2 _ _) (onlyChanges_refl _ _))
      (onlyChanges_ite _ (onlyChanges_refl _ _) (hraise s3 _ _))
  · rfl

end

section
variable {s : State} {via : RecVia} {m : Ctl} {u : State} (ht : m.ctype = 2) (h : CtlDown s via m u)
include ht h

theorem exec_decisionRx (hat : attempt u m.ciid ≠ .stale) :
    exec (.decisionRx via m) s = .next (applyDecision u m.ciid (stOf m.state.toNat)) := by
  change execDecisionRx via m s = _
  simp [execDecisionRx, ht, arriveCtl_down h, hat]

/-- R131: a decision for a running attempt, at the cell that holds the instance. -/
theorem decisionRx_decides {x : Placed} (hat : attempt u m.ciid ≠ .stale)
    (hrep : ciidReplay m.ciid = replayOf u (ciidJob m.ciid) (ciidStep m.ciid)) (hx : findInst u m.ciid = some x)
    (hd : (instRec u m.ciid).decided = none) (hst : (cellOf u x.desc.cell).st ≠ .free)
    (hc : (cellOf u x.desc.cell).ciid = m.ciid) :
    Answers (.decisionRx via m) s (fun t => (cellOf t x.desc.cell).st = stOf m.state.toNat ∧
      (cellOf t x.desc.cell).ciid = m.ciid ∧ (instRec t m.ciid).decided = some (stOf m.state.toNat) ∧
      (∀ e ∈ (cellOf u x.desc.cell).bound, e.1 ∈ (instRec t m.ciid).answered) ∧
      (∀ n, n ≠ x.desc.cell → cellOf t n = cellOf u n)) := by
  obtain ⟨cl, v, hclst, hciid, hbound, honly, heq⟩ := applyDecision_here (stOf m.state.toNat) hat hrep hx hd hst hc
  obtain ⟨hmembers, hall⟩ := failMembers_answers x m.ciid (stOf m.state.toNat) cl.bound v
  have hdrop := dropHeldFor_answers (failMembers v x m.ciid (stOf m.state.toNat) cl.bound) x m.ciid (stOf m.state.toNat)
  refine ⟨_, exec_decisionRx ht h hat, ?_⟩
  rw [heq]
  have hcoll := honly .coll (by decide)
  have hcells := (hmembers.trans hdrop).cells.trans (congrArg Coll.cells hcoll)
  have hcell : ∀ n, cellOf _ n = _ := fun n => congrArg (fun l => mget l n Cell.free) hcells
  have hhere := (hcell x.desc.cell).trans (cellOf_setCell _ _ _)
  beta_reduce
  rw [hhere]
  refine ⟨hclst, hciid, (hmembers.trans hdrop).decided.trans ?_, fun e he => hdrop.answered (hall e (hbound ▸ he)),
    fun n hn => (hcell n).trans (cellOf_setCell_ne _ _ hn)⟩
  rw [show instRec v m.ciid = _ from congrArg (fun x : Coll => mget x.insts m.ciid InstRec.none) hcoll]
  exact congrArg InstRec.decided (instRec_setInst u m.ciid _)

end

/-- Settles O33: notices, the master's decision, and the decision on arrival. -/
theorem failureDecisions : Obligations.FailureDecisions := by
  refine ⟨fun s via m u ht h => ⟨fun ho => failNoticeRx_notices ht h ho, fun w ho => failNoticeRx_notices ht h ho⟩,
    fun s c w hw hd hq => ⟨decisionWindowExpiry_decides hw hd hq, exec_decisionWindowExpiry_early hw⟩, decide_precedence,
    fun s via m u x ht h hat hrep hx => ⟨fun hd => ?_, fun hd hst hc => decisionRx_decides ht h hat hrep hx hd hst hc⟩⟩
  rw [exec_decisionRx ht h hat, applyDecision_again _ hat hrep hx hd]

end Sys2Proof.Decisions
end

section
/-! PROOFS. What a cell does by time: the wait limit, the freeing and the re-check, records gathered and sent again (R126, R132, R138,
R153, R154, R168), and the settlement of O29. -/
namespace Sys2Proof.CellTimers
open Sys2Proof Sys2Proof.Machine Sys2Proof.Laws Sys2Proof.AcceptedPackets Sys2Proof.Contributions Sys2Proof.Results
open Sys2Proof.Decisions

/-! ## A cell enters an error state (R126, R129) -/

/-- A cell as it enters an error state. -/
def erring (cl : Cell) (c : BitVec 64) (st : CellSt) (cause : Nat) : Cell :=
  { cl with st := st, ciid := c, remote := false, cause := if st = .mismatch then cause else 0,
            taint := if st = .tainted then cause else 0, recheck := false, ready := [] }

/-- What the entry of an error state leaves of every cell. -/
theorem cellOf_enterError (s : State) (cell : Nat) (c : BitVec 64) (st : CellSt) (cause info n : Nat) :
    cellOf (enterError s cell c st cause info) n = cellOf (setCell s cell (erring (cellOf s cell) c st cause)) n :=
  cellOf_of_onlyChanges (onlyChanges_enterError s cell c st cause info) (by decide) n

/-- R49, R126: the class of the cell's error is seen on the cell's page. -/
theorem seen_enterError (s : State) (cell : Nat) (c : BitVec 64) (st : CellSt) (cause info : Nat)
    (hst : codeClass (errCode st) < 5) :
    (pageOf (enterError s cell c st cause info) (cellPage cell)).classSeen.getLsbD (codeClass (errCode st)) = true := by
  have hpages : (enterError s cell c st cause info).pages = _ := onlyChanges_sendMaster _ _ .pages (by decide)
  rw [pageOf, hpages]
  exact seen_raiseFor _ _ hst _ _

/-! ## CELL_WAIT_TIMEOUT (R132) -/

section
variable {s : State} {cell : Fin 16384} {x : Placed} (hx : findInst s (cellOf s cell.val).ciid = some x)
  (hst : (cellOf s cell.val).st = .armed ∨ (cellOf s cell.val).st = .gathering) (hrun : (cellOf s cell.val).stopped = false)
  (hlim : x.desc.waitLimit ≠ 0) (hdue : (cellOf s cell.val).armSf + x.desc.waitLimit + 1 ≤ s.sf)
include hx hst hrun hlim hdue

theorem exec_cellWaitTimeout : ∃ info, exec (.cellWaitTimeout cell) s =
    .next (enterError s cell.val (cellOf s cell.val).ciid .timeout 0 info) := by
  change ∃ info, execCellWaitTimeout cell s = _
  have hwaits : (decide ((cellOf s cell.val).st ≠ .armed) && decide ((cellOf s cell.val).st ≠ .gathering)) = false := by
    rcases hst with h | h <;> simp [h]
  simp only [execCellWaitTimeout, hx, hwaits, hrun, hlim, Nat.not_lt.2 hdue]
  exact ⟨_, rfl⟩

/-- R132: a cell whose wait limit has passed goes to TIMEOUT. -/
theorem cellWaitTimeout_times_out : Answers (.cellWaitTimeout cell) s (fun t =>
    (cellOf t cell.val).st = .timeout ∧ (cellOf t cell.val).remote = false ∧
    (cellOf t cell.val).acc = (cellOf s cell.val).acc ∧
    (pageOf t (cellPage cell.val)).classSeen.getLsbD 3 = true ∧ ∀ n, n ≠ cell.val → cellOf t n = cellOf s n) := by
  obtain ⟨info, hexec⟩ := exec_cellWaitTimeout hx hst hrun hlim hdue
  refine ⟨_, hexec, ?_⟩
  have hcell := cellOf_enterError s cell.val (cellOf s cell.val).ciid .timeout 0 info
  have hseen := seen_enterError s cell.val (cellOf s cell.val).ciid .timeout 0 info (by decide)
  have hhere := (hcell cell.val).trans (cellOf_setCell _ _ _)
  beta_reduce
  rw [hhere]
  exact ⟨rfl, rfl, rfl, hseen, fun n hn => (hcell n).trans (cellOf_setCell_ne _ _ hn)⟩

end

/-! ## CELL_FREE_AFTER_HARVEST (R126) -/

/-- R126: a cell freed: its instance keeps its bindings. -/
def cellFreed (s : State) (cell : Nat) : State :=
  setCell (setInst s (cellOf s cell).ciid { instRec s (cellOf s cell).ciid with bound := (cellOf s cell).bound }) cell Cell.free

theorem exec_cellFreeAfterHarvest_due {s : State} {cell : Fin 16384} (hst : (cellOf s cell.val).st = .harvested)
    (hdue : (cellOf s cell.val).harvSf + 64 ≤ s.sf) :
    exec (.cellFreeAfterHarvest cell) s = .next (takeHeld (armOpen (cellFreed s cell.val) cell.val) cell.val) :=
  congrArg Host.Outcome.next (if_neg (by simp [hst, hdue]))

theorem exec_cellFreeAfterHarvest_early {s : State} {cell : Fin 16384}
    (h : s.sf < (cellOf s cell.val).harvSf + 64) :
    exec (.cellFreeAfterHarvest cell) s = .next s := congrArg Host.Outcome.next (if_pos (by simp [h]))

/-- Without open steps no cell arms by itself. -/
theorem armOpen_of_no_opens {s : State} (h : s.plans.opens = []) (cell : Nat) : armOpen s cell = s := by
  rw [armOpen, h, List.foldl_nil]

/-- Without inputs held none is taken. -/
theorem takeHeld_of_no_held {s : State} (h : s.coll.held = []) (cell : Nat) : takeHeld s cell = s := by
  have hstays : { s with coll := { s.coll with held := [] } } = s := by rw [← h]
  simp only [takeHeld, takeHeldIf, h, List.filter_nil, List.foldl_nil]
  exact hstays

/-! ## HARVEST_RECHECK_DONE (R168) -/

theorem onlyChanges_freeCellTrays (s : State) (cell : Nat) :
    OnlyChanges (.trays :: raisedParts) (setCell s cell { cellOf s cell with trays := [] }) (freeCellTrays s cell) :=
  CommitsAndEpochs.onlyChanges_foldl onlyChanges_releaseTray _ _

theorem onlyChanges_reportHarvest (s : State) (x : Placed) (c : BitVec 64) :
    OnlyChanges [.rseq, .egress, .lineTx] s (reportHarvest s x c) :=
  onlyChanges_ite _ (onlyChanges_sendMaster _ _) (onlyChanges_refl _ _)

/-- A cell harvested in a superframe: it holds its bindings, and no accumulators, copies or trays. -/
def harvested (cl : Cell) (sf : Nat) : Cell :=
  { cl with trays := [], st := .harvested, harvSf := sf, recheck := false, acc := [], raw := [], ins := [], finals := [],
            kept := [], deliv := [], ready := [], proj := none }

section
variable {s : State} {x : Placed}

/-- R168: a cell whose copies are intact is harvested. -/
theorem harvestCell_intact (c : BitVec 64) (h : retainedIntact s x (cellOf s x.desc.cell) = true) :
    cellOf (harvestCell s x c) x.desc.cell = harvested (cellOf s x.desc.cell) s.sf ∧
      (∀ n, n ≠ x.desc.cell → cellOf (harvestCell s x c) n = cellOf s n) ∧
      (instRec (harvestCell s x c) c).harvested = true := by
  unfold harvestCell
  extract_lets cell cl s1 cl1 s2 ir s3 s4
  rw [if_neg (by simp [cl, cell, h])]
  have htrays := onlyChanges_freeCellTrays s cell
  have hcell1 := cellOf_of_onlyChanges htrays (by decide)
  have hsf : s1.sf = s.sf := htrays .sf (by decide)
  have hrest : OnlyChanges (.ctr :: [.rseq, .egress, .lineTx]) s3 (reportHarvest s4 x c) :=
    onlyChanges_trans (ps := [.ctr]) (onlyChanges_ite _ (onlyChanges_count s3 _ _ _) (onlyChanges_refl _ _))
      (onlyChanges_reportHarvest s4 x c)
  have hcell : ∀ n, cellOf (reportHarvest s4 x c) n = cellOf s3 n := cellOf_of_onlyChanges hrest (by decide)
  have hset : ∀ n, cellOf s3 n = cellOf s2 n := fun _ => rfl
  have hcoll : (reportHarvest s4 x c).coll = s3.coll := hrest .coll (by decide)
  refine ⟨?_, fun n hn => ?_, ?_⟩
  · have hcl1 : cl1 = { cl with trays := [] } := (hcell1 cell).trans (cellOf_setCell _ _ _)
    rw [hcell, hset, show cellOf s2 x.desc.cell = _ from cellOf_setCell _ _ _, hcl1, hsf]
    rfl
  · rw [hcell, hset, show cellOf s2 n = _ from cellOf_setCell_ne _ _ hn, show cellOf s1 n = _ from hcell1 n,
      cellOf_setCell_ne _ _ hn]
  · rw [show instRec _ c = _ from congrArg (fun x : Coll => mget x.insts c InstRec.none) hcoll]
    exact congrArg InstRec.harvested (instRec_setInst s2 c _)

/-- R168: a copy altered taints the cell. -/
theorem harvestCell_altered (c : BitVec 64) (h : retainedIntact s x (cellOf s x.desc.cell) = false) :
    harvestCell s x c = taint s x.desc.cell c 1 0 (cellTile x.desc.cell).val := by
  simp [harvestCell, h]

end

/-- R168: the end of a re-check. -/
theorem harvestRecheckDone_answers {s : State} {cell : Fin 16384} {x : Placed}
    (hx : findInst s (cellOf s cell.val).ciid = some x) (hcell : x.desc.cell = cell.val)
    (hre : (cellOf s cell.val).recheck = true) (howes : owesNothing s x (cellOf s cell.val).ciid = true) :
    Answers (.harvestRecheckDone cell) s (fun t => (∀ n, n ≠ cell.val → cellOf t n = cellOf s n) ∧
      (retainedIntact s x (cellOf s cell.val) = true →
        (cellOf t cell.val).st = .harvested ∧ (cellOf t cell.val).harvSf = s.sf ∧ (cellOf t cell.val).acc = [] ∧
        (cellOf t cell.val).kept = [] ∧ (cellOf t cell.val).finals = [] ∧ (cellOf t cell.val).trays = [] ∧
        (instRec t (cellOf s cell.val).ciid).harvested = true) ∧
      (retainedIntact s x (cellOf s cell.val) = false →
        (cellOf t cell.val).st = .tainted ∧ (cellOf t cell.val).taint = 1)) := by
  have hexec : exec (.harvestRecheckDone cell) s = .next (harvestCell s x (cellOf s cell.val).ciid) := by
    change execHarvestRecheckDone cell s = _
    simp [execHarvestRecheckDone, hx, hre, howes]
  refine ⟨_, hexec, ?_⟩
  generalize (cellOf s cell.val).ciid = c
  rw [← hcell]
  cases hi : retainedIntact s x (cellOf s x.desc.cell) with
  | true =>
    obtain ⟨hhere, hothers, hinst⟩ := harvestCell_intact c hi
    rw [hhere]
    exact ⟨hothers, fun _ => ⟨rfl, rfl, rfl, rfl, rfl, rfl, hinst⟩, nofun⟩
  | false =>
    have hcells := cellOf_enterError s x.desc.cell c .tainted 1
    rw [harvestCell_altered c hi, taint]
    refine ⟨fun n hn => (hcells _ n).trans (cellOf_setCell_ne _ _ hn), nofun, fun _ => ?_⟩
    rw [hcells, cellOf_setCell]
    exact ⟨rfl, rfl⟩

/-! ## Records gathered and sent again (R153, R154) -/

/-- R153: a record leaves by a port of the site or by a link. -/
theorem onlyChanges_emitRec (s : State) (x : Placed) (r : Record) : OnlyChanges [.egress, .lineTx] s (emitRec s x r) := by
  unfold emitRec
  extract_lets dst d
  refine onlyChanges_ite _ (onlyChanges_mono (onlyChanges_egPush _ _ _ _ _) (by simp)) ?_
  split
  · intro p hp
    cases p <;> simp_all [Part.same, lineSend]
  · exact onlyChanges_refl _ _

/-- R153: RACKs gathered are sent joined. -/
theorem rackGatherExpiry_sends {s : State} {cell : Fin 16384} {x : Placed} (hx : findInst s (cellOf s cell.val).ciid = some x)
    (hcell : x.desc.cell = cell.val) (hr : (cellOf s cell.val).racks ≠ []) : Answers (.rackGatherExpiry cell) s (fun t =>
      (cellOf t cell.val).racks = [] ∧ OnlyChanges [.coll, .egress, .lineTx] s t ∧
      t = (joinRacks (cellOf s cell.val).racks).foldl (fun s r => emitRec s x r)
        (setCell s cell.val { cellOf s cell.val with racks := [] })) := by
  have hexec : exec (.rackGatherExpiry cell) s = .next (flushRacks s x) := by
    change execRackGatherExpiry cell s = _
    simp [execRackGatherExpiry, hx, hr]
  have hsent := CommitsAndEpochs.onlyChanges_foldl (fun s r => onlyChanges_emitRec s x r) (joinRacks (cellOf s cell.val).racks)
    (setCell s cell.val { cellOf s cell.val with racks := [] })
  refine ⟨_, hexec, ?_⟩
  rw [flushRacks, hcell]
  refine ⟨?_, onlyChanges_trans (onlyChanges_setCell _ _ _) hsent, rfl⟩
  rw [cellOf_of_onlyChanges hsent (by decide), cellOf_setCell]

/-- R154: a kept record whose RACK is due is sent again. -/
theorem exec_recordResendTimer {s : State} {cell : Fin 16384} {i : Nat} {x : Placed} {k : Kept}
    (hx : findInst s (cellOf s cell.val).ciid = some x) (hk : (cellOf s cell.val).kept[i]? = some k)
    (he : isErr (cellOf s cell.val).st = false) (ha : k.acked = false)
    (hdue : (if k.line.isSome then k.sf + 2 * s.lt.d + 16 else k.sf + 13) ≤ s.sf) :
    exec (.recordResendTimer cell i) s = .next (resendKept s x k) := by
  change execRecordResendTimer cell i s = _
  simp only [execRecordResendTimer, hx, hk, he, ha, Nat.not_lt.2 hdue]
  rfl

/-! ## FFE_LAT_MAX_CLR (R138) -/

/-- R138: LAT_MAX takes a write that changes no field, and MAX_NS is cleared. -/
theorem exec_ffeLatMaxClr {s : State} {ag : Agent} {q : Fin 4} (hw : Writable s ag (.ffe q)) : ∃ u,
    Wrote s u (.ffe q) 0x48 0 (regAccepted (pageOf s (.ffe q)) (.ffe q) 0x48 0) ∧
    exec (.ffeLatMaxClr ag q) s = .next (latchAll u (.ffe q) [(0x48, 0)]) := by
  obtain ⟨u, hfield, hwrote⟩ := writeField_wrote s ag (.ffe q) 0x48 0x80000000 (reg 0x48 [wo 31 31]) rfl hw.2 rfl rfl
    (by simp [reg, wo])
  have hreg : writeReg s ag (.ffe q) 0x48 0x80000000 = writeField s ag (.ffe q) 0x48 0x80000000 := by simp [writeReg]
  refine ⟨u, ?_, ?_⟩
  · have hword : ∀ w : Word, BitVec.ofNat 32 (fieldsOver (reg 0x48 [wo 31 31]) w.toNat 0x80000000) = w := fun w => by
      simp [fieldsOver, reg, wo]
    rwa [hword] at hwrote
  · have hpage := pageWrite_accepted s ag (.ffe q) 0x48 0x80000000 _ hw.1 hw.2 (by decide) (by decide) rfl hreg (by rw [hfield])
    exact congrArg Host.Outcome.next (hpage.trans (by rw [hfield]; rfl))

/-- Settles O29: each timer by its rule above. -/
theorem cellTimers : Obligations.CellTimers := by
  refine ⟨fun s cell x hx hst hrun hlim hdue => cellWaitTimeout_times_out hx hst hrun hlim hdue,
    fun s cell hst => ⟨fun hdue hopens hheld => ?_, exec_cellFreeAfterHarvest_due hst, exec_cellFreeAfterHarvest_early⟩,
    fun s cell x => harvestRecheckDone_answers, fun s cell x => rackGatherExpiry_sends,
    fun s cell i x k => exec_recordResendTimer, fun s ag q => exec_ffeLatMaxClr⟩
  rw [exec_cellFreeAfterHarvest_due hst hdue, armOpen_of_no_opens (s := cellFreed s cell.val) hopens,
    takeHeld_of_no_held (s := cellFreed s cell.val) hheld]
  rfl

end Sys2Proof.CellTimers
end

section
/-! PROOFS. Selector writes: what a write of a select register latches (R47, R138, R235, R315, R343), and the settlement of O16. -/
namespace Sys2Proof.Selectors
open Sys2Proof Sys2Proof.Machine Sys2Proof.Laws Sys2Proof.RegisterWrites Sys2Proof.Contributions

/-! ## Latched registers -/

/-- A register latched. -/
def putLatch (m : PMap Nat Word) (e : Nat × Nat) : PMap Nat Word := mset m e.1 (BitVec.ofNat 32 e.2)

theorem mget_foldl_putLatch_ne (l : List (Nat × Nat)) (m : PMap Nat Word) {o : Nat} (h : o ∉ l.map Prod.fst) :
    mget (l.foldl putLatch m) o 0 = mget m o 0 := by
  induction l generalizing m with
  | nil => rfl
  | cons e l ih =>
    obtain ⟨he, hl⟩ := List.ne_and_not_mem_of_not_mem_cons h
    exact (ih _ hl).trans (mget_mset_ne _ _ _ he)

/-- A register latched once holds the value latched. -/
theorem mget_foldl_putLatch {l : List (Nat × Nat)} (m : PMap Nat Word) (hl : (l.map Prod.fst).Nodup) {o n : Nat}
    (h : (o, n) ∈ l) : mget (l.foldl putLatch m) o 0 = BitVec.ofNat 32 n := by
  induction l generalizing m with
  | nil => cases h
  | cons e l ih =>
    obtain ⟨hnew, hrest⟩ := List.nodup_cons.1 hl
    obtain rfl | h := List.mem_cons.1 h
    · exact (mget_foldl_putLatch_ne l _ hnew).trans (mget_mset_same _ _ _ _)
    · exact ih _ hrest h

theorem latched_latchAll (s : State) (pg : PageId) {l : List (Nat × Nat)} (hl : (l.map Prod.fst).Nodup) {o n : Nat}
    (h : (o, n) ∈ l) : latched (pageOf (latchAll s pg l) pg) o = n % 2 ^ 32 := by
  rw [latched, latchAll, pageOf_setPage]
  exact (congrArg BitVec.toNat (mget_foldl_putLatch _ hl h)).trans (BitVec.toNat_ofNat _ _)

theorem latchAll_onlyPage (s : State) (pg : PageId) (l : List (Nat × Nat)) : OnlyPage pg s (latchAll s pg l) :=
  setPage_onlyPage s pg _

/-- Latching leaves the accepted values. -/
theorem regAccepted_latchAll (s : State) (pg : PageId) (l : List (Nat × Nat)) (o b : Nat) :
    regAccepted (pageOf (latchAll s pg l) pg) pg o b = regAccepted (pageOf s pg) pg o b := by
  rw [latchAll, pageOf_setPage]
  rfl

/-! ## Pages whose registers read as their fields (R43) -/

/-- A page whose registers beyond the header read as their fields and what the block shows. -/
def plainPage : PageId → Bool
  | .dir | .time | .fport _ _ | .cpw | .rseq => false
  | _ => true

theorem readReg_plain {pg : PageId} (hp : plainPage pg = true) {s : State} (hup : pageUp s pg = true) {o : Nat} (ho : 0x40 ≤ o)
    (ho2 : o < 0x800) : (readReg s 0 pg o 0).2 = (rwPart s pg o ||| roPart s pg o) % 2 ^ 32 := by
  have hdir : pg ≠ .dir := fun h => by simp [plainPage, h] at hp
  simp only [readReg, hup]
  rw [if_neg (by decide), if_neg (by omega), if_neg hdir, if_neg (by omega)]
  split
  · simp [plainPage] at hp
  · simp [plainPage] at hp
  · rfl

/-- A register that a page only shows reads as the page shows it. -/
theorem reads_latched {pg : PageId} (hp : plainPage pg = true) {s : State} (hup : pageUp s pg = true) {o : Nat} (ho : 0x40 ≤ o)
    (ho2 : o < 0x800) (hd : regDef? pg o = none) (hro : roPart s pg o = latched (pageOf s pg) o) :
    reads s pg o = latched (pageOf s pg) o := by
  have hcpw : pg ≠ .cpw := fun h => by simp [plainPage, h] at hp
  have hrw : rwPart s pg o = 0 := by simp [rwPart, hd, hcpw]
  rw [reads, readReg_plain hp hup ho ho2, hrw, hro, Nat.zero_or]
  exact Nat.mod_eq_of_lt (mget (pageOf s pg).latch o 0).isLt

/-! ## Select registers (R11, R47) -/

/-- A page on which the register of one field has taken the field of a word. -/
def fieldTaken (s : State) (pg : PageId) (off : Nat) (f : Fld) (v : Nat) : State :=
  applyIfIdle (setPage s pg (takeField (pageOf s pg) pg off f v)) pg

theorem fieldTaken_onlyPage (s : State) (pg : PageId) (off : Nat) (f : Fld) (v : Nat) : OnlyPage pg s (fieldTaken s pg off f v) :=
  onlyPage_trans (setPage_onlyPage s pg _) (applyIfIdle_onlyPage _ pg)

/-- A select register: one live field from bit 0 up, on a page that gives its writes no refusal of its own. -/
structure Selector (pg : PageId) (off : Nat) (f : Fld) : Prop where
  reg : regDef? pg off = some (reg off [f])
  rw : f.acc = .rw
  live : f.cls = .live
  lo : f.lo = 0
  hi : f.hi < 32
  from_header : 0x40 ≤ off
  to_counters : off < 0x800
  plain : plainPage pg = true
  shows : ∀ s, roPart s pg off = 0
  field : ∀ s ag v, writeReg s ag pg off v = writeField s ag pg off v
  allowed : ∀ s v, extraRefusal s pg off 0 v = 0

/-- What a select register's write latches: the page alone changes, the register reads as its field, and the registers that the page
only shows read as latched. -/
structure Selects (s t : State) (pg : PageId) (off sel : Nat) (l : List (Nat × Nat)) : Prop where
  only : OnlyPage pg s t
  up : pageUp t pg = true
  field : reads t pg off = sel
  shown : ∀ {o n}, (o, n) ∈ l → latched (pageOf t pg) o = n % 2 ^ 32

section
variable {pg : PageId} {off : Nat} {f : Fld} (h : Selector pg off f) {s : State} {ag : Agent} {v : Nat}
  (hw : Writable s ag pg)
include h hw

/-- R47, R51: a select register takes a value in range, and then latches. -/
theorem Selector.pageWrite_eq (hr : inRange f.rng (fld v f.hi f.lo) = true) :
    (pageWrite s ag pg off v).1 = afterWrite s (fieldTaken s pg off f v) pg off v := by
  have ht := writeField_takes h.reg h.rw s ag v hw.2 hr (h.allowed s v) fun hi => by simp [h.live] at hi
  rw [pageWrite_accepted s ag pg off v _ hw.1 hw.2 h.from_header h.to_counters h.reg (h.field s ag v) (by rw [ht]), ht]
  rfl

theorem Selector.selects {l : List (Nat × Nat)} (hl : (l.map Prod.fst).Nodup) :
    Selects s (latchAll (fieldTaken s pg off f v) pg l) pg off (fld v f.hi 0) l := by
  have honly := onlyPage_trans (fieldTaken_onlyPage s pg off f v) (latchAll_onlyPage _ pg l)
  have hup := (pageUp_of_onlyPage honly pg).trans hw.1
  have hcpw : pg ≠ .cpw := fun hp => by simpa [hp, plainPage] using h.plain
  have hrseq : pg ≠ .rseq := fun hp => by simpa [hp, plainPage] using h.plain
  refine ⟨honly, hup, ?_, fun hmem => latched_latchAll _ pg hl hmem⟩
  rw [reads_oneField h.reg h.rw _ hcpw hrseq h.lo h.hi (h.shows _) (readReg_plain h.plain hup h.from_header h.to_counters),
    regAccepted_latchAll, fieldTaken, regAccepted_applyIfIdle, pageOf_setPage, fld_accepted_takeField _ _ _ _ _ h.hi, h.lo]

/-- R47: a write of a select register answers what its page latches, from a state in which nothing but the page has changed. -/
theorem Selector.answers {c : Instr} {latches : State → List (Nat × Nat)} {post : State → Prop}
    (hr : inRange f.rng (fld v f.hi f.lo) = true) (hexec : exec c s = .next (pageWrite s ag pg off v).1)
    (hafter : ∀ old u, afterWrite old u pg off v = latchAll u pg (latches u)) (hkeys : ∀ u, ((latches u).map Prod.fst).Nodup)
    (hpost : ∀ u t, OnlyPage pg s u → Selects s t pg off (fld v f.hi 0) (latches u) → post t) : Answers c s post :=
  ⟨_, hexec.trans (congrArg Host.Outcome.next ((h.pageWrite_eq hw hr).trans (hafter _ _))),
    hpost _ _ (fieldTaken_onlyPage s pg off f v) (h.selects hw (hkeys _))⟩

end

theorem Selects.reads_shown {s t : State} {pg : PageId} {off sel : Nat} {l : List (Nat × Nat)} (g : Selects s t pg off sel l)
    (hp : plainPage pg = true) {o n : Nat} (hmem : (o, n) ∈ l) (ho : 0x40 ≤ o) (ho2 : o < 0x800) (hd : regDef? pg o = none)
    (hro : roPart t pg o = latched (pageOf t pg) o) : reads t pg o = n % 2 ^ 32 :=
  (reads_latched hp g.up ho ho2 hd hro).trans (g.shown hmem)

/-! ## The select registers (R138, R235, R315, R343) -/

theorem selector_ffeCell (q : Fin 4) : Selector (.ffe q) 0x60 (rwL 7 0 0) :=
  ⟨rfl, rfl, rfl, rfl, by decide, by decide, by decide, rfl, fun _ => rfl, fun _ _ _ => by simp [writeReg], fun _ _ => rfl⟩

theorem selector_tileCell (t : Fin 64) : Selector (.tile t) 0x60 (rwL 7 0 0 (.within 0 239)) :=
  ⟨rfl, rfl, rfl, rfl, by decide, by decide, by decide, rfl, fun _ => rfl, fun _ _ _ => by simp [writeReg], fun _ _ => rfl⟩

theorem selector_lane (q : Fin 4) : Selector (.line q) 0x44 (rwL 4 0 0 (.within 0 17)) :=
  ⟨rfl, rfl, rfl, rfl, by decide, by decide, by decide, rfl, fun _ => rfl, fun _ _ _ => by simp [writeReg],
    fun _ _ => by simp [extraRefusal]⟩

theorem selector_ciphLink (q : Fin 4) (i : Fin 2) : Selector (.ciph q i) 0x48 (rwL 1 0 0) :=
  ⟨rfl, rfl, rfl, rfl, by decide, by decide, by decide, rfl, fun _ => rfl, fun _ _ _ => by simp [writeReg], fun _ _ => rfl⟩

theorem selector_ciphLane (q : Fin 4) (i : Fin 2) : Selector (.ciph q i) 0x54 (rwL 4 0 0 (.within 0 17)) :=
  ⟨rfl, rfl, rfl, rfl, by decide, by decide, by decide, rfl, fun _ => rfl, fun _ _ _ => by simp [writeReg], fun _ _ => rfl⟩

/-! ## Cells (R138, R235) -/

theorem flag_eq (lo : Nat) (b : Bool) : flag lo b = b.toNat * 2 ^ lo := by cases b <;> simp [flag]

theorem stNum_lt (c : CellSt) : stNum c < 8 := by cases c <;> decide

/-- R138, R235: the words of a cell's snapshot read as the cell's CIID, digest and arming superframe. -/
theorem Selects.reads_cellWords {s t : State} {pg : PageId} {off sel : Nat} {l : List (Nat × Nat)} (g : Selects s t pg off sel l)
    {u : State} {n base : Nat} (hsub : cellWords u n base ⊆ l)
    (hshow : ∀ o, base ≤ o → o ≤ base + 16 → reads t pg o = latched (pageOf t pg) o) :
    reads t pg base = (cellOf u n).ciid.toNat % 2 ^ 32 ∧
    reads t pg (base + 4) = (cellOf u n).ciid.toNat / 2 ^ 32 ∧
    reads t pg (base + 8) = (cellOf u n).digest.toNat % 2 ^ 32 ∧
    reads t pg (base + 12) = (cellOf u n).digest.toNat / 2 ^ 32 ∧
    reads t pg (base + 16) = (cellOf u n).armSf % 2 ^ 32 := by
  have hword : ∀ {o w}, (o, w) ∈ cellWords u n base → base ≤ o → o ≤ base + 16 → reads t pg o = w % 2 ^ 32 :=
    fun hmem hlo hhi => (hshow _ hlo hhi).trans (g.shown (hsub hmem))
  have hhigh : ∀ x : BitVec 64, x.toNat / 2 ^ 32 % 2 ^ 32 = x.toNat / 2 ^ 32 := fun x => by
    have := x.isLt
    omega
  refine ⟨hword (.head _) ?_ ?_, (hword (.tail _ (.head _)) ?_ ?_).trans (hhigh _), hword (.tail _ (.tail _ (.head _))) ?_ ?_,
    (hword (.tail _ (.tail _ (.tail _ (.head _)))) ?_ ?_).trans (hhigh _),
    hword (.tail _ (.tail _ (.tail _ (.tail _ (.head _))))) ?_ ?_⟩
  all_goals omega

/-- R138: the page of a fast front end shows a cell's snapshot at 0x64 to 0x7C. -/
theorem roPart_ffe (s : State) (q : Fin 4) {o : Nat} (h : 0x64 ≤ o) (h' : o ≤ 0x7C) :
    roPart s (.ffe q) o = latched (pageOf s (.ffe q)) o := by
  simp only [roPart, ffeReg]
  split
  case h_3 => exact if_pos (by simp [h, h'])
  all_goals omega

theorem regDef?_ffe (q : Fin 4) {o : Nat} (h : 0x64 ≤ o) : regDef? (.ffe q) o = none := by
  simp [regDef?, regDefs, regsFfe, reg]
  omega

/-- R235: the page of a tile shows a cell's snapshot at 0x64 to 0x80. -/
theorem roPart_tile (s : State) (t : Fin 64) {o : Nat} (h : 0x64 ≤ o) (h' : o ≤ 0x80) :
    roPart s (.tile t) o = latched (pageOf s (.tile t)) o := by
  simp only [roPart, tileReg]
  split
  case h_16 => exact if_pos (by simp [h, h'])
  all_goals omega

theorem regDef?_tile (t : Fin 64) {o : Nat} (h : 0x64 ≤ o) (h' : o ≤ 0x80) : regDef? (.tile t) o = none := by
  simp [regDef?, regDefs, regsTile, reg]
  omega

theorem mod_256_eq_fld (n : Nat) : n % 256 = fld n 7 0 := by simp [fld]

/-- What only one page's change leaves of the cells. -/
theorem cellOf_of_onlyPage {pg : PageId} {s t : State} (h : OnlyPage pg s t) (n : Nat) : cellOf t n = cellOf s n :=
  cellOf_of_onlyChanges h.1 (by decide) n

section
variable {s : State} {ag : Agent} {v : Word}

/-- R138: FFE.CELL_SEL. -/
theorem ffeCellSel_selects {q : Fin 4} (hw : Writable s ag (.ffe q)) : Answers (.ffeCellSelWrite ag q v) s (fun u =>
    let c := cellOf s (15360 + 256 * q.val + fld v.toNat 7 0)
    OnlyPage (.ffe q) s u ∧ reads u (.ffe q) 0x60 = fld v.toNat 7 0 ∧ reads u (.ffe q) 0x64 % 16 = stNum c.st ∧
    reads u (.ffe q) 0x68 = c.ciid.toNat % 2 ^ 32 ∧ reads u (.ffe q) 0x6C = c.ciid.toNat / 2 ^ 32 ∧
    reads u (.ffe q) 0x70 = c.digest.toNat % 2 ^ 32 ∧ reads u (.ffe q) 0x74 = c.digest.toNat / 2 ^ 32 ∧
    reads u (.ffe q) 0x78 = c.armSf % 2 ^ 32) := by
  refine (selector_ffeCell q).answers hw (latches := fun u => ffeCellLatch u q (v.toNat % 256)) rfl rfl (fun _ _ => rfl)
    (fun u => by simp [ffeCellLatch, cellWords]) fun u t honly g => ?_
  have hcell := cellOf_of_onlyPage honly
  rw [mod_256_eq_fld] at g
  have hwords := g.reads_cellWords (u := u) (base := 0x68) (List.subset_cons_self _ _) fun o hlo hhi =>
    reads_latched rfl g.up (by omega) (by omega) (regDef?_ffe q (by omega)) (roPart_ffe _ q (by omega) (by omega))
  have hstate := g.reads_shown rfl (.head _) (by decide) (by decide) (regDef?_ffe q (by decide))
    (roPart_ffe _ q (by decide) (by decide))
  simp only [hcell] at hwords hstate
  refine ⟨g.only, g.field, ?_, hwords⟩
  rw [hstate]
  have := stNum_lt (cellOf s (15360 + 256 * q.val + fld v.toNat 7 0)).st
  simp only [fld', flag_eq]
  omega

/-- R235: TILE.CELL_SEL. -/
theorem tileCellSel_selects {t : Fin 64} (hw : Writable s ag (.tile t)) (hv : fld v.toNat 7 0 ≤ 239) :
    Answers (.tileCellSelWrite ag t v) s (fun u =>
      let c := cellOf s (240 * t.val + fld v.toNat 7 0)
      OnlyPage (.tile t) s u ∧ reads u (.tile t) 0x60 = fld v.toNat 7 0 ∧ reads u (.tile t) 0x64 % 16 = stNum c.st ∧
      reads u (.tile t) 0x6C = c.ciid.toNat % 2 ^ 32 ∧ reads u (.tile t) 0x70 = c.ciid.toNat / 2 ^ 32 ∧
      reads u (.tile t) 0x74 = c.digest.toNat % 2 ^ 32 ∧ reads u (.tile t) 0x78 = c.digest.toNat / 2 ^ 32 ∧
      reads u (.tile t) 0x7C = c.armSf % 2 ^ 32) := by
  refine (selector_tileCell t).answers hw (latches := fun u => tileCellLatch u t (v.toNat % 256))
    (inRange_within.2 ⟨Nat.zero_le _, hv⟩) rfl (fun _ _ => rfl) (fun u => by simp [tileCellLatch, cellWords])
    fun u w honly g => ?_
  have hcell := cellOf_of_onlyPage honly
  rw [mod_256_eq_fld] at g
  have hwords := g.reads_cellWords (u := u) (base := 0x6C)
    (List.Subset.trans (List.subset_cons_self _ _) (List.subset_cons_self _ _)) fun o hlo hhi =>
    reads_latched rfl g.up (by omega) (by omega) (regDef?_tile t (by omega) (by omega)) (roPart_tile _ t (by omega) (by omega))
  have hstate := g.reads_shown rfl (.head _) (by decide) (by decide) (regDef?_tile t (by decide) (by decide))
    (roPart_tile _ t (by decide) (by decide))
  simp only [hcell] at hwords hstate
  refine ⟨g.only, g.field, ?_, hwords⟩
  rw [hstate]
  have := stNum_lt (cellOf s (240 * t.val + fld v.toNat 7 0)).st
  simp only [fld', flag_eq]
  omega

end

/-! ## Slots and keys (R315, R343) -/

theorem txCode_lt (x : TxSt) : txCode x < 4 := by cases x <;> decide

theorem rxCode_lt (x : RxSt) : rxCode x < 4 := by cases x <;> decide

/-- A slot named by a field of five bits. -/
theorem groupSlot_of_fld {n : Nat} {k : Fin 18} (h : fld n 4 0 = k.val) : groupSlot (n % 32) = k := by
  have hk : n % 32 = k.val := by simpa [fld] using h
  exact Fin.ext (by simp [groupSlot, hk, Nat.mod_eq_of_lt k.isLt])

theorem inRange_slot {n : Nat} {k : Fin 18} (h : fld n 4 0 = k.val) : inRange (.within 0 17) (fld n 4 0) = true :=
  inRange_within.2 ⟨Nat.zero_le _, by omega⟩

/-- R343: the registers that a cipher's page shows of a link or slot. -/
theorem regDef?_ciph (q : Fin 4) (i : Fin 2) : ∀ o ∈ [0x4C, 0x58, 0x5C, 0x64], regDef? (.ciph q i) o = none := by
  fin_cases i <;> simp [regDef?, regDefs, regsCiph, reg]

/-- R315: the link of a slot is set on its line's page. -/
theorem slotLink_of_onlyPage {pg : PageId} {s t : State} (h : OnlyPage pg s t) {q : Fin 4} (hq : pg ≠ .line q) (k : Fin 18) :
    slotLink t q k = slotLink s q k := by
  have hlanes : ∀ l ∈ groupLinks q, laneIn t l k = laneIn s l k := fun l hl => by
    have hg : l.1 = q := by
      obtain ⟨i, -, rfl⟩ := List.mem_map.1 hl
      rfl
    rw [laneIn, laneIn, linkLanes, linkLanes, fldB, fldB, hg, h.2 (.line q) (Ne.symm hq)]
  exact List.find?_congr hlanes

section
variable {s : State} {ag : Agent} {v : Word}

/-- R315: LINE.LANE_SEL. -/
theorem laneSel_selects {q : Fin 4} {k : Fin 18} (hw : Writable s ag (.line q)) (hk : fld v.toNat 4 0 = k.val) :
    Answers (.laneSelWrite ag q v) s (fun u =>
      let x := lslot s q k
      OnlyPage (.line q) s u ∧ reads u (.line q) 0x44 = k.val ∧ reads u (.line q) 0x48 % 4 = txCode x.tx ∧
      reads u (.line q) 0x48 / 4 % 4 = rxCode x.rx ∧ reads u (.line q) 0x48 / 64 % 16 = x.txWhy % 16 ∧
      reads u (.line q) 0x48 / 1024 % 16 = x.rxWhy % 16 ∧ reads u (.line q) 0x4C = x.skew % 4096) := by
  refine (selector_lane q).answers hw (latches := fun u => laneLatch u q (groupSlot (v.toNat % 32))) (inRange_slot hk) rfl
    (fun _ _ => rfl) (fun u => by simp [laneLatch]) fun u t honly g => ?_
  have hline : u.line = s.line := honly.1 .line (by decide)
  have hslot : lslot u q k = lslot s q k := by rw [lslot, lslot, hline]
  rw [groupSlot_of_fld hk] at g
  have hstate := g.reads_shown rfl (.head _) (by decide) (by decide) rfl rfl
  have hskew := g.reads_shown rfl (.tail _ (.head _)) (by decide) (by decide) rfl rfl
  rw [hslot] at hstate hskew
  have htx := txCode_lt (lslot s q k).tx
  have hrx := rxCode_lt (lslot s q k).rx
  refine ⟨g.only, g.field.trans hk, ?_⟩
  simp only [hstate, hskew, fld']
  omega

/-- R343: CIPH.LINK_SEL. -/
theorem ciphLinkSel_selects {q : Fin 4} {i : Fin 2} (hw : Writable s ag (.ciph q i)) :
    Answers (.ciphLinkSelWrite ag q i v) s (fun u =>
      let c := lciph s (q, fin4 v.toNat)
      OnlyPage (.ciph q i) s u ∧ reads u (.ciph q i) 0x48 = fld v.toNat 1 0 ∧
      reads u (.ciph q i) 0x4C % 256 = (((if i = 0 then c.tx else c.rx).map (·.id)).getD 0) % 256 ∧
      reads u (.ciph q i) 0x64 % 16 = c.result % 16 ∧ reads u (.ciph q i) 0x64 / 256 % 256 = c.reason % 256) := by
  refine (selector_ciphLink q i).answers hw (latches := fun u => ciphLinkLatch u q i (fin4 v.toNat)) rfl rfl (fun _ _ => rfl)
    (fun u => by simp [ciphLinkLatch]) fun u t honly g => ?_
  have hciph : u.ciph = s.ciph := honly.1 .ciph (by decide)
  have hlink : lciph u (q, fin4 v.toNat) = lciph s (q, fin4 v.toNat) := by rw [lciph, lciph, hciph]
  have hkey := g.reads_shown rfl (.head _) (by decide) (by decide) (regDef?_ciph q i _ (by decide)) rfl
  have hresult := g.reads_shown rfl (.tail _ (.tail _ (.head _))) (by decide) (by decide) (regDef?_ciph q i _ (by decide)) rfl
  rw [hlink] at hkey hresult
  refine ⟨g.only, g.field, ?_, ?_⟩
  · rw [hkey]
    simp only [fld', flag_eq]
    omega
  · simp only [hresult, fld']
    omega

/-- R343: CIPH.LANE_SEL. -/
theorem ciphLaneSel_selects {q : Fin 4} {i : Fin 2} {k : Fin 18} {l : LinkId} (hw : Writable s ag (.ciph q i))
    (hk : fld v.toNat 4 0 = k.val) (hl : slotLink s q k = some l) : Answers (.ciphLaneSelWrite ag q i v) s (fun u =>
      let n := if i = 0 then mget (lciph s l).ctr k.val 0
        else mget (lciph s l).last (k.val, ((lciph s l).rx.map (·.id)).getD 0) 0
      OnlyPage (.ciph q i) s u ∧ reads u (.ciph q i) 0x54 = k.val ∧ reads u (.ciph q i) 0x58 = n % 2 ^ 32 ∧
      reads u (.ciph q i) 0x5C = n / 2 ^ 32 % 256) := by
  refine (selector_ciphLane q i).answers hw (latches := fun u => ciphLaneLatch u q i (groupSlot (v.toNat % 32))) (inRange_slot hk)
    rfl (fun _ _ => rfl) (fun u => by simp [ciphLaneLatch]) fun u t honly g => ?_
  have hciph : u.ciph = s.ciph := honly.1 .ciph (by decide)
  have hlink : lciph u l = lciph s l := by rw [lciph, lciph, hciph]
  have howner : slotLink u q k = some l := (slotLink_of_onlyPage honly nofun k).trans hl
  rw [groupSlot_of_fld hk] at g
  have hlow := g.reads_shown rfl (.head _) (by decide) (by decide) (regDef?_ciph q i _ (by decide)) rfl
  have hhigh := g.reads_shown rfl (.tail _ (.head _)) (by decide) (by decide) (regDef?_ciph q i _ (by decide)) rfl
  simp only [howner, hlink] at hlow hhigh
  refine ⟨g.only, g.field.trans hk, hlow, hhigh.trans ?_⟩
  omega

end

/-- Settles O16: each selector by its rule above. -/
theorem selectorsCellsAndLine : Obligations.SelectorsCellsAndLine := fun _ _ _ _ _ _ _ =>
  ⟨ffeCellSel_selects, tileCellSel_selects, laneSel_selects, ciphLinkSel_selects, fun _ => ciphLaneSel_selects⟩

end Sys2Proof.Selectors
end

section
/-! PROOFS. Reduction records (R148, R149, R152, R153, R160, R498): how one arrives, which are refused, what taking one does to its
cell, and the settlement of O30 and O32. -/
namespace Sys2Proof.Records
open Sys2Proof Sys2Proof.Machine Sys2Proof.Laws Sys2Proof.AcceptedPackets Sys2Proof.Contributions Sys2Proof.Results
open Sys2Proof.Decisions Sys2Proof.CellTimers

/-! ## Arrival (R149, R152) -/

/-- A command names a record of the kind that it receives. -/
def Receives (c : Instr) (via : RecVia) (r : Record) : Prop :=
  c = .partialRx via r ∧ r.hdr.kind = 1 ∨ c = .finalRx via r ∧ r.hdr.kind = 2 ∨ c = .markRx via r ∧ r.hdr.kind = 3 ∨
    c = .rackRx via r ∧ r.hdr.kind = 4 ∨ c = .rresendRx via r ∧ r.hdr.kind = 5

theorem exec_receives {c : Instr} {via : RecVia} {r : Record} (h : Receives c via r) (s : State) :
    exec c s = .next (recordRx via r s) := by
  have hkind : ∀ {k : BitVec 8} {n : Nat}, r.hdr.kind = k → k.toNat = n → onKind n via r s = recordRx via r s := fun hk hn =>
    if_pos (by rw [hk, hn])
  obtain ⟨rfl, hk⟩ | ⟨rfl, hk⟩ | ⟨rfl, hk⟩ | ⟨rfl, hk⟩ | ⟨rfl, hk⟩ := h
  all_goals exact congrArg Host.Outcome.next (hkind hk rfl)

section
variable {r : Record} {u : State}

theorem recordCore_badCheck (hcheck : r.hdr.check.toNat ≠ recCheck r) (d : Dgram) :
    recordCore (.site d) r u = count u (fportOf d.port) 0 1 := if_pos hcheck

variable (hcheck : r.hdr.check.toNat = recCheck r)
include hcheck

theorem recordCore_malformed (hform : recMalformed r = true) (via : RecVia) :
    recordCore via r u = raiseFor u (inputPage u r.hdr.ciid (recPage via)) 0x2601 0 r.hdr.ciid := by
  simp [recordCore, hcheck, hform]

variable (hform : recMalformed r = false)
include hform

theorem recordCore_stale (hat : attempt u r.hdr.ciid = .stale) (via : RecVia) :
    recordCore via r u = raiseFor u (inputPage u r.hdr.ciid (recPage via)) 0x2103 0 r.hdr.ciid := by
  simp [recordCore, hcheck, hform, hat]

theorem recordCore_unknown (hat : attempt u r.hdr.ciid ≠ .stale) (hx : findInst u r.hdr.ciid = none) (via : RecVia) :
    recordCore via r u = raise u (recPage via) 0x2602 0 := by
  cases hat' : attempt u r.hdr.ciid with
  | stale => exact absurd hat' hat
  | now => simp [recordCore, hcheck, hform, hat', hx]
  | later => simp [recordCore, hcheck, hform, hat', hx]

theorem recordCore_now {x : Placed} (hat : attempt u r.hdr.ciid = .now) (hx : findInst u r.hdr.ciid = some x) (via : RecVia) :
    recordCore via r u = recordNow u via x r := by
  simp [recordCore, hcheck, hform, hat, hx]

end

/-- R152 order 4: a record that the plan does not route here is unknown. -/
theorem recordNow_unrouted {u : State} {x : Placed} {r : Record} (hroute : recRouted x (gw u) r = false) (via : RecVia) :
    recordNow u via x r = raiseCell u x.desc.cell 0x2602 0 r.hdr.ciid := by
  simp [recordNow, hroute]

/-- R152: a record that is taken is a record of the attempt that runs, in its instance. -/
theorem recordRx_of_recordIn {s : State} {via : RecVia} {r : Record} {u : State} {x : Placed} (h : RecordIn s via r u x) :
    recordRx via r s = recordNow u via x r := by
  obtain ⟨hin, hcheck, hform, hat, hx, -⟩ := h
  rw [← recordCore_now hcheck hform hat hx via]
  cases via with
  | site d => simp [recordRx, hin]
  | link g l => simp [recordRx, hin]
  | own => exact hin.elim

/-! ## Datagrams of the site fabric (R149, R498) -/

section
variable {s u : State} {d : Dgram} {r : Record}

theorem recordRx_foreign (h : ¬(d.conforms (peerPort s) = true ∧ d.peer = true)) :
    recordRx (.site d) r s = count s (fportOf d.port) 0 1 := by
  have hno : (!(d.conforms (peerPort s) && d.peer)) = true := by simpa [Classical.or_iff_not_imp_left] using h
  simp [recordRx, peerIn, hno]

variable (h : d.conforms (peerPort s) = true ∧ d.peer = true)
include h

theorem recordRx_policed (hp : policeIn s d.port 4 (wireSize true d.tagged (64 + r.payload.length)) = (u, false)) :
    recordRx (.site d) r s = count s (fportOf d.port) 5 1 := by
  simp [recordRx, peerIn, h, hp]

theorem recordRx_arrives (hp : policeIn s d.port 4 (wireSize true d.tagged (64 + r.payload.length)) = (u, true)) :
    recordRx (.site d) r s = recordCore (.site d) r u := by
  simp [recordRx, peerIn, h, hp]

end

/-- Settles O32: each refusal by the order of R152 that finds it. -/
theorem recordsRefused : Obligations.RecordsRefused := by
  intro s d r u c hc
  rw [exec_receives hc]
  refine ⟨fun hno => by rw [recordRx_foreign hno], fun hours hp => by rw [recordRx_policed hours hp], fun hours hp => ?_⟩
  rw [recordRx_arrives hours hp]
  exact ⟨fun hbad => by rw [recordCore_badCheck hbad],
    fun hcheck hform => by rw [recordCore_malformed hcheck hform]; rfl,
    fun hcheck hform hat => by rw [recordCore_stale hcheck hform hat]; rfl,
    fun hcheck hform hat hx => by rw [recordCore_unknown hcheck hform hat hx]; rfl,
    fun x hcheck hform hat hx hroute => by rw [recordCore_now hcheck hform hat hx, recordNow_unrouted hroute]⟩

/-! ## A record in a cell that holds its instance (R152 orders 5 to 10) -/

section
variable {u : State} {via : RecVia} {r : Record} {x : Placed} (hroute : recRouted x (gw u) r = true)
  (hh : Holds u x.desc.cell r.hdr.ciid) (hdig : r.hdr.digest = x.desc.digest)
include hroute hh hdig

/-- R152: a PARTIAL, FINAL or MARK of an instance that its cell holds and has not harvested goes to the cell. -/
theorem recordNow_inCell (hharv : (instRec u r.hdr.ciid).harvested = false) (hk : r.hdr.kind.toNat < 4) :
    recordNow u via x r = recordInCell u x r := by
  obtain ⟨hst, hciid, herr⟩ := hh
  simp [recordNow, hroute, hst, hciid, herr, hdig, hharv, Nat.not_le.2 hk]

/-- R153: a RACK or RRESEND has its effect at a cell that holds its instance. -/
theorem recordNow_answer (hk : 4 ≤ r.hdr.kind.toNat) : recordNow u via x r = answerNow u x r true := by
  obtain ⟨hst, hciid, herr⟩ := hh
  simp [recordNow, hroute, hst, hciid, herr, hdig, hk]

end

theorem recIntact_iff (r : Record) : recIntact r = true ↔ r.payload = [] ∨ crc64 r.payload = r.hdr.valueCheck.toNat := by
  simp [recIntact]

/-- R152 order 7: the cell asks again for a record whose payload is altered. -/
def asking (cl : Cell) (r : Record) : Cell :=
  { cl with asked := cl.asked ++ [((recKey r).kind, (recKey r).src, (recKey r).shard, (recKey r).chunk, (recKey r).flags)] }

section
variable {u : State} {r : Record} {x : Placed} (hshape : recShapeBad x r = false)
include hshape

theorem recordInCell_altered (hbad : recIntact r = false) : recordInCell u x r =
    emitRec (setCell u x.desc.cell (asking (cellOf u x.desc.cell) r)) x
      (mkAnswer (setCell u x.desc.cell (asking (cellOf u x.desc.cell) r)) 5 r) := by
  simp [recordInCell, hshape, hbad, asking]

variable (hok : recIntact r = true) (herr : isErr (cellOf u x.desc.cell).st = false)
include hok herr

theorem recordInCell_again {k : RecTaken} (hfind : (cellOf u x.desc.cell).recs.find? (sameChunk (recKey r)) = some k) :
    recordInCell u x r = if k.vcheck = r.hdr.valueCheck.toNat then rack u x r
      else taint u x.desc.cell r.hdr.ciid 1 0 (cellTile x.desc.cell).val := by
  simp [recordInCell, hshape, hok, herr, hfind]

theorem recordInCell_new (hfind : (cellOf u x.desc.cell).recs.find? (sameChunk (recKey r)) = none) :
    recordInCell u x r = tryHarvest (storePseudo (progress (rack (takeRecord u x r) x r) x r.hdr.ciid) x) x r.hdr.ciid := by
  simp [recordInCell, hshape, hok, herr, hfind]

end

/-! ## Records sent on by a holder (R160) -/

/-- A cell keeps all but the copies of the records that it has sent. -/
def KeepsButKept (n : Nat) (s t : State) : Prop := { cellOf t n with kept := [] } = { cellOf s n with kept := [] }

namespace KeepsButKept
variable {n : Nat} {s t u : State}

theorem refl (n : Nat) (s : State) : KeepsButKept n s s := rfl

theorem trans (h : KeepsButKept n s t) (g : KeepsButKept n t u) : KeepsButKept n s u := Eq.trans g h

theorem foldl {α : Type} {f : State → α → State} (h : ∀ s a, KeepsButKept n s (f s a)) (l : List α) (s : State) :
    KeepsButKept n s (l.foldl f s) := by
  induction l generalizing s with
  | nil => exact refl n s
  | cons a l ih => exact (h s a).trans (ih _)

theorem recs (h : KeepsButKept n s t) : (cellOf t n).recs = (cellOf s n).recs := (congrArg Cell.recs h :)
theorem st (h : KeepsButKept n s t) : (cellOf t n).st = (cellOf s n).st := (congrArg Cell.st h :)
theorem finals (h : KeepsButKept n s t) : (cellOf t n).finals = (cellOf s n).finals := (congrArg Cell.finals h :)

end KeepsButKept

theorem keepsButKept_sendKept (s : State) (x : Placed) (r : Record) : KeepsButKept x.desc.cell s (sendKept s x r) := by
  have hcell := cellOf_of_onlyChanges (onlyChanges_emitRec s x r) (by decide) x.desc.cell
  rw [KeepsButKept, sendKept, cellOf_setCell, hcell]

/-- R160: what a holder relays joins the copies that its cell keeps. -/
theorem keepsButKept_relay (s : State) (x : Placed) (r : Record) : KeepsButKept x.desc.cell s (relay s x r) := by
  have hall : ∀ (q : Record) (l : List Nat) (t : State), KeepsButKept x.desc.cell t (l.foldl (fun s g => relayTo s x q g) t) :=
    fun q => .foldl fun s g => keepsButKept_sendKept s x _
  unfold relay
  extract_lets me k cl mates s1 mk
  split
  · exact .refl _ _
  · split
    · exact hall _ _ _
    · split
      · exact (hall _ _ _).trans (hall _ _ _)
      · exact hall _ _ _

/-! ## A record taken (R152 order 10) -/

/-- R160: a shard's final value at a cell once a FINAL's chunk or a MARK has joined it. -/
def shardJoined (cl : Cell) (r : Record) : ShardFin :=
  let f := (mget? cl.finals r.hdr.shard.toNat).getD ⟨false, r.hdr.chunkCount.toNat, r.hdr.srcGw.toNat, []⟩
  if r.hdr.kind = 3 then { f with mark := true }
  else { f with chunks := mset f.chunks r.hdr.chunkIndex.toNat (r.payload, r.hdr.valueCheck.toNat) }

section
variable (s : State) (x : Placed) {r : Record}

/-- R152 order 10: a PARTIAL taken joins the records taken of its cell. -/
theorem takeRecord_partial (hk : r.hdr.kind = 1) :
    (cellOf (takeRecord s x r) x.desc.cell).recs = (cellOf s x.desc.cell).recs ++ [recKey r] ∧
      (cellOf (takeRecord s x r) x.desc.cell).st = (cellOf s x.desc.cell).st := by
  have hland : ∀ (v : State) cl f c t, cellOf (landCell (setCell v x.desc.cell cl) x.desc.cell f c t) x.desc.cell = cl :=
    fun v cl f c t => (cellOf_of_onlyChanges (onlyChanges_landCell _ _ _ _ _) (by decide) _).trans (cellOf_setCell _ _ _)
  unfold takeRecord
  extract_lets h d cell cl k fl i sh key tag s1 cl1 cs per n vs p q a p1 a2
  rw [if_pos hk]
  split
  next => rw [cellOf_setCell]; exact ⟨rfl, rfl⟩
  next =>
    split
    next => rw [hland]; exact ⟨rfl, rfl⟩
    next =>
      split
      next => rw [cellOf_setCell]; exact ⟨rfl, rfl⟩
      next => rw [hland]; exact ⟨rfl, rfl⟩

/-- R152 order 10, R160: a FINAL or MARK taken joins the records taken of its cell, and its shard's final value. -/
theorem takeRecord_final (hk : r.hdr.kind ≠ 1) :
    (cellOf (takeRecord s x r) x.desc.cell).recs = (cellOf s x.desc.cell).recs ++ [recKey r] ∧
      (cellOf (takeRecord s x r) x.desc.cell).st = (cellOf s x.desc.cell).st ∧
      (bit r.hdr.flags.toNat 1 = false → (cellOf (takeRecord s x r) x.desc.cell).finals =
        mset (cellOf s x.desc.cell).finals r.hdr.shard.toNat (shardJoined (cellOf s x.desc.cell) r)) := by
  unfold takeRecord
  extract_lets h d cell cl k fl i sh key tag s1 cl1 cs per n vs p q a p1 a2 slot f0 f cl2 full vs3 pr cl3
  rw [if_neg hk]
  have hrelay := keepsButKept_relay (setCell s1 cell cl3) x r
  have hproj : ∃ p, cl3 = { cl2 with proj := p } := by
    simp only [cl3]
    split
    · exact ⟨_, rfl⟩
    · exact ⟨_, rfl⟩
  obtain ⟨p, hp⟩ := hproj
  rw [hrelay.recs, hrelay.st, hrelay.finals, cellOf_setCell, hp]
  refine ⟨rfl, rfl, fun hb => ?_⟩
  have hslot : slot = k := by simp [slot, fl, h, hb]
  simp only [cl2, f, f0, hslot]
  rfl

theorem takeRecord_joins : (cellOf (takeRecord s x r) x.desc.cell).recs = (cellOf s x.desc.cell).recs ++ [recKey r] ∧
    (cellOf (takeRecord s x r) x.desc.cell).st = (cellOf s x.desc.cell).st := by
  by_cases hk : r.hdr.kind = 1
  · exact takeRecord_partial s x hk
  · obtain ⟨hrecs, hst, -⟩ := takeRecord_final s x hk
    exact ⟨hrecs, hst⟩

end

/-- Settles O30: in the cell that holds its instance, a record is asked for again, answered again, contested, or taken. -/
theorem recordsTaken : Obligations.RecordsTaken := by
  intro s via r u x c hin hc hh hharv hdig hshape cell
  have ⟨_, _, _, _, _, hroute⟩ := hin
  have hk : r.hdr.kind.toNat < 4 := by
    obtain ⟨-, hk⟩ | ⟨-, hk⟩ | ⟨-, hk⟩ := hc <;> rw [hk] <;> decide
  have hrec : Receives c via r := hc.imp_right (Or.imp_right .inl)
  rw [Answers, exec_receives hrec, recordRx_of_recordIn hin, recordNow_inCell hroute hh hdig hharv hk]
  obtain ⟨-, -, herr⟩ := hh
  refine ⟨fun hne hbad => ?_, fun hok => ⟨fun k hfind => ?_, fun hfind => ?_⟩⟩
  · have hint : recIntact r = false := by simp [recIntact, hne, hbad]
    refine ⟨setCell u cell (asking (cellOf u cell) r), ?_, ?_⟩
    · rw [recordInCell_altered hshape hint]
    · rw [cellOf_setCell]
      exact ⟨rfl, rfl, rfl⟩
  · rw [recordInCell_again hshape ((recIntact_iff r).2 hok) herr hfind]
    refine ⟨fun hsame => by rw [if_pos hsame], fun hother => ⟨_, by rw [if_neg hother], ?_⟩⟩
    rw [taint, cellOf_enterError, cellOf_setCell]
    exact ⟨rfl, rfl, rfl⟩
  · obtain ⟨hrecs, hst⟩ := takeRecord_joins u x (r := r)
    have hfinals : r.hdr.kind ≠ 1 → bit r.hdr.flags.toNat 1 = false →
        mget? (cellOf (takeRecord u x r) cell).finals r.hdr.shard.toNat = some (shardJoined (cellOf u cell) r) := fun hk hb => by
      obtain ⟨-, -, hf⟩ := takeRecord_final u x hk
      rw [hf hb, mget?_mset_same]
    rw [recordInCell_new hshape ((recIntact_iff r).2 hok) herr hfind]
    refine ⟨rfl, hrecs, hst, by rw [rack, cellOf_setCell], fun hk hb => ⟨_, hfinals (by simp [hk]) hb, ?_⟩,
      fun hk hb => ⟨_, hfinals (by simp [hk]) hb, ?_⟩⟩
    · simp [shardJoined, hk]
    · simp [shardJoined, hk]

end Sys2Proof.Records
end

section
/-! PROOFS. RACK and RRESEND (R151, R153, R154, R166, R167): which copies a cell keeps, and what sending one again does, and the
settlement of O31. -/
namespace Sys2Proof.RecordAnswers
open Sys2Proof Sys2Proof.Machine Sys2Proof.Laws Sys2Proof.AcceptedPackets Sys2Proof.Contributions Sys2Proof.Results
open Sys2Proof.CommitsAndEpochs Sys2Proof.CellTimers Sys2Proof.Records

/-! ## RACK (R153, R166) -/

/-- R388: the tray of a holder is released by that holder, and nothing is raised. -/
theorem onlyChanges_releaseTray_held (s : State) (i : TrayId) : OnlyChanges [.trays] s (releaseTray s i) := by
  unfold releaseTray
  split
  next h hheld =>
    rw [freeTray, hheld]
    dsimp only
    rw [if_pos rfl]
    exact onlyChanges_trays s _
  next => exact onlyChanges_refl _ _

theorem onlyChanges_releaseTrays (s : State) (l : List TrayId) : OnlyChanges [.trays] s (releaseTrays s l) :=
  onlyChanges_foldl onlyChanges_releaseTray_held l s

/-- R166: the trays that what is retained does not fill are freed; the cell keeps all else. -/
theorem trimTrays_frees (s : State) (x : Placed) : OnlyChanges [.coll, .trays] s (trimTrays s x) ∧
    (∀ n, n ≠ x.desc.cell → cellOf (trimTrays s x) n = cellOf s n) ∧
    ∃ l, cellOf (trimTrays s x) x.desc.cell = { cellOf s x.desc.cell with trays := l } := by
  unfold trimTrays
  extract_lets cl ponds stay
  split
  · exact ⟨onlyChanges_refl _ _, fun _ _ => rfl, _, rfl⟩
  · have hfree := onlyChanges_releaseTrays (setCell s x.desc.cell { cl with trays := stay }) (cl.trays.filter (fun t => !stay.contains t))
    have hcell := cellOf_of_onlyChanges hfree (by decide)
    exact ⟨onlyChanges_trans (onlyChanges_setCell _ _ _) hfree, fun n hn => (hcell n).trans (cellOf_setCell_ne _ _ hn), stay,
      (hcell _).trans (cellOf_setCell _ _ _)⟩

/-- R153: what becomes of one copy as a RACK comes: a PARTIAL that it names is released, a FINAL or MARK is acknowledged. -/
def racked (r : Record) (k : Kept) : Option Kept :=
  if !namedKept r k then some k else if k.rcd.hdr.kind = 1 then none else some { k with acked := true }

/-- R153: a RACK changes the copies that its cell keeps, and frees trays. -/
theorem takeRack_releases (s : State) (x : Placed) (r : Record) :
    (cellOf (takeRack s x r) x.desc.cell).kept = (cellOf s x.desc.cell).kept.filterMap (racked r) ∧
    (∀ n, n ≠ x.desc.cell → cellOf (takeRack s x r) n = cellOf s n) ∧ OnlyChanges [.coll, .trays] s (takeRack s x r) := by
  unfold takeRack
  extract_lets cl kept
  obtain ⟨htrim, htrimOther, l, htrimCell⟩ := trimTrays_frees (setCell s x.desc.cell { cl with kept := kept }) x
  obtain ⟨hnote, hnoteOther, b, hnoteCell⟩ :=
    tryHarvest_notes (trimTrays (setCell s x.desc.cell { cl with kept := kept }) x) x r.hdr.ciid
  refine ⟨?_, fun n hn => ?_, ?_⟩
  · rw [hnoteCell, htrimCell, cellOf_setCell]
    rfl
  · rw [hnoteOther n hn, htrimOther n hn, cellOf_setCell_ne _ _ hn]
  · exact onlyChanges_mono (onlyChanges_trans (onlyChanges_trans (onlyChanges_setCell _ _ _) htrim) hnote) (by simp)

section
variable {r : Record} {k y : Kept}

theorem racked_unnamed (h : namedKept r k = false) : racked r k = some k := by simp [racked, h]

/-- A copy that a RACK leaves is the copy that was there, acknowledged where the RACK names it. -/
theorem eq_of_racked (h : racked r k = some y) :
    y.rcd = k.rcd ∧ y.sends = k.sends ∧ (namedKept r y = true → y.acked = true ∧ y.rcd.hdr.kind ≠ 1) := by
  unfold racked at h
  split at h
  next hno =>
    cases h
    exact ⟨rfl, rfl, fun hyes => by simp [hyes] at hno⟩
  next =>
    split at h
    next => cases h
    next hkind =>
      cases h
      exact ⟨rfl, rfl, fun _ => ⟨rfl, hkind⟩⟩

end

section
variable {s : State} {via : RecVia} {r : Record} {u : State} {x : Placed} (hin : RecordIn s via r u x)
  (hh : Holds u x.desc.cell r.hdr.ciid) (hdig : r.hdr.digest = x.desc.digest) (hshape : recShapeBad x r = false)
include hin hh hdig hshape

theorem recordRx_answer (hk : 4 ≤ r.hdr.kind.toNat) :
    recordRx via r s = if r.hdr.kind = 4 then takeRack u x r else takeRresend u x r := by
  have ⟨_, _, _, _, _, hroute⟩ := hin
  rw [recordRx_of_recordIn hin, recordNow_answer hroute hh hdig hk]
  simp [answerNow, hshape]

theorem exec_rackRx (hk : r.hdr.kind = 4) : exec (.rackRx via r) s = .next (takeRack u x r) := by
  rw [exec_receives (.inr (.inr (.inr (.inl ⟨rfl, hk⟩)))), recordRx_answer hin hh hdig hshape (by rw [hk]; decide), if_pos hk]

theorem exec_rresendRx (hk : r.hdr.kind = 5) : exec (.rresendRx via r) s = .next (takeRresend u x r) := by
  rw [exec_receives (.inr (.inr (.inr (.inr ⟨rfl, hk⟩)))), recordRx_answer hin hh hdig hshape (by rw [hk]; decide),
    if_neg (by rw [hk]; decide)]

/-- R153: a RACK that arrives releases or acknowledges the copies that it names, and leaves the others. -/
theorem rackRx_releases (hk : r.hdr.kind = 4) : Answers (.rackRx via r) s (fun t =>
    (∀ y ∈ (cellOf t x.desc.cell).kept, namedKept r y = true → y.acked = true ∧ y.rcd.hdr.kind ≠ 1) ∧
    (∀ y ∈ (cellOf u x.desc.cell).kept, namedKept r y = false → y ∈ (cellOf t x.desc.cell).kept) ∧
    (∀ y ∈ (cellOf t x.desc.cell).kept, ∃ k ∈ (cellOf u x.desc.cell).kept, y.rcd = k.rcd ∧ y.sends = k.sends) ∧
    (∀ n, n ≠ x.desc.cell → cellOf t n = cellOf u n) ∧ OnlyChanges [.coll, .trays] u t) := by
  obtain ⟨hkept, hother, honly⟩ := takeRack_releases u x r
  refine ⟨_, exec_rackRx hin hh hdig hshape hk, ?_⟩
  beta_reduce
  rw [hkept]
  have hleft : ∀ y ∈ (cellOf u x.desc.cell).kept.filterMap (racked r), ∃ k ∈ (cellOf u x.desc.cell).kept, racked r k = some y :=
    fun y => List.mem_filterMap.1
  refine ⟨fun y hy => ?_, fun y hy hno => List.mem_filterMap.2 ⟨y, hy, racked_unnamed hno⟩, fun y hy => ?_, hother, honly⟩
  · obtain ⟨k, -, hky⟩ := hleft y hy
    obtain ⟨-, -, hnamed⟩ := eq_of_racked hky
    exact hnamed
  · obtain ⟨k, hmem, hky⟩ := hleft y hy
    obtain ⟨hrcd, hsends, -⟩ := eq_of_racked hky
    exact ⟨k, hmem, hrcd, hsends⟩

end

/-! ## A copy sent again (R153, R154, R167) -/

/-- The cell with one of its copies changed. -/
def keptChanged (s : State) (x : Placed) (k : Kept) (g : Kept → Kept) : State :=
  setCell s x.desc.cell
    { cellOf s x.desc.cell with kept := (cellOf s x.desc.cell).kept.map (fun y => if y = k then g y else y) }

theorem mem_keptChanged {s : State} {x : Placed} {k : Kept} (h : k ∈ (cellOf s x.desc.cell).kept) (g : Kept → Kept) :
    g k ∈ (cellOf (keptChanged s x k g) x.desc.cell).kept := by
  rw [keptChanged, cellOf_setCell]
  exact List.mem_map.2 ⟨k, h, if_pos rfl⟩

section
variable {s : State} {x : Placed} {k : Kept} (ha : k.acked = false)
include ha

theorem resendKept_silent (hs : 8 ≤ k.sends) (hq : k.silent = false) : resendKept s x k =
    raiseCell (keptChanged s x k (fun y => { y with silent := true })) x.desc.cell 0x3601 0 k.rcd.hdr.ciid := by
  simp [resendKept, ha, hs, hq, keptChanged]

variable (hs : k.sends < 8)
include hs

theorem resendKept_altered (hbad : recIntact k.rcd = false) :
    resendKept s x k = taint s x.desc.cell k.rcd.hdr.ciid 1 0 (cellTile x.desc.cell).val := by
  obtain ⟨hne, hbad⟩ : k.rcd.payload ≠ [] ∧ crc64 k.rcd.payload ≠ k.rcd.hdr.valueCheck.toNat := by simpa [recIntact] using hbad
  simp [resendKept, ha, Nat.not_le.2 hs, hne, hbad]

/-- R154: a copy that is intact is sent again, with RESENT. -/
theorem resendKept_sends (hok : recIntact k.rcd = true) : resendKept s x k =
    emitRec (keptChanged s x k (fun y => { y with sends := y.sends + 1, sf := s.sf })) x
      (sealRec { k.rcd with hdr := { k.rcd.hdr with flags := k.rcd.hdr.flags ||| 1 } }) := by
  have hok : (!k.rcd.payload.isEmpty && decide (crc64 k.rcd.payload ≠ k.rcd.hdr.valueCheck.toNat)) = false := by
    cases hp : k.rcd.payload <;> simp_all [recIntact]
  simp only [resendKept, ha, Nat.not_le.2 hs, hok]
  rfl

end

/-- R154: after the eighth sending a copy is found silent, and PEER_SILENT is raised. -/
theorem resendKept_raises {s : State} {x : Placed} {k : Kept} (hk : k ∈ (cellOf s x.desc.cell).kept) (ha : k.acked = false)
    (hs : 8 ≤ k.sends) (hq : k.silent = false) :
    { k with silent := true } ∈ (cellOf (resendKept s x k) x.desc.cell).kept ∧
      (pageOf (resendKept s x k) (cellPage x.desc.cell)).classSeen.getLsbD 3 = true := by
  rw [resendKept_silent ha hs hq]
  refine ⟨?_, seen_raiseFor _ _ (by decide) _ _⟩
  rw [raiseCell, raiseFor, cellOf_of_onlyChanges (onlyChanges_raiseSubj _ _ _ _ _ _) (by decide)]
  exact mem_keptChanged hk _

/-- Settles O31: a RACK by what it leaves of each copy, an RRESEND by the copies it names, each sent again by its rule above. -/
theorem recordAnswers : Obligations.RecordAnswers := by
  refine ⟨fun s via r u x hin hh hdig hshape => ⟨rackRx_releases hin hh hdig hshape, exec_rresendRx hin hh hdig hshape⟩,
    fun s x k hk ha => ⟨fun hs hq => ?_, fun hs hne hbad => ?_, fun hs hok => ?_⟩⟩
  · obtain ⟨hmem, hseen⟩ := resendKept_raises hk ha hs hq
    exact ⟨_, hmem, rfl, hseen⟩
  · rw [resendKept_altered ha hs (by simp [recIntact, hne, hbad]), taint, cellOf_enterError, cellOf_setCell]
    rfl
  · rw [resendKept_sends ha hs ((recIntact_iff _).2 hok)]
    refine ⟨?_, _, onlyChanges_setCell _ _ _, rfl⟩
    rw [cellOf_of_onlyChanges (onlyChanges_emitRec _ _ _) (by decide)]
    exact mem_keptChanged hk _

end Sys2Proof.RecordAnswers
end

section
/-! PROOFS. Cross-checks and the referee (R171, R431, R433, R434): what a tile is charged, what a miss leaves, and the settlement of
O34. -/
namespace Sys2Proof.CrossChecks
open Sys2Proof Sys2Proof.Machine Sys2Proof.Laws Sys2Proof.AcceptedPackets Sys2Proof.Contributions Sys2Proof.Results
open Sys2Proof.RaisedCodes Sys2Proof.CommitsAndEpochs Sys2Proof.CellTimers

/-! ## What raising a code leaves: the pages' quarantine, and the charges (R49, R433) -/

theorem onlyChanges_i3c (s : State) (x : I3c) : OnlyChanges [.i3c] s { s with i3c := x } := by
  intro p hp
  cases p <;> simp_all [Part.same]

/-- R49, R420: raising a code records it on its page, and may then send the master a request. -/
theorem raiseSubj_records (s : State) (pg : PageId) (code info : Nat) (c : BitVec 64) (g : Nat) :
    ∃ v, OnlyChanges [.pages, .out, .ctr, .elog, .i3c, .msix, .clk] s v ∧
      v.pages = (setPage s pg (recorded s pg code info)).pages ∧
      (raiseSubj s pg code info c g = v ∨ ∃ l k d, raiseSubj s pg code info c g = sendRecoverReq v l k d g) := by
  unfold raiseSubj
  extract_lets cls p0 p1 s1 s2 ic sc s3 a lg s4
  have hpages : s1.pages = (setPage s pg (recorded s pg code info)).pages := by
    have hclock : (noteClock s pg).pages = s.pages := onlyChanges_noteClock s pg .pages (by decide)
    simp only [s1, setPage, hclock]
    rfl
  have h1 : OnlyChanges [.pages, .clk] s s1 :=
    onlyChanges_mono (onlyChanges_trans (onlyChanges_noteClock s pg) (onlyChanges_setPage _ pg p1)) (by simp)
  have h2 : OnlyChanges [.out, .msix] s1 s2 := onlyChanges_ite _ (onlyChanges_notify _ _) (onlyChanges_refl _ _)
  have hsc : OnlyChanges [.out, .i3c] s2 sc := onlyChanges_mono (onlyChanges_i3c s2 _) (by simp)
  have h3 : OnlyChanges [.out, .i3c] s2 s3 :=
    onlyChanges_ite _ (onlyChanges_ite _ (onlyChanges_then hsc (onlyChanges_mono (onlyChanges_emit _ _) (by simp))) hsc)
      (onlyChanges_refl _ _)
  have h4 : OnlyChanges [.ctr, .elog] s3 s4 := onlyChanges_ite _ (onlyChanges_logPush _ _) (onlyChanges_refl _ _)
  have hrest := onlyChanges_trans (onlyChanges_trans h2 h3) h4
  refine ⟨s4, onlyChanges_mono (onlyChanges_trans h1 hrest) (by simp), (hrest .pages (by decide)).trans hpages, ?_⟩
  split
  · exact .inl rfl
  · cases a with
    | some d => exact .inr ⟨_, _, _, rfl⟩
    | none =>
      dsimp only
      split
      · exact .inr ⟨_, _, _, rfl⟩
      · exact .inl rfl

/-- R426: what goes to the master leaves the charges. -/
theorem charges_sendMaster (s : State) (m : Msg) : (sendMaster s m).rseq.charges = s.rseq.charges := by
  have hsite : ∀ g, (sendSite s g m).rseq = s.rseq := fun g => onlyChanges_sendSite s g m .rseq (by decide)
  have hlink : ∀ l, (sendLink s l m).rseq = s.rseq := fun l => onlyChanges_sendLink s l m .rseq (by decide)
  unfold sendMaster
  split
  · rfl
  · split
    · rfl
    · split
      · rw [hsite]
      · split
        · rw [hlink]
        · split
          · rw [hsite]
          · rfl

theorem charges_raiseSubj (s : State) (pg : PageId) (code info : Nat) (c : BitVec 64) (g : Nat) :
    (raiseSubj s pg code info c g).rseq.charges = s.rseq.charges := by
  obtain ⟨v, honly, -, hv⟩ := raiseSubj_records s pg code info c g
  have hrseq : v.rseq = s.rseq := honly .rseq (by decide)
  obtain hv | ⟨l, k, d, hv⟩ := hv
  · rw [hv, hrseq]
  · rw [hv, sendRecoverReq, charges_sendMaster]
    exact (congrArg Rseq.charges hrseq :)

theorem quarantined_recorded (s : State) (pg : PageId) (code info : Nat) :
    (recorded s pg code info).quarantined = (pageOf s pg).quarantined := by
  have hrecord : ∀ (p : Page) sf same, (p.record code info sf same).quarantined = p.quarantined := fun p sf same => by
    unfold Page.record
    dsimp only
    split
    · split <;> rfl
    · rfl
  have hhalt : ∀ (p : Page) n, (p.halt n).quarantined = p.quarantined := fun p n => by
    unfold Page.halt Page.apply
    split
    · split <;> rfl
    · rfl
  unfold recorded
  dsimp only
  split
  · rw [hhalt, hrecord]
  · rw [hrecord]

/-- R49: raising a code quarantines no tile. -/
theorem quarantined_raiseSubj (s : State) (pg : PageId) (code info : Nat) (c : BitVec 64) (g : Nat) (q : PageId) :
    (pageOf (raiseSubj s pg code info c g) q).quarantined = (pageOf s q).quarantined := by
  obtain ⟨v, -, hpages, hv⟩ := raiseSubj_records s pg code info c g
  have hraised : (raiseSubj s pg code info c g).pages = v.pages := by
    obtain hv | ⟨l, k, d, hv⟩ := hv
    · rw [hv]
    · rw [hv]
      exact onlyChanges_sendRecoverReq v l k d g .pages (by decide)
  have hpage : pageOf (raiseSubj s pg code info c g) q = pageOf (setPage s pg (recorded s pg code info)) q := by
    rw [pageOf, hraised, hpages]
    rfl
  rw [hpage]
  by_cases hq : q = pg
  · subst hq
    rw [pageOf_setPage, quarantined_recorded]
  · rw [pageOf_setPage_ne _ _ hq]

/-! ## Charges (R431, R433) -/

/-- The parts that charging a tile, and quarantining it, may change. -/
def chargeParts : List Part := .poison :: .plans :: .trays :: raisedParts

/-- R431: the tiles charged in the present superframe; the charges of all others, and every error class seen, stay. -/
structure Charged (l : List (Fin 64)) (s t : State) : Prop where
  keeps : KeepsSeen chargeParts s t
  charged : ∀ x ∈ l, s.sf ∈ mget t.rseq.charges x [] ∧ (pageOf t (.tile x)).classSeen.getLsbD 1 = true
  others : ∀ x, x ∉ l → mget t.rseq.charges x [] = mget s.rseq.charges x []

namespace Charged
variable {l m : List (Fin 64)} {s t u : State}

theorem of_keeps (h : KeepsSeen chargeParts s t) (hc : t.rseq.charges = s.rseq.charges) : Charged [] s t :=
  ⟨h, nofun, fun _ _ => by rw [hc]⟩

theorem refl (s : State) : Charged [] s s := of_keeps (.refl s) rfl

theorem of_only {ps : List Part} (h : OnlyChanges ps s t) (hsub : ∀ p ∈ ps, p ∈ chargeParts) (hpg : Part.pages ∉ ps)
    (hr : Part.rseq ∉ ps) : Charged [] s t := by
  have hrseq : t.rseq = s.rseq := h .rseq hr
  exact of_keeps (.of_only h hsub hpg) (by rw [hrseq])

theorem trans (h : Charged l s t) (g : Charged m t u) : Charged (l ++ m) s u := by
  have hsf : t.sf = s.sf := h.keeps.only .sf (by decide)
  refine ⟨h.keeps.trans g.keeps, fun x hx => ?_, fun x hx => ?_⟩
  · by_cases hm : x ∈ m
    · exact hsf ▸ g.charged x hm
    · obtain ⟨hin, hseen⟩ := h.charged x ((List.mem_append.1 hx).resolve_right hm)
      exact ⟨by rwa [g.others x hm], g.keeps.seen _ _ hseen⟩
  · rw [List.mem_append, not_or] at hx
    rw [g.others x hx.2, h.others x hx.1]

theorem ite {c : Prop} [Decidable c] (h : Charged l s t) (g : Charged l s u) : Charged l s (if c then t else u) := by
  split
  · exact h
  · exact g

theorem cond {c : Prop} [Decidable c] (h : Charged l s t) : Charged (if c then l else []) s (if c then t else s) := by
  split
  · exact h
  · exact refl s

end Charged

theorem charged_raise (s : State) {pg : PageId} (hpg : pg ≠ .cpw) (code info : Nat) (c : BitVec 64) :
    Charged [] s (raiseFor s pg code info c) :=
  .of_keeps (.of_raises (raises_raiseSubj s hpg code info c _) (by decide)) (charges_raiseSubj _ _ _ _ _ _)

theorem onlyChanges_poison (s : State) (l : List (Nat × Nat)) : OnlyChanges [.poison] s { s with poison := l } := by
  intro p hp
  cases p <;> simp_all [Part.same]

theorem onlyChanges_addPoison (s : State) (a n : Nat) : OnlyChanges [.poison] s (addPoison s a n) :=
  onlyChanges_ite _ (onlyChanges_poison s _) (onlyChanges_then (onlyChanges_poison s _) (onlyChanges_poison _ _))

theorem onlyChanges_haltTile (s : State) (t : Fin 64) : OnlyChanges [.poison, .plans] s (haltTile s t) :=
  onlyChanges_trans (onlyChanges_foldl (fun s (f : InFlight) => onlyChanges_addPoison s f.dst f.len) _ s) (onlyChanges_setTile _ _ _)

theorem onlyChanges_setSlot (s : State) (i : Nat) (x : Slot) : OnlyChanges [.plans] s (setSlot s i x) := by
  unfold setSlot
  split
  all_goals
    intro p hp
    cases p <;> simp_all [Part.same]

theorem charged_holdPlans (t : Fin 64) (s : State) : Charged [] s (holdPlans t s) := by
  unfold holdPlans
  extract_lets f
  have hstep : ∀ s i, Charged [] s (f s i) := fun s i => by
    refine .ite ?_ (.refl s)
    have hslot : ∀ x, Charged [] s (setSlot s i x) := fun x =>
      .of_only (onlyChanges_setSlot s i x) (by decide) (by decide) (by decide)
    exact (hslot _).trans (.of_keeps (.of_only (MgmtFunctions.onlyChanges_rseq _ _) (by decide) (by decide)) rfl)
  exact (hstep _ _).trans (hstep _ _)

/-- R234: quarantining a tile charges none. -/
theorem charged_quarantineTile (s : State) (t : Fin 64) : Charged [] s (quarantineTile s t) := by
  unfold quarantineTile
  extract_lets n limit x job att s1 p s2 tr s3
  have hhalt : Charged [] s s1 := .of_only (onlyChanges_haltTile s t) (by decide) (by decide) (by decide)
  have hpage : Charged [] s1 s2 := .of_keeps (.of_raises (raises_setPage (pg := .tile t) nofun fun _ x => x) (by decide)) rfl
  have htrays : Charged [] s2 s3 := .of_only (onlyChanges_trays s2 _) (by decide) (by decide) (by decide)
  have hraise : ∀ b : Bool, Charged [] s3 (if b then raiseFor s3 .rseq 0x3705 0 att else raiseFor s3 (.tile t) 0x3801 0 att) :=
    fun b => .ite (charged_raise s3 (pg := .rseq) nofun _ _ _) (charged_raise s3 (pg := .tile t) nofun _ _ _)
  exact (((hhalt.trans hpage).trans htrays).trans (hraise limit)).trans (charged_holdPlans t _)

/-- R431, R433: a tile charged has the charge in its window, and TILE_CHARGED on its page. -/
theorem charged_chargeTile (s : State) (t : Fin 64) : Charged [t] s (chargeTile s t) := by
  unfold chargeTile
  extract_lets win l q s1
  have hset : KeepsSeen chargeParts s { s with rseq := { s.rseq with charges := mset s.rseq.charges t l } } :=
    .of_only (MgmtFunctions.onlyChanges_rseq s _) (by decide) (by decide)
  have hraise : KeepsSeen chargeParts _ s1 := .of_raises (raises_raise _ (pg := .tile t) nofun _ _) (by decide)
  have hcharges : s1.rseq.charges = mset s.rseq.charges t l := charges_raiseSubj _ _ _ _ _ _
  have hcharged : Charged [t] s s1 := by
    refine ⟨hset.trans hraise, fun x hx => ?_, fun x hx => ?_⟩
    · obtain rfl := List.mem_singleton.1 hx
      rw [hcharges, mget_mset_same]
      exact ⟨by simp [l], seen_raise _ _ (by decide) _⟩
    · rw [hcharges, mget_mset_ne _ _ _ (by simpa using hx)]
  exact .ite hcharged (hcharged.trans (charged_quarantineTile s1 t))

/-- R431: a verdict charges the primary, the shadow, or both. -/
theorem charged_chargeBy (s : State) (k : Xchk) (verdict : Nat) :
    Charged ((if verdict ≠ 1 then [k.tile] else []) ++ if verdict ≠ 0 then [k.shadow] else []) s (chargeBy s k verdict) := by
  unfold chargeBy
  extract_lets ref tmp s1 s2
  have hlog : Charged [] s s1 := .of_only (onlyChanges_logPush _ _) (by decide) (by decide) (by decide)
  exact (hlog.trans (charged_chargeTile s1 k.tile).cond).trans (charged_chargeTile s2 k.shadow).cond

/-! ## A chunk computed again, and a miss (R171, R431) -/

theorem onlyChanges_charge (s : State) (t : Fin 64) (a b c d e : Nat) : OnlyChanges [.ctr] s (charge s t a b c d e) :=
  onlyChanges_then (onlyChanges_then (onlyChanges_then (onlyChanges_then (onlyChanges_then (onlyChanges_count _ _ _ _)
    (onlyChanges_count _ _ _ _)) (onlyChanges_count _ _ _ _)) (onlyChanges_count _ _ _ _)) (onlyChanges_count _ _ _ _))
    (onlyChanges_count _ _ _ _)

theorem onlyChanges_recompute (s : State) (k : Xchk) (t : Fin 64) (err : List (Nat × Byte)) :
    OnlyChanges [.plans, .ctr] s (recompute s k t err).1 :=
  onlyChanges_mono (onlyChanges_trans (onlyChanges_charge s t _ _ _ _ _) (onlyChanges_landTile _ _ _ _)) (by simp)

theorem tileOf_of_onlyChanges {ps : List Part} {s t : State} (h : OnlyChanges ps s t) (hp : Part.plans ∉ ps) (y : Fin 64) :
    tileOf t y = tileOf s y := congrArg (fun p : Plans => mget p.tiles y Tile.reset) (h .plans hp)

theorem xchkMiss_landTile (s : State) (t : Fin 64) (f : Flg) (o : OpAt) (y : Fin 64) :
    (tileOf (landTile s t f o) y).xchkMiss = (tileOf s y).xchkMiss := by
  unfold landTile
  extract_lets x y1 x1 own x2 s1
  have hcount : ∀ v pg i n, tileOf (count v pg i n) y = tileOf v y := fun v pg i n =>
    tileOf_of_onlyChanges (onlyChanges_count v pg i n) (by decide) y
  have hopen : tileOf s1 y = tileOf (setTile s t x2) y := by
    simp only [s1, orOpen]
    split <;> rfl
  have hcapture : (capture x f o).xchkMiss = x.xchkMiss := by
    unfold capture
    split
    · rfl
    · dsimp only
      split <;> rfl
  have hx2 : x2.xchkMiss = x.xchkMiss := by
    simp only [x2]
    split <;> exact hcapture
  rw [hcount, hcount, hcount, hcount, hcount, hopen]
  by_cases hy : y = t
  · subst hy
    rw [show tileOf (setTile s y x2) y = x2 from mget_mset_same _ _ _ _, hx2]
  · rw [show tileOf (setTile s t x2) y = tileOf s y from mget_mset_ne _ _ _ hy]

theorem xchkMiss_recompute (s : State) (k : Xchk) (t : Fin 64) (err : List (Nat × Byte)) (y : Fin 64) :
    (tileOf (recompute s k t err).1 y).xchkMiss = (tileOf s y).xchkMiss :=
  (xchkMiss_landTile _ _ _ _ y).trans (by rw [tileOf_of_onlyChanges (onlyChanges_charge s t _ _ _ _ _) (by decide)])

/-- R171: a miss counted at a tile. -/
def missed (s : State) (t : Fin 64) : State :=
  setTile s t { tileOf s t with xchkMiss := min 0xFFFF ((tileOf s t).xchkMiss + 1) }

theorem tileOf_missed (s : State) (t : Fin 64) : (tileOf (missed s t) t).xchkMiss = min 0xFFFF ((tileOf s t).xchkMiss + 1) :=
  congrArg Tile.xchkMiss (mget_mset_same _ _ _ _)

theorem tileOf_missed_ne (s : State) {t y : Fin 64} (h : y ≠ t) : tileOf (missed s t) y = tileOf s y := mget_mset_ne _ _ _ h

/-- R171: misses counted at both tiles of a cross-check, and in its quadrant. -/
def missCounted (s : State) (k : Xchk) : State := count (missed (missed s k.tile) k.shadow) (.quad (cellQuad k.cell)) 1 1

theorem onlyChanges_missCounted (s : State) (k : Xchk) : OnlyChanges [.plans, .ctr] s (missCounted s k) :=
  onlyChanges_mono (onlyChanges_trans (onlyChanges_trans (onlyChanges_setTile s k.tile _) (onlyChanges_setTile _ k.shadow _))
    (onlyChanges_count _ _ _ _)) (by simp)

theorem xchkMiss_missCounted (s : State) {k : Xchk} (h : k.tile ≠ k.shadow) :
    (tileOf (missCounted s k) k.tile).xchkMiss = min 0xFFFF ((tileOf s k.tile).xchkMiss + 1) ∧
      (tileOf (missCounted s k) k.shadow).xchkMiss = min 0xFFFF ((tileOf s k.shadow).xchkMiss + 1) := by
  have hcount := tileOf_of_onlyChanges (onlyChanges_count (missed (missed s k.tile) k.shadow) (.quad (cellQuad k.cell)) 1 1) (by decide)
  rw [missCounted, hcount, hcount, tileOf_missed_ne _ h, tileOf_missed, tileOf_missed, tileOf_missed_ne _ h.symm]
  exact ⟨rfl, rfl⟩

/-- R171: a disagreement taints the cell that holds the instance. -/
def contested (s : State) (k : Xchk) : State :=
  if (cellOf s k.cell).ciid = k.ciid && (cellOf s k.cell).st ≠ .free && !isErr (cellOf s k.cell).st then
    taint s k.cell k.ciid 2 k.level k.shadow.val
  else s

/-- What contesting a chunk leaves: the parts not named, the cross-checks, the charges, and which tiles are quarantined. -/
structure Contests (s t : State) : Prop where
  only : OnlyChanges (.plans :: .coll :: raisedParts) s t
  xchks : t.coll.xchks = s.coll.xchks
  charges : t.rseq.charges = s.rseq.charges
  quarantined : ∀ q, (pageOf t q).quarantined = (pageOf s q).quarantined

namespace Contests
variable {s t u : State}

theorem trans (h : Contests s t) (g : Contests t u) : Contests s u :=
  ⟨onlyChanges_then h.only g.only, g.xchks.trans h.xchks, g.charges.trans h.charges,
    fun q => (g.quarantined q).trans (h.quarantined q)⟩

theorem of_only (h : OnlyChanges [.plans, .ctr] s t) : Contests s t := by
  have hcoll : t.coll = s.coll := h .coll (by decide)
  have hrseq : t.rseq = s.rseq := h .rseq (by decide)
  have hpages : t.pages = s.pages := h .pages (by decide)
  exact ⟨onlyChanges_mono h (by decide), by rw [hcoll], by rw [hrseq], fun q => by rw [pageOf, pageOf, hpages]⟩

end Contests

theorem contests_enterError (s : State) (cell : Nat) (c : BitVec 64) (st : CellSt) (cause info : Nat) :
    Contests s (enterError s cell c st cause info) := by
  have honly := onlyChanges_enterError s cell c st cause info
  refine ⟨onlyChanges_mono (onlyChanges_trans (onlyChanges_setCell _ _ _) honly) (by decide),
    (congrArg Coll.xchks (honly .coll (by decide)) :), (charges_sendMaster _ _).trans (charges_raiseSubj _ _ _ _ _ _), fun q => ?_⟩
  have hnotice : ∀ v cl, pageOf (sendNotice v cl) q = pageOf v q := fun v cl =>
    congrArg (fun m => mget m q Page.reset) (onlyChanges_sendMaster v _ .pages (by decide))
  rw [enterError, hnotice]
  exact quarantined_raiseSubj _ _ _ _ _ _ q

theorem contests_contested (s : State) (k : Xchk) : Contests s (contested s k) := by
  unfold contested
  split
  · exact contests_enterError _ _ _ _ _ _
  · exact .of_only (onlyChanges_refl _ _)

/-- R171: contesting a chunk leaves the tiles. -/
theorem tileOf_contested (s : State) (k : Xchk) (y : Fin 64) : tileOf (contested s k) y = tileOf s y := by
  unfold contested
  split
  · exact tileOf_of_onlyChanges (onlyChanges_trans (onlyChanges_setCell _ _ _) (onlyChanges_enterError _ _ _ _ _ _)) (by decide) y
  · rfl

theorem contested_taints {s : State} {k : Xchk} (h : Holds s k.cell k.ciid) :
    (cellOf (contested s k) k.cell).st = .tainted ∧ (cellOf (contested s k) k.cell).taint = 2 := by
  obtain ⟨hst, hciid, herr⟩ := h
  rw [contested, if_pos (by simp [hst, hciid, herr]), taint, cellOf_enterError, cellOf_setCell]
  exact ⟨rfl, rfl⟩

/-! ## The referee (R431) -/

/-- R431: a tile that may referee a cross-check. -/
def mayReferee (s : State) (k : Xchk) (t : Fin 64) : Prop :=
  t.val / 16 = k.shadow.val / 16 ∧ t ≠ k.tile ∧ t ≠ k.shadow ∧ (pageOf s (.tile t)).quarantined = false

/-- R431: the referee is the lowest-numbered tile that may be. -/
theorem refereeOf_eq_some (s : State) (k : Xchk) (r : Fin 64) :
    refereeOf s k = some r ↔ mayReferee s k r ∧ ∀ y : Fin 64, y.val < r.val → ¬mayReferee s k y := by
  have hmay : ∀ t, (t.val / 16 == k.shadow.val / 16 && t != k.tile && t != k.shadow && !(pageOf s (.tile t)).quarantined) = true ↔
      mayReferee s k t := fun t => by simp [mayReferee, and_assoc]
  rw [refereeOf, List.find?_eq_some_iff_getElem, hmay]
  have hat : ∀ (y : Fin 64) (h : y.val < (List.finRange 64).length), (List.finRange 64)[y.val] = y := fun y h => by simp
  refine and_congr_right fun _ => ⟨fun ⟨i, hi, hr, hlow⟩ y hy hyes => ?_, fun hlow => ⟨r.val, by simp, hat r _, fun j hj => ?_⟩⟩
  · have hir : r.val = i := by rw [← hr]; simp
    have hno := hlow y.val (hir ▸ hy)
    rw [hat y, (hmay y).2 hyes] at hno
    cases hno
  · have hno := mt (hmay ⟨j, hj.trans r.isLt⟩).1 (hlow ⟨j, hj.trans r.isLt⟩ hj)
    rw [hat ⟨j, hj.trans r.isLt⟩, Bool.eq_false_iff.2 hno]
    rfl

theorem refereeOf_congr {s t : State} (h : ∀ q, (pageOf t q).quarantined = (pageOf s q).quarantined) (k : Xchk) :
    refereeOf t k = refereeOf s k := by
  simp only [refereeOf, h]

/-! ## XCHK_COMPARE (R171) -/

/-- R431: a cross-check given to a referee, with the bits of the shadow. -/
def refereed (s : State) (id : Nat) (t : Fin 64) (sh : Bytes) : State :=
  let given := fun (y : Xchk) => if y.id = id then { y with referee := some t, sh := sh } else y
  { s with coll := { s.coll with xchks := s.coll.xchks.map given } }

theorem mem_refereed {s : State} {id : Nat} {k : Xchk} (hk : k ∈ s.coll.xchks) (hid : k.id = id) (t : Fin 64) (sh : Bytes) :
    { k with referee := some t, sh := sh } ∈ (refereed s id t sh).coll.xchks :=
  List.mem_map.2 ⟨k, hk, if_pos hid⟩

@[simp] theorem tileOf_refereed (s : State) (id : Nat) (t : Fin 64) (sh : Bytes) (y : Fin 64) :
    tileOf (refereed s id t sh) y = tileOf s y := rfl
@[simp] theorem cellOf_refereed (s : State) (id : Nat) (t : Fin 64) (sh : Bytes) (n : Nat) :
    cellOf (refereed s id t sh) n = cellOf s n := rfl
@[simp] theorem rseq_refereed (s : State) (id : Nat) (t : Fin 64) (sh : Bytes) : (refereed s id t sh).rseq = s.rseq := rfl

theorem onlyChanges_dropXchk (s : State) (id : Nat) : OnlyChanges [.coll] s (dropXchk s id) := onlyChanges_coll s _

theorem mem_dropXchk (s : State) (id : Nat) : ∀ y ∈ (dropXchk s id).coll.xchks, y.id ≠ id := fun y hy => by
  simpa using (List.mem_filter.1 hy).2

theorem xchks_tryHarvest (s : State) (x : Placed) (c : BitVec 64) : (tryHarvest s x c).coll.xchks = s.coll.xchks := by
  unfold tryHarvest
  dsimp only
  split <;> rfl

/-- R431: a cross-check that ends in a charge is dropped, and charges the tiles of the verdict at the superframe of `s`. -/
theorem chargeBy_ends {ps : List Part} {s v : State} (h : OnlyChanges ps s v) (hsf : Part.sf ∉ ps) (id : Nat) (k : Xchk)
    (verdict : Nat) (hc : v.rseq.charges = s.rseq.charges) :
    let t := chargeBy (dropXchk v id) k verdict
    (∀ y ∈ t.coll.xchks, y.id ≠ id) ∧
    (verdict ≠ 1 → s.sf ∈ mget t.rseq.charges k.tile [] ∧ (pageOf t (.tile k.tile)).classSeen.getLsbD 1 = true) ∧
    (verdict ≠ 0 → s.sf ∈ mget t.rseq.charges k.shadow [] ∧ (pageOf t (.tile k.shadow)).classSeen.getLsbD 1 = true) ∧
    (∀ x, x ≠ k.tile → x ≠ k.shadow → mget t.rseq.charges x [] = mget s.rseq.charges x []) := by
  intro t
  have hcharged : Charged _ (dropXchk v id) t := charged_chargeBy (dropXchk v id) k verdict
  have hnow : (dropXchk v id).sf = s.sf := h .sf hsf
  have hcoll : t.coll = (dropXchk v id).coll := hcharged.keeps.only .coll (by decide)
  have hall := hcharged.charged
  rw [hnow] at hall
  refine ⟨by rw [hcoll]; exact mem_dropXchk v id, fun hne => hall _ (by simp [hne]), fun hne => hall _ (by simp [hne]),
    fun x hp hs => ?_⟩
  rw [← hc]
  refine hcharged.others x ?_
  rw [List.mem_append, not_or]
  exact ⟨by split <;> simp [hp], by split <;> simp [hs]⟩

/-- What a disagreement leaves before a referee is called: the misses counted, and the cell contested. -/
def disagreed (s : State) (k : Xchk) (err : List (Nat × Byte)) : State :=
  contested (missCounted (recompute s k k.shadow err).1 k) k

theorem contests_disagreed (s : State) (k : Xchk) (err : List (Nat × Byte)) : Contests s (disagreed s k err) :=
  ((Contests.of_only (onlyChanges_recompute s k k.shadow err)).trans (.of_only (onlyChanges_missCounted _ k))).trans
    (contests_contested _ k)

theorem disagreed_counts (s : State) {k : Xchk} (h : k.tile ≠ k.shadow) (err : List (Nat × Byte)) :
    (tileOf (disagreed s k err) k.tile).xchkMiss = min 0xFFFF ((tileOf s k.tile).xchkMiss + 1) ∧
      (tileOf (disagreed s k err) k.shadow).xchkMiss = min 0xFFFF ((tileOf s k.shadow).xchkMiss + 1) := by
  rw [disagreed, tileOf_contested, tileOf_contested, ← xchkMiss_recompute s k k.shadow err, ← xchkMiss_recompute s k k.shadow err]
  exact xchkMiss_missCounted _ h

theorem disagreed_taints {s : State} {k : Xchk} (h : Holds s k.cell k.ciid) (err : List (Nat × Byte)) :
    (cellOf (disagreed s k err) k.cell).st = .tainted ∧ (cellOf (disagreed s k err) k.cell).taint = 2 := by
  have hcell := cellOf_of_onlyChanges
    (onlyChanges_then (onlyChanges_recompute s k k.shadow err) (onlyChanges_missCounted _ k)) (by decide) k.cell
  refine contested_taints ?_
  rwa [Holds, hcell]

section
variable {s : State} {id : Nat} {k : Xchk} {err : List (Nat × Byte)}
  (hk : s.coll.xchks.find? (fun k => k.id == id && k.referee.isNone) = some k)
include hk

theorem exec_xchkCompare_agrees (h : flipBytes k.again.1 err = k.bits) : exec (.xchkCompare id err) s =
    .next ((findInst (dropXchk (recompute s k k.shadow err).1 id) k.ciid).elim (dropXchk (recompute s k k.shadow err).1 id)
      fun x => tryHarvest (dropXchk (recompute s k k.shadow err).1 id) x k.ciid) := by
  change execXchkCompare id err s = _
  have hsh : (recompute s k k.shadow err).2 = k.bits := h
  simp only [execXchkCompare, hk, hsh, if_true]
  cases findInst (dropXchk (recompute s k k.shadow err).1 id) k.ciid <;> rfl

theorem exec_xchkCompare_differs (h : flipBytes k.again.1 err ≠ k.bits) : exec (.xchkCompare id err) s =
    .next ((refereeOf s k).elim (chargeBy (dropXchk (disagreed s k err) id) k 2)
      fun t => refereed (disagreed s k err) id t (flipBytes k.again.1 err)) := by
  change execXchkCompare id err s = _
  have hsh : (recompute s k k.shadow err).2 ≠ k.bits := h
  rw [← refereeOf_congr (contests_disagreed s k err).quarantined]
  simp only [execXchkCompare, hk, hsh, if_false]
  split
  next hr =>
    rw [show refereeOf (disagreed s k err) k = none from hr]
    rfl
  next t hr =>
    rw [show refereeOf (disagreed s k err) k = some t from hr]
    rfl

/-- R171: a shadow that agrees ends the cross-check. -/
theorem xchkCompare_agrees (h : flipBytes k.again.1 err = k.bits) : Answers (.xchkCompare id err) s (fun t =>
    (∀ y ∈ t.coll.xchks, y.id ≠ id) ∧ OnlyChanges [.coll, .plans, .ctr] s t) := by
  refine ⟨_, exec_xchkCompare_agrees hk h, ?_⟩
  generalize hv : dropXchk (recompute s k k.shadow err).1 id = v
  have hdrop : ∀ y ∈ v.coll.xchks, y.id ≠ id := hv ▸ mem_dropXchk _ id
  have honly : OnlyChanges [.coll, .plans, .ctr] s v :=
    hv ▸ onlyChanges_mono (onlyChanges_trans (onlyChanges_recompute s k k.shadow err) (onlyChanges_dropXchk _ id)) (by simp)
  cases findInst v k.ciid with
  | none => exact ⟨hdrop, honly⟩
  | some x =>
    obtain ⟨hnote, -, -⟩ := tryHarvest_notes v x k.ciid
    exact ⟨by rwa [Option.elim, xchks_tryHarvest], onlyChanges_then honly (onlyChanges_mono hnote (by simp))⟩

/-- R171, R431: a shadow that disagrees calls a referee. -/
theorem xchkCompare_refers (h : flipBytes k.again.1 err ≠ k.bits) {r : Fin 64} (hr : refereeOf s k = some r) :
    Answers (.xchkCompare id err) s (fun t =>
      (∃ y ∈ t.coll.xchks, y.id = id ∧ y.referee = some r ∧ y.sh = flipBytes k.again.1 err) ∧
      (k.tile ≠ k.shadow → (tileOf t k.tile).xchkMiss = min 0xFFFF ((tileOf s k.tile).xchkMiss + 1) ∧
        (tileOf t k.shadow).xchkMiss = min 0xFFFF ((tileOf s k.shadow).xchkMiss + 1)) ∧
      (Holds s k.cell k.ciid → (cellOf t k.cell).st = .tainted ∧ (cellOf t k.cell).taint = 2) ∧
      t.rseq.charges = s.rseq.charges) := by
  have hcontests := contests_disagreed s k err
  have hid : k.id = id := by
    have hfound := List.find?_some hk
    simp only [Bool.and_eq_true, beq_iff_eq] at hfound
    exact hfound.1
  have hmem : k ∈ (disagreed s k err).coll.xchks := hcontests.xchks ▸ List.mem_of_find?_eq_some hk
  refine ⟨refereed (disagreed s k err) id r (flipBytes k.again.1 err), by rw [exec_xchkCompare_differs hk h, hr]; rfl, ?_⟩
  simp only [tileOf_refereed, cellOf_refereed, rseq_refereed]
  exact ⟨⟨_, mem_refereed hmem hid r _, hid, rfl, rfl⟩, fun hne => disagreed_counts s hne err, fun hh => disagreed_taints hh err,
    hcontests.charges⟩

/-- R431: where the quadrant has no referee, both tiles are charged. -/
theorem xchkCompare_charges (h : flipBytes k.again.1 err ≠ k.bits) (hr : refereeOf s k = none) :
    Answers (.xchkCompare id err) s (fun t => (∀ y ∈ t.coll.xchks, y.id ≠ id) ∧
      s.sf ∈ mget t.rseq.charges k.tile [] ∧ s.sf ∈ mget t.rseq.charges k.shadow []) := by
  have hcontests := contests_disagreed s k err
  obtain ⟨hdrop, hprimary, hshadow, -⟩ := chargeBy_ends hcontests.only (by decide) id k 2 hcontests.charges
  exact ⟨_, by rw [exec_xchkCompare_differs hk h, hr]; rfl, hdrop, (hprimary (by decide)).1, (hshadow (by decide)).1⟩

end

/-! ## REFEREE_VERDICT (R431) -/

/-- R431: the verdict by the referee's bits: 0 charges the primary, 1 the shadow, 2 both. -/
def verdictOf (k : Xchk) (rb : Bytes) : Nat := if rb = k.sh then 0 else if rb = k.bits then 1 else 2

theorem exec_refereeVerdict {s : State} {id : Nat} {k : Xchk} {r : Fin 64} (err : List (Nat × Byte))
    (hk : s.coll.xchks.find? (fun k => k.id == id) = some k) (hr : k.referee = some r) : exec (.refereeVerdict id err) s =
      .next (chargeBy (dropXchk (recompute s k r err).1 id) k (verdictOf k (flipBytes k.again.1 err))) := by
  change execRefereeVerdict id err s = _
  simp only [execRefereeVerdict, hk, hr]
  rfl

theorem verdictOf_ne_one {k : Xchk} {rb : Bytes} (h : rb = k.sh ∨ rb ≠ k.bits) : verdictOf k rb ≠ 1 := by
  unfold verdictOf
  split
  next => decide
  next hsh => rw [if_neg (h.resolve_left hsh)]; decide

theorem verdictOf_ne_zero {k : Xchk} {rb : Bytes} (h : rb ≠ k.sh) : verdictOf k rb ≠ 0 := by
  rw [verdictOf, if_neg h]
  split <;> decide

/-- Settles O34: the comparison by whether the bits agree and a referee is there, the verdict by whom it charges, and the referee. -/
theorem crossChecks : Obligations.CrossChecks := by
  refine ⟨fun s id err k hk => ⟨xchkCompare_agrees hk, fun h r hr => xchkCompare_refers hk h hr, xchkCompare_charges hk⟩,
    fun s id err k r hk hr => ⟨_, exec_refereeVerdict err hk hr, ?_⟩,
    fun s k r => (refereeOf_eq_some s k r).trans (by simp only [mayReferee, and_assoc])⟩
  have honly := onlyChanges_recompute s k r err
  obtain ⟨hdrop, hprimary, hshadow, hothers⟩ := chargeBy_ends honly (by decide) id k (verdictOf k (flipBytes k.again.1 err))
    (congrArg Rseq.charges (honly .rseq (by decide)))
  exact ⟨hdrop, fun h => hprimary (verdictOf_ne_one h), fun h => hshadow (verdictOf_ne_zero h), hothers⟩

end Sys2Proof.CrossChecks
end

section
/-! PROOFS. Words of the engines (R202, R210, R212): what an engine word that issues at once leaves, the crystalliser's words, and the
settlement of O37. -/
namespace Sys2Proof.EngineWords
open Sys2Proof Sys2Proof.Machine Sys2Proof.Laws Sys2Proof.MgmtFunctions Sys2Proof.Contributions Sys2Proof.CommitsAndEpochs
  Sys2Proof.CrossChecks

/-! ## Tiles -/

@[simp] theorem tileOf_setTile (s : State) (t : Fin 64) (x : Tile) : tileOf (setTile s t x) t = x := mget_mset_same _ _ _ _

theorem tileOf_setTile_ne (s : State) {t y : Fin 64} (x : Tile) (h : y ≠ t) : tileOf (setTile s t x) y = tileOf s y :=
  mget_mset_ne _ _ _ h

/-- A tile's place in its stream: its sequencer, the index of its next word and the words in flight, as in another state; the
other tiles are as they were. -/
structure SamePlace (t : Fin 64) (s u : State) : Prop where
  pc : (tileOf u t).pc = (tileOf s t).pc
  seq : (tileOf u t).seq = (tileOf s t).seq
  flight : (tileOf u t).flight = (tileOf s t).flight
  others : ∀ x, x ≠ t → tileOf u x = tileOf s x

namespace SamePlace
variable {t : Fin 64} {s u v : State}

theorem trans (h : SamePlace t s u) (g : SamePlace t u v) : SamePlace t s v :=
  ⟨g.pc.trans h.pc, g.seq.trans h.seq, g.flight.trans h.flight, fun x hx => (g.others x hx).trans (h.others x hx)⟩

/-- What leaves the plans leaves every tile. -/
theorem of_only {ps : List Part} (h : OnlyChanges ps s u) (hp : Part.plans ∉ ps) : SamePlace t s u := by
  have htile := tileOf_of_onlyChanges h hp
  exact ⟨by rw [htile], by rw [htile], by rw [htile], fun x _ => htile x⟩

theorem setTile {x : Tile} (hpc : x.pc = (tileOf s t).pc) (hseq : x.seq = (tileOf s t).seq)
    (hflight : x.flight = (tileOf s t).flight) : SamePlace t s (setTile s t x) := by
  refine ⟨?_, ?_, ?_, fun y hy => tileOf_setTile_ne s x hy⟩
  all_goals rwa [tileOf_setTile]

end SamePlace

theorem samePlace_orOpen (t : Fin 64) (s : State) (step replay bits : Nat) : SamePlace t s (orOpen s step replay bits) := by
  have htile : ∀ y, tileOf (orOpen s step replay bits) y = tileOf s y := fun y => by
    unfold orOpen
    split <;> rfl
  exact ⟨by rw [htile], by rw [htile], by rw [htile], fun x _ => htile x⟩

/-- R199: a capture leaves the tile's place. -/
theorem capture_place (x : Tile) (f : Flg) (o : OpAt) :
    (capture x f o).pc = x.pc ∧ (capture x f o).seq = x.seq ∧ (capture x f o).flight = x.flight := by
  unfold capture
  split
  · exact ⟨rfl, rfl, rfl⟩
  · dsimp only
    split <;> exact ⟨rfl, rfl, rfl⟩

/-- R197: flags that land on a tile leave its place. -/
theorem samePlace_landTile (s : State) (t : Fin 64) (f : Flg) (o : OpAt) : SamePlace t s (landTile s t f o) := by
  unfold landTile
  extract_lets x x1 x2 own x3 s1
  obtain ⟨hpc, hseq, hflight⟩ := capture_place x f o
  have hset : SamePlace t s (setTile s t x3) := by
    refine .setTile ?_ ?_ ?_
    all_goals
      simp only [x3]
      split <;> assumption
  have hcount : ∀ v i n, SamePlace t v (count v (.tile t) i n) := fun v i n =>
    .of_only (onlyChanges_count v _ i n) (by decide)
  exact (((((hset.trans (samePlace_orOpen t _ _ _ _)).trans (hcount _ _ _)).trans (hcount _ _ _)).trans (hcount _ _ _)).trans
    (hcount _ _ _)).trans (hcount _ _ _)

/-! ## Engine words (R209, R212, R249) -/

theorem onWord_reaches {s : State} {t : Fin 64} {op : Nat} {p : Plan} {st : PlanStep} {w : List Nat} (h : Reaches s t op p st w)
    {is : List Nat → Bool} (his : is w = true) (f : Plan → PlanStep → List Nat → State) : onWord s t is f = f p st w := by
  simp only [onWord, h.1, his, if_true]

/-- The state in which the effect of an engine word runs (R476, R395, R241): the word has issued, its operands are counted at their
ponds, and its destinations are clean and, where they lie in momentum, noted. -/
def wordIssued (s : State) (t : Fin 64) (w : List Nat) : State :=
  let sp := wordSpans w
  let s := issue s t w (sp.1.any (fun x => poisoned s x.1 x.2))
  sp.2.foldl (fun s x => noteMomentum (clearPoison s x.1 x.2) x.1 x.2) ((sp.1 ++ sp.2).foldl countPond s)

theorem onlyChanges_issue (s : State) (t : Fin 64) (w : List Nat) (b : Bool) : OnlyChanges [.plans, .ctr] s (issue s t w b) :=
  onlyChanges_trans (onlyChanges_setTile _ _ _) (onlyChanges_charge _ _ _ _ _ _ _)

theorem onlyChanges_countPond (s : State) (x : Nat × Nat) : OnlyChanges [.ctr] s (countPond s x) :=
  onlyChanges_ite _ (onlyChanges_count _ _ _ _) (onlyChanges_refl _ _)

theorem onlyChanges_noteMomentum (s : State) (a n : Nat) : OnlyChanges [.outer] s (noteMomentum s a n) := by
  intro p hp
  cases p <;> simp_all [Part.same, noteMomentum]

/-- R241, R395: what the operands of an engine word leave behind. -/
theorem wordIssued_after_issue (s : State) (t : Fin 64) (w : List Nat) : OnlyChanges [.ctr, .poison, .outer]
    (issue s t w ((wordSpans w).1.any (fun x => poisoned s x.1 x.2))) (wordIssued s t w) := by
  have hspan : ∀ (v : State) (x : Nat × Nat), OnlyChanges [.poison, .outer] v (noteMomentum (clearPoison v x.1 x.2) x.1 x.2) :=
    fun v x => onlyChanges_trans (onlyChanges_poison v _) (onlyChanges_noteMomentum _ _ _)
  exact onlyChanges_trans (onlyChanges_foldl onlyChanges_countPond _ _) (onlyChanges_foldl hspan _ _)

theorem onlyChanges_wordIssued (s : State) (t : Fin 64) (w : List Nat) :
    OnlyChanges [.plans, .ctr, .poison, .outer] s (wordIssued s t w) :=
  onlyChanges_mono (onlyChanges_trans (onlyChanges_issue s t w _) (wordIssued_after_issue s t w)) (by decide)

theorem tileOf_wordIssued (s : State) (t : Fin 64) (w : List Nat) (y : Fin 64) : tileOf (wordIssued s t w) y =
    if y = t then { tileOf s t with
      pc := (tileOf s t).pc + w.length, seq := .issue, waitArg := 0,
      startSf := if (tileOf s t).pc = 0 then s.sf else (tileOf s t).startSf }
    else tileOf s y := by
  rw [tileOf_of_onlyChanges (wordIssued_after_issue s t w) (by decide), issue,
    tileOf_of_onlyChanges (onlyChanges_charge _ _ _ _ _ _ _) (by decide)]
  by_cases h : y = t
  · rw [if_pos h, h, tileOf_setTile]
  · rw [if_neg h, tileOf_setTile_ne _ _ h]

/-- The last destination of a word, where its output stands. -/
def wordDst (w : List Nat) : Nat × Nat := (wordSpans w).2.getLast?.getD (0, 0)

/-- R212, R249: an engine word whose engine, ponds and destinations are free issues at once, with its effect. -/
theorem engineWord_free {s : State} {t : Fin 64} {e : Engine} {w : List Nat} (h : EngineFree s t e w) (p : Plan)
    (effect : State → State) : engineWord s t p e w effect =
      enqueue (noteProof (effect (wordIssued s t w)) t (tileOf s t).pc (wordDst w)) t
        ⟨e, (wordDst w).1, (wordDst w).2, behindBlock s t e⟩ := by
  obtain ⟨hroom, hgo, hpond⟩ := h
  have hspent : ((wordSpans w).1 ++ (wordSpans w).2).filter (fun x => pondSpent s x.1) = [] :=
    List.filter_eq_nil_iff.2 fun x hx => by simp [hpond x hx]
  have hbehind : behindBlock (wordIssued s t w) t e = behindBlock s t e := by
    rw [behindBlock, onlyChanges_wordIssued s t w .tdec (by decide)]
    rfl
  rw [← hbehind]
  simp [engineWord, hroom, hgo, hspent, wordIssued, wordDst]

theorem onlyChanges_noteProof (s : State) (t : Fin 64) (ix : Nat) (dst : Nat × Nat) :
    OnlyChanges [.rseq] s (noteProof s t ix dst) :=
  onlyChanges_ite _ (onlyChanges_rseq _ _) (onlyChanges_refl _ _)

/-- R212: a word enqueued changes nothing but its tile's words in flight. -/
theorem issued_enqueue {s v : State} {t : Fin 64} (e : Engine) (w : List Nat) (h : SamePlace t (wordIssued s t w) v) :
    Issued s (enqueue v t ⟨e, (wordDst w).1, (wordDst w).2, behindBlock s t e⟩) t e w := by
  have htile := tileOf_wordIssued s t w
  refine ⟨?_, ?_, ?_, fun y hy => ?_⟩
  · rw [enqueue, tileOf_setTile, h.pc, htile, if_pos rfl]
  · rw [enqueue, tileOf_setTile, h.seq, htile, if_pos rfl]
  · rw [enqueue, tileOf_setTile, List.concat_eq_append, h.flight, htile, if_pos rfl]
    rfl
  · rw [enqueue, tileOf_setTile_ne _ _ hy, h.others y hy, htile, if_neg hy]

/-- R212: what an engine word that issues at once leaves, by what its effect leaves of the state in which it runs. -/
theorem engineWord_issued {s : State} {t : Fin 64} {e : Engine} {w : List Nat} (h : EngineFree s t e w) (p : Plan)
    {effect : State → State} (hplace : SamePlace t (wordIssued s t w) (effect (wordIssued s t w))) :
    Issued s (engineWord s t p e w effect) t e w ∧
      OnlyChanges [.plans, .rseq] (effect (wordIssued s t w)) (engineWord s t p e w effect) := by
  rw [engineWord_free h]
  have hproof := onlyChanges_noteProof (effect (wordIssued s t w)) t (tileOf s t).pc (wordDst w)
  exact ⟨issued_enqueue e w (hplace.trans (.of_only hproof (by decide))),
    onlyChanges_mono (onlyChanges_trans hproof (onlyChanges_setTile _ _ _)) (by decide)⟩

/-! ## Words that write memory (R202, R210, R221) -/

theorem onlyChanges_mem (s : State) (m : List Host.Cell) : OnlyChanges [.mem] s { s with mem := m } := by
  intro p hp
  cases p <;> simp_all [Part.same]

/-- The parts that an engine word that writes memory may change. -/
def writtenParts : List Part := [.mem, .plans, .ctr, .poison, .outer, .rseq]

/-- R197, R212: an engine word that writes memory and lands its flags. -/
theorem engineWord_writes {s : State} {t : Fin 64} {e : Engine} {w : List Nat} (h : EngineFree s t e w) (p : Plan)
    {effect : State → State} {m : List Host.Cell}
    (heffect : ∃ f o, effect (wordIssued s t w) = landTile { wordIssued s t w with mem := m } t f o) :
    let u := engineWord s t p e w effect
    Issued s u t e w ∧ u.mem = m ∧ OnlyChanges writtenParts s u := by
  obtain ⟨f, o, heffect⟩ := heffect
  have hmem := onlyChanges_mem (wordIssued s t w) m
  have hland := onlyChanges_landTile { wordIssued s t w with mem := m } t f o
  obtain ⟨hissued, hrest⟩ := engineWord_issued h p (effect := effect)
    (heffect ▸ (SamePlace.of_only hmem (by decide)).trans (samePlace_landTile _ t f o))
  rw [heffect] at hrest
  have hafter := onlyChanges_trans hland hrest
  exact ⟨hissued, hafter .mem (by decide),
    onlyChanges_mono (onlyChanges_trans (onlyChanges_trans (onlyChanges_wordIssued s t w) hmem) hafter) (by decide)⟩

/-! ## The crystalliser (R210) -/

theorem length_memF32 (m : List Host.Cell) (a n : Nat) : (memF32 m a n).length = n := by simp [memF32]

/-- Flags apart, a function gathered over a list maps the list. -/
theorem gather_map_fst {α : Type} (f : α → Fl Nat) (l : List α) : (gather (l.map f)).1 = l.map (fun x => (f x).1) := by
  simp [gather]

theorem zipFl_fst (f : Nat → Nat → Fl Nat) {x : List Nat} {n : Nat} (h : x.length = n) (y : List Nat) :
    (zipFl f x y).1 = (List.range n).map (fun i => (f (x.getD i 0) (y.getD i 0)).1) :=
  h ▸ gather_map_fst _ _

theorem lincomb_fst (strict : Bool) (a b : Nat) {x : List Nat} {n : Nat} (h : x.length = n) (y : List Nat) :
    (lincomb strict a b x y).1 = (List.range n).map (fun i =>
      (fpAdd strict (fpMul strict a (x.getD i 0)).1 (fpMul strict b (y.getD i 0)).1).1) :=
  h ▸ gather_map_fst _ _

section
variable {s : State} {t : Fin 64} {p : Plan} {st : PlanStep} {w : List Nat}
  (hreach : Reaches s t 0xB p st w) (hfree : EngineFree s t .crys w)
include hreach hfree

/-- R210: a CRYS word whose function gives FP32 values writes them over its destination. -/
theorem crysWord_answers {c : Instr} {fn : Nat} {f : Bool → List Nat → List Nat → List Nat → Fl (List Nat)} {vs : List Nat}
    (hc : exec c s = .next (crysWord s t fn f)) (hfn : wF w 0 55 52 = fn)
    (hvs : (f (bit st.mode 2) w (memF32 s.mem (wF w 2 39 0) (crysN w)) (decodeElems (bit st.mode 2) (wF w 0 51 44) (crysN w)
      (memBytes s.mem (wF w 1 39 0) (encSize (wF w 0 51 44) (crysN w)))).1).1 = vs) :
    Answers c s (fun u => Issued s u t .crys w ∧ u.mem = memPut s.mem (wF w 2 39 0) (fp32Bytes vs) ∧
      OnlyChanges writtenParts s u) := by
  have his : (wOp w == 0xB && wF w 0 55 52 == fn) = true := by rw [hreach.2, hfn]; simp
  have hmem : (wordIssued s t w).mem = s.mem := onlyChanges_wordIssued s t w .mem (by decide)
  exact ⟨_, hc.trans (congrArg Host.Outcome.next (onWord_reaches hreach his _)),
    engineWord_writes hfree p ⟨_, _, by rw [← hvs]; dsimp only; rw [hmem]⟩⟩

/-- R210: CRYS ENCODE writes its source encoded. -/
theorem crysEncode_answers (hfn : wF w 0 55 52 = 6) : Answers (.crysEncode t) s (fun u => Issued s u t .crys w ∧
    u.mem = memPut s.mem (wF w 2 39 0) (encodeElems (bit st.mode 2) (st.mode % 4) ⟨st.seed, 4, gw s, wF w 0 35 30, 0⟩
      (wF w 0 43 36) (memF32 s.mem (wF w 1 39 0) (crysN w))).1 ∧ OnlyChanges writtenParts s u) := by
  have his : (wOp w == 0xB && wF w 0 55 52 == 6) = true := by rw [hreach.2, hfn]; rfl
  have hmem : (wordIssued s t w).mem = s.mem := onlyChanges_wordIssued s t w .mem (by decide)
  have hgw : gw (wordIssued s t w) = gw s := by
    rw [gw, gwNum, onlyChanges_wordIssued s t w .fab (by decide)]
    rfl
  exact ⟨_, congrArg Host.Outcome.next (onWord_reaches hreach his _),
    engineWord_writes hfree p ⟨_, _, by dsimp only; rw [hmem, hgw]⟩⟩

end

/-- Settles O37: each function with an FP32 result by the values that it gives, and ENCODE. -/
theorem crystalliserWords : Obligations.CrystalliserWords := by
  intro s t p st w hreach hfree
  extract_lets n strict src dst writes
  have hlen : dst.length = n := length_memF32 _ _ _
  exact ⟨fun hfn => crysWord_answers hreach hfree rfl hfn (zipFl_fst _ hlen src),
    fun hfn => crysWord_answers hreach hfree rfl hfn rfl,
    fun hfn => crysWord_answers hreach hfree rfl hfn (zipFl_fst _ hlen src),
    fun hfn => crysWord_answers hreach hfree rfl hfn (zipFl_fst _ hlen src),
    fun hfn => crysWord_answers hreach hfree rfl hfn (lincomb_fst strict _ _ hlen src),
    crysEncode_answers hreach hfree,
    fun hfn => crysWord_answers hreach hfree rfl hfn (gather_map_fst _ src)⟩

end Sys2Proof.EngineWords
end

section
/-! PROOFS. Steps of a tile and their records, ramps, the power cap and EXC_STATUS (R198, R212, R213, R215, R218, R229, R231): what the
cells of a step leave of its record, how an attempt begins, what closing a record keeps, and the settlement of O39. -/
namespace Sys2Proof.StepAttempts
open Sys2Proof Sys2Proof.Machine Sys2Proof.Laws Sys2Proof.MgmtFunctions Sys2Proof.RaisedCodes Sys2Proof.Contributions
  Sys2Proof.CommitsAndEpochs Sys2Proof.RecordAnswers Sys2Proof.CrossChecks Sys2Proof.EngineWords

/-! ## What a step's cells leave of its record (R218)

One lemma for each function by which a cell arms, forms its values and sends them, in the order of the model's files: flags join the
open records, and no record opens or closes. Each is a `simp` lemma, by the lemmas of the functions it calls. -/

/-- The step attempts of open gateway records. -/
def attemptsOf (l : List OpenRec) : List (Nat × Nat × Nat) := l.map (fun o => (o.job, o.step, o.replay))

/-- The superframe and the open attempts are the same in two states. -/
@[simp] abbrev KeepsOpen (s t : State) : Prop := t.sf = s.sf ∧ attemptsOf t.plans.opens = attemptsOf s.plans.opens

theorem KeepsOpen.trans {s t u : State} (h : KeepsOpen s t) (g : KeepsOpen t u) : KeepsOpen s u :=
  ⟨g.1.trans h.1, g.2.trans h.2⟩

theorem keepsOpen_of_only {ps : List Part} {s t : State} (h : OnlyChanges ps s t) (hsf : Part.sf ∉ ps) (hp : Part.plans ∉ ps) :
    KeepsOpen s t := ⟨h .sf hsf, by rw [h .plans hp]⟩

@[simp] theorem sf_ite (c : Prop) [Decidable c] (s t : State) : (if c then s else t).sf = if c then s.sf else t.sf :=
  apply_ite State.sf c s t

@[simp] theorem attemptsOf_ite (c : Prop) [Decidable c] (s t : State) :
    attemptsOf (if c then s else t).plans.opens = if c then attemptsOf s.plans.opens else attemptsOf t.plans.opens :=
  apply_ite (fun s : State => attemptsOf s.plans.opens) c s t

@[simp] theorem keepsOpen_foldl {α : Type} {f : State → α → State} (h : ∀ s a, KeepsOpen s (f s a)) (l : List α) (s : State) :
    KeepsOpen s (l.foldl f s) := by
  induction l generalizing s with
  | nil => exact ⟨rfl, rfl⟩
  | cons a l ih => exact (h s a).trans (ih _)

@[simp] theorem keepsOpen_foldl_fst {α β : Type} {f : State × β → α → State × β} (h : ∀ p a, KeepsOpen p.1 (f p a).1)
    (l : List α) (p : State × β) : KeepsOpen p.1 (l.foldl f p).1 := by
  induction l generalizing p with
  | nil => exact ⟨rfl, rfl⟩
  | cons a l ih => exact (h p a).trans (ih _)

@[simp] theorem keepsOpen_setCell (s n x) : KeepsOpen s (setCell s n x) := ⟨rfl, rfl⟩

@[simp] theorem keepsOpen_count (s pg i n) : KeepsOpen s (count s pg i n) :=
  keepsOpen_of_only (onlyChanges_count s pg i n) (by decide) (by decide)

@[simp] theorem keepsOpen_orOpen (s step replay bits) : KeepsOpen s (orOpen s step replay bits) := by
  refine ⟨onlyChanges_orOpen s step replay bits .sf (by decide), ?_⟩
  unfold orOpen
  split
  · rfl
  · simp only [attemptsOf, List.map_map]
    refine List.map_congr_left fun o _ => ?_
    simp only [Function.comp]
    split <;> rfl

@[simp] theorem keepsOpen_landTile (s t f o) : KeepsOpen s (landTile s t f o) := by
  have hset : ∀ x, KeepsOpen s (setTile s t x) := fun _ => ⟨rfl, rfl⟩
  simp [landTile, hset]

@[simp] theorem keepsOpen_landFast (s q f o) : KeepsOpen s (landFast s q f o) := by simp [landFast]

@[simp] theorem keepsOpen_landCell (s cell f c t) : KeepsOpen s (landCell s cell f c t) := by simp [landCell]

@[simp] theorem keepsOpen_raiseCell (s cell code info c) : KeepsOpen s (raiseCell s cell code info c) :=
  keepsOpen_of_only (onlyChanges_raiseSubj s _ code info c _) (by decide) (by decide)

@[simp] theorem keepsOpen_emitRec (s x r) : KeepsOpen s (emitRec s x r) :=
  keepsOpen_of_only (CellTimers.onlyChanges_emitRec s x r) (by decide) (by decide)

@[simp] theorem keepsOpen_storeMem (s a b) : KeepsOpen s (storeMem s a b) :=
  keepsOpen_of_only (onlyChanges_storeMem s a b) (by decide) (by decide)

@[simp] theorem keepsOpen_coll (s : State) (c : Coll) : KeepsOpen s { s with coll := c } := ⟨rfl, rfl⟩

/-! ### Values formed and sent -/

@[simp] theorem keepsOpen_sendKept (s x r) : KeepsOpen s (sendKept s x r) := by simp [sendKept]

@[simp] theorem keepsOpen_sendAll (s x rs) : KeepsOpen s (sendAll s x rs) := by simp [sendAll]

@[simp] theorem keepsOpen_formed (s x c level src e lo n idx vs out) :
    KeepsOpen s (formed s x c level src e lo n idx vs out) := by
  simp [formed]

@[simp] theorem keepsOpen_formChunks (s x c level lo src e vs) : KeepsOpen s (formChunks s x c level lo src e vs).1 := by
  simp [formChunks]

@[simp] theorem keepsOpen_formCopies (s x c level e bs) : KeepsOpen s (formCopies s x c level e bs).1 := by
  simp [formCopies]

@[simp] theorem keepsOpen_formShard (s x c k point t) : KeepsOpen s (formShard s x c k point t).1 := by
  fun_cases formShard <;> simp

@[simp] theorem keepsOpen_sendOrHold (s x k level rs) : KeepsOpen s (sendOrHold s x k level rs) := by simp [sendOrHold]

@[simp] theorem keepsOpen_markSent (s cell k level) : KeepsOpen s (markSent s cell k level) := ⟨rfl, rfl⟩

@[simp] theorem keepsOpen_sendLevel2 (s x c k) : KeepsOpen s (sendLevel2 s x c k) := by simp [sendLevel2]

@[simp] theorem keepsOpen_sendLevel3 (s x c k) : KeepsOpen s (sendLevel3 s x c k) := by simp [sendLevel3]

@[simp] theorem keepsOpen_distribute (s x c k flags src level t chunks owed notOwed) :
    KeepsOpen s (distribute s x c k flags src level t chunks owed notOwed) := by
  simp [distribute]

@[simp] theorem keepsOpen_storeFinal (s cell k src chunks) : KeepsOpen s (storeFinal s cell k src chunks) := ⟨rfl, rfl⟩

@[simp] theorem keepsOpen_formFinal (s x c k) : KeepsOpen s (formFinal s x c k) := by simp [formFinal]

/-! ### Projection (R162 to R165) -/

@[simp] theorem keepsOpen_setProj (s cell p) : KeepsOpen s (setProj s cell p) := ⟨rfl, rfl⟩

@[simp] theorem keepsOpen_setPState (s x p) : KeepsOpen s (setPState s x p) := ⟨rfl, rfl⟩

@[simp] theorem keepsOpen_giveFactor (s x c q src vs) : KeepsOpen s (giveFactor s x c q src vs) := by simp [giveFactor]

@[simp] theorem keepsOpen_sendFactorFinal (s x c flags src vs) : KeepsOpen s (sendFactorFinal s x c flags src vs).1 := by
  simp [sendFactorFinal]

@[simp] theorem keepsOpen_writeState (s x step ef qn) : KeepsOpen s (writeState s x step ef qn) := by simp [writeState]

@[simp] theorem keepsOpen_projResult (s x c p) : KeepsOpen s (projResult s x c p) := by simp [projResult]

@[simp] theorem keepsOpen_projFirst (s x c) : KeepsOpen s (projFirst s x c) := by simp [projFirst]

@[simp] theorem keepsOpen_projSecond (s x c) : KeepsOpen s (projSecond s x c) := by simp [projSecond]

@[simp] theorem keepsOpen_projThird (s x c) : KeepsOpen s (projThird s x c) := by simp [projThird]

@[simp] theorem keepsOpen_projStage (s x c) : KeepsOpen s (projStage s x c) := by
  unfold projStage
  dsimp only
  split <;> simp

/-! ### Progress of a cell (R124 to R126, R148, R243) -/

@[simp] theorem keepsOpen_releaseTrays (s l) : KeepsOpen s (releaseTrays s l) :=
  keepsOpen_of_only (onlyChanges_releaseTrays s l) (by decide) (by decide)

@[simp] theorem keepsOpen_progressShard (s x c k) : KeepsOpen s (progressShard x c s k) := by
  fun_cases progressShard <;> simp

@[simp] theorem keepsOpen_trimTrays (s x) : KeepsOpen s (trimTrays s x) := by simp [trimTrays]

@[simp] theorem keepsOpen_progress (s x c) : KeepsOpen s (progress s x c) := by simp [progress]

@[simp] theorem keepsOpen_storePseudo (s x) : KeepsOpen s (storePseudo s x) := by fun_cases storePseudo <;> simp

@[simp] theorem keepsOpen_tryHarvest (s x c) : KeepsOpen s (tryHarvest s x c) := by simp [tryHarvest]

theorem onlyChanges_holdTray (s : State) (i : TrayId) (r : Nat) (aside : Option Nat) :
    OnlyChanges [.trays] s (holdTray s i r aside) := onlyChanges_trays s _

/-- R166, R384: trays taken from a set-aside. -/
theorem onlyChanges_takeAside (s : State) (slot : Nat) (a : Aside) (t : Fin 64) (q : Fin 4) (m n : Nat) :
    ∀ r ∈ takeAside s slot a t q m n, OnlyChanges [.trays] s r.1 := by
  fun_induction takeAside
  case case1 s => simpa using onlyChanges_refl _ s
  case case2 | case4 => simp
  case case3 s _ _ ih | case5 s _ _ _ ih =>
    intro r hr
    obtain ⟨i, -, hi⟩ := Option.bind_eq_some_iff.1 hr
    obtain ⟨⟨v, l⟩, hv, hl⟩ := Option.bind_eq_some_iff.1 hi
    obtain rfl := Option.some.inj hl
    exact onlyChanges_then (onlyChanges_holdTray s i _ _) (ih i (v, l) hv)

/-- R126, R166: a cell that arms takes its trays and is set. -/
theorem onlyChanges_arm {s t : State} {x : Placed} {c : BitVec 64} (h : arm s x c = some t) :
    OnlyChanges [.trays, .coll] s t := by
  have htrays : ∀ r ∈ armTrays s x, OnlyChanges [.trays] s r.1 := by
    fun_cases armTrays with
    | case3 _ a => exact onlyChanges_takeAside _ _ _ _ _ _ _
    | _ => simpa using onlyChanges_refl _ s
  revert h
  fun_cases arm with
  | case3 _ v l hv =>
    intro h
    obtain rfl := Option.some.inj h
    exact onlyChanges_trans (htrays _ hv) (onlyChanges_setCell _ _ _)
  | _ => simp

@[simp] theorem keepsOpen_armEmpty (i p st replay s d) : KeepsOpen s (armEmpty i p st replay s d) := by
  fun_cases armEmpty with
  | case3 _ _ _ _ t h => simpa using keepsOpen_of_only (onlyChanges_arm h) (by decide) (by decide)
  | _ => simp

/-! ## A step attempt begins (R46, R82, R213, R215) -/

@[simp] theorem keepsOpen_refuseHeld (s f) : KeepsOpen s (refuseHeld s f) :=
  keepsOpen_of_only (onlyChanges_refuseHeld s f) (by decide) (by decide)

@[simp] theorem keepsOpen_releaseImages (s f) : KeepsOpen s (releaseImages s f) := ⟨rfl, rfl⟩

@[simp] theorem keepsOpen_setSlot (s i x) : KeepsOpen s (setSlot s i x) := by simp [setSlot]

theorem attemptsOf_append (l : List OpenRec) (o : OpenRec) : attemptsOf (l ++ [o]) = attemptsOf l ++ [(o.job, o.step, o.replay)] :=
  List.map_append

/-- R218: the gateway's record of an attempt is open once its first tile begins it. -/
theorem gatewayBegins_opens (s : State) (i : Nat) (p : Plan) (st : PlanStep) (replay : Nat) :
    (gatewayBegins s i p st replay).sf = s.sf ∧
      (p.job, st.step, replay) ∈ attemptsOf (gatewayBegins s i p st replay).plans.opens := by
  unfold gatewayBegins
  split
  next hopen =>
    obtain ⟨o, ho, hkey⟩ := List.any_eq_true.1 hopen
    simp only [Bool.and_eq_true, beq_iff_eq] at hkey
    obtain ⟨⟨hjob, hstep⟩, hreplay⟩ := hkey
    exact ⟨rfl, List.mem_map.2 ⟨o, ho, by rw [hjob, hstep, hreplay]⟩⟩
  next =>
    -- the record joins the open ones, and what follows keeps their attempts
    simp [attemptsOf_append]

/-- R213, R215: a tile that may begin the step before it begins it afresh, under the attempt that runs. -/
theorem beginStep_begins {s : State} {t : Fin 64} {i n : Nat} {p : Plan} {st : PlanStep}
    (htodo : (tileOf s t).todo = some (i, n)) (hmay : mayBegin s t = true) (hruns : slotRuns s i = true)
    (hplan : slotPlan s i = some p) (hstep : p.stepOf n = some st) (hwait : outerWaits s p st = false)
    (hstream : st.streams.getD t.val [] ≠ []) :
    let r := replayOf s p.job n
    let v := gatewayBegins { s with plans := { s.plans with replay := mset s.plans.replay (p.job, n) r } } i p st r
    ∃ x, beginStep s t = setPage (setTile v t x) (.tile t) ((pageOf v (.tile t)).apply (r % 256 * 2 ^ 24 + n)) ∧
      x.active = true ∧ x.seq = .issue ∧ x.slot = i ∧ x.step = n ∧ x.replay = r ∧ x.pc = 0 ∧ x.beganSf = v.sf ∧
      x.todo = none ∧ x.flags = 0 ∧ x.flight = [] ∧ x.bufFull = false := by
  intro r v
  have hne : (st.streams.getD t.val []).isEmpty = false := by simpa using hstream
  simp only [beginStep, htodo, hmay, hruns, hplan, hstep, hwait, hne, Bool.not_true, Bool.or_self, Bool.false_eq_true, if_false]
  exact ⟨_, rfl, rfl, rfl, rfl, rfl, rfl, rfl, rfl, rfl, rfl, rfl, rfl⟩

/-- R47: pending values that apply are pending no more. -/
theorem pend_apply (p : Page) (n : Nat) : (p.apply n).pend = [] := by
  unfold Page.apply
  split
  next h => exact List.isEmpty_iff.1 h
  next => rfl

/-- R46, R213, R215: TILE_STEP_BEGIN at a tile that may begin: the tile is fresh, its gateway record open, its pending values applied. -/
theorem tileStepBegin_begins {s : State} {t : Fin 64} {i n : Nat} {p : Plan} {st : PlanStep}
    (htodo : (tileOf s t).todo = some (i, n)) (hmay : mayBegin s t = true) (hruns : slotRuns s i = true)
    (hplan : slotPlan s i = some p) (hstep : p.stepOf n = some st) (hwait : outerWaits s p st = false)
    (hstream : st.streams.getD t.val [] ≠ []) : Answers (.tileStepBegin t) s (fun u =>
      (tileOf u t).active = true ∧ (tileOf u t).seq = .issue ∧ (tileOf u t).slot = i ∧ (tileOf u t).step = n ∧
      (tileOf u t).replay = replayOf s p.job n ∧ (tileOf u t).pc = 0 ∧ (tileOf u t).beganSf = s.sf ∧
      (tileOf u t).todo = none ∧ (tileOf u t).flags = 0 ∧ (tileOf u t).flight = [] ∧ (tileOf u t).bufFull = false ∧
      (∃ o ∈ u.plans.opens, o.job = p.job ∧ o.step = st.step ∧ o.replay = replayOf s p.job n) ∧
      (pageOf u (.tile t)).pend = []) := by
  have hexec : exec (.tileStepBegin t) s = .next (beginStep s t) := by
    change execTileStepBegin t s = _
    simp [execTileStepBegin, htodo, hmay]
  refine ⟨_, hexec, ?_⟩
  obtain ⟨x, hbegin, hactive, hseq, hslot, hn, hreplay, hpc, hbegan, hnone, hflags, hflight, hbuf⟩ :=
    beginStep_begins htodo hmay hruns hplan hstep hwait hstream
  obtain ⟨hsf, hmem⟩ := gatewayBegins_opens { s with plans := { s.plans with
    replay := mset s.plans.replay (p.job, n) (replayOf s p.job n) } } i p st (replayOf s p.job n)
  obtain ⟨o, ho, hkey⟩ := List.mem_map.1 hmem
  obtain ⟨hjob, hostep, horeplay⟩ := by simpa using hkey
  have hx : tileOf (beginStep s t) t = x := by
    rw [hbegin]
    exact mget_mset_same _ _ _ _
  rw [hx]
  refine ⟨hactive, hseq, hslot, hn, hreplay, hpc, hbegan.trans hsf, hnone, hflags, hflight, hbuf, ?_, ?_⟩
  · rw [hbegin]
    exact ⟨o, ho, hjob, hostep, horeplay⟩
  · rw [hbegin, pageOf_setPage, pend_apply]

/-! ## A gateway record closes (R218, R252, R253, R438) -/

/-- What sending after a gateway record closed keeps: the records, the steps committed, memory and the cells. -/
structure KeepsRecords (s t : State) : Prop where
  opens : t.plans.opens = s.plans.opens
  records : t.plans.records = s.plans.records
  committed : t.plans.committed = s.plans.committed
  mem : t.mem = s.mem
  coll : t.coll = s.coll

namespace KeepsRecords
variable {s t u : State}

theorem refl (s : State) : KeepsRecords s s := ⟨rfl, rfl, rfl, rfl, rfl⟩

theorem trans (h : KeepsRecords s t) (g : KeepsRecords t u) : KeepsRecords s u :=
  ⟨g.opens.trans h.opens, g.records.trans h.records, g.committed.trans h.committed, g.mem.trans h.mem, g.coll.trans h.coll⟩

theorem ite {c : Prop} [Decidable c] (h : KeepsRecords s t) (g : KeepsRecords s u) : KeepsRecords s (if c then t else u) := by
  split
  · exact h
  · exact g

theorem foldl {α : Type} {f : State → α → State} (h : ∀ s a, KeepsRecords s (f s a)) (l : List α) (s : State) :
    KeepsRecords s (l.foldl f s) := by
  induction l generalizing s with
  | nil => exact refl s
  | cons a l ih => exact (h s a).trans (ih _)

theorem of_only {ps : List Part} (h : OnlyChanges ps s t) (hp : Part.plans ∉ ps) (hm : Part.mem ∉ ps) (hc : Part.coll ∉ ps) :
    KeepsRecords s t := by
  have hplans : t.plans = s.plans := h .plans hp
  exact ⟨by rw [hplans], by rw [hplans], by rw [hplans], h .mem hm, h .coll hc⟩

end KeepsRecords

theorem keepsRecords_sendMaster (s : State) (m : Msg) : KeepsRecords s (sendMaster s m) :=
  .of_only (onlyChanges_sendMaster s m) (by decide) (by decide) (by decide)

/-- R252: phase 1 sends records. -/
theorem keepsRecords_phase1 (s : State) (job : Nat) : KeepsRecords s (phase1 s job) := by
  have hsend : ∀ (s : State) m qty flags e t base size, KeepsRecords s (replicate s job m qty flags e t base size) :=
    fun s m _ _ _ _ _ _ => .of_only (onlyChanges_replicate s job m _ _ _ _ _ _) (by decide) (by decide) (by decide)
  unfold phase1
  dsimp only
  split
  · exact .refl s
  · exact .foldl (fun s m => (hsend s m _ _ _ _ _ _).trans (hsend _ m _ _ _ _ _ _)) _ s

/-- R253: READY is sent, and noted as sent. -/
theorem keepsRecords_sendReady (s : State) (job e : Nat) : KeepsRecords s (sendReady s job e) :=
  .ite (.refl s) ((KeepsRecords.of_only (onlyChanges_setJob s job _) (by decide) (by decide) (by decide)).trans
    (keepsRecords_sendMaster _ _))

/-- R384, R388: a slot emptied. -/
theorem keepsRecords_clearSlot (s : State) (i : Nat) : KeepsRecords s (clearSlot s i) := by
  have hslot : KeepsRecords s (setSlot s i Slot.empty) := .ite ⟨rfl, rfl, rfl, rfl, rfl⟩ ⟨rfl, rfl, rfl, rfl, rfl⟩
  have htrays : ∀ v l, KeepsRecords v (releaseTrays v l) := fun v l =>
    .of_only (onlyChanges_releaseTrays v l) (by decide) (by decide) (by decide)
  exact (hslot.trans (htrays _ _)).trans ⟨rfl, rfl, rfl, rfl, rfl⟩

/-- R438: a step of a proving plan ends. -/
theorem keepsRecords_closeProof (s : State) (o : OpenRec) (p : Plan) : KeepsRecords s (closeProof s o p) := by
  unfold closeProof
  extract_lets r v s1 q s2 s3
  have hsend : KeepsRecords s s1 := (KeepsRecords.of_only (onlyChanges_rseq s _) (by decide) (by decide) (by decide)).trans
    (keepsRecords_sendMaster _ _)
  have hset : ∀ v t x, KeepsRecords v (setTile v t x) := fun _ _ _ => ⟨rfl, rfl, rfl, rfl, rfl⟩
  have hdone : KeepsRecords s1 s2 := .of_only (onlyChanges_rseq s1 _) (by decide) (by decide) (by decide)
  have htiles : KeepsRecords s2 s3 := .foldl (fun v t => .ite (hset v t _) (.refl v)) _ s2
  exact .ite (((hsend.trans hdone).trans htiles).trans (keepsRecords_clearSlot _ _)) hsend

/-- R218: the record of an attempt that a gateway closes. -/
def closedRec (s : State) (o : OpenRec) : StepRec := ⟨o.step, o.replay, o.flags % 512, o.startSf % 2 ^ 32, s.sf % 2 ^ 32⟩

/-- R218, R252, R253: a record that can close does, and joins the last 64; what follows keeps them. -/
theorem stepRecordClose_closes {s : State} {step : BitVec 24} {o : OpenRec} {p : Plan}
    (hfind : s.plans.opens.find? (fun o => o.step == step.toNat && recordEnded s o) = some o) (hplan : slotPlan s o.slot = some p) :
    Answers (.stepRecordClose step) s (fun u => u.plans.opens = s.plans.opens.erase o ∧
      u.plans.records = (s.plans.records ++ [closedRec s o]).drop ((s.plans.records ++ [closedRec s o]).length - 64) ∧
      u.plans.committed = s.plans.committed ∧ u.mem = s.mem ∧ u.coll = s.coll) := by
  change ∃ u, execStepRecordClose step s = .next u ∧ _
  simp -zeta only [execStepRecordClose, hfind, hplan]
  extract_lets r rs qs q v s1 j s2
  have hnotice : KeepsRecords v s1 := by
    simp only [s1]
    split
    · exact .ite (keepsRecords_sendMaster _ _) (.refl v)
    · exact .refl v
  have hphase : KeepsRecords s1 s2 := .ite (.refl s1) (keepsRecords_phase1 s1 p.job)
  have hready : KeepsRecords s2 (if partners s2 j then s2 else sendReady s2 p.job (j.epoch + 1)) :=
    .ite (.refl s2) (keepsRecords_sendReady _ _ _)
  have hkeep := KeepsRecords.ite (c := v.rseq.compute = some o.slot) (keepsRecords_closeProof v o p)
    (hnotice.trans (.ite (c := j.outer ≠ some (o.step, o.replay)) (.refl s1) (hphase.trans hready)))
  exact ⟨_, rfl, hkeep.opens, hkeep.records, hkeep.committed, hkeep.mem, hkeep.coll⟩

/-- R218: the last record of those kept. -/
theorem kept_records {α : Type} (l : List α) (r : α) : ((l ++ [r]).drop ((l ++ [r]).length - 64)).length ≤ 64 ∧
    ((l ++ [r]).drop ((l ++ [r]).length - 64)).getLast? = some r := by
  rw [List.length_drop, List.getLast?_drop]
  refine ⟨by omega, ?_⟩
  rw [if_neg (by simp), List.getLast?_append]
  simp

/-! ## PWR_CAP_UNMET (R231) -/

theorem pwrCapUnmet_raises {s : State} (hcap : 10 * s.i3c.cap < s.power.module) (hceil : s.power.ceil = 0)
    (hthrottle : s.power.throttle ≤ 25) (hdue : ∀ f, s.power.overSf = some f → f + 125000 ≤ s.sf) :
    exec .pwrCapUnmet s = .next (raise { s with power := { s.power with overSf := some s.sf } } .pwr 0x0805 0) := by
  change execPwrCapUnmet s = _
  cases hover : s.power.overSf with
  | none => simp [execPwrCapUnmet, hover, hcap, hceil, hthrottle]
  | some f => simp [execPwrCapUnmet, hover, hcap, hceil, hthrottle, hdue f hover]

theorem pwrCapUnmet_early {s : State} {f : Nat} (hover : s.power.overSf = some f) (h : s.sf < f + 125000) :
    exec .pwrCapUnmet s = .next s := by
  change execPwrCapUnmet s = _
  simp [execPwrCapUnmet, hover, Nat.not_le.2 h]

/-! ## EXC_CLEAR (R198) -/

/-- R198: EXC_STATUS takes a write of CLEAR, and the flags and the capture are cleared. -/
theorem exec_excClear {s : State} {ag : Agent} {t : Fin 64} (hw : Writable s ag (.tile t)) :
    ∃ u, OnlyChanges [.pages] s u ∧ exec (.excClear ag t) s = .next (clearExc u t 0x80000000) := by
  obtain ⟨u, hfield, hwrote⟩ := writeField_wrote s ag (.tile t) 0x400 0x80000000 _ rfl hw.2 rfl rfl
    (by simp [reg, wo, w1c])
  have hreg : writeReg s ag (.tile t) 0x400 0x80000000 = writeField s ag (.tile t) 0x400 0x80000000 := by simp [writeReg]
  have hpage := pageWrite_accepted s ag (.tile t) 0x400 0x80000000 _ hw.1 hw.2 (by decide) (by decide) rfl hreg (by rw [hfield])
  exact ⟨u, hwrote.1.1, congrArg Host.Outcome.next (hpage.trans (by rw [hfield]; rfl))⟩

theorem excClear_clears {s : State} {ag : Agent} {t : Fin 64} (hw : Writable s ag (.tile t)) :
    Answers (.excClear ag t) s (fun u => OnlyChanges [.plans, .pages] s u ∧ tileOf u t = { tileOf s t with
      excSticky := 0, excCaptured := false, excSeen := [], excStep := 0, excWhere := 0, excKind := 0 } ∧
      ∀ x, x ≠ t → tileOf u x = tileOf s x) := by
  obtain ⟨u, honly, hexec⟩ := exec_excClear hw
  have htile := tileOf_of_onlyChanges honly (by decide)
  refine ⟨_, hexec, onlyChanges_mono (onlyChanges_trans honly (onlyChanges_setTile u t _)) (by decide), ?_, fun x hx => ?_⟩
  · rw [← htile t]
    exact tileOf_setTile u t _
  · rw [← htile x]
    exact tileOf_setTile_ne u _ hx

/-! ## The commands -/

/-- R212: the first word of its engine, behind no block, is in flight no more once it is done. -/
theorem engineWordDone_first {s : State} {t : Fin 64} {i : Nat} {w : InFlight} (hw : (tileOf s t).flight[i]? = some w)
    (hbehind : w.behind = false) (hfirst : ∀ y ∈ (tileOf s t).flight.take i, y.eng ≠ w.eng) :
    exec (.engineWordDone t i) s = .next (setTile s t { tileOf s t with flight := (tileOf s t).flight.eraseIdx i }) := by
  have hany : ((tileOf s t).flight.take i).any (fun y => y.eng == w.eng) = false :=
    List.any_eq_false.2 fun y hy => by simpa using hfirst y hy
  change execEngineWordDone t i s = _
  simp [execEngineWordDone, hw, hbehind, hany]

theorem tileStepBegin_waits {s : State} {t : Fin 64} (hmay : mayBegin s t = false) (hseq : (tileOf s t).seq ≠ .boundary) :
    exec (.tileStepBegin t) s = .next s := by
  change execTileStepBegin t s = _
  simp [execTileStepBegin, hmay, hseq]

theorem planBufferCopyDone_marks {s : State} {t : Fin 64} {p : Plan} {st : PlanStep} (hstep : tileStep s t = some (p, st))
    (hissuing : issuing s t = true) (hnext : hasNext s t p st = true) :
    exec (.planBufferCopyDone t) s = .next (setTile s t { tileOf s t with bufFull := true }) := by
  change execPlanBufferCopyDone t s = _
  simp [execPlanBufferCopyDone, hstep, hissuing, hnext]

theorem rampStart_runs {s : State} {r : Ramp} (h : s.power.queued.find? (fun r => r.start ≤ s.sf) = some r) : exec .rampStart s =
    .next { s with power := { s.power with running := some r, lastRamp := r, queued := s.power.queued.erase r } } := by
  change execRampStart s = _
  simp only [execRampStart, h]

theorem rampStart_waits {s : State} (h : s.power.queued.find? (fun r => r.start ≤ s.sf) = none) :
    exec .rampStart s = .next s := by
  change execRampStart s = _
  simp only [execRampStart, h]

/-- Settles O39, command by command. -/
theorem stepsAndPower : Obligations.StepsAndPower := by
  refine ⟨fun s t i w hw => engineWordDone_first hw,
    fun s t i n p st htodo _ hmay hruns hplan hstep hwait => tileStepBegin_begins htodo hmay hruns hplan hstep hwait,
    fun s t => tileStepBegin_waits, fun s t p st => planBufferCopyDone_marks, fun s step o p hfind hplan => ?_,
    fun s r => rampStart_runs, fun s => rampStart_waits, fun s hcap hceil hthrottle hdue => ?_,
    fun s f => pwrCapUnmet_early, fun s ag t => excClear_clears⟩
  · obtain ⟨u, hexec, hopens, hrecords, hkept⟩ := stepRecordClose_closes hfind hplan
    obtain ⟨hlength, hlast⟩ := kept_records s.plans.records (closedRec s o)
    exact ⟨u, hexec, hopens, hrecords ▸ hlength, hrecords ▸ hlast, hkept⟩
  · have honly := onlyChanges_raise { s with power := { s.power with overSf := some s.sf } } .pwr 0x0805 0
    have hpower := honly .power (by decide)
    refine ⟨_, pwrCapUnmet_raises hcap hceil hthrottle hdue, ?_, seen_raise _ .pwr (by decide) 0, ?_, honly .plans (by decide)⟩
    · exact congrArg Power.overSf hpower
    · exact (congrArg Power.ceil hpower).trans hceil

end Sys2Proof.StepAttempts
end

section
/-! PROOFS. Words of the sequencer (R209, R211 to R216): what a word that issues leaves, what a tile that ends its step keeps, and the
settlement of O35. -/
namespace Sys2Proof.SequencerWords
open Sys2Proof Sys2Proof.Machine Sys2Proof.Laws Sys2Proof.RaisedCodes Sys2Proof.Contributions Sys2Proof.CommitsAndEpochs
  Sys2Proof.Results Sys2Proof.CrossChecks Sys2Proof.EngineWords

/-! ## Tiles that issue and that wait (R475, R476) -/

theorem tileOf_issue (s : State) (t : Fin 64) (w : List Nat) (b : Bool) (y : Fin 64) : tileOf (issue s t w b) y =
    if y = t then { tileOf s t with
      pc := (tileOf s t).pc + w.length, seq := .issue, waitArg := 0,
      startSf := if (tileOf s t).pc = 0 then s.sf else (tileOf s t).startSf }
    else tileOf s y := by
  rw [issue, tileOf_of_onlyChanges (onlyChanges_charge _ _ _ _ _ _ _) (by decide)]
  by_cases h : y = t
  · rw [if_pos h, h, tileOf_setTile]
  · rw [if_neg h, tileOf_setTile_ne _ _ h]

theorem tileOf_issue_ne (s : State) {t y : Fin 64} (w : List Nat) (b : Bool) (h : y ≠ t) : tileOf (issue s t w b) y = tileOf s y := by
  rw [tileOf_issue, if_neg h]

theorem pc_issue (s : State) (t : Fin 64) (w : List Nat) (b : Bool) :
    (tileOf (issue s t w b) t).pc = (tileOf s t).pc + w.length := by
  rw [tileOf_issue, if_pos rfl]

theorem seq_issue (s : State) (t : Fin 64) (w : List Nat) (b : Bool) : (tileOf (issue s t w b) t).seq = .issue := by
  rw [tileOf_issue, if_pos rfl]

/-- R475: a tile that waits is at its word, in its state. -/
theorem stall_waits (s : State) (t : Fin 64) (q : SeqSt) (arg : Nat) (wait : Bool) :
    (tileOf (stall s t q arg wait) t).seq = q ∧ (tileOf (stall s t q arg wait) t).pc = (tileOf s t).pc := by
  have htile : tileOf (stall s t q arg wait) t = _ := tileOf_of_onlyChanges (onlyChanges_charge _ _ _ _ _ _ _) (by decide) t
  rw [htile, tileOf_setTile]
  exact ⟨rfl, rfl⟩

theorem plans_issue (s : State) (t : Fin 64) (w : List Nat) (b : Bool) :
    ∃ x, (issue s t w b).plans = (setTile s t x).plans := ⟨_, onlyChanges_charge _ t _ _ _ _ _ .plans (by decide)⟩

theorem replayOf_issue (s : State) (t : Fin 64) (w : List Nat) (b : Bool) (job step : Nat) :
    replayOf (issue s t w b) job step = replayOf s job step := by
  obtain ⟨x, hplans⟩ := plans_issue s t w b
  rw [replayOf, hplans]
  rfl

theorem slotOf_issue (s : State) (t : Fin 64) (w : List Nat) (b : Bool) (i : Nat) : slotOf (issue s t w b) i = slotOf s i := by
  obtain ⟨x, hplans⟩ := plans_issue s t w b
  rw [slotOf, hplans]
  rfl

/-- R218: flags set at a tile join those of its step, and leave it where it is. -/
theorem tileOf_tileFlag (s : State) (t : Fin 64) (bits : Nat) :
    tileOf (tileFlag s t bits) t = { tileOf s t with flags := (tileOf s t).flags ||| bits } := by
  have hopen : ∀ v step replay, tileOf (orOpen v step replay bits) t = tileOf v t := fun v step replay => by
    unfold orOpen
    split <;> rfl
  rw [tileFlag, hopen, tileOf_setTile]

theorem pageOf_tileFlag (s : State) (t : Fin 64) (bits : Nat) (pg : PageId) : pageOf (tileFlag s t bits) pg = pageOf s pg := by
  have hpages : (tileFlag s t bits).pages = s.pages :=
    onlyChanges_trans (onlyChanges_setTile s t _) (onlyChanges_orOpen _ _ _ bits) .pages (by decide)
  rw [pageOf, pageOf, hpages]

theorem bit_or_two_pow (n k : Nat) : bit (n ||| 2 ^ k) k = true := by
  simp [bit]

/-! ## A step ends (R208, R215, R218) -/

theorem tileStep_issue (s : State) (t : Fin 64) (w : List Nat) (b : Bool) : tileStep (issue s t w b) t = tileStep s t := by
  simp only [tileStep, slotPlan, slotOf_issue, tileOf_issue, if_pos]

theorem sf_issue (s : State) (t : Fin 64) (w : List Nat) (b : Bool) : (issue s t w b).sf = s.sf :=
  onlyChanges_issue s t w b .sf (by decide)

theorem onlyChanges_settlePage (s : State) (pg : PageId) : OnlyChanges [.pages] s (settlePage s pg) :=
  onlyChanges_ite _ (onlyChanges_then (onlyChanges_ite _ (onlyChanges_setPage _ _ _) (onlyChanges_refl _ _))
    (onlyChanges_ite _ (onlyChanges_setPage _ _ _) (onlyChanges_refl _ _))) (onlyChanges_refl _ _)

theorem tileOf_setSlot (s : State) (i : Nat) (x : Slot) (y : Fin 64) : tileOf (setSlot s i x) y = tileOf s y := by
  unfold setSlot
  split <;> rfl

theorem tileOf_stopDone (s : State) (i : Nat) (y : Fin 64) : tileOf (stopDone s i) y = tileOf s y := by
  unfold stopDone
  dsimp only
  split
  · rfl
  · split
    · exact tileOf_setSlot _ _ _ y
    · rfl

theorem tileOf_raiseFor (s : State) (pg : PageId) (code info : Nat) (c : BitVec 64) (y : Fin 64) :
    tileOf (raiseFor s pg code info c) y = tileOf s y :=
  tileOf_of_onlyChanges (onlyChanges_raiseSubj s pg code info c _) (by decide) y

/-- R208: tiles given a next step keep their records. -/
theorem srec_foldl_todo (c : Fin 64 → Bool) (d : Option (Nat × Nat)) (l : List (Fin 64)) (s : State) (y : Fin 64) :
    (tileOf (l.foldl (fun s t => if c t then setTile s t { tileOf s t with todo := d } else s) s) y).srec =
      (tileOf s y).srec := by
  induction l generalizing s with
  | nil => rfl
  | cons t l ih =>
    rw [List.foldl_cons, ih]
    split
    · by_cases hy : y = t
      · rw [hy, tileOf_setTile]
      · rw [tileOf_setTile_ne _ _ hy]
    · rfl

/-- R208: a plan that ends may give a tile its next step, and leaves the tile's record. -/
theorem srec_slotEnded (s : State) (i : Nat) (y : Fin 64) : (tileOf (slotEnded s i) y).srec = (tileOf s y).srec := by
  fun_cases slotEnded with
  | case1 => rfl
  | case2 => rfl
  | case3 => simp +zetaDelta only [tileOf_setSlot]
  | case4 => rw [srec_foldl_todo, tileOf_setSlot, tileOf_setSlot]
  | case5 => rw [raise, tileOf_raiseFor, tileOf_setSlot]

/-- R215, R218: a tile that ends a step keeps its record, and before its plan's last step is to begin the next one. -/
theorem endStep_ends {s : State} {t : Fin 64} {p : Plan} {st : PlanStep} (h : tileStep s t = some (p, st)) :
    (tileOf (endStep s t) t).srec = tileRec (tileOf s t) s.sf ∧
      (st.step ≠ p.last → (tileOf (endStep s t) t).todo = some ((tileOf s t).slot, nextStep st.step)) := by
  simp -zeta only [endStep, h]
  extract_lets x lst nx todo x' s1 f ps s2 sl s3 s4
  have hset : tileOf s2 t = x' := tileOf_setTile s t x'
  have hslot : tileOf s3 t = tileOf s2 t := by
    simp only [s3]
    split
    · exact tileOf_setSlot _ _ _ t
    · rfl
  have hsettle : tileOf s4 t = x' :=
    (tileOf_of_onlyChanges (onlyChanges_settlePage s3 _) (by decide) t).trans (hslot.trans hset)
  rw [tileOf_stopDone]
  refine ⟨?_, fun hlast => ?_⟩
  · have hplan : (tileOf (if lst then planEnded s4 x.slot else s4) t).srec = (tileOf s4 t).srec := by
      split
      · rw [planEnded, srec_slotEnded, srec_slotEnded]
      · rfl
    rw [hplan, hsettle]
  · have hlst : ¬lst := hlast
    rw [if_neg hlst, hsettle]
    exact if_pos (by simpa using hlst)

/-! ## The words -/

section
variable {s : State} {t : Fin 64} {p : Plan} {st : PlanStep} {w : List Nat}

/-- A word of an operation that a tile reaches runs its meaning. -/
theorem word_runs {op : Nat} {c : Instr} {f : Plan → PlanStep → List Nat → State} (h : Reaches s t op p st w)
    (hc : exec c s = .next (onWord s t (fun w => wOp w == op) f)) : exec c s = .next (f p st w) :=
  hc.trans (congrArg Host.Outcome.next (onWord_reaches h (by simp [h.2]) f))

theorem sync_word (h : Reaches s t 2 p st w) : (drained s t = true → exec (.sync t) s = .next (issue s t w false)) ∧
    (drained s t = false → exec (.sync t) s = .next (stall s t .sync 0 false)) := by
  rw [word_runs h rfl]
  refine ⟨fun hd => ?_, fun hd => ?_⟩ <;> simp [hd]

/-- R211, R213: WAIT_LT from its instant on issues; first reached after it, it is late. -/
theorem waitLt_late (h : Reaches s t 3 p st w) {ns : Fin 8000} (hlate : instant s t (wF w 0 48 0) < s.sf * 8000 + ns.val)
    (hseq : (tileOf s t).seq ≠ .waitLt) : exec (.waitLt t ns) s =
      .next (tileFlag (raiseFor (issue s t w false) (.tile t) 0x0801 0 (tileAttempt (issue s t w false) t p)) t 32) := by
  rw [word_runs h rfl]
  simp [Nat.not_lt.2 hlate.le, hlate, hseq]

theorem waitLt_issues (h : Reaches s t 3 p st w) {ns : Fin 8000} (hdue : instant s t (wF w 0 48 0) = s.sf * 8000 + ns.val ∨
    (instant s t (wF w 0 48 0) < s.sf * 8000 + ns.val ∧ (tileOf s t).seq = .waitLt)) :
    exec (.waitLt t ns) s = .next (issue s t w false) := by
  rw [word_runs h rfl]
  obtain hnow | ⟨hlate, hseq⟩ := hdue
  · simp [hnow]
  · simp [Nat.not_lt.2 hlate.le, hseq]

theorem waitLt_waits (h : Reaches s t 3 p st w) {ns : Fin 8000} (hearly : s.sf * 8000 + ns.val < instant s t (wF w 0 48 0)) :
    exec (.waitLt t ns) s = .next (stall s t .waitLt (instant s t (wF w 0 48 0) / 8000 % 2 ^ 32) true) := by
  rw [word_runs h rfl]
  simp only [hearly, if_true]

/-- R213, R216: WAIT_CELL by the instance that its cell names. -/
theorem waitCell_word (h : Reaches s t 4 p st w) {d : Desc} {c : BitVec 64}
    (hd : namedInst s t p (fun d => d.cell == wF w 0 13 0) = some (d, c)) : exec (.waitCell t) s =
      .next (if instFailed s d c then failStep s t p else if condReached s d c (wF w 0 17 14) then issue s t w false
        else stall s t .waitCell d.cell true) := by
  rw [word_runs h rfl]
  simp only [hd]

/-- R216: a step that fails is marked, and its tile waits at the boundary. -/
theorem failStep_fails (s : State) (t : Fin 64) (p : Plan) : (tileOf (failStep s t p) t).failed = true ∧
    (tileOf (failStep s t p) t).seq = .boundary ∧ (tileOf (failStep s t p) t).todo = none ∧
    bit (tileOf (failStep s t p) t).flags 4 = true := by
  have htile : tileOf (failStep s t p) t =
      { tileOf (tileFlag s t 16) t with seq := .boundary, failed := true, waitArg := 0, todo := none } :=
    (tileOf_of_onlyChanges (onlyChanges_charge _ _ _ _ _ _ _) (by decide) t).trans (tileOf_setTile _ t _)
  rw [htile, tileOf_tileFlag]
  exact ⟨rfl, rfl, rfl, bit_or_two_pow _ 4⟩

theorem signal_word (h : Reaches s t 5 p st w) (hd : drained s t = true)
    (hreplay : replayOf s p.job (tileOf s t).step ≤ (tileOf s t).replay) : exec (.signal t) s =
      .next (signalTo (issue s t w false) (tileIx (wF w 0 5 0)) (tileOf s t).step (tileOf s t).replay (wF w 0 10 6)) := by
  rw [word_runs h rfl]
  simp [hd, replayOf_issue, Nat.not_lt.2 hreplay]

/-- R213: a SIGNAL counts at a tile that runs the attempt. -/
theorem signalTo_counts {y : Fin 64} {step replay : Nat} (ctr : Nat) (hactive : (tileOf s y).active = true)
    (hstep : (tileOf s y).step = step) (hreplay : (tileOf s y).replay = replay) (hseq : (tileOf s y).seq ≠ .boundary) :
    signalTo s y step replay ctr = setTile s y { tileOf s y with
      evt := mset (tileOf s y).evt ctr (min 65535 (mget (tileOf s y).evt ctr 0 + 1)) } := by
  simp [signalTo, hactive, hstep, hreplay, hseq]

theorem waitEvt_word (h : Reaches s t 6 p st w) : exec (.waitEvt t) s =
    .next (if wF w 0 20 5 ≤ mget (tileOf s t).evt (wF w 0 4 0) 0 then issue s t w false
      else stall s t .waitEvt (wF w 0 4 0 + wF w 0 20 5 * 65536) true) := by
  rw [word_runs h rfl]

theorem stepEnd_word (h : Reaches s t 1 p st w) (hd : drained s t = true)
    (hnext : hasNext s t p st = false ∨ (tileOf s t).bufFull = true) :
    exec (.stepEnd t) s = .next (endStep (issue s t w false) t) := by
  rw [word_runs h rfl]
  obtain hnext | hfull := hnext
  · simp [hd, hnext]
  · simp [hd, hfull]

/-- The step of the word that a tile reaches is the one that the tile runs. -/
theorem tileStep_reaches {op : Nat} (h : Reaches s t op p st w) : tileStep s t = some (p, st) := by
  obtain ⟨hnext, -⟩ := h
  unfold nextWord at hnext
  split at hnext
  · cases hnext
  · split at hnext
    · cases hnext
    · next q qt hstep =>
      dsimp only at hnext
      split at hnext
      · cases hnext
      · cases hnext
        exact hstep

end

/-- Settles O35, word by word. -/
theorem sequencerWords : Obligations.SequencerWords := by
  intro s t p st w
  refine ⟨⟨pc_issue s t w _, seq_issue s t w _, fun x hx => tileOf_issue_ne s w _ hx, onlyChanges_issue s t w _⟩, sync_word,
    fun h ns => ⟨waitLt_issues h, fun hlate hseq => ⟨_, waitLt_late h hlate hseq, ?_, ?_, ?_⟩,
      fun hearly => ⟨_, waitLt_waits h hearly, stall_waits s t _ _ _⟩⟩,
    fun h d c hd => ?_, fun h hd hreplay => ⟨fun hy hactive hstep hrep hseq => ?_, signal_word h hd hreplay⟩,
    fun h => ?_, fun h hd hnext => ⟨stepEnd_word h hd hnext, ?_⟩⟩
  · rw [tileOf_tileFlag, tileOf_raiseFor]
    exact pc_issue s t w _
  · rw [tileOf_tileFlag]
    exact bit_or_two_pow _ 5
  · rw [pageOf_tileFlag]
    exact seen_raiseFor _ _ (by decide) _ _
  · have hword := waitCell_word h hd
    refine ⟨fun hfail => ⟨_, by rw [hword, if_pos hfail], failStep_fails s t p⟩, fun hfail hreached => ?_,
      fun hfail hreached => ?_⟩
    · simp [hword, hfail, hreached]
    · simp [hword, hfail, hreached]
  · have htile := tileOf_issue_ne s w false hy
    refine ⟨_, signal_word h hd hreplay, ?_⟩
    rw [signalTo_counts _ (by rw [htile, hactive]) (by rw [htile, hstep]) (by rw [htile, hrep]) (by rwa [htile]), htile]
    refine ⟨?_, ?_, onlyChanges_mono (onlyChanges_trans (onlyChanges_issue s t w _) (onlyChanges_setTile _ _ _)) (by decide)⟩
    · rw [tileOf_setTile]
      exact mget_mset_same _ _ _ _
    · rw [tileOf_setTile_ne _ _ hy.symm]
      exact pc_issue s t w _
  · rw [waitEvt_word h]
    exact ⟨fun hv => by rw [if_pos hv], fun hv => by rw [if_neg (Nat.not_le.2 hv)]⟩
  · obtain ⟨hrec, htodo⟩ := endStep_ends ((tileStep_issue s t w false).trans (tileStep_reaches h))
    rw [hrec, sf_issue]
    rw [tileOf_issue, if_pos rfl] at htodo ⊢
    exact ⟨rfl, htodo⟩

end Sys2Proof.SequencerWords
end

section
/-! PROOFS. Words of the kernels (R212, R224 to R228): what a kernel leaves of memory and of the rest, where its output and its scratch
space stand, and the settlement of O38. -/
namespace Sys2Proof.KernelWords
open Sys2Proof Sys2Proof.Machine Sys2Proof.Laws Sys2Proof.Contributions Sys2Proof.CommitsAndEpochs Sys2Proof.Results
  Sys2Proof.CrossChecks Sys2Proof.EngineWords

/-! ## What a kernel leaves -/

/-- The parts that a kernel word may change. -/
def kernelParts : List Part := [.mem, .plans, .ctr, .poison, .outer, .rseq, .pages, .out, .msix, .clk]

/-- R226: the columns that a kernel zeroed raise codes of class 0. -/
theorem onlyChanges_deficient {α : Type} (s : State) (t : Fin 64) (l : List α) (c : State → BitVec 64) :
    OnlyChanges [.pages, .out, .msix, .clk] s (l.foldl (fun s _ => raiseFor s (.tile t) 0x0803 0 (c s)) s) :=
  onlyChanges_foldl (fun s _ => onlyChanges_raiseFor_minor s (.tile t) rfl 0 (c s)) l s

/-- R224: the effect of a kernel word: its results `r`, written over the memory `m` that its scratch space leaves, its flags, and a code
for each column that it zeroed. -/
def kernelEffect (t : Fin 64) (p : Plan) (w : List Nat) (m : State → List Host.Cell) (r : State → Bytes × List Nat × Flg × Nat)
    (s : State) : State :=
  (r s).2.1.foldl (fun s _ => raiseFor s (.tile t) 0x0803 0 (tileAttempt s t p))
    (landTile { s with mem := memPut (m s) (wF w 2 39 0) (r s).1 } t (r s).2.2.1 (opAt s t p (r s).2.2.2))

/-- R212, R224: what a kernel word that issues at once leaves. -/
theorem engineWord_kernel {s : State} {t : Fin 64} {w : List Nat} (h : EngineFree s t .kernel w) (p : Plan)
    (m : State → List Host.Cell) (r : State → Bytes × List Nat × Flg × Nat) :
    let u := engineWord s t p .kernel w (kernelEffect t p w m r)
    let v := wordIssued s t w
    Issued s u t .kernel w ∧ u.mem = memPut (m v) (wF w 2 39 0) (r v).1 ∧ OnlyChanges kernelParts s u := by
  intro u v
  have hmem := onlyChanges_mem v (memPut (m v) (wF w 2 39 0) (r v).1)
  have hland := onlyChanges_landTile { v with mem := memPut (m v) (wF w 2 39 0) (r v).1 } t (r v).2.2.1 (opAt v t p (r v).2.2.2)
  have hraised := onlyChanges_deficient (landTile { v with mem := memPut (m v) (wF w 2 39 0) (r v).1 } t (r v).2.2.1
    (opAt v t p (r v).2.2.2)) t (r v).2.1 (fun s => tileAttempt s t p)
  have hplace := ((SamePlace.of_only (t := t) hmem (by decide)).trans (samePlace_landTile _ t _ _)).trans
    (.of_only hraised (by decide))
  obtain ⟨hissued, hrest⟩ := engineWord_issued h p (effect := kernelEffect t p w m r) hplace
  have hafter := onlyChanges_trans (onlyChanges_trans hland hraised) hrest
  exact ⟨hissued, hafter .mem (by decide),
    onlyChanges_mono (onlyChanges_trans (onlyChanges_trans (onlyChanges_wordIssued s t w) hmem) hafter) (by decide)⟩

section
variable {s : State} {t : Fin 64} {p : Plan} {st : PlanStep} {w : List Nat} (hreach : Reaches s t 0xC p st w) {kd : Nat}
  (hkd : wF w 0 55 52 = kd)
include hreach hkd

theorem kernelWord_waits (hd : drained s t = false) (f : State → Plan → PlanStep → List Nat → Bytes × List Nat × Flg × Nat) :
    kernelWord s t kd f = stall s t .sync 0 false := by
  have his : (wOp w == 0xC && wF w 0 55 52 == kd) = true := by rw [hreach.2, hkd]; simp
  rw [kernelWord, onWord_reaches hreach his, hd]
  exact if_pos rfl

/-- R224: a kernel word writes Z with its result and leaves its scratch space, where it has one, with bytes that the spec does not
give. -/
theorem kernelWord_writes (hd : drained s t = true) (hfree : EngineFree s t .kernel w) {ys : Nat}
    (hspan : (∃ z, (wordSpans w).2 = [(wF w 1 39 0, ys), z]) ∨ ys = 0 ∧ ∃ z, (wordSpans w).2 = [z])
    {f : State → Plan → PlanStep → List Nat → Bytes × List Nat × Flg × Nat} {bs : Bytes} (hbs : (f (wordIssued s t w) p st w).1 = bs) :
    let u := kernelWord s t kd f
    Issued s u t .kernel w ∧
      (∃ scr : Bytes, scr.length = ys ∧ u.mem = memPut (memPut s.mem (wF w 1 39 0) scr) (wF w 2 39 0) bs) ∧
      OnlyChanges kernelParts s u := by
  have his : (wOp w == 0xC && wF w 0 55 52 == kd) = true := by rw [hreach.2, hkd]; simp
  have hmem : (wordIssued s t w).mem = s.mem := onlyChanges_wordIssued s t w .mem (by decide)
  obtain ⟨m, scr, hscr, hm, hword⟩ : ∃ (m : State → List Host.Cell) (scr : Bytes), scr.length = ys ∧
      m (wordIssued s t w) = memPut s.mem (wF w 1 39 0) scr ∧
      kernelWord s t kd f = engineWord s t p .kernel w (kernelEffect t p w m (fun v => f v p st w)) := by
    rw [kernelWord, onWord_reaches hreach his, hd]
    obtain ⟨z, hz⟩ | ⟨rfl, z, hz⟩ := hspan
    · simp only [hz]
      exact ⟨fun v => scratch v (wF w 1 39 0) ys,
        (List.range ys).map fun i => Config.scratchByte (wordIssued s t w).sf (wF w 1 39 0 + i), by simp,
        congrArg (memPut · _ _) hmem, if_neg (by simp)⟩
    · simp only [hz]
      exact ⟨State.mem, [], rfl, hmem, if_neg (by simp)⟩
  obtain ⟨hissued, hu, honly⟩ := engineWord_kernel hfree p m (fun v => f v p st w)
  rw [hword]
  exact ⟨hissued, ⟨scr, hscr, hu.trans (by rw [hm, hbs])⟩, honly⟩

end

/-! ## Where the kernels' scratch space stands, and what they encode (R224) -/

section
variable {w : List Nat} (hop : wOp w = 0xC)
include hop

theorem wordSpans_basis (hkd : wF w 0 55 52 = 1) : ∃ z, (wordSpans w).2 =
    [(wF w 1 39 0, 8 * (16 * wF w 3 41 32) * (16 * wF w 3 41 32)), z] := by
  simp [wordSpans, hop, hkd]

theorem wordSpans_ortho (hkd : wF w 0 55 52 = 2) : ∃ z, (wordSpans w).2 =
    [(wF w 1 39 0, 8 * (16 * wF w 3 41 32) * (16 * wF w 3 41 32)), z] := by
  simp [wordSpans, hop, hkd]

theorem wordSpans_expand (hkd : wF w 0 55 52 = 3) : ∃ z, (wordSpans w).2 = [z] := by
  simp [wordSpans, hop, hkd]

theorem wordSpans_ns5 (hkd : wF w 0 55 52 = 4) : ∃ z, (wordSpans w).2 =
    [(wF w 1 39 0, 12 * min (wF w 3 15 0 + 1) (wF w 3 31 16 + 1) * min (wF w 3 15 0 + 1) (wF w 3 31 16 + 1) +
      8 * min (wF w 3 15 0 + 1) (wF w 3 31 16 + 1) * max (wF w 3 15 0 + 1) (wF w 3 31 16 + 1)), z] := by
  simp [wordSpans, hop, hkd]

end

/-- R224: a kernel encodes as the gateway that it runs at. -/
theorem kernelEncode_wordIssued (s : State) (t : Fin 64) (st : PlanStep) (w : List Nat) (vs : List Nat) :
    kernelEncode (wordIssued s t w) st w vs = kernelEncode s st w vs := by
  have hgw : gw (wordIssued s t w) = gw s := by
    rw [gw, gwNum, onlyChanges_wordIssued s t w .fab (by decide)]
    rfl
  rw [kernelEncode, hgw, kernelEncode]

/-- Settles O38: a kernel whose tile has drained by its scratch space and its result, and every kernel behind engine words. -/
theorem kernelWords : Obligations.KernelWords := by
  intro s t p st w hreach
  extract_lets rows cols r strict z enc writes
  have hmem : (wordIssued s t w).mem = s.mem := onlyChanges_wordIssued s t w .mem (by decide)
  refine ⟨fun hd c hc => ?_, fun hd hfree => ⟨fun hkd => ?_, fun hkd => ?_, fun hkd => ?_, fun hkd => ?_⟩⟩
  · obtain ⟨rfl, hkd⟩ | ⟨rfl, hkd⟩ | ⟨rfl, hkd⟩ | ⟨rfl, hkd⟩ := hc
    all_goals exact congrArg Host.Outcome.next (kernelWord_waits hreach hkd hd _)
  · exact ⟨_, rfl, kernelWord_writes hreach hkd hd hfree (.inl (wordSpans_basis hreach.2 hkd)) rfl⟩
  · refine ⟨_, rfl, kernelWord_writes hreach hkd hd hfree (.inl (wordSpans_ortho hreach.2 hkd)) ?_⟩
    dsimp only
    rw [kernelEncode_wordIssued, hmem]
    rfl
  · refine ⟨_, rfl, kernelWord_writes hreach hkd hd hfree (.inr ⟨rfl, wordSpans_expand hreach.2 hkd⟩) ?_⟩
    dsimp only
    rw [hmem]
  · refine ⟨_, rfl, kernelWord_writes hreach hkd hd hfree (.inl (wordSpans_ns5 hreach.2 hkd)) ?_⟩
    dsimp only
    rw [kernelEncode_wordIssued, hmem]
    rfl

end Sys2Proof.KernelWords
end

section
/-! PROOFS. Pulses, timing inputs and timed launches (R214, R410 to R415): the edges of a pulse, the queue of a timing input, a launch
that fires in time or late, and the settlement of O55. -/
namespace Sys2Proof.PulsesAndLaunches
open Sys2Proof Sys2Proof.Machine Sys2Proof.Laws Sys2Proof.RegisterWrites Sys2Proof.RaisedCodes Sys2Proof.Contributions
  Sys2Proof.CommitsAndEpochs Sys2Proof.Results Sys2Proof.CrossChecks

theorem onlyChanges_tio (s : State) (x : Tio) : OnlyChanges [.tio] s { s with tio := x } := by
  intro p hp
  cases p <;> simp_all [Part.same]

theorem onlyChanges_late (s : State) (x : PMap (Fin 4) Nat) : OnlyChanges [.late] s { s with late := x } := by
  intro p hp
  cases p <;> simp_all [Part.same]

theorem onlyChanges_lineSend (s : State) (l : LinkId) (vc : Nat) (u : LUnit) : OnlyChanges [.lineTx] s (lineSend s l vc u) := by
  intro p hp
  cases p <;> simp_all [Part.same, lineSend]

/-! ## Pulses (R410) -/

section
variable {s : State} {o : Fin 16}

/-- The registers of timing that a leading edge leaves, at an instant. -/
def ledTio (s : State) (o : Fin 16) (a : Int) : Tio :=
  let pol := plsF s o 0x44 2 2 == 1
  { s.tio with
    level := mset s.tio.level o pol
    ends := mset s.tio.ends o (a + plsF s o 0x58 31 0, !pol)
    fired := if plsF s o 0x44 1 1 == 1 then s.tio.fired else o :: s.tio.fired }

/-- R410: the leading edge of a pulse of an enabled output that starts at a line time. -/
theorem pulseEdge_leads {k a : Nat} (hfree : s.lt.st ≠ .free) (hen : plsF s o 0x44 0 0 = 1) (hbase : plsF s o 0x44 3 3 = 0)
    (hk : plsF s o 0x44 1 1 = 1 ∨ k = 0) (hfired : o ∉ s.tio.fired)
    (ha : a = (plsF s o 0x4C 31 0 * 2 ^ 32 + plsF s o 0x48 31 0) * 8000 + plsF s o 0x50 31 0 + k * plsF s o 0x54 31 0)
    (hsf : a / 8000 = s.sf) (hsince : mget s.tio.since o 0 * 8000 + 1000 ≤ a) :
    exec (.pulseEdge o k true) s =
      .next (emit { s with tio := ledTio s o a } (.pulse o (plsF s o 0x44 2 2 == 1) s.sf (a % 8000))) := by
  have hstart : pulseStart s o =
      some (((plsF s o 0x4C 31 0 * 2 ^ 32 + plsF s o 0x48 31 0) * 8000 + plsF s o 0x50 31 0 : Nat) : Int) := by
    simp [pulseStart, hbase]
  have hat : (((plsF s o 0x4C 31 0 * 2 ^ 32 + plsF s o 0x48 31 0) * 8000 + plsF s o 0x50 31 0 : Nat) : Int) +
      k * plsF s o 0x54 31 0 = a := by
    rw [ha]
    push_cast
    ring
  have hruns : (decide (plsF s o 0x44 0 0 = 0) || (!(plsF s o 0x44 1 1 == 1) && decide (k ≠ 0))) = false := by
    obtain hper | hk := hk
    · simp [hen, hper]
    · simp [hen, hk]
  have hfalls : (decide ((a : Int) / 8000 ≠ s.sf) || decide ((a : Int) < mget s.tio.since o 0 * 8000 + 1000) ||
      s.tio.fired.contains o) = false := by
    have hin : (a : Int) / 8000 = s.sf := by exact_mod_cast hsf
    simp [hin, hfired]
    exact_mod_cast hsince
  have hmod : ((a : Int) % 8000).toNat = a % 8000 := by omega
  change execPulseEdge o k true s = _
  simp only [execPulseEdge, if_neg hfree, pulseLead, hruns, hstart, hat, hfalls, hmod]
  rfl

/-- R410: the trailing edge of the pulse in progress. -/
theorem pulseEdge_trails {k e : Nat} {lv : Bool} (hfree : s.lt.st ≠ .free) (hend : mget? s.tio.ends o = some ((e : Int), lv))
    (hsf : e / 8000 = s.sf) : exec (.pulseEdge o k false) s =
      .next (emit { s with tio := { s.tio with level := mset s.tio.level o lv, ends := mdel s.tio.ends o } }
        (.pulse o lv s.sf (e % 8000))) := by
  have hin : (e : Int) / 8000 = s.sf := by exact_mod_cast hsf
  have hmod : ((e : Int) % 8000).toNat = e % 8000 := by omega
  change execPulseEdge o k false s = _
  simp [execPulseEdge, hfree, pulseTrail, hend, hin, hmod]

theorem pulseEdge_disabled {k : Nat} (hen : plsF s o 0x44 0 0 = 0) : exec (.pulseEdge o k true) s = .next s := by
  change execPulseEdge o k true s = _
  simp [execPulseEdge, pulseLead, hen]

theorem onlyChanges_edge (s : State) (x : Tio) (e : Emission) : OnlyChanges [.tio, .out] s (emit { s with tio := x } e) :=
  onlyChanges_trans (onlyChanges_tio s x) (onlyChanges_emit _ e)

end

/-! ## Timing inputs (R411, R414) -/

theorem evtOf_setEvt (s : State) (i : Fin 4) (x : Tsq) : evtOf (setEvt s i x) i = x := mget_mset_same _ _ _ _

theorem evtOf_setEvt_ne (s : State) {i j : Fin 4} (x : Tsq) (h : j ≠ i) : evtOf (setEvt s i x) j = evtOf s j :=
  mget_mset_ne _ _ _ h

theorem onlyChanges_setEvt (s : State) (i : Fin 4) (x : Tsq) : OnlyChanges [.tio] s (setEvt s i x) := onlyChanges_tio s _

theorem evtOf_of_onlyChanges {ps : List Part} {s t : State} (h : OnlyChanges ps s t) (hp : Part.tio ∉ ps) (i : Fin 4) :
    evtOf t i = evtOf s i := congrArg (fun x : Tio => mget x.evts i ⟨[], false⟩) (h .tio hp)

/-- R411: whether a timing input is disabled, or selects the other edge alone. -/
def ignores (s : State) (i : Fin 4) (rise : Bool) : Bool :=
  let edge := fldB s .tio 0x64 i.val 2 1
  fldB s .tio 0x64 i.val 0 0 = 0 || (edge = 0 && !rise) || (edge = 1 && rise)

theorem ignores_iff (s : State) (i : Fin 4) (rise : Bool) : ignores s i rise = true ↔
    fldB s .tio 0x64 i.val 0 0 = 0 ∨ (fldB s .tio 0x64 i.val 2 1 = 0 ∧ rise = false) ∨
      (fldB s .tio 0x64 i.val 2 1 = 1 ∧ rise = true) := by
  simp [ignores, or_assoc]

section
variable {s : State} {i : Fin 4} {rise : Bool} {ofs : Fin 128000}

theorem timingInputEdge_ignored (h : ignores s i rise = true) : exec (.timingInputEdge i rise ofs) s = .next s :=
  congrArg Host.Outcome.next (if_pos h)

/-- R411: an edge that an input selects enters its queue with its line time, and whether that runs free. -/
theorem timingInputEdge_queued (h : ignores s i rise = false) (hroom : (evtOf s i).ents.length < 16) :
    exec (.timingInputEdge i rise ofs) s = .next (setEvt s i { evtOf s i with
      ents := (evtOf s i).ents ++ [⟨b2n rise + 2 * b2n (s.lt.st == .free), s.sf, ofs.val⟩] }) := by
  have hfull : ¬(evtOf s i).ents.length ≥ 16 := by omega
  rw [← List.concat_eq_append]
  exact congrArg Host.Outcome.next ((if_neg (Bool.eq_false_iff.1 h)).trans (if_neg hfull))

/-- R411: an edge that finds the queue full is discarded. -/
theorem timingInputEdge_discarded (h : ignores s i rise = false) (hfull : 16 ≤ (evtOf s i).ents.length) :
    exec (.timingInputEdge i rise ofs) s = .next (raise (setEvt s i { evtOf s i with ovf := true }) .tio 0x2F02 i.val) :=
  congrArg Host.Outcome.next ((if_neg (Bool.eq_false_iff.1 h)).trans (if_pos hfull))

theorem edge_id (rise : Bool) (s : State) : b2n rise + 2 * b2n (s.lt.st == .free) =
    (if rise then 1 else 0) + (if s.lt.st = .free then 2 else 0) := by
  cases rise <;> by_cases hfree : s.lt.st = .free <;> simp [b2n, hfree]

end

/-! ## Writes of registers without I-class fields (R14, R47, R48) -/

/-- R47, R48: a write of values in range to a register without I-class fields changes that page alone, and there the values of that
register alone; at an idle block pending values apply. -/
theorem writeField_accepted {s : State} {ag : Agent} {pg : PageId} {off v : Nat} {d : RegDef} (hd : regDef? pg off = some d)
    (hag : mayWriteAll ag pg = true) (hr : rangesOk d v = true)
    (hx : extraRefusal s pg off (bankOf (pageOf s pg) pg d) v = 0) (hc : ∀ f ∈ d.flds, f.cls ≠ .idle) :
    ∃ p : Page, writeField s ag pg off v = (applyIfIdle (setPage s pg p) pg, 0) ∧ ∀ o b, o ≠ off →
      regActive p pg o b = regActive (pageOf s pg) pg o b ∧ regAccepted p pg o b = regAccepted (pageOf s pg) pg o b := by
  have hidle : ∀ g : Fld → Bool, d.flds.any (fun f => f.cls == .idle && g f) = false := fun g =>
    List.any_eq_false.2 fun f hf => by simp [hc f hf]
  have hrange : d.flds.any (fun f => f.acc == .rw && !inRange f.rng (fld v f.hi f.lo)) = false := by
    simpa [rangesOk] using hr
  simp only [writeField, hd, hag, hx, hrange, hidle]
  simp only [Bool.not_true, Bool.and_false, Bool.false_and, Bool.false_or, Bool.false_eq_true, if_false,
    show ((0 : Nat) = 0x2008) = False by simp, decide_false, ne_eq, not_true]
  refine ⟨_, rfl, fun o b ho => ?_⟩
  have hkey : (o, b) ≠ (off, bankOf (pageOf s pg) pg d) := fun h => ho (Prod.ext_iff.1 h).1
  split
  all_goals exact ⟨by simp only [regActive, mget?_mset_ne _ _ hkey], by simp only [regAccepted, regActive, mget?_mset_ne _ _ hkey]⟩

/-- R47: a value that is active and accepted stays active when pending values apply at an idle block. -/
theorem regActive_applyIfIdle {s : State} {pg : PageId} {f : Word → Nat} {o b n : Nat} (hact : f (regActive (pageOf s pg) pg o b) = n)
    (hacc : f (regAccepted (pageOf s pg) pg o b) = n) : f (regActive (pageOf (applyIfIdle s pg) pg) pg o b) = n := by
  unfold applyIfIdle
  split
  · rwa [pageOf_setPage, regActive_of_pend_nil (pend_apply _ _), regAccepted_apply]
  · exact hact

/-! ## EVT_POP (R414) -/

section
variable {s : State} {i : Fin 4}

theorem regDef?_evtCfg : regDef? .tio 0x64 =
    some (regB 0x64 (0x60, 1, 0) [rwE 0 0 0, rwE 2 1 0 (.within 0 2), w1c 13 13, wo 31 31]) := rfl

/-- R12, R414: EVT_CFG written back as its RW fields read, with POP alone beside them. -/
theorem rmw_evtCfg (hsel : fld (regAccepted (pageOf s .tio) .tio 0x60 0).toNat 1 0 = i.val)
    (hedge : fld (regAccepted (pageOf s .tio) .tio 0x64 i.val).toNat 2 1 ≤ 2) :
    let v := rmw s .tio 0x64 0x80000000
    fld v 2 1 ≤ 2 ∧ bit v 13 = false ∧ bit v 31 = true := by
  have hen : fld (regAccepted (pageOf s .tio) .tio 0x64 i.val).toNat 0 0 < 2 := fld_lt _ 0 0
  have hword : rmw s .tio 0x64 0x80000000 = (fld (regAccepted (pageOf s .tio) .tio 0x64 i.val).toNat 0 0 |||
      fld (regAccepted (pageOf s .tio) .tio 0x64 i.val).toNat 2 1 <<< 1) ||| 0x80000000 := by
    simp [rmw, rwPart, regDef?_evtCfg, regB, bankOf, hsel, rwE, w1c, wo]
  rw [hword]
  generalize fld (regAccepted (pageOf s .tio) .tio 0x64 i.val).toNat 0 0 = en at hen
  generalize fld (regAccepted (pageOf s .tio) .tio 0x64 i.val).toNat 2 1 = edge at hedge
  interval_cases en
  all_goals
    interval_cases edge
    all_goals decide

/-- R414: POP removes the oldest entry of the input selected, and changes no other. -/
theorem evtPop_pops {ag : Agent} (hw : Writable s ag .tio) (hact : fldV s .tio 0x60 1 0 = i.val)
    (hsel : fld (regAccepted (pageOf s .tio) .tio 0x60 0).toNat 1 0 = i.val)
    (hedge : fld (regAccepted (pageOf s .tio) .tio 0x64 i.val).toNat 2 1 ≤ 2) :
    ∃ u, OnlyChanges [.pages] s u ∧ exec (.evtPop ag) s = .next (evtPop u i) := by
  obtain ⟨hrange, hovf, hpop⟩ := rmw_evtCfg hsel hedge
  set v := rmw s .tio 0x64 0x80000000
  obtain ⟨p, hfield, hkeeps⟩ := writeField_accepted (v := v) regDef?_evtCfg hw.2
    (by simp [rangesOk, regB, rwE, w1c, wo, inRange, hrange]) rfl (by simp [regB, rwE, w1c, wo])
  have hreg : writeReg s ag .tio 0x64 v = writeField s ag .tio 0x64 v := by simp [writeReg]
  have hpage := pageWrite_accepted s ag .tio 0x64 v _ hw.1 hw.2 (by decide) (by decide) regDef?_evtCfg hreg (by rw [hfield])
  rw [hfield] at hpage
  have hsel' : fldV (applyIfIdle (setPage s .tio p) .tio) .tio 0x60 1 0 = i.val := by
    obtain ⟨hactive, haccepted⟩ := hkeeps 0x60 0 (by decide)
    refine regActive_applyIfIdle (f := fun w => fld w.toNat 1 0) ?_ ?_
    · rw [pageOf_setPage, hactive]
      exact hact
    · rw [pageOf_setPage, haccepted]
      exact hsel
  have hfin : fin4 i.val = i := Fin.ext (Nat.mod_eq_of_lt i.isLt)
  refine ⟨_, (onlyPage_trans (setPage_onlyPage s .tio p) (applyIfIdle_onlyPage _ _)).1, congrArg Host.Outcome.next (hpage.trans ?_)⟩
  simp only [afterWrite, hsel', hfin, hovf, hpop]
  rfl

end

/-! ## MAX_LATE (R415) -/

theorem maxLateClr_clears {s : State} {ag : Agent} {q : Fin 4} (hw : Writable s ag (.launch q)) :
    ∃ u, OnlyChanges [.pages] s u ∧ exec (.maxLateClr ag q) s = .next { u with late := mset u.late q 0 } := by
  obtain ⟨u, hfield, hwrote⟩ := writeField_wrote s ag (.launch q) 0x54 0x80000000 _ rfl hw.2 rfl rfl (by simp [reg, wo])
  have hreg : writeReg s ag (.launch q) 0x54 0x80000000 = writeField s ag (.launch q) 0x54 0x80000000 := by simp [writeReg]
  have hpage := pageWrite_accepted s ag (.launch q) 0x54 0x80000000 _ hw.1 hw.2 (by decide) (by decide) rfl hreg (by rw [hfield])
  exact ⟨u, hwrote.1.1, congrArg Host.Outcome.next (hpage.trans (by rw [hfield]; rfl))⟩

/-! ## Launches that fire (R214, R412) -/

/-- R214: the state in which a launch's record leaves: the launch pends no more, and its record is no longer ready. -/
def unpended (s : State) (n : Nat) (l : Launch) : State :=
  let cl := cellOf s l.cell
  let u := setCell s l.cell { cl with ready := mdel cl.ready (l.shard, l.level) }
  { u with plans := { u.plans with launches := u.plans.launches.eraseIdx n } }

/-- R412: a launch of one record fired and counted. -/
def launched (s : State) (n : Nat) (l : Launch) (x : Placed) (r : Record) : State :=
  count (launchRec l (unpended s n l) x r) (.launch l.quad) 0 1

/-- R412: a launch that fires past its bound is counted, and its lateness kept where it is the largest. -/
def launchedLate (s : State) (n : Nat) (l : Launch) (x : Placed) (r : Record) (late : Nat) : State :=
  let u := count (launched s n l x r) (.launch l.quad) 1 1
  { u with late := mset u.late l.quad (max (mget u.late l.quad 0) late) }

section
variable {s : State} {n : Nat} {ns : Fin 8000} {l : Launch} {x : Placed} {r : Record} (hl : s.plans.launches[n]? = some l)
  (hx : findInst s l.ciid = some x)
include hl hx

theorem launchFire_stays (h : s.sf * 8000 + ns.val < l.sf * 8000 + l.slot * 125 ∨ isErr (cellOf s l.cell).st = true) :
    exec (.launchFire n ns) s = .next s := by
  change execLaunchFire n ns s = _
  simp only [execLaunchFire, hl, hx]
  obtain hearly | herr := h
  · simp [hearly]
  · simp [herr]

variable (hc : (cellOf s l.cell).ciid = l.ciid) (hr : mget (cellOf s l.cell).ready (l.shard, l.level) [] = [r])
  (hfree : s.lt.st ≠ .free) (herr : isErr (cellOf s l.cell).st = false)
  (hdue : l.sf * 8000 + l.slot * 125 ≤ s.sf * 8000 + ns.val) (hlate : l.late = false)
include hc hr hfree herr hdue hlate

theorem launchFire_word : exec (.launchFire n ns) s =
    .next (if s.sf * 8000 + ns.val > l.sf * 8000 + l.slot * 125 + (if l.line then 400 else 100) then
      launchLate (launchedLate s n l x r (min (s.sf * 8000 + ns.val - (l.sf * 8000 + l.slot * 125)) 0x7FFFFFFF)) l
      else launched s n l x r) := by
  change execLaunchFire n ns s = _
  have hgo : (decide ((cellOf s l.cell).ciid ≠ l.ciid) || [r].isEmpty ||
      decide (s.sf * 8000 + ns.val < l.sf * 8000 + l.slot * 125) || decide (s.lt.st = .free)) = false := by
    simp [hc, hfree, Nat.not_lt.2 hdue]
  simp only [execLaunchFire, hl, hx, herr, hr, hgo, hlate, Bool.false_eq_true, if_false, Bool.not_false, Bool.and_true,
    Bool.not_eq_true', decide_eq_false_iff_not, ite_not, List.foldl_cons, List.foldl_nil]
  rfl

end

/-! ### What a record that leaves changes -/

theorem onlyChanges_unpended (s : State) (n : Nat) (l : Launch) : OnlyChanges [.coll, .plans] s (unpended s n l) := by
  intro p hp
  cases p <;> simp_all [Part.same, unpended, setCell]

theorem onlyChanges_launchRec (l : Launch) (s : State) (x : Placed) (r : Record) :
    OnlyChanges [.lineTx, .out, .coll] s (launchRec l s x r) := by
  unfold launchRec
  extract_lets dst wire u cl
  have hsent : OnlyChanges [.lineTx, .out] s u := by
    refine onlyChanges_ite _ ?_ (onlyChanges_mono (onlyChanges_emit _ _) (by decide))
    split
    · exact onlyChanges_mono (onlyChanges_lineSend _ _ _ _) (by decide)
    · exact onlyChanges_refl _ _
  exact onlyChanges_trans hsent (onlyChanges_setCell _ _ _)

theorem onlyChanges_launched (s : State) (n : Nat) (l : Launch) (x : Placed) (r : Record) :
    OnlyChanges [.plans, .coll, .ctr, .lineTx, .out] s (launched s n l x r) :=
  onlyChanges_mono (onlyChanges_trans (onlyChanges_trans (onlyChanges_unpended s n l) (onlyChanges_launchRec l _ x r))
    (onlyChanges_count _ _ _ _)) (by decide)

theorem launches_launched (s : State) (n : Nat) (l : Launch) (x : Placed) (r : Record) :
    (launched s n l x r).plans.launches = s.plans.launches.eraseIdx n := by
  have hcount : (launched s n l x r).plans = (launchRec l (unpended s n l) x r).plans :=
    onlyChanges_count _ _ _ _ .plans (by decide)
  have hrec : (launchRec l (unpended s n l) x r).plans = (unpended s n l).plans :=
    onlyChanges_launchRec l _ x r .plans (by decide)
  rw [hcount, hrec]
  rfl

/-- R214: a record that left is no longer ready in its cell. -/
theorem ready_launched (s : State) (n : Nat) (l : Launch) (x : Placed) (r : Record) :
    mget? (cellOf (launched s n l x r) l.cell).ready (l.shard, l.level) = none := by
  have hset : ∀ (u : State) (k : Nat) ks, (cellOf (setCell u k { cellOf u k with kept := ks }) l.cell).ready =
      (cellOf u l.cell).ready := fun u k ks => by
    by_cases hk : l.cell = k
    · rw [hk, cellOf_setCell]
    · rw [cellOf_setCell_ne _ _ hk]
  have hsent : (cellOf (launchRec l (unpended s n l) x r) l.cell).ready = (cellOf (unpended s n l) l.cell).ready := by
    unfold launchRec
    extract_lets dst wire u cl
    have hcoll : u.coll = (unpended s n l).coll := by
      simp only [u]
      split
      · split <;> rfl
      · rfl
    rw [hset, cellOf, hcoll, cellOf]
  have hready : (cellOf (unpended s n l) l.cell).ready = mdel (cellOf s l.cell).ready (l.shard, l.level) :=
    congrArg Cell.ready (cellOf_setCell s l.cell _)
  rw [launched, cellOf_of_onlyChanges (onlyChanges_count _ _ _ _) (by decide), hsent, hready]
  exact mget?_mdel_same _ _

/-- R412: a fabric queue's record leaves on its port, in its class. -/
theorem launched_fabric {l : Launch} (hline : l.line = false) (s : State) (n : Nat) (x : Placed) (r : Record) :
    (launched s n l x r).out = s.out ++ [.fabric (tqPort s l.quad l.index)
      ⟨if x.desc.fast then .site else .peer, .rcd r.hdr.dstGw.toNat (x.desc.peer r.hdr.dstGw.toNat / 2048 % 4) (peerPort s) r,
        wireSize true true (64 + r.payload.length), s.sf⟩] ∧ (launched s n l x r).lineTx = s.lineTx := by
  have hcount := onlyChanges_count (launchRec l (unpended s n l) x r) (.launch l.quad) 0 1
  rw [launched, hcount .out (by decide), hcount .lineTx (by decide)]
  simp only [launchRec, hline, Bool.false_eq_true, if_false]
  exact ⟨rfl, rfl⟩

/-- R412: a line launcher's record enters the launcher's link, ahead of other traffic. -/
theorem launched_line {l : Launch} (hline : l.line = true) (s : State) (n : Nat) (x : Placed) (r : Record) :
    (launched s n l x r).out = s.out ∧ ∀ k, linkTo s l.quad r.hdr.dstGw.toNat = some k →
      mget (launched s n l x r).lineTx (k, if x.desc.fast then 9 else 10) [] =
        mget s.lineTx (k, if x.desc.fast then 9 else 10) [] ++ [.rcd r] := by
  have hcount := onlyChanges_count (launchRec l (unpended s n l) x r) (.launch l.quad) 0 1
  have hlink : linkTo (unpended s n l) l.quad r.hdr.dstGw.toNat = linkTo s l.quad r.hdr.dstGw.toNat := rfl
  rw [launched, hcount .out (by decide), hcount .lineTx (by decide)]
  simp only [launchRec, hline, if_true, hlink]
  refine ⟨?_, fun k hk => ?_⟩
  · split <;> rfl
  · simp only [hk]
    exact mget_mset_same _ _ _ _

/-! ### Launches past their bound -/

/-- R214, R218: LAUNCH_LATE is seen at the tile of the LAUNCH word; the launches pending and MAX_LATE stay. -/
theorem launchLate_raises (s : State) (l : Launch) : (launchLate s l).plans.launches = s.plans.launches ∧
    (launchLate s l).late = s.late ∧
    (pageOf (launchLate s l) (.tile ⟨l.tile % 64, by omega⟩)).classSeen.getLsbD 0 = true := by
  unfold launchLate
  extract_lets t x st rp u
  have hraised : OnlyChanges raisedParts s u := onlyChanges_raiseSubj s _ _ _ _ _
  have hseen : (pageOf u (.tile t)).classSeen.getLsbD 0 = true := seen_raiseFor s (.tile t) (by decide) 0 _
  have hopen : ∀ v step rep, (orOpen v step rep 64).plans.launches = v.plans.launches := fun v step rep => by
    unfold orOpen
    split <;> rfl
  have hkeeps : ∀ v, OnlyChanges [.plans] u v → v.plans.launches = u.plans.launches → v.plans.launches = s.plans.launches ∧
      v.late = s.late ∧ (pageOf v (.tile t)).classSeen.getLsbD 0 = true := fun v honly hlaunches =>
    ⟨hlaunches.trans (congrArg Plans.launches (hraised .plans (by decide))),
      (honly .late (by decide)).trans (hraised .late (by decide)), by
        have hpages : v.pages = u.pages := honly .pages (by decide)
        rwa [pageOf, hpages]⟩
  split
  · exact hkeeps _ (onlyChanges_then (onlyChanges_setTile _ _ _) (onlyChanges_orOpen _ _ _ _)) (hopen _ _ _)
  · exact hkeeps _ (onlyChanges_orOpen _ _ _ _) (hopen _ _ _)

theorem launchedLate_keeps (s : State) (n : Nat) (l : Launch) (x : Placed) (r : Record) (late : Nat) :
    (launchedLate s n l x r late).plans.launches = s.plans.launches.eraseIdx n ∧
    mget (launchedLate s n l x r late).late l.quad 0 = max (mget s.late l.quad 0) late := by
  have hcount := onlyChanges_count (launched s n l x r) (.launch l.quad) 1 1
  refine ⟨?_, ?_⟩
  · have hplans : (count (launched s n l x r) (.launch l.quad) 1 1).plans = (launched s n l x r).plans := hcount .plans (by decide)
    simp only [launchedLate, hplans, launches_launched]
  · have hlate : (count (launched s n l x r) (.launch l.quad) 1 1).late = s.late :=
      (hcount .late (by decide)).trans (onlyChanges_launched s n l x r .late (by decide))
    simp only [launchedLate, hlate, mget_mset_same]

/-- Settles O55: pulses by their edges, timing inputs by what they select, launches by when they fire. -/
theorem pulsesAndLaunches : Obligations.PulsesAndLaunches := by
  refine ⟨fun s o k hfree => ⟨fun hen hbase hk hfired => ?_, fun e lv hend hsf => ?_, pulseEdge_disabled⟩, fun s i rise ofs => ?_,
    fun s ag i hw hact hsel hedge => ?_, fun s ag q hw => ?_, fun s n ns l x r hl hx hc hr hfree => ?_⟩
  · intro a pol hsf hsince
    refine ⟨_, pulseEdge_leads hfree hen hbase hk hfired rfl hsf hsince, rfl, mget_mset_same _ _ _ _, mget?_mset_same _ _ _,
      fun honce => ?_, onlyChanges_edge _ _ _⟩
    simp [emit, ledTio, honce]
  · exact ⟨_, pulseEdge_trails hfree hend hsf, rfl, mget_mset_same _ _ _ _, mget?_mdel_same _ _, onlyChanges_edge _ _ _⟩
  · intro edge y
    refine ⟨fun h => timingInputEdge_ignored ((ignores_iff s i rise).2 h), fun hen hrise hfall => ?_⟩
    have hsel : ignores s i rise = false := by
      rw [Bool.eq_false_iff, ne_eq, ignores_iff]
      rintro (hoff | hlow | hhigh)
      · omega
      · exact hrise hlow
      · exact hfall hhigh
    refine ⟨fun hroom => ⟨_, timingInputEdge_queued hsel hroom, ?_, fun j hj => evtOf_setEvt_ne s _ hj, onlyChanges_setEvt s i _⟩,
      fun hfull => ⟨_, timingInputEdge_discarded hsel hfull, ?_, seen_raise _ .tio (by decide) _⟩⟩
    · rw [edge_id, evtOf_setEvt]
    · rw [evtOf_of_onlyChanges (onlyChanges_raise _ _ _ _) (by decide), evtOf_setEvt]
  · obtain ⟨u, honly, hexec⟩ := evtPop_pops hw hact hsel hedge
    have hevt := evtOf_of_onlyChanges honly (by decide)
    refine ⟨_, hexec, ?_, fun j hj => ?_, onlyChanges_mono (onlyChanges_trans honly (onlyChanges_setEvt u i _)) (by decide)⟩
    · rw [evtPop, evtOf_setEvt, hevt]
    · rw [evtPop, evtOf_setEvt_ne _ _ hj, hevt]
  · obtain ⟨u, honly, hexec⟩ := maxLateClr_clears hw
    have hlate : u.late = s.late := honly .late (by decide)
    refine ⟨_, hexec, mget_mset_same _ _ _ _, fun r hr => ?_,
      onlyChanges_mono (onlyChanges_trans honly (onlyChanges_late u _)) (by decide)⟩
    exact (mget_mset_ne _ _ _ hr).trans (by rw [hlate])
  · intro at_ now dst
    refine ⟨launchFire_stays hl hx, fun herr hdue hlate hbound => ?_, fun herr hbound hlate => ?_⟩
    · have hexec := launchFire_word hl hx hc hr hfree herr hdue hlate
      rw [if_neg (Nat.not_lt.2 hbound)] at hexec
      have honly := onlyChanges_launched s n l x r
      exact ⟨_, hexec, launches_launched s n l x r, ready_launched s n l x r, fun hline => launched_fabric hline s n x r,
        fun hline => launched_line hline s n x r, honly .late (by decide), honly⟩
    · have hexec := launchFire_word hl hx hc hr hfree herr (Nat.le_add_right _ _ |>.trans hbound.le) hlate
      rw [if_pos hbound] at hexec
      obtain ⟨hlaunches, hkept, hseen⟩ := launchLate_raises (launchedLate s n l x r (min (now - at_) 0x7FFFFFFF)) l
      obtain ⟨herased, hmax⟩ := launchedLate_keeps s n l x r (min (now - at_) 0x7FFFFFFF)
      exact ⟨_, hexec, hlaunches.trans herased, by rw [hkept, hmax], hseen⟩

end Sys2Proof.PulsesAndLaunches
end

section
/-! PROOFS. A write of a roster entry at an idle recovery sequencer (R47, R436, R440), and the settlement of O57. Its clause on
ROSTER_WRITE says that every other entry keeps its state; that rests on nothing being pending for the page. No field of the page is of
class E, so no write leaves a value pending there; but the clause is stated of every state, and where one is pending for another entry
the write makes it active. -/
namespace Sys2Proof.RecoveryWatch
open Sys2Proof Sys2Proof.Machine

/-- A gateway in TEST mode at reset, but that PROVING is pending for entry 1 of the roster. -/
def pendingRoster : State := { State.reset with
  mode := some .test
  pages := [(.rseq, { Page.reset with pend := [((0x64, 1), 2)] })] }

/-- The CCF may write the page, and ROSTER_SEL names entry 0, which is NONE. -/
theorem writable_pendingRoster : Writable pendingRoster .ccf .rseq := ⟨rfl, rfl⟩

theorem selects_pendingRoster : fldV pendingRoster .rseq 0x60 10 0 = 0 ∧
    fld (regAccepted (pageOf pendingRoster .rseq) .rseq 0x60 0).toNat 10 0 = 0 := by decide

theorem rosterSt_pendingRoster : rosterSt pendingRoster 1 = 0 := by decide

/-- R47: RETIRED written over entry 0 makes entry 1 PROVING: the sequencer is idle, and what is pending applies. -/
theorem rosterSt_pageWrite_pendingRoster : rosterSt (pageWrite pendingRoster .ccf .rseq 0x64 3).1 1 = 2 := by decide

/-- Refutes O57: ROSTER_WRITE of entry 0 changes the state of entry 1, for which a value is pending. -/
theorem not_recoveryWatch : ¬ Obligations.RecoveryWatch := by
  unfold Obligations.RecoveryWatch
  rintro ⟨-, -, -, -, -, -, -, hroster, -⟩
  obtain ⟨hactive, haccepted⟩ := selects_pendingRoster
  obtain ⟨htaken, -⟩ := hroster pendingRoster .ccf 3 0 writable_pendingRoster hactive haccepted
  obtain ⟨t, hexec, -, hothers, -⟩ := htaken (.inl rfl)
  cases hexec
  have hkept := hothers 1 (by decide)
  exact absurd (rosterSt_pageWrite_pendingRoster.symm.trans (hkept.trans rosterSt_pendingRoster)) (by decide)

end Sys2Proof.RecoveryWatch
end

section
/-! PROOFS. Plans loaded, started, replaced, stopped, dropped and shown (R205 to R208), and the settlement of O40. -/
namespace Sys2Proof.PlanFunctions
open Sys2Proof Sys2Proof.Machine Sys2Proof.Laws Sys2Proof.AcceptedPackets Sys2Proof.MgmtFunctions Sys2Proof.CommitsAndEpochs
open Sys2Proof.RaisedCodes Sys2Proof.RecordAnswers Sys2Proof.CrossChecks Sys2Proof.EngineWords Sys2Proof.StepAttempts
open Sys2Proof.SequencerWords

/-! ## Slots -/

@[simp] theorem slotOf_setSlot (s : State) (i : Nat) (x : Slot) : slotOf (setSlot s i x) i = x := by
  by_cases h : i = 0 <;> simp [slotOf, setSlot, h]

/-- A write of one slot keeps the other. -/
theorem slotOf_setSlot_other (s : State) {i : Nat} (hi : i ≤ 1) (x : Slot) : slotOf (setSlot s i x) (1 - i) = slotOf s (1 - i) := by
  obtain rfl | rfl : i = 0 ∨ i = 1 := by omega
  · rfl
  · rfl

theorem slotOf_of_onlyChanges {ps : List Part} {s t : State} (h : OnlyChanges ps s t) (hp : Part.plans ∉ ps) (i : Nat) :
    slotOf t i = slotOf s i := congrArg (fun p : Plans => if i = 0 then p.slot0 else p.slot1) (h .plans hp)

theorem slotOf_setTile (s : State) (t : Fin 64) (x : Tile) (i : Nat) : slotOf (setTile s t x) i = slotOf s i := rfl

theorem slotOf_setLoads (s : State) (m : PMap Origin LoadBuf) (i : Nat) : slotOf (setLoads s m) i = slotOf s i := rfl

theorem tiles_setSlot (s : State) (i : Nat) (x : Slot) : (setSlot s i x).plans.tiles = s.plans.tiles := by
  unfold setSlot
  split <;> rfl

theorem tiles_setLoads (s : State) (m : PMap Origin LoadBuf) : (setLoads s m).plans.tiles = s.plans.tiles := rfl

theorem tiles_of_onlyChanges {ps : List Part} {s t : State} (h : OnlyChanges ps s t) (hp : Part.plans ∉ ps) :
    t.plans.tiles = s.plans.tiles := congrArg Plans.tiles (h .plans hp)

theorem onlyChanges_dropAside (s : State) (i : Nat) : OnlyChanges [.trays] s (dropAside s i) := onlyChanges_trays s _

/-- R384: an emptied slot, the other as it was. -/
theorem clearSlot_empties (s : State) {i : Nat} (hi : i ≤ 1) :
    slotOf (clearSlot s i) i = Slot.empty ∧ slotOf (clearSlot s i) (1 - i) = slotOf s (1 - i) := by
  have hkeeps : ∀ j, slotOf (clearSlot s i) j = slotOf (setSlot s i Slot.empty) j :=
    slotOf_of_onlyChanges (onlyChanges_then (onlyChanges_releaseTrays _ _) (onlyChanges_dropAside _ _)) (by decide)
  rw [hkeeps, hkeeps, slotOf_setSlot, slotOf_setSlot_other s hi]
  exact ⟨rfl, rfl⟩

/-! ## MGMT packets answered -/

section
variable {s : State} {via : Via} {p : Packet} {k : Ctx} {u : State}

/-- R102: an accepted MGMT of a row is answered by what serves its function. -/
theorem rowPacket_mgmt (ha : Accepted s via p k u) (hop : p.hdr.opcode = 0x0A) {row : Header → Bool} (hrow : row p.hdr = true)
    {r : State × Disp} (hcore : mgmtCore k u = r) : rowPacket row via p s = settle k r := by
  have hserve : serve k u = mgmtCore k u := by simp [serve, Ctx.h, accepted_pkt ha, hop]
  rw [rowPacket_of_accepted ha hrow, hserve, hcore]

/-- What a completed request leaves besides its answer. -/
theorem onlyChanges_completed (k : Ctx) (t : State) (b : Bytes) : OnlyChanges answerParts t (settle k (completeNow t k b)) :=
  onlyChanges_then (onlyChanges_sendComplete _ _ _ _ _) (onlyChanges_settle k (completeNow t k b))

/-- What holds of every state that differs by an answer holds after a command that completes. -/
theorem answers_completed {c : Instr} {t : State} {b : Bytes} {post : State → Prop}
    (hx : exec c s = .next (settle k (completeNow t k b))) (h : ∀ v, OnlyChanges answerParts t v → post v) : Answers c s post :=
  ⟨_, hx, h _ (onlyChanges_completed k t b)⟩

end

section
variable {s : State} {via : Via} {p : Packet} {k : Ctx} {u : State} (ha : Accepted s via p k u) (hop : p.hdr.opcode = 0x0A)
  (hi : p.hdr.chunkIndex = 0) (hn : p.hdr.chunkCount.toNat ≤ 1)
include ha hop hi hn

/-- R102: PLAN_START's function is chosen by the mode in its block. -/
theorem mgmtCore_planStart (hf : p.hdr.arg0 = 0x101) :
    mgmtCore k u = if byteAt p.payload 1 = 1 then planReplace k u else planStart k u := by
  have hk := accepted_pkt ha
  subst hk
  have harg : k.h.arg0.toNat = 0x101 := by simp [Ctx.h, hf]
  simp only [mgmtCore, harg]
  rw [assembled_oneChunk _ u hi hn]

theorem exec_planStart (hf : p.hdr.arg0 = 0x101) (hm : byteAt p.payload 1 = 0) :
    exec (.planStart via p) s = .next (settle k (planStart k u)) :=
  congrArg Host.Outcome.next (rowPacket_mgmt ha hop (by simp [mgmtIs, opIs, hop, hf, hm])
    (by rw [mgmtCore_planStart ha hop hi hn hf, hm]; rfl))

theorem exec_planReplace (hf : p.hdr.arg0 = 0x101) (hm : byteAt p.payload 1 = 1) :
    exec (.planReplace via p) s = .next (settle k (planReplace k u)) :=
  congrArg Host.Outcome.next (rowPacket_mgmt ha hop (by simp [mgmtIs, opIs, hop, hf, hm])
    (by rw [mgmtCore_planStart ha hop hi hn hf, if_pos hm]))

theorem exec_planStop (hf : p.hdr.arg0 = 0x102) : exec (.planStop via p) s = .next (settle k (planStop k u)) :=
  congrArg Host.Outcome.next (mgmt_oneChunk ha hop hi hn (f := 0x102) (by simp [hf]) fun h => by simp only [mgmtCore, h])

theorem exec_planDrop (hf : p.hdr.arg0 = 0x103) : exec (.planDrop via p) s = .next (settle k (planDrop k u)) :=
  congrArg Host.Outcome.next (mgmt_oneChunk ha hop hi hn (f := 0x103) (by simp [hf]) fun h => by simp only [mgmtCore, h])

theorem exec_planStatus (hf : p.hdr.arg0 = 0x104) : exec (.planStatus via p) s = .next (settle k (planStatus k u)) :=
  congrArg Host.Outcome.next (mgmt_oneChunk ha hop hi hn (f := 0x104) (by simp [hf]) fun h => by simp only [mgmtCore, h])

theorem exec_tileRelease (hf : p.hdr.arg0 = 0x105) : exec (.tileRelease via p) s = .next (settle k (tileRelease k u)) :=
  congrArg Host.Outcome.next (mgmt_oneChunk ha hop hi hn (f := 0x105) (by simp [hf]) fun h => by simp only [mgmtCore, h])

end

/-! ## PLAN_LOAD (R205, R207) -/

theorem onlyChanges_allocPonds (s : State) (r : Nat) (q : Fin 4) (n : Nat) :
    ∀ x ∈ allocPonds s r q n, OnlyChanges [.trays] s x.1 := by
  have hone : ∀ (t : State), ∀ x ∈ allocPond t r q, OnlyChanges [.trays] t x.1 := by
    intro t x hx
    unfold allocPond at hx
    split at hx
    · obtain ⟨i, -, rfl⟩ := Option.map_eq_some_iff.1 hx
      exact onlyChanges_holdTray t i r none
    · cases hx
  fun_induction allocPonds with
  | case1 t => simpa using onlyChanges_refl _ t
  | case2 t n ih =>
    intro x hx
    obtain ⟨⟨v, i⟩, hv, hrest⟩ := Option.bind_eq_some_iff.1 hx
    obtain ⟨⟨w, l⟩, hw, hl⟩ := Option.bind_eq_some_iff.1 hrest
    obtain rfl := Option.some.inj hl
    exact onlyChanges_then (hone t (v, i) hv) (ih v (w, l) hw)

theorem onlyChanges_trayMoved (s : State) (i : TrayId) (n : Nat) : OnlyChanges [.ctr] s (trayMoved s i n) := by
  cases i with
  | pond q j => exact onlyChanges_count _ _ _ _
  | sram t j => exact onlyChanges_refl _ s

/-- R206: a chunk that its trays hold is kept, and only trays are taken and counted. -/
theorem growLoad_keeps {s v : State} {req idx : Nat} {b l : LoadBuf} {bytes : Bytes}
    (h : growLoad s req b idx bytes = some (v, l)) :
    OnlyChanges [.trays, .ctr] s v ∧ l.count = b.count ∧ l.chunks = mset b.chunks idx bytes := by
  obtain ⟨⟨w, ts⟩, hw, heq⟩ := Option.map_eq_some_iff.1 h
  have htrays := onlyChanges_allocPonds _ _ _ _ (w, ts) hw
  obtain ⟨rfl, rfl⟩ := Prod.mk.inj heq
  refine ⟨onlyChanges_mono (onlyChanges_trans (qs := [.ctr]) htrays ?_) (by simp), rfl, rfl⟩
  dsimp only
  split
  · exact onlyChanges_trayMoved _ _ _
  · exact onlyChanges_refl _ _

/-- A load of one chunk that has arrived: it is full, its bytes are the chunk's, and the chunk names its slot. -/
theorem load_oneChunk {l : LoadBuf} {b : Bytes} (hc : l.count = 1) (hb : l.chunks = mset [] 0 b) :
    l.full = true ∧ l.bytes = b ∧ loadSlot l = some (byteAt b 0) := by
  have hchunk : mget? l.chunks 0 = some b := by rw [hb, mget?_mset_same]
  simp [LoadBuf.full, LoadBuf.bytes, loadSlot, hc, hchunk, mget]

/-- R205: a check that passes makes the set-aside, and changes the trays alone. -/
theorem onlyChanges_checkPlan {s t : State} {slot req : Nat} {img : Bytes} {q : Plan} {a : Aside}
    (h : checkPlan s slot req img = .inr (q, t, a)) : OnlyChanges [.trays] s t := by
  have hmake : ∀ {v : State} {a : Aside}, makeAside (dropAside s slot) slot a = some v → OnlyChanges [.trays] s v := by
    intro v a hv
    unfold makeAside at hv
    dsimp only at hv
    split at hv
    · obtain rfl := Option.some.inj hv
      exact onlyChanges_then (onlyChanges_dropAside s slot) (onlyChanges_trays _ _)
    · cases hv
  unfold checkPlan at h
  split at h
  · cases h
  · split at h
    · cases h
    · dsimp only at h
      split at h
      · cases h
      · split at h
        · cases h
        · next v hv =>
          split at h
          · cases h
          · cases h
            exact hmake hv

/-- R207: the buffer of a load goes, and the slot it had taken is back in its state; the tiles stay. -/
theorem endLoad_returns {s : State} {org : Origin} {l : LoadBuf} {i : Nat} (hl : loadSlot l = some i)
    (hst : (slotOf s i).st = .loading) :
    slotOf (endLoad s org l) i = { slotOf s i with st := (slotOf s i).prior } ∧
      (endLoad s org l).plans.tiles = s.plans.tiles := by
  simp only [endLoad, hl, slotOf_setLoads, hst, if_true]
  exact ⟨slotOf_setSlot _ _ _, tiles_setSlot _ _ _⟩

/-- R207: a load whose plan passes leaves its slot LOADED with the plan. -/
theorem finishLoad_loads {s : State} {k : Ctx} {l : LoadBuf} {b : Bytes} (hb : l.bytes = b) {q : Plan} {z : State} {a : Aside}
    (h : checkPlan (endLoad s k.org l) (byteAt b 0) (reqOf (endLoad s k.org l) k.org) (b.drop 16) = .inr (q, z, a)) :
    ∃ t, finishLoad s k l = completeNow t k [] ∧
      slotOf t (byteAt b 0) = { Slot.empty with st := .loaded, plan := some q, aside := a, trays := l.trays } ∧
      t.plans.tiles = (endLoad s k.org l).plans.tiles := by
  have hz := onlyChanges_checkPlan h
  have hfinish : finishLoad s k l = completeNow (setSlot (releaseTrays z (slotOf z (byteAt b 0)).trays) (byteAt b 0)
      { Slot.empty with st := .loaded, plan := some q, aside := a, trays := l.trays }) k [] := by
    simp only [finishLoad, hb, h]
    rfl
  refine ⟨_, hfinish, slotOf_setSlot _ _ _, ?_⟩
  rw [tiles_setSlot]
  exact tiles_of_onlyChanges (onlyChanges_then hz (onlyChanges_releaseTrays _ _)) (by decide)

/-- R205: a load whose plan fails is refused, its trays returned. -/
theorem finishLoad_refuses {s : State} {k : Ctx} {l : LoadBuf} {b : Bytes} (hb : l.bytes = b) {r : PRef}
    (h : checkPlan (endLoad s k.org l) (byteAt b 0) (reqOf (endLoad s k.org l) k.org) (b.drop 16) = .inl r) :
    finishLoad s k l = refusePlan (releaseTrays (endLoad s k.org l) l.trays) k r := by
  simp only [finishLoad, hb, h]

/-- R205: PLAN_REFUSED is raised, and the plans stay. -/
theorem refusePlan_raises (s : State) (k : Ctx) (r : PRef) :
    (settle k (refusePlan s k r)).plans = s.plans ∧
      (pageOf (settle k (refusePlan s k r)) (.quad 0)).classSeen.getLsbD 2 = true := by
  have hanswer : OnlyChanges answerParts (raise s (.quad 0) 0x2801 r.info) (settle k (refusePlan s k r)) :=
    onlyChanges_then (onlyChanges_sendComplete _ _ _ _ _) (onlyChanges_settle k (refusePlan s k r))
  have hplans := hanswer .plans (by decide)
  have hpages : (settle k (refusePlan s k r)).pages = _ := hanswer .pages (by decide)
  refine ⟨hplans.trans (onlyChanges_raise s (.quad 0) 0x2801 r.info .plans (by decide)), ?_⟩
  rw [pageOf, hpages]
  exact seen_raise s (.quad 0) (code := 0x2801) (by decide) r.info

/-- R207: a load's slot is LOADING, its buffer kept: `u` before its chunk took trays, `v` after. -/
def takenSlot (u v : State) (org : Origin) (l : LoadBuf) (i : Nat) : State :=
  setSlot (setLoads v (mset v.plans.loads org l)) i { slotOf v i with st := .loading, prior := (slotOf u i).st }

/-- R207: a load that ends at once returns its slot to the state it had, with no tile changed. -/
theorem endLoad_takenSlot {u v : State} (h : v.plans = u.plans) {org : Origin} {l : LoadBuf} {i : Nat}
    (hl : loadSlot l = some i) :
    slotOf (endLoad (takenSlot u v org l i) org l) i = { slotOf u i with prior := (slotOf u i).st } ∧
      (endLoad (takenSlot u v org l i) org l).plans.tiles = u.plans.tiles := by
  have hslot : slotOf (takenSlot u v org l i) i = { slotOf v i with st := .loading, prior := (slotOf u i).st } :=
    slotOf_setSlot _ _ _
  have hsame : slotOf v i = slotOf u i := by rw [slotOf, h, ← slotOf]
  obtain ⟨hst, htiles⟩ := endLoad_returns (s := takenSlot u v org l i) (org := org) hl (by rw [hslot])
  refine ⟨by rw [hst, hslot, hsame], htiles.trans ?_⟩
  rw [takenSlot, tiles_setSlot, tiles_setLoads, h]

/-- R207: a PLAN_LOAD of one chunk, on a slot that may load, is checked at once. -/
theorem planLoad_oneChunk {k : Ctx} {u v : State} {l : LoadBuf} (hc : k.h.chunkCount = 1) (hx : k.h.chunkIndex = 0)
    (hlen : 16 ≤ k.pkt.payload.length) (hi : byteAt k.pkt.payload 0 ≤ 1)
    (hz : (slice k.pkt.payload 1 15).any (· != 0) = false) (hload : loadable u (slotOf u (byteAt k.pkt.payload 0)) = true)
    (hnone : mget? u.plans.loads k.org = none)
    (hg : growLoad u (reqOf u k.org) { LoadBuf.none with count := 1 } 0 k.pkt.payload = some (v, l)) :
    planLoad k u = finishLoad (takenSlot u v k.org l (byteAt k.pkt.payload 0)) k l := by
  obtain ⟨honly, hcount, hchunks⟩ := growLoad_keeps hg
  obtain ⟨hfull, -, -⟩ := load_oneChunk hcount hchunks
  have hslot : slotOf v (byteAt k.pkt.payload 0) = slotOf u (byteAt k.pkt.payload 0) :=
    slotOf_of_onlyChanges honly (by decide) _
  have hbuf : mget u.plans.loads k.org LoadBuf.none = LoadBuf.none := by rw [mget, hnone, Option.getD_none]
  simp only [planLoad, hc, hx, hbuf]
  rw [if_neg (by decide), if_neg (by rw [hz]; simp; omega), if_neg (by simp [hload])]
  simp only [LoadBuf.none] at hg ⊢
  simp [hg, hfull, slotOf_setLoads, hslot, takenSlot]

/-! ## PLAN_START (R208) -/

section
variable {k : Ctx} {u : State} (hlen : k.pkt.payload.length = 16) (hi : byteAt k.pkt.payload 0 ≤ 1)
  (hz : (slice k.pkt.payload 2 6).any (· != 0) = false) (hj : joined u = true)
  (hst : (slotOf u (byteAt k.pkt.payload 0)).st = .loaded) {q : Plan} (hq : (slotOf u (byteAt k.pkt.payload 0)).plan = some q)
include hlen hi hz hj hst hq

/-- R208: a LOADED plan with no other that runs or is held is ACTIVE, and its tiles begin. -/
theorem planStart_activates (hm : byteAt k.pkt.payload 1 = 0)
    (hy : (slotOf u (1 - byteAt k.pkt.payload 0)).st = .empty ∨ (slotOf u (1 - byteAt k.pkt.payload 0)).st = .loading ∨
      (slotOf u (1 - byteAt k.pkt.payload 0)).st = .loaded ∨ (slotOf u (1 - byteAt k.pkt.payload 0)).st = .done) :
    planStart k u = completeNow (startTiles (setSlot u (byteAt k.pkt.payload 0) { slotOf u (byteAt k.pkt.payload 0) with
      st := .active, base := beAt k.pkt.payload 8 8, begun := [], lastEnded := [] }) (byteAt k.pkt.payload 0) q q.first) k [] := by
  unfold planStart
  dsimp only
  rw [if_neg (by rw [hz]; simp [hlen, hm]; omega), if_neg (by simp [hst]), hst, hq]
  dsimp only
  obtain hy | hy | hy | hy := hy <;> simp [otherJob, hy, hj, completeNow]

/-- R208: a LOADED plan that follows the active one of its job is NEXT. -/
theorem planStart_next (hm : byteAt k.pkt.payload 1 = 0) (hy : (slotOf u (1 - byteAt k.pkt.payload 0)).st = .active)
    {q' : Plan} (hq' : (slotOf u (1 - byteAt k.pkt.payload 0)).plan = some q') (hjob : q'.job = q.job)
    (hfirst : q.first = nextStep q'.last) (hended : (slotOf u (1 - byteAt k.pkt.payload 0)).lastEnded = []) :
    planStart k u = completeNow (setSlot u (byteAt k.pkt.payload 0) { slotOf u (byteAt k.pkt.payload 0) with
      st := .next, base := beAt k.pkt.payload 8 8, begun := [], lastEnded := [] }) k [] := by
  unfold planStart
  dsimp only
  rw [if_neg (by rw [hz]; simp [hlen, hm]; omega), if_neg (by simp [hst]), hst, hq]
  simp [otherJob, hy, hj, hq', hjob, hfirst, hended, completeNow]

/-- R208: a REPLACE plan that has what the held one still owes takes over from its oldest uncommitted step. -/
theorem planReplace_takesOver (hm : byteAt k.pkt.payload 1 = 1) (hy : (slotOf u (1 - byteAt k.pkt.payload 0)).st = .held)
    {q' : Plan} (hq' : (slotOf u (1 - byteAt k.pkt.payload 0)).plan = some q') (hjob : q.job = q'.job)
    (hok : (oldestStep u q').isSome = true → replaceBad q' q ((oldestStep u q').getD q.first) = none) :
    planReplace k u = completeNow (startTiles (setSlot (setSlot u (1 - byteAt k.pkt.payload 0)
      { slotOf u (1 - byteAt k.pkt.payload 0) with st := .done, stopping := false }) (byteAt k.pkt.payload 0)
      { slotOf u (byteAt k.pkt.payload 0) with st := .active, base := beAt k.pkt.payload 8 8, begun := [], lastEnded := [] })
      (byteAt k.pkt.payload 0) q ((oldestStep u q').getD q.first)) k [] := by
  have hnone : (if (oldestStep u q').isSome = true then replaceBad q' q ((oldestStep u q').getD q.first) else none) = none := by
    split
    · exact hok ‹_›
    · rfl
  unfold planReplace
  dsimp only
  rw [if_neg (by rw [hz]; simp [hlen, hm]; omega), if_neg (by simp [hst]), hst, hq, hy, hq']
  dsimp only
  rw [if_neg (by simp [hj]), if_neg (by simp [hjob]), hnone]
  rfl

end

/-! ## PLAN_STOP, PLAN_DROP and PLAN_STATUS (R207) -/

theorem blockBad_eq_false {b : Bytes} {top : Nat} (hlen : b.length = 16) (hi : byteAt b 0 ≤ top)
    (hz : (slice b 1 15).any (· != 0) = false) : blockBad b top = false := by
  rw [blockBad, hz]
  simp [hlen, hi]

/-- No step of a slot's plan stands before a tile. -/
def NotTodo (i : Nat) (s : State) (n : Fin 64) : Prop := ∀ j m : Nat, (tileOf s n).todo = some (j, m) → j ≠ i

/-- R207: a tile that was to begin a step of a slot's plan has nothing to begin. -/
def dropTodo (i : Nat) (s : State) (t : Fin 64) : State :=
  match (tileOf s t).todo with
  | some (j, _) => if j = i then setTile s t { tileOf s t with todo := none, seq := .idle, active := false } else s
  | none => s

theorem dropTodo_cases (i : Nat) (s : State) (t : Fin 64) :
    (dropTodo i s t = s ∧ NotTodo i s t) ∨
      dropTodo i s t = setTile s t { tileOf s t with todo := none, seq := .idle, active := false } := by
  unfold dropTodo NotTodo
  split
  · next j m h =>
    split
    · exact .inr rfl
    · next hj =>
      refine .inl ⟨rfl, fun j' m' h' => ?_⟩
      rw [h] at h'
      cases h'
      exact hj
  · next h =>
    refine .inl ⟨rfl, fun j m h' => ?_⟩
    rw [h] at h'
    cases h'

theorem notTodo_setTile (i : Nat) (s : State) (t : Fin 64) {x : Tile} (hx : x.todo = none) : NotTodo i (setTile s t x) t := by
  intro j m h
  rw [tileOf_setTile, hx] at h
  cases h

theorem notTodo_dropTodo (i : Nat) (s : State) (t : Fin 64) : NotTodo i (dropTodo i s t) t := by
  obtain ⟨heq, hnot⟩ | heq := dropTodo_cases i s t
  · rwa [heq]
  · rw [heq]
    exact notTodo_setTile i s t rfl

theorem NotTodo.dropTodo {i : Nat} {s : State} {n : Fin 64} (h : NotTodo i s n) (t : Fin 64) : NotTodo i (dropTodo i s t) n := by
  by_cases htn : n = t
  · rw [htn]
    exact notTodo_dropTodo i s t
  · obtain ⟨heq, -⟩ | heq := dropTodo_cases i s t
    · rwa [heq]
    · rw [NotTodo, heq, tileOf_setTile_ne _ _ htn]
      exact h

theorem slotOf_dropTodo (i : Nat) (s : State) (t : Fin 64) (j : Nat) : slotOf (dropTodo i s t) j = slotOf s j := by
  obtain ⟨heq, -⟩ | heq := dropTodo_cases i s t
  · rw [heq]
  · rw [heq, slotOf_setTile]

theorem NotTodo.foldl {i : Nat} {s : State} {n : Fin 64} (h : NotTodo i s n) (l : List (Fin 64)) :
    NotTodo i (l.foldl (PlanFunctions.dropTodo i) s) n := by
  induction l generalizing s with
  | nil => exact h
  | cons t l ih => exact ih (h.dropTodo t)

/-- Every tile that the steps go over has nothing of the slot's plan to begin. -/
theorem notTodo_foldl {i : Nat} {n : Fin 64} {l : List (Fin 64)} (hn : n ∈ l) (s : State) :
    NotTodo i (l.foldl (dropTodo i) s) n := by
  induction l generalizing s with
  | nil => cases hn
  | cons t l ih =>
    rcases List.mem_cons.1 hn with rfl | hl
    · exact (notTodo_dropTodo i s n).foldl l
    · exact ih hl _

theorem slotOf_foldl_dropTodo (i : Nat) (l : List (Fin 64)) (s : State) (j : Nat) :
    slotOf (l.foldl (dropTodo i) s) j = slotOf s j := by
  induction l generalizing s with
  | nil => rfl
  | cons t l ih => exact (ih _).trans (slotOf_dropTodo i s t j)

section
variable {k : Ctx} (hbad : blockBad k.pkt.payload 1 = false)
include hbad

theorem planStop_active {u : State} (h : (slotOf u (byteAt k.pkt.payload 0)).st = .active) :
    planStop k u = completeNow (stopDone (setSlot u (byteAt k.pkt.payload 0)
      { slotOf u (byteAt k.pkt.payload 0) with stopping := true }) (byteAt k.pkt.payload 0)) k [] := by
  simp [planStop, hbad, h, completeNow]

theorem planStop_next {u : State} (h : (slotOf u (byteAt k.pkt.payload 0)).st = .next)
    (hb : (slotOf u (byteAt k.pkt.payload 0)).begun = []) :
    planStop k u = completeNow ((List.finRange 64).foldl (dropTodo (byteAt k.pkt.payload 0)) (setSlot u (byteAt k.pkt.payload 0)
      { slotOf u (byteAt k.pkt.payload 0) with st := .loaded })) k [] := by
  simp only [planStop, hbad, h, hb]
  rfl

theorem planDrop_clears {u : State} (h : (slotOf u (byteAt k.pkt.payload 0)).st = .loaded ∨
    (slotOf u (byteAt k.pkt.payload 0)).st = .done) (hu : uncommitted u (slotOf u (byteAt k.pkt.payload 0)) = false) :
    planDrop k u = completeNow (clearSlot u (byteAt k.pkt.payload 0)) k [] := by
  simp [planDrop, hbad, h, hu, completeNow]

theorem planDrop_refuses {u : State} (h : (slotOf u (byteAt k.pkt.payload 0)).st = .active ∨
    (slotOf u (byteAt k.pkt.payload 0)).st = .next ∨ (slotOf u (byteAt k.pkt.payload 0)).st = .held) :
    planDrop k u = slotRefuse u 0x2802 (byteAt k.pkt.payload 0) 3 := by
  obtain h | h | h := h <;> simp [planDrop, hbad, h]

end

/-- R207: a slot that stops is HELD once its tiles are at a boundary, and until then ACTIVE and stopping. -/
theorem stopDone_holds {s : State} {i : Nat} {q : Plan} (hst : (slotOf s i).st = .active) (hstop : (slotOf s i).stopping = true)
    (hq : (slotOf s i).plan = some q) :
    ((∀ n : Fin 64, bit q.tileMask n.val = true → tileBusy (tileOf s n) = true → (tileOf s n).slot ≠ i) →
      (slotOf (stopDone s i) i).st = .held) ∧
    ((∃ n : Fin 64, bit q.tileMask n.val = true ∧ tileBusy (tileOf s n) = true ∧ (tileOf s n).slot = i) → stopDone s i = s) := by
  have hcase : stopDone s i = if (List.finRange 64).all (fun t => !bit q.tileMask t.val || !tileBusy (tileOf s t) ||
      (tileOf s t).slot != i) then setSlot s i { slotOf s i with st := .held, stopping := false } else s := by
    simp [stopDone, hq, hst, hstop]
  rw [hcase]
  constructor
  · intro hquiet
    rw [if_pos, slotOf_setSlot]
    refine List.all_eq_true.2 fun n _ => ?_
    have := hquiet n
    cases hb : bit q.tileMask n.val <;> cases hw : tileBusy (tileOf s n) <;> simp_all
  · rintro ⟨n, hbit, hbusy, hslot⟩
    refine if_neg fun hall => ?_
    have := List.all_eq_true.1 hall n (List.mem_finRange n)
    simp [hbit, hbusy, hslot] at this

/-- R207: stopping one slot keeps the other. -/
theorem slotOf_stopDone_other (s : State) {i : Nat} (hi : i ≤ 1) : slotOf (stopDone s i) (1 - i) = slotOf s (1 - i) := by
  unfold stopDone
  dsimp only
  split
  · rfl
  · split
    · exact slotOf_setSlot_other s hi _
    · rfl

theorem tiles_stopDone (s : State) (i : Nat) : (stopDone s i).plans.tiles = s.plans.tiles := by
  unfold stopDone
  dsimp only
  split
  · rfl
  · split
    · exact tiles_setSlot _ _ _
    · rfl

/-! ## TILE_RELEASE (R207, R433) -/

/-- R207, R433: a quarantined tile returned to OFF: its charges are cleared and its trays are in the pool again. -/
def backToOff (s : State) (t : Fin 64) : State :=
  let s := setPage s (.tile t) { pageOf s (.tile t) with quarantined := false, enable := false, halted := false }
  let s := setTile s t { tileOf s t with xchkMiss := 0, seq := .idle, active := false, todo := none }
  let s := { s with rseq := { s.rseq with charges := mdel s.rseq.charges t } }
  { s with trays := { s.trays with removed := s.trays.removed.filter (· != t) } }

theorem backToOff_page (s : State) (t : Fin 64) : pageOf (backToOff s t) (.tile t) =
    { pageOf s (.tile t) with quarantined := false, enable := false, halted := false } := pageOf_setPage s _ _

theorem backToOff_tile (s : State) (t : Fin 64) : tileOf (backToOff s t) t =
    { tileOf s t with xchkMiss := 0, seq := .idle, active := false, todo := none } := tileOf_setTile _ _ _

theorem backToOff_charges (s : State) (t : Fin 64) : mget (backToOff s t).rseq.charges t [] = [] := by
  change mget (mdel s.rseq.charges t) t [] = []
  rw [mget, mget?_mdel_same, Option.getD_none]

theorem backToOff_trays (s : State) (t : Fin 64) : t ∉ (backToOff s t).trays.removed := by
  change t ∉ s.trays.removed.filter (· != t)
  simp

section
variable {k : Ctx} (hbad : blockBad k.pkt.payload 63 = false) {u : State}
include hbad

theorem tileRelease_refuses (hm : u.mode ≠ some .test) : tileRelease k u = (u, .refuse 0x220F) := by
  simp [tileRelease, hbad, hm]

theorem tileRelease_releases (hm : u.mode = some .test) : tileRelease k u =
    completeNow (if (pageOf u (.tile (tileIx (byteAt k.pkt.payload 0)))).quarantined = true then
      backToOff u (tileIx (byteAt k.pkt.payload 0)) else u) k [] := by
  simp only [tileRelease, hbad, hm]
  rfl

end

/-! ## The settlement -/

section
variable {s : State} {via : Via} {p : Packet} {k : Ctx} {u : State} (ha : Accepted s via p k u) (hop : p.hdr.opcode = 0x0A)
include ha hop

/-- R207: an accepted PLAN_LOAD of one chunk is checked, and leaves its slot LOADED with the plan, or as it was. -/
theorem planLoad_answers (hf : p.hdr.arg0 = 0x100) (hc : p.hdr.chunkCount = 1) (hx : p.hdr.chunkIndex = 0)
    (hlen : 16 ≤ p.payload.length) (hi : byteAt p.payload 0 ≤ 1) (hz : (slice p.payload 1 15).any (· != 0) = false)
    (hload : loadable u (slotOf u (byteAt p.payload 0)) = true) (hnone : mget? u.plans.loads k.org = none) (v : State) (l : LoadBuf)
    (hg : growLoad u (reqOf u k.org) { LoadBuf.none with count := 1 } 0 p.payload = some (v, l)) :
    let i := byteAt p.payload 0
    let z := endLoad (takenSlot u v k.org l i) k.org l
    (∀ (q : Plan) (z' : State) (a : Aside), checkPlan z i (reqOf z k.org) (p.payload.drop 16) = .inr (q, z', a) →
      Answers (.planLoad via p) s (fun t => (slotOf t i).st = .loaded ∧ (slotOf t i).plan = some q ∧
        (slotOf t i).aside = a ∧ (slotOf t i).begun = [] ∧ t.plans.tiles = u.plans.tiles)) ∧
    (∀ r : PRef, checkPlan z i (reqOf z k.org) (p.payload.drop 16) = .inl r → Answers (.planLoad via p) s (fun t =>
      (slotOf t i).st = (slotOf u i).st ∧ (slotOf t i).plan = (slotOf u i).plan ∧
      (pageOf t (.quad 0)).classSeen.getLsbD 2 = true)) := by
  intro i z
  have hk := accepted_pkt ha
  subst hk
  obtain ⟨honly, hcount, hchunks⟩ := growLoad_keeps hg
  obtain ⟨-, hbytes, hslot⟩ := load_oneChunk hcount hchunks
  obtain ⟨hreturned, htiles⟩ := endLoad_takenSlot (honly .plans (by decide)) (org := k.org) hslot
  have hexec : exec (.planLoad via k.pkt) s = .next (settle k (finishLoad (takenSlot u v k.org l i) k l)) := by
    have harg : k.h.arg0.toNat = 0x100 := by simp [Ctx.h, hf]
    refine congrArg Host.Outcome.next (rowPacket_mgmt ha hop (by simp [mgmtIs, opIs, hop, hf]) ?_)
    rw [← planLoad_oneChunk hc hx hlen hi hz hload hnone hg]
    simp only [mgmtCore, harg]
  refine ⟨fun q z' a hcheck => ?_, fun r hcheck => ?_⟩
  · obtain ⟨t, hfinish, ht, htt⟩ := finishLoad_loads hbytes hcheck
    rw [hfinish] at hexec
    refine answers_completed hexec fun w hw => ?_
    rw [slotOf_of_onlyChanges hw (by decide), ht, tiles_of_onlyChanges hw (by decide), htt]
    exact ⟨rfl, rfl, rfl, rfl, htiles⟩
  · rw [finishLoad_refuses hbytes hcheck] at hexec
    obtain ⟨hplans, hseen⟩ := refusePlan_raises (releaseTrays z l.trays) k r
    have hkept : slotOf (releaseTrays z l.trays) i = { slotOf u i with prior := (slotOf u i).st } :=
      (slotOf_of_onlyChanges (onlyChanges_releaseTrays _ _) (by decide) i).trans hreturned
    have hprior : slotOf (settle k (refusePlan (releaseTrays z l.trays) k r)) i =
        { slotOf u i with prior := (slotOf u i).st } := by
      rw [slotOf, hplans, ← slotOf, hkept]
    exact ⟨_, hexec, by rw [hprior], by rw [hprior], hseen⟩

variable (hx : p.hdr.chunkIndex = 0) (hn : p.hdr.chunkCount.toNat ≤ 1)
include hx hn

section
variable (hlen : p.payload.length = 16) (hi : byteAt p.payload 0 ≤ 1) (hz : (slice p.payload 1 15).any (· != 0) = false)
include hlen hi hz

/-- R207: PLAN_STOP of an ACTIVE slot. -/
theorem planStop_answers_active (hf : p.hdr.arg0 = 0x102) (hst : (slotOf u (byteAt p.payload 0)).st = .active) (q : Plan)
    (hq : (slotOf u (byteAt p.payload 0)).plan = some q) :
    let i := byteAt p.payload 0
    Answers (.planStop via p) s (fun t =>
      ((∀ n : Fin 64, bit q.tileMask n.val = true → tileBusy (tileOf u n) = true → (tileOf u n).slot ≠ i) →
        (slotOf t i).st = .held) ∧
      ((∃ n : Fin 64, bit q.tileMask n.val = true ∧ tileBusy (tileOf u n) = true ∧ (tileOf u n).slot = i) →
        (slotOf t i).st = .active ∧ (slotOf t i).stopping = true) ∧
      slotOf t (1 - i) = slotOf u (1 - i) ∧ t.plans.tiles = u.plans.tiles) := by
  intro i
  have hk := accepted_pkt ha
  subst hk
  have hexec := exec_planStop ha hop hx hn hf
  rw [planStop_active (blockBad_eq_false hlen hi hz) hst] at hexec
  refine answers_completed hexec fun w hw => ?_
  have hslot := slotOf_setSlot u i { slotOf u i with stopping := true }
  obtain ⟨hheld, hactive⟩ := stopDone_holds (s := setSlot u i { slotOf u i with stopping := true }) (i := i) (q := q)
    (by rw [hslot]; exact hst) (by rw [hslot]) (by rw [hslot]; exact hq)
  simp only [tileOf_setSlot] at hheld hactive
  rw [slotOf_of_onlyChanges hw (by decide), slotOf_of_onlyChanges hw (by decide), tiles_of_onlyChanges hw (by decide)]
  refine ⟨hheld, fun hbusy => ?_, ?_, ?_⟩
  · rw [hactive hbusy, hslot]
    exact ⟨hst, rfl⟩
  · rw [slotOf_stopDone_other _ hi, slotOf_setSlot_other _ hi]
  · rw [tiles_stopDone, tiles_setSlot]

/-- R207: PLAN_STOP of a NEXT slot that has begun nothing. -/
theorem planStop_answers_next (hf : p.hdr.arg0 = 0x102) (hst : (slotOf u (byteAt p.payload 0)).st = .next)
    (hb : (slotOf u (byteAt p.payload 0)).begun = []) :
    let i := byteAt p.payload 0
    Answers (.planStop via p) s (fun t => (slotOf t i).st = .loaded ∧ (slotOf t i).plan = (slotOf u i).plan ∧
      ∀ (n : Fin 64) (j m : Nat), (tileOf t n).todo = some (j, m) → j ≠ i) := by
  intro i
  have hk := accepted_pkt ha
  subst hk
  have hexec := exec_planStop ha hop hx hn hf
  rw [planStop_next (blockBad_eq_false hlen hi hz) hst hb] at hexec
  refine answers_completed hexec fun w hw => ?_
  rw [slotOf_of_onlyChanges hw (by decide), slotOf_foldl_dropTodo, slotOf_setSlot]
  refine ⟨rfl, rfl, fun n => ?_⟩
  rw [tileOf_of_onlyChanges hw (by decide)]
  exact notTodo_foldl (List.mem_finRange n) _

/-- R207, R384: PLAN_DROP of a slot that owes nothing. -/
theorem planDrop_answers (hf : p.hdr.arg0 = 0x103) (hst : (slotOf u (byteAt p.payload 0)).st = .loaded ∨
      (slotOf u (byteAt p.payload 0)).st = .done) (hu : uncommitted u (slotOf u (byteAt p.payload 0)) = false) :
    Answers (.planDrop via p) s (fun t => slotOf t (byteAt p.payload 0) = Slot.empty ∧
      slotOf t (1 - byteAt p.payload 0) = slotOf u (1 - byteAt p.payload 0)) := by
  have hk := accepted_pkt ha
  subst hk
  have hexec := exec_planDrop ha hop hx hn hf
  rw [planDrop_clears (blockBad_eq_false hlen hi hz) hst hu] at hexec
  refine answers_completed hexec fun w hw => ?_
  rw [slotOf_of_onlyChanges hw (by decide), slotOf_of_onlyChanges hw (by decide)]
  exact clearSlot_empties u hi

end

/-- R207, R433: TILE_RELEASE in TEST mode. -/
theorem tileRelease_answers (hf : p.hdr.arg0 = 0x105) (hlen : p.payload.length = 16) (hi : byteAt p.payload 0 ≤ 63)
    (hz : (slice p.payload 1 15).any (· != 0) = false) (hm : u.mode = some .test) :
    let n := tileIx (byteAt p.payload 0)
    Answers (.tileRelease via p) s (fun t => (pageOf t (.tile n)).quarantined = false ∧
      ((pageOf u (.tile n)).quarantined = true → (pageOf t (.tile n)).enable = false ∧ mget t.rseq.charges n [] = [] ∧
        (tileOf t n).xchkMiss = 0 ∧ n ∉ t.trays.removed)) := by
  intro n
  have hk := accepted_pkt ha
  subst hk
  have hexec := exec_tileRelease ha hop hx hn hf
  rw [tileRelease_releases (blockBad_eq_false hlen hi hz) hm] at hexec
  refine answers_completed hexec fun w hw => ?_
  have hpages : w.pages = _ := hw .pages (by decide)
  have hrseq : w.rseq = _ := hw .rseq (by decide)
  have htrays : w.trays = _ := hw .trays (by decide)
  rw [tileOf_of_onlyChanges hw (by decide), hrseq, htrays, pageOf, hpages, ← pageOf]
  by_cases hq : (pageOf u (.tile n)).quarantined = true
  · rw [if_pos hq, backToOff_page, backToOff_tile]
    exact ⟨rfl, fun _ => ⟨rfl, backToOff_charges u n, rfl, backToOff_trays u n⟩⟩
  · rw [if_neg hq]
    exact ⟨by simpa using hq, fun h => absurd h hq⟩

end

/-- Settles O40: each clause is an accepted MGMT answered by the rule of its plan function. -/
theorem planFunctions : Obligations.PlanFunctions := by
  intro s via p k u ha hop b i x y
  refine ⟨planLoad_answers ha hop, fun hx hn hlen hi => ⟨fun hf hz hj hst q hq => ?_, fun hz => ?_⟩, fun hx hn => ⟨?_, ?_⟩⟩
  · have hk := accepted_pkt ha
    subst hk
    refine ⟨fun hm hy => ?_, fun hm hy q' hq' hjob hfirst hended => ?_, fun hm hy q' hq' hjob hok => ?_⟩
    · rw [exec_planStart ha hop hx hn hf hm, planStart_activates hlen hi hz hj hst hq hm hy]
    · rw [exec_planStart ha hop hx hn hf hm, planStart_next hlen hi hz hj hst hq hm hy hq' hjob hfirst hended]
    · rw [exec_planReplace ha hop hx hn hf hm, planReplace_takesOver hlen hi hz hj hst hq hm hy hq' hjob hok]
  · refine ⟨planStop_answers_active ha hop hx hn hlen hi hz, planStop_answers_next ha hop hx hn hlen hi hz,
      planDrop_answers ha hop hx hn hlen hi hz, fun hf hst => ?_⟩
    have hk := accepted_pkt ha
    subst hk
    rw [exec_planDrop ha hop hx hn hf, planDrop_refuses (blockBad_eq_false hlen hi hz) hst]
  · intro hf hb
    have hk := accepted_pkt ha
    subst hk
    rw [exec_planStatus ha hop hx hn hf]
    simp [planStatus, show k.pkt.payload = [] from hb, completeNow]
  · refine fun hf hlen hi hz => ⟨fun hm => ?_, fun hm => tileRelease_answers ha hop hx hn hf hlen hi hz hm⟩
    have hk := accepted_pkt ha
    subst hk
    rw [exec_tileRelease ha hop hx hn hf, tileRelease_refuses (blockBad_eq_false hlen hi hz) hm]

end Sys2Proof.PlanFunctions
end

section
/-! PROOFS. Writes of job tables, weights, momentum and images (R237, R238, R240, R241, R261, R262), and the settlement of O42. -/
namespace Sys2Proof.StateWriting
open Sys2Proof Sys2Proof.Machine Sys2Proof.Laws Sys2Proof.AcceptedPackets Sys2Proof.MgmtFunctions Sys2Proof.CommitsAndEpochs
open Sys2Proof.StateReading Sys2Proof.EngineWords Sys2Proof.PlanFunctions

/-! ## Jobs and their loads -/

theorem jobOf_of_onlyChanges {ps : List Part} {s t : State} (h : OnlyChanges ps s t) (hp : Part.outer ∉ ps) (j : Nat) :
    jobOf t j = jobOf s j := congrArg (mget · j Job.none) (h .outer hp)

theorem jobOf_dropJobLoad (s : State) (job : Nat) (q : Nat × Nat × Nat) :
    jobOf (dropJobLoad s job q) job = { jobOf s job with loads := mdel (jobOf s job).loads q } := jobOf_setJob _ _ _

theorem addLoad_of_jobOf {s t : State} {job : Nat} (h : jobOf t job = jobOf s job) (q : Nat × Nat × Nat) (n i : Nat) (b : Bytes) :
    addLoad t job q n i b = addLoad s job q n i b := by
  rw [addLoad, jobLoad, h]
  rfl

/-- A chunk that has joined a load is in it. -/
theorem mget?_addLoad (s : State) (job : Nat) (q : Nat × Nat × Nat) (n i : Nat) (b : Bytes) :
    mget? (addLoad s job q n i b).chunks i = some b := mget?_mset_same _ _ _

/-! ## Job tables (R237, R238) -/

/-- R237: the chunks of a job's table, that of the packet among them. -/
def tableChunks (k : Ctx) (s : State) : LoadBuf :=
  addLoad s (ciidJob k.h.ciid) (0, 0, 0) k.h.chunkCount.toNat k.h.chunkIndex.toNat k.pkt.payload

section
variable {k : Ctx} {s : State} (hty : k.h.elemType = 0) (harg : k.h.arg1 = 0) (he : k.h.arg0 = 0)
  (hi : k.h.chunkIndex.toNat < k.h.chunkCount.toNat)
include hty harg he hi

theorem writeTable_collects (hb : (tableChunks k s).full = false) : writeTable k s =
    completeNow (setJobLoad s (ciidJob k.h.ciid) (0, 0, 0) (tableChunks k s)) k [] := by
  have hn : k.h.chunkCount ≠ 0#32 := fun h => by simp [h] at hi
  rw [tableChunks] at hb
  simp [writeTable, tableChunks, completeNow, hty, harg, he, hn, hi, hb]

variable (hb : (tableChunks k s).full = true)
include hb

/-- R238: a table that has come and fails its checks. -/
theorem writeTable_refuses
    (hbad : tableBad (dropJobLoad s (ciidJob k.h.ciid) (0, 0, 0)) (ciidJob k.h.ciid) (tableChunks k s).bytes = true) :
    writeTable k s = (raise (dropJobLoad s (ciidJob k.h.ciid) (0, 0, 0)) (.quad 0) 0x2901 0, .refuse 0x2901) := by
  have hn : k.h.chunkCount ≠ 0#32 := fun h => by simp [h] at hi
  rw [tableChunks] at hb hbad
  simp [writeTable, refuseOuter, hty, harg, he, hn, hi, hb, hbad]

/-- R238: a table that has come, passes, and has its trays. -/
theorem writeTable_installs
    (hok : tableBad (dropJobLoad s (ciidJob k.h.ciid) (0, 0, 0)) (ciidJob k.h.ciid) (tableChunks k s).bytes = false)
    (hnone : (jobOf s (ciidJob k.h.ciid)).tab = none) (hidle : planRuns s (ciidJob k.h.ciid) = false) {z : State} {l : List TrayId}
    (hz : reserveAreas (dropJobLoad s (ciidJob k.h.ciid) (0, 0, 0)) (reqOf (dropJobLoad s (ciidJob k.h.ciid) (0, 0, 0)) k.org)
      (((tableEntries (tableChunks k s).bytes).map parseMatrix).flatMap areasOf) = some (z, l)) :
    writeTable k s = completeNow (installTable z (ciidJob k.h.ciid)
      (reqOf (dropJobLoad s (ciidJob k.h.ciid) (0, 0, 0)) k.org) (tableChunks k s).bytes l) k [] := by
  have hn : k.h.chunkCount ≠ 0#32 := fun h => by simp [h] at hi
  have hdropped : (jobOf (dropJobLoad s (ciidJob k.h.ciid) (0, 0, 0)) (ciidJob k.h.ciid)).tab = none := by
    rw [jobOf_dropJobLoad]; exact hnone
  have hquiet : planRuns (dropJobLoad s (ciidJob k.h.ciid) (0, 0, 0)) (ciidJob k.h.ciid) = false := hidle
  rw [tableChunks] at hb hok hz ⊢
  simp [writeTable, completeNow, hty, harg, he, hn, hi, hb, hok, hdropped, hquiet, hz]

end

/-- R258: the trays of a job's areas are taken, and nothing else changes. -/
theorem onlyChanges_reserveAreas {s z : State} {req : Nat} {l : List TrayId} {a : List (Nat × Nat × Nat)}
    (h : reserveAreas s req a = some (z, l)) : OnlyChanges [.trays] s z := by
  simp only [reserveAreas, takePonds, Option.ite_none_right_eq_some] at h
  obtain ⟨-, h⟩ := h
  cases h
  exact onlyChanges_foldl (fun s i => onlyChanges_trays s _) _ s

/-! ## Weights and momentum (R240, R241) -/

/-- R241: a quantity whose chunks have all come stands written for its epoch. -/
def markWritten (s : State) (job : Nat) (q : Nat × Nat × Nat) : State :=
  let v := dropJobLoad s job q
  setJob v job { jobOf v job with written := q :: (jobOf v job).written.filter (· != q) }

/-- R241: what a chunk written makes of its job: it is collected, or with the last one the quantity is written, and replicated
from its area. -/
def chunkWritten (s : State) (job : Nat) (m : Matrix) (q : Nat × Nat × Nat) (t base size n i : Nat) : State :=
  if !(addLoad s job q n i []).full then setJobLoad s job q (addLoad s job q n i [])
  else replicate (markWritten s job q) job m q.1 2 (jobOf (dropJobLoad s job q) job).epoch t base size

theorem jobOf_markWritten (s : State) (job : Nat) (q : Nat × Nat × Nat) : jobOf (markWritten s job q) job =
    { jobOf s job with loads := mdel (jobOf s job).loads q, written := q :: (jobOf s job).written.filter (· != q) } := by
  rw [markWritten, jobOf_setJob, jobOf_dropJobLoad]

theorem onlyChanges_markWritten (s : State) (job : Nat) (q : Nat × Nat × Nat) : OnlyChanges [.outer] s (markWritten s job q) :=
  onlyChanges_then (onlyChanges_setJob _ _ _) (onlyChanges_setJob _ _ _)

section
variable (s : State) (job : Nat) (m : Matrix) (q : Nat × Nat × Nat) (t base size n i : Nat)

theorem onlyChanges_chunkWritten :
    OnlyChanges [.outer, .stTx, .egress, .lineTx] s (chunkWritten s job m q t base size n i) :=
  onlyChanges_ite _ (onlyChanges_mono (onlyChanges_setJob _ _ _) (by decide))
    (onlyChanges_trans (onlyChanges_markWritten _ _ _) (onlyChanges_replicate _ _ _ _ _ _ _ _ _))

theorem jobOf_chunkWritten_ne {j : Nat} (h : j ≠ job) : jobOf (chunkWritten s job m q t base size n i) j = jobOf s j := by
  unfold chunkWritten
  split
  · exact jobOf_setJob_ne _ _ h
  · rw [jobOf_of_onlyChanges (onlyChanges_replicate _ _ _ _ _ _ _ _ _) (by decide)]
    exact (jobOf_setJob_ne _ _ h).trans (jobOf_setJob_ne _ _ h)

theorem chunkWritten_full (h : (addLoad s job q n i []).full = true) :
    jobOf (chunkWritten s job m q t base size n i) job =
      { jobOf s job with loads := mdel (jobOf s job).loads q, written := q :: (jobOf s job).written.filter (· != q) } := by
  rw [chunkWritten, h, if_neg (by decide), jobOf_of_onlyChanges (onlyChanges_replicate _ _ _ _ _ _ _ _ _) (by decide),
    jobOf_markWritten]

theorem chunkWritten_part (h : (addLoad s job q n i []).full = false) :
    jobOf (chunkWritten s job m q t base size n i) job =
      { jobOf s job with loads := mset (jobOf s job).loads q (addLoad s job q n i []) } := by
  rw [chunkWritten, h]
  exact jobOf_setJob _ _ _

theorem epoch_chunkWritten : (jobOf (chunkWritten s job m q t base size n i) job).epoch = (jobOf s job).epoch := by
  cases h : (addLoad s job q n i []).full with
  | true => rw [chunkWritten_full s job m q t base size n i h]
  | false => rw [chunkWritten_part s job m q t base size n i h]

end

theorem mem_storeMem (s : State) (a : Nat) (b : Bytes) : (storeMem s a b).mem = memPut s.mem a b :=
  onlyChanges_countPond _ _ .mem (by decide)

section
variable {k : Ctx} {s : State} {m : Matrix} (hm : matrixOf s (ciidJob k.h.ciid) k.h.arg1.toNat = some m) (hhome : m.home = gw s)
  (hidle : planRuns s (ciidJob k.h.ciid) = false) (he : k.h.arg0.toNat = (jobOf s (ciidJob k.h.ciid)).epoch)
include hm hhome hidle he

/-- R240, R241: an accepted chunk of weights or momentum is stored in its area, and noted with its job. -/
theorem writeQty_stores {qty t base : Nat} (ht : t = if qty = 1 then m.wType else 1) (hty : k.h.elemType.toNat = t)
    (hbase : base = if qty = 1 then homeBank m (jobOf s (ciidJob k.h.ciid)).epoch else m.hM) (hrule : qty = 2 → m.rule ≠ 1)
    (hn : k.h.chunkCount.toNat = recChunks t (m.rows * m.cols)) (hi : k.h.chunkIndex.toNat < k.h.chunkCount.toNat)
    (hlen : k.pkt.payload.length = chunkLen t (m.rows * m.cols) k.h.chunkIndex.toNat) :
    writeQty k qty s = completeNow (chunkWritten (storeMem s (base + k.h.chunkIndex.toNat * recChunk t) k.pkt.payload)
      (ciidJob k.h.ciid) m (qty, m.matrix, (jobOf s (ciidJob k.h.ciid)).epoch) t base (if qty = 1 then wSize m else mSize m)
      k.h.chunkCount.toNat k.h.chunkIndex.toNat) k [] := by
  subst ht hbase
  rw [writeQty, stateMatrix_home hm hhome hty]
  have hfits : k.h.chunkIndex.toNat < recChunks (if qty = 1 then m.wType else 1) (m.rows * m.cols) := hn ▸ hi
  have hkept : ¬(qty = 2 ∧ m.rule = 1) := fun h => hrule h.1 h.2
  simp [hidle, he, hkept, hn, hfits, hlen, completeNow, chunkWritten, markWritten]

/-! ## Block images (R261, R262) -/

variable (hty : k.h.elemType.toNat = m.delivType)
  (hw : (1, m.matrix, (jobOf s (ciidJob k.h.ciid)).epoch) ∈ (jobOf s (ciidJob k.h.ciid)).written)
  (hi : k.h.chunkIndex.toNat < k.h.chunkCount.toNat)
  (hlen : k.h.chunkIndex.toNat + 1 = k.h.chunkCount.toNat ∨ k.pkt.payload.length = 8192)
include hty hw hi hlen

/-- R261: a chunk of an image is collected; with the last one the image is checked. -/
theorem writeBlocks_takes {q : Nat × Nat × Nat} (hq : q = (4, m.matrix, (jobOf s (ciidJob k.h.ciid)).epoch)) {b : LoadBuf}
    (hb : b = addLoad s (ciidJob k.h.ciid) q k.h.chunkCount.toNat k.h.chunkIndex.toNat k.pkt.payload) : writeBlocks k s =
      if b.full then checkImage k (dropJobLoad s (ciidJob k.h.ciid) q) m b.bytes
      else completeNow (setJobLoad s (ciidJob k.h.ciid) q b) k [] := by
  subst hq hb
  rw [writeBlocks, stateMatrix_home hm hhome hty]
  have hn : k.h.chunkCount.toNat ≠ 0 := by omega
  have hsize : ¬(k.h.chunkIndex.toNat + 1 < k.h.chunkCount.toNat ∧ ¬k.pkt.payload.length = 8192) := by omega
  cases hfull : (addLoad s (ciidJob k.h.ciid) (4, m.matrix, (jobOf s (ciidJob k.h.ciid)).epoch) k.h.chunkCount.toNat
    k.h.chunkIndex.toNat k.pkt.payload).full <;> simp [hidle, he, hw, hn, Nat.not_le.2 hi, hsize, hfull, completeNow]

end

/-- R262 order 1: the first block whose CHECK fails refuses the image. -/
theorem checkImage_badCheck {k : Ctx} {s : State} {m : Matrix} {bytes y : Bytes}
    (h : (cutBlocks (bytes.length + 1) bytes).1.find? (fun y => !bCheckOk y) = some y) :
    checkImage k s m bytes = (raise s (.quad 0) 0x2A01 (blockInfo y true), .refuse 0x2A01) := by
  simp only [checkImage, h]

/-- R262 order 2: blocks whose CHECKs hold, and which break the sequence, refuse the image. -/
theorem checkImage_badSequence {k : Ctx} {s : State} {m : Matrix} {bytes y : Bytes}
    (hok : ∀ y ∈ (cutBlocks (bytes.length + 1) bytes).1, bCheckOk y = true)
    (h : seqBad m.delivType (encSize m.delivType (m.rows * m.cols)) (cutBlocks (bytes.length + 1) bytes).1
      (cutBlocks (bytes.length + 1) bytes).2 = some y) :
    checkImage k s m bytes = (raise s (.quad 0) 0x2A02 (blockInfo y true), .refuse 0x2A02) := by
  have hnone : (cutBlocks (bytes.length + 1) bytes).1.find? (fun y => !bCheckOk y) = none :=
    List.find?_eq_none.2 fun y hy => by simp [hok y hy]
  simp only [checkImage, hnone, h]

/-! ## The commands -/

section
variable {s : State} {via : Via} {p : Packet} {k : Ctx} {u : State} (ha : Accepted s via p k u) (hop : p.hdr.opcode = 8)
include ha hop

/-- R240: an accepted STATE_WRITE is served by its quantity code. -/
theorem stateWrite_row {qty : Nat} (hqty : p.hdr.aux.toNat = qty) :
    rowPacket (qtyIs 8 qty) via p s = settle k (stateWriteCore k u) := by
  rw [rowPacket_of_accepted ha (by simp [qtyIs, opIs, hop, hqty])]
  simp [serve, Ctx.h, accepted_pkt ha, hop]

theorem exec_stateWriteTable (hqty : p.hdr.aux = 0) : exec (.stateWriteTable via p) s = .next (settle k (writeTable k u)) :=
  congrArg Host.Outcome.next ((stateWrite_row ha hop (by simp [hqty])).trans
    (by simp [stateWriteCore, Ctx.h, accepted_pkt ha, hqty]))

theorem exec_stateWriteQty {c : Instr}
    (hc : c = .stateWriteWeights via p ∧ p.hdr.aux = 1 ∨ c = .stateWriteMomentum via p ∧ p.hdr.aux = 2) :
    exec c s = .next (settle k (writeQty k p.hdr.aux.toNat u)) := by
  rcases hc with ⟨rfl, hqty⟩ | ⟨rfl, hqty⟩
  · exact congrArg Host.Outcome.next ((stateWrite_row ha hop (by simp [hqty])).trans
      (by simp [stateWriteCore, writeWeights, Ctx.h, accepted_pkt ha, hqty]))
  · exact congrArg Host.Outcome.next ((stateWrite_row ha hop (by simp [hqty])).trans
      (by simp [stateWriteCore, writeMomentum, Ctx.h, accepted_pkt ha, hqty]))

theorem exec_stateWriteWeightBlocks (hqty : p.hdr.aux = 4) :
    exec (.stateWriteWeightBlocks via p) s = .next (settle k (writeBlocks k u)) :=
  congrArg Host.Outcome.next ((stateWrite_row ha hop (by simp [hqty])).trans
    (by simp [stateWriteCore, Ctx.h, accepted_pkt ha, hqty]))

end

/-- R237, R258: what a table that is installed leaves. -/
theorem answers_installed {c : Instr} {s u v z : State} {k : Ctx} {job req : Nat} {b : Bytes} {l : List TrayId}
    {a : List (Nat × Nat × Nat)} (hv : v = dropJobLoad u job (0, 0, 0)) (hz : reserveAreas v req a = some (z, l))
    (hx : exec c s = .next (settle k (completeNow (installTable z job req b l) k []))) :
    Answers c s (fun t => (jobOf t job).tab = some
      { digest := digestOf b, strict := bit (byteAt b 8) 2, mats := (tableEntries b).map parseMatrix, req := req, trays := l } ∧
      (jobOf t job).epoch = (jobOf u job).epoch ∧ t.mem = u.mem) := by
  subst hv
  have htrays := onlyChanges_reserveAreas hz
  refine answers_completed hx fun w hw => ?_
  rw [jobOf_of_onlyChanges hw (by decide), installTable, jobOf_setJob]
  have hjob := (jobOf_of_onlyChanges htrays (by decide) job).trans (jobOf_dropJobLoad u job _)
  exact ⟨rfl, (congrArg Job.epoch hjob :), (hw .mem (by decide)).trans (htrays .mem (by decide))⟩

/-- R241: what a chunk of a quantity that is stored leaves. -/
theorem answers_chunkWritten {c : Instr} {s u : State} {k : Ctx} {job a t base size n i : Nat} {m : Matrix} {b : Bytes}
    {q : Nat × Nat × Nat}
    (hx : exec c s = .next (settle k (completeNow (chunkWritten (storeMem u a b) job m q t base size n i) k []))) :
    Answers c s (fun w => w.mem = memPut u.mem a b ∧ (jobOf w job).epoch = (jobOf u job).epoch ∧
      (∀ j', j' ≠ job → jobOf w j' = jobOf u j') ∧
      ((addLoad u job q n i []).full = true → q ∈ (jobOf w job).written) ∧
      ((addLoad u job q n i []).full = false → (mget? (jobLoad w job q).chunks i).isSome = true)) := by
  refine answers_completed hx fun w hw => ?_
  have hjob : ∀ j, jobOf w j = jobOf (chunkWritten (storeMem u a b) job m q t base size n i) j :=
    jobOf_of_onlyChanges hw (by decide)
  have hstored : ∀ j, jobOf (storeMem u a b) j = jobOf u j := jobOf_of_onlyChanges (onlyChanges_storeMem u a b) (by decide)
  have hload := addLoad_of_jobOf (hstored job) q n i []
  refine ⟨?_, ?_, fun j' hj => ?_, fun hfull => ?_, fun hpart => ?_⟩
  · exact (hw .mem (by decide)).trans ((onlyChanges_chunkWritten _ _ _ _ _ _ _ _ _ .mem (by decide)).trans (mem_storeMem u a b))
  · rw [hjob, epoch_chunkWritten, hstored]
  · rw [hjob, jobOf_chunkWritten_ne _ _ _ _ _ _ _ _ _ hj, hstored]
  · rw [hjob, chunkWritten_full _ _ _ _ _ _ _ _ _ (hload ▸ hfull)]
    exact List.mem_cons_self
  · rw [jobLoad, hjob, chunkWritten_part _ _ _ _ _ _ _ _ _ (hload ▸ hpart), mget_mset_same, mget?_addLoad]
    rfl

/-- Settles O42: each quantity by what its function makes of a chunk, and of the last one. -/
theorem stateWrites : Obligations.StateWrites := by
  intro s via p k u ha hop job j i n
  obtain rfl := accepted_pkt ha
  refine ⟨fun hq hty harg he hi => ?_, fun m hm hhome hidle he => ⟨?_, fun hq hty hw hi hlen => ?_⟩⟩
  · have hx := exec_stateWriteTable ha hop hq
    exact ⟨fun hb => settles hx (writeTable_collects hty harg he hi hb),
      fun hb hbad => settles hx (writeTable_refuses hty harg he hi hb hbad),
      fun hb hok hnone hidle z l hz => answers_installed rfl hz
        (settles hx (writeTable_installs hty harg he hi hb hok hnone hidle hz))⟩
  · intro c hc t base hty hn hi hlen
    have hx := exec_stateWriteQty ha hop (hc.imp_right fun h => ⟨h.1, h.2.1⟩)
    have hone : (k.pkt.hdr.aux.toNat = 1) = (k.pkt.hdr.aux = 1) :=
      propext ⟨fun h => BitVec.eq_of_toNat_eq h, fun h => by rw [h]; rfl⟩
    have hrule : k.pkt.hdr.aux.toNat = 2 → m.rule ≠ 1 := fun h2 => hc.elim (fun h => by simp [h.2] at h2) (·.2.2)
    exact answers_chunkWritten (settles hx
      (writeQty_stores hm hhome hidle he (by simp only [t, hone]) hty (base := base) (by simp only [base, hone]; rfl) hrule hn
        hi hlen))
  · have hx := exec_stateWriteWeightBlocks ha hop hq
    have hcollect := writeBlocks_takes hm hhome hidle he hty hw hi hlen rfl rfl
    have hlast := fun hb => settles hx (hcollect.trans (if_pos hb))
    exact ⟨fun hb => settles hx (hcollect.trans (if_neg (Bool.eq_false_iff.1 hb))), hlast,
      fun hb y hy => settles (hlast hb) (checkImage_badCheck hy),
      fun hb hok y hy => settles (hlast hb) (checkImage_badSequence hok hy)⟩

end Sys2Proof.StateWriting
end

section
/-! PROOFS. State records that come by the site fabric (R250), and the settlement of O43. State records come to the state-record
port, which is the command port plus 2. The statement's arrival, `StateIn`, asks of a datagram that it came to the peer port, which
is the command port plus 1 and belongs to the reduction records. The model drops a state record there as foreign and counts it, so no
site datagram that the statement speaks of is taken. A record that comes by a link has no port. -/
namespace Sys2Proof.StateRecordPorts
open Sys2Proof Sys2Proof.Machine

/-- R149, R250: no datagram is for both ports. -/
theorem conforms_statePort_of_peerPort {s : State} {d : Dgram} (h : d.conforms (peerPort s) = true) :
    d.conforms (statePort s) = false := by
  have hport : d.dstPort.toNat = s.fab.net.port + 1 := by simpa [peerPort] using (Bool.and_eq_true_iff.1 h).2
  simp [Dgram.conforms, statePort, hport]

/-- R149, R250: what is taken at the peer port is foreign at the state-record port. -/
theorem takeIn_statePort_of_peerPort {s u : State} {d : Dgram} {n : Nat} {b : LUnit}
    (h : takeIn s (.site d) (peerPort s) n b = (u, true)) :
    takeIn s (.site d) (statePort s) n b = (count s (fportOf d.port) 0 1, false) := by
  have hpeer : d.conforms (peerPort s) = true := by
    cases hd : d.conforms (peerPort s) with
    | true => rfl
    | false => simp [takeIn, peerIn, hd] at h
  simp [takeIn, peerIn, conforms_statePort_of_peerPort hpeer]

/-- R250: a FETCH_END in a site datagram as the statement has it arrive is dropped and counted. -/
theorem exec_fetchEndRx_peerPort {s u : State} {d : Dgram} {r : StRec} (h : StateIn s (.site d) r u) (hkind : r.hdr.kind = 6) :
    exec (.fetchEndRx (.site d) r) s = .next (count s (fportOf d.port) 0 1) := by
  refine congrArg Host.Outcome.next ?_
  simp [onState, hkind, takeIn_statePort_of_peerPort h.1]

/-! ## The counterexample -/

/-- Gateway (1, 2), which is number 66, as reset leaves it otherwise. -/
def gateway66 : State :=
  { State.reset with fab := { State.reset.fab with net := { State.reset.fab.net with number := some (1, 2) } } }

/-- A datagram of gateway 67 on device port 0 to the peer port. -/
def toPeerPort : Dgram := ⟨0, true, 0, 5, false, false, 0, true, 4000, 47445, 72, true⟩

/-- R251: a FETCH_END of gateway 67 with SUCCESS, which changes nothing where it is taken. -/
def fetchEnded : StRec :=
  sealSt ⟨{ sver := 1, kind := 6, qty := 1, flags := 0, srcGw := 67, dstGw := 66, job := 1, elemType := 1, rsvd1 := 0, epoch := 3,
            matrix := 4, chunkIndex := 0, chunkCount := 0, payloadLen := 0, status := 0, tag := 9, rsvd2 := 0, valueCheck := 0,
            check := 0 }, []⟩

/-- No policer is set at reset, so the arrival leaves the state as it was. -/
theorem stateIn_toPeerPort : StateIn gateway66 (.site toPeerPort) fetchEnded gateway66 := by
  refine ⟨rfl, ?_, ?_, ?_⟩ <;> decide +kernel

/-- Refutes O43: a FETCH_END with SUCCESS, said to change nothing, is dropped at the peer port and counted there. -/
theorem not_stateRecords : ¬ Obligations.StateRecords := by
  unfold Obligations.StateRecords
  rintro ⟨harrives, -⟩
  obtain ⟨-, -, -, -, -, -, hfetchEnd⟩ := harrives _ _ _ _ stateIn_toPeerPort
  have hkept := (hfetchEnd (by decide)).1 (by decide)
  have hsame : count gateway66 (fportOf 0) 0 1 = gateway66 :=
    Host.Outcome.next.inj ((exec_fetchEndRx_peerPort stateIn_toPeerPort (by decide)).symm.trans hkept)
  exact absurd (congrArg State.ctr hsame) (by decide)

end Sys2Proof.StateRecordPorts
end

section
/-! PROOFS. Decode tables (R268 to R272, R280): what taking, building and retiring a table does to the slots of the tiles, and the
settlement of O45. -/
namespace Sys2Proof.DecodeTables
open Sys2Proof Sys2Proof.Machine Sys2Proof.Laws Sys2Proof.RegisterWrites Sys2Proof.AcceptedPackets Sys2Proof.RaisedCodes
  Sys2Proof.Results

/-! ## Slots (R270) -/

theorem onlyChanges_tdec (s : State) (x : Tdec) : OnlyChanges [.tdec] s { s with tdec := x } := by
  intro p hp
  cases p <;> first | rfl | simp at hp

/-- The loads of the decoders set. -/
def withLoads (s : State) (ls : List TLoad) : State := { s with tdec := { s.tdec with loads := ls } }

theorem onlyChanges_withLoads (s : State) (ls : List TLoad) : OnlyChanges [.tdec] s (withLoads s ls) := onlyChanges_tdec s _

theorem tslot_withLoads (s : State) (ls : List TLoad) (y : Fin 64) (j : Nat) : tslot (withLoads s ls) y j = tslot s y j := rfl

theorem onlyChanges_setTslot (s : State) (t : Fin 64) (i : Nat) (x : TSlot) : OnlyChanges [.tdec] s (setTslot s t i x) :=
  onlyChanges_tdec s _

@[simp] theorem tslot_setTslot_same (s : State) (t : Fin 64) (i : Nat) (x : TSlot) : tslot (setTslot s t i x) t i = x :=
  mget_mset_same _ _ _ _

theorem tslot_setTslot_ne (s : State) {t y : Fin 64} {i j : Nat} (x : TSlot) (h : (y, j) ≠ (t, i)) :
    tslot (setTslot s t i x) y j = tslot s y j := mget_mset_ne _ _ _ h


/-- What leaves the decoders leaves every slot. -/
theorem tslot_of_onlyChanges {ps : List Part} {s t : State} (h : OnlyChanges ps s t) (hp : Part.tdec ∉ ps) (y : Fin 64) (j : Nat) :
    tslot t y j = tslot s y j := congrArg (fun x : Tdec => mget x.slots (y, j) TSlot.reset) (h .tdec hp)

theorem tslot_raise (s : State) (pg : PageId) (code info : Nat) (y : Fin 64) (j : Nat) :
    tslot (raise s pg code info) y j = tslot s y j := tslot_of_onlyChanges (onlyChanges_raise s pg code info) (by decide) y j

/-- R270, R272: a slot that is not RETIRING, or is referenced, stays. -/
theorem freeIfIdle_stays {s : State} {t : Fin 64} {i : Nat} (h : (tslot s t i).st = .retiring → (tslot s t i).refs ≠ 0) :
    freeIfIdle s t i = s := if_neg (by simpa using h)

/-- R270, R272: a RETIRING slot without references is freed, and the freeing recorded. -/
theorem freeIfIdle_frees {s : State} {t : Fin 64} {i : Nat} (hst : (tslot s t i).st = .retiring) (hrefs : (tslot s t i).refs = 0) :
    freeIfIdle s t i = raise (setTslot s t i TSlot.reset) (.tdec t) 0x0A01 0 := if_pos (by simp [hst, hrefs])

theorem tslot_freeIfIdle_ne (s : State) {t y : Fin 64} {i j : Nat} (h : (y, j) ≠ (t, i)) :
    tslot (freeIfIdle s t i) y j = tslot s y j := by
  by_cases hidle : (tslot s t i).st = .retiring ∧ (tslot s t i).refs = 0
  · rw [freeIfIdle_frees hidle.1 hidle.2, tslot_raise, tslot_setTslot_ne _ _ h]
  · rw [freeIfIdle_stays (not_and.1 hidle)]

/-- R270: only a RESIDENT slot retires. -/
theorem retireSlot_of_not_resident {s : State} {t : Fin 64} {i : Nat} (h : (tslot s t i).st ≠ .resident) : retireSlot s t i = s :=
  if_neg h

/-- R270: a RESIDENT slot that is referenced becomes RETIRING. -/
theorem retireSlot_of_refs {s : State} {t : Fin 64} {i : Nat} (h : (tslot s t i).st = .resident) (hrefs : (tslot s t i).refs ≠ 0) :
    retireSlot s t i = setTslot s t i { tslot s t i with st := .retiring } := by
  rw [retireSlot, if_pos h, freeIfIdle_stays]
  simpa using hrefs

/-- R270, R272: a RESIDENT slot without references becomes FREE. -/
theorem retireSlot_of_unreferenced {s : State} {t : Fin 64} {i : Nat} (h : (tslot s t i).st = .resident)
    (hrefs : (tslot s t i).refs = 0) : retireSlot s t i =
      raise (setTslot (setTslot s t i { tslot s t i with st := .retiring }) t i TSlot.reset) (.tdec t) 0x0A01 0 := by
  rw [retireSlot, if_pos h, freeIfIdle_frees] <;> simp [hrefs]

theorem tslot_retireSlot_ne (s : State) {t y : Fin 64} {i j : Nat} (h : (y, j) ≠ (t, i)) :
    tslot (retireSlot s t i) y j = tslot s y j := by
  by_cases hst : (tslot s t i).st = .resident
  · rw [retireSlot, if_pos hst, tslot_freeIfIdle_ne _ h, tslot_setTslot_ne _ _ h]
  · rw [retireSlot_of_not_resident hst]

/-! ## TDEC_RETIRE (R280) -/

/-- R280: a write of TDEC_RETIRE by an agent with the right changes the page, and retires the slot. -/
theorem exec_tdecRetire {s : State} {ag : Agent} {t : Fin 64} (h : Writable s ag (.tdec t)) (i : Fin 8) :
    ∃ v, OnlyPage (.tdec t) s v ∧ exec (.tdecRetire ag t i) s = .next (retireSlot v t i.val) := by
  obtain ⟨v, hwrite, hwrote⟩ := writeField_wrote s ag (.tdec t) 0x48 (i.val + 0x100) (reg 0x48 [wo 2 0, wo 8 8]) rfl h.2 rfl rfl
    (by decide)
  have hpage := pageWrite_accepted s ag (.tdec t) 0x48 (i.val + 0x100) _ h.1 h.2 (by decide) (by decide) rfl (by simp [writeReg])
    (by rw [hwrite])
  have hbit : bit (i.val + 0x100) 8 = true := by fin_cases i <;> rfl
  have hslot : (i.val + 0x100) % 8 = i.val := by omega
  refine ⟨v, hwrote.1, congrArg Host.Outcome.next (hpage.trans ?_)⟩
  simp [hwrite, afterWrite, hbit, hslot]

section
variable {s : State} {ag : Agent} {t : Fin 64} {i : Fin 8} (h : Writable s ag (.tdec t))
include h

theorem tdecRetire_of_refs (hst : (tslot s t i.val).st = .resident) (hrefs : (tslot s t i.val).refs ≠ 0) :
    Answers (.tdecRetire ag t i) s fun u =>
      tslot u t i.val = { tslot s t i.val with st := .retiring } ∧ OnlyChanges [.tdec, .pages] s u := by
  obtain ⟨v, honly, hexec⟩ := exec_tdecRetire h i
  rw [← tslot_of_onlyChanges honly.1 (by decide)] at hst hrefs ⊢
  refine ⟨_, hexec, ?_⟩
  rw [retireSlot_of_refs hst hrefs]
  exact ⟨tslot_setTslot_same _ _ _ _, onlyChanges_mono (onlyChanges_trans honly.1 (onlyChanges_setTslot _ _ _ _)) (by simp)⟩

theorem tdecRetire_of_unreferenced (hst : (tslot s t i.val).st = .resident) (hrefs : (tslot s t i.val).refs = 0) :
    Answers (.tdecRetire ag t i) s fun u => tslot u t i.val = TSlot.reset ∧ (pageOf u (.tdec t)).classSeen.getLsbD 0 = true := by
  obtain ⟨v, honly, hexec⟩ := exec_tdecRetire h i
  rw [← tslot_of_onlyChanges honly.1 (by decide)] at hst hrefs
  refine ⟨_, hexec, ?_⟩
  rw [retireSlot_of_unreferenced hst hrefs]
  exact ⟨by rw [tslot_raise, tslot_setTslot_same], seen_raise _ _ (code := 0x0A01) (by decide) 0⟩

theorem tdecRetire_of_not_resident (hst : (tslot s t i.val).st ≠ .resident) :
    Answers (.tdecRetire ag t i) s fun u => OnlyPage (.tdec t) s u := by
  obtain ⟨v, honly, hexec⟩ := exec_tdecRetire h i
  rw [← tslot_of_onlyChanges honly.1 (by decide)] at hst
  exact ⟨_, hexec, by rwa [retireSlot_of_not_resident hst]⟩

end

/-! ## A load begins (R271) -/

/-- A slot set alike in a list of tiles. -/
def setTslots (l : List (Fin 64)) (i : Nat) (z : TSlot) (s : State) : State := l.foldl (fun s t => setTslot s t i z) s

theorem onlyChanges_setTslots (l : List (Fin 64)) (i : Nat) (z : TSlot) (s : State) : OnlyChanges [.tdec] s (setTslots l i z s) :=
  CommitsAndEpochs.onlyChanges_foldl (fun s t => onlyChanges_setTslot s t i z) l s

theorem loads_setTslots (l : List (Fin 64)) (i : Nat) (z : TSlot) (s : State) : (setTslots l i z s).tdec.loads = s.tdec.loads := by
  induction l generalizing s with
  | nil => rfl
  | cons t l ih => exact ih _

theorem tslot_setTslots_ne {l : List (Fin 64)} {i : Nat} (z : TSlot) (s : State) {y : Fin 64} {j : Nat} (h : y ∉ l ∨ j ≠ i) :
    tslot (setTslots l i z s) y j = tslot s y j := by
  induction l generalizing s with
  | nil => rfl
  | cons t l ih =>
    have hne : (y, j) ≠ (t, i) := fun he => by simp_all
    exact (ih _ (h.imp_left fun hy hm => hy (.tail _ hm))).trans (tslot_setTslot_ne _ _ hne)

theorem tslot_setTslots_mem {l : List (Fin 64)} (i : Nat) (z : TSlot) (s : State) {y : Fin 64} (h : y ∈ l) :
    tslot (setTslots l i z s) y i = z := by
  induction l generalizing s with
  | nil => cases h
  | cons t l ih =>
    by_cases hl : y ∈ l
    · exact ih _ hl
    · obtain rfl | hy := List.mem_cons.1 h
      · exact (tslot_setTslots_ne z _ (.inl hl)).trans (tslot_setTslot_same _ _ _ _)
      · exact absurd hy hl

/-- R271: a load that has taken its slot: the slot is LOADING in every tile of the mask, and the load joins the list. -/
def begun (s : State) (l : TLoad) (i : Nat) : State :=
  let v := setTslots (maskTiles l.mask) i ⟨.loading, l.gen, 0, l.sym⟩ s
  withLoads v (v.tdec.loads.concat { l with slot := i })

theorem onlyChanges_begun (s : State) (l : TLoad) (i : Nat) : OnlyChanges [.tdec] s (begun s l i) :=
  onlyChanges_then (onlyChanges_setTslots _ _ _ _) (onlyChanges_withLoads _ _)

theorem loads_begun (s : State) (l : TLoad) (i : Nat) : (begun s l i).tdec.loads = s.tdec.loads ++ [{ l with slot := i }] := by
  simp [begun, withLoads, loads_setTslots]

theorem tslot_begun_mem (s : State) {l : TLoad} (i : Nat) {y : Fin 64} (h : y ∈ maskTiles l.mask) :
    tslot (begun s l i) y i = ⟨.loading, l.gen, 0, l.sym⟩ := tslot_setTslots_mem i _ s h

theorem tslot_begun_ne (s : State) {l : TLoad} {i : Nat} {y : Fin 64} {j : Nat} (h : y ∉ maskTiles l.mask ∨ j ≠ i) :
    tslot (begun s l i) y j = tslot s y j := tslot_setTslots_ne _ s h

section
variable {s : State} {l : TLoad}

/-- R271: a generation in use refuses the load. -/
theorem beginLoad_of_inUse (h : genInUse s l.mask l.gen = true) : beginLoad s l = .inr 0x2306 := if_pos h

/-- R271: without a slot that is FREE in every tile of the mask the load is refused. -/
theorem beginLoad_of_full (h : genInUse s l.mask l.gen = false) (hfree : freeIn s l.mask = none) : beginLoad s l = .inr 0x2305 := by
  simp [beginLoad, h, hfree]

/-- R271: otherwise the load takes the lowest such slot. -/
theorem beginLoad_of_free {i : Nat} (h : genInUse s l.mask l.gen = false) (hfree : freeIn s l.mask = some i) :
    beginLoad s l = .inl (begun s l i) := by
  simp [beginLoad, h, hfree, begun, withLoads, setTslots]

/-- R271: what beginning a load can answer. -/
theorem beginLoad_cases (s : State) (l : TLoad) :
    (∃ code, beginLoad s l = .inr code) ∨ ∃ i, freeIn s l.mask = some i ∧ beginLoad s l = .inl (begun s l i) := by
  cases h : genInUse s l.mask l.gen with
  | true => exact .inl ⟨_, beginLoad_of_inUse h⟩
  | false =>
    cases hfree : freeIn s l.mask with
    | none => exact .inl ⟨_, beginLoad_of_full h hfree⟩
    | some i => exact .inr ⟨i, rfl, beginLoad_of_free h hfree⟩

/-- R271: the slot found is FREE in every tile of the mask. -/
theorem free_of_freeIn {m i : Nat} (h : freeIn s m = some i) {y : Fin 64} (hy : y ∈ maskTiles m) : (tslot s y i).st = .free := by
  have hall := List.find?_some h
  simpa using List.all_eq_true.1 hall y hy

/-- A slot that is not FREE is not taken. -/
theorem tslot_begun_of_not_free {i : Nat} (hfree : freeIn s l.mask = some i) {y : Fin 64} {j : Nat} (h : (tslot s y j).st ≠ .free) :
    tslot (begun s l i) y j = tslot s y j := by
  refine tslot_begun_ne s ?_
  by_contra hc
  obtain ⟨hy, rfl⟩ : y ∈ maskTiles l.mask ∧ j = i := by simpa using hc
  exact h (free_of_freeIn hfree hy)

end

/-! ## TABLE_LOAD (R268, R271) -/

/-- The load that a TABLE_LOAD asks for. -/
def loadOf (k : Ctx) : TLoad :=
  ⟨k.seq, k.org, k.h, k.h.arg1.toNat, k.h.arg0.toNat, beAt k.pkt.payload 6 2, k.pkt.payload.drop 16, 8⟩

/-- R268: a TABLE_LOAD of one chunk whose payload is a table, for tiles that are not quarantined. -/
structure TableGiven (u : State) (p : Packet) : Prop where
  index : p.hdr.chunkIndex = 0
  count : p.hdr.chunkCount = 1
  length : p.payload.length = 4112
  magic : beAt p.payload 0 4 = 0x42544142
  version : byteAt p.payload 4 = 1
  log : byteAt p.payload 5 = 12
  reserved : (slice p.payload 8 8).any (· != 0) = false
  gen : p.hdr.arg0 ≠ 0
  mask : p.hdr.arg1 ≠ 0
  healthy : ∀ t ∈ maskTiles p.hdr.arg1.toNat, quarantined u t.val = false

section
variable {u : State} {k : Ctx} (h : TableGiven u k.pkt)
include h

/-- R268: none of the refusals of a TABLE_LOAD's fields stands. -/
theorem TableGiven.fieldsOk : (decide (beAt k.pkt.payload 0 4 ≠ 0x42544142) || decide (byteAt k.pkt.payload 4 ≠ 1) ||
    decide (byteAt k.pkt.payload 5 ≠ 12) || (slice k.pkt.payload 8 8).any (· != 0) || decide (k.h.arg0 = 0) ||
    decide (k.h.arg1.toNat = 0) || (maskTiles k.h.arg1.toNat).any (fun t => quarantined u t.val)) = false := by
  have hmask : k.h.arg1.toNat ≠ 0 := fun hz => h.mask (BitVec.eq_of_toNat_eq hz)
  have hhealthy : (maskTiles k.h.arg1.toNat).any (fun t => quarantined u t.val) = false :=
    List.any_eq_false.2 fun t ht => by simp [h.healthy t ht]
  have hgen : k.h.arg0 ≠ 0 := h.gen
  simp only [h.magic, h.version, h.log, h.reserved, hgen, hmask, hhealthy]
  rfl

/-- R271: the load begins or is refused while no other load is built, and waits its turn while one is. -/
theorem tableLoad_of_given : tableLoad k u =
    if u.tdec.loads.isEmpty then (beginLoad u (loadOf k)).elim (·, .taken) (u, .refuse ·)
    else (withLoads u (u.tdec.loads.concat (loadOf k)), .taken) := by
  have hindex : k.h.chunkIndex = 0 := h.index
  have hcount : k.h.chunkCount = 1 := h.count
  have hfields := h.fieldsOk
  simp only [tableLoad, hindex, hcount, h.length, hfields]
  rw [if_neg (by decide), if_neg (by decide), if_neg (by decide)]
  refine ite_congr rfl (fun _ => ?_) fun _ => rfl
  cases hb : beginLoad u (loadOf k) <;> (rw [loadOf] at hb; rw [hb]; rfl)

theorem tableLoad_of_idle (hidle : u.tdec.loads = []) :
    tableLoad k u = (beginLoad u (loadOf k)).elim (·, .taken) (u, .refuse ·) := by
  rw [tableLoad_of_given h, if_pos (by simp [hidle])]

theorem tableLoad_of_building (hbusy : u.tdec.loads ≠ []) :
    tableLoad k u = (withLoads u (u.tdec.loads.concat (loadOf k)), .taken) := by
  rw [tableLoad_of_given h, if_neg (by simpa using hbusy)]

end

section
variable {s : State} {via : Via} {k : Ctx} {u : State} (h : Accepted s via k.pkt k u) (hop : k.pkt.hdr.opcode = 7)
include h hop

/-- R91: an accepted TABLE_LOAD is served and settled. -/
theorem exec_tableLoad : exec (.tableLoad via k.pkt) s = .next (settle k (tableLoad k u)) := by
  have hserve : serve k u = tableLoad k u := by simp [serve, Ctx.h, hop]
  exact congrArg Host.Outcome.next ((rowPacket_of_accepted h (by simp [opIs, hop])).trans (by rw [hserve]))

variable (hp : TableGiven u k.pkt)
include hp

/-- R271: a TABLE_LOAD that cannot begin is refused. -/
theorem tableLoad_refused {code : Nat} (hidle : u.tdec.loads = []) (hb : beginLoad u (loadOf k) = .inr code) :
    exec (.tableLoad via k.pkt) s = .next (settle k (u, .refuse code)) := by
  rw [exec_tableLoad h hop, tableLoad_of_idle hp hidle, hb]
  rfl

/-- R271: a TABLE_LOAD that begins is LOADING in its slot in every tile of its mask. -/
theorem tableLoad_begins {i : Nat} (hidle : u.tdec.loads = []) (hgen : genInUse u k.pkt.hdr.arg1.toNat k.pkt.hdr.arg0.toNat = false)
    (hfree : freeIn u k.pkt.hdr.arg1.toNat = some i) : Answers (.tableLoad via k.pkt) s fun t =>
      (∀ x ∈ maskTiles k.pkt.hdr.arg1.toNat, tslot t x i = ⟨.loading, k.pkt.hdr.arg0.toNat, 0, k.pkt.payload.drop 16⟩) ∧
      (∀ x j, (x ∉ maskTiles k.pkt.hdr.arg1.toNat ∨ j ≠ i) → tslot t x j = tslot u x j) ∧
      (∃ l, t.tdec.loads = [l] ∧ l.slot = i ∧ l.mask = k.pkt.hdr.arg1.toNat ∧ l.gen = k.pkt.hdr.arg0.toNat ∧
        l.retire = beAt k.pkt.payload 6 2) ∧ t.mem = u.mem := by
  have hserve : tableLoad k u = (begun u (loadOf k) i, .taken) := by
    rw [tableLoad_of_idle hp hidle, beginLoad_of_free hgen hfree]
    rfl
  have hsettle := onlyChanges_settle k (begun u (loadOf k) i, .taken)
  refine ⟨_, (exec_tableLoad h hop).trans (by rw [hserve]), fun x hx => ?_, fun x j hx => ?_,
    ⟨{ loadOf k with slot := i }, ?_, rfl, rfl, rfl, rfl⟩, ?_⟩
  · rw [tslot_of_onlyChanges hsettle (by decide), tslot_begun_mem u i hx]
    rfl
  · rw [tslot_of_onlyChanges hsettle (by decide), tslot_begun_ne u hx]
  · rw [hsettle .tdec (by decide), loads_begun, hidle]
    rfl
  · exact (hsettle .mem (by decide)).trans (onlyChanges_begun u _ i .mem (by decide))

/-- R271: a TABLE_LOAD that waits its turn stands last among the loads and has no slot yet. -/
theorem tableLoad_waits (hbusy : u.tdec.loads ≠ []) : Answers (.tableLoad via k.pkt) s fun t =>
    ∃ l, t.tdec.loads = u.tdec.loads ++ [l] ∧ l.mask = k.pkt.hdr.arg1.toNat ∧ l.gen = k.pkt.hdr.arg0.toNat ∧ l.slot = 8 ∧
      t.tdec.slots = u.tdec.slots := by
  have hsettle : (settle k (withLoads u (u.tdec.loads.concat (loadOf k)), .taken)).tdec = _ :=
    onlyChanges_settle k _ .tdec (by decide)
  refine ⟨_, (exec_tableLoad h hop).trans (by rw [tableLoad_of_building hp hbusy]), loadOf k, ?_, rfl, rfl, rfl, ?_⟩
  · rw [hsettle]
    exact List.concat_eq_append
  · rw [hsettle]
    rfl

end

/-! ## TABLE_BUILD_DONE (R270, R271) -/

/-- R271: the slots of a tile that hold a load's RETIRE_GEN. -/
def retirees (s : State) (l : TLoad) (t : Fin 64) : List Nat :=
  (List.range 8).filter fun i => l.retire != 0 && (tslot s t i).gen == l.retire

/-- R270, R271: the slots of a tile that hold a load's RETIRE_GEN retired. -/
def retireGen (s : State) (l : TLoad) (t : Fin 64) : State := (retirees s l t).foldl (fun s i => retireSlot s t i) s

/-- R270, R271: a tile whose table is built. -/
def builtIn (l : TLoad) (s : State) (t : Fin 64) : State :=
  let e := l.slot * 65536 + l.gen
  let s := retireGen s l t
  let s := setTslot s t l.slot { tslot s t l.slot with st := .resident }
  let s := { s with tdec := { s.tdec with lastGen := mset s.tdec.lastGen t e } }
  calm (setPage s (.tdec t) { (pageOf s (.tdec t)).apply e with cfgEpoch := BitVec.ofNat 32 e }) (.tdec t)

/-- R271: the state in which a load's table is built in every tile of its mask. -/
def built (s : State) (l : TLoad) (rest : List TLoad) : State :=
  (maskTiles l.mask).foldl (builtIn l) (withLoads s rest)

/-- R271: a built load completed. -/
def loadEnded (s : State) (l : TLoad) : State :=
  markDone (sendTo s l.org .mgmt { echo l.hdr 0 with arg0 := BitVec.ofNat 32 l.slot } []) (fun f => f.seq == l.seq) 0

theorem exec_tableBuildDone {s : State} {l : TLoad} {rest : List TLoad} (h : s.tdec.loads = l :: rest) (hslot : l.slot < 8) :
    ∃ n, exec .tableBuildDone s = .next (nextLoad n (loadEnded (built s l rest) l)) := by
  have hlt : ¬ l.slot ≥ 8 := by omega
  change ∃ n, execTableBuildDone s = _
  simp only [execTableBuildDone, h, hlt, if_false]
  exact ⟨_, rfl⟩

theorem tslot_foldl_retireSlot_tile_ne {t y : Fin 64} (hy : y ≠ t) (is : List Nat) (s : State) (j : Nat) :
    tslot (is.foldl (fun s i => retireSlot s t i) s) y j = tslot s y j := by
  induction is generalizing s with
  | nil => rfl
  | cons i is ih => exact (ih _).trans (tslot_retireSlot_ne s fun he => hy (congrArg Prod.fst he))

/-- R270: slots that are not RESIDENT do not retire. -/
theorem tslot_foldl_retireSlot_of_not_resident {t : Fin 64} (is : List Nat) {s : State} {j : Nat}
    (h : (tslot s t j).st ≠ .resident) :
    tslot (is.foldl (fun s i => retireSlot s t i) s) t j = tslot s t j := by
  induction is generalizing s with
  | nil => rfl
  | cons i is ih =>
    have hkeep : tslot (retireSlot s t i) t j = tslot s t j := by
      by_cases hij : j = i
      · subst hij
        rw [retireSlot_of_not_resident h]
      · exact tslot_retireSlot_ne s fun he => hij (congrArg Prod.snd he)
    exact (ih (by rwa [hkeep])).trans hkeep

/-- R270: a RESIDENT slot that is referenced becomes RETIRING among those that retire. -/
theorem retiring_foldl_retireSlot {t : Fin 64} {is : List Nat} {s : State} {j : Nat} (hj : j ∈ is)
    (hst : (tslot s t j).st = .resident) (hrefs : (tslot s t j).refs ≠ 0) :
    (tslot (is.foldl (fun s i => retireSlot s t i) s) t j).st = .retiring := by
  induction is generalizing s with
  | nil => cases hj
  | cons i is ih =>
    by_cases hij : j = i
    · subst hij
      have hslot : (tslot (retireSlot s t j) t j).st = .retiring := by rw [retireSlot_of_refs hst hrefs, tslot_setTslot_same]
      exact (congrArg TSlot.st (tslot_foldl_retireSlot_of_not_resident is (by simp [hslot]))).trans hslot
    · have hkeep : tslot (retireSlot s t i) t j = tslot s t j := tslot_retireSlot_ne s fun he => hij (congrArg Prod.snd he)
      exact ih (List.mem_of_ne_of_mem hij hj) (by rwa [hkeep]) (by rwa [hkeep])

theorem onlyChanges_calm (s : State) (pg : PageId) : OnlyChanges [.pages] s (calm s pg) :=
  onlyChanges_ite _ (onlyChanges_setPage s pg _) (onlyChanges_refl _ s)

/-- What building does to the slots of the tiles: the old generation retires, and the load's slot becomes RESIDENT. -/
theorem tslot_builtIn (l : TLoad) (s : State) (t y : Fin 64) (j : Nat) :
    tslot (builtIn l s t) y j =
      tslot (setTslot (retireGen s l t) t l.slot { tslot (retireGen s l t) t l.slot with st := .resident }) y j := by
  unfold builtIn
  rw [tslot_of_onlyChanges (onlyChanges_calm _ _) (by decide), tslot_of_onlyChanges (onlyChanges_setPage _ _ _) (by decide)]
  rfl

theorem tslot_builtIn_tile_ne (l : TLoad) (s : State) {t y : Fin 64} (hy : y ≠ t) (j : Nat) :
    tslot (builtIn l s t) y j = tslot s y j := by
  rw [tslot_builtIn, tslot_setTslot_ne _ _ fun he => hy (congrArg Prod.fst he)]
  exact tslot_foldl_retireSlot_tile_ne hy _ s j

/-- R270: the LOADING slot becomes RESIDENT and keeps its table. -/
theorem tslot_builtIn_slot {l : TLoad} {s : State} {t : Fin 64} (h : (tslot s t l.slot).st = .loading) :
    tslot (builtIn l s t) t l.slot = { tslot s t l.slot with st := .resident } := by
  have hkeep : tslot (retireGen s l t) t l.slot = tslot s t l.slot :=
    tslot_foldl_retireSlot_of_not_resident _ (by simp [h])
  rw [tslot_builtIn, tslot_setTslot_same, hkeep]

/-- R270, R271: a RESIDENT slot of the generation that retires, with blocks queued against it, becomes RETIRING. -/
theorem retiring_builtIn {l : TLoad} {s : State} {t : Fin 64} {i : Nat} (hi : i < 8) (hne : i ≠ l.slot) (hretire : l.retire ≠ 0)
    (hgen : (tslot s t i).gen = l.retire) (hst : (tslot s t i).st = .resident) (hrefs : (tslot s t i).refs ≠ 0) :
    (tslot (builtIn l s t) t i).st = .retiring := by
  rw [tslot_builtIn, tslot_setTslot_ne _ _ fun he => hne (congrArg Prod.snd he)]
  exact retiring_foldl_retireSlot (by simp [retirees, hi, hretire, hgen]) hst hrefs

/-- A fold over distinct tiles of a step that reaches one tile's slots: a tile finds its slots as they were, and keeps what its step
makes of them. -/
theorem tslot_foldl_tiles {f : State → Fin 64 → State} (hf : ∀ s t y j, y ≠ t → tslot (f s t) y j = tslot s y j)
    {l : List (Fin 64)} (hl : l.Nodup) {y : Fin 64} (hy : y ∈ l) (s : State) :
    ∃ v, (∀ j, tslot v y j = tslot s y j) ∧ ∀ j, tslot (l.foldl f s) y j = tslot (f v y) y j := by
  have hkeep : ∀ (l : List (Fin 64)) s, y ∉ l → ∀ j, tslot (l.foldl f s) y j = tslot s y j := by
    intro l
    induction l with
    | nil => exact fun _ _ _ => rfl
    | cons t l ih =>
      intro s hy j
      obtain ⟨hne, hl⟩ := List.ne_and_not_mem_of_not_mem_cons hy
      exact (ih _ hl j).trans (hf s t y j hne)
  obtain ⟨a, b, rfl⟩ := List.append_of_mem hy
  have hdisj := List.nodup_append.1 hl
  have ha : y ∉ a := fun hm => hdisj.2.2 y hm y (.head _) rfl
  have hb : y ∉ b := (List.nodup_cons.1 hdisj.2.1).1
  exact ⟨a.foldl f s, hkeep a s ha, fun j => by rw [List.foldl_append, List.foldl_cons, hkeep b _ hb]⟩

theorem nodup_maskTiles (m : Nat) : (maskTiles m).Nodup := (List.nodup_finRange 64).filter _

/-- A tile of the mask after the build. -/
theorem tslot_built (s : State) {l : TLoad} (rest : List TLoad) {y : Fin 64} (hy : y ∈ maskTiles l.mask) :
    ∃ v, (∀ j, tslot v y j = tslot s y j) ∧ ∀ j, tslot (built s l rest) y j = tslot (builtIn l v y) y j :=
  tslot_foldl_tiles (fun s _ _ j hne => tslot_builtIn_tile_ne l s hne j) (nodup_maskTiles _) hy (withLoads s rest)

theorem onlyChanges_loadEnded (s : State) (l : TLoad) : OnlyChanges answerParts s (loadEnded s l) :=
  onlyChanges_mono (onlyChanges_trans (onlyChanges_sendTo _ _ _ _ _) (onlyChanges_markDone _ _ _)) (by simp [answerParts])

/-- R271: a load that waited and cannot begin is answered. -/
def loadRefused (s : State) (l : TLoad) (code : Nat) : State :=
  markDone (sendComplete s l.org l.hdr code []) (fun f => f.seq == l.seq) code

theorem onlyChanges_loadRefused (s : State) (l : TLoad) (code : Nat) : OnlyChanges answerParts s (loadRefused s l code) :=
  onlyChanges_mono (onlyChanges_trans (onlyChanges_sendComplete _ _ _ _ _) (onlyChanges_markDone _ _ _)) (by simp [answerParts])

/-- R271: what the loads that wait do next: nothing, or the first of them is refused and the next one follows, or it begins. -/
theorem nextLoad_succ_cases (n : Nat) (s : State) :
    nextLoad (n + 1) s = s ∨
    (∃ l rest code, nextLoad (n + 1) s = nextLoad n (withLoads (loadRefused (withLoads s []) l code) rest)) ∨
    ∃ l i ls, freeIn (withLoads s []) l.mask = some i ∧ nextLoad (n + 1) s = withLoads (begun (withLoads s []) l i) ls := by
  simp only [nextLoad]
  split
  · exact .inl rfl
  next l rest _ =>
    split
    · exact .inl rfl
    · obtain ⟨code, hb⟩ | ⟨i, hfree, hb⟩ := beginLoad_cases (withLoads s []) l
      · simp only [withLoads] at hb
        rw [hb]
        exact .inr (.inl ⟨l, rest, code, rfl⟩)
      · simp only [withLoads] at hb
        rw [hb]
        exact .inr (.inr ⟨l, i, _, hfree, rfl⟩)

/-- R271: the loads that waited take FREE slots only. -/
theorem tslot_nextLoad (n : Nat) {s : State} {y : Fin 64} {j : Nat} (h : (tslot s y j).st ≠ .free) :
    tslot (nextLoad n s) y j = tslot s y j := by
  induction n generalizing s with
  | zero => rfl
  | succ n ih =>
    obtain hn | ⟨l, rest, code, hn⟩ | ⟨l, i, ls, hfree, hn⟩ := nextLoad_succ_cases n s
    · rw [hn]
    · have hkeep : tslot (withLoads (loadRefused (withLoads s []) l code) rest) y j = tslot s y j :=
        tslot_of_onlyChanges (onlyChanges_loadRefused (withLoads s []) l code) (by decide) y j
      rw [hn, ih (by rwa [hkeep]), hkeep]
    · rw [hn, tslot_withLoads, tslot_begun_of_not_free hfree h, tslot_withLoads]

/-- R270: a slot that the build does not leave FREE is as the build leaves it. -/
theorem tslot_afterBuild {s : State} {l : TLoad} {rest : List TLoad} (n : Nat) {y : Fin 64} {j : Nat}
    (h : (tslot (built s l rest) y j).st ≠ .free) :
    tslot (nextLoad n (loadEnded (built s l rest) l)) y j = tslot (built s l rest) y j := by
  have hkeep := tslot_of_onlyChanges (onlyChanges_loadEnded (built s l rest) l) (by decide) y j
  exact (tslot_nextLoad n (by rwa [hkeep])).trans hkeep

section
variable {s : State} {l : TLoad} {rest : List TLoad} {y : Fin 64} (hy : y ∈ maskTiles l.mask)
include hy

theorem afterBuild_resident (n : Nat) (h : (tslot s y l.slot).st = .loading) :
    tslot (nextLoad n (loadEnded (built s l rest) l)) y l.slot = { tslot s y l.slot with st := .resident } := by
  obtain ⟨v, hv, hbuilt⟩ := tslot_built s rest hy
  have hslot : tslot (built s l rest) y l.slot = { tslot s y l.slot with st := .resident } := by
    rw [hbuilt, tslot_builtIn_slot (by rwa [hv]), hv]
  rw [tslot_afterBuild n (by simp [hslot]), hslot]

theorem afterBuild_retiring (n : Nat) {i : Nat} (hi : i < 8) (hne : i ≠ l.slot) (hretire : l.retire ≠ 0)
    (hgen : (tslot s y i).gen = l.retire) (hst : (tslot s y i).st = .resident) (hrefs : (tslot s y i).refs ≠ 0) :
    (tslot (nextLoad n (loadEnded (built s l rest) l)) y i).st = .retiring := by
  obtain ⟨v, hv, hbuilt⟩ := tslot_built s rest hy
  rw [← hv] at hgen hst hrefs
  have hslot : (tslot (built s l rest) y i).st = .retiring := by
    rw [hbuilt]
    exact retiring_builtIn hi hne hretire hgen hst hrefs
  rw [tslot_afterBuild n (by simp [hslot]), hslot]

end

/-- Settles O45: the loads, the build and the retirement, each from what it does to one slot. -/
theorem decodeTables : Obligations.DecodeTables := by
  unfold Obligations.DecodeTables
  refine ⟨?_, ?_, ?_⟩
  · intro s via p k u h hop hindex hcount hlength hmagic hversion hlog hreserved hgen0 hmask0 hhealthy
    obtain rfl := accepted_pkt h
    have hp : TableGiven u k.pkt := ⟨hindex, hcount, hlength, hmagic, hversion, hlog, hreserved, hgen0, hmask0, hhealthy⟩
    exact ⟨fun hidle hgen => tableLoad_refused h hop hp hidle (beginLoad_of_inUse hgen),
      fun hidle hgen hfree => tableLoad_refused h hop hp hidle (beginLoad_of_full hgen hfree),
      fun i => tableLoad_begins h hop hp, tableLoad_waits h hop hp⟩
  · intro s l rest hloads hslot
    obtain ⟨n, hexec⟩ := exec_tableBuildDone hloads hslot
    refine ⟨_, hexec, fun y hy => ⟨fun hst => ?_, fun i => afterBuild_retiring hy n⟩⟩
    simp [afterBuild_resident hy n hst]
  · exact fun s ag t i h => ⟨tdecRetire_of_refs h, tdecRetire_of_unreferenced h, tdecRetire_of_not_resident h⟩

end Sys2Proof.DecodeTables
end

section
/-! PROOFS. Weight blocks (R265 to R267, R273 to R277): what a block expands to, what the end of a block at a tile's decoder leaves,
and the settlement of O46. -/
namespace Sys2Proof.BlockDecoding
open Sys2Proof Sys2Proof.Machine Sys2Proof.Laws Sys2Proof.RaisedCodes Sys2Proof.Contributions Sys2Proof.SequencerWords
  Sys2Proof.DecodeTables

/-! ## What a block expands to (R274, R275, R277) -/

/-- Bytes no longer than a length, filled up to it. -/
theorem length_padTo {n : Nat} {l : Bytes} (h : l.length ≤ n) : (padTo n l).length = n := by simp [padTo, h]

/-- R275: the decoder puts out one byte a turn, until the bits run out. -/
theorem length_tansLoop (tab : List (Byte × Nat × Nat)) (stream pbits n i : Nat) (st : List Nat) (pos : Nat) (out : Bytes) :
    let r := tansLoop tab stream pbits n i st pos out
    r.1.length ≤ out.length + n ∧ (r.2.2.2 = false → r.1.length = out.length + n) := by
  induction n generalizing i st pos out with
  | zero => exact ⟨le_rfl, fun _ => rfl⟩
  | succ n ih =>
    simp only [tansLoop]
    split
    · exact ⟨Nat.le_add_right _ _, fun h => by cases h⟩
    · have hstep : ∀ x : Byte, (out.concat x).length + n = out.length + (n + 1) := fun x => by
        rw [List.length_concat]
        omega
      rw [← hstep]
      exact ih _ _ _ _

section
variable {b : Bytes} (sym : Bytes)

/-- R277: a block whose CHECK fails expands to zeros. -/
theorem expandBlock_of_badCheck (h : bCheckOk b = false) : expandBlock b sym = (List.replicate (bOut b) 0, 0x2A01) := by
  simp [expandBlock, h]

/-- R277: a block whose fields are out of range expands to zeros. -/
theorem expandBlock_of_badFields (h : bCheckOk b = true) (hf : bFieldsOk b = false) :
    expandBlock b sym = (List.replicate (bOut b) 0, 0x2A02) := by
  simp [expandBlock, h, hf]

/-- R274, R277: a RAW block expands to its payload, cut or filled with zeros to its length. -/
theorem expandBlock_of_raw (h : bCheckOk b = true) (hf : bFieldsOk b = true) (hm : bMode b = 2) :
    expandBlock b sym = (padTo (bOut b) ((b.drop 32).take (bOut b)),
      if bPlen b > bOut b then 0x2303 else if bPlen b < bOut b then 0x2304 else 0) := by
  simp [expandBlock, h, hf, hm]

/-- R265, R266: a well-formed block carries PAYLOAD_LEN bytes. -/
theorem length_payload (hf : bFieldsOk b = true) : (b.drop 32).length = bPlen b := by
  simp only [bFieldsOk, Bool.and_eq_true, beq_iff_eq] at hf
  exact hf.1.2

/-- R274: a RAW block of matching length expands to its payload. -/
theorem expandBlock_of_raw_matching (h : bCheckOk b = true) (hf : bFieldsOk b = true) (hm : bMode b = 2) (hlen : bPlen b = bOut b) :
    expandBlock b sym = (b.drop 32, 0) := by
  have hpayload : (b.drop 32).length = bOut b := (length_payload hf).trans hlen
  have hwhole : (b.drop 32).take (bOut b) = b.drop 32 := List.take_of_length_le hpayload.le
  rw [expandBlock_of_raw sym h hf hm, hwhole, padTo, hpayload]
  simp [hlen]

/-- R275, R277: what a coded block expands to. -/
theorem expandBlock_coded (h : bCheckOk b = true) (hf : bFieldsOk b = true) (hm : bMode b ≠ 2) :
    (expandBlock b sym).1.length = bOut b ∧ (expandBlock b sym).2 ∈ [0, 0x2303, 0x2304] := by
  have hlen := length_tansLoop (buildTable sym) (fromLe (b.drop 32)) (bPbits b) (bOut b) 0
    ((List.range 4).map fun k => bStates b / 4096 ^ k % 4096) 0 []
  simp only [List.length_nil, Nat.zero_add] at hlen
  obtain ⟨hle, hfull⟩ := hlen
  simp only [expandBlock, h, hf, hm, Bool.not_true, Bool.false_eq_true, if_false]
  split
  · exact ⟨length_padTo hle, by simp⟩
  next hend =>
    have hout := hfull (by simpa using hend)
    split <;> exact ⟨hout, by simp⟩

/-- R274, R275, R277: a block expands to OUT_LEN bytes, and fails under a code of class 2 or not at all. -/
theorem expandBlock_length_code (b : Bytes) :
    (expandBlock b sym).1.length = bOut b ∧ (expandBlock b sym).2 ∈ [0, 0x2303, 0x2304, 0x2A01, 0x2A02] := by
  cases h : bCheckOk b with
  | false => simp [expandBlock_of_badCheck sym h]
  | true =>
    cases hf : bFieldsOk b with
    | false => simp [expandBlock_of_badFields sym h hf]
    | true =>
      by_cases hm : bMode b = 2
      · rw [expandBlock_of_raw sym h hf hm]
        refine ⟨length_padTo (List.length_take_le _ _), ?_⟩
        dsimp only
        split
        · simp
        · split <;> simp
      · obtain ⟨hlen, hcode⟩ := expandBlock_coded sym h hf hm
        exact ⟨hlen, (List.sublist_append_left [0, 0x2303, 0x2304] [0x2A01, 0x2A02]).subset hcode⟩

/-- R277, R281: a block's failure is of class 2. -/
theorem codeClass_expandBlock (b : Bytes) : codeClass (expandBlock b sym).2 < 3 ∧
    ((expandBlock b sym).2 ≠ 0 → codeClass (expandBlock b sym).2 = 2) := by
  have hcodes : ∀ c ∈ [0, 0x2303, 0x2304, 0x2A01, 0x2A02], codeClass c < 3 ∧ (c ≠ 0 → codeClass c = 2) := by decide
  exact hcodes _ (expandBlock_length_code sym b).2

end

/-! ## Codes below class 3, and counters (R49, R434, R471) -/

theorem mget_ctr_count_ne (s : State) {pg q : PageId} (i j n : Nat) (h : q ≠ pg) :
    mget (count s pg i n).ctr (q, j) 0 = mget s.ctr (q, j) 0 := by
  unfold count
  split
  · rfl
  · exact mget_mset_ne _ _ _ fun he => h (congrArg Prod.fst he)

/-- R49, R434: an error of a class below 3 is recorded, and may be logged. -/
theorem raise_low_cases (s : State) (pg : PageId) {code : Nat} (hc : codeClass code < 3) (info : Nat) :
    ∃ v, OnlyChanges [.pages, .out, .msix, .clk] s v ∧
      (raise s pg code info = v ∨ ∃ e, raise s pg code info = logPush v e) := by
  unfold raise raiseFor raiseSubj
  extract_lets cls p0 p1 s1 s2 ic sc s3 a lg s4
  have hcls : cls < 3 := hc
  have hibi : s3 = s2 := if_neg (by simp; omega)
  have hset : OnlyChanges [.pages, .clk] s s1 :=
    onlyChanges_mono (onlyChanges_trans (onlyChanges_noteClock s pg) (onlyChanges_setPage _ pg _)) (by simp)
  have hnote : OnlyChanges [.out, .msix] s1 s2 := onlyChanges_ite _ (onlyChanges_notify _ _) (onlyChanges_refl _ _)
  refine ⟨s2, onlyChanges_mono (onlyChanges_trans hset hnote) (by simp), ?_⟩
  rw [if_pos (by simp [hcls]), ← hibi]
  by_cases hlog : lg = true
  · exact .inr ⟨_, if_pos hlog⟩
  · exact .inl (if_neg hlog)

/-- R49, R434: such an error asks the master for nothing. -/
theorem onlyChanges_raise_low (s : State) (pg : PageId) {code : Nat} (hc : codeClass code < 3) (info : Nat) :
    OnlyChanges [.pages, .out, .ctr, .elog, .msix, .clk] s (raise s pg code info) := by
  obtain ⟨v, hv, h | ⟨e, h⟩⟩ := raise_low_cases s pg hc info
  · exact h ▸ onlyChanges_mono hv (by simp)
  · exact h ▸ onlyChanges_mono (onlyChanges_trans hv (onlyChanges_logPush v e)) (by simp)

/-- R434: such an error counts on the log's page alone. -/
theorem mget_ctr_raise_low (s : State) (pg : PageId) {code : Nat} (hc : codeClass code < 3) (info : Nat) {q : PageId}
    (hq : q ≠ .elog) (j : Nat) : mget (raise s pg code info).ctr (q, j) 0 = mget s.ctr (q, j) 0 := by
  obtain ⟨v, hv, h | ⟨e, h⟩⟩ := raise_low_cases s pg hc info
  · rw [h, hv .ctr (by decide)]
  · have hlog : mget (logPush v e).ctr (q, j) 0 = mget v.ctr (q, j) 0 := mget_ctr_count_ne v 0 j 1 hq
    rw [h, hlog, hv .ctr (by decide)]

/-! ## The queues and the counts of the decoders -/

/-- The parts that the end of a block at a decoder may change before its output is handed on. -/
def decodeParts : List Part := [.tdec, .plans, .ctr, .pages, .out, .elog, .msix, .clk]

/-- What leaves the decoders' queues, and every count but the log's. -/
structure KeepsQueues (s t : State) : Prop where
  only : OnlyChanges decodeParts s t
  queues : t.tdec.queues = s.tdec.queues
  counts : ∀ {q}, q ≠ PageId.elog → ∀ j, mget t.ctr (q, j) 0 = mget s.ctr (q, j) 0

namespace KeepsQueues
variable {s t u : State}

theorem trans (h : KeepsQueues s t) (g : KeepsQueues t u) : KeepsQueues s u :=
  ⟨onlyChanges_then h.only g.only, g.queues.trans h.queues, fun hq j => (g.counts hq j).trans (h.counts hq j)⟩

theorem of_only {ps : List Part} (h : OnlyChanges ps s t) (hsub : ∀ p ∈ ps, p ∈ decodeParts) (htdec : Part.tdec ∉ ps)
    (hctr : Part.ctr ∉ ps) : KeepsQueues s t :=
  ⟨onlyChanges_mono h hsub, congrArg Tdec.queues (h .tdec htdec), fun _ j => congrArg (mget · (_, j) 0) (h .ctr hctr)⟩

theorem refl (s : State) : KeepsQueues s s := .of_only (onlyChanges_refl [] s) (by simp) (by simp) (by simp)

end KeepsQueues

theorem keepsQueues_setTslot (s : State) (t : Fin 64) (i : Nat) (x : TSlot) : KeepsQueues s (setTslot s t i x) :=
  ⟨onlyChanges_mono (onlyChanges_setTslot s t i x) (by simp [decodeParts]), rfl, fun _ _ => rfl⟩

theorem keepsQueues_raise_low (s : State) (pg : PageId) {code : Nat} (hc : codeClass code < 3) (info : Nat) :
    KeepsQueues s (raise s pg code info) :=
  have honly := onlyChanges_raise_low s pg hc info
  ⟨onlyChanges_mono honly (by simp [decodeParts]), congrArg Tdec.queues (honly .tdec (by decide)),
    fun hq j => mget_ctr_raise_low s pg hc info hq j⟩

theorem keepsQueues_freeIfIdle (s : State) (t : Fin 64) (i : Nat) : KeepsQueues s (freeIfIdle s t i) := by
  by_cases hidle : (tslot s t i).st = .retiring ∧ (tslot s t i).refs = 0
  · rw [freeIfIdle_frees hidle.1 hidle.2]
    exact (keepsQueues_setTslot s t i _).trans (keepsQueues_raise_low _ _ (by decide) 0)
  · rw [freeIfIdle_stays (not_and.1 hidle)]
    exact .refl s

theorem keepsQueues_unref (s : State) (t : Fin 64) (b : DBlock) : KeepsQueues s (unref s t b) := by
  unfold unref
  split
  · exact .refl s
  · exact (keepsQueues_setTslot s t _ _).trans (keepsQueues_freeIfIdle _ t _)

/-- R273: a table that other blocks reference still is one reference less. -/
theorem tslot_unref_of_refs {s : State} {t : Fin 64} {b : DBlock} {i : Nat} (hb : b.slot = some i)
    (hrefs : 1 < (tslot s t i).refs) : tslot (unref s t b) t i = { tslot s t i with refs := (tslot s t i).refs - 1 } := by
  simp only [unref, hb]
  rw [freeIfIdle_stays, tslot_setTslot_same]
  intro _
  rw [tslot_setTslot_same]
  exact Nat.sub_ne_zero_of_lt hrefs

/-! ## BLOCK_DECODE_END (R273, R276, R277) -/

/-- The symbols of the table that a block references. -/
def symbolsFor (s : State) (t : Fin 64) (b : DBlock) : Bytes :=
  match b.slot with
  | some i => (tslot s t i).sym
  | none => []

/-- R276: DMA words that waited behind a tile's block go on. -/
def wordsFreed (s : State) (t : Fin 64) : State :=
  setTile s t { tileOf s t with flight := (tileOf s t).flight.map (fun w => { w with behind := false }) }

/-- R273: the head of a tile's queue taken, and its table released. -/
def headTaken (s : State) (t : Fin 64) (b : DBlock) (rest : List DBlock) : State :=
  settlePage (wordsFreed (unref (setTqueue s t rest) t b) t) (.tdec t)

/-- R277, R478: a block expanded counts, and so does its failure, which is raised on the decoder's page. -/
def blockCounted (s : State) (t : Fin 64) (code info : Nat) : State :=
  let v := count s (.tdec t) 0 1
  if code ≠ 0 then raise (count v (.tdec t) 1 1) (.tdec t) code info else v

/-- Whether a block is expanded for an image under check. -/
def forCheck : DFor → Bool
  | .check _ => true
  | .pull _ => false

/-- The output of a block handed to the pull or the check it was expanded for. -/
def handedOn (s : State) (b : DBlock) (r : Bytes × Nat) : State :=
  match b.what with
  | .pull seq => pullBlockDone s seq b.index r.1 r.2
  | .check id => checkBlockDone s id b.index r.1 r.2

/-- The state in which a block has ended and its output has not gone on. -/
def blockEnded (s : State) (t : Fin 64) (b : DBlock) (rest : List DBlock) : State :=
  blockCounted (headTaken s t b rest) t (expandBlock b.bytes (symbolsFor s t b)).2 (blockInfo b.bytes (forCheck b.what))

theorem exec_blockDecodeEnd {s : State} {t : Fin 64} {b : DBlock} {rest : List DBlock} (h : tqueue s t = b :: rest) :
    exec (.blockDecodeEnd t) s =
      .next (driveAll (handedOn (blockEnded s t b rest) b (expandBlock b.bytes (symbolsFor s t b)))) := by
  change execBlockDecodeEnd t s = _
  simp only [execBlockDecodeEnd, h]
  rfl

theorem exec_blockDecodeEnd_of_idle {s : State} {t : Fin 64} (h : tqueue s t = []) : exec (.blockDecodeEnd t) s = .next s := by
  change execBlockDecodeEnd t s = _
  simp only [execBlockDecodeEnd, h]

section
variable (s : State) (t : Fin 64) (b : DBlock) (rest : List DBlock)

theorem onlyChanges_headRest (u : State) : OnlyChanges [.plans, .pages] u (settlePage (wordsFreed u t) (.tdec t)) :=
  onlyChanges_trans (onlyChanges_setTile u t _) (onlyChanges_settlePage _ _)

theorem keepsQueues_headTaken : KeepsQueues (setTqueue s t rest) (headTaken s t b rest) :=
  (keepsQueues_unref _ t b).trans (.of_only (onlyChanges_headRest t _) (by simp [decodeParts]) (by simp) (by simp))

theorem tslot_headTaken {i : Nat} (hb : b.slot = some i) (hrefs : 1 < (tslot s t i).refs) :
    tslot (headTaken s t b rest) t i = { tslot s t i with refs := (tslot s t i).refs - 1 } :=
  (tslot_of_onlyChanges (onlyChanges_headRest t _) (by decide) t i).trans (tslot_unref_of_refs (s := setTqueue s t rest) hb hrefs)

end

section
variable (s : State) (t : Fin 64) {code : Nat} (info : Nat)

/-- R277: a block's failure is seen on its decoder's page. -/
theorem seen_blockCounted (hne : code ≠ 0) (hc : codeClass code = 2) :
    (pageOf (blockCounted s t code info) (.tdec t)).classSeen.getLsbD 2 = true := by
  have hseen := seen_raise (count (count s (.tdec t) 0 1) (.tdec t) 1 1) (.tdec t) (code := code) (by omega) info
  simpa [blockCounted, hne, hc] using hseen

variable (hc : codeClass code < 3)
include hc

theorem onlyChanges_blockCounted :
    OnlyChanges [.pages, .out, .ctr, .elog, .msix, .clk] s (blockCounted s t code info) := by
  have hcount : ∀ v i, OnlyChanges [.pages, .out, .ctr, .elog, .msix, .clk] v (count v (.tdec t) i 1) := fun v i =>
    onlyChanges_mono (onlyChanges_count v _ i 1) (by simp)
  exact onlyChanges_ite _ (onlyChanges_then (onlyChanges_then (hcount _ _) (hcount _ _)) (onlyChanges_raise_low _ _ hc info))
    (hcount _ _)

/-- R478: a block adds one to the blocks that its decoder has expanded. -/
theorem mget_ctr_blockCounted :
    mget (blockCounted s t code info).ctr (.tdec t, 0) 0 = ctrAdd (mget s.ctr (.tdec t, 0) 0) 1 := by
  have hblocks : mget (count s (.tdec t) 0 1).ctr (.tdec t, 0) 0 = ctrAdd (mget s.ctr (.tdec t, 0) 0) 1 := mget_mset_same _ _ _ _
  have hfailed : mget (count (count s (.tdec t) 0 1) (.tdec t) 1 1).ctr (.tdec t, 0) 0 =
      mget (count s (.tdec t) 0 1).ctr (.tdec t, 0) 0 := mget_mset_ne _ _ _ (by simp)
  unfold blockCounted
  dsimp only
  split
  · rw [mget_ctr_raise_low _ _ hc _ (by simp), hfailed, hblocks]
  · exact hblocks

end

/-- R273, R277: the end of a block takes it from its queue, releases its table, and counts it with its failure. -/
theorem blockEnded_takes (s : State) (t : Fin 64) (b : DBlock) (rest : List DBlock) :
    tqueue (blockEnded s t b rest) t = rest ∧ OnlyChanges decodeParts s (blockEnded s t b rest) ∧
    (∀ i, b.slot = some i → 1 < (tslot s t i).refs →
      tslot (blockEnded s t b rest) t i = { tslot s t i with refs := (tslot s t i).refs - 1 }) ∧
    mget (blockEnded s t b rest).ctr (.tdec t, 0) 0 = ctrAdd (mget s.ctr (.tdec t, 0) 0) 1 ∧
    ((expandBlock b.bytes (symbolsFor s t b)).2 ≠ 0 → (pageOf (blockEnded s t b rest) (.tdec t)).classSeen.getLsbD 2 = true) := by
  obtain ⟨hlow, hclass⟩ := codeClass_expandBlock (symbolsFor s t b) b.bytes
  have hhead := keepsQueues_headTaken s t b rest
  have hcounted := onlyChanges_blockCounted (headTaken s t b rest) t (blockInfo b.bytes (forCheck b.what)) hlow
  have hqueue : OnlyChanges decodeParts s (setTqueue s t rest) := onlyChanges_mono (onlyChanges_tdec s _) (by simp [decodeParts])
  refine ⟨?_, onlyChanges_then hqueue (onlyChanges_then hhead.only (onlyChanges_mono hcounted (by simp [decodeParts]))),
    fun i hb hrefs => ?_, ?_, fun hne => seen_blockCounted _ t _ hne (hclass hne)⟩
  · have hqueues : (blockEnded s t b rest).tdec.queues = (setTqueue s t rest).tdec.queues :=
      (congrArg Tdec.queues (hcounted .tdec (by decide))).trans hhead.queues
    rw [tqueue, hqueues]
    exact mget_mset_same _ _ _ _
  · exact (tslot_of_onlyChanges hcounted (by decide) t i).trans (tslot_headTaken s t b rest hb hrefs)
  · exact (mget_ctr_blockCounted _ t _ hlow).trans (by rw [hhead.counts (by simp)]; rfl)

/-- Settles O46: what a block expands to, by its header; and what its end leaves before its output is handed on. -/
theorem blocksExpand : Obligations.BlocksExpand := by
  unfold Obligations.BlocksExpand
  refine ⟨fun b sym => ⟨(expandBlock_length_code sym b).1, expandBlock_of_badCheck sym, expandBlock_of_badFields sym,
    fun h hf hm => ⟨expandBlock_of_raw_matching sym h hf hm, fun hlt => ?_, fun hlt => ?_⟩⟩, ?_,
    fun s t => exec_blockDecodeEnd_of_idle⟩
  · rw [expandBlock_of_raw sym h hf hm]
    simp [hlt, hlt.le]
  · rw [expandBlock_of_raw sym h hf hm]
    simp [hlt]
  · intro s t b rest h
    obtain ⟨hqueue, honly, hslot, hcount, hseen⟩ := blockEnded_takes s t b rest
    exact ⟨blockEnded s t b rest, hqueue, honly, hslot, hcount, hseen, exec_blockDecodeEnd h⟩

end Sys2Proof.BlockDecoding
end

section
/-! PROOFS. Frames that arrive (R289, R292, R293, R296, R337): the checks before the tag, and what DATA_FRAME_RX, ACK_FRAME_RX and
FILL_FRAME_RX leave of a frame that passes them or fails one. -/
namespace Sys2Proof.FrameArrival
open Sys2Proof Sys2Proof.Machine Sys2Proof.Laws Sys2Proof.Decisions

/-! ## Delineation (R289) -/

section
variable (s : State) (g : Fin 4) (k : Fin 18) (bytes : Bytes)

/-- R289: delineation changes the slots of the line alone. -/
theorem delineate_slots : ∃ x, delineate s g k bytes = { s with line := { s.line with slots := x } } := by
  unfold delineate
  dsimp only
  split
  · exact ⟨s.line.slots, rfl⟩
  · exact ⟨_, rfl⟩

theorem onlyChanges_delineate : OnlyChanges [.line] s (delineate s g k bytes) :=
  (delineate_slots s g k bytes).elim fun _ h => h ▸ onlyChanges_line s _

/-- R289: a header that fails its HCHECK sets a listening slot hunting, and one that verifies ends the hunt. -/
theorem lslot_delineate : lslot (delineate s g k bytes) g k =
    if (lslot s g k).rx = .off ∨ pairOf s g k = none then lslot s g k
    else { lslot s g k with hunting := !frCheckOk bytes } := by
  have hset : ∀ x, lslot (setLSlot s g k x) g k = x := fun x => mget_mset_same _ _ _ _
  simp only [delineate, Bool.or_eq_true, decide_eq_true_eq, Option.isNone_iff_eq_none]
  split
  · rfl
  · exact hset _

theorem rx_lslot_delineate : (lslot (delineate s g k bytes) g k).rx = (lslot s g k).rx := by
  rw [lslot_delineate]
  split <;> rfl

theorem spanFailed_delineate (span : List (Nat × Fin 64)) :
    spanFailed (delineate s g k bytes) g k span = spanFailed s g k span := by
  have hfailed : (lslot (delineate s g k bytes) g k).failed = (lslot s g k).failed := by
    rw [lslot_delineate]
    split <;> rfl
  rw [spanFailed, spanFailed, hfailed]

theorem slotOwner_delineate : slotOwner (delineate s g k bytes) g k = slotOwner s g k := by
  obtain ⟨x, h⟩ := delineate_slots s g k bytes
  rw [h]
  rfl

theorem pairOf_delineate : pairOf (delineate s g k bytes) g k = pairOf s g k := by
  obtain ⟨x, h⟩ := delineate_slots s g k bytes
  rw [h]
  rfl

theorem linkPeer_delineate (l : LinkId) : linkPeer (delineate s g k bytes) l = linkPeer s l := by
  rw [linkPeer, linkPeer, fldB, fldB, pageOf, pageOf, onlyChanges_delineate s g k bytes .pages (by decide)]

theorem gw_delineate : gw (delineate s g k bytes) = gw s := by
  rw [gw, gw, gwNum, gwNum, onlyChanges_delineate s g k bytes .fab (by decide)]

theorem ciph_delineate : (delineate s g k bytes).ciph = s.ciph := onlyChanges_delineate s g k bytes .ciph (by decide)

theorem holdBytes_delineate : holdBytes (delineate s g k bytes) g = holdBytes s g := by
  rw [holdBytes, holdBytes, ciph_delineate]

theorem cipherRefusal_delineate (l : LinkId) (h : FrHdr) :
    cipherRefusal (delineate s g k bytes) l k h = cipherRefusal s l k h := by
  obtain ⟨x, h⟩ := delineate_slots s g k bytes
  rw [h]
  rfl

end

/-! ## The checks of a frame (R296) -/

section
variable {s : State} {g : Fin 4} {k : Fin 18} {bytes : Bytes}

/-- R296 order 1: a frame whose HCHECK fails is not there. -/
theorem frameLink_of_badCheck (hcheck : frCheckOk bytes = false) (whole touched : Bool) :
    frameLink s g k bytes whole touched = .inl s := by
  unfold frameLink
  split
  · rfl
  · simp [hcheck]

variable {l : LinkId} (howner : slotOwner s g k = some l) (hrx : (lslot s g k).rx ≠ .off) (hpair : (pairOf s g k).isSome = true)
  (hcheck : frCheckOk bytes = true)
include howner hrx hpair hcheck

/-- R296 orders 1 to 3: the checks that a frame meets on a slot of a link that listens, once its HCHECK has verified. -/
theorem frameLink_delineate (whole : Bool) (span : List (Nat × Fin 64)) :
    let d := delineate s g k bytes
    let h := parseFr bytes
    frameLink d g k bytes whole (spanFailed d g k span) =
      if spanFailed s g k span then .inl (dropFrame d g)
      else if !frFieldsOk bytes || !whole then .inl (raise (dropFrame d g) (.line g) 0x2B01 0)
      else if h.src ≠ linkPeer s l || h.dst ≠ gw s then .inl (raise (dropFrame d g) (.line g) 0x2B02 0)
      else .inr (l, h) := by
  have hpair' : (pairOf s g k).isNone = false := by simpa using hpair
  simp only [frameLink, slotOwner_delineate, howner, rx_lslot_delineate, pairOf_delineate, hrx, hpair', hcheck, spanFailed_delineate,
    linkPeer_delineate, gw_delineate, decide_false, Bool.or_self, Bool.not_true, Bool.false_eq_true, if_false]

section
variable {whole : Bool} {span : List (Nat × Fin 64)}

/-- R292, R296: a frame that meets a slot of a superframe that failed is discarded. -/
theorem frameLink_of_spanFailed (hspan : spanFailed s g k span = true) :
    frameLink (delineate s g k bytes) g k bytes whole (spanFailed (delineate s g k bytes) g k span) =
      .inl (dropFrame (delineate s g k bytes) g) := by
  rw [frameLink_delineate howner hrx hpair hcheck whole span, if_pos hspan]

variable (hspan : spanFailed s g k span = false)
include hspan

/-- R296 order 2: a frame with a bad field is discarded with 0x2B01. -/
theorem frameLink_of_badFields (hfields : frFieldsOk bytes = false) :
    frameLink (delineate s g k bytes) g k bytes whole (spanFailed (delineate s g k bytes) g k span) =
      .inl (raise (dropFrame (delineate s g k bytes) g) (.line g) 0x2B01 0) := by
  simp [frameLink_delineate howner hrx hpair hcheck whole span, hspan, hfields]

/-- R296 order 3: a frame with the numbers of another link is discarded with 0x2B02. -/
theorem frameLink_of_otherLink (hfields : frFieldsOk bytes = true) (hwhole : whole = true)
    (hother : (parseFr bytes).src ≠ linkPeer s l ∨ (parseFr bytes).dst ≠ gw s) :
    frameLink (delineate s g k bytes) g k bytes whole (spanFailed (delineate s g k bytes) g k span) =
      .inl (raise (dropFrame (delineate s g k bytes) g) (.line g) 0x2B02 0) := by
  have hcond : ((parseFr bytes).src ≠ linkPeer s l || (parseFr bytes).dst ≠ gw s : Bool) = true := by simpa using hother
  rw [frameLink_delineate howner hrx hpair hcheck whole span, if_neg (by simp [hspan]), if_neg (by simp [hfields, hwhole]),
    if_pos hcond]

/-- R296: a frame that meets none of the three goes on, with its link and header. -/
theorem frameLink_of_ok (hfields : frFieldsOk bytes = true) (hwhole : whole = true)
    (hsrc : (parseFr bytes).src = linkPeer s l) (hdst : (parseFr bytes).dst = gw s) :
    frameLink (delineate s g k bytes) g k bytes whole (spanFailed (delineate s g k bytes) g k span) =
      .inr (l, parseFr bytes) := by
  rw [frameLink_delineate howner hrx hpair hcheck whole span, if_neg (by simp [hspan]), if_neg (by simp [hfields, hwhole]),
    if_neg (by simp [hsrc, hdst])]

end
end

section
variable {s : State} {g : Fin 4} {k : Fin 18} {bytes : Bytes} {span : List (Nat × Fin 64)} {l : LinkId}

/-- A frame discarded before its order 4 is not taken. -/
theorem takeFrame_of_discard {t : State} {touched : Bool}
    (h : frameLink s g k bytes (bytes.length == (parseFr bytes).len + 48) touched = .inl t) :
    takeFrame s g k bytes touched = .inl t := by
  simp [takeFrame, h]

/-- R296: a frame that passes the checks before its tag is taken. -/
theorem takeFrame_of_frameIn (h : FrameIn s g k bytes span l) :
    takeFrame (delineate s g k bytes) g k bytes (spanFailed (delineate s g k bytes) g k span) = .inr (l, parseFr bytes) := by
  obtain ⟨howner, hpair, hup, hcheck, hfields, hspan, hlen, hsrc, hdst, hmin, hmax, hcipher⟩ := h
  have hlink := frameLink_of_ok howner (by simp [hup]) hpair hcheck (whole := bytes.length == (parseFr bytes).len + 48) hspan hfields
    (by simpa using hlen) hsrc hdst
  have hsize : ((parseFr bytes).len < 64 || (parseFr bytes).len > 16384 : Bool) = false := by simp [hmin, hmax]
  simp only [takeFrame, hlink, rx_lslot_delineate, hup, cipherRefusal_delineate, hcipher, hsize, ne_eq, not_true_eq_false, if_false,
    Bool.false_eq_true]

end

/-! ## FILL_FRAME_RX (R293, R296) -/

section
variable {s : State} {g : Fin 4} {k : Fin 18} {span : List (Nat × Fin 64)} {bytes : Bytes}

/-- R293: what the checks leave of a FILL: the state after its discard, or delineation settled. -/
def fillTaken (d : State) (r : State ⊕ (LinkId × FrHdr)) : State :=
  match r with
  | .inl t => t
  | .inr _ => d

theorem exec_fillFrameRx (h : (parseFr bytes).kind = 0 ∨ frCheckOk bytes = false) :
    exec (.fillFrameRx ⟨g, k, span⟩ bytes) s = .next (fillTaken (delineate s g k bytes)
      (frameLink (delineate s g k bytes) g k bytes true (spanFailed (delineate s g k bytes) g k span))) := by
  have hcond : ((parseFr bytes).kind ≠ 0 && frCheckOk bytes && frFieldsOk bytes : Bool) = false := by
    rcases h with h | h <;> simp [h]
  change execFillFrameRx ⟨g, k, span⟩ bytes s = _
  simp only [execFillFrameRx, hcond, Bool.false_eq_true, if_false]
  rfl

theorem fill_of_badCheck (hcheck : frCheckOk bytes = false) :
    exec (.fillFrameRx ⟨g, k, span⟩ bytes) s = .next (delineate s g k bytes) := by
  rw [exec_fillFrameRx (.inr hcheck), frameLink_of_badCheck hcheck]
  rfl

/-- R293, R296: a FILL on a slot of a link that listens is checked as a frame is, and has no effect of its own. -/
theorem fill_checked {l : LinkId} (hkind : (parseFr bytes).kind = 0) (hcheck : frCheckOk bytes = true)
    (howner : slotOwner s g k = some l) (hrx : (lslot s g k).rx ≠ .off) (hpair : (pairOf s g k).isSome = true) :
    let h := parseFr bytes
    let d := delineate s g k bytes
    let one := dropFrame d g
    let c := Instr.fillFrameRx ⟨g, k, span⟩ bytes
    (spanFailed s g k span = true → exec c s = .next one) ∧
    (spanFailed s g k span = false →
      (frFieldsOk bytes = false → exec c s = .next (raise one (.line g) 0x2B01 0)) ∧
      (frFieldsOk bytes = true → h.src ≠ linkPeer s l ∨ h.dst ≠ gw s → exec c s = .next (raise one (.line g) 0x2B02 0)) ∧
      (frFieldsOk bytes = true → h.src = linkPeer s l → h.dst = gw s → exec c s = .next d)) := by
  intro h d one c
  have hexec : exec c s = .next (fillTaken d (frameLink d g k bytes true (spanFailed d g k span))) := exec_fillFrameRx (.inl hkind)
  rw [hexec]
  refine ⟨fun hspan => ?_, fun hspan => ⟨fun hf => ?_, fun hf hother => ?_, fun hf hsrc hdst => ?_⟩⟩
  · rw [frameLink_of_spanFailed howner hrx hpair hcheck hspan]
    rfl
  · rw [frameLink_of_badFields howner hrx hpair hcheck hspan hf]
    rfl
  · rw [frameLink_of_otherLink howner hrx hpair hcheck hspan hf rfl hother]
    rfl
  · rw [frameLink_of_ok howner hrx hpair hcheck hspan hf rfl hsrc hdst]
    rfl

end

/-! ## DATA_FRAME_RX (R296, R337) -/

section
variable {s : State} {g : Fin 4} {k : Fin 18} {span : List (Nat × Fin 64)} {bytes : Bytes} {l : LinkId}
  (hkind : (parseFr bytes).kind = 1)
include hkind

theorem data_discarded {t : State} (h : takeFrame (delineate s g k bytes) g k bytes
    (spanFailed (delineate s g k bytes) g k span) = .inl t) : exec (.dataFrameRx g k bytes span) s = .next t := by
  change execDataFrameRx g k bytes span s = _
  simp [execDataFrameRx, hkind, h]

/-- R296 orders 1 to 3: a DATA frame on a slot of a link that listens is discarded where a check fails. -/
theorem data_checked (howner : slotOwner s g k = some l) (hrx : (lslot s g k).rx ≠ .off) (hpair : (pairOf s g k).isSome = true) :
    let h := parseFr bytes
    let d := delineate s g k bytes
    let one := dropFrame d g
    let c := Instr.dataFrameRx g k bytes span
    (frCheckOk bytes = false → exec c s = .next d) ∧
    (frCheckOk bytes = true → spanFailed s g k span = true → exec c s = .next one) ∧
    (frCheckOk bytes = true → spanFailed s g k span = false →
      (frFieldsOk bytes = false → exec c s = .next (raise one (.line g) 0x2B01 0)) ∧
      (frFieldsOk bytes = true → bytes.length = h.len + 48 → h.src ≠ linkPeer s l ∨ h.dst ≠ gw s →
        exec c s = .next (raise one (.line g) 0x2B02 0))) :=
  ⟨fun hcheck => data_discarded hkind (takeFrame_of_discard (frameLink_of_badCheck hcheck _ _)),
    fun hcheck hspan => data_discarded hkind (takeFrame_of_discard (frameLink_of_spanFailed howner hrx hpair hcheck hspan)),
    fun hcheck hspan =>
      ⟨fun hf => data_discarded hkind (takeFrame_of_discard (frameLink_of_badFields howner hrx hpair hcheck hspan hf)),
        fun hf hlen hother => data_discarded hkind (takeFrame_of_discard
          (frameLink_of_otherLink howner hrx hpair hcheck hspan hf (by simpa using hlen) hother))⟩⟩

/-- R337: a DATA frame that passes its checks waits in the tag-hold buffer, or is discarded where that is full. -/
theorem data_taken (h : FrameIn s g k bytes span l) :
    let h := parseFr bytes
    let held := mget s.ciph.hold g []
    let d := delineate s g k bytes
    (holdBytes s g + h.len ≤ 8388608 → s.ciph.early.contains g = false → exec (.dataFrameRx g k bytes span) s =
      .next (noteHold (setHold d g (held ++ [⟨l, k, bytes.take 32, slice bytes 32 h.len, bytes.drop (32 + h.len), false⟩])) g)) ∧
    (8388608 < holdBytes s g + h.len → fldV s (.ciph g 1) 0x68 0 0 = 0 →
      exec (.dataFrameRx g k bytes span) s = .next (raise d (.ciph g 1) 0x2C06 0)) := by
  have htake := takeFrame_of_frameIn h
  have hpolicy : fldV (delineate s g k bytes) (.ciph g 1) 0x68 0 0 = fldV s (.ciph g 1) 0x68 0 0 := by
    rw [fldV, fldV, fldB, fldB, pageOf, pageOf, onlyChanges_delineate s g k bytes .pages (by decide)]
  refine ⟨fun hroom hearly => ?_, fun hfull hwait => ?_⟩ <;> change execDataFrameRx g k bytes span s = _
  · have hnone : g ∉ s.ciph.early := by simpa using hearly
    simp [execDataFrameRx, hkind, htake, holdBytes_delineate, ciph_delineate, hnone, Nat.not_lt.2 hroom]
  · simp [execDataFrameRx, hkind, htake, holdBytes_delineate, hpolicy, hwait, hfull]

end

/-! ## ACK_FRAME_RX (R296, R301) -/

/-- R296, R301: an ACK that passes its checks before the tag is opened: one whose tag fails raises TAG_FAIL, and one that verifies
takes effect entry by entry. -/
theorem ack_taken {s : State} {g : Fin 4} {k : Fin 18} {span : List (Nat × Fin 64)} {bytes : Bytes} {l : LinkId}
    (h : FrameIn s g k bytes span l) (hkind : (parseFr bytes).kind = 2)
    (hroom : holdBytes s g + (parseFr bytes).len ≤ 8388608) :
    let h := parseFr bytes
    let v := count (delineate s g k bytes) (.ciph g 1) 0 (aesBlocks h.len)
    let opened := openFrame v l (bytes.take 32) (slice bytes 32 h.len) (bytes.drop (32 + h.len))
    (opened = none → exec (.ackFrameRx g k bytes span) s =
      .next (raise (count (count v (.ciph g 1) 1 1) (.line g) 3 1) (.ciph g 1) 0x2C01 0)) ∧
    (∀ body es, opened = some body → parseAck body = some es →
      exec (.ackFrameRx g k bytes span) s = .next (es.foldl (takeEnt l) (noteVerified v l k h))) := by
  have htake := takeFrame_of_frameIn h
  refine ⟨fun hopen => ?_, fun body es hopen hack => ?_⟩ <;> change execAckFrameRx g k bytes span s = _
  · simp [execAckFrameRx, hkind, htake, holdBytes_delineate, Nat.not_lt.2 hroom, hopen]
  · simp [execAckFrameRx, hkind, htake, holdBytes_delineate, Nat.not_lt.2 hroom, hopen, hack]

end Sys2Proof.FrameArrival
end

section
/-! PROOFS. Acknowledgement and retransmission (R301, R303, R306, R311): what one entry of an ACK leaves of the frames retained, the
counts of their channel and the link; and a timer of retransmission that is due. -/
namespace Sys2Proof.Retransmission
open Sys2Proof Sys2Proof.Machine Sys2Proof.Laws

@[simp] theorem llink_setLLink (s : State) (l : LinkId) (x : LLink) : llink (setLLink s l x) l = x := mget_mset_same _ _ _ _

theorem llink_setLLink_ne (s : State) {l l' : LinkId} (x : LLink) (h : l' ≠ l) : llink (setLLink s l x) l' = llink s l' :=
  mget_mset_ne _ _ _ h

@[simp] theorem llink_raise (s : State) (pg : PageId) (code info : Nat) (l : LinkId) : llink (raise s pg code info) l = llink s l := by
  rw [llink, llink, onlyChanges_raise s pg code info .line (by decide)]

theorem vcLine_setVc (x : LLink) (vc : Nat) (v : VcLine) : vcLine (x.setVc vc v) vc = v := mget_mset_same _ _ _ _

theorem vcLine_setVc_ne (x : LLink) {vc vc' : Nat} (v : VcLine) (h : vc' ≠ vc) : vcLine (x.setVc vc v) vc' = vcLine x vc' :=
  mget_mset_ne _ _ _ h

/-! ## Retransmission triggered (R303, R311) -/

/-- A retained frame with its place in the retransmission queue set. -/
def setQueued (q : RetFrame → Bool) (f : RetFrame) : RetFrame := { f with queued := q f }

/-- What triggering retransmission of frames of a link keeps: it queues frames of the link, or loses it. -/
structure Triggers (l : LinkId) (s t : State) : Prop where
  ret : ∃ q : RetFrame → Bool, (∀ f, f.queued = true → q f = true) ∧ (llink t l).ret = (llink s l).ret.map (setQueued q)
  vcs : (llink t l).vcs = (llink s l).vcs
  lost : (llink s l).lost = true → (llink t l).lost = true
  others : ∀ l', l' ≠ l → llink t l' = llink s l'

/-- A frame is queued for retransmission wherever it is retained, or its link is lost. -/
def QueuedOrLost (x : LLink) (f : RetFrame) : Prop :=
  x.lost = true ∨ ∀ y ∈ x.ret, y.vc = f.vc → y.seq = f.seq → y.queued = true

namespace Triggers
variable {l : LinkId} {s t u : State}

theorem refl (l : LinkId) (s : State) : Triggers l s s :=
  ⟨⟨RetFrame.queued, fun _ h => h, (List.map_id _).symm⟩, rfl, fun h => h, fun _ _ => rfl⟩

theorem trans (h : Triggers l s t) (g : Triggers l t u) : Triggers l s u := by
  obtain ⟨q, hq, hret⟩ := h.ret
  obtain ⟨r, hr, hret'⟩ := g.ret
  refine ⟨⟨fun f => r (setQueued q f), fun f hf => hr _ (hq f hf), ?_⟩, g.vcs.trans h.vcs, fun x => g.lost (h.lost x),
    fun l' hl => (g.others l' hl).trans (h.others l' hl)⟩
  rw [hret', hret, List.map_map]
  rfl

theorem queuedOrLost (h : Triggers l s t) {f : RetFrame} (hf : QueuedOrLost (llink s l) f) : QueuedOrLost (llink t l) f := by
  obtain ⟨q, hq, hret⟩ := h.ret
  refine hf.imp h.lost fun hqueued y hy hvc hseq => ?_
  rw [hret, List.mem_map] at hy
  obtain ⟨z, hz, rfl⟩ := hy
  exact hq z (hqueued z hz hvc hseq)

end Triggers

section
variable (s : State) (l : LinkId) (f : RetFrame)

/-- The frames of a link after a frame is queued for retransmission. -/
def queueFrame (f y : RetFrame) : RetFrame := if y.vc = f.vc ∧ y.seq = f.seq then { y with queued := true } else y

theorem queueFrame_eq_setQueued (f : RetFrame) :
    queueFrame f = setQueued (fun y => y.queued || (y.vc == f.vc && y.seq == f.seq)) := by
  funext y
  unfold queueFrame setQueued
  split
  next h => simp [h]
  next h =>
    have hother : (y.vc == f.vc && y.seq == f.seq) = false := by simpa using h
    simp only [hother, Bool.or_false]

/-- R303: a frame below MAX_RETX is queued. -/
theorem triggerRetx_queues (h : f.retx < fldV s (.line l.1) 0x70 16 12) :
    triggerRetx s l f = setLLink s l { llink s l with ret := (llink s l).ret.map (queueFrame f) } :=
  if_neg (Nat.not_le.2 h)

/-- R303, R311: a frame that has had MAX_RETX retransmissions loses its link. -/
theorem triggerRetx_loses (h : fldV s (.line l.1) 0x70 16 12 ≤ f.retx) : triggerRetx s l f = loseLink s l := if_pos h

theorem loseLink_of_lost (h : (llink s l).lost = true) : loseLink s l = s := if_pos h

theorem loseLink_raises (h : (llink s l).lost = false) :
    loseLink s l = raise (setLLink s l { llink s l with lost := true }) (.line l.1) 0x3B01 0 :=
  if_neg (by simp [h])

/-- R311: a link lost is its LOST bit set, and no other link. -/
theorem llink_loseLink : llink (loseLink s l) l = { llink s l with lost := true } ∧
    ∀ l', l' ≠ l → llink (loseLink s l) l' = llink s l' := by
  cases h : (llink s l).lost with
  | true =>
    rw [loseLink_of_lost s l h, ← h]
    exact ⟨rfl, fun _ _ => rfl⟩
  | false =>
    rw [loseLink_raises s l h]
    exact ⟨by simp, fun l' hl => by rw [llink_raise, llink_setLLink_ne _ _ hl]⟩

/-- R303: retransmission of a frame queues it or loses the link. -/
theorem triggerRetx_triggers : Triggers l s (triggerRetx s l f) ∧ QueuedOrLost (llink (triggerRetx s l f) l) f := by
  rcases Nat.lt_or_ge f.retx (fldV s (.line l.1) 0x70 16 12) with h | h
  · rw [triggerRetx_queues s l f h, queueFrame_eq_setQueued]
    refine ⟨⟨⟨_, fun y hy => ?_, congrArg LLink.ret (llink_setLLink s l _)⟩, by simp, by simp,
      fun l' hl => llink_setLLink_ne _ _ hl⟩, .inr ?_⟩
    · simp [hy]
    · rw [llink_setLLink]
      intro y hy hvc hseq
      obtain ⟨z, -, rfl⟩ := List.mem_map.1 hy
      simp only [setQueued] at hvc hseq ⊢
      simp [hvc, hseq]
  · obtain ⟨hself, hothers⟩ := llink_loseLink s l
    rw [triggerRetx_loses s l f h]
    refine ⟨⟨⟨RetFrame.queued, fun _ hy => hy, ?_⟩, by rw [hself], fun _ => by rw [hself], hothers⟩, .inl (by rw [hself])⟩
    rw [hself]
    exact (List.map_id _).symm

/-- R303: retransmission of a list of frames queues each or loses the link. -/
theorem foldl_triggerRetx (fs : List RetFrame) (s : State) :
    let t := fs.foldl (fun s f => triggerRetx s l f) s
    Triggers l s t ∧ ∀ f ∈ fs, QueuedOrLost (llink t l) f := by
  induction fs generalizing s with
  | nil => exact ⟨.refl l s, fun _ h => nomatch h⟩
  | cons f fs ih =>
    obtain ⟨hfirst, hqueued⟩ := triggerRetx_triggers s l f
    obtain ⟨hrest, hall⟩ := ih (triggerRetx s l f)
    refine ⟨hfirst.trans hrest, fun y hy => ?_⟩
    rcases List.mem_cons.1 hy with rfl | hy
    · exact hrest.queuedOrLost hqueued
    · exact hall y hy

end

/-! ## One entry of an ACK (R301, R303, R306) -/

section
variable (l : LinkId) (s : State) (e : AckEnt)

/-- R301: whether an entry reports a retained frame. -/
def reported (e : AckEnt) (f : RetFrame) : Bool := f.vc == e.vc && reports e f.seq

/-- R303: the latest transmission of the frames that the ACKs of a channel have reported. -/
def topReported (x : LLink) (e : AckEnt) : Nat :=
  (x.ret.filter (reported e)).foldl (fun t f => max t f.sf) (vcLine x e.vc).topSf

/-- R301, R306: the counts of a channel after an entry. -/
def vcAcked (x : LLink) (e : AckEnt) : VcLine :=
  let v := vcLine x e.vc
  let newer := (BitVec.ofNat 32 e.cum - v.acked).toNat < 2 ^ 31
  { v with acked := if newer then BitVec.ofNat 32 e.cum else v.acked, topSf := topReported x e,
           returned := if (BitVec.ofNat 32 e.ret - v.returned).toNat < 2 ^ 31 then BitVec.ofNat 32 e.ret else v.returned,
           grant := if newer then e.grant else v.grant }

/-- R301: a link from which an entry has released the frames that it reports. -/
def linkAcked (x : LLink) (e : AckEnt) : LLink :=
  { x with ret := x.ret.filter (fun f => !reported e f) }.setVc e.vc (vcAcked x e)

/-- R303: whether a retained frame shows a gap after an entry, and is not queued. -/
def showsGap (s : State) (l : LinkId) (e : AckEnt) (f : RetFrame) : Bool :=
  f.vc == e.vc && !f.queued && decide (topReported (llink s l) e ≥ f.sf + fldV s (.line l.1) 0x70 3 0)

theorem takeEnt_eq : takeEnt l s e = ((linkAcked (llink s l) e).ret.filter (showsGap s l e)).foldl
    (fun s f => triggerRetx s l f) (setLLink s l (linkAcked (llink s l) e)) := by
  simp only [takeEnt, llink_setLLink]
  rfl

theorem takeEnt_triggers : Triggers l (setLLink s l (linkAcked (llink s l) e)) (takeEnt l s e) ∧
    ∀ f ∈ (linkAcked (llink s l) e).ret.filter (showsGap s l e), QueuedOrLost (llink (takeEnt l s e) l) f := by
  rw [takeEnt_eq]
  exact foldl_triggerRetx l _ _

theorem vcLine_takeEnt (vc : Nat) : vcLine (llink (takeEnt l s e) l) vc = vcLine (linkAcked (llink s l) e) vc := by
  have hvcs := (takeEnt_triggers l s e).1.vcs
  rw [llink_setLLink] at hvcs
  rw [vcLine, hvcs, vcLine]

theorem vcLine_takeEnt_same : vcLine (llink (takeEnt l s e) l) e.vc = vcAcked (llink s l) e := by
  rw [vcLine_takeEnt]
  exact vcLine_setVc _ _ _

/-- R301, R303: an entry releases the frames that it reports, and of those that stay changes at most their place in the
retransmission queue. -/
theorem ret_takeEnt : ∃ q : RetFrame → Bool, (∀ f, f.queued = true → q f = true) ∧
    (llink (takeEnt l s e) l).ret = ((llink s l).ret.filter (fun f => !reported e f)).map (setQueued q) := by
  obtain ⟨q, hq, hret⟩ := (takeEnt_triggers l s e).1.ret
  rw [llink_setLLink] at hret
  exact ⟨q, hq, hret⟩

/-- R303: a frame of the channel that stays and shows a gap is queued, or the link is lost. -/
theorem takeEnt_requeues {f : RetFrame} (hf : f ∈ (llink (takeEnt l s e) l).ret) (hvc : f.vc = e.vc)
    (hgap : f.sf + fldV s (.line l.1) 0x70 3 0 ≤ topReported (llink s l) e) :
    f.queued = true ∨ (llink (takeEnt l s e) l).lost = true := by
  obtain ⟨q, hq, hret⟩ := ret_takeEnt l s e
  have hf' := hf
  rw [hret, List.mem_map] at hf'
  obtain ⟨y, hy, rfl⟩ := hf'
  cases hqueued : y.queued with
  | true => exact .inl (hq y hqueued)
  | false =>
    have hshown : showsGap s l e y = true := by
      have hvc' : y.vc = e.vc := hvc
      have hgap' : y.sf + fldV s (.line l.1) 0x70 3 0 ≤ topReported (llink s l) e := hgap
      simp [showsGap, hvc', hqueued, hgap']
    have hmem : y ∈ (linkAcked (llink s l) e).ret.filter (showsGap s l e) := List.mem_filter.2 ⟨hy, hshown⟩
    rcases (takeEnt_triggers l s e).2 y hmem with hlost | hall
    · exact .inr hlost
    · exact .inl (hall _ hf rfl rfl)

/-- R301, R303, R306: what one entry of an ACK leaves. -/
theorem takeEnt_acks :
    let x := llink s l
    let y := llink (takeEnt l s e) l
    let mine := fun (f : RetFrame) => f.vc == e.vc && reports e f.seq
    y.ret.map (fun f => (f.vc, f.seq, f.body, f.sf, f.retx)) =
      (x.ret.filter (fun f => !mine f)).map (fun f => (f.vc, f.seq, f.body, f.sf, f.retx)) ∧
    (∀ vc, vc ≠ e.vc → vcLine y vc = vcLine x vc) ∧ (∀ l', l' ≠ l → llink (takeEnt l s e) l' = llink s l') ∧
    ((BitVec.ofNat 32 e.cum - (vcLine x e.vc).acked).toNat < 2 ^ 31 →
      (vcLine y e.vc).acked = BitVec.ofNat 32 e.cum ∧ (vcLine y e.vc).grant = e.grant) ∧
    ((BitVec.ofNat 32 e.ret - (vcLine x e.vc).returned).toNat < 2 ^ 31 → (vcLine y e.vc).returned = BitVec.ofNat 32 e.ret) ∧
    (∀ f ∈ y.ret, f.vc = e.vc → f.sf + fldV s (.line l.1) 0x70 3 0 ≤ (vcLine y e.vc).topSf → f.queued = true ∨ y.lost = true) := by
  intro x y mine
  obtain ⟨q, -, hret⟩ := ret_takeEnt l s e
  have hsame : vcLine y e.vc = vcAcked x e := vcLine_takeEnt_same l s e
  refine ⟨?_, fun vc hvc => ?_, fun l' hl => ?_, fun hnewer => ?_, fun hnewer => ?_, fun f hf hvc hgap => ?_⟩
  · rw [show y.ret = _ from hret, List.map_map]
    rfl
  · exact (vcLine_takeEnt l s e vc).trans (vcLine_setVc_ne _ _ hvc)
  · exact ((takeEnt_triggers l s e).1.others l' hl).trans (llink_setLLink_ne _ _ hl)
  · rw [hsame]
    exact ⟨if_pos hnewer, if_pos hnewer⟩
  · rw [hsame]
    exact if_pos hnewer
  · rw [hsame] at hgap
    exact takeEnt_requeues l s e hf hvc hgap

end

/-! ## ARQ_RTO_EXPIRY (R303) -/

/-- R303: a frame whose timer is due is retransmitted, or loses its link. -/
theorem arqRtoExpiry_acts {s : State} {g i : Fin 4} {vc : Nat} {seq : BitVec 32} {f : RetFrame}
    (hf : (llink s (g, i)).ret.find? (fun f => f.vc == vc && f.seq == seq) = some f) (hqueued : f.queued = false) :
    let l : LinkId := (g, i)
    let due := f.sf + 2 * dLink s l + fldV s (.line g) 0x70 11 4
    (s.sf < due → exec (.arqRtoExpiry g i vc seq) s = .next s) ∧
    (due ≤ s.sf → f.retx < fldV s (.line g) 0x70 16 12 → exec (.arqRtoExpiry g i vc seq) s =
      .next (setLLink s l { llink s l with ret := (llink s l).ret.map (fun y =>
        if y.vc = f.vc ∧ y.seq = f.seq then { y with queued := true } else y) })) ∧
    (due ≤ s.sf → fldV s (.line g) 0x70 16 12 ≤ f.retx → (llink s l).lost = false → exec (.arqRtoExpiry g i vc seq) s =
      .next (raise (setLLink s l { llink s l with lost := true }) (.line g) 0x3B01 0)) := by
  intro l due
  have hexec : exec (.arqRtoExpiry g i vc seq) s = .next (if s.sf < due then s else triggerRetx s l f) := by
    change execArqRtoExpiry g i vc seq s = _
    simp only [execArqRtoExpiry, hf, hqueued, Bool.false_or, decide_eq_true_eq]
    rfl
  rw [hexec]
  refine ⟨fun hearly => by rw [if_pos hearly], fun hdue hretx => ?_, fun hdue hretx hlost => ?_⟩
  · rw [if_neg (Nat.not_lt.2 hdue), triggerRetx_queues s l f hretx]
    rfl
  · rw [if_neg (Nat.not_lt.2 hdue), triggerRetx_loses s l f hretx, loseLink_raises s l hlost]

end Sys2Proof.Retransmission
end

section
/-! PROOFS. Tags that complete (R296, R299, R305, R306, R337): what TAG_FINALISE leaves of a held frame, new in its window, received
already, outside the window, or with a tag that fails. -/
namespace Sys2Proof.FrameDelivery
open Sys2Proof Sys2Proof.Machine Sys2Proof.Laws Sys2Proof.RaisedCodes Sys2Proof.CommitsAndEpochs Sys2Proof.Decisions
  Sys2Proof.Retransmission

/-! ## Units delivered (R305, R306) -/

/-- What delivering units of a link keeps: whether data came, and for each channel the SEQs received and the cost received. -/
structure SameWindow (l : LinkId) (s t : State) : Prop where
  gotData : (llink t l).gotData = (llink s l).gotData
  counts : ∀ vc, (vcLine (llink t l) vc).cum = (vcLine (llink s l) vc).cum ∧
    (vcLine (llink t l) vc).above = (vcLine (llink s l) vc).above ∧ (vcLine (llink t l) vc).recv = (vcLine (llink s l) vc).recv

namespace SameWindow
variable {l : LinkId} {s t u : State}

theorem of_eq (hgot : (llink t l).gotData = (llink s l).gotData) (hvcs : (llink t l).vcs = (llink s l).vcs) : SameWindow l s t :=
  ⟨hgot, fun vc => by simp only [vcLine, hvcs, and_self]⟩

theorem refl (l : LinkId) (s : State) : SameWindow l s s := of_eq rfl rfl

theorem trans (h : SameWindow l s t) (g : SameWindow l t u) : SameWindow l s u := by
  refine ⟨g.gotData.trans h.gotData, fun vc => ?_⟩
  obtain ⟨hcum, habove, hrecv⟩ := h.counts vc
  obtain ⟨gcum, gabove, grecv⟩ := g.counts vc
  exact ⟨gcum.trans hcum, gabove.trans habove, grecv.trans hrecv⟩

end SameWindow

section
variable (s : State) (l : LinkId) (vc : Nat) (seq : BitVec 32)

/-- R306: credits returned leave the window and the units delivered. -/
theorem freeRx_keeps : SameWindow l s (freeRx s l vc seq) ∧ (freeRx s l vc seq).line.inbox = s.line.inbox := by
  fun_cases freeRx with
  | case3 _ x f _ v w =>
    refine ⟨⟨?_, fun vc' => ?_⟩, rfl⟩
    · rw [llink_setLLink]
      rfl
    · rw [llink_setLLink]
      by_cases h : vc' = vc
      · rw [h, vcLine_setVc]
        exact ⟨rfl, rfl, rfl⟩
      · rw [vcLine_setVc_ne _ _ h]
        exact ⟨rfl, rfl, rfl⟩
  | _ => exact ⟨.refl l s, rfl⟩

theorem sameWindow_pushUnits (us : List LUnit) : SameWindow l s (pushUnits s l vc seq us) :=
  (SameWindow.of_eq rfl rfl : SameWindow l s { s with line := { s.line with
    inbox := s.line.inbox ++ us.map (fun u => ⟨l, vc, seq, false, u⟩) } }).trans (freeRx_keeps _ l vc seq).1

/-- R305: the units of a frame join those delivered. -/
theorem inbox_pushUnits (us : List LUnit) : (pushUnits s l vc seq us).line.inbox =
    s.line.inbox ++ us.map (fun u => ⟨l, vc, seq, false, u⟩) :=
  (freeRx_keeps _ l vc seq).2

theorem onlyChanges_pushUnits (us : List LUnit) : OnlyChanges [.line] s (pushUnits s l vc seq us) :=
  onlyChanges_then (onlyChanges_line s _) (onlyChanges_freeRx _ l vc seq)

/-- R305: the frame of a SEQ that has waited above a gap is delivered. -/
def pushWaiting : State :=
  match (llink s l).rx.find? (fun f => f.vc == vc && f.seq == seq) with
  | some f => pushUnits (setLLink s l { llink s l with
      rx := (llink s l).rx.map (fun y => if y.vc = vc ∧ y.seq = seq then { y with units := [] } else y) }) l vc seq f.units
  | none => s

theorem pushRun_succ (n : Nat) : pushRun s l vc seq (n + 1) = pushRun (pushWaiting s l vc seq) l vc (seq + 1) n := rfl

theorem pushWaiting_keeps : SameWindow l s (pushWaiting s l vc seq) ∧ OnlyChanges [.line] s (pushWaiting s l vc seq) := by
  unfold pushWaiting
  split
  · refine ⟨.trans (.of_eq ?_ ?_) (sameWindow_pushUnits _ l vc seq _),
      onlyChanges_then (onlyChanges_line s _) (onlyChanges_pushUnits _ l vc seq _)⟩ <;> rw [llink_setLLink]
  · exact ⟨.refl l s, onlyChanges_refl _ s⟩

theorem pushRun_keeps (n : Nat) : SameWindow l s (pushRun s l vc seq n) ∧ OnlyChanges [.line] s (pushRun s l vc seq n) := by
  induction n generalizing s seq with
  | zero => exact ⟨.refl l s, onlyChanges_refl _ s⟩
  | succ n ih =>
    obtain ⟨hwindow, honly⟩ := pushWaiting_keeps s l vc seq
    obtain ⟨hwindow', honly'⟩ := ih (pushWaiting s l vc seq) (seq + 1)
    rw [pushRun_succ]
    exact ⟨hwindow.trans hwindow', onlyChanges_then honly honly'⟩

end

/-! ## A frame accepted (R299, R306, R329) -/

section
variable (s : State) (l : LinkId) (h : FrHdr) (body : Bytes)

/-- The parts that an accepted frame may change. -/
def acceptedParts : List Part := .line :: .pondPrio :: raisedParts

/-- R299, R306: the counts of a channel after a frame is received. -/
def vcReceived (v : VcLine) (seq : BitVec 32) (cost : Nat) : VcLine :=
  let a := advance v.cum (seq :: v.above) (v.above.length + 1)
  { v with cum := a.1, above := a.2, held := v.held + cost, recv := v.recv + BitVec.ofNat 32 cost }

/-- R329: what a bootstrap frame discards is raised. -/
theorem onlyChanges_bootUnits (id : Nat) (us : List LUnit) : OnlyChanges raisedParts s (bootUnits s l id us).1 := by
  unfold bootUnits
  split
  · exact onlyChanges_refl _ s
  · exact onlyChanges_foldl (fun v _ => onlyChanges_raise v _ _ _) _ s

/-- R329: a frame under a derived key keeps all its units. -/
theorem bootUnits_of_keyed {id : Nat} (hid : id ≠ 0) (us : List LUnit) : bootUnits s l id us = (s, us) := if_pos hid

theorem onlyChanges_pondFirst (g : Fin 4) (n : Nat) : OnlyChanges [.pondPrio, .ctr] s (pondFirst s g n) := by
  refine onlyChanges_trans (ps := [.pondPrio]) ?_ (onlyChanges_count _ _ _ _)
  intro p hp
  cases p <;> simp_all [Part.same]

/-- R299, R305, R306: an accepted frame is charged to its channel; then its units are delivered, those of VC0 and VC6 in order. -/
theorem acceptFrame_cases : ∃ v x us, OnlyChanges acceptedParts s v ∧ v.line = (setLLink s l x).line ∧ x.gotData = true ∧
    vcLine x h.vc = vcReceived (vcLine (llink s l) h.vc) (BitVec.ofNat 32 h.seq) (frameCost body) ∧
    (h.keyId ≠ 0 → us = (unitsOf h.vc body).1) ∧
    acceptFrame s l h body = if h.vc == 0 || h.vc == 6 then
      pushRun v l h.vc (vcLine (llink s l) h.vc).cum ((vcLine x h.vc).cum - (vcLine (llink s l) h.vc).cum).toNat
      else pushUnits v l h.vc (BitVec.ofNat 32 h.seq) us := by
  unfold acceptFrame
  extract_lets seq x v a u cost s1 b ordered f s2 s3 s4
  have hs1 : OnlyChanges raisedParts s s1 := onlyChanges_ite _ (onlyChanges_refl _ s) (onlyChanges_raise s _ _ _)
  have hb : OnlyChanges raisedParts s b.1 := onlyChanges_then hs1 (onlyChanges_bootUnits s1 l h.keyId u.1)
  have hs4 : OnlyChanges [.ctr, .pondPrio] s2 s4 := onlyChanges_then
    (onlyChanges_mono (onlyChanges_count s2 _ _ _) (by simp))
    (onlyChanges_ite _ (onlyChanges_mono (onlyChanges_pondFirst s3 _ _) (by simp)) (onlyChanges_refl _ s3))
  have hs2 : OnlyChanges [.line] b.1 s2 := onlyChanges_line b.1 _
  refine ⟨s4, { x with gotData := true, rx := x.rx.concat f }.setVc h.vc (vcReceived v seq cost), b.2, ?_, ?_, rfl,
    vcLine_setVc _ _ _, fun hid => ?_, ?_⟩
  · exact onlyChanges_then (onlyChanges_mono hb (by simp +contextual [acceptedParts]))
      (onlyChanges_then (onlyChanges_mono hs2 (by simp [acceptedParts])) (onlyChanges_mono hs4 (by simp [acceptedParts, raisedParts])))
  · have hline : b.1.line = s.line := hb .line (by decide)
    rw [hs4 .line (by decide)]
    simp only [s2, setLLink, hline]
    rfl
  · exact congrArg Prod.snd (bootUnits_of_keyed s1 l hid u.1)
  · rw [vcLine_setVc]
    rfl

theorem onlyChanges_acceptFrame : OnlyChanges acceptedParts s (acceptFrame s l h body) := by
  obtain ⟨v, x, us, hv, -, -, -, -, haccept⟩ := acceptFrame_cases s l h body
  rw [haccept]
  exact onlyChanges_then hv (onlyChanges_mono
    (onlyChanges_ite _ (pushRun_keeps v l h.vc _ _).2 (onlyChanges_pushUnits v l h.vc _ us)) (by simp [acceptedParts]))

/-- R299, R305, R306: an accepted frame advances its window, is charged to its channel and delivers its units. -/
theorem acceptFrame_receives :
    let t := acceptFrame s l h body
    let v := vcLine (llink s l) h.vc
    let seq := BitVec.ofNat 32 h.seq
    let a := advance v.cum (seq :: v.above) (v.above.length + 1)
    (vcLine (llink t l) h.vc).cum = a.1 ∧ (vcLine (llink t l) h.vc).above = a.2 ∧
    (vcLine (llink t l) h.vc).recv = v.recv + BitVec.ofNat 32 (frameCost body) ∧ (llink t l).gotData = true ∧
    (h.vc ≠ 0 → h.vc ≠ 6 → h.keyId ≠ 0 →
      t.line.inbox = s.line.inbox ++ (unitsOf h.vc body).1.map (fun u => ⟨l, h.vc, seq, false, u⟩)) := by
  intro t v seq a
  obtain ⟨w, x, us, -, hline, hgot, hvc, hus, haccept⟩ := acceptFrame_cases s l h body
  have hlink : llink w l = x := by
    rw [llink, hline]
    exact llink_setLLink s l x
  have hwindow : SameWindow l w t := by
    rw [show t = _ from haccept]
    split
    · exact (pushRun_keeps w l h.vc _ _).1
    · exact sameWindow_pushUnits w l h.vc _ us
  obtain ⟨hcum, habove, hrecv⟩ := hwindow.counts h.vc
  rw [hlink, hvc] at hcum habove hrecv
  refine ⟨hcum, habove, hrecv, (hwindow.gotData.trans (congrArg LLink.gotData hlink)).trans hgot, fun h0 h6 hid => ?_⟩
  rw [show t = _ from haccept, if_neg (by simp [h0, h6]), inbox_pushUnits, hline, hus hid]
  rfl

end

/-! ## A frame whose tag has verified (R296 orders 6 to 8) -/

section
variable (s : State) (l : LinkId) (slot : Fin 18) (h : FrHdr) (body : Bytes)

theorem onlyChanges_noteCopy (vc : Nat) (seq : BitVec 32) : OnlyChanges [.light] s (noteCopy s l slot vc seq body) := by
  have hlight : ∀ x, OnlyChanges [.light] s { s with light := x } := fun x p hp => by
    cases p <;> simp_all [Part.same]
  unfold noteCopy
  split
  · exact onlyChanges_refl _ s
  · exact onlyChanges_ite _ (hlight _) (onlyChanges_refl _ s)

theorem seqCheck_congr {s t : State} (hline : t.line = s.line) (vc : Nat) (seq : BitVec 32) :
    seqCheck t l vc seq = seqCheck s l vc seq := by
  rw [seqCheck, seqCheck, llink, llink, hline]

theorem stageCheck_congr {s t : State} (hline : t.line = s.line) (hpages : t.pages = s.pages) (vc cost bytes : Nat) :
    stageCheck t l vc cost bytes = stageCheck s l vc cost bytes := by
  have hlink : ∀ l, llink t l = llink s l := fun l => by rw [llink, llink, hline]
  have hfld : ∀ pg off bank hi lo, fldB t pg off bank hi lo = fldB s pg off bank hi lo := fun pg off bank hi lo => by
    rw [fldB, fldB, pageOf, pageOf, hpages]
  have hstaged : stageBytes t l.1 = stageBytes s l.1 := by simp only [stageBytes, hlink]
  have hretained : retBytes t l.1 = retBytes s l.1 := by simp only [retBytes, hlink]
  have hregion : lineRegion t l.1 = lineRegion s l.1 := by rw [lineRegion, lineRegion, fldV, fldV, hfld]
  rw [stageCheck, stageCheck, hlink, hfld, hstaged, hretained, hregion, fldV, fldV, hfld]

/-- R362: the state after a verified frame is noted for a comparison. -/
def copyNoted : State := noteCopy s l slot h.vc (BitVec.ofNat 32 h.seq) body

theorem onlyChanges_copyNoted : OnlyChanges [.light] s (copyNoted s l slot h body) := onlyChanges_noteCopy s l slot body _ _

theorem seqCheck_copyNoted (vc : Nat) (seq : BitVec 32) : seqCheck (copyNoted s l slot h body) l vc seq = seqCheck s l vc seq :=
  seqCheck_congr l (onlyChanges_copyNoted s l slot h body .line (by decide)) vc seq

theorem line_copyNoted : (copyNoted s l slot h body).line = s.line := onlyChanges_copyNoted s l slot h body .line (by decide)

/-- R296 order 7: a frame received already shows that data came, and is counted. -/
theorem line_finishFrame_of_duplicate (hseq : seqCheck s l h.vc (BitVec.ofNat 32 h.seq) = 7) :
    (finishFrame s l slot h body).line = (gotFrame s l).line := by
  have hcheck := (seqCheck_copyNoted s l slot h body h.vc _).trans hseq
  have hfinish : finishFrame s l slot h body = count (gotFrame (copyNoted s l slot h body) l) (.line l.1) 4 1 := by
    unfold copyNoted at hcheck ⊢
    simp only [finishFrame, hcheck]
  have hgot : (gotFrame (copyNoted s l slot h body) l).line = (gotFrame s l).line := by
    simp only [gotFrame, setLLink, llink, line_copyNoted]
  rw [hfinish, onlyChanges_count _ _ _ _ .line (by decide), hgot]

/-- R296 order 6: a frame outside the window is counted. -/
theorem line_finishFrame_of_outside (hseq : seqCheck s l h.vc (BitVec.ofNat 32 h.seq) = 6) :
    (finishFrame s l slot h body).line = s.line := by
  have hcheck := (seqCheck_copyNoted s l slot h body h.vc _).trans hseq
  have hfinish : finishFrame s l slot h body = count (copyNoted s l slot h body) (.line l.1) 3 1 := by
    unfold copyNoted at hcheck ⊢
    simp only [finishFrame, hcheck]
  rw [hfinish, onlyChanges_count _ _ _ _ .line (by decide), line_copyNoted]

theorem finishFrame_of_new (hseq : seqCheck s l h.vc (BitVec.ofNat 32 h.seq) = 0)
    (hstage : stageCheck s l h.vc (frameCost body) (32 + body.length) = 0) :
    finishFrame s l slot h body = acceptFrame (copyNoted s l slot h body) l h body := by
  have honly := onlyChanges_copyNoted s l slot h body
  have hcheck := (seqCheck_copyNoted s l slot h body h.vc _).trans hseq
  have hroom := (stageCheck_congr l (honly .line (by decide)) (honly .pages (by decide)) _ _ _).trans hstage
  unfold copyNoted at hcheck hroom
  simp only [finishFrame, hcheck, hroom]
  rfl

/-- The parts that a frame whose tag has verified may change. -/
def finishedParts : List Part := .light :: acceptedParts

theorem onlyChanges_finishFrame : OnlyChanges finishedParts s (finishFrame s l slot h body) := by
  have hcount : ∀ v i, OnlyChanges finishedParts v (count v (.line l.1) i 1) := fun v i =>
    onlyChanges_mono (onlyChanges_count v _ i 1) (by simp [finishedParts, acceptedParts, raisedParts])
  have hraise : ∀ v c, OnlyChanges finishedParts v (raise v (.line l.1) c 0) := fun v c =>
    onlyChanges_mono (onlyChanges_raise v _ c 0) (by simp +contextual [finishedParts, acceptedParts])
  have hgot : ∀ v, OnlyChanges finishedParts v (gotFrame v l) := fun v =>
    onlyChanges_mono (onlyChanges_line v _) (by simp [finishedParts, acceptedParts])
  unfold finishFrame
  extract_lets seq v
  refine onlyChanges_then (onlyChanges_mono (onlyChanges_noteCopy s l slot body h.vc seq) (by simp [finishedParts])) ?_
  split
  · exact onlyChanges_then (hgot v) (hcount _ 4)
  · exact hcount v 3
  · split
    · exact onlyChanges_mono (onlyChanges_acceptFrame v l h body) (by simp +contextual [finishedParts])
    · exact onlyChanges_then (hcount v 7) (hraise _ _)
    · exact hraise v _

end

/-! ## TAG_FINALISE (R337) -/

section
variable (s : State) (g : Fin 4) (i : Nat) (f : HeldFrame)

/-- R337: a held frame whose tag is complete leaves the tag-hold buffer. -/
def tagDone : State :=
  count (noteHold (setHold s g ((mget s.ciph.hold g []).eraseIdx i)) g) (.ciph g 1) 0 (aesBlocks f.cipher.length)

theorem onlyChanges_tagDone : OnlyChanges [.ciph, .ctr] s (tagDone s g i f) := by
  refine onlyChanges_trans (ps := [.ciph]) ?_ (onlyChanges_count _ _ _ _)
  intro p hp
  cases p <;> simp_all [Part.same, noteHold, setHold]

theorem ciph_tagDone : (tagDone s g i f).ciph = (noteHold (setHold s g ((mget s.ciph.hold g []).eraseIdx i)) g).ciph :=
  onlyChanges_count _ _ _ _ .ciph (by decide)

theorem lciph_tagDone (l : LinkId) : lciph (tagDone s g i f) l = lciph s l := by
  rw [lciph, ciph_tagDone]
  rfl

theorem hold_tagDone : mget (tagDone s g i f).ciph.hold g [] = (mget s.ciph.hold g []).eraseIdx i := by
  rw [ciph_tagDone]
  exact mget_mset_same _ _ _ _

theorem openFrame_tagDone (l : LinkId) (hdr cipher tag : Bytes) :
    openFrame (tagDone s g i f) l hdr cipher tag = openFrame s l hdr cipher tag := by
  simp only [openFrame, rxKey, lciph_tagDone]

/-- R323, R337: the state after the tag of a held frame has verified. -/
def tagVerified : State := noteVerified (tagDone s g i f) f.link f.slot (parseFr f.hdr)

theorem onlyChanges_tagVerified : OnlyChanges [.ciph, .ctr] s (tagVerified s g i f) := by
  refine onlyChanges_then (onlyChanges_tagDone s g i f) ?_
  intro p hp
  cases p <;> simp_all [Part.same, tagVerified, noteVerified]

theorem hold_tagVerified : mget (tagVerified s g i f).ciph.hold g [] = (mget s.ciph.hold g []).eraseIdx i :=
  hold_tagDone s g i f

theorem line_tagVerified : (tagVerified s g i f).line = s.line := onlyChanges_tagVerified s g i f .line (by decide)

theorem pages_tagVerified : (tagVerified s g i f).pages = s.pages := onlyChanges_tagVerified s g i f .pages (by decide)

/-- R296, R337: the state after the tag of a held frame has failed. -/
def tagFailed : State :=
  raise (count (count (tagDone s g i f) (.ciph g 1) 1 1) (.line g) 3 1) (.ciph g 1) 0x2C01 0

theorem onlyChanges_tagFailed : OnlyChanges raisedParts (tagDone s g i f) (tagFailed s g i f) :=
  onlyChanges_then (onlyChanges_mono (onlyChanges_then (onlyChanges_count _ _ _ _) (onlyChanges_count _ _ _ _)) (by simp [raisedParts]))
    (onlyChanges_raise _ _ _ _)

end

section
variable {s : State} {g : Fin 4} {i : Nat} {f : HeldFrame} (hf : (mget s.ciph.hold g [])[i]? = some f) (hearly : f.early = false)
include hf hearly

theorem exec_tagFinalise_of_fail (hopen : openFrame s f.link f.hdr f.cipher f.tag = none) :
    exec (.tagFinalise g i) s = .next (tagFailed s g i f) := by
  have hopen' := (openFrame_tagDone s g i f f.link f.hdr f.cipher f.tag).trans hopen
  unfold tagDone at hopen'
  change execTagFinalise g i s = _
  simp only [execTagFinalise, hf, hopen', hearly]
  rfl

theorem exec_tagFinalise_of_verify {body : Bytes} (hopen : openFrame s f.link f.hdr f.cipher f.tag = some body) :
    exec (.tagFinalise g i) s = .next (finishFrame (tagVerified s g i f) f.link f.slot (parseFr f.hdr) body) := by
  have hopen' := (openFrame_tagDone s g i f f.link f.hdr f.cipher f.tag).trans hopen
  unfold tagDone at hopen'
  change execTagFinalise g i s = _
  simp only [execTagFinalise, hf, hopen', hearly]
  rfl

/-- R337: a frame whose tag is complete leaves the buffer, whatever comes of it. -/
theorem tagFinalise_releases {t : State} (h : exec (.tagFinalise g i) s = .next t) :
    mget t.ciph.hold g [] = (mget s.ciph.hold g []).eraseIdx i := by
  cases hopen : openFrame s f.link f.hdr f.cipher f.tag with
  | none =>
    rw [exec_tagFinalise_of_fail hf hearly hopen] at h
    obtain rfl := Host.Outcome.next.inj h
    rw [onlyChanges_tagFailed s g i f .ciph (by decide)]
    exact hold_tagDone s g i f
  | some body =>
    rw [exec_tagFinalise_of_verify hf hearly hopen] at h
    obtain rfl := Host.Outcome.next.inj h
    rw [onlyChanges_finishFrame _ f.link f.slot _ body .ciph (by decide)]
    exact hold_tagVerified s g i f

/-- R296, R337: a frame whose tag fails raises TAG_FAIL and leaves the line as it was. -/
theorem tagFinalise_fails (hopen : openFrame s f.link f.hdr f.cipher f.tag = none) :
    Answers (.tagFinalise g i) s (fun t => t.line = s.line ∧ (pageOf t (.ciph g 1)).classSeen.getLsbD 2 = true) :=
  ⟨_, exec_tagFinalise_of_fail hf hearly hopen, (onlyChanges_tagFailed s g i f .line (by decide)).trans
    (onlyChanges_tagDone s g i f .line (by decide)), seen_raise _ (.ciph g 1) (code := 0x2C01) (by decide) 0⟩

/-- R296 orders 6 to 8: a frame whose tag verifies: received already, outside its window, or new. -/
theorem tagFinalise_verifies {body : Bytes} (hopen : openFrame s f.link f.hdr f.cipher f.tag = some body) :
    let h := parseFr f.hdr
    let seq := BitVec.ofNat 32 h.seq
    let x := llink s f.link
    let c := Instr.tagFinalise g i
    (seqCheck s f.link h.vc seq = 7 → Answers c s (fun t => t.line.inbox = s.line.inbox ∧ (llink t f.link).vcs = x.vcs ∧
      (llink t f.link).gotData = true)) ∧
    (seqCheck s f.link h.vc seq = 6 → Answers c s (fun t => t.line = s.line)) ∧
    (seqCheck s f.link h.vc seq = 0 → stageCheck s f.link h.vc (frameCost body) (32 + body.length) = 0 →
      Answers c s (fun t =>
        let v := vcLine x h.vc
        let a := advance v.cum (seq :: v.above) (v.above.length + 1)
        (vcLine (llink t f.link) h.vc).cum = a.1 ∧ (vcLine (llink t f.link) h.vc).above = a.2 ∧
        (vcLine (llink t f.link) h.vc).recv = v.recv + BitVec.ofNat 32 (frameCost body) ∧ (llink t f.link).gotData = true ∧
        (h.vc ≠ 0 → h.vc ≠ 6 → h.keyId ≠ 0 →
          t.line.inbox = s.line.inbox ++ (unitsOf h.vc body).1.map (fun u => ⟨f.link, h.vc, seq, false, u⟩)))) := by
  intro h seq x c
  have hexec := exec_tagFinalise_of_verify hf hearly hopen
  have hline := line_tagVerified s g i f
  have hseq := seqCheck_congr f.link hline h.vc seq
  refine ⟨fun hdup => ⟨_, hexec, ?_⟩, fun hout => ⟨_, hexec, ?_⟩, fun hnew hroom => ⟨_, hexec, ?_⟩⟩
  · have hgot : (finishFrame (tagVerified s g i f) f.link f.slot h body).line = (gotFrame s f.link).line := by
      rw [line_finishFrame_of_duplicate _ _ _ _ _ (hseq.trans hdup)]
      simp only [gotFrame, setLLink, llink, hline]
    have hlink : llink (finishFrame (tagVerified s g i f) f.link f.slot h body) f.link = { x with gotData := true } := by
      rw [llink, hgot]
      exact llink_setLLink s f.link _
    exact ⟨(congrArg Line.inbox hgot :), (congrArg LLink.vcs hlink :), (congrArg LLink.gotData hlink :)⟩
  · exact (line_finishFrame_of_outside _ _ _ _ _ (hseq.trans hout)).trans hline
  · have hstage := (stageCheck_congr f.link hline (pages_tagVerified s g i f) _ _ _).trans hroom
    have hcopied := (line_copyNoted (tagVerified s g i f) f.link f.slot h body).trans hline
    have hlink : llink (copyNoted (tagVerified s g i f) f.link f.slot h body) f.link = x := by
      rw [llink, hcopied]
      rfl
    have hreceives := acceptFrame_receives (copyNoted (tagVerified s g i f) f.link f.slot h body) f.link h body
    rw [← finishFrame_of_new _ f.link f.slot h body (hseq.trans hnew) hstage, hlink, hcopied] at hreceives
    exact hreceives

end

end Sys2Proof.FrameDelivery
end

section
/-! PROOFS. Frames that are launched (R137, R293, R297, R299 to R304, R319, R322): what sending a frame leaves, the sizes of bodies, and
FRAME_LAUNCH and ACK_IDLE_TIMER. -/
namespace Sys2Proof.FrameSending
open Sys2Proof Sys2Proof.Machine Sys2Proof.Laws Sys2Proof.ImagesAndModes Sys2Proof.CommitsAndEpochs Sys2Proof.BlockDecoding
  Sys2Proof.Retransmission

/-! ## What raising a code has sent (R49, R56) -/

theorem subset_out_emit (s : State) (e : Emission) : s.out ⊆ (emit s e).out := List.subset_append_left _ _

theorem subset_out_of_onlyChanges {ps : List Part} {s t : State} (h : OnlyChanges ps s t) (hout : Part.out ∉ ps) : s.out ⊆ t.out := by
  rw [show t.out = s.out from h .out hout]
  exact List.Subset.refl _

theorem subset_out_ite {c : Prop} [Decidable c] {s t u : State} (h : s.out ⊆ t.out) (g : s.out ⊆ u.out) :
    s.out ⊆ (if c then t else u).out := by
  split
  · exact h
  · exact g

theorem subset_out_notify (s : State) (v : Nat) : s.out ⊆ (notify s v).out :=
  subset_out_ite (List.Subset.refl _) (subset_out_emit s _)

/-- R49: a code raised takes back nothing that has gone out. -/
theorem subset_out_raiseSubj (s : State) (pg : PageId) (code info : Nat) (c : BitVec 64) (g : Nat) :
    s.out ⊆ (raiseSubj s pg code info c g).out := by
  unfold raiseSubj
  extract_lets cls p0 p1 s1 s2 ic sc s3 a lg s4
  have h1 : s.out ⊆ s1.out :=
    subset_out_of_onlyChanges (onlyChanges_trans (onlyChanges_noteClock s pg) (onlyChanges_setPage _ pg p1)) (by decide)
  have h2 : s1.out ⊆ s2.out := subset_out_ite (subset_out_notify s1 0) (List.Subset.refl _)
  have h3 : s2.out ⊆ s3.out := subset_out_ite (subset_out_ite (subset_out_emit sc .ibi) (List.Subset.refl _)) (List.Subset.refl _)
  have h4 : s3.out ⊆ s4.out :=
    subset_out_ite (subset_out_of_onlyChanges (onlyChanges_logPush _ _) (by decide)) (List.Subset.refl _)
  have h : s.out ⊆ s4.out := List.Subset.trans (List.Subset.trans h1 h2) (List.Subset.trans h3 h4)
  have hreq : ∀ l k d, s.out ⊆ (sendRecoverReq s4 l k d g).out := fun l k d =>
    List.Subset.trans h (subset_out_of_onlyChanges (onlyChanges_sendRecoverReq s4 l k d g) (by decide))
  refine subset_out_ite h ?_
  cases a with
  | some d => exact hreq _ _ _
  | none => exact subset_out_ite (hreq _ _ _) h

/-! ## One frame sent (R293, R319 to R322) -/

/-- What sending on the line keeps: the links, what waits for them, what has gone out, and the superframe. -/
structure Transmits (s t : State) : Prop where
  links : t.line.links = s.line.links
  lineTx : t.lineTx = s.lineTx
  out : s.out ⊆ t.out
  sf : t.sf = s.sf

namespace Transmits
variable {s t u : State}

theorem refl (s : State) : Transmits s s := ⟨rfl, rfl, List.Subset.refl _, rfl⟩

theorem trans (h : Transmits s t) (g : Transmits t u) : Transmits s u :=
  ⟨g.links.trans h.links, g.lineTx.trans h.lineTx, List.Subset.trans h.out g.out, g.sf.trans h.sf⟩

theorem ite {c : Prop} [Decidable c] (h : Transmits s t) (g : Transmits s u) : Transmits s (if c then t else u) := by
  split
  · exact h
  · exact g

theorem of_only {ps : List Part} (h : OnlyChanges ps s t) (hline : Part.line ∉ ps) (htx : Part.lineTx ∉ ps) (hout : Part.out ∉ ps)
    (hsf : Part.sf ∉ ps) : Transmits s t :=
  ⟨congrArg Line.links (h .line hline), h .lineTx htx, subset_out_of_onlyChanges h hout, h .sf hsf⟩

theorem llink (h : Transmits s t) (l : LinkId) : Machine.llink t l = Machine.llink s l := congrArg (mget · l LLink.reset) h.links

end Transmits

theorem transmits_count (s : State) (pg : PageId) (i n : Nat) : Transmits s (count s pg i n) :=
  .of_only (onlyChanges_count s pg i n) (by decide) (by decide) (by decide) (by decide)

/-- R49: a code below class 3 asks the master for nothing, so no message joins those that wait for the line. -/
theorem transmits_raise_low (s : State) (pg : PageId) {code : Nat} (hc : codeClass code < 3) (info : Nat) :
    Transmits s (raise s pg code info) :=
  have honly := onlyChanges_raise_low s pg hc info
  ⟨congrArg Line.links (honly .line (by decide)), honly .lineTx (by decide), subset_out_raiseSubj s pg code info _ _,
    honly .sf (by decide)⟩

theorem transmits_setLCiph (s : State) (l : LinkId) (x : LCiph) : Transmits s (setLCiph s l x) := ⟨rfl, rfl, List.Subset.refl _, rfl⟩

theorem transmits_startHs (s : State) (l : LinkId) : Transmits s (startHs s l) := by
  unfold startHs
  exact .ite (.refl s) (.ite ((transmits_setLCiph s l _).trans (transmits_raise_low _ _ (by decide) 0)) (transmits_setLCiph s l _))

theorem transmits_putFrame (s : State) (g : Fin 4) (k : Fin 18) (b : Bytes) : Transmits s (putFrame s g k b) :=
  ⟨rfl, rfl, subset_out_emit _ _, rfl⟩

theorem mem_out_putFrame (s : State) (g : Fin 4) (k : Fin 18) (b : Bytes) : Emission.frame (g, k) b ∈ (putFrame s g k b).out := by
  simp [putFrame, emit]

theorem transmits_chargeFarm (s : State) (g : Fin 4) (n : Nat) : Transmits s (chargeFarm s g n) := ⟨rfl, rfl, List.Subset.refl _, rfl⟩

/-- R293: the header of the next frame of a link on a slot. -/
def nextHeader (s : State) (l : LinkId) (k : Fin 18) (kind vc : Nat) (retx : Bool) (seq len : Nat) : FrHdr :=
  ⟨kind, vc, retx, k.val, gw s, linkPeer s l, seq, len, (txKey s l).id, mget (lciph s l).ctr k.val 0 + 1⟩

/-- R321: the sizes of bodies that a farm encrypts. -/
def FarmFits (body : Bytes) : Prop := 64 ≤ body.length ∧ body.length ≤ 16384

section
variable (s : State) (l : LinkId) (k : Fin 18) (kind vc : Nat) (retx : Bool) (seq : Nat) {body : Bytes} (hfits : FarmFits body)
include hfits

/-- R319, R321, R322: once a frame within the farm's limits stands on its slot, counters and keys follow. -/
theorem transmits_framePut :
    Transmits (putFrame s l.1 k (sealFrame (txKey s l) (nextHeader s l k kind vc retx seq body.length) body))
      (sendFrame s l k kind vc retx seq body) := by
  obtain ⟨hmin, hmax⟩ := hfits
  unfold sendFrame
  rw [if_neg (by simp [hmin, hmax])]
  extract_lets c key n h s1 s2 s3 above due s4 s5
  have hcounted : Transmits s1 s3 := (transmits_chargeFarm s1 _ _).trans (transmits_count _ _ _ _)
  have hkeyed : Transmits s4 s5 := .ite ((transmits_raise_low s4 _ (by decide) 0).trans (transmits_startHs _ l)) (.refl s4)
  have hafter : Transmits s1 s5 := (hcounted.trans (transmits_setLCiph s3 l _)).trans hkeyed
  exact .ite (hafter.trans (transmits_raise_low s5 _ (by decide) 0)) hafter

/-- R293, R319: a body within the farm's limits goes out as a frame under the transmit key and the slot's next counter. -/
theorem sendFrame_sends : Transmits s (sendFrame s l k kind vc retx seq body) ∧
    Emission.frame (l.1, k) (sealFrame (txKey s l) (nextHeader s l k kind vc retx seq body.length) body) ∈
      (sendFrame s l k kind vc retx seq body).out :=
  have hput := transmits_framePut s l k kind vc retx seq hfits
  ⟨(transmits_putFrame s _ _ _).trans hput, hput.out (mem_out_putFrame s l.1 k _)⟩

omit hfits in
theorem transmits_restartTimers (us : List LUnit) : Transmits s (restartTimers s us) := by
  refine .of_only (ps := [.coll, .stTx]) (onlyChanges_foldl (fun v u => ?_) us s) (by decide) (by decide) (by decide) (by decide)
  intro p hp
  cases u <;> cases p <;> simp_all [Part.same]

/-- R297, R361: a DATA frame goes out on its lane; a duplicate on the spare adds to it. -/
theorem sendData_sends : Transmits s (sendData s l k vc retx seq body) ∧
    Emission.frame (l.1, k) (sealFrame (txKey s l) (nextHeader s l k 1 vc retx seq body.length) body) ∈
      (sendData s l k vc retx seq body).out := by
  obtain ⟨hsent, hframe⟩ := sendFrame_sends s l k 1 vc retx seq hfits
  unfold sendData
  extract_lets s1 s2
  have hs2 : Transmits s1 s2 := transmits_restartTimers s1 _
  split
  next d _ =>
    have hdup : Transmits s2 (sendFrame s2 l d 1 vc retx seq body) := (sendFrame_sends s2 l d 1 vc retx seq hfits).1
    exact ⟨hsent.trans (hs2.trans hdup), (hs2.trans hdup).out hframe⟩
  · exact ⟨hsent.trans hs2, hs2.out hframe⟩

end

/-! ## The sizes of bodies (R294, R301) -/

/-- R294: units packed into a body do not exceed its room. -/
theorem length_packUnits (us : List LUnit) (room : Nat) : (packUnits room us).1.length ≤ room := by
  induction us generalizing room with
  | nil => exact Nat.zero_le _
  | cons u us ih =>
    simp only [packUnits]
    split
    next hroom =>
      have hrest := ih (room - (unitBytes u).length)
      rw [List.length_append]
      omega
    · exact Nat.zero_le _

theorem length_padBytes {n : Nat} (h : 4 ≤ n) : (padBytes n).length = n := by
  simp only [padBytes, prefixed, List.length_append, length_beBytes, List.length_replicate]
  omega

/-- R294: padding brings a body to at least 64 bytes, and leaves one of more as it is. -/
theorem farmFits_padBody {l : Bytes} (h : l.length ≤ 16384) : FarmFits (padBody l) := by
  unfold padBody FarmFits
  split
  · rw [List.length_append, length_padBytes (Nat.le_max_left _ _)]
    omega
  · omega

theorem farmFits_nextBody {s : State} {l : LinkId} {vc : Nat} {body : Bytes} {rest : List LUnit}
    (h : nextBody s l vc = some (body, rest)) : FarmFits body := by
  unfold nextBody at h
  extract_lets q r b at h
  split at h
  · cases h
  · split at h
    · obtain ⟨rfl, -⟩ := Prod.mk.inj (Option.some.inj h)
      exact farmFits_padBody (length_packUnits q 16384)
    · cases h

/-- The ranges of the entries of an ACK in all. -/
def rangeCount (es : List AckEnt) : Nat := (es.map (fun e => e.ranges.length)).sum

/-- R301: an ACK reports at most as many ranges as it has room for, for each of its entries. -/
theorem limitRanges_fits (es : List AckEnt) (n : Nat) :
    (limitRanges n es).length = es.length ∧ rangeCount (limitRanges n es) ≤ n := by
  induction es generalizing n with
  | nil => exact ⟨rfl, Nat.zero_le _⟩
  | cons e es ih =>
    obtain ⟨hlen, hcount⟩ := ih (n - e.ranges.length)
    simp only [rangeCount] at hcount
    simp only [limitRanges, rangeCount, List.length_cons, List.map_cons, List.sum_cons, List.length_take, hlen, true_and]
    omega

theorem length_ackBody (sf : Nat) (es : List AckEnt) : (ackBody sf es).length = 16 + es.length * 16 + 8 * rangeCount es := by
  have hrange : ∀ r : Nat × Nat, (beBytes 4 r.1 ++ beBytes 4 r.2).length = 8 := fun r => by simp [length_beBytes]
  have hent : ∀ e : AckEnt, (beBytes 1 e.vc ++ beBytes 1 e.ranges.length ++ [0, 0] ++ beBytes 4 e.cum ++ beBytes 4 e.ret ++
      beBytes 4 e.grant).length = 16 := fun e => by simp [length_beBytes]
  have hranges : (es.flatMap (fun e => e.ranges.flatMap (fun r => beBytes 4 r.1 ++ beBytes 4 r.2))).length = 8 * rangeCount es := by
    induction es with
    | nil => rfl
    | cons e es ih =>
      simp only [rangeCount] at ih
      simp only [List.flatMap_cons, List.length_append, ih, length_flatMap_const e.ranges hrange, rangeCount, List.map_cons,
        List.sum_cons]
      omega
  simp only [ackBody, List.length_append, hranges, length_flatMap_const es hent, length_beBytes, List.length_replicate,
    List.length_cons, List.length_nil]

/-- R301: the body of an ACK on a link. -/
def ackOf (s : State) (l : LinkId) : Bytes := ackBody s.sf (limitRanges 64 (seqVcs.map (ackEnt s l)))

theorem farmFits_ackOf (s : State) (l : LinkId) : FarmFits (ackOf s l) := by
  obtain ⟨hlen, hcount⟩ := limitRanges_fits (seqVcs.map (ackEnt s l)) 64
  rw [FarmFits, ackOf, length_ackBody, hlen, List.length_map]
  have hvcs : seqVcs.length = 6 := rfl
  omega

/-! ## FRAME_LAUNCH (R297, R299, R300, R303) -/

section
variable (s : State) (l : LinkId) (k : Fin 18)

/-- R299, R300, R306: a link that has retained a new frame of a channel and charged it. -/
def linkLaunched (vc : Nat) (body : Bytes) : LLink :=
  let x := llink s l
  let c := vcLine x vc
  { x with ret := x.ret.concat ⟨vc, c.nextSeq, body, s.sf, 0, false⟩ }.setVc vc
    { c with nextSeq := c.nextSeq + 1, sent := c.sent + BitVec.ofNat 32 (frameCost body) }

/-- The state in which a new frame of a channel is retained and not yet sent. -/
def frameRetained (vc : Nat) (body : Bytes) (rest : List LUnit) : State :=
  setLLink { s with lineTx := mset s.lineTx (l, vc) rest } l (linkLaunched s l (realVc vc) body)

theorem transmits_chargeLine (g : Fin 4) (vc n : Nat) : Transmits s (chargeLine s g vc n) := by
  unfold chargeLine
  split <;> exact ⟨rfl, rfl, List.Subset.refl _, rfl⟩

/-- R299, R300, R306: a new frame of a channel is retained, charged and sent. -/
theorem launchNew_launches (vc : Nat) {body : Bytes} (rest : List LUnit) (hfits : FarmFits body) :
    let t := launchNew s l k vc body rest
    let u := frameRetained s l vc body rest
    Transmits u t ∧ Emission.frame (l.1, k) (sealFrame (txKey s l)
      (nextHeader s l k 1 (realVc vc) false (vcLine (llink s l) (realVc vc)).nextSeq.toNat body.length) body) ∈ t.out := by
  intro t u
  obtain ⟨hsent, hframe⟩ := sendData_sends u l k (realVc vc) false (vcLine (llink s l) (realVc vc)).nextSeq.toNat hfits
  have hcharged : Transmits (sendData u l k (realVc vc) false (vcLine (llink s l) (realVc vc)).nextSeq.toNat body) t :=
    ((transmits_count _ _ _ _).trans (transmits_count _ _ _ _)).trans (transmits_chargeLine _ _ _ _)
  exact ⟨hsent.trans hcharged, hcharged.out hframe⟩

/-- A retained frame after it is launched again. -/
def relaunched (s : State) (f y : RetFrame) : RetFrame :=
  if y.vc = f.vc ∧ y.seq = f.seq then { y with sf := s.sf, retx := y.retx + 1, queued := false } else y

/-- The state in which a retained frame has been taken from the retransmission queue and not yet sent. -/
def frameRequeued (f : RetFrame) : State := setLLink s l { llink s l with ret := (llink s l).ret.map (relaunched s f) }

theorem transmits_pondFirst (g : Fin 4) (n : Nat) : Transmits s (pondFirst s g n) :=
  (⟨rfl, rfl, List.Subset.refl _, rfl⟩ : Transmits s { s with
    pondPrio := if s.pondPrio.contains g then s.pondPrio else g :: s.pondPrio }).trans (transmits_count _ _ _ _)

/-- R300, R303: the first frame queued goes out again with RETX. -/
theorem launchRetx_launches {f : RetFrame} (hf : (llink s l).ret.find? (·.queued) = some f) (hfits : FarmFits f.body) :
    let t := launchRetx s l k (fun _ => true)
    (llink t l).ret = (llink s l).ret.map (relaunched s f) ∧ Emission.frame (l.1, k) (sealFrame (txKey s l)
      (nextHeader s l k 1 f.vc true f.seq.toNat f.body.length) f.body) ∈ t.out := by
  intro t
  obtain ⟨hsent, hframe⟩ := sendData_sends (frameRequeued s l f) l k f.vc true f.seq.toNat hfits
  have ht : t = pondFirst (count (sendData (frameRequeued s l f) l k f.vc true f.seq.toNat f.body) (.line l.1) 2 1) l.1
      (32 + f.body.length) := by
    simp only [t, launchRetx, Bool.and_true, hf]
    rfl
  have hafter : Transmits (sendData (frameRequeued s l f) l k f.vc true f.seq.toNat f.body) t :=
    ht ▸ (transmits_count _ _ _ _).trans (transmits_pondFirst _ _ _)
  have hlink : llink t l = _ := ((hsent.trans hafter).llink l).trans (llink_setLLink s l _)
  exact ⟨congrArg LLink.ret hlink, hafter.out hframe⟩

end

section
variable {s : State} {g i : Fin 4}

theorem frameLaunch_of_noLane (h : pickLane s (g, i) = none) : exec (.frameLaunch g i) s = .next s := by
  change execFrameLaunch g i s = _
  simp only [execFrameLaunch, h]

variable {k : Fin 18} (hlane : pickLane s (g, i) = some k) (herase : s.ciph.erasing = none) (hpace : paceOk s g = true)
  (hlost : (llink s (g, i)).lost = false) (hen : (llink s (g, i)).en = true) (hkeyed : linkKeyed s (g, i) = true)
include hlane herase hpace hlost hen hkeyed

theorem exec_frameLaunch_new {vc : Nat} {body : Bytes} {rest : List LUnit} (hpick : pickVc s (g, i) = some vc) (hvc : vc ≠ 5)
    (hbody : nextBody s (g, i) vc = some (body, rest)) (hroom : retRoom s g body = true) :
    exec (.frameLaunch g i) s = .next (launchNew (clearFull s g) (g, i) k vc body rest) := by
  change execFrameLaunch g i s = _
  simp only [execFrameLaunch, hlane, herase, hpace, hlost, hen, hkeyed, hpick, hbody, launchOr, hroom]
  simp [hroom]

theorem exec_frameLaunch_retx (hpick : pickVc s (g, i) = some 5) :
    exec (.frameLaunch g i) s = .next (launchRetx s (g, i) k (fun _ => true)) := by
  change execFrameLaunch g i s = _
  simp only [execFrameLaunch, hlane, herase, hpace, hlost, hen, hkeyed, hpick]
  simp

/-- R297, R299, R300, R306: FRAME_LAUNCH sends the next body of the channel chosen, retains it and charges its credits. -/
theorem frameLaunch_new {vc : Nat} {body : Bytes} {rest : List LUnit} (hpick : pickVc s (g, i) = some vc) (hvc : vc ≠ 5)
    (hbody : nextBody s (g, i) vc = some (body, rest)) (hroom : retRoom s g body = true) :
    let l : LinkId := (g, i)
    Answers (.frameLaunch g i) s (fun t =>
      let v := realVc vc
      let c := vcLine (llink s l) v
      (∃ f ∈ (llink t l).ret, f.vc = v ∧ f.seq = c.nextSeq ∧ f.body = body ∧ f.sf = s.sf ∧ f.retx = 0) ∧
      (vcLine (llink t l) v).nextSeq = c.nextSeq + 1 ∧
      (vcLine (llink t l) v).sent = c.sent + BitVec.ofNat 32 (frameCost body) ∧ mget t.lineTx (l, vc) [] = rest ∧
      Emission.frame (g, k) (sealFrame (txKey s l) ⟨1, v, false, k.val, gw s, linkPeer s l, c.nextSeq.toNat, body.length,
        (txKey s l).id, mget (lciph s l).ctr k.val 0 + 1⟩ body) ∈ t.out) := by
  intro l
  obtain ⟨hsent, hframe⟩ := launchNew_launches (clearFull s g) l k vc rest (farmFits_nextBody hbody)
  refine ⟨_, exec_frameLaunch_new hlane herase hpace hlost hen hkeyed hpick hvc hbody hroom, ?_⟩
  have hlink : llink (launchNew (clearFull s g) l k vc body rest) l = linkLaunched (clearFull s g) l (realVc vc) body :=
    (hsent.llink l).trans (llink_setLLink _ l _)
  have hcounts : vcLine (linkLaunched (clearFull s g) l (realVc vc) body) (realVc vc) = _ := vcLine_setVc _ _ _
  have hret : (linkLaunched (clearFull s g) l (realVc vc) body).ret =
      (llink s l).ret ++ [⟨realVc vc, (vcLine (llink s l) (realVc vc)).nextSeq, body, s.sf, 0, false⟩] := List.concat_eq_append
  have hmem := hret ▸ List.mem_append_right (llink s l).ret (List.mem_singleton_self _)
  rw [← hlink] at hmem
  refine ⟨⟨_, hmem, rfl, rfl, rfl, rfl, rfl⟩, ?_, ?_, ?_, hframe⟩
  · rw [hlink, hcounts]
    rfl
  · rw [hlink, hcounts]
    rfl
  · rw [hsent.lineTx]
    exact mget_mset_same _ _ _ _

/-- R300, R303: FRAME_LAUNCH sends the first frame queued for retransmission again. -/
theorem frameLaunch_retx {f : RetFrame} (hpick : pickVc s (g, i) = some 5)
    (hf : (llink s (g, i)).ret.find? (·.queued) = some f) (hmin : 64 ≤ f.body.length) (hmax : f.body.length ≤ 16384) :
    let l : LinkId := (g, i)
    Answers (.frameLaunch g i) s (fun t =>
      (llink t l).ret = (llink s l).ret.map (fun y => if y.vc = f.vc ∧ y.seq = f.seq then
        { y with sf := s.sf, retx := y.retx + 1, queued := false } else y) ∧
      Emission.frame (g, k) (sealFrame (txKey s l) ⟨1, f.vc, true, k.val, gw s, linkPeer s l, f.seq.toNat, f.body.length,
        (txKey s l).id, mget (lciph s l).ctr k.val 0 + 1⟩ f.body) ∈ t.out) :=
  ⟨_, exec_frameLaunch_retx hlane herase hpace hlost hen hkeyed hpick, launchRetx_launches s (g, i) k hf ⟨hmin, hmax⟩⟩

end

/-! ## ACK_IDLE_TIMER (R302) -/

section
variable {s : State} {g i : Fin 4}

theorem ackIdleTimer_of_early (h : s.sf < (llink s (g, i)).ackSf + fldV s (.line g) 0x70 31 24) :
    exec (.ackIdleTimer g i) s = .next s := by
  change execAckIdleTimer g i s = _
  simp [execAckIdleTimer, Nat.not_le.2 h]

/-- R301, R302: an ACK goes out on the lane chosen, and the link's timer starts again. -/
theorem sendAck_sends {l : LinkId} {k : Fin 18} (hlane : pickLane s l = some k) (herase : s.ciph.erasing = none) :
    ∃ u, Transmits s u ∧ Emission.frame (l.1, k) (sealFrame (txKey s l)
        (nextHeader s l k 2 0 false 0 (ackOf s l).length) (ackOf s l)) ∈ u.out ∧
      sendAck s l = count (setLLink u l { llink u l with ackSf := u.sf, gotData := false }) (.line l.1) 5 1 := by
  obtain ⟨hsent, hframe⟩ := sendFrame_sends s l k 2 0 false 0 (farmFits_ackOf s l)
  refine ⟨_, hsent, hframe, ?_⟩
  simp only [sendAck, hlane, herase, Option.isSome_none, Bool.false_eq_true, if_false]
  rfl

/-- R302: a timer that is due on a link that is up sends an ACK. -/
theorem ackIdleTimer_of_due {k : Fin 18} (hup : linkUp s (g, i) = true)
    (hdue : (llink s (g, i)).ackSf + fldV s (.line g) 0x70 31 24 ≤ s.sf) (hlane : pickLane s (g, i) = some k)
    (herase : s.ciph.erasing = none) :
    let l : LinkId := (g, i)
    Answers (.ackIdleTimer g i) s (fun t => (llink t l).ackSf = s.sf ∧ (llink t l).gotData = false ∧
      let body := ackBody s.sf (limitRanges 64 (seqVcs.map (ackEnt s l)))
      Emission.frame (g, k) (sealFrame (txKey s l) ⟨2, 0, false, k.val, gw s, linkPeer s l, 0, body.length, (txKey s l).id,
        mget (lciph s l).ctr k.val 0 + 1⟩ body) ∈ t.out) := by
  intro l
  obtain ⟨u, hsent, hframe, hack⟩ := sendAck_sends hlane herase
  have hexec : exec (.ackIdleTimer g i) s = .next (sendAck s l) := by
    change execAckIdleTimer g i s = _
    simp only [execAckIdleTimer, hup, hdue, decide_true, Bool.and_self, if_true]
    rfl
  rw [hack] at hexec
  have hcounted := transmits_count (setLLink u l { llink u l with ackSf := u.sf, gotData := false }) (.line g) 5 1
  have hlink := (hcounted.llink l).trans (llink_setLLink u l _)
  exact ⟨_, hexec, (congrArg LLink.ackSf hlink).trans hsent.sf, (congrArg LLink.gotData hlink :), hcounted.out hframe⟩

end

end Sys2Proof.FrameSending
end

section
/-! PROOFS. The settlement of O48: frames that arrive and that are sent, ACKs and retransmission. -/
namespace Sys2Proof.FramesAndArq
open Sys2Proof Sys2Proof.Machine Sys2Proof.FrameArrival Sys2Proof.Retransmission Sys2Proof.FrameDelivery Sys2Proof.FrameSending

/-- Settles O48: frames by the checks they pass, tags that complete, what an entry of an ACK leaves, and frames that are sent. -/
theorem framesAndArq : Obligations.FramesAndArq := by
  unfold Obligations.FramesAndArq
  refine ⟨fun s g k bytes span l => ?_, fun s l e => takeEnt_acks l s e, fun s g i f hf hearly _ => ?_, fun s g i => ?_⟩
  · exact ⟨lslot_delineate s g k bytes, onlyChanges_delineate s g k bytes, fill_of_badCheck,
      fun hkind hcheck howner hrx hpair => fill_checked hkind hcheck howner hrx hpair,
      fun hin hkind => data_taken hkind hin, fun hkind howner hrx hpair => data_checked hkind howner hrx hpair,
      fun hin hkind hroom => ack_taken hin hkind hroom⟩
  · exact ⟨fun t => tagFinalise_releases hf hearly, tagFinalise_fails hf hearly, fun body => tagFinalise_verifies hf hearly⟩
  · exact ⟨frameLaunch_of_noLane,
      fun k hlane herase hpace hlost hen hkeyed =>
        ⟨fun vc body rest => frameLaunch_new hlane herase hpace hlost hen hkeyed,
          fun f => frameLaunch_retx hlane herase hpace hlost hen hkeyed⟩,
      fun k => ackIdleTimer_of_due, ackIdleTimer_of_early, fun vc seq f => arqRtoExpiry_acts⟩

end Sys2Proof.FramesAndArq
end

section
/-! PROOFS. The step of the block: which command it runs, and that every command answers a next state (log entry 1). Settles O1 and O2. -/
namespace Sys2Proof.StepAndAnswer
open Sys2Proof Sys2Proof.Machine

theorem step_of_front {s : State} {c : Instr} {rest : List Instr} (h : s.pending = c :: rest) :
    step s = exec c (s.dropPending rest) := by
  rw [step, h]

theorem step_of_empty {s : State} (h : s.pending = []) : step s = .next s := by
  rw [step, h]

/-- Settles O1: the queue is empty, or a command stands at its front. -/
theorem stepRunsFront : Obligations.StepRunsFront := ⟨fun _ _ _ => step_of_front, fun _ => step_of_empty⟩

/-- Settles O2: the arm of each command has `.next` outermost, whatever it branches on below. -/
theorem everyCommandAnswers : Obligations.EveryCommandAnswers := by
  unfold Obligations.EveryCommandAnswers
  intro c s
  cases c <;> exact ⟨_, rfl⟩

end Sys2Proof.StepAndAnswer
end

section
/-! PROOFS. Selector writes of light, ports, timing, recovery and log: what a write of a select register latches (R370, R371, R372, R394,
R414, R435, R440, R441), and the settlement of O17. -/
namespace Sys2Proof.LightSelectors
open Sys2Proof Sys2Proof.Machine Sys2Proof.Laws Sys2Proof.RegisterWrites Sys2Proof.Selectors Sys2Proof.PulsesAndLaunches

/-! ## Lasers, slots and ports (R370, R371, R372) -/

theorem selector_laser (i : Fin 2) : Selector (.cart i) 0x50 (rwL 6 0 0 (.within 0 (if i = 0 then 19 else 71))) :=
  ⟨rfl, rfl, rfl, rfl, (by decide : 6 < 32), by decide, by decide, rfl, fun _ => rfl, fun _ _ _ => by simp [writeReg], fun _ _ => rfl⟩

theorem selector_lengSlot (q : Fin 4) : Selector (.leng q) 0x44 (rwL 4 0 0 (.within 0 17)) :=
  ⟨rfl, rfl, rfl, rfl, by decide, by decide, by decide, rfl, fun _ => rfl, fun _ _ _ => by simp [writeReg], fun _ _ => rfl⟩

theorem selector_port (q : Fin 4) (j : Fin 2) : Selector (.fpe q j) 0x44 (rwL 2 0 0) :=
  ⟨rfl, rfl, rfl, rfl, by decide, by decide, by decide, rfl, fun _ => rfl, fun _ _ _ => by simp [writeReg], fun _ _ => rfl⟩

theorem selector_input : Selector .tio 0x60 (rwL 1 0 0) :=
  ⟨rfl, rfl, rfl, rfl, by decide, by decide, by decide, rfl, fun _ => rfl, fun _ _ _ => by simp [writeReg], fun _ _ => rfl⟩

theorem laserCode_lt (x : LaserSt) : laserCode x < 8 := by cases x <;> decide

section
variable {s : State} {ag : Agent} {v : Word}

/-- R370: CART.LASER_SEL. -/
theorem laserSel_selects {i : Fin 2} (hw : Writable s ag (.cart i)) (hv : fld v.toNat 6 0 ≤ if i = 0 then 19 else 71) :
    Answers (.laserSelWrite ag i v) s (fun u =>
      let x := laserOf s i (fld v.toNat 6 0)
      OnlyPage (.cart i) s u ∧ reads u (.cart i) 0x50 = fld v.toNat 6 0 ∧ reads u (.cart i) 0x54 % 8 = laserCode x.st ∧
      reads u (.cart i) 0x54 / 16 % 4 = x.level % 4 ∧
      reads u (.cart i) 0x5C = if i = 0 then 0 else x.mhz % 2 ^ 28) := by
  refine (selector_laser i).answers hw (latches := fun u => laserLatch u i (v.toNat % 128))
    (inRange_within.2 ⟨Nat.zero_le _, hv⟩) rfl (fun _ _ => rfl) (fun u => by simp [laserLatch]) fun u t honly g => ?_
  have hlaser : laserOf u i (v.toNat % 128) = laserOf s i (fld v.toNat 6 0) := by
    rw [laserOf, laserOf, honly.1 .light (by decide)]
    simp [fld]
  have hstate := g.reads_shown rfl (.head _) (by decide) (by decide) (by fin_cases i <;> rfl) rfl
  have hmhz := g.reads_shown rfl (.tail _ (.tail _ (.head _))) (by decide) (by decide) (by fin_cases i <;> rfl) rfl
  rw [hlaser] at hstate hmhz
  have hcode := laserCode_lt (laserOf s i (fld v.toNat 6 0)).st
  refine ⟨g.only, g.field, ?_, ?_, hmhz.trans ?_⟩
  · simp only [hstate, fld', flag_eq]
    omega
  · have hspare := Bool.toNat_le ((laserOf s i (fld v.toNat 6 0)).st != .absent && spareLaser u i (v.toNat % 128))
    simp only [hstate, fld', flag_eq]
    omega
  · split
    · rfl
    · simp only [fld']
      omega

/-- R371: LENG.SLOT_SEL. -/
theorem lengSlotSel_selects {q : Fin 4} {k : Fin 18} (hw : Writable s ag (.leng q)) (hk : fld v.toNat 4 0 = k.val) :
    Answers (.lengSlotSelWrite ag q v) s (fun u =>
      OnlyPage (.leng q) s u ∧ reads u (.leng q) 0x44 = k.val ∧
      reads u (.leng q) 0x50 = (mget s.light.rxInfo (q, k) 0).toNat ∧
      reads u (.leng q) 0x4C % 32 = (ringOf s q k 0).ring % 32) := by
  refine (selector_lengSlot q).answers hw (latches := fun u => lengLatch u q (groupSlot (v.toNat % 32))) (inRange_slot hk)
    rfl (fun _ _ => rfl) (fun u => by simp [lengLatch]) fun u t honly g => ?_
  have hlight : u.light = s.light := honly.1 .light (by decide)
  rw [groupSlot_of_fld hk] at g
  have hrings := g.reads_shown rfl (.tail _ (.head _)) (by decide) (by decide) rfl rfl
  have hpower := g.reads_shown rfl (.tail _ (.tail _ (.head _))) (by decide) (by decide) rfl rfl
  refine ⟨g.only, g.field.trans hk, ?_, ?_⟩
  · rw [hpower, hlight]
    exact Nat.mod_eq_of_lt (BitVec.isLt _)
  · have hring : ringOf u q k 0 = ringOf s q k 0 := by rw [ringOf, ringOf, hlight]
    rw [hrings, ← hring]
    simp only [List.range_succ, List.range_zero, List.nil_append, List.cons_append, List.foldl_cons, List.foldl_nil, fld']
    change (0 + (ringOf u q k 0).ring % 2 ^ 5 * 2 ^ (5 * 0) + _ + _ + _ + _) % 2 ^ 32 % 32 = _
    omega

/-- R372: FPE.PORT_SEL. -/
theorem portSel_selects {q : Fin 4} {j : Fin 2} (hw : Writable s ag (.fpe q j)) :
    Answers (.fpePortSelWrite ag q j v) s (fun u =>
      let x := phy s (fpePort q j ⟨v.toNat % 8, by omega⟩)
      OnlyPage (.fpe q j) s u ∧ reads u (.fpe q j) 0x44 = fld v.toNat 2 0 ∧ reads u (.fpe q j) 0x48 % 4 = x.link % 4 ∧
      reads u (.fpe q j) 0x48 / 4 % 16 = x.locked.toNat ∧ reads u (.fpe q j) 0x4C = x.rxp.toNat) := by
  refine (selector_port q j).answers hw (latches := fun u => fpeLatch u q j ⟨v.toNat % 8, by omega⟩) rfl rfl (fun _ _ => rfl)
    (fun u => by simp [fpeLatch]) fun u t honly g => ?_
  have hphy : phy u (fpePort q j ⟨v.toNat % 8, by omega⟩) = phy s (fpePort q j ⟨v.toNat % 8, by omega⟩) := by
    rw [phy, phy, honly.1 .light (by decide)]
  have hlink := g.reads_shown rfl (.head _) (by decide) (by decide) rfl rfl
  have hpower := g.reads_shown rfl (.tail _ (.head _)) (by decide) (by decide) rfl rfl
  rw [hphy] at hlink hpower
  generalize phy s _ = x at *
  have hlocked := x.locked.isLt
  refine ⟨g.only, g.field, ?_, ?_, hpower.trans (Nat.mod_eq_of_lt x.rxp.isLt)⟩
  · simp only [hlink, fld']
    omega
  · simp only [hlink, fld']
    omega

/-- R414: TIO.EVT_SEL. -/
theorem evtSel_selects (hw : Writable s ag .tio) : Answers (.evtSelWrite ag v) s (fun u =>
    let e := (evtOf s (fin4 v.toNat)).ents.headD ⟨0, 0, 0⟩
    OnlyPage .tio s u ∧ reads u .tio 0x60 = fld v.toNat 1 0 ∧ reads u .tio 0x68 = e.sf % 2 ^ 32 ∧
    reads u .tio 0x6C = e.sf / 2 ^ 32 % 2 ^ 32) := by
  refine selector_input.answers hw (latches := fun u =>
    let e := (evtOf u (fin4 v.toNat)).ents.headD ⟨0, 0, 0⟩
    [(0x68, e.sf), (0x6C, e.sf / 2 ^ 32), (0x70, e.ofs + 131072 * e.id)]) rfl rfl (fun _ _ => rfl) (fun u => by simp)
    fun u t honly g => ?_
  have hevt : evtOf u (fin4 v.toNat) = evtOf s (fin4 v.toNat) := by rw [evtOf, evtOf, honly.1 .tio (by decide)]
  have hlow := g.reads_shown rfl (.head _) (by decide) (by decide) rfl rfl
  have hhigh := g.reads_shown rfl (.tail _ (.head _)) (by decide) (by decide) rfl rfl
  rw [hevt] at hlow hhigh
  exact ⟨g.only, g.field, hlow, hhigh⟩

end

/-! ## Select registers on pages that do not read as their fields alone (R394, R440) -/

/-- A select register whose page has registers that read otherwise than as their fields: one live field from bit 0 up, any value of
which is taken, and which reads as it was accepted. -/
structure FreeSelector (pg : PageId) (off top : Nat) : Prop where
  reg : regDef? pg off = some (reg off [rwL top 0 0])
  hi : top < 32
  from_header : 0x40 ≤ off
  to_counters : off < 0x800
  field : ∀ s ag v, writeReg s ag pg off v = writeField s ag pg off v
  allowed : ∀ s v, extraRefusal s pg off 0 v = 0
  reads : ∀ t, pageUp t pg = true → reads t pg off = fld (regAccepted (pageOf t pg) pg off 0).toNat top 0

/-- R47: a write of such a register latches what its page does after it, over a state in which nothing but the page has changed. -/
theorem FreeSelector.answers {pg : PageId} {off hi : Nat} (h : FreeSelector pg off hi) {s : State} {ag : Agent} {v : Nat} {c : Instr}
    (hw : Writable s ag pg) (hexec : exec c s = .next (pageWrite s ag pg off v).1) {latches : State → List (Nat × Nat)}
    (hafter : ∀ old u, afterWrite old u pg off v = latchAll u pg (latches u)) (hkeys : ∀ u, ((latches u).map Prod.fst).Nodup)
    {post : State → Prop}
    (hpost : ∀ u, OnlyPage pg s u → Selects s (latchAll u pg (latches u)) pg off (fld v hi 0) (latches u) →
      post (latchAll u pg (latches u))) : Answers c s post := by
  have ht := writeField_takes h.reg rfl s ag v hw.2 rfl (h.allowed s v) nofun
  rw [pageWrite_accepted s ag pg off v _ hw.1 hw.2 h.from_header h.to_counters h.reg (h.field s ag v) (by rw [ht]), ht, hafter]
    at hexec
  change exec c s = .next (latchAll (fieldTaken s pg off (rwL hi 0 0) v) pg _) at hexec
  have honly := fieldTaken_onlyPage s pg off (rwL hi 0 0) v
  have hall := onlyPage_trans honly (latchAll_onlyPage _ pg (latches (fieldTaken s pg off (rwL hi 0 0) v)))
  have hup := (pageUp_of_onlyPage hall pg).trans hw.1
  refine ⟨_, hexec, hpost _ honly ⟨hall, hup, ?_, fun hmem => latched_latchAll _ pg (hkeys _) hmem⟩⟩
  rw [h.reads _ hup, regAccepted_latchAll, fieldTaken, regAccepted_applyIfIdle, pageOf_setPage]
  exact fld_accepted_takeField _ _ _ (rwL hi 0 0) _ h.hi

/-! ## Queues of a port (R394) -/

/-- R394: beyond TSQ_ID, a port's page reads as its fields and what the port shows. -/
theorem readReg_fport {s : State} {p : Fin 64} (hup : pageUp s (fportOf p) = true) {o : Nat} (ho : 0x40 ≤ o) (ho2 : o < 0x800)
    (hid : o ≠ 0x108) :
    (readReg s 0 (fportOf p) o 0).2 = (rwPart s (fportOf p) o ||| roPart s (fportOf p) o) % 2 ^ 32 := by
  simp only [readReg, hup]
  rw [if_neg (by decide), if_neg (by omega), if_neg (by simp [fportOf]), if_neg (by omega)]
  simp only [fportOf, if_neg hid]

/-- A port by its quadrant and its place there. -/
theorem port_index (p : Fin 64) : (⟨16 * (quadOf p).val + (portOf p).val, by omega⟩ : Fin 64) = p :=
  Fin.ext (by simp [quadOf, portOf]; omega)

theorem roPart_fport (s : State) (p : Fin 64) (o : Nat) : roPart s (fportOf p) o = fportReg s p o :=
  congrArg (fun d => fportReg s d o) (port_index p)

theorem selector_qsel (p : Fin 64) : FreeSelector (fportOf p) 0x44 4 :=
  ⟨rfl, by decide, by decide, by decide, fun _ _ _ => by simp [writeReg, fportOf], fun _ _ => rfl, fun t hup =>
    reads_oneField (pg := fportOf p) (off := 0x44) (f := rwL 4 0 0) rfl rfl t (by simp [fportOf]) (by simp [fportOf]) rfl (by decide)
      rfl (readReg_fport hup (by decide) (by decide) (by decide))⟩

/-- R394: the registers that a port's page shows of the selected queue read as latched. -/
theorem reads_portSelected {s t : State} {p : Fin 64} {sel : Nat} {l : List (Nat × Nat)} (g : Selects s t (fportOf p) 0x44 sel l)
    {o n : Nat} (hmem : (o, n) ∈ l) (ho : 0x50 ≤ o) (ho2 : o ≤ 0x60) (hd : regDef? (fportOf p) o = none)
    (hro : fportReg t p o = latched (pageOf t (fportOf p)) o) : reads t (fportOf p) o = n % 2 ^ 32 := by
  have hrw : rwPart t (fportOf p) o = 0 := by simp [rwPart, hd, show fportOf p ≠ .cpw by simp [fportOf]]
  rw [reads, readReg_fport g.up (by omega) (by omega) (by omega), hrw, roPart_fport, hro, Nat.zero_or, g.shown hmem]
  exact Nat.mod_mod _ _

theorem egQ_of_onlyPage {pg : PageId} {s t : State} (h : OnlyPage pg s t) (p : Fin 64) (q : Fin 32) : egQ t p q = egQ s p q := by
  rw [egQ, egQ, h.1 .egress (by decide)]

section
variable {s : State} {ag : Agent} {v : Word}

/-- R394: FPORT.QSEL. -/
theorem qsel_selects {p : Fin 64} (hw : Writable s ag (fportOf p)) : Answers (.fportQselWrite ag p v) s (fun u =>
    let e := egQ s p ⟨v.toNat % 32, by omega⟩
    OnlyPage (fportOf p) s u ∧ reads u (fportOf p) 0x44 = fld v.toNat 4 0 ∧
    reads u (fportOf p) 0x54 = sumWire e.pkts % 2 ^ 21 ∧ reads u (fportOf p) 0x58 = e.depthMax % 2 ^ 21 ∧
    reads u (fportOf p) 0x5C = min 0xFFFFFFFF e.delayMax ∧ reads u (fportOf p) 0x60 = e.depthAvg % 2 ^ 21) := by
  refine (selector_qsel p).answers hw rfl (latches := fun u => queueLatch u p ⟨v.toNat % 32, by omega⟩)
    (fun _ u => congrArg (fun d => latchAll u (fportOf p) (queueLatch u d ⟨v.toNat % 32, by omega⟩)) (port_index p)) (fun u => by simp [queueLatch]) fun u honly g => ?_
  have hdepth := reads_portSelected g (.tail _ (.head _)) (by decide) (by decide) rfl rfl
  have hmax := reads_portSelected g (.tail _ (.tail _ (.head _))) (by decide) (by decide) rfl rfl
  have hdelay := reads_portSelected g (.tail _ (.tail _ (.tail _ (.head _)))) (by decide) (by decide) rfl rfl
  have havg := reads_portSelected g (.tail _ (.tail _ (.tail _ (.tail _ (.head _))))) (by decide) (by decide) rfl rfl
  rw [egQ_of_onlyPage honly] at hdepth hmax hdelay havg
  refine ⟨g.only, g.field, hdepth.trans ?_, hmax.trans ?_, hdelay.trans ?_, havg.trans ?_⟩
  all_goals try simp only [fld']
  all_goals omega

end

/-! ## Roster and charges (R440) -/

theorem readReg_rseq {s : State} (hup : pageUp s .rseq = true) {o : Nat} (ho : 0x40 ≤ o) (ho2 : o < 0x800) :
    (readReg s 0 .rseq o 0).2 = (rwPart s .rseq o ||| roPart s .rseq o) % 2 ^ 32 := by
  simp only [readReg, hup]
  rw [if_neg (by decide), if_neg (by omega), if_neg nofun, if_neg (by omega)]

/-- R440: RSEQ's select registers read as their fields. -/
theorem reads_rseqSelect {t : State} (hup : pageUp t .rseq = true) {off hi : Nat} (hd : regDef? .rseq off = some (reg off [rwL hi 0 0]))
    (ho : off = 0x58 ∨ off = 0x60) (hhi : hi < 32) : reads t .rseq off = fld (regAccepted (pageOf t .rseq) .rseq off 0).toNat hi 0 := by
  have hro : roPart t .rseq off = 0 := by rcases ho with rfl | rfl <;> rfl
  have hrw : rwPart t .rseq off = fld (regAccepted (pageOf t .rseq) .rseq off 0).toNat hi 0 := by
    simp [rwPart, hd, reg, bankOf, rwL, show ¬(0x64 ≤ off ∧ off ≤ 0x6C) by omega]
  have hfit : fld (regAccepted (pageOf t .rseq) .rseq off 0).toNat hi 0 < 2 ^ 32 :=
    (fld_lt _ _ _).trans_le (Nat.pow_le_pow_right (by decide) (by omega))
  rw [reads, readReg_rseq hup (by omega) (by omega), hro, hrw, Nat.or_zero, Nat.mod_eq_of_lt hfit]

theorem selector_roster : FreeSelector .rseq 0x60 10 :=
  ⟨rfl, by decide, by decide, by decide, fun _ _ _ => by simp [writeReg], fun _ _ => rfl,
    fun _ hup => reads_rseqSelect hup rfl (.inr rfl) (by decide)⟩

theorem selector_rsTile : FreeSelector .rseq 0x58 5 :=
  ⟨rfl, by decide, by decide, by decide, fun _ _ _ => by simp [writeReg], fun _ _ => rfl,
    fun _ hup => reads_rseqSelect hup rfl (.inl rfl) (by decide)⟩

/-- R440: the registers of RSEQ that show a selected entry. -/
theorem rseq_shows (s : State) : ∀ o ∈ [0x5C, 0x64, 0x68, 0x6C],
    0x40 ≤ o ∧ o < 0x800 ∧ rwPart s .rseq o = 0 ∧ roPart s .rseq o = latched (pageOf s .rseq) o := by
  simp [rwPart, roPart, rseqReg, regDef?, regDefs, regsRseq, reg, regB]

/-- R440: what RSEQ's page shows of a selected entry reads as latched. -/
theorem reads_rseqSelected {s t : State} {off sel : Nat} {l : List (Nat × Nat)} (g : Selects s t .rseq off sel l) {o n : Nat}
    (hmem : (o, n) ∈ l) (ho : o ∈ [0x5C, 0x64, 0x68, 0x6C]) : reads t .rseq o = n % 2 ^ 32 := by
  obtain ⟨hlo, hhi, hrw, hro⟩ := rseq_shows t o ho
  rw [reads, readReg_rseq g.up hlo hhi, hrw, hro, Nat.zero_or, g.shown hmem]
  exact Nat.mod_mod _ _

/-- Latching leaves the active values. -/
theorem fldB_latchAll (s : State) (pg : PageId) (l : List (Nat × Nat)) (o b hi lo : Nat) :
    fldB (latchAll s pg l) pg o b hi lo = fldB s pg o b hi lo := by
  rw [fldB, fldB, latchAll, pageOf_setPage]
  rfl

theorem rosterSt_lt (s : State) (g : Nat) : rosterSt s g < 4 := fld_lt _ 1 0

theorem rosterFp_lt (s : State) (g : Nat) : rosterFp s g < 2 ^ 64 := by
  have hlow : fldB s .rseq 0x68 g 31 0 < 2 ^ 32 := fld_lt _ 31 0
  have hhigh : fldB s .rseq 0x6C g 31 0 < 2 ^ 32 := fld_lt _ 31 0
  rw [rosterFp]
  omega

section
variable {s : State} {ag : Agent} {v : Word}

/-- R440: RSEQ.ROSTER_SEL. -/
theorem rosterSel_selects (hw : Writable s ag .rseq) : Answers (.rosterSelWrite ag v) s (fun u =>
    let g := v.toNat % 2048
    OnlyPage .rseq s u ∧ reads u .rseq 0x60 = g ∧ reads u .rseq 0x64 = rosterSt u g ∧
    reads u .rseq 0x68 = rosterFp u g % 2 ^ 32 ∧ reads u .rseq 0x6C = rosterFp u g / 2 ^ 32) := by
  refine selector_roster.answers hw rfl (latches := fun u => rosterLatch u (v.toNat % 2048)) (fun _ _ => rfl)
    (fun u => by simp [rosterLatch]) fun u honly g => ?_
  have hst := reads_rseqSelected g (.head _) (by simp)
  have hlow := reads_rseqSelected g (.tail _ (.head _)) (by simp)
  have hhigh := reads_rseqSelected g (.tail _ (.tail _ (.head _))) (by simp)
  have hsel := g.field
  have hstlt := rosterSt_lt u (v.toNat % 2048)
  have hfplt := rosterFp_lt u (v.toNat % 2048)
  simp only [rosterSt, rosterFp, fldB_latchAll] at *
  refine ⟨g.only, by simpa [fld] using hsel, ?_, hlow, ?_⟩
  all_goals omega

/-- R440: RSEQ.RS_TILE_SEL. -/
theorem rsTileSel_selects (hw : Writable s ag .rseq) : Answers (.rsTileSelWrite ag v) s (fun u =>
    OnlyPage .rseq s u ∧ reads u .rseq 0x58 = fld v.toNat 5 0 ∧
    reads u .rseq 0x5C % 16 = min 15 (mget s.rseq.charges (fin64 v.toNat) []).length) := by
  refine selector_rsTile.answers hw rfl (latches := fun u => tileChargeLatch u (fin64 v.toNat)) (fun _ _ => rfl)
    (fun u => by simp [tileChargeLatch]) fun u honly g => ⟨g.only, g.field, ?_⟩
  have hrseq : u.rseq = s.rseq := honly.1 .rseq (by decide)
  rw [reads_rseqSelected g (.head _) (by simp), hrseq]
  simp only [fld']
  omega

end

/-! ## Entries of the error log (R441) -/

/-- R441: the index and the choice of store that EL_SEL names, over a word. -/
def entryWord (w v : Nat) : Nat := setFld (setFld w 11 0 (fld v 11 0)) 16 16 (fld v 16 16)

theorem fld_entryWord_store (w v : Nat) : fld (entryWord w v) 16 16 = fld v 16 16 := fld_setFld_fld _ v 16 16

/-- Replacing a field leaves the bits below it. -/
theorem setFld_mod (w hi lo x : Nat) : setFld w hi lo x % 2 ^ lo = w % 2 ^ lo := by
  simp only [setFld, Nat.shiftLeft_eq]
  rw [Nat.add_mul_mod_self_right, Nat.mul_comm, Nat.sub_mul_mod]
  exact (Nat.mul_le_mul_left _ (Nat.mod_le _ _)).trans ((Nat.shiftRight_eq_div_pow w lo).symm ▸ Nat.mul_div_le w (2 ^ lo))

theorem fld_entryWord_index (w v : Nat) : fld (entryWord w v) 11 0 = fld v 11 0 := by
  have h : fld (entryWord w v) 11 0 = fld (setFld w 11 0 (fld v 11 0)) 11 0 := by
    have hm := setFld_mod (setFld w 11 0 (fld v 11 0)) 16 16 (fld v 16 16)
    simp only [entryWord, fld, Nat.shiftRight_zero] at hm ⊢
    omega
  rw [h, fld_setFld_fld]

/-- ELOG's page with EL_SEL's fields taken. -/
def entryTaken (s : State) (v : Nat) : Page :=
  let p := pageOf s .elog
  let q := { p with regs := mset p.regs (0x48, 0) (BitVec.ofNat 32 (entryWord (regActive p .elog 0x48 0).toNat v)) }
  if (mget? p.pend (0x48, 0)).isSome = true then
    { q with pend := mset q.pend (0x48, 0) (BitVec.ofNat 32 (entryWord (regAccepted p .elog 0x48 0).toNat v)) }
  else q

/-- R441: an index within its store is taken. -/
theorem writeField_entry {s : State} {ag : Agent} {v : Nat} (hw : mayWriteAll ag .elog = true)
    (hv : fld v 16 16 = 0 ∨ fld v 11 0 ≤ 63) :
    writeField s ag .elog 0x48 v = (applyIfIdle (setPage s .elog (entryTaken s v)) .elog, 0) := by
  have hd : regDef? .elog 0x48 = some (reg 0x48 [rwL 11 0 0, rwL 16 16 0]) := rfl
  have hx : extraRefusal s .elog 0x48 0 v = 0 := by
    have hbit : fld v 16 16 = 0 → bit v 16 = false := fun h => by
      simpa [fld, bit, Nat.testBit_eq_decide_div_mod_eq, Nat.shiftRight_eq_div_pow] using h
    rcases hv with hv | hv
    · simp [extraRefusal, hbit hv]
    · simp [extraRefusal, Nat.not_lt.2 hv]
  simp [writeField, hd, reg, bankOf, rwL, hw, hx, inRange, entryTaken, entryWord]

/-- R47: EL_SEL's value is accepted. -/
theorem regAccepted_entryTaken (s : State) (v : Nat) :
    ∃ w, regAccepted (entryTaken s v) .elog 0x48 0 = BitVec.ofNat 32 (entryWord w v) := by
  by_cases hp : (mget? (pageOf s .elog).pend (0x48, 0)).isSome = true
  · exact ⟨_, by simp [entryTaken, hp, regAccepted]; rfl⟩
  · have hnone : mget? (pageOf s .elog).pend (0x48, 0) = none := by simpa using hp
    exact ⟨_, by simp [regAccepted, entryTaken, hnone, regActive]; rfl⟩

/-- R47: EL_SEL's fields are active, whether values apply or wait. -/
theorem fldV_entryTaken (s : State) (v : Nat) {hi lo n : Nat} (hhi : hi < 32) (h : ∀ w, fld (entryWord w v) hi lo = n) :
    fldV (applyIfIdle (setPage s .elog (entryTaken s v)) .elog) .elog 0x48 hi lo = n := by
  have hactive : regActive (entryTaken s v) .elog 0x48 0 =
      BitVec.ofNat 32 (entryWord (regActive (pageOf s .elog) .elog 0x48 0).toNat v) := by
    simp only [entryTaken]
    split <;> simp [regActive]
  obtain ⟨w, haccepted⟩ := regAccepted_entryTaken s v
  refine regActive_applyIfIdle (f := fun w => fld w.toNat hi lo) ?_ ?_
  · rw [pageOf_setPage, hactive, fld_ofNat _ _ _ hhi, h]
  · rw [pageOf_setPage, haccepted, fld_ofNat _ _ _ hhi, h]

theorem fromBe_lt (l : Bytes) : fromBe l < 256 ^ l.length := by
  have h : ∀ (l : Bytes) (a : Nat), l.foldl (fun a b => a * 256 + b.toNat) a < (a + 1) * 256 ^ l.length := by
    intro l
    induction l with
    | nil => intro a; simp
    | cons b l ih =>
      intro a
      have hb := b.isLt
      calc _ < (a * 256 + b.toNat + 1) * 256 ^ l.length := ih _
        _ ≤ ((a + 1) * 256) * 256 ^ l.length := Nat.mul_le_mul_right _ (by omega)
        _ = _ := by rw [List.length_cons, pow_succ]; ring
  simpa [fromBe] using h l 0

theorem beAt_lt (l : Bytes) (off n : Nat) : beAt l off n < 256 ^ n :=
  (fromBe_lt _).trans_le (Nat.pow_le_pow_right (by decide) (by simp [slice]))

/-- R441: EL_SEL reads as its fields, the index lowest. -/
theorem reads_entryIndex {t : State} (hup : pageUp t .elog = true) {w v : Nat}
    (h : regAccepted (pageOf t .elog) .elog 0x48 0 = BitVec.ofNat 32 (entryWord w v)) : reads t .elog 0x48 % 4096 = fld v 11 0 := by
  have hd : regDef? .elog 0x48 = some (reg 0x48 [rwL 11 0 0, rwL 16 16 0]) := rfl
  have hrw : rwPart t .elog 0x48 = fld v 11 0 ||| fld v 16 16 <<< 16 := by
    simp [rwPart, hd, reg, bankOf, rwL, h, -BitVec.toNat_ofNat, fld_ofNat, fld_entryWord_index, fld_entryWord_store]
  have hlow : (fld v 11 0 ||| fld v 16 16 <<< 16) % 2 ^ 12 = fld v 11 0 := by
    have hzero : fld v 16 16 <<< 16 % 2 ^ 12 = 0 := by
      rw [Nat.shiftLeft_eq]
      omega
    rw [Nat.or_mod_two_pow, hzero, Nat.or_zero, Nat.mod_eq_of_lt (fld_lt v 11 0)]
  have hro : roPart t .elog 0x48 = 0 := rfl
  rw [reads, readReg_plain rfl hup (by decide) (by decide), hrw, hro, Nat.or_zero]
  omega

/-- R441: the words of an entry shown at 0x80 to 0xBC. -/
def entryWords (b : Bytes) : List (Nat × Nat) := (List.range 16).map (fun k => (0x80 + 4 * k, beAt b (4 * k) 4))

theorem mem_entryWords (b : Bytes) (n : Fin 16) : (0x80 + 4 * n.val, beAt b (4 * n.val) 4) ∈ entryWords b :=
  List.mem_map.2 ⟨n.val, List.mem_range.2 n.isLt, rfl⟩

theorem keys_entryWords (b : Bytes) : ((entryWords b).map Prod.fst).Nodup := by
  have h : (entryWords b).map Prod.fst = (List.range 16).map (fun k => 0x80 + 4 * k) := by simp [entryWords]
  rw [h]
  decide

section
variable {s : State} {ag : Agent} {v : Word}

/-- R441: ELOG.EL_SEL. -/
theorem elSel_selects (hw : Writable s ag .elog) (hv : fld v.toNat 16 16 = 0 ∨ fld v.toNat 11 0 ≤ 63) :
    Answers (.elSelWrite ag v) s (fun u =>
      let l := if fld v.toNat 16 16 = 1 then s.elog.flash else s.elog.ring
      OnlyPage .elog s u ∧ reads u .elog 0x48 % 4096 = fld v.toNat 11 0 ∧
      ∀ (e : LogEnt) (n : Fin 16), l[fld v.toNat 11 0]? = some e →
        reads u .elog (0x80 + 4 * n.val) = beAt e.bytes (4 * n.val) 4) := by
  have ht := writeField_entry (s := s) hw.2 hv
  set t := applyIfIdle (setPage s .elog (entryTaken s v.toNat)) .elog with hdef
  have hexec : exec (.elSelWrite ag v) s = .next (latchEntry t) := by
    change Host.Outcome.next (pageWrite s ag .elog 0x48 v.toNat).1 = _
    rw [pageWrite_accepted s ag .elog 0x48 v.toNat _ hw.1 hw.2 (by decide) (by decide) rfl (by simp [writeReg]) (by rw [ht]), ht]
    rfl
  have hindex : fldV t .elog 0x48 11 0 = fld v.toNat 11 0 := fldV_entryTaken s _ (by decide) fun w => fld_entryWord_index w _
  have hstore : fldV t .elog 0x48 16 16 = fld v.toNat 16 16 := fldV_entryTaken s _ (by decide) fun w => fld_entryWord_store w _
  have hwritten : OnlyPage .elog s t := onlyPage_trans (setPage_onlyPage s .elog _) (applyIfIdle_onlyPage _ _)
  have helog : t.elog = s.elog := hwritten.1 .elog (by decide)
  have honly : OnlyPage .elog s (latchEntry t) := onlyPage_trans hwritten (latchAll_onlyPage t _ _)
  have hup : pageUp (latchEntry t) .elog = true := (pageUp_of_onlyPage honly _).trans hw.1
  refine ⟨_, hexec, honly, ?_, fun e n he => ?_⟩
  · obtain ⟨x, haccepted⟩ := regAccepted_entryTaken s v.toNat
    refine reads_entryIndex hup (w := x) ?_
    rw [latchEntry, regAccepted_latchAll, hdef, regAccepted_applyIfIdle, pageOf_setPage, haccepted]
  · have hbytes : latchEntry t = latchAll t .elog (entryWords e.bytes) := by
      simp only [latchEntry, hindex, hstore, helog, he]
      rfl
    have hshown := latched_latchAll t .elog (keys_entryWords e.bytes) (mem_entryWords e.bytes n)
    rw [← hbytes] at hshown
    have hlt : _ < 2 ^ 32 := beAt_lt e.bytes (4 * n.val) 4
    rw [reads_latched rfl hup (by omega) (by omega) ?_ ?_, hshown, Nat.mod_eq_of_lt hlt]
    · simp [regDef?, regDefs, regsElog, reg]
      omega
    · exact (if_neg (by omega)).trans (if_pos (by simp; omega))

end

/-- Settles O17: each selector by its rule above. -/
theorem selectorsLightAndQueues : Obligations.SelectorsLightAndQueues := fun _ _ _ _ _ _ _ _ =>
  ⟨laserSel_selects, lengSlotSel_selects, portSel_selects, qsel_selects, evtSel_selects, rosterSel_selects, rsTileSel_selects,
    elSel_selects⟩

end Sys2Proof.LightSelectors
end

section
/-! PROOFS. The cipher state of a link, key messages sent and taken, and how a handshake begins and ends (R328 to R336). -/
namespace Sys2Proof.LineKeys
open Sys2Proof Sys2Proof.Machine Sys2Proof.Laws Sys2Proof.RaisedCodes Sys2Proof.CommitsAndEpochs Sys2Proof.PulsesAndLaunches
  Sys2Proof.BlockDecoding

/-! ## The cipher state of a link -/

section
variable (s : State) (l : LinkId) (c : LCiph)

@[simp] theorem lciph_setLCiph : lciph (setLCiph s l c) l = c := mget_mset_same _ _ _ _

theorem lciph_setLCiph_ne {l' : LinkId} (h : l' ≠ l) : lciph (setLCiph s l c) l' = lciph s l' := mget_mset_ne _ _ _ h

theorem onlyChanges_setLCiph : OnlyChanges [.ciph] s (setLCiph s l c) := by
  intro p hp
  cases p <;> first | rfl | simp at hp

end

theorem lciph_of_onlyChanges {ps : List Part} {s t : State} (h : OnlyChanges ps s t) (hp : Part.ciph ∉ ps) (l : LinkId) :
    lciph t l = lciph s l := by
  rw [lciph, lciph, h .ciph hp]

/-- R49: a code raised leaves the cipher state. -/
@[simp] theorem lciph_raise (s : State) (pg : PageId) (code info : Nat) (l : LinkId) : lciph (raise s pg code info) l = lciph s l :=
  lciph_of_onlyChanges (onlyChanges_raise s pg code info) (by decide) l

@[simp] theorem sf_raise (s : State) (pg : PageId) (code info : Nat) : (raise s pg code info).sf = s.sf :=
  onlyChanges_raise s pg code info .sf (by decide)

/-! ## Key messages (R331) -/

theorem onlyChanges_sendKey (s : State) (l : LinkId) (kind session : Nat) (m : Bytes) :
    OnlyChanges [.lineTx] s (sendKey s l kind session m) :=
  onlyChanges_foldl (fun v _ => onlyChanges_lineSend v l 6 _) _ s

@[simp] theorem lciph_sendKey (s : State) (l : LinkId) (kind session : Nat) (m : Bytes) (l' : LinkId) :
    lciph (sendKey s l kind session m) l' = lciph s l' := lciph_of_onlyChanges (onlyChanges_sendKey s l kind session m) (by decide) l'

@[simp] theorem sf_sendKey (s : State) (l : LinkId) (kind session : Nat) (m : Bytes) : (sendKey s l kind session m).sf = s.sf :=
  onlyChanges_sendKey s l kind session m .sf (by decide)

/-- R331: what a key message adds to the line's queues depends on these alone. -/
theorem lineTx_sendKey_congr {s t : State} (h : s.lineTx = t.lineTx) (l : LinkId) (kind session : Nat) (m : Bytes) :
    (sendKey s l kind session m).lineTx = (sendKey t l kind session m).lineTx := by
  unfold sendKey
  extract_lets n
  induction List.range n generalizing s t with
  | nil => exact h
  | cons f fs ih => exact ih (by simp only [lineSend, h])

/-- R331: the last fragment of a message is taken, and the message is whole. -/
theorem takeKey_of_keyIn {s u : State} {l : LinkId} {kind : Nat} {b m : Bytes} (h : KeyIn s l kind b u m) :
    takeKey s l kind b = (u, some m) := by
  obtain ⟨v, hkind, htake, hok, hall, rfl, rfl⟩ := h
  simp only [takeKey, hkind, if_true, htake, hok, Bool.not_true, Bool.false_eq_true, if_false]
  rw [if_pos]
  · rw [List.flatMap_map]
    congr 2
    refine List.flatMap_congr fun i _ => ?_
    unfold mget
    cases mget? (mset (lciph v l).frags (beAt b 2 2, kind, beAt b 4 2) b) (beAt b 2 2, kind, i) <;> rfl
  · refine List.all_eq_true.2 fun p hp => ?_
    obtain ⟨i, hi, rfl⟩ := List.mem_map.1 hp
    obtain ⟨x, hx, hlen⟩ := hall i (List.mem_range.1 hi)
    rw [hx]
    simpa using hlen

/-! ## Handshakes begun and ended (R334, R336) -/

/-- R334: the session that a transmitter starts. -/
def begunHs (s : State) (l : LinkId) : Hs :=
  ⟨.signHello, true, ((lciph s l).session + 1) % 65536, nextKeyId (curKeyId s l), [], [], [], [], none, s.sf, false⟩

section
variable {s : State} {l : LinkId}

theorem startHs_begins (hhs : (lciph s l).hs = none) (hsw : (lciph s l).pendSw = none) (herase : s.ciph.erasing = none)
    (hen : (llink s l).en = true) (hid : s.boot.idState = 1) :
    startHs s l = setLCiph s l { lciph s l with hs := some (begunHs s l), session := (lciph s l).session + 1, retrySf := none } := by
  simp only [startHs, hhs, hsw, herase, hen, hid]
  rfl

/-- R334: a transmitter that starts a handshake signs a HELLO for the next KEY_ID. -/
theorem startHs_signs (hhs : (lciph s l).hs = none) (hsw : (lciph s l).pendSw = none) (herase : s.ciph.erasing = none)
    (hen : (llink s l).en = true) (hid : s.boot.idState = 1) :
    ∃ h, (lciph (startHs s l) l).hs = some h ∧ h.st = .signHello ∧ h.init = true ∧
      h.keyId = nextKeyId (curKeyId s l) ∧ OnlyChanges [.ciph] s (startHs s l) := by
  rw [startHs_begins hhs hsw herase hen hid]
  exact ⟨begunHs s l, by rw [lciph_setLCiph], rfl, rfl, rfl, onlyChanges_setLCiph _ _ _⟩

/-- R334, R449: what starting a handshake leaves: the keys of the link, the switch that waits, and the last session's result. -/
theorem startHs_keeps (s : State) (l : LinkId) : let c := lciph s l
    let d := lciph (startHs s l) l
    d.tx = c.tx ∧ d.rx = c.rx ∧ d.rxOther = c.rxOther ∧ d.pendSw = c.pendSw ∧ d.result = c.result ∧ d.reason = c.reason := by
  simp only [startHs]
  split
  · simp
  · split <;> simp

end

/-- R336: what the end of a session at this gateway leaves. -/
theorem abortHs_ends (u : State) (l : LinkId) (ses why : Nat) : let t := abortHs u l ses why
    (lciph t l).hs = none ∧ (lciph t l).pendSw = none ∧ (lciph t l).tx = (lciph u l).tx ∧ (lciph t l).rx = (lciph u l).rx ∧
    (lciph t l).result = 2 ∧ (lciph t l).reason = why ∧ t.lineTx = (sendKey u l 0x44 ses (beBytes 2 why)).lineTx ∧
    (pageOf t (.ciph l.1 0)).classSeen.getLsbD 2 = true ∧
    (∀ h, (lciph u l).hs = some h → h.init = true → (lciph t l).retrySf = some (u.sf + 1024)) := by
  have hline : ∀ v, (raise v (.ciph l.1 0) 0x2C08 0).lineTx = v.lineTx := fun v =>
    onlyChanges_raise_low v _ (by decide) 0 .lineTx (by decide)
  have hseen := seen_raise (sendKey u l 0x44 ses (beBytes 2 why)) (.ciph l.1 0) (code := 0x2C08) (by decide) 0
  simp only [abortHs, lciph_setLCiph, lciph_raise, lciph_sendKey, sf_raise, sf_sendKey, dropSession, true_and]
  refine ⟨hline _, hseen, fun h hh hinit => ?_⟩
  simp [hh, hinit]

end Sys2Proof.LineKeys
end

section
/-! PROOFS. The key handshake of a link (R328 to R336), and the settlement of O49. -/
namespace Sys2Proof.Handshakes
open Sys2Proof Sys2Proof.Machine Sys2Proof.Laws Sys2Proof.RegisterWrites Sys2Proof.RaisedCodes Sys2Proof.ByteForms Sys2Proof.ImagesAndModes
  Sys2Proof.BlockDecoding Sys2Proof.LineKeys

/-! ## The form of signed messages (R332) -/

theorem length_sized (n : Nat) (l : Bytes) : (sized n l).length = n := length_padTo (List.length_take_le n l)

/-- A field behind the bytes in front. -/
theorem slice_append_right (a b : Bytes) (n : Nat) : slice (a ++ b) a.length n = b.take n := by
  rw [slice, List.drop_left]

theorem beAt_append_beBytes (a c : Bytes) (n v : Nat) : beAt (a ++ (beBytes n v ++ c)) a.length n = v % 256 ^ n := by
  rw [beAt, slice_append_right, List.take_left' (length_beBytes n v), fromBe_beBytes]

/-- R332: a message signed with the chain behind it is well formed. -/
theorem msgForm_signMsg {s : State} (h : s.boot.chain.length < 2 ^ 32) (m : Bytes) : msgForm (signMsg s m) m.length = true := by
  have hchain : beAt (signMsg s m) m.length 4 = s.boot.chain.length := by
    rw [signMsg, List.append_assoc, List.append_assoc, beAt_append_beBytes]
    exact Nat.mod_eq_of_lt h
  have hlength : (signMsg s m).length = m.length + 4 + s.boot.chain.length + sigLen := by
    simp only [signMsg, List.length_append, length_beBytes, length_sized]
  simp only [msgForm, hchain, hlength, beq_self_eq_true, Bool.and_true, decide_eq_true_eq]
  omega

/-- R332: a HELLO up to the chain. -/
def helloBody (s : State) (l : LinkId) (keyId : Nat) (nonce pk : Bytes) : Bytes :=
  beBytes 2 (gw s) ++ beBytes 2 (linkPeer s l) ++ beBytes 1 keyId ++ List.replicate 3 0 ++ nonce ++ pk

section
variable {s : State} {l : LinkId} {keyId : Nat} {nonce pk : Bytes}

theorem helloOk_signMsg (h : s.boot.chain.length < 2 ^ 32) (hn : nonce.length = 32) (hp : pk.length = 1568) :
    helloOk (signMsg s (helloBody s l keyId nonce pk)) = true := by
  have hlength : (helloBody s l keyId nonce pk).length = 1608 := by simp [helloBody, length_beBytes, hn, hp]
  have hform := msgForm_signMsg h (helloBody s l keyId nonce pk)
  rw [hlength] at hform
  rw [helloOk, hform, Bool.true_and]
  have hzero : slice (signMsg s (helloBody s l keyId nonce pk)) 5 3 = List.replicate 3 0 := by
    simp only [signMsg, helloBody, List.append_assoc]
    rw [← List.append_assoc, ← List.append_assoc (beBytes 2 (gw s)), ← List.append_assoc (_ ++ _) (beBytes 1 keyId)]
    exact (slice_append_right _ _ 3).trans (List.take_left' rfl)
  rw [hzero]
  rfl

/-- R332: the sender, the receiver and the KEY_ID stand at the front of a HELLO. -/
theorem hello_front : let m := signMsg s (helloBody s l keyId nonce pk)
    beAt m 0 2 = gw s % 65536 ∧ beAt m 2 2 = linkPeer s l ∧ byteAt m 4 = keyId % 256 := by
  have hpeer : linkPeer s l < 2 ^ 11 := fld_lt _ _ _
  have hwhole := Nat.mod_eq_of_lt (hpeer.trans (by decide : 2 ^ 11 < 256 ^ 2))
  simp only [signMsg, helloBody, List.append_assoc]
  refine ⟨beAt_append_beBytes [] _ 2 _, ?_, ?_⟩
  · refine Eq.trans ?_ hwhole
    simpa [length_beBytes] using beAt_append_beBytes (beBytes 2 (gw s)) _ 2 (linkPeer s l)
  · exact (BitVec.toNat_ofNat _ 8).trans (by simp)

end

/-! ## Messages received (R331, R334) -/

section
variable {s u : State} {g i : Fin 4} {b m : Bytes} {h : Hs}

/-- R334: the session that a HELLO opens at the responder. -/
def openedHs (u : State) (ses : Nat) (m : Bytes) : Hs := ⟨.verifyHello, false, ses, byteAt m 4, m, [], [], [], none, u.sf, false⟩

/-- R334: whether this gateway's own HELLO stands against one that crosses it. -/
def ownStands (u : State) (l : LinkId) : Bool :=
  (match (lciph u l).hs with | some h => h.init | none => false) && gw u < linkPeer u l

theorem ownStands_of_lower (hhs : (lciph u (g, i)).hs = some h) (hinit : h.init = true) (hlt : gw u < linkPeer u (g, i)) :
    ownStands u (g, i) = true := by
  simp [ownStands, hhs, hinit, hlt]

theorem ownStands_eq_false (hno : ∀ h, (lciph u (g, i)).hs = some h → h.init = true → linkPeer u (g, i) ≤ gw u) :
    ownStands u (g, i) = false := by
  unfold ownStands
  split
  · next h hh =>
    rw [Bool.and_eq_false_imp]
    exact fun hinit => decide_eq_false (Nat.not_lt.2 (hno h hh hinit))
  · rfl

theorem exec_helloRx (hkey : KeyIn s (g, i) 0x40 b u m) : exec (.helloRx g i b) s = .next
    (if ownStands u (g, i) = true then u else if helloOk m = false then abortHs u (g, i) (beAt b 2 2) 8
      else setLCiph u (g, i) { dropSession { lciph u (g, i) with hs := none } u.sf with
        hs := some (openedHs u (beAt b 2 2) m) }) := by
  change execHelloRx g i b s = _
  simp only [execHelloRx, takeKey_of_keyIn hkey, Bool.not_eq_true']
  rfl

/-- R334: a well-formed HELLO opens a session at the responder, which drops one in progress (log entry 67) and keeps its keys. -/
theorem helloRx_opens (hkey : KeyIn s (g, i) 0x40 b u m) (hown : ownStands u (g, i) = false) (hok : helloOk m = true) :
    let l : LinkId := (g, i)
    let c := lciph u l
    Answers (.helloRx g i b) s (fun t => ∃ h, (lciph t l).hs = some h ∧ h.st = .verifyHello ∧
      h.init = false ∧ h.session = beAt b 2 2 ∧ h.keyId = byteAt m 4 ∧ h.hello = m ∧ (lciph t l).tx = c.tx ∧
      (lciph t l).rx = c.rx ∧ (∀ l', l' ≠ l → lciph t l' = lciph u l') ∧ OnlyChanges [.ciph] u t) := by
  have hexec := exec_helloRx hkey
  rw [if_neg (by simp [hown]), if_neg (by simp [hok])] at hexec
  have hset := lciph_setLCiph u (g, i) { dropSession { lciph u (g, i) with hs := none } u.sf with
    hs := some (openedHs u (beAt b 2 2) m) }
  exact ⟨_, hexec, openedHs u (beAt b 2 2) m, (congrArg LCiph.hs hset :), rfl, rfl, rfl, rfl, rfl, (congrArg LCiph.tx hset :),
    (congrArg LCiph.rx hset :), fun l' hl => lciph_setLCiph_ne _ _ _ hl, onlyChanges_setLCiph _ _ _⟩

section
variable (hhs : (lciph u (g, i)).hs = some h) (hses : h.session = beAt b 2 2)
include hhs hses

/-- R334: an ACCEPT of the session that waits for it. -/
theorem acceptRx_taken (hkey : KeyIn s (g, i) 0x41 b u m) (hst : h.st = .sentHello) : exec (.acceptRx g i b) s = .next
    (if msgForm m 1632 then setHs u (g, i) { h with st := .verifyAccept, accept := m } else abortHs u (g, i) (beAt b 2 2) 8) := by
  change execAcceptRx g i b s = _
  simp only [execAcceptRx, takeKey_of_keyIn hkey, hhs, hst, hses, decide_true, Bool.and_self, if_true]

/-- R334: the check of a CONFIRM of the session that waits for it. -/
theorem exec_confirmRx (hkey : KeyIn s (g, i) 0x42 b u m) (hst : h.st = .sentAccept) : exec (.confirmRx g i b) s = .next
    (if m.length ≠ 40 then abortHs u (g, i) (beAt b 2 2) 8
      else if m.drop 8 ≠ confTag h true (beAt m 0 8) then abortHs u (g, i) (beAt b 2 2) 5
      else setLCiph (sendKey u (g, i) 0x43 (beAt b 2 2) (confTag h false (beAt m 0 8))) (g, i) { succeed (lciph u (g, i)) with
        pendSw := some (if u.sf < beAt m 0 8 then beAt m 0 8 else u.sf + 1, sendKeyOf h u.sf, recvKeyOf h u.sf) }) := by
  change execConfirmRx g i b s = _
  simp only [execConfirmRx, takeKey_of_keyIn hkey, hhs, hst, hses, decide_true, Bool.and_self, if_true, lciph_sendKey, sf_sendKey]

theorem confirmRx_answered (hkey : KeyIn s (g, i) 0x42 b u m) (hst : h.st = .sentAccept) (hlen : m.length = 40)
    (htag : m.drop 8 = confTag h true (beAt m 0 8)) :
    let l : LinkId := (g, i)
    Answers (.confirmRx g i b) s (fun t =>
      t.lineTx = (sendKey u l 0x43 (beAt b 2 2) (confTag h false (beAt m 0 8))).lineTx ∧ (lciph t l).hs = none ∧
      (lciph t l).result = 1 ∧ (lciph t l).tx = (lciph u l).tx ∧ (lciph t l).pendSw =
        some (if u.sf < beAt m 0 8 then beAt m 0 8 else u.sf + 1, sendKeyOf h u.sf, recvKeyOf h u.sf)) := by
  have hexec := exec_confirmRx hhs hses hkey hst
  rw [if_neg (not_not.2 hlen), if_neg (not_not.2 htag)] at hexec
  refine ⟨_, hexec, rfl, ?_⟩
  simp [succeed]

/-- R334: the check of a DONE of the session that waits for it. -/
theorem exec_doneRx (hkey : KeyIn s (g, i) 0x43 b u m) (hst : h.st = .sentConfirm) : exec (.doneRx g i b) s = .next
    (if m.length = 32 ∧ m = confTag h false (h.sw.getD 0) then setLCiph u (g, i) (succeed (lciph u (g, i)))
      else
        let why := if m.length = 32 then 5 else 8
        startHs (setLCiph (raise (sendKey u (g, i) 0x44 (beAt b 2 2) (beBytes 2 why)) (.ciph g 0) 0x2C08 0) (g, i)
          { lciph u (g, i) with hs := none, frags := [], result := 2, reason := why, retrySf := some u.sf }) (g, i)) := by
  change execDoneRx g i b s = _
  simp only [execDoneRx, takeKey_of_keyIn hkey, hhs, hst, hses, decide_true, Bool.and_self, if_true, lciph_raise, lciph_sendKey,
    sf_raise, sf_sendKey, Bool.and_eq_true, decide_eq_true_eq]

/-- R334: a DONE that fails keeps the keys of both sides. -/
theorem doneRx_fails (hkey : KeyIn s (g, i) 0x43 b u m) (hst : h.st = .sentConfirm) (htag : m ≠ confTag h false (h.sw.getD 0)) :
    let l : LinkId := (g, i)
    let c := lciph u l
    Answers (.doneRx g i b) s (fun t => (lciph t l).tx = c.tx ∧
      (lciph t l).rx = c.rx ∧ (lciph t l).rxOther = c.rxOther ∧ (lciph t l).pendSw = c.pendSw ∧ (lciph t l).result = 2 ∧
      (m.length = 32 → (lciph t l).reason = 5)) := by
  have hexec := exec_doneRx hhs hses hkey hst
  rw [if_neg fun hm => htag hm.2] at hexec
  refine ⟨_, hexec, ?_⟩
  obtain ⟨htx, hrx, hother, hsw, hresult, hreason⟩ := startHs_keeps (setLCiph
    (raise (sendKey u (g, i) 0x44 (beAt b 2 2) (beBytes 2 (if m.length = 32 then 5 else 8))) (.ciph g 0) 0x2C08 0) (g, i)
    { lciph u (g, i) with hs := none, frags := [], result := 2, reason := if m.length = 32 then 5 else 8, retrySf := some u.sf })
    (g, i)
  simp only [lciph_setLCiph] at htx hrx hother hsw hresult hreason
  exact ⟨htx, hrx, hother, hsw, hresult, fun hlen => hreason.trans (if_pos hlen)⟩

/-- R336: an ABORT of the session ends it. -/
theorem abortRx_ends (hkey : KeyIn s (g, i) 0x44 b u m) (hlen : m.length = 2) : exec (.abortRx g i b) s = .next
    (setLCiph (raise u (.ciph g 0) 0x2C08 0) (g, i) { dropSession (lciph u (g, i)) u.sf with result := 3, reason := beAt m 0 2 }) := by
  change execAbortRx g i b s = _
  simp only [execAbortRx, takeKey_of_keyIn hkey, hhs, hses, hlen, if_true, ne_eq, not_true, if_false, lciph_raise, sf_raise]

end
end

/-! ## Engines that finish, and timers (R334, R336) -/

theorem onlyChanges_drawBytes (s : State) (n : Nat) : OnlyChanges [.ciph] s (drawBytes s n).1 := by
  intro p hp
  cases p <;> first | rfl | simp at hp

@[simp] theorem lciph_drawBytes (s : State) (n : Nat) (l : LinkId) : lciph (drawBytes s n).1 l = lciph s l := rfl

theorem length_drawBytes (s : State) (n : Nat) : (drawBytes s n).2.length = n := by simp [drawBytes]

section
variable {s : State} {g i : Fin 4} {h : Hs}

/-- R332, R334: the HELLO that a gateway signs, with the random bytes that it draws for it. -/
def signedHello (s : State) (l : LinkId) (h : Hs) : Bytes :=
  let r := (drawBytes s 96).2
  signMsg s (helloBody s l h.keyId (r.take 32) (sized 1568 (Config.kemKeys (r.drop 32)).1))

theorem signDone_hello (hhs : (lciph s (g, i)).hs = some h) (hst : h.st = .signHello) (hchain : s.boot.chain.length < 2 ^ 32) :
    let l : LinkId := (g, i)
    Answers (.handshakeSignDone g i) s (fun t => ∃ m d,
      (lciph t l).hs = some { h with st := .sentHello, hello := m, dk := d, lastSf := s.sf } ∧ helloOk m = true ∧
      beAt m 0 2 = gw s % 65536 ∧ beAt m 2 2 = linkPeer s l ∧ byteAt m 4 = h.keyId % 256 ∧
      t.lineTx = (sendKey s l 0x40 h.session m).lineTx ∧ OnlyChanges [.ciph, .lineTx] s t) := by
  intro l
  let d := (Config.kemKeys ((drawBytes s 96).2.drop 32)).2
  let w := setHs (drawBytes s 96).1 l { h with st := .sentHello, hello := signedHello s l h, dk := d, lastSf := s.sf }
  have hexec : exec (.handshakeSignDone g i) s = .next (sendKey w l 0x40 h.session (signedHello s l h)) := by
    change execHandshakeSignDone g i s = _
    simp only [execHandshakeSignDone, hhs, hst, if_true]
    rfl
  have hw : OnlyChanges [.ciph] s w := onlyChanges_then (onlyChanges_drawBytes s 96) (onlyChanges_setLCiph _ _ _)
  have hnonce : ((drawBytes s 96).2.take 32).length = 32 := by simp [length_drawBytes]
  obtain ⟨hsrc, hdst, hid⟩ := hello_front (s := s) (l := l) (keyId := h.keyId) (nonce := (drawBytes s 96).2.take 32)
    (pk := sized 1568 (Config.kemKeys ((drawBytes s 96).2.drop 32)).1)
  refine ⟨_, hexec, signedHello s l h, d, ?_, helloOk_signMsg hchain hnonce (length_sized 1568 _), hsrc, hdst, hid,
    lineTx_sendKey_congr (hw .lineTx (by decide)) _ _ _ _, onlyChanges_trans hw (onlyChanges_sendKey _ _ _ _ _)⟩
  simp [w, setHs]

theorem signDone_accept (hhs : (lciph s (g, i)).hs = some h) (hst : h.st = .signAccept) :
    let l : LinkId := (g, i)
    exec (.handshakeSignDone g i) s = .next (sendKey (setHs s l
      { h with st := .sentAccept, accept := signMsg s h.accept, lastSf := s.sf }) l 0x41 h.session (signMsg s h.accept)) := by
  change execHandshakeSignDone g i s = _
  simp only [execHandshakeSignDone, hhs, hst]
  rfl

theorem verifyDone_hello_refused (hhs : (lciph s (g, i)).hs = some h) (hst : h.st = .verifyHello)
    (hwhy : helloReason s (g, i) h.hello ≠ 0) :
    exec (.handshakeVerifyDone g i) s = .next (abortHs s (g, i) h.session (helloReason s (g, i) h.hello)) := by
  change execHandshakeVerifyDone g i s = _
  simp only [execHandshakeVerifyDone, hhs, hst, if_true]

theorem verifyDone_accept_refused (hhs : (lciph s (g, i)).hs = some h) (hst : h.st = .verifyAccept)
    (hwhy : acceptReason s (g, i) h h.accept ≠ 0) :
    exec (.handshakeVerifyDone g i) s = .next (abortHs s (g, i) h.session (acceptReason s (g, i) h h.accept)) := by
  change execHandshakeVerifyDone g i s = _
  simp only [execHandshakeVerifyDone, hhs, hst, reduceCtorEq, if_false, if_true]

/-- R334: the session of a responder that has verified its HELLO. -/
def acceptedHs (s : State) (l : LinkId) (h : Hs) : Hs :=
  let r := (drawBytes s 64).2
  let e := Config.kemEncaps (r.drop 32) (slice h.hello 40 1568)
  { h with st := .signAccept, accept := sha256 h.hello ++ r.take 32 ++ sized 1568 e.1,
           derived := deriveKeys (slice h.hello 8 32) (r.take 32) (sized 32 e.2) (linkPeer s l) (gw s) h.keyId }

/-- R330, R334: what a session's receive key leaves of a link when it is installed. -/
theorem installRx_installs (s : State) (l : LinkId) (k : Hs) : let c := lciph s l
    let d := lciph (installRx s l k) l
    d.hs = some k ∧ d.rxOther = some (recvKeyOf k s.sf) ∧ d.tx = c.tx ∧ d.rx = c.rx := by
  simp [installRx]

theorem onlyChanges_installRx (s : State) (l : LinkId) (k : Hs) : OnlyChanges [.ciph] s (installRx s l k) := onlyChanges_setLCiph _ _ _

theorem verifyDone_hello_accepted (hhs : (lciph s (g, i)).hs = some h) (hst : h.st = .verifyHello)
    (hwhy : helloReason s (g, i) h.hello = 0) :
    let l : LinkId := (g, i)
    Answers (.handshakeVerifyDone g i) s (fun t =>
      let r := (drawBytes s 64).2
      let e := Config.kemEncaps (r.drop 32) (slice h.hello 40 1568)
      ∃ k, (lciph t l).hs = some k ∧ k.st = .signAccept ∧ k.keyId = h.keyId ∧
        k.derived = deriveKeys (slice h.hello 8 32) (r.take 32) (sized 32 e.2) (linkPeer s l) (gw s) h.keyId ∧
        k.accept = sha256 h.hello ++ r.take 32 ++ sized 1568 e.1 ∧ (lciph t l).rxOther = some (recvKeyOf k s.sf) ∧
        (lciph t l).tx = (lciph s l).tx ∧ (lciph t l).rx = (lciph s l).rx ∧ OnlyChanges [.ciph] s t) := by
  intro l
  have hexec : exec (.handshakeVerifyDone g i) s = .next (installRx (drawBytes s 64).1 l (acceptedHs s l h)) := by
    change execHandshakeVerifyDone g i s = _
    simp only [execHandshakeVerifyDone, hhs, hst, if_true, hwhy]
    rfl
  obtain ⟨hsession, hother, htx, hrx⟩ := installRx_installs (drawBytes s 64).1 l (acceptedHs s l h)
  exact ⟨_, hexec, acceptedHs s l h, hsession, rfl, rfl, rfl, rfl, hother, htx, hrx,
    onlyChanges_then (onlyChanges_drawBytes s 64) (onlyChanges_installRx _ _ _)⟩

/-- R334: the session of an initiator that has verified its ACCEPT and plans its switch. -/
def confirmedHs (s : State) (l : LinkId) (h : Hs) : Hs :=
  { h with st := .sentConfirm, dk := [], sw := some (s.sf + dLink s l + 16), lastSf := s.sf,
           derived := deriveKeys (slice h.hello 8 32) (slice h.accept 32 32)
             (sized 32 (Config.kemDecaps h.dk (slice h.accept 64 1568))) (gw s) (linkPeer s l) h.keyId }

theorem verifyDone_accept_confirmed (hhs : (lciph s (g, i)).hs = some h) (hst : h.st = .verifyAccept)
    (hwhy : acceptReason s (g, i) h h.accept = 0) :
    let l : LinkId := (g, i)
    Answers (.handshakeVerifyDone g i) s (fun t =>
      let sw := s.sf + dLink s l + 16
      ∃ k, (lciph t l).hs = some k ∧ k.st = .sentConfirm ∧ k.sw = some sw ∧ k.dk = [] ∧
        k.derived = deriveKeys (slice h.hello 8 32) (slice h.accept 32 32)
          (sized 32 (Config.kemDecaps h.dk (slice h.accept 64 1568))) (gw s) (linkPeer s l) h.keyId ∧
        (lciph t l).rxOther = some (recvKeyOf k s.sf) ∧ (lciph t l).pendSw = some (sw, sendKeyOf k s.sf, recvKeyOf k s.sf) ∧
        (lciph t l).tx = (lciph s l).tx ∧
        t.lineTx = (sendKey s l 0x42 h.session (beBytes 8 sw ++ confTag k true sw)).lineTx) := by
  intro l
  let sw := s.sf + dLink s l + 16
  let k := confirmedHs s l h
  let v := installRx s l k
  let w := setLCiph v l { lciph v l with pendSw := some (sw, sendKeyOf k s.sf, recvKeyOf k s.sf) }
  have hexec : exec (.handshakeVerifyDone g i) s = .next (sendKey w l 0x42 h.session (beBytes 8 sw ++ confTag k true sw)) := by
    change execHandshakeVerifyDone g i s = _
    simp only [execHandshakeVerifyDone, hhs, hst, reduceCtorEq, if_false, if_true, hwhy]
    rfl
  obtain ⟨hsession, hother, htx, -⟩ := installRx_installs s l k
  have hw : lciph w l = { lciph v l with pendSw := some (sw, sendKeyOf k s.sf, recvKeyOf k s.sf) } := lciph_setLCiph _ _ _
  have hline : w.lineTx = s.lineTx := rfl
  refine ⟨_, hexec, k, ?_⟩
  simp only [lciph_sendKey, hw]
  exact ⟨hsession, rfl, rfl, rfl, rfl, hother, rfl, htx, lineTx_sendKey_congr hline _ _ _ _⟩

theorem timeout_of_waiting (hhs : (lciph s (g, i)).hs = some h) (hst : h.st = .sentHello ∨ h.st = .sentAccept ∨ h.st = .sentConfirm) :
    exec (.handshakeTimeout g i) s = .next (if h.lastSf + 4096 ≤ s.sf then abortHs s (g, i) h.session 6 else s) := by
  have hwaits : (h.st == .sentHello || h.st == .sentAccept || h.st == .sentConfirm) = true := by
    rcases hst with hst | hst | hst <;> rw [hst] <;> rfl
  change execHandshakeTimeout g i s = _
  simp only [execHandshakeTimeout, hhs, hwaits, Bool.true_and, decide_eq_true_eq, ge_iff_le]

theorem retry_of_planned {n : Nat} (hretry : (lciph s (g, i)).retrySf = some n) :
    exec (.handshakeRetry g i) s = .next (if n ≤ s.sf then startHs s (g, i) else s) := by
  change execHandshakeRetry g i s = _
  simp only [execHandshakeRetry, hretry, ge_iff_le]

end

/-- Settles O49: each message by what its session does with it, engines and timers by the session's state. -/
theorem handshake : Obligations.Handshake := by
  unfold Obligations.Handshake
  refine ⟨fun s g i b u m => ?_, fun s g i h => ?_, fun s g i n => retry_of_planned, abortHs_ends, fun u l => startHs_signs⟩
  · refine ⟨fun hkey => ⟨fun h hhs hinit hlt => ?_, fun hno => ⟨fun hbad => ?_, fun hok => ?_⟩⟩, fun h hhs hses =>
      ⟨acceptRx_taken hhs hses, fun hkey hst => ⟨fun hlen => ?_, fun hlen htag => ?_, confirmRx_answered hhs hses hkey hst⟩,
        fun hkey hst => ⟨fun hlen htag => ?_, doneRx_fails hhs hses hkey hst⟩, abortRx_ends hhs hses⟩⟩
    · rw [exec_helloRx hkey, if_pos (ownStands_of_lower hhs hinit hlt)]
    · rw [exec_helloRx hkey, if_neg (by simp [ownStands_eq_false hno]), if_pos hbad]
    · exact helloRx_opens hkey (ownStands_eq_false hno) hok
    · rw [exec_confirmRx hhs hses hkey hst, if_pos hlen]
    · rw [exec_confirmRx hhs hses hkey hst, if_neg (not_not.2 hlen), if_pos htag]
    · rw [exec_doneRx hhs hses hkey hst, if_pos ⟨hlen, htag⟩]
  · exact fun hhs => ⟨signDone_hello hhs, signDone_accept hhs,
      fun hst => ⟨verifyDone_hello_refused hhs hst, verifyDone_hello_accepted hhs hst⟩,
      fun hst => ⟨verifyDone_accept_refused hhs hst, verifyDone_accept_confirmed hhs hst⟩, timeout_of_waiting hhs⟩

end Sys2Proof.Handshakes
end
section
/-! PROOFS. Key switch, drain and age, alarms and erasure, and clusters out of service (R327, R334, R335, R340 to R342), and the settlement
of O50. -/
namespace Sys2Proof.KeyAlarms
open Sys2Proof Sys2Proof.Machine Sys2Proof.Laws Sys2Proof.RaisedCodes Sys2Proof.CommitsAndEpochs Sys2Proof.Contributions
  Sys2Proof.LineKeys

/-! ## Key switch, drain and age (R334, R335) -/

section
variable {s : State} {g i : Fin 4}

theorem keySwitch_early {w : Nat} {tx rx : LKey} (hsw : (lciph s (g, i)).pendSw = some (w, tx, rx)) (hlt : s.sf < w) :
    exec (.keySwitch g i) s = .next s := by
  change execKeySwitch g i s = _
  simp only [execKeySwitch, hsw, hlt, if_true]

/-- R334: what a link holds once it has switched to the keys that waited. -/
def switched (s : State) (l : LinkId) (w : Nat) (tx rx : LKey) : LCiph :=
  let c := lciph s l
  { c with tx := some { tx with since := s.sf }, ctr := [], due := false, exhausted := [], rx := some { rx with since := s.sf },
           rxOther := c.rx, drain := if c.rx.isSome then some (w + 2 * dLink s l + 16) else none, pendSw := none }

theorem keySwitch_due {w : Nat} {tx rx : LKey} (hsw : (lciph s (g, i)).pendSw = some (w, tx, rx)) (hle : w ≤ s.sf) :
    let l : LinkId := (g, i)
    let c := lciph s l
    Answers (.keySwitch g i) s (fun t => let d := lciph t l
      d.tx = some { tx with since := s.sf } ∧ d.ctr = [] ∧ d.exhausted = [] ∧ d.due = false ∧
      d.rx = some { rx with since := s.sf } ∧ d.rxOther = c.rx ∧ d.pendSw = none ∧ d.hs = c.hs ∧ d.last = c.last ∧
      d.drain = (if c.rx.isSome then some (w + 2 * dLink s l + 16) else none) ∧
      (∀ l', l' ≠ l → lciph t l' = lciph s l') ∧ (pageOf t (.ciph g 0)).classSeen.getLsbD 0 = true ∧
      OnlyChanges (.ciph :: raisedParts) s t) := by
  intro l c
  have hexec : exec (.keySwitch g i) s = .next (raise (setLCiph s l (switched s l w tx rx)) (.ciph g 0) 0x0C01 0) := by
    change execKeySwitch g i s = _
    simp only [execKeySwitch, hsw, Nat.not_lt.2 hle, if_false]
    rfl
  have hlink : lciph (raise (setLCiph s l (switched s l w tx rx)) (.ciph g 0) 0x0C01 0) l = switched s l w tx rx := by
    rw [lciph_raise, lciph_setLCiph]
  refine ⟨_, hexec, ?_⟩
  simp only [hlink]
  exact ⟨rfl, rfl, rfl, rfl, rfl, rfl, rfl, rfl, rfl, rfl,
    fun l' hl => (lciph_raise _ _ _ _ l').trans (lciph_setLCiph_ne s l _ hl), seen_raise _ _ (code := 0x0C01) (by decide) 0,
    onlyChanges_trans (onlyChanges_setLCiph s l _) (onlyChanges_raise _ _ _ _)⟩

theorem keyDrainEnd_over {n : Nat} (hdrain : (lciph s (g, i)).drain = some n) (hle : n ≤ s.sf)
    (hall : ∀ k ∈ rxUp s (g, i), k.val ∈ (lciph s (g, i)).verified) :
    let l : LinkId := (g, i)
    let c := lciph s l
    Answers (.keyDrainEnd g i) s (fun t =>
      (lciph t l).rxOther = none ∧ (lciph t l).drain = none ∧ (lciph t l).rx = c.rx ∧ (lciph t l).tx = c.tx ∧
      OnlyChanges [.ciph] s t) := by
  intro l c
  have hexec : ∃ last, exec (.keyDrainEnd g i) s = .next (setLCiph s l { c with drain := none, rxOther := none, last := last }) := by
    change ∃ last, execKeyDrainEnd g i s = _
    have hverified : ((rxUp s l).all fun k => c.verified.contains k.val) = true :=
      List.all_eq_true.2 fun k hk => List.contains_iff_mem.2 (hall k hk)
    simp only [execKeyDrainEnd, hdrain, ge_iff_le, hle, decide_true, Bool.true_and]
    exact ⟨_, congrArg Host.Outcome.next (if_pos hverified)⟩
  obtain ⟨last, hexec⟩ := hexec
  refine ⟨_, hexec, ?_⟩
  simp only [lciph_setLCiph]
  exact ⟨trivial, trivial, trivial, trivial, onlyChanges_setLCiph _ _ _⟩

theorem keyDrainEnd_waits {n : Nat} (hdrain : (lciph s (g, i)).drain = some n)
    (hwait : s.sf < n ∨ ∃ k ∈ rxUp s (g, i), k.val ∉ (lciph s (g, i)).verified) : exec (.keyDrainEnd g i) s = .next s := by
  change execKeyDrainEnd g i s = _
  simp only [execKeyDrainEnd, hdrain]
  refine congrArg Host.Outcome.next (if_neg fun h => ?_)
  obtain ⟨hle, hall⟩ := (Bool.and_eq_true _ _).mp h
  rcases hwait with hlt | ⟨k, hk, hno⟩
  · exact Nat.not_lt.2 (of_decide_eq_true hle) hlt
  · exact hno (List.contains_iff_mem.1 (List.all_eq_true.1 hall k hk))

theorem keyAge_of_idle {k : LKey} (htx : (lciph s (g, i)).tx = some k) (hretry : (lciph s (g, i)).retrySf = none) :
    exec (.keyAgeExpiry g i) s =
      .next (if k.since + 2 ^ fldV s (.ciph g 0) 0x60 13 8 ≤ s.sf then startHs s (g, i) else s) := by
  change execKeyAgeExpiry g i s = _
  simp only [execKeyAgeExpiry, htx, hretry, Option.isNone_none, Bool.and_true, decide_eq_true_eq, ge_iff_le]

end

/-! ## Alarms (R340, R341) -/

/-- What a fold establishes at an element, where every step establishes it at its own and keeps it at every other. -/
theorem foldl_establishes {α σ : Type} {f : σ → α → σ} {P : α → σ → Prop} (hset : ∀ s a, P a (f s a))
    (hkeep : ∀ s a b, P a s → P a (f s b)) (l : List α) (s : σ) {a : α} (ha : a ∈ l) : P a (l.foldl f s) := by
  have hrest : ∀ (l : List α) (s : σ), P a s → P a (l.foldl f s) := by
    intro l
    induction l with
    | nil => exact fun _ h => h
    | cons b l ih => exact fun s h => ih _ (hkeep s a b h)
  induction l generalizing s with
  | nil => cases ha
  | cons b l ih =>
    obtain rfl | ha := List.mem_cons.1 ha
    · exact hrest l _ (hset s a)
    · exact ih _ ha

/-- What raising codes and dropping held frames keep: the link states, the alarm's sources, the tag-hold buffers, the words of the MSI-X
table, and the alarm bit of the I3C target. -/
structure KeepsAlarm (s t : State) : Prop where
  ciph : t.ciph = s.ciph
  links : t.line.links = s.line.links
  words : t.msix.words = s.msix.words
  alarm : t.i3c.alarmSeen = s.i3c.alarmSeen
  sf : t.sf = s.sf

namespace KeepsAlarm
variable {s t u : State}

theorem refl (s : State) : KeepsAlarm s s := ⟨rfl, rfl, rfl, rfl, rfl⟩

theorem trans (h : KeepsAlarm s t) (g : KeepsAlarm t u) : KeepsAlarm s u :=
  ⟨g.ciph.trans h.ciph, g.links.trans h.links, g.words.trans h.words, g.alarm.trans h.alarm, g.sf.trans h.sf⟩

theorem ite {c : Prop} [Decidable c] (h : KeepsAlarm s t) (g : KeepsAlarm s u) : KeepsAlarm s (if c then t else u) := by
  split
  · exact h
  · exact g

theorem of_only {ps : List Part} (h : OnlyChanges ps s t) (hciph : Part.ciph ∉ ps) (hline : Part.line ∉ ps) (hmsix : Part.msix ∉ ps)
    (hi3c : Part.i3c ∉ ps) (hsf : Part.sf ∉ ps) : KeepsAlarm s t :=
  ⟨h .ciph hciph, congrArg Line.links (h .line hline), congrArg Msix.words (h .msix hmsix), congrArg I3c.alarmSeen (h .i3c hi3c),
    h .sf hsf⟩

theorem foldl {α : Type} {f : State → α → State} (h : ∀ s a, KeepsAlarm s (f s a)) (l : List α) (s : State) :
    KeepsAlarm s (l.foldl f s) := by
  induction l generalizing s with
  | nil => exact refl s
  | cons a l ih => exact (h s a).trans (ih _)

end KeepsAlarm

theorem keepsAlarm_notify (s : State) (v : Nat) : KeepsAlarm s (notify s v) :=
  .ite ⟨rfl, rfl, rfl, rfl, rfl⟩ (.of_only (onlyChanges_emit _ _) (by decide) (by decide) (by decide) (by decide) (by decide))

/-- R49, R56: an error raised may set a pending bit, but unmasks and readdresses no vector. -/
theorem keepsAlarm_raiseSubj (s : State) (pg : PageId) (code info : Nat) (c : BitVec 64) (g : Nat) :
    KeepsAlarm s (raiseSubj s pg code info c g) := by
  unfold raiseSubj
  extract_lets cls p0 p1 s1 s2 ic sc s3 a lg s4
  have h1 : KeepsAlarm s s1 := .of_only (onlyChanges_trans (onlyChanges_noteClock s pg) (onlyChanges_setPage _ pg p1)) (by decide)
    (by decide) (by decide) (by decide) (by decide)
  have h2 : KeepsAlarm s1 s2 := .ite (keepsAlarm_notify _ _) (.refl _)
  have hsc : KeepsAlarm s2 sc := ⟨rfl, rfl, rfl, rfl, rfl⟩
  have hemit : KeepsAlarm sc (emit sc .ibi) := .of_only (onlyChanges_emit _ _) (by decide) (by decide) (by decide) (by decide) (by decide)
  have h3 : KeepsAlarm s2 s3 := .ite (.ite (hsc.trans hemit) hsc) (.refl _)
  have h4 : KeepsAlarm s3 s4 :=
    .ite (.of_only (onlyChanges_logPush _ _) (by decide) (by decide) (by decide) (by decide) (by decide)) (.refl _)
  have h : KeepsAlarm s s4 := (h1.trans h2).trans (h3.trans h4)
  have hreq : ∀ l k d, KeepsAlarm s4 (sendRecoverReq s4 l k d g) := fun l k d =>
    .of_only (onlyChanges_sendRecoverReq s4 l k d g) (by decide) (by decide) (by decide) (by decide) (by decide)
  refine .ite h ?_
  cases a with
  | some d => exact h.trans (hreq _ _ _)
  | none => exact .ite (h.trans (hreq _ _ _)) h

theorem keepsAlarm_raise (s : State) (pg : PageId) (code info : Nat) : KeepsAlarm s (raise s pg code info) :=
  keepsAlarm_raiseSubj s pg code info _ _

theorem keepsAlarm_count (s : State) (pg : PageId) (i n : Nat) : KeepsAlarm s (count s pg i n) :=
  .of_only (onlyChanges_count s pg i n) (by decide) (by decide) (by decide) (by decide) (by decide)

theorem keepsAlarm_taint (s : State) (cell : Nat) (c : BitVec 64) (cause level tile : Nat) :
    KeepsAlarm s (taint s cell c cause level tile) := by
  unfold taint enterError raiseCell raiseFor
  extract_lets cl0 cl v
  have hcell : KeepsAlarm s (setCell s cell cl) := ⟨rfl, rfl, rfl, rfl, rfl⟩
  have hraise : KeepsAlarm (setCell s cell cl) v := keepsAlarm_raiseSubj _ _ _ _ _ _
  exact (hcell.trans hraise).trans
    (.of_only (onlyChanges_sendMaster _ _) (by decide) (by decide) (by decide) (by decide) (by decide))

/-- R339: a frame released early that fails taints cells, and leaves the links. -/
theorem keepsAlarm_failEarly (s : State) (l : LinkId) (h : FrHdr) : KeepsAlarm s (failEarly s l h) := by
  unfold failEarly
  extract_lets seq mine us ln v
  have hv : KeepsAlarm s v := ⟨rfl, rfl, rfl, rfl, rfl⟩
  refine hv.trans (.foldl (fun w u => ?_) us v)
  split
  · split
    · exact .ite (keepsAlarm_taint _ _ _ _ _ _) (.refl _)
    · exact .refl _
  · exact .refl _

/-- R341: the tag-hold buffer of one group loses its contents. -/
def holdDropped (s : State) (g : Fin 4) : State :=
  ((mget s.ciph.hold g []).filter (·.early)).foldl (fun s f =>
    failEarly (raise (count (dropFrame s g) (.ciph g 1) 1 1) (.ciph g 1) 0x2C01 0) f.link (parseFr f.hdr)) (noteHold (setHold s g []) g)

theorem dropHolds_eq (s : State) : dropHolds s = (List.finRange 4).foldl holdDropped s := rfl

theorem keepsAlarm_holdDropped (s : State) (g : Fin 4) : KeepsAlarm (noteHold (setHold s g []) g) (holdDropped s g) :=
  .foldl (fun _ _ => (((keepsAlarm_count _ _ _ _).trans (keepsAlarm_count _ _ _ _)).trans (keepsAlarm_raise _ _ _ _)).trans
    (keepsAlarm_failEarly _ _ _)) _ _

/-- What dropping the tag-hold buffers keeps of an alarm. -/
structure KeepsErased (s t : State) : Prop where
  ciphers : t.ciph.links = s.ciph.links
  src : t.ciph.src = s.ciph.src
  active : t.ciph.active = s.ciph.active
  links : t.line.links = s.line.links
  words : t.msix.words = s.msix.words
  sf : t.sf = s.sf

theorem keepsErased_dropHolds (s : State) : KeepsErased s (dropHolds s) := by
  rw [dropHolds_eq]
  induction List.finRange 4 generalizing s with
  | nil => exact ⟨rfl, rfl, rfl, rfl, rfl, rfl⟩
  | cons g l ih =>
    have h := keepsAlarm_holdDropped s g
    have k := ih (holdDropped s g)
    exact ⟨k.ciphers.trans (congrArg Ciph.links h.ciph :), k.src.trans (congrArg Ciph.src h.ciph :),
      k.active.trans (congrArg Ciph.active h.ciph :), k.links.trans h.links, k.words.trans h.words, k.sf.trans h.sf⟩

/-- R341: no held frame stays. -/
theorem hold_dropHolds (s : State) (g : Fin 4) : mget (dropHolds s).ciph.hold g [] = [] := by
  rw [dropHolds_eq]
  have hhold : ∀ (s : State) (b : Fin 4), (holdDropped s b).ciph.hold = mset s.ciph.hold b [] := fun s b =>
    (congrArg Ciph.hold (keepsAlarm_holdDropped s b).ciph :)
  have hset : ∀ (s : State) (b : Fin 4), mget (holdDropped s b).ciph.hold b [] = [] := fun s b => by
    rw [hhold, mget_mset_same]
  have hkeep : ∀ (s : State) (a b : Fin 4), mget s.ciph.hold a [] = [] → mget (holdDropped s b).ciph.hold a [] = [] :=
    fun s a b h => by
      by_cases hab : a = b
      · rw [hab, hset]
      · rw [hhold, mget_mset_ne _ _ _ hab, h]
  exact foldl_establishes (f := holdDropped) (P := fun g s => mget s.ciph.hold g [] = []) hset hkeep _ s (List.mem_finRange g)

/-- R341: a state with the keys and handshakes of every link erased. -/
def linksErased (s : State) : State :=
  { s with ciph := { s.ciph with links := s.ciph.links.map (fun e => (e.1, eraseLink e.2 true)) } }

/-- R340, R341: a state with the source of an alarm noted. -/
def sourceNoted (v : State) (src : Fin 4) : State :=
  let b := BitVec.ofNat 4 (2 ^ src.val)
  { v with ciph := { v.ciph with src := v.ciph.src ||| b, active := v.ciph.active ||| b, erased := true, erasing := some v.sf },
           i3c := { v.i3c with alarmSeen := true } }

section
variable (v : State) (src : Fin 4)

theorem lciph_sourceNoted (l : LinkId) : lciph (sourceNoted v src) l = lciph v l := rfl

theorem llink_sourceNoted (l : LinkId) : llink (sourceNoted v src) l = llink v l := rfl

theorem hold_sourceNoted : (sourceNoted v src).ciph.hold = v.ciph.hold := rfl

theorem word_sourceNoted (o : Nat) : (sourceNoted v src).msix.word o = v.msix.word o := rfl

theorem src_sourceNoted : (sourceNoted v src).ciph.src = v.ciph.src ||| BitVec.ofNat 4 (2 ^ src.val) := rfl

theorem alarmSeen_sourceNoted : (sourceNoted v src).i3c.alarmSeen = true := rfl

theorem erasing_sourceNoted : (sourceNoted v src).ciph.erasing = some v.sf := rfl

end

/-- R341: every link's keys and handshakes erased, the tag-hold buffers empty, and the source noted. -/
def alarmed (s : State) (src : Fin 4) : State := sourceNoted (dropHolds (linksErased s)) src

/-- R341: no key, counter, handshake or fragment of a link stays. -/
structure Erased (c : LCiph) : Prop where
  tx : c.tx = none
  rx : c.rx = none
  rxOther : c.rxOther = none
  hs : c.hs = none
  pendSw : c.pendSw = none
  ctr : c.ctr = []
  frags : c.frags = []

theorem mget?_map_snd {κ α : Type} [DecidableEq κ] (m : PMap κ α) (f : α → α) (k : κ) :
    mget? (m.map (fun e => (e.1, f e.2))) k = (mget? m k).map f := by
  induction m with
  | nil => rfl
  | cons e m ih =>
    by_cases h : e.1 = k
    · simp [mget?, h]
    · simp [mget?, h, ih]

theorem lciph_alarmed (s : State) (src : Fin 4) (l : LinkId) : Erased (lciph (alarmed s src) l) := by
  have hlinks : (dropHolds (linksErased s)).ciph.links = s.ciph.links.map (fun e => (e.1, eraseLink e.2 true)) :=
    (keepsErased_dropHolds (linksErased s)).ciphers
  rw [alarmed, lciph_sourceNoted, lciph, hlinks, mget, mget?_map_snd s.ciph.links (fun c => eraseLink c true) l]
  cases mget? s.ciph.links l with
  | none => exact ⟨rfl, rfl, rfl, rfl, rfl, rfl, rfl⟩
  | some c => exact ⟨rfl, rfl, rfl, rfl, rfl, rfl, rfl⟩

theorem llink_alarmed (s : State) (src : Fin 4) (l : LinkId) : llink (alarmed s src) l = llink s l := by
  rw [alarmed, llink_sourceNoted, llink, (keepsErased_dropHolds (linksErased s)).links]
  rfl

theorem hold_alarmed (s : State) (src g : Fin 4) : mget (alarmed s src).ciph.hold g [] = [] := by
  rw [alarmed, hold_sourceNoted, hold_dropHolds]

theorem word_alarmed (s : State) (src : Fin 4) (o : Nat) : (alarmed s src).msix.word o = s.msix.word o := by
  rw [alarmed, word_sourceNoted, Msix.word, (keepsErased_dropHolds (linksErased s)).words]
  rfl

theorem erasing_alarmed (s : State) (src : Fin 4) : (alarmed s src).ciph.erasing = some s.sf := by
  rw [alarmed, erasing_sourceNoted, (keepsErased_dropHolds (linksErased s)).sf]
  rfl

theorem getLsbD_or_ofNat_two_pow {w : Nat} (x : BitVec w) {i : Nat} (hi : i < w) :
    (x ||| BitVec.ofNat w (2 ^ i)).getLsbD i = true := by
  rw [BitVec.getLsbD_or, BitVec.getLsbD_ofNat, Nat.testBit_two_pow_self, decide_eq_true hi]
  simp

theorem sources_alarmed (s : State) (src : Fin 4) : (alarmed s src).ciph.src.getLsbD src.val = true ∧
    (alarmed s src).ciph.active.getLsbD src.val = true ∧ (alarmed s src).ciph.erased = true :=
  ⟨getLsbD_or_ofNat_two_pow _ src.isLt, getLsbD_or_ofNat_two_pow _ src.isLt, rfl⟩

/-- R340, R341: LINE_ALARM is raised once everything is erased, with the sources noted, and vector 5 follows. -/
theorem exec_lineAlarm (s : State) (src q : Fin 4) (dir : Fin 2) (engine : Fin 768) :
    exec (.lineAlarm src q dir engine) s = .next (notify (raise (alarmed s src) (.ciph 0 0) 0x3C01
      ((alarmed s src).ciph.src.toNat + (if src = 3 then q.val * 16 + dir.val * 64 + engine.val * 128 else 0))) 5) := by
  change execLineAlarm src q dir engine s = _
  unfold execLineAlarm alarmed linksErased
  dsimp only
  generalize dropHolds _ = d
  rw [src_sourceNoted]
  unfold sourceNoted
  rfl

/-- R341: LINE_ALARM. -/
theorem lineAlarm_erases (s : State) (src q : Fin 4) (dir : Fin 2) (engine : Fin 768) : Answers (.lineAlarm src q dir engine) s (fun t =>
    (∀ l, (lciph t l).tx = none ∧ (lciph t l).rx = none ∧ (lciph t l).rxOther = none ∧ (lciph t l).hs = none ∧
      (lciph t l).pendSw = none ∧ (lciph t l).ctr = [] ∧ (lciph t l).frags = [] ∧ (llink t l).ret = (llink s l).ret ∧
      (llink t l).vcs = (llink s l).vcs) ∧
    (∀ g, mget t.ciph.hold g [] = []) ∧ t.ciph.src.getLsbD src.val = true ∧ t.ciph.active.getLsbD src.val = true ∧
    t.ciph.erased = true ∧ t.ciph.erasing = some s.sf ∧ (pageOf t (.ciph 0 0)).classSeen.getLsbD 3 = true ∧
    t.i3c.alarmSeen = true ∧
    ((s.msix.word 92).getLsbD 0 = false →
      Emission.msix 5 ((s.msix.word 80).toNat + (s.msix.word 84).toNat * 2 ^ 32) (s.msix.word 88) ∈ t.out) ∧
    ((s.msix.word 92).getLsbD 0 = true → t.msix.pend.getLsbD 5 = true)) := by
  let w := alarmed s src
  let info := w.ciph.src.toNat + (if src = 3 then q.val * 16 + dir.val * 64 + engine.val * 128 else 0)
  let v := raise w (.ciph 0 0) 0x3C01 info
  have hexec : exec (.lineAlarm src q dir engine) s = .next (notify v 5) := exec_lineAlarm s src q dir engine
  have hraise : KeepsAlarm w v := keepsAlarm_raise w (.ciph 0 0) 0x3C01 info
  have hall : KeepsAlarm w (notify v 5) := hraise.trans (keepsAlarm_notify v 5)
  have hword : ∀ o, v.msix.word o = s.msix.word o := fun o => by
    rw [Msix.word, hraise.words]
    exact word_alarmed s src o
  obtain ⟨hsrc, hactive, herased⟩ := sources_alarmed s src
  refine ⟨_, hexec, fun l => ?_, ?_⟩
  · have hcipher : lciph (notify v 5) l = lciph w l := by rw [lciph, lciph, hall.ciph]
    have hlink : llink (notify v 5) l = llink s l := by
      rw [llink, hall.links]
      exact llink_alarmed s src l
    obtain ⟨htx, hrx, hother, hhs, hsw, hctr, hfrags⟩ := lciph_alarmed s src l
    rw [hcipher, hlink]
    exact ⟨htx, hrx, hother, hhs, hsw, hctr, hfrags, rfl, rfl⟩
  · rw [hall.ciph]
    have hseen : (pageOf v (.ciph 0 0)).classSeen.getLsbD 3 = true := seen_raise w _ (code := 0x3C01) (by decide) info
    have hbit : (notify v 5).i3c.alarmSeen = true := hall.alarm.trans (alarmSeen_sourceNoted _ src)
    refine ⟨hold_alarmed s src, hsrc, hactive, herased, erasing_alarmed s src, (raises_notify v 5).seen _ _ hseen, hbit,
      fun hopen => ?_, fun hmasked => ?_⟩
    · have hsend : notify v 5 = emit v (.msix 5 ((v.msix.word 80).toNat + (v.msix.word 84).toNat * 2 ^ 32) (v.msix.word 88)) :=
        if_neg (by rw [hword, hopen]; exact Bool.false_ne_true)
      rw [hsend, hword, hword, hword]
      simp [emit]
    · have hpend : notify v 5 = { v with msix := { v.msix with pend := v.msix.pend ||| BitVec.ofNat 8 (2 ^ 5) } } :=
        if_pos (by rw [hword]; exact hmasked)
      rw [hpend]
      exact getLsbD_or_ofNat_two_pow _ (by decide)

/-! ## The end of an erasure (R342) -/

section
variable {s : State} {n : Nat}

theorem alarmEraseEnd_early (herase : s.ciph.erasing = some n) (h : s.ciph.active ≠ 0 ∨ s.sf < n + 1024) :
    exec .alarmEraseEnd s = .next s := by
  change execAlarmEraseEnd s = _
  simp only [execAlarmEraseEnd, herase]
  exact congrArg Host.Outcome.next (if_pos (by simpa using h))

/-- R342: the erasure is over, and no source is noted any more. -/
def eraseOver (s : State) : State := { s with ciph := { s.ciph with erasing := none, src := 0 } }

/-- R342: an enabled link starts a handshake. -/
def linkRestarted (s : State) (l : LinkId) : State := if (llink s l).en then startHs s l else s

/-- What a link's restart keeps. -/
structure KeepsKeys (s t : State) : Prop where
  erasing : t.ciph.erasing = s.ciph.erasing
  src : t.ciph.src = s.ciph.src
  links : t.line.links = s.line.links
  idState : t.boot.idState = s.boot.idState
  sw : ∀ l, (lciph t l).pendSw = (lciph s l).pendSw
  tx : ∀ l, (lciph t l).tx = (lciph s l).tx
  rx : ∀ l, (lciph t l).rx = (lciph s l).rx

theorem KeepsKeys.refl (s : State) : KeepsKeys s s := ⟨rfl, rfl, rfl, rfl, fun _ => rfl, fun _ => rfl, fun _ => rfl⟩

theorem KeepsKeys.trans {s t u : State} (h : KeepsKeys s t) (g : KeepsKeys t u) : KeepsKeys s u :=
  ⟨g.erasing.trans h.erasing, g.src.trans h.src, g.links.trans h.links, g.idState.trans h.idState,
    fun l => (g.sw l).trans (h.sw l), fun l => (g.tx l).trans (h.tx l), fun l => (g.rx l).trans (h.rx l)⟩

theorem KeepsKeys.foldl {α : Type} {f : State → α → State} (h : ∀ s a, KeepsKeys s (f s a)) (l : List α) (s : State) :
    KeepsKeys s (l.foldl f s) := by
  induction l generalizing s with
  | nil => exact .refl s
  | cons a l ih => exact (h s a).trans (ih _)

theorem keepsKeys_setLCiph {s : State} {l : LinkId} {c : LCiph} (hsw : c.pendSw = (lciph s l).pendSw) (htx : c.tx = (lciph s l).tx)
    (hrx : c.rx = (lciph s l).rx) : KeepsKeys s (setLCiph s l c) := by
  refine ⟨rfl, rfl, rfl, rfl, fun l' => ?_, fun l' => ?_, fun l' => ?_⟩
  all_goals
    by_cases h : l' = l
    · rw [h, lciph_setLCiph]
      assumption
    · rw [lciph_setLCiph_ne _ _ _ h]

theorem keepsKeys_raise (s : State) (pg : PageId) (code info : Nat) : KeepsKeys s (raise s pg code info) := by
  have honly := onlyChanges_raise s pg code info
  have hciph : (raise s pg code info).ciph = s.ciph := honly .ciph (by decide)
  exact ⟨congrArg Ciph.erasing hciph, congrArg Ciph.src hciph, congrArg Line.links (honly .line (by decide)),
    congrArg Boot.idState (honly .boot (by decide)), fun l => by rw [lciph_raise], fun l => by rw [lciph_raise],
    fun l => by rw [lciph_raise]⟩

/-- R334, R449: a link that restarts changes at most its own link's handshake, and the pages where it raises. -/
theorem linkRestarted_cases (s : State) (l : LinkId) : linkRestarted s l = s ∨ ∃ c : LCiph,
    (c.pendSw = (lciph s l).pendSw ∧ c.tx = (lciph s l).tx ∧ c.rx = (lciph s l).rx) ∧
    (linkRestarted s l = setLCiph s l c ∨ linkRestarted s l = raise (setLCiph s l c) (.ciph l.1 0) 0x2C08 0) := by
  by_cases hen : (llink s l).en = true
  case neg => exact .inl (if_neg hen)
  case pos =>
    have hstart : linkRestarted s l = startHs s l := if_pos hen
    rw [hstart]
    by_cases hbusy : ((lciph s l).hs.isSome || (lciph s l).pendSw.isSome || s.ciph.erasing.isSome || !(llink s l).en) = true
    · exact .inl (if_pos hbusy)
    · refine .inr ?_
      by_cases hid : s.boot.idState ≠ 1
      · exact ⟨{ lciph s l with retrySf := some (s.sf + 1024) }, ⟨rfl, rfl, rfl⟩, .inr ((if_neg hbusy).trans (if_pos hid))⟩
      · exact ⟨{ lciph s l with hs := some (begunHs s l), session := (lciph s l).session + 1, retrySf := none },
          ⟨rfl, rfl, rfl⟩, .inl ((if_neg hbusy).trans (if_neg hid))⟩

theorem keepsKeys_linkRestarted (s : State) (l : LinkId) : KeepsKeys s (linkRestarted s l) := by
  obtain h | ⟨c, ⟨hsw, htx, hrx⟩, h | h⟩ := linkRestarted_cases s l <;> rw [h]
  · exact .refl s
  · exact keepsKeys_setLCiph hsw htx hrx
  · exact (keepsKeys_setLCiph hsw htx hrx).trans (keepsKeys_raise _ _ _ _)

theorem lciph_linkRestarted_ne (s : State) {l l' : LinkId} (hne : l' ≠ l) : lciph (linkRestarted s l) l' = lciph s l' := by
  obtain h | ⟨c, -, h | h⟩ := linkRestarted_cases s l <;> rw [h]
  · rw [lciph_setLCiph_ne _ _ _ hne]
  · rw [lciph_raise, lciph_setLCiph_ne _ _ _ hne]

/-- R342: once no source has been active for 1,024 superframes, every enabled link starts a handshake. -/
theorem exec_alarmEraseEnd (herase : s.ciph.erasing = some n) (hquiet : s.ciph.active = 0) (hle : n + 1024 ≤ s.sf) :
    exec .alarmEraseEnd s = .next (allLinks.foldl linkRestarted (eraseOver s)) := by
  change execAlarmEraseEnd s = _
  simp only [execAlarmEraseEnd, herase]
  exact congrArg Host.Outcome.next (if_neg (by simp [hquiet, hle]))

/-- R334: a link has begun a handshake for a KEY_ID. -/
def Signs (k : Nat) (c : LCiph) : Prop := ∃ h, c.hs = some h ∧ h.st = .signHello ∧ h.init = true ∧ h.keyId = k

theorem signs_linkRestarted {s : State} {l : LinkId} {k : Nat} (h : Signs k (lciph s l)) (l' : LinkId) :
    Signs k (lciph (linkRestarted s l') l) := by
  by_cases hl : l = l'
  · subst hl
    obtain ⟨x, hx, -⟩ := id h
    have hstays : linkRestarted s l = s := (ite_congr rfl (fun _ => if_pos (by simp [hx])) fun _ => rfl).trans (ite_self s)
    rwa [hstays]
  · rwa [lciph_linkRestarted_ne s hl]

/-- R342: a link that waits when the links restart one after another begins its handshake in its turn. -/
theorem signs_foldl_linkRestarted {s : State} {l : LinkId} (hen : (llink s l).en = true) (hsw : (lciph s l).pendSw = none)
    (herase : s.ciph.erasing = none) (hid : s.boot.idState = 1) {links : List LinkId} (hl : l ∈ links)
    (hhs : (lciph s l).hs = none) : Signs (nextKeyId (curKeyId s l)) (lciph (links.foldl linkRestarted s) l) := by
  have hstays : ∀ (links : List LinkId) (t : State), Signs (nextKeyId (curKeyId s l)) (lciph t l) →
      Signs (nextKeyId (curKeyId s l)) (lciph (links.foldl linkRestarted t) l) := by
    intro links
    induction links with
    | nil => exact fun _ h => h
    | cons b links ih => exact fun t h => ih _ (signs_linkRestarted h b)
  induction links generalizing s with
  | nil => cases hl
  | cons b links ih =>
    by_cases hb : l = b
    · subst hb
      obtain ⟨k, hk, hst, hinit, hkey, -⟩ := startHs_signs hhs hsw herase hen hid
      refine hstays links _ ⟨k, ?_, hst, hinit, hkey⟩
      rw [linkRestarted, if_pos hen, hk]
    · have hkeeps := keepsKeys_linkRestarted s b
      have hsame := lciph_linkRestarted_ne s hb
      have hkey : curKeyId (linkRestarted s b) l = curKeyId s l := by rw [curKeyId, curKeyId, hsame]
      rw [← hkey] at hstays ⊢
      exact ih (by rw [llink, hkeeps.links]; exact hen) (by rw [hsame, hsw]) (hkeeps.erasing.trans herase)
        (hkeeps.idState.trans hid) ((List.mem_cons.1 hl).resolve_left hb) (by rw [hsame, hhs]) hstays

theorem mem_allLinks (l : LinkId) : l ∈ allLinks :=
  List.mem_flatMap.2 ⟨l.1, List.mem_finRange _, List.mem_map.2 ⟨l.2, List.mem_finRange _, rfl⟩⟩

theorem alarmEraseEnd_restarts (herase : s.ciph.erasing = some n) (hquiet : s.ciph.active = 0) (hle : n + 1024 ≤ s.sf) :
    Answers .alarmEraseEnd s (fun t => t.ciph.erasing = none ∧ t.ciph.src = 0 ∧
      (∀ l, (lciph t l).tx = (lciph s l).tx ∧ (lciph t l).rx = (lciph s l).rx) ∧
      (s.boot.idState = 1 → ∀ l, (llink s l).en = true → (lciph s l).hs = none → (lciph s l).pendSw = none →
        ∃ h, (lciph t l).hs = some h ∧ h.st = .signHello ∧ h.init = true ∧ h.keyId = nextKeyId (curKeyId s l))) := by
  have hkeeps : KeepsKeys (eraseOver s) (allLinks.foldl linkRestarted (eraseOver s)) := .foldl keepsKeys_linkRestarted _ _
  exact ⟨_, exec_alarmEraseEnd herase hquiet hle, hkeeps.erasing, hkeeps.src, fun l => ⟨hkeeps.tx l, hkeeps.rx l⟩,
    fun hid l hen hhs hsw => signs_foldl_linkRestarted (s := eraseOver s) hen hsw rfl hid (mem_allLinks l) hhs⟩

end

/-! ## Clusters (R327) -/

theorem cipherClusterOut_counts (s : State) (g : Fin 4) (d : Fin 2) (n : Fin 49) :
    let v := { s with ciph := { s.ciph with out := mset s.ciph.out (g, d) (min 48 (clustersOut s g d + n.val)) } }
    clustersOut v g d = min 48 (clustersOut s g d + n.val) ∧
    exec (.cipherClusterOut g d n) s =
      .next (if paced v g d = true ∧ paced s g d = false then raise v (.ciph g d) 0x1C01 0 else v) := by
  intro v
  refine ⟨mget_mset_same _ _ _ _, ?_⟩
  change execCipherClusterOut g d n s = _
  simp only [execCipherClusterOut, Bool.and_eq_true, Bool.not_eq_true']
  rfl

/-- Settles O50: the switch, the drain and the age by their superframes, the alarm by what it erases and keeps, and its end link by link. -/
theorem keysAndAlarms : Obligations.KeysAndAlarms := by
  unfold Obligations.KeysAndAlarms
  exact ⟨fun s g i => ⟨fun w tx rx hsw => ⟨keySwitch_early hsw, keySwitch_due hsw⟩,
      fun n hdrain => ⟨keyDrainEnd_over hdrain, keyDrainEnd_waits hdrain⟩, fun k => keyAge_of_idle⟩,
    lineAlarm_erases, fun s n herase => ⟨alarmEraseEnd_early herase, alarmEraseEnd_restarts herase⟩, cipherClusterOut_counts⟩

end Sys2Proof.KeyAlarms
end

section
/-! PROOFS. Register writes that act: a write that its register takes, with the state its action finds (R11, R47, R48), and a write that
its register refuses. -/
namespace Sys2Proof.ActionWrites
open Sys2Proof Sys2Proof.Machine Sys2Proof.Laws Sys2Proof.RegisterWrites

section
variable {s : State} {ag : Agent} {pg : PageId} {off v : Nat} {d : RegDef}

/-- R11, R47, R48: a write in range, whose I-class fields either stay unused or find the block at rest, changes that page alone before
its action, and there the values of that register alone; at an idle block pending values apply. -/
theorem writeField_acts (hd : regDef? pg off = some d) (hag : mayWriteAll ag pg = true) (hr : rangesOk d v = true)
    (hx : extraRefusal s pg off (bankOf (pageOf s pg) pg d) v = 0)
    (hi : (∀ f ∈ d.flds, f.cls = .idle → f.acc ≠ .rw ∧ fld v f.hi f.lo = 0) ∨ ¬(blkState s pg = 2 ∨ blkState s pg = 3)) :
    ∃ p : Page, writeField s ag pg off v = (applyIfIdle (setPage s pg p) pg, 0) ∧
      ∀ o b, o ≠ off → regAccepted p pg o b = regAccepted (pageOf s pg) pg o b := by
  have hrange : d.flds.any (fun f => f.acc == .rw && !inRange f.rng (fld v f.hi f.lo)) = false := by
    simpa [rangesOk] using hr
  have hbusy : (d.flds.any (fun f => f.cls == .idle && (if f.acc = .rw then
      fld v f.hi f.lo != fld (regAccepted (pageOf s pg) pg off (bankOf (pageOf s pg) pg d)).toNat f.hi f.lo
      else fld v f.hi f.lo != 0)) && (decide (blkState s pg = 2) || decide (blkState s pg = 3))) = false := by
    rcases hi with hunused | hrest
    · rw [List.any_eq_false.2 fun f hf => ?_]
      · rfl
      · by_cases hc : f.cls = .idle
        · obtain ⟨hacc, hzero⟩ := hunused f hf hc
          simp [hacc, hzero]
        · simp [hc]
    · obtain ⟨h2, h3⟩ := not_or.1 hrest
      simp [h2, h3]
  simp only [writeField, hd, hag, hx, hrange, hbusy]
  simp only [Bool.not_true, Bool.and_false, Bool.false_or, Bool.false_eq_true, if_false, show ((0 : Nat) = 0x2008) = False by simp,
    decide_false, ne_eq, not_true]
  refine ⟨_, rfl, fun o b ho => ?_⟩
  have hkey : (o, b) ≠ (off, bankOf (pageOf s pg) pg d) := fun h => ho (Prod.ext_iff.1 h).1
  split
  all_goals simp only [regAccepted, regActive, mget?_mset_ne _ _ hkey]

/-- R47: such a write acts over a state in which nothing but the page has changed, and of the page's accepted values only the
register's own. -/
theorem pageWrite_acts (hw : Writable s ag pg) (hd : regDef? pg off = some d) (ho : 0x40 ≤ off) (ho2 : off < 0x800)
    (hreg : writeReg s ag pg off v = writeField s ag pg off v) (hr : rangesOk d v = true)
    (hx : extraRefusal s pg off (bankOf (pageOf s pg) pg d) v = 0)
    (hi : (∀ f ∈ d.flds, f.cls = .idle → f.acc ≠ .rw ∧ fld v f.hi f.lo = 0) ∨ ¬(blkState s pg = 2 ∨ blkState s pg = 3)) :
    ∃ u, OnlyPage pg s u ∧ (pageWrite s ag pg off v).1 = afterWrite s u pg off v ∧
      ∀ o b, o ≠ off → regAccepted (pageOf u pg) pg o b = regAccepted (pageOf s pg) pg o b := by
  obtain ⟨p, hfield, hkeeps⟩ := writeField_acts hd hw.2 hr hx hi
  have hpage := pageWrite_accepted s ag pg off v d hw.1 hw.2 ho ho2 hd hreg (by rw [hfield])
  rw [hfield] at hpage
  refine ⟨_, onlyPage_trans (setPage_onlyPage s pg p) (applyIfIdle_onlyPage _ pg), hpage, fun o b ho => ?_⟩
  rw [regAccepted_applyIfIdle, pageOf_setPage, hkeeps o b ho]

/-- R48: a write that its chapter refuses leaves the refusal alone. -/
theorem pageWrite_refusedBusy (hw : Writable s ag pg) (hd : regDef? pg off = some d) (ho2 : off < 0x800)
    (hreg : writeReg s ag pg off v = writeField s ag pg off v) (hr : rangesOk d v = true)
    (hx : extraRefusal s pg off (bankOf (pageOf s pg) pg d) v = 0x2001) :
    (pageWrite s ag pg off v).1 = setPage (raise s pg 0x2001 (off + 4096 * agentNum ag)) pg
      { pageOf (raise s pg 0x2001 (off + 4096 * agentNum ag)) pg with cfgRefused := true } := by
  have hrange : d.flds.any (fun f => f.acc == .rw && !inRange f.rng (fld v f.hi f.lo)) = false := by
    simpa [rangesOk] using hr
  have hfield : writeField s ag pg off v = refuseCfg s ag pg off 0x2001 := by
    simp [writeField, hd, hw.2, hx, hrange]
  exact pageWrite_refused hw.1 ho2 (hreg.trans (hfield.trans (refuseCfg_eq s ag pg (by omega) (.inr rfl)))) (by decide)

end

end Sys2Proof.ActionWrites
end

section
/-! PROOFS. A search that starts at an idle group (R47, R354, R360, R371), and the settlement of O52. Its first clause says that every
dark slot which is neither retired nor an enabled spare starts to tune, the spares being those of the state before the write; that rests
on nothing being pending for LENG.SPARES. Its fields are of class I, so no write leaves a value pending there; but the clause is stated of
every state, and where an entry is pending that makes a slot a spare the write makes it active before the search starts. -/
namespace Sys2Proof.RingSearches
open Sys2Proof Sys2Proof.Machine

/-- A gateway in TEST mode with the line cartridge READY and the laser of slot 0 of group 0 dark. For LENG 0 a value is pending of the
spare entries, by which slot 0 is a spare of link 0. -/
def pendingSpare : State := { State.reset with
  mode := some .test
  pages := [(.leng 0, { Page.reset with pend := [((0x54, 0), 0x80)] })]
  light := { State.reset.light with
    carts := [(1, { Cart.empty with st := .ready, present := true, lasers := 72 })]
    lasers := [((1, 0), { Laser.absent with st := .dark })] } }

/-- The host may write the page, and its block is neither BUSY nor QUIESCING. -/
theorem writable_pendingSpare : Writable pendingSpare .host (.leng 0) := ⟨rfl, rfl⟩

theorem blkState_pendingSpare : blkState pendingSpare (.leng 0) = 0 := by decide

/-- Slot 0 is dark, not retired, and no spare, and the group is not searched. -/
theorem slot_pendingSpare : (slotLaser pendingSpare 0 0).st = .dark ∧ (0, 0) ∉ pendingSpare.light.retired ∧
    isSpare pendingSpare 0 0 = false ∧ (bay pendingSpare 1).st = .ready ∧ 0 ∉ pendingSpare.light.searching := by decide

/-- R47, R354: GO makes slot 0 a spare, whose laser stays dark. -/
theorem slot_pageWrite_pendingSpare : (slotLaser (pageWrite pendingSpare .host (.leng 0) 0x6C 1).1 0 0).st = .dark := by decide

/-- Refutes O52: GO at a group for which a spare entry is pending leaves that slot's laser dark. -/
theorem not_ringsSparesAndRouter : ¬ Obligations.RingsSparesAndRouter := by
  unfold Obligations.RingsSparesAndRouter
  rintro ⟨hsearch, -⟩
  obtain ⟨hdark, hretired, hspare, hready, hidle⟩ := slot_pendingSpare
  obtain ⟨t, hexec, -, htunes, -⟩ := hsearch pendingSpare .host 0 writable_pendingSpare (by rw [blkState_pendingSpare]; decide)
    (by rw [blkState_pendingSpare]; decide) hready hidle
  cases hexec
  exact absurd (slot_pageWrite_pendingSpare.symm.trans (htunes 0 hdark hretired hspare)) (by decide)

end Sys2Proof.RingSearches
end

section
/-! PROOFS. Rules of light and of line slots: cartridges, lasers, rings, halves and ports as they are read after a write, what a slot that
goes down leaves, and what lasers that lose their power leave (R345, R348 to R352, R365). -/
namespace Sys2Proof.LightRules
open Sys2Proof Sys2Proof.Machine Sys2Proof.Laws Sys2Proof.RaisedCodes Sys2Proof.CommitsAndEpochs Sys2Proof.KeyAlarms

/-! ## Folds that settle every element -/

/-- What a fold settles at each of its elements, where each step keeps an invariant, settles its own element under it, and leaves what
is settled. -/
theorem foldl_settles {α σ : Type} {f : σ → α → σ} {I : σ → Prop} {P : α → σ → Prop} (hI : ∀ s a, I s → I (f s a))
    (hset : ∀ s a, I s → P a (f s a)) (hkeep : ∀ s a b, I s → P a s → P a (f s b)) (l : List α) {s : σ} (hs : I s) :
    I (l.foldl f s) ∧ ∀ a ∈ l, P a (l.foldl f s) := by
  have hrest : ∀ (l : List α) (a : α) (s : σ), I s → P a s → P a (l.foldl f s) := by
    intro l a
    induction l with
    | nil => exact fun _ _ h => h
    | cons b l ih => exact fun s hs h => ih _ (hI s b hs) (hkeep s a b hs h)
  induction l generalizing s with
  | nil => exact ⟨hs, fun a ha => by cases ha⟩
  | cons b l ih =>
    obtain ⟨hinv, hall⟩ := ih (hI s b hs)
    refine ⟨hinv, fun a ha => ?_⟩
    obtain rfl | ha := List.mem_cons.1 ha
    · exact hrest l a _ (hI s a hs) (hset s a hs)
    · exact hall a ha

theorem foldl_keeps {α σ : Type} {f : σ → α → σ} {I : σ → Prop} (hI : ∀ s a, I s → I (f s a)) (l : List α) {s : σ} (hs : I s) :
    I (l.foldl f s) := (foldl_settles (P := fun _ _ => True) hI (fun _ _ _ => trivial) (fun _ _ _ _ _ => trivial) l hs).1

/-! ## Maps read after every value or some entries have changed -/

theorem mget?_map_keyed {κ α : Type} [DecidableEq κ] (m : PMap κ α) (f : κ → α → α) (k : κ) :
    mget? (m.map (fun e => (e.1, f e.1 e.2))) k = (mget? m k).map (f k) := by
  induction m with
  | nil => rfl
  | cons e m ih =>
    by_cases h : e.1 = k
    · simp [mget?, h]
    · simp [mget?, h, ih]

theorem mget_filter_ne {κ α : Type} [DecidableEq κ] (m : PMap κ α) (keep : κ → Bool) {k : κ} (h : keep k = false) (d : α) :
    mget (m.filter (fun e => keep e.1)) k d = d := by
  have hnone : mget? (m.filter (fun e => keep e.1)) k = none := by
    induction m with
    | nil => rfl
    | cons e m ih =>
      by_cases he : keep e.1 = true
      · have hk : e.1 ≠ k := fun hk => by rw [hk, h] at he; cases he
        simp [he, mget?, hk, ih]
      · simp [he, ih]
  rw [mget, hnone]
  rfl

/-! ## Cartridges, lasers, rings, halves and ports -/

section
variable (s : State)

theorem onlyChanges_light (x : Light) : OnlyChanges [.light] s { s with light := x } := by
  intro p hp
  cases p <;> first | rfl | simp at hp

@[simp] theorem bay_setBay (i : Fin 2) (c : Cart) : bay (setBay s i c) i = c := mget_mset_same _ _ _ _

@[simp] theorem laserOf_setLaser (b : Fin 2) (n : Nat) (x : Laser) : laserOf (setLaser s b n x) b n = x := mget_mset_same _ _ _ _

theorem laserOf_setLaser_ne {b c : Fin 2} {n m : Nat} (x : Laser) (h : (c, m) ≠ (b, n)) :
    laserOf (setLaser s b n x) c m = laserOf s c m := mget_mset_ne _ _ _ h

@[simp] theorem ringOf_setRing (g : Fin 4) (k : Fin 18) (b : Fin 4) (x : Ring) : ringOf (setRing s g k b x) g k b = x :=
  mget_mset_same _ _ _ _

theorem ringOf_setRing_ne {g g' : Fin 4} {k k' : Fin 18} {b b' : Fin 4} (x : Ring) (h : ((g', k'), b') ≠ ((g, k), b)) :
    ringOf (setRing s g k b x) g' k' b' = ringOf s g' k' b' := mget_mset_ne _ _ _ h

@[simp] theorem halfOf_setHalf (q : Fin 4) (j h : Fin 2) (v : Nat) : halfOf (setHalf s q j h v) q j h = v := mget_mset_same _ _ _ _

theorem halfOf_setHalf_ne {q q' : Fin 4} {j j' h h' : Fin 2} (v : Nat) (hne : (q', j', h') ≠ (q, j, h)) :
    halfOf (setHalf s q j h v) q' j' h' = halfOf s q' j' h' := mget_mset_ne _ _ _ hne

@[simp] theorem phy_setPhy (p : Fin 64) (x : Phy) : phy (setPhy s p x) p = x := mget_mset_same _ _ _ _

theorem phy_setPhy_ne {p p' : Fin 64} (x : Phy) (h : p' ≠ p) : phy (setPhy s p x) p' = phy s p' := mget_mset_ne _ _ _ h

@[simp] theorem lslot_setLSlot (g : Fin 4) (k : Fin 18) (x : LSlot) : lslot (setLSlot s g k x) g k = x := mget_mset_same _ _ _ _

theorem lslot_setLSlot_ne {g g' : Fin 4} {k k' : Fin 18} (x : LSlot) (h : (g', k') ≠ (g, k)) :
    lslot (setLSlot s g k x) g' k' = lslot s g' k' := mget_mset_ne _ _ _ h

end

/-- Light read in a state with the same light. -/
theorem laserOf_congr {s t : State} (h : t.light = s.light) (b : Fin 2) (n : Nat) : laserOf t b n = laserOf s b n := by
  rw [laserOf, laserOf, h]

theorem bay_congr {s t : State} (h : t.light = s.light) (i : Fin 2) : bay t i = bay s i := by rw [bay, bay, h]

theorem halfOf_congr {s t : State} (h : t.light = s.light) (q : Fin 4) (j h' : Fin 2) : halfOf t q j h' = halfOf s q j h' := by
  rw [halfOf, halfOf, h]

theorem phy_congr {s t : State} (h : t.light = s.light) (p : Fin 64) : phy t p = phy s p := by rw [phy, phy, h]

theorem ringOf_congr {s t : State} (h : t.light = s.light) (g : Fin 4) (k : Fin 18) (b : Fin 4) : ringOf t g k b = ringOf s g k b := by
  rw [ringOf, ringOf, h]

theorem lslot_congr {s t : State} (h : t.line = s.line) (g : Fin 4) (k : Fin 18) : lslot t g k = lslot s g k := by
  rw [lslot, lslot, h]

/-! ## Halves and their ports (R345, R365) -/

theorem mem_allHalves (x : Fin 4 × Fin 2 × Fin 2) : x ∈ allHalves :=
  List.mem_flatMap.2 ⟨x.1, List.mem_finRange _, List.mem_flatMap.2 ⟨x.2.1, List.mem_finRange _,
    List.mem_map.2 ⟨x.2.2, List.mem_finRange _, rfl⟩⟩⟩

theorem mem_halfPorts (p : Fin 64) : p ∈ halfPorts (portHalf p).1 (portHalf p).2.1 (portHalf p).2.2 := by
  simp [halfPorts, portHalf]

/-- R345, R365: a half whose links go to a state changes its ports alone, of which no ring stays locked. -/
theorem dropHalf_eq (s : State) (q : Fin 4) (j h : Fin 2) (link : Nat) :
    ∃ m, dropHalf s q j h link = { s with light := { s.light with phys := m } } ∧
      (∀ p ∈ halfPorts q j h, (phy (dropHalf s q j h link) p).link = link ∧ (phy (dropHalf s q j h link) p).locked = 0) ∧
      ∀ p, (phy s p).link = link → (phy (dropHalf s q j h link) p).link = link := by
  have hstep : ∀ (s : State) (a b : Fin 64), (phy s a).link = link → (phy (setPhy s b { phy s b with link := link, locked := 0 }) a).link = link :=
    fun s a b h => by
      by_cases hab : a = b
      · rw [hab, phy_setPhy]
      · rw [phy_setPhy_ne _ _ hab, h]
  have hset := (foldl_settles (f := fun s p => setPhy s p { phy s p with link := link, locked := 0 })
    (I := fun t => ∃ m, t = { s with light := { s.light with phys := m } })
    (P := fun p t => (phy t p).link = link ∧ (phy t p).locked = 0) ?_ ?_ ?_ (halfPorts q j h) (s := s) ⟨s.light.phys, rfl⟩)
  · obtain ⟨⟨m, hm⟩, hports⟩ := hset
    exact ⟨m, hm, hports, fun p hp => foldl_keeps (I := fun t => (phy t p).link = link) (fun s b => hstep s p b) _ hp⟩
  · rintro t a ⟨m, rfl⟩
    exact ⟨_, rfl⟩
  · exact fun t a _ => by rw [phy_setPhy]; exact ⟨rfl, rfl⟩
  · rintro t a b - ⟨hlink, hlocked⟩
    refine ⟨hstep t a b hlink, ?_⟩
    by_cases hab : a = b
    · rw [hab, phy_setPhy]
    · rw [phy_setPhy_ne _ _ hab, hlocked]

section
variable (s : State) (q : Fin 4) (j h : Fin 2) (link : Nat)

theorem halfOf_dropHalf (a : Fin 4) (b d : Fin 2) : halfOf (dropHalf s q j h link) a b d = halfOf s a b d := by
  obtain ⟨m, hm, -, -⟩ := dropHalf_eq s q j h link
  rw [hm]
  rfl

theorem laserOf_dropHalf (b : Fin 2) (n : Nat) : laserOf (dropHalf s q j h link) b n = laserOf s b n := by
  obtain ⟨m, hm, -, -⟩ := dropHalf_eq s q j h link
  rw [hm]
  rfl

end

/-- R348, R352: a half that has no light any more. -/
def halfDark (s : State) (x : Fin 4 × Fin 2 × Fin 2) : State := dropHalf (setHalf s x.1 x.2.1 x.2.2 2) x.1 x.2.1 x.2.2 0

/-- R348, R352: halves that have lost their light: without a source, and their ports down. Nothing else of light changes. -/
theorem foldl_halfDark (l : List (Fin 4 × Fin 2 × Fin 2)) (s : State) :
    (∃ hs ps, l.foldl halfDark s = { s with light := { s.light with halves := hs, phys := ps } }) ∧
    ∀ x ∈ l, halfOf (l.foldl halfDark s) x.1 x.2.1 x.2.2 = 2 ∧ ∀ p ∈ halfPorts x.1 x.2.1 x.2.2, (phy (l.foldl halfDark s) p).link = 0 := by
  refine foldl_settles (f := halfDark) (I := fun t => ∃ hs ps, t = { s with light := { s.light with halves := hs, phys := ps } })
    (P := fun x t => halfOf t x.1 x.2.1 x.2.2 = 2 ∧ ∀ p ∈ halfPorts x.1 x.2.1 x.2.2, (phy t p).link = 0) ?_ ?_ ?_ l
    ⟨s.light.halves, s.light.phys, rfl⟩
  · rintro t a ⟨hs, ps, rfl⟩
    obtain ⟨m, hm, -, -⟩ := dropHalf_eq (setHalf { s with light := { s.light with halves := hs, phys := ps } } a.1 a.2.1 a.2.2 2)
      a.1 a.2.1 a.2.2 0
    exact ⟨_, m, hm⟩
  · rintro t a -
    obtain ⟨m, hm, hports, -⟩ := dropHalf_eq (setHalf t a.1 a.2.1 a.2.2 2) a.1 a.2.1 a.2.2 0
    refine ⟨?_, fun p hp => (hports p hp).1⟩
    rw [halfDark, halfOf_dropHalf, halfOf_setHalf]
  · rintro t a b - ⟨hhalf, hlink⟩
    obtain ⟨m, hm, -, hkeeps⟩ := dropHalf_eq (setHalf t b.1 b.2.1 b.2.2 2) b.1 b.2.1 b.2.2 0
    refine ⟨?_, fun p hp => hkeeps p (hlink p hp)⟩
    rw [halfDark, halfOf_dropHalf]
    by_cases hab : a = b
    · rw [hab, halfOf_setHalf]
    · rw [halfOf_setHalf_ne _ _ hab, hhalf]

theorem foldl_halfDark_keeps (l : List (Fin 4 × Fin 2 × Fin 2)) (s : State) :
    (l.foldl halfDark s).light.carts = s.light.carts ∧ ∀ b n, laserOf (l.foldl halfDark s) b n = laserOf s b n := by
  obtain ⟨⟨hs, ps, hlight⟩, -⟩ := foldl_halfDark l s
  rw [hlight]
  exact ⟨rfl, fun _ _ => rfl⟩

/-! ## Slots that go down (R286, R287, R348) -/

/-- The parts that a slot going up or down changes. -/
def slotParts : List Part := .line :: raisedParts

/-- What a change of one slot leaves: the parts it does not change, the error classes seen, and every other slot. -/
structure ChangesSlot (g : Fin 4) (k : Fin 18) (s t : State) : Prop where
  keeps : KeepsSeen slotParts s t
  others : ∀ g' k', (g', k') ≠ (g, k) → lslot t g' k' = lslot s g' k'

namespace ChangesSlot
variable {g : Fin 4} {k : Fin 18} {s t u : State}

theorem refl (s : State) : ChangesSlot g k s s := ⟨.refl s, fun _ _ _ => rfl⟩

theorem trans (h : ChangesSlot g k s t) (i : ChangesSlot g k t u) : ChangesSlot g k s u :=
  ⟨h.keeps.trans i.keeps, fun g' k' hne => (i.others g' k' hne).trans (h.others g' k' hne)⟩

theorem ite {c : Prop} [Decidable c] (h : ChangesSlot g k s t) (i : ChangesSlot g k s u) :
    ChangesSlot g k s (if c then t else u) := by
  split
  · exact h
  · exact i

theorem light (h : ChangesSlot g k s t) : t.light = s.light := h.keeps.only .light (by decide)

end ChangesSlot

theorem changesSlot_setLSlot (s : State) (g : Fin 4) (k : Fin 18) (x : LSlot) : ChangesSlot g k s (setLSlot s g k x) := by
  refine ⟨.of_only (qs := [.line]) (fun p hp => ?_) (by decide) (by decide), fun _ _ h => lslot_setLSlot_ne s x h⟩
  cases p <;> first | rfl | simp at hp

theorem line_raise (s : State) (pg : PageId) (code info : Nat) : (raise s pg code info).line = s.line :=
  onlyChanges_raise s pg code info .line (by decide)

theorem changesSlot_raise (s : State) {pg : PageId} (hpg : pg ≠ .cpw) (code info : Nat) (g : Fin 4) (k : Fin 18) :
    ChangesSlot g k s (raise s pg code info) :=
  ⟨.of_raises (raises_raise s hpg code info) (by decide), fun _ _ _ => lslot_congr (line_raise s pg code info) _ _⟩

section
variable (s : State) (g : Fin 4) (k : Fin 18) (why : Nat)

theorem changesSlot_txDown : ChangesSlot g k s (txDown s g k why) := by
  unfold txDown
  extract_lets x
  exact .ite (.refl s) ((changesSlot_setLSlot s g k _).trans (changesSlot_raise _ (pg := .line g) nofun _ _ _ _))

/-- R286: a transmit side that is UP leaves it with its reason; any other stays. -/
theorem lslot_txDown : (lslot s g k).tx = .up → (lslot (txDown s g k why) g k).tx = .train ∧ (lslot (txDown s g k why) g k).txWhy = why := by
  intro h
  rw [txDown, if_neg (not_not.2 h), lslot_congr (line_raise _ _ _ _), lslot_setLSlot]
  exact ⟨rfl, rfl⟩

theorem txDown_of_down (h : (lslot s g k).tx ≠ .up) : txDown s g k why = s := if_pos h

theorem changesSlot_refreshSlot : ChangesSlot g k s (refreshSlot s g k) := by
  unfold refreshSlot
  extract_lets s1 x tx rx
  have h1 : ChangesSlot g k s s1 := .ite (changesSlot_txDown s g k 3) (.ite (changesSlot_txDown s g k 7) (.refl s))
  refine h1.trans (.ite (.ite (.refl _) (changesSlot_setLSlot _ _ _ _)) (.ite (.refl _) (changesSlot_setLSlot _ _ _ _)))

/-- R348: a slot without light is off in both directions. -/
theorem refreshSlot_dark (h : lit s g k = false) : (lslot (refreshSlot s g k) g k).tx = .off ∧ (lslot (refreshSlot s g k) g k).rx = .off := by
  unfold refreshSlot
  extract_lets s1 x tx rx
  have h1 : ChangesSlot g k s s1 := .ite (changesSlot_txDown s g k 3) (.ite (changesSlot_txDown s g k 7) (.refl s))
  have hdark : lit s1 g k = false := by
    rw [lit, slotLaser, laserOf_congr h1.light]
    exact h
  rw [if_pos (by rw [hdark]; rfl)]
  split
  · rename_i hoff
    simpa using hoff
  · rw [lslot_setLSlot]
    exact ⟨rfl, rfl⟩

end

/-! ## Lasers that lose their power (R349, R350) -/

/-- The rings of every slot parked. -/
def ringsParked (s : State) : State :=
  { s with light := { s.light with rings := s.light.rings.map (fun e => (e.1, { e.2 with locked := false, lost := false, fails := 0 })) } }

/-- Every slot brought down where it has no light. -/
def slotsDown (s : State) : State :=
  (List.finRange 4).foldl (fun s g => (List.finRange 18).foldl (fun s k => refreshSlot (txDown s g k 3) g k) s) s

/-- Every slot without light ends off, and light stays. -/
theorem slotsDown_dark {s : State} (h : ∀ g k, lit s g k = false) : KeepsSeen slotParts s (slotsDown s) ∧
    ∀ g k, (lslot (slotsDown s) g k).tx = .off ∧ (lslot (slotsDown s) g k).rx = .off := by
  have hstep : ∀ (t : State) g k, ChangesSlot g k t (refreshSlot (txDown t g k 3) g k) := fun t g k =>
    (changesSlot_txDown t g k 3).trans (changesSlot_refreshSlot _ g k)
  have hdark : ∀ (t : State) g k, (∀ g k, lit t g k = false) → (lslot (refreshSlot (txDown t g k 3) g k) g k).tx = .off ∧
      (lslot (refreshSlot (txDown t g k 3) g k) g k).rx = .off := fun t g k ht => refreshSlot_dark _ g k (by
    rw [lit, slotLaser, laserOf_congr (changesSlot_txDown t g k 3).light]
    exact ht g k)
  have hlit : ∀ (t u : State), u.light = t.light → (∀ g k, lit t g k = false) → ∀ g k, lit u g k = false := fun t u hl ht g k => by
    rw [lit, slotLaser, laserOf_congr hl]
    exact ht g k
  have hother : ∀ (t : State) (a b : Fin 4 × Fin 18), (∀ g k, lit t g k = false) →
      ((lslot t a.1 a.2).tx = .off ∧ (lslot t a.1 a.2).rx = .off) → (lslot (refreshSlot (txDown t b.1 b.2 3) b.1 b.2) a.1 a.2).tx = .off ∧
        (lslot (refreshSlot (txDown t b.1 b.2 3) b.1 b.2) a.1 a.2).rx = .off := fun t a b ht hoff => by
    by_cases hab : a = b
    · rw [hab]
      exact hdark t b.1 b.2 ht
    · rw [(hstep t b.1 b.2).others a.1 a.2 hab]
      exact hoff
  have hgroup : ∀ (t : State) (g : Fin 4), (KeepsSeen slotParts s t ∧ ∀ g k, lit t g k = false) →
      (KeepsSeen slotParts s ((List.finRange 18).foldl (fun s k => refreshSlot (txDown s g k 3) g k) t) ∧
        ∀ g' k, lit ((List.finRange 18).foldl (fun s k => refreshSlot (txDown s g k 3) g k) t) g' k = false) ∧
      ∀ k ∈ List.finRange 18, (lslot ((List.finRange 18).foldl (fun s k => refreshSlot (txDown s g k 3) g k) t) g k).tx = .off ∧
        (lslot ((List.finRange 18).foldl (fun s k => refreshSlot (txDown s g k 3) g k) t) g k).rx = .off := fun t g ht =>
    foldl_settles (f := fun s k => refreshSlot (txDown s g k 3) g k)
      (I := fun t => KeepsSeen slotParts s t ∧ ∀ g k, lit t g k = false)
      (P := fun k t => (lslot t g k).tx = .off ∧ (lslot t g k).rx = .off)
      (fun t k ht => ⟨ht.1.trans (hstep t g k).keeps, hlit t _ (hstep t g k).light ht.2⟩) (fun t k ht => hdark t g k ht.2)
      (fun t k k' ht hoff => hother t (g, k) (g, k') ht.2 hoff) _ ht
  have hall := foldl_settles (f := fun s g => (List.finRange 18).foldl (fun s k => refreshSlot (txDown s g k 3) g k) s)
    (I := fun t => KeepsSeen slotParts s t ∧ ∀ g k, lit t g k = false)
    (P := fun g t => ∀ k, (lslot t g k).tx = .off ∧ (lslot t g k).rx = .off)
    (fun t g ht => (hgroup t g ht).1) (fun t g ht k => (hgroup t g ht).2 k (List.mem_finRange k))
    (fun t g g' ht hoff k => (foldl_keeps (I := fun t => (∀ g k, lit t g k = false) ∧ (lslot t g k).tx = .off ∧ (lslot t g k).rx = .off)
      (fun t k' ht => ⟨hlit t _ (hstep t g' k').light ht.1, hother t (g, k) (g', k') ht.1 ht.2⟩) _ ⟨ht.2, hoff k⟩).2)
    (List.finRange 4) ⟨.refl s, h⟩
  exact ⟨hall.1.1, fun g k => hall.2 g (List.mem_finRange g) k⟩

end Sys2Proof.LightRules
end

section
/-! PROOFS. Cartridges and their lasers (R345, R348 to R352, R365, R370, R372, R443, R484), and the settlement of O51. -/
namespace Sys2Proof.Cartridges
open Sys2Proof Sys2Proof.Machine Sys2Proof.Laws Sys2Proof.RegisterWrites Sys2Proof.RaisedCodes Sys2Proof.CommitsAndEpochs
  Sys2Proof.ActionWrites Sys2Proof.LightRules

section
variable {s : State} {i : Fin 2}

/-! ## Insertion and authentication (R349, R443) -/

theorem cartInsert_powers (hst : (bay s i).st = .empty)
    (hmode : s.mode = some .test ∨ s.mode = some .recovery ∨ s.mode = some .service) :
    exec (.cartInsert i) s = .next (setBay s i { Cart.empty with st := .powering, present := true, sinceSf := s.sf }) := by
  change execCartInsert i s = _
  rcases hmode with h | h | h <;> simp [execCartInsert, hst, h]

theorem cartControllerAnswer_authenticates (serial : BitVec 64) (n : Nat) (hst : (bay s i).st = .powering) :
    Answers (.cartControllerAnswer i serial n) s (fun t =>
      bay t i = { bay s i with st := .auth, serial := serial, lasers := min n 127, nonce := (drawBytes s 32).2, sinceSf := s.sf } ∧
      OnlyChanges [.light, .ciph] s t) := by
  have hexec : exec (.cartControllerAnswer i serial n) s = .next (setBay (drawBytes s 32).1 i
      { bay s i with st := .auth, serial := serial, lasers := min n 127, nonce := (drawBytes s 32).2, sinceSf := s.sf }) := by
    change execCartControllerAnswer i serial n s = _
    simp only [execCartControllerAnswer, hst, ne_eq, not_true, if_false]
  refine ⟨_, hexec, bay_setBay _ _ _, fun p hp => ?_⟩
  cases p <;> first | rfl | simp at hp

/-- R351, R354: lasers of a READY bay stand dark with their stored P0; fabric lasers are switched on. -/
def laserAtRest (s : State) (i : Fin 2) (n : Nat) : Laser :=
  ⟨if i = 0 ∧ n < 16 then .lit else .dark, [], mget? s.light.p0s (i.val, (bay s i).serial.toNat, n), false, 0, 0⟩

/-- R349: a READY bay with its lasers at rest. -/
def restedBay (s : State) (i : Fin 2) : State :=
  (List.range (bayLasers i)).foldl (fun t n => setLaser t i n
    ⟨if i = 0 ∧ n < 16 then .lit else .dark, [], mget? t.light.p0s (i.val, (bay s i).serial.toNat, n), false, 0, 0⟩)
    (setBay s i { bay s i with st := .ready, certified := true })

theorem readyCart_eq (s : State) (i : Fin 2) : readyCart s i =
    if i = 0 then allHalves.foldl (fun s x => setHalf s x.1 x.2.1 x.2.2 0) (restedBay s i)
    else (List.finRange 4).foldl startSearch (restedBay s i) := rfl

theorem restedBay_rests (s : State) (i : Fin 2) :
    bay (restedBay s i) i = { bay s i with st := .ready, certified := true } ∧
    ∀ n, n < bayLasers i → laserOf (restedBay s i) i n = laserAtRest s i n := by
  obtain ⟨⟨-, hbay⟩, hlasers⟩ := foldl_settles (f := fun t n => setLaser t i n
      ⟨if i = 0 ∧ n < 16 then .lit else .dark, [], mget? t.light.p0s (i.val, (bay s i).serial.toNat, n), false, 0, 0⟩)
    (I := fun t => t.light.p0s = s.light.p0s ∧ bay t i = { bay s i with st := .ready, certified := true })
    (P := fun n t => laserOf t i n = laserAtRest s i n)
    (fun t n h => h) (fun t n h => by rw [laserOf_setLaser, h.1, laserAtRest]) (fun t n m h hn => by
      by_cases hnm : n = m
      · rw [hnm, laserOf_setLaser, h.1, laserAtRest]
      · rw [laserOf_setLaser_ne _ _ (fun h => hnm (Prod.ext_iff.1 h).2), hn])
    (List.range (bayLasers i)) (s := setBay s i { bay s i with st := .ready, certified := true }) ⟨rfl, bay_setBay _ _ _⟩
  exact ⟨hbay, fun n hn => hlasers n (List.mem_range.2 hn)⟩

/-- R354: a laser that starts to tune keeps its P0. -/
theorem p0_tune (s : State) (g : Fin 4) (k : Fin 18) (b : Fin 2) (n : Nat) : (laserOf (tune s g k) b n).p0 = (laserOf s b n).p0 := by
  unfold tune
  extract_lets x
  split
  · by_cases h : (b, n) = (1, laserNum g k)
    · obtain ⟨rfl, rfl⟩ := Prod.ext_iff.1 h
      rw [laserOf_setLaser]
      rfl
    · rw [laserOf_setLaser_ne _ _ h]
  · rfl

theorem carts_tune (s : State) (g : Fin 4) (k : Fin 18) :
    (tune s g k).light.carts = s.light.carts ∧ (tune s g k).light.searching = s.light.searching := by
  unfold tune
  extract_lets x
  split <;> exact ⟨rfl, rfl⟩

/-- R354: a search that starts keeps every bay and every P0, and the searches that run. -/
theorem startSearch_keeps (s : State) (g : Fin 4) : (startSearch s g).light.carts = s.light.carts ∧
    (∀ b n, (laserOf (startSearch s g) b n).p0 = (laserOf s b n).p0) ∧
    (∀ q, q ∈ s.light.searching → q ∈ (startSearch s g).light.searching) ∧
    ((bay s 1).st = .ready → g ∈ (startSearch s g).light.searching) := by
  unfold startSearch
  split
  · rename_i h
    refine ⟨rfl, fun _ _ => rfl, fun _ h => h, fun hready => ?_⟩
    simpa [hready] using h
  · extract_lets l v
    obtain ⟨hcarts, hsearch, hp0⟩ := foldl_keeps (f := fun s k => if s.light.retired.contains (g, k) || isSpare s g k then s else tune s g k)
      (I := fun t => t.light.carts = s.light.carts ∧ t.light.searching = g :: s.light.searching ∧
        ∀ b n, (laserOf t b n).p0 = (laserOf s b n).p0)
      (fun t k h => by
        split
        · exact h
        · obtain ⟨hc, hs⟩ := carts_tune t g k
          exact ⟨hc.trans h.1, hs.trans h.2.1, fun b n => (p0_tune t g k b n).trans (h.2.2 b n)⟩)
      (List.finRange 18) (s := v) ⟨rfl, rfl, fun _ _ => rfl⟩
    exact ⟨hcarts, hp0, fun q hq => by rw [hsearch]; exact .tail _ hq, fun _ => by rw [hsearch]; exact .head _⟩

/-- R349, R351, R354: a bay made READY. -/
theorem readyCart_readies (s : State) (i : Fin 2) : (bay (readyCart s i) i).st = .ready ∧ (bay (readyCart s i) i).certified = true ∧
    (∀ n, n < bayLasers i → (laserOf (readyCart s i) i n).p0 = mget? s.light.p0s (i.val, (bay s i).serial.toNat, n) ∧
      (i = 0 → (laserOf (readyCart s i) i n).st = if n < 16 then .lit else .dark)) ∧
    (i = 0 → ∀ q j h, halfOf (readyCart s i) q j h = 0) ∧ (i = 1 → ∀ g, g ∈ (readyCart s i).light.searching) := by
  obtain ⟨hbay, hlasers⟩ := restedBay_rests s i
  rw [readyCart_eq]
  by_cases hi : i = 0
  · subst hi
    rw [if_pos rfl]
    obtain ⟨⟨hs, hlight⟩, hhalves⟩ := foldl_settles (f := fun s x => setHalf s x.1 x.2.1 x.2.2 0)
      (I := fun t => ∃ hs, t = { restedBay s 0 with light := { (restedBay s 0).light with halves := hs } })
      (P := fun (x : Fin 4 × Fin 2 × Fin 2) t => halfOf t x.1 x.2.1 x.2.2 = 0)
      (by rintro t x ⟨hs, rfl⟩; exact ⟨_, rfl⟩) (fun t x _ => halfOf_setHalf _ _ _ _ _) (fun t x y _ hx => by
        by_cases hxy : x = y
        · rw [hxy, halfOf_setHalf]
        · rw [halfOf_setHalf_ne _ _ hxy, hx]) allHalves ⟨(restedBay s 0).light.halves, rfl⟩
    refine ⟨?_, ?_, fun n hn => ?_, fun _ q j h => hhalves (q, j, h) (mem_allHalves _), nofun⟩
    · rw [hlight]
      exact congrArg Cart.st hbay
    · rw [hlight]
      exact congrArg Cart.certified hbay
    · have hlaser := hlasers n hn
      rw [hlight]
      refine ⟨(congrArg Laser.p0 hlaser :), fun _ => (congrArg Laser.st hlaser :).trans ?_⟩
      simp [laserAtRest]
  · have h1 : i = 1 := by omega
    subst h1
    rw [if_neg hi]
    obtain ⟨⟨hcarts, hp0⟩, hsearch⟩ := foldl_settles (f := startSearch)
      (I := fun t => t.light.carts = (restedBay s 1).light.carts ∧ ∀ b n, (laserOf t b n).p0 = (laserOf (restedBay s 1) b n).p0)
      (P := fun g t => g ∈ t.light.searching)
      (fun t g h => by
        obtain ⟨hc, hp, -, -⟩ := startSearch_keeps t g
        exact ⟨hc.trans h.1, fun b n => (hp b n).trans (h.2 b n)⟩)
      (fun t g h => (startSearch_keeps t g).2.2.2 (by rw [bay, h.1]; exact (congrArg Cart.st hbay :)))
      (fun t g q h hq => (startSearch_keeps t q).2.2.1 g hq) (List.finRange 4) (s := restedBay s 1) ⟨rfl, fun _ _ => rfl⟩
    refine ⟨?_, ?_, fun n hn => ⟨?_, nofun⟩, nofun, fun _ g => hsearch g (List.mem_finRange g)⟩
    · rw [bay, hcarts]
      exact (congrArg Cart.st hbay :)
    · rw [bay, hcarts]
      exact (congrArg Cart.certified hbay :)
    · rw [hp0, hlasers n hn]
      rfl

theorem cartAuthResponse_checks (chain sig : Bytes) (hst : (bay s i).st = .auth) :
    let c := bay s i
    let ok := Config.cartChainValid chain &&
      Config.slhVerify (Config.leafKey chain) (c.nonce ++ beBytes 8 c.serial.toNat ++ beBytes 8 s.boot.serial.toNat) sig
    (ok = true → Config.cartType chain = i.val → c.lasers = bayLasers i →
      exec (.cartAuthResponse i chain sig) s = .next (readyCart s i)) ∧
    (ok = false ∨ Config.cartType chain ≠ i.val ∨ c.lasers ≠ bayLasers i → exec (.cartAuthResponse i chain sig) s =
      .next (raise (setBay s i { c with st := .refused, certified := ok }) (.cart i) 0x2D06 0)) := by
  intro c ok
  have hexec : exec (.cartAuthResponse i chain sig) s =
      .next (if ok && Config.cartType chain == i.val && c.lasers == bayLasers i then readyCart s i else refuseCart s i ok) := by
    change execCartAuthResponse i chain sig s = _
    simp only [execCartAuthResponse, hst, ne_eq, not_true, if_false]
    rfl
  rw [hexec]
  refine ⟨fun hok htype hlasers => congrArg _ (if_pos (by simp [hok, htype, hlasers])), fun h => congrArg _ (if_neg ?_)⟩
  rcases h with h | h | h <;> simp [h]

theorem cartAuthTimeout_refuses (hst : (bay s i).st = .auth) : exec (.cartAuthTimeout i) s =
    .next (if (bay s i).sinceSf + 187500 ≤ s.sf then
      raise (setBay s i { bay s i with st := .refused, certified := false }) (.cart i) 0x2D06 0 else s) := by
  change execCartAuthTimeout i s = _
  simp [execCartAuthTimeout, hst, refuseCart]

end

/-! ## Loss, release and overcurrent (R349, R350, R484) -/

/-- What the lasers of a bay leave when they lose their power. -/
structure Unpowered (i : Fin 2) (s t : State) : Prop where
  carts : t.light.carts = s.light.carts
  lasers : ∀ n, laserOf t i n = Laser.absent
  ports : i = 0 → ∀ p, (phy t p).link = 0
  slots : i = 1 → ∀ g k, (lslot t g k).tx = .off ∧ (lslot t g k).rx = .off

/-- A bay's lasers gone. -/
def lasersGone (s : State) (i : Fin 2) : State :=
  { s with light := { s.light with lasers := s.light.lasers.filter (fun e => e.1.1 != i) } }

theorem laserOf_lasersGone (s : State) (i : Fin 2) (n : Nat) : laserOf (lasersGone s i) i n = Laser.absent :=
  mget_filter_ne s.light.lasers (fun k => k.1 != i) (by simp) _

theorem unpower_fabric (s : State) : unpower s 0 = lasersGone (allHalves.foldl halfDark s) 0 := rfl

theorem unpower_line (s : State) : unpower s 1 =
    slotsDown (ringsParked (lasersGone { s with light := { s.light with searching := [] } } 1)) := rfl

theorem laserOf_ringsParked (s : State) (b : Fin 2) (n : Nat) : laserOf (ringsParked s) b n = laserOf s b n := rfl

theorem unpower_unpowers (s : State) (i : Fin 2) : Unpowered i s (unpower s i) := by
  by_cases hi : i = 0
  · subst hi
    obtain ⟨-, hhalves⟩ := foldl_halfDark allHalves s
    obtain ⟨hcarts, -⟩ := foldl_halfDark_keeps allHalves s
    have hports : ∀ p, (phy (allHalves.foldl halfDark s) p).link = 0 := fun p =>
      (hhalves (portHalf p) (mem_allHalves _)).2 p (mem_halfPorts p)
    rw [unpower_fabric]
    generalize allHalves.foldl halfDark s = u at hcarts hports
    exact ⟨hcarts, laserOf_lasersGone u 0, fun _ => hports, nofun⟩
  · have h1 : i = 1 := by omega
    subst h1
    rw [unpower_line]
    set v := ringsParked (lasersGone { s with light := { s.light with searching := [] } } 1) with hv
    have hgone : ∀ n, laserOf v 1 n = Laser.absent := fun n => by rw [hv, laserOf_ringsParked, laserOf_lasersGone]
    have hcarts : v.light.carts = s.light.carts := rfl
    clear_value v
    obtain ⟨hkeeps, hslots⟩ := slotsDown_dark (s := v) (fun g k => by rw [lit, slotLaser, hgone]; rfl)
    have hlight : (slotsDown v).light = v.light := hkeeps.only .light (by decide)
    exact ⟨(congrArg Light.carts hlight :).trans hcarts, fun n => by rw [laserOf_congr hlight, hgone], nofun, fun _ => hslots⟩

section
variable {s : State} {i : Fin 2}

theorem Unpowered.of_raise {t : State} (h : Unpowered i s t) (pg : PageId) (code info : Nat) :
    Unpowered i s (raise t pg code info) := by
  have hlight : (raise t pg code info).light = t.light := onlyChanges_raise t pg code info .light (by decide)
  exact ⟨(congrArg Light.carts hlight :).trans h.carts, fun n => by rw [laserOf_congr hlight, h.lasers],
    fun hi p => by rw [phy_congr hlight, h.ports hi], fun hi g k => by
      rw [lslot_congr (line_raise t pg code info)]
      exact h.slots hi g k⟩

theorem Unpowered.bay {t : State} (h : Unpowered i s t) (j : Fin 2) : bay t j = bay s j := by
  rw [Machine.bay, Machine.bay, h.carts]

theorem cartLost_empties (hpresent : (bay s i).present = true) : Answers (.cartLost i) s (fun t => bay t i = Cart.empty ∧
    (∀ n, laserOf t i n = Laser.absent) ∧ (i = 0 → ∀ p, (phy t p).link = 0) ∧
    (i = 1 → ∀ g k, (lslot t g k).tx = .off ∧ (lslot t g k).rx = .off) ∧
    ((bay s i).st = .ready → (pageOf t (.cart i)).classSeen.getLsbD 3 = true)) := by
  have hexec : exec (.cartLost i) s = .next (if (bay s i).st = .ready then
      raise (unpower (setBay s i Cart.empty) i) (.cart i) 0x3D01 0 else unpower (setBay s i Cart.empty) i) := by
    change execCartLost i s = _
    simp [execCartLost, hpresent]
  have hun := unpower_unpowers (setBay s i Cart.empty) i
  have hall : ∀ t, Unpowered i (setBay s i Cart.empty) t → bay t i = Cart.empty ∧ (∀ n, laserOf t i n = Laser.absent) ∧
      (i = 0 → ∀ p, (phy t p).link = 0) ∧ (i = 1 → ∀ g k, (lslot t g k).tx = .off ∧ (lslot t g k).rx = .off) := fun t ht =>
    ⟨(ht.bay i).trans (bay_setBay _ _ _), ht.lasers, ht.ports, ht.slots⟩
  by_cases hready : (bay s i).st = .ready
  · rw [if_pos hready] at hexec
    obtain ⟨hbay, hlasers, hports, hslots⟩ := hall _ (hun.of_raise (.cart i) 0x3D01 0)
    exact ⟨_, hexec, hbay, hlasers, hports, hslots, fun _ => seen_raise _ _ (code := 0x3D01) (by decide) 0⟩
  · rw [if_neg hready] at hexec
    obtain ⟨hbay, hlasers, hports, hslots⟩ := hall _ hun
    exact ⟨_, hexec, hbay, hlasers, hports, hslots, fun h => absurd h hready⟩

theorem cartLost_absent (hpresent : (bay s i).present = false) : exec (.cartLost i) s = .next s := by
  change execCartLost i s = _
  simp [execCartLost, hpresent]

theorem cartReleaseDone_safe (hst : (bay s i).st = .releasing) : Answers (.cartReleaseDone i) s (fun t => (bay t i).st = .safe ∧
    (bay t i).present = (bay s i).present ∧ ∀ n, laserOf t i n = Laser.absent) := by
  have hexec : exec (.cartReleaseDone i) s = .next (unpower (setBay s i { bay s i with st := .safe }) i) := by
    change execCartReleaseDone i s = _
    simp [execCartReleaseDone, hst]
  have hun := unpower_unpowers (setBay s i { bay s i with st := .safe }) i
  refine ⟨_, hexec, ?_, ?_, hun.lasers⟩
  all_goals rw [hun.bay i, bay_setBay]

theorem cartFeedOvercurrent_safe (hempty : (bay s i).st ≠ .empty) (hsafe : (bay s i).st ≠ .safe) :
    Answers (.cartFeedOvercurrent i) s (fun t => (bay t i).st = .safe ∧ (bay t i).power = 0 ∧
      (∀ n, laserOf t i n = Laser.absent) ∧ (pageOf t (.cart i)).classSeen.getLsbD 3 = true) := by
  have hexec : exec (.cartFeedOvercurrent i) s =
      .next (raise (unpower (setBay s i { bay s i with st := .safe, power := 0 }) i) (.cart i) 0x3D01 0) := by
    change execCartFeedOvercurrent i s = _
    simp [execCartFeedOvercurrent, hempty, hsafe]
  have hun := (unpower_unpowers (setBay s i { bay s i with st := .safe, power := 0 }) i).of_raise (.cart i) 0x3D01 0
  refine ⟨_, hexec, ?_, ?_, hun.lasers, seen_raise _ _ (code := 0x3D01) (by decide) 0⟩
  all_goals rw [hun.bay i, bay_setBay]

/-! ## RELEASE and COMMISSION (R349, R351, R370) -/

variable {ag : Agent}

theorem cartRelease_begins (hw : Writable s ag (.cart i)) : Answers (.cartRelease ag i) s (fun t =>
    bay t i = (if (bay s i).st = .ready then { bay s i with st := .releasing } else bay s i) ∧
    t.light.lasers = s.light.lasers ∧ OnlyChanges [.light, .pages] s t) := by
  obtain ⟨u, honly, hpage, -⟩ := pageWrite_acts (off := 0x44) (v := 1) hw rfl (by decide) (by decide) (by simp [writeReg]) rfl rfl
    (.inl (by decide))
  have hbay : bay u i = bay s i := bay_congr (honly.1 .light (by decide)) i
  have hlight : u.light = s.light := honly.1 .light (by decide)
  have hafter : afterWrite s u (.cart i) 0x44 1 = if (bay s i).st = .ready then setBay u i { bay s i with st := .releasing } else u := by
    rw [← hbay]
    rfl
  have honly' := onlyChanges_mono honly.1 (qs := [.light, .pages]) (by decide)
  refine ⟨_, congrArg Host.Outcome.next (hpage.trans hafter), ?_⟩
  split
  · exact ⟨bay_setBay _ _ _, (congrArg Light.lasers hlight :), onlyChanges_then honly' (onlyChanges_mono (onlyChanges_light u _) (by decide))⟩
  · exact ⟨hbay, congrArg Light.lasers hlight, honly'⟩

theorem commission_eq (s : State) (i : Fin 2) : commission s i = { s with light := { s.light with
    lasers := s.light.lasers.map (fun e => (e.1, if e.1.1 = i then { e.2 with fresh := true } else e.2)) } } := by
  have hmap : ∀ e : (Fin 2 × Nat) × Laser, (if e.1.1 = i then (e.1, { e.2 with fresh := true }) else e) =
      (e.1, if e.1.1 = i then { e.2 with fresh := true } else e.2) := fun e => by split <;> rfl
  simp only [commission, hmap]

/-- R351: COMMISSION marks every laser of its bay, and no other. -/
theorem mget?_lasers_commission (s : State) (i j : Fin 2) (n : Nat) : mget? (commission s i).light.lasers (j, n) =
    (mget? s.light.lasers (j, n)).map (fun x => if j = i then { x with fresh := true } else x) := by
  rw [commission_eq]
  exact mget?_map_keyed s.light.lasers (fun k x => if k.1 = i then { x with fresh := true } else x) (j, n)

theorem cartCommission_marks (hw : Writable s ag (.cart i)) (h2 : blkState s (.cart i) ≠ 2) (h3 : blkState s (.cart i) ≠ 3) :
    Answers (.cartCommission ag i) s (fun t =>
      (∀ n x, mget? s.light.lasers (i, n) = some x → laserOf t i n = { x with fresh := true } ∧ (laserOf t i n).lock.p0 = none) ∧
      (∀ j n, j ≠ i → laserOf t j n = laserOf s j n) ∧ OnlyChanges [.light, .pages] s t) := by
  obtain ⟨u, honly, hpage, -⟩ := pageWrite_acts (off := 0x44) (v := 2) hw rfl (by decide) (by decide) (by simp [writeReg]) rfl rfl
    (.inr (by simp [h2, h3]))
  have hlight : u.light = s.light := honly.1 .light (by decide)
  have hafter : afterWrite s u (.cart i) 0x44 2 = commission u i := rfl
  refine ⟨_, congrArg Host.Outcome.next (hpage.trans hafter), fun n x hx => ?_, fun j n hj => ?_,
    onlyChanges_mono (onlyChanges_trans honly.1 (onlyChanges_light u _)) (by decide)⟩
  · have hlaser : laserOf (commission u i) i n = { x with fresh := true } := by
      rw [laserOf, mget, mget?_lasers_commission, hlight, hx]
      simp
    rw [hlaser]
    exact ⟨rfl, rfl⟩
  · rw [laserOf, mget, mget?_lasers_commission, hlight, laserOf, mget]
    simp [hj]

end

/-! ## A laser that fails (R352) -/

theorem light_laserRaise (s : State) (b : Fin 2) (n code : Nat) : (laserRaise s b n code).light = s.light := by
  unfold laserRaise
  split <;> exact onlyChanges_raise _ _ _ _ .light (by decide)

/-- R352: a laser that has failed. -/
def failedLaser (s : State) (b : Fin 2) (n : Nat) : State :=
  setLaser (laserRaise s b n 0x1D02) b n { laserOf s b n with st := .failed, hist := [], level := 3 }

theorem laserOf_failedLaser (s : State) (b : Fin 2) (n : Nat) :
    laserOf (failedLaser s b n) b n = { laserOf s b n with st := .failed, hist := [], level := 3 } := laserOf_setLaser _ _ _ _

theorem laserRaise_line (s : State) (n code : Nat) : laserRaise s 1 n code = raise s (.leng (groupOfLaser n)) code (n % 18) :=
  if_neg (by decide)

/-- R374: the failure is recorded on the page of the laser's group. -/
theorem seen_failedLaser (s : State) (n : Nat) : (pageOf (failedLaser s 1 n) (.leng (groupOfLaser n))).classSeen.getLsbD 1 = true := by
  have hpages : (failedLaser s 1 n).pages = (laserRaise s 1 n 0x1D02).pages := rfl
  rw [pageOf, hpages, laserRaise_line, ← pageOf]
  exact seen_raise s _ (code := 0x1D02) (by decide) _

/-- The rings of a slot out of lock. -/
def ringsOut (s : State) (g : Fin 4) (k : Fin 18) : State :=
  (List.finRange 4).foldl (fun s r => setRing s g k r { ringOf s g k r with locked := false, lost := false }) s

theorem ringsOut_unlocks (s : State) (g : Fin 4) (k : Fin 18) :
    (∃ rs, ringsOut s g k = { s with light := { s.light with rings := rs } }) ∧ ∀ b, (ringOf (ringsOut s g k) g k b).locked = false := by
  obtain ⟨hlight, hrings⟩ := foldl_settles (f := fun s r => setRing s g k r { ringOf s g k r with locked := false, lost := false })
    (I := fun t => ∃ rs, t = { s with light := { s.light with rings := rs } }) (P := fun b t => (ringOf t g k b).locked = false)
    (by rintro t r ⟨rs, rfl⟩; exact ⟨_, rfl⟩) (fun t r _ => by rw [ringOf_setRing]) (fun t b r _ hb => by
      by_cases hbr : b = r
      · rw [hbr, ringOf_setRing]
      · rw [ringOf_setRing_ne _ _ (fun h => hbr (Prod.ext_iff.1 h).2), hb]) (List.finRange 4) ⟨s.light.rings, rfl⟩
  exact ⟨hlight, fun b => hrings b (List.mem_finRange b)⟩

theorem ringsOut_keeps (s : State) (g : Fin 4) (k : Fin 18) :
    (∀ b n, laserOf (ringsOut s g k) b n = laserOf s b n) ∧ (ringsOut s g k).pages = s.pages := by
  obtain ⟨⟨rs, hrings⟩, -⟩ := ringsOut_unlocks s g k
  rw [hrings]
  exact ⟨fun _ _ => rfl, rfl⟩

theorem failLaser_fabric (s : State) (n : Nat) : failLaser s 0 n = (fedBy s n).foldl halfDark (failedLaser s 0 n) := by
  have hlight := light_laserRaise s 0 n 0x1D02
  have hfed : fedBy (laserRaise s 0 n 0x1D02) n = fedBy s n := by
    simp only [fedBy, halfOf_congr hlight]
  rw [← hfed, failedLaser, ← laserOf_congr hlight]
  rfl

theorem failLaser_line (s : State) (n : Nat) : failLaser s 1 n = refreshSlot (ringsOut
    (txDown (failedLaser s 1 n) (groupOfLaser n) (slotOfLaser n) 3) (groupOfLaser n) (slotOfLaser n)) (groupOfLaser n) (slotOfLaser n) := by
  unfold failedLaser failLaser ringsOut
  rw [← laserOf_congr (light_laserRaise s 1 n 0x1D02)]
  generalize laserRaise s 1 n 0x1D02 = u
  dsimp only
  rw [if_neg (show ¬(1 : Fin 2) = 0 by decide)]

theorem slotLaser_ofLaser (s : State) {n : Nat} (h : n < 72) : slotLaser s (groupOfLaser n) (slotOfLaser n) = laserOf s 1 n := by
  have hnum : laserNum (groupOfLaser n) (slotOfLaser n) = n := by
    simp only [laserNum, groupOfLaser, slotOfLaser]
    omega
  rw [slotLaser, hnum]

/-- R352: a fabric laser that fails takes the halves it feeds down. -/
theorem failLaser_darkens (s : State) (n : Nat) : (laserOf (failLaser s 0 n) 0 n).st = .failed ∧ (laserOf (failLaser s 0 n) 0 n).level = 3 ∧
    ∀ x ∈ fedBy s n, halfOf (failLaser s 0 n) x.1 x.2.1 x.2.2 = 2 ∧
      ∀ p ∈ halfPorts x.1 x.2.1 x.2.2, (phy (failLaser s 0 n) p).link = 0 := by
  obtain ⟨-, hhalves⟩ := foldl_halfDark (fedBy s n) (failedLaser s 0 n)
  have hlaser : laserOf (failLaser s 0 n) 0 n = { laserOf s 0 n with st := .failed, hist := [], level := 3 } := by
    rw [failLaser_fabric, (foldl_halfDark_keeps _ _).2, laserOf_failedLaser]
  rw [failLaser_fabric] at hlaser ⊢
  exact ⟨by rw [hlaser], by rw [hlaser], hhalves⟩

/-- R352: a line laser that fails takes its slot down, with its rings. -/
theorem failLaser_silences (s : State) {n : Nat} (hn : n < 72) : let g := groupOfLaser n
    let k := slotOfLaser n
    (laserOf (failLaser s 1 n) 1 n).st = .failed ∧ (laserOf (failLaser s 1 n) 1 n).level = 3 ∧
    (lslot (failLaser s 1 n) g k).tx = .off ∧ (∀ b, (ringOf (failLaser s 1 n) g k b).locked = false) ∧
    (pageOf (failLaser s 1 n) (.leng g)).classSeen.getLsbD 1 = true := by
  intro g k
  have hslot : ∀ u, slotLaser u g k = laserOf u 1 n := fun u => slotLaser_ofLaser u hn
  have hfail : failLaser s 1 n = refreshSlot (ringsOut (txDown (failedLaser s 1 n) g k 3) g k) g k := failLaser_line s n
  have hseen : (pageOf (failedLaser s 1 n) (.leng g)).classSeen.getLsbD 1 = true := seen_failedLaser s n
  clear_value g k
  have htx := changesSlot_txDown (failedLaser s 1 n) g k 3
  obtain ⟨-, hunlocked⟩ := ringsOut_unlocks (txDown (failedLaser s 1 n) g k 3) g k
  obtain ⟨hlasers, hpages⟩ := ringsOut_keeps (txDown (failedLaser s 1 n) g k 3) g k
  have hseen' := htx.keeps.seen _ _ hseen
  have hlaser := ((hlasers 1 n).trans (laserOf_congr htx.light 1 n)).trans (laserOf_failedLaser s 1 n)
  rw [pageOf, ← hpages, ← pageOf] at hseen'
  rw [hfail]
  generalize ringsOut (txDown (failedLaser s 1 n) g k 3) g k = u at *
  have hrefresh := changesSlot_refreshSlot u g k
  have hdark : lit u g k = false := by
    rw [lit, hslot, hlaser]
    rfl
  refine ⟨?_, ?_, (refreshSlot_dark _ g k hdark).1, fun b => ?_, hrefresh.keeps.seen _ _ hseen'⟩
  · rw [laserOf_congr hrefresh.light, hlaser]
  · rw [laserOf_congr hrefresh.light, hlaser]
  · rw [ringOf_congr hrefresh.light, hunlocked]

theorem laserFaultReport_fails {s : State} {i : Fin 2} {n : Fin 72} (hready : (bay s i).st = .ready) (hn : n.val < bayLasers i)
    (hst : (laserOf s i n.val).st = .lit ∨ (laserOf s i n.val).st = .tuning ∨ (laserOf s i n.val).st = .dark) :
    Answers (.laserFaultReport i n) s (fun t => (laserOf t i n.val).st = .failed ∧ (laserOf t i n.val).level = 3 ∧
      (i = 0 → ∀ x ∈ fedBy s n.val, halfOf t x.1 x.2.1 x.2.2 = 2 ∧ ∀ p ∈ halfPorts x.1 x.2.1 x.2.2, (phy t p).link = 0) ∧
      (i = 1 → (lslot t (groupOfLaser n.val) (slotOfLaser n.val)).tx = .off ∧
        (∀ b, (ringOf t (groupOfLaser n.val) (slotOfLaser n.val) b).locked = false) ∧
        (pageOf t (.leng (groupOfLaser n.val))).classSeen.getLsbD 1 = true)) := by
  have hexec : exec (.laserFaultReport i n) s = .next (failLaser s i n.val) := by
    change execLaserFaultReport i n s = _
    rcases hst with h | h | h <;> simp [execLaserFaultReport, hready, hn, h]
  refine ⟨_, hexec, ?_⟩
  by_cases hi : i = 0
  · subst hi
    obtain ⟨hfailed, hlevel, hhalves⟩ := failLaser_darkens s n.val
    exact ⟨hfailed, hlevel, fun _ => hhalves, nofun⟩
  · have h1 : i = 1 := by omega
    subst h1
    obtain ⟨hfailed, hlevel, htx, hrings, hseen⟩ := failLaser_silences s n.isLt
    exact ⟨hfailed, hlevel, nofun, fun _ => ⟨htx, hrings, hseen⟩⟩

/-! ## The fabric spare (R365) -/

section
variable {s : State} {ag : Agent} {q : Fin 4} {j h : Fin 2}

theorem fabricSpareSwap_swaps (hw : Writable s ag (.fpe q j)) : ∃ u, OnlyPage (.fpe q j) s u ∧
    exec (.fabricSpareSwap ag q j h) s = .next (swapFabric u q j h) := by
  have hauto : fldV s (.fpe q j) 0x50 0 0 < 2 := fld_lt _ 0 0
  set v := fldV s (.fpe q j) 0x50 0 0 + 2 * h.val + 0x100 with hv
  have hbit : bit v 8 = true := by
    rw [bit, Nat.testBit_eq_decide_div_mod_eq, decide_eq_true_eq]
    omega
  have hhalf : (⟨v / 2 % 2, by omega⟩ : Fin 2) = h := Fin.ext (by simp only [hv]; omega)
  obtain ⟨u, honly, hpage, -⟩ := pageWrite_acts (off := 0x50) (v := v) hw rfl (by decide) (by decide) (by simp [writeReg])
    (by simp [rangesOk, reg, rwL, wo, inRange]) rfl (.inl (by simp [reg, rwL, wo]))
  refine ⟨u, honly, congrArg Host.Outcome.next (hpage.trans ?_)⟩
  simp only [afterWrite, hbit, hhalf]
  rfl

/-- R365: a quadrant's spare in use swaps nothing. -/
theorem swapFabric_busy (hused : ∃ a b, halfOf s q a b = 1) : swapFabric s q j h = raise s (.fpe q j) 0x1D05 0 := by
  obtain ⟨a, b, hab⟩ := hused
  refine if_pos ?_
  rw [List.any_eq_true.2 ⟨(q, a, b), mem_allHalves _, by simp [hab]⟩, Bool.true_or]

/-- R365: a free spare that can be lit feeds the half, whose links retrain. -/
theorem swapFabric_free (hfree : ∀ a b, halfOf s q a b ≠ 1)
    (hsp : (laserOf s 0 (16 + q.val)).st = .dark ∨ (laserOf s 0 (16 + q.val)).st = .lit) : let t := swapFabric s q j h
    halfOf t q j h = 1 ∧ (laserOf t 0 (16 + q.val)).st = .lit ∧ (∀ a b d, (a, b, d) ≠ (q, j, h) → halfOf t a b d = halfOf s a b d) ∧
    (∀ p ∈ halfPorts q j h, (phy t p).link = 1 ∧ (phy t p).locked = 0) ∧ (pageOf t (.fpe q j)).classSeen.getLsbD 1 = true := by
  let sp := laserOf s 0 (16 + q.val)
  let old := laserOf s 0 (halfLaser q j h)
  let u := if old.st = .lit then setLaser s 0 (halfLaser q j h) { old with st := .dark, hist := [] } else s
  let v := setLaser u 0 (16 + q.val) sp.lock
  have heq : swapFabric s q j h = raise (dropHalf (setHalf v q j h 1) q j h 1) (.fpe q j) 0x1D06 0 := by
    refine if_neg ?_
    have hnone : (allHalves.any fun x => x.1 == q && halfOf s x.1 x.2.1 x.2.2 == 1) = false := by
      rw [List.any_eq_false]
      rintro ⟨a, b, d⟩ -
      by_cases ha : a = q
      · subst ha
        simp [hfree b d]
      · simp [ha]
    rw [hnone]
    rcases hsp with hsp | hsp <;> simp [hsp]
  obtain ⟨m, hm, hports, -⟩ := dropHalf_eq (setHalf v q j h 1) q j h 1
  have hlight : (raise (dropHalf (setHalf v q j h 1) q j h 1) (.fpe q j) 0x1D06 0).light = (dropHalf (setHalf v q j h 1) q j h 1).light :=
    onlyChanges_raise _ _ _ _ .light (by decide)
  have hhalves : ∀ a b d, halfOf u a b d = halfOf s a b d := fun a b d => by
    change halfOf (if old.st = .lit then _ else s) a b d = _
    split <;> rfl
  intro t
  rw [show t = _ from heq]
  simp only [halfOf_congr hlight, laserOf_congr hlight, phy_congr hlight]
  refine ⟨?_, ?_, fun a b d hne => ?_, hports, seen_raise _ _ (code := 0x1D06) (by decide) 0⟩
  · rw [halfOf_dropHalf, halfOf_setHalf]
  · rw [laserOf_dropHalf]
    exact congrArg Laser.st (laserOf_setLaser u 0 (16 + q.val) sp.lock)
  · rw [halfOf_dropHalf, halfOf_setHalf_ne _ _ hne]
    exact hhalves a b d

end

/-- Settles O51: the bay by what brings it from state to state, its lasers by what takes their power. -/
theorem cartridgesAndLasers : Obligations.CartridgesAndLasers := by
  unfold Obligations.CartridgesAndLasers
  intro s i c
  refine ⟨cartInsert_powers, cartControllerAnswer_authenticates, fun chain sig hst => ?_, cartAuthTimeout_refuses, cartLost_empties,
    cartLost_absent, fun ag hw => ⟨cartRelease_begins hw, cartCommission_marks hw⟩, cartReleaseDone_safe,
    fun n => laserFaultReport_fails, cartFeedOvercurrent_safe, fun ag q j h hw => ?_, fun p link locked rxp => ?_⟩
  · obtain ⟨hready, hrefused⟩ := cartAuthResponse_checks chain sig hst
    exact ⟨fun hok htype hlasers => ⟨_, hready hok htype hlasers, readyCart_readies s i⟩, hrefused⟩
  · obtain ⟨u, honly, hexec⟩ := fabricSpareSwap_swaps (h := h) hw
    have hlight : u.light = s.light := honly.1 .light (by decide)
    simp only [← halfOf_congr hlight, ← laserOf_congr hlight]
    refine ⟨fun hfree hsp => ⟨_, hexec, swapFabric_free hfree hsp⟩, fun hused => ⟨_, hexec, ?_⟩⟩
    rw [swapFabric_busy hused]
    exact ⟨(onlyChanges_raise u _ _ _ .light (by decide)).trans hlight, seen_raise u _ (code := 0x1D05) (by decide) 0⟩
  · intro h
    change execFabricPortLinkChange p link locked rxp s = _
    simp only [execFabricPortLinkChange, Bool.and_eq_true, decide_eq_true_eq]
    rfl

end Sys2Proof.Cartridges
end

section
/-! PROOFS. Rules of egress: queues as they are read after a write, packets that wait, and the strict queue that sends (R376 to R378,
R409). -/
namespace Sys2Proof.EgressRules
open Sys2Proof Sys2Proof.Machine Sys2Proof.Laws Sys2Proof.RaisedCodes Sys2Proof.BlockDecoding

/-! ## Queues -/

@[simp] theorem egQ_setEgQ (s : State) (p : Fin 64) (q : Fin 32) (e : EgQueue) : egQ (setEgQ s p q e) p q = e := mget_mset_same _ _ _ _

theorem egQ_setEgQ_ne (s : State) {p p' : Fin 64} {q q' : Fin 32} (e : EgQueue) (h : (p', q') ≠ (p, q)) :
    egQ (setEgQ s p q e) p' q' = egQ s p' q' := mget_mset_ne _ _ _ h

theorem egQ_congr {s t : State} (h : t.egress = s.egress) (p : Fin 64) (q : Fin 32) : egQ t p q = egQ s p q := by rw [egQ, egQ, h]

theorem onlyChanges_setEgQ (s : State) (p : Fin 64) (q : Fin 32) (e : EgQueue) : OnlyChanges [.egress] s (setEgQ s p q e) := by
  intro x hx
  cases x <;> first | rfl | simp at hx

/-- R376: where no packet waits at its producer, none enters. -/
theorem admitPort_of_none_waiting {s : State} {p : Fin 64} (h : ∀ r, (egQ s p r).waiting = []) : admitPort s p = s := by
  have hnone : (List.finRange 32).filter (fun q => !(egQ s p q).waiting.isEmpty) = [] :=
    List.filter_eq_nil_iff.2 fun q _ => by simp [h q]
  simp only [admitPort, hnone, List.foldl_nil]

/-! ## The packet that starts -/

section
variable {s : State} {p : Fin 64} {q : Fin 32} {k : EgPkt} {l : List EgPkt}

/-- R377, R378: the state once the head packet of a queue has left it. -/
def sentHead (s : State) (p : Fin 64) (q : Fin 32) (k : EgPkt) (l : List EgPkt) : State :=
  emit (setEgQ s p q { egQ s p q with
    pkts := l
    tokens := if fldB s (fportOf p) 0x48 q.val 31 31 = 0 then (egQ s p q).tokens else (egQ s p q).tokens - 16 * (k.wire : Int) })
    (.fabric p k)

/-- R409: the time stamp of a PTP event message is taken as it leaves. -/
def stamped (u : State) (p : Fin 64) (k : EgPkt) (ofs : Nat) : State := match k.body with | .ptp id _ => stampTx u p id ofs | _ => u

theorem startHead_eq (hq : (egQ s p q).pkts = k :: l) (ofs : Nat) :
    startHead s p q ofs = admitPort (stamped (sentHead s p q k l) p k ofs) p := by
  simp only [startHead, hq]
  rfl

theorem sendable_pkts (h : sendable s p q = true) : (egQ s p q).pkts ≠ [] := fun hnil => by simp [sendable, hnil] at h

/-- R377: the lowest strict queue that may send. -/
theorem find_strict (hq : q.val < 4) (hsend : sendable s p q = true)
    (hlow : ∀ r : Fin 32, r.val < 4 → r < q → sendable s p r = false) :
    ([0, 1, 2, 3] : List (Fin 32)).find? (sendable s p) = some q := by
  have hcases : q = 0 ∨ q = 1 ∨ q = 2 ∨ q = 3 := by omega
  rcases hcases with rfl | rfl | rfl | rfl
  · simp [hsend]
  · simp [hsend, hlow 0 (by decide) (by decide)]
  · simp [hsend, hlow 0 (by decide) (by decide), hlow 1 (by decide) (by decide)]
  · simp [hsend, hlow 0 (by decide) (by decide), hlow 1 (by decide) (by decide), hlow 2 (by decide) (by decide)]

theorem find_strict_none (hlow : ∀ r : Fin 32, r.val < 4 → sendable s p r = false) :
    ([0, 1, 2, 3] : List (Fin 32)).find? (sendable s p) = none := by
  rw [List.find?_eq_none]
  intro r hr
  have hval : r.val < 4 := by
    fin_cases hr <;> decide
  rw [hlow r hval]
  exact Bool.false_ne_true

/-- R377: a strict queue sends. -/
theorem exec_egress_strict (hup : (phy s p).link = 2) (hq : q.val < 4) (hsend : sendable s p q = true)
    (hlow : ∀ r : Fin 32, r.val < 4 → r < q → sendable s p r = false) (hhead : (egQ s p q).pkts = k :: l) (ofs : Fin 128000) :
    exec (.egressPacketStart p ofs) s = .next (admitPort (stamped (sentHead s p q k l) p k ofs.val) p) := by
  change execEgressPacketStart p ofs s = _
  simp only [execEgressPacketStart, hup, ne_eq, not_true, if_false, find_strict hq hsend hlow, startHead_eq hhead]

end

end Sys2Proof.EgressRules
end

section
/-! PROOFS. Line time and PTP (R399, R401, R403, R404, R407 to R409, R413, R415), and the settlement of O54. -/
namespace Sys2Proof.LineTime
open Sys2Proof Sys2Proof.Machine Sys2Proof.Laws Sys2Proof.RegisterWrites Sys2Proof.RaisedCodes Sys2Proof.Selectors
  Sys2Proof.PulsesAndLaunches Sys2Proof.BlockDecoding Sys2Proof.LightSelectors Sys2Proof.ActionWrites Sys2Proof.LightRules
  Sys2Proof.EgressRules

/-! ## Holdover and election (R401, R403, R404) -/

section
variable {s : State} {n : Nat}

theorem ltHoldTimeout_holds (hst : s.lt.st = .locked) (hloss : s.lt.lossSf = some n) : exec .ltHoldTimeout s = .next
    (if s.sf < n + fldV s .time 0x6C 15 0 then s
      else notify (raise { s with lt := { s.lt with st := .holdover, lossSf := none } } .time 0x1F01 0) 4) := by
  change execLtHoldTimeout s = _
  simp only [execLtHoldTimeout, hst, hloss]
  rfl

theorem ltHoldTimeout_unlocked (hst : s.lt.st ≠ .locked) : exec .ltHoldTimeout s = .next s := by
  change execLtHoldTimeout s = _
  unfold execLtHoldTimeout
  split
  · rename_i h _
    exact absurd h hst
  · rfl

/-- R401, R403, R404: what line time holds of a gateway that has declared itself master. -/
def masterLt (s : State) : Lt :=
  { s.lt with st := .master, ann := some ⟨s.lt.maxSerial + 1, ltPrio s, gw s⟩, parent := none, hops := 0,
              d := max 1 (match s.lt.parentD with | some d => d | none => ownD s), maxSerial := s.lt.maxSerial + 1, lossSf := none,
              quietSf := none, take := false, slewing := false, ptpSet := s.lt.st == .free && s.ptp.valid }

theorem declare_eq (s : State) : declare s = notify (raise (setLt s (masterLt s)) .time 0x0F01 0) 4 := rfl

/-- R404: a gateway declares itself master under a serial of its own. -/
theorem declare_masters (s : State) : (declare s).lt = masterLt s ∧ (pageOf (declare s) .time).classSeen.getLsbD 0 = true := by
  rw [declare_eq]
  have hraises := raises_raise (setLt s (masterLt s)) (pg := .time) nofun 0x0F01 0
  have hall := hraises.trans (raises_notify _ 4)
  exact ⟨hall.only .lt (by decide), (raises_notify _ 4).seen _ _ (seen_raise _ _ (code := 0x0F01) (by decide) 0)⟩

theorem ltElectTimeout_masters (hquiet : s.lt.quietSf = some n) (hst : s.lt.st = .free ∨ s.lt.st = .holdover) (hprio : ltPrio s < 255)
    (hheard : qualHeaders s ≠ []) (hdue : n + fldV s .time 0x6C 31 16 ≤ s.sf) : Answers .ltElectTimeout s (fun t => t.lt.st = .master ∧
      t.lt.ann = some ⟨s.lt.maxSerial + 1, ltPrio s, gw s⟩ ∧ t.lt.maxSerial = s.lt.maxSerial + 1 ∧ t.lt.parent = none ∧
      t.lt.hops = 0 ∧ 1 ≤ t.lt.d ∧ (pageOf t .time).classSeen.getLsbD 0 = true) := by
  have hexec : exec .ltElectTimeout s = .next (declare s) := by
    change execLtElectTimeout s = _
    rcases hst with hst | hst <;> simp [execLtElectTimeout, hquiet, hst, hprio, hheard, hdue]
  obtain ⟨hlt, hseen⟩ := declare_masters s
  refine ⟨_, hexec, ?_⟩
  simp only [hlt]
  exact ⟨rfl, rfl, rfl, rfl, rfl, Nat.le_max_left _ _, hseen⟩

theorem ltElectTimeout_joined (hfree : s.lt.st ≠ .free) (hhold : s.lt.st ≠ .holdover) : exec .ltElectTimeout s = .next s := by
  change execLtElectTimeout s = _
  unfold execLtElectTimeout
  split
  · simp [hfree, hhold]
  · rfl

end

/-! ## TAKE and LT_DOMAIN (R404, R413) -/

section
variable {s : State} {ag : Agent}

theorem onlyChanges_setLt (s : State) (x : Lt) : OnlyChanges [.lt] s (setLt s x) := by
  intro p hp
  cases p <;> first | rfl | simp at hp

theorem ltElectTake_notes (hw : Writable s ag .time) (hst : s.lt.st = .locked) (hprio : fldV s .time 0x50 7 0 < 255) :
    Answers (.ltElectTake ag) s (fun t => t.lt = { s.lt with take := true } ∧ OnlyChanges [.lt, .pages] s t) := by
  obtain ⟨u, honly, hpage, -⟩ := pageWrite_acts (off := 0x70) (v := 1) hw rfl (by decide) (by decide) (by simp [writeReg]) rfl
    (by simp [extraRefusal, hst, hprio]) (.inl (by decide))
  have hlt : u.lt = s.lt := honly.1 .lt (by decide)
  refine ⟨_, congrArg Host.Outcome.next (hpage.trans (show _ = setLt u { u.lt with take := true } from rfl)), ?_,
    onlyChanges_mono (onlyChanges_trans honly.1 (onlyChanges_setLt u _)) (by decide)⟩
  rw [hlt]
  rfl

theorem ltElectTake_refused (hw : Writable s ag .time) (h : s.lt.st ≠ .locked ∨ 255 ≤ fldV s .time 0x50 7 0) :
    Answers (.ltElectTake ag) s (fun t => ∃ u, u = raise s .time 0x2001 (0x70 + 4096 * agentNum ag) ∧
      t = setPage u .time { pageOf u .time with cfgRefused := true }) := by
  have hx : extraRefusal s .time 0x70 0 1 = 0x2001 := by
    rcases h with h | h
    · simp [extraRefusal, h]
      decide
    · have hlow : ¬fldV s .time 0x50 7 0 < 255 := Nat.not_lt.2 h
      simp [extraRefusal, hlow]
      decide
  exact ⟨_, congrArg Host.Outcome.next (pageWrite_refusedBusy hw (off := 0x70) (v := 1) rfl (by decide) (by simp [writeReg]) rfl hx),
    _, rfl, rfl⟩

/-- R413: LT_DOMAIN as the page takes it: accepted, and active. -/
theorem fldV_domain_taken (hf : ∀ p : Page, fld (regActive (takeField p .time 0x54 (rwI 15 0 0) v) .time 0x54 0).toNat 15 0 = fld v 15 0) :
    fldV (fieldTaken s .time 0x54 (rwI 15 0 0) v) .time 0x54 15 0 = fld v 15 0 := by
  refine regActive_applyIfIdle (f := fun w => fld w.toNat 15 0) ?_ ?_
  · rw [pageOf_setPage]
    exact hf _
  · rw [pageOf_setPage]
    exact fld_accepted_takeField _ _ _ (rwI 15 0 0) _ (by decide)

theorem fld_active_takeField_idle (p : Page) (v : Nat) :
    fld (regActive (takeField p .time 0x54 (rwI 15 0 0) v) .time 0x54 0).toNat 15 0 = fld v 15 0 := by
  have hreg : regActive (takeField p .time 0x54 (rwI 15 0 0) v) .time 0x54 0 =
      BitVec.ofNat 32 (setFld (regActive p .time 0x54 0).toNat 15 0 (fld v 15 0)) := by
    have hmem : mget? (takeField p .time 0x54 (rwI 15 0 0) v).regs (0x54, 0) =
        some (BitVec.ofNat 32 (setFld (regActive p .time 0x54 0).toNat 15 0 (fld v 15 0))) := by
      simp only [takeField]
      split <;> exact mget?_mset_same _ _ _
    rw [regActive, hmem]
  rw [hreg, fld_ofNat _ _ _ (by decide), fld_setFld_fld]

theorem changeDomain_eq (u : State) : ∃ ls, changeDomain u =
    { u with lt := { u.lt with toFree := true }, line := { u.line with links := ls } } := ⟨_, rfl⟩

theorem ltDomainWrite_takes (v : Word) (hw : Writable s ag .time) (h2 : blkState s .time ≠ 2) (h3 : blkState s .time ≠ 3) :
    Answers (.ltDomainWrite ag v) s (fun t => fldV t .time 0x54 15 0 = fld v.toNat 15 0 ∧
      (fldV s .time 0x54 15 0 ≠ fld v.toNat 15 0 → t.lt = { s.lt with toFree := true }) ∧
      (fldV s .time 0x54 15 0 = fld v.toNat 15 0 → t.lt = s.lt) ∧ OnlyChanges [.lt, .line, .pages] s t) := by
  have ht := writeField_takes (pg := .time) (off := 0x54) (f := rwI 15 0 0) rfl rfl s ag v.toNat hw.2 rfl rfl (fun _ => by simp [h2, h3])
  have hpage := pageWrite_accepted s ag .time 0x54 v.toNat _ hw.1 hw.2 (by decide) (by decide) rfl (by simp [writeReg]) (by rw [ht])
  rw [ht] at hpage
  change _ = afterWrite s (fieldTaken s .time 0x54 (rwI 15 0 0) v.toNat) .time 0x54 v.toNat at hpage
  have honly := fieldTaken_onlyPage s .time 0x54 (rwI 15 0 0) v.toNat
  have hfld : fldV (fieldTaken s .time 0x54 (rwI 15 0 0) v.toNat) .time 0x54 15 0 = fld v.toNat 15 0 :=
    fldV_domain_taken fun p => fld_active_takeField_idle p v.toNat
  generalize fieldTaken s .time 0x54 (rwI 15 0 0) v.toNat = u at *
  have hlt : u.lt = s.lt := honly.1 .lt (by decide)
  have hpages := onlyChanges_mono honly.1 (qs := [.lt, .line, .pages]) (by decide)
  have hafter : afterWrite s u .time 0x54 v.toNat = if fldV s .time 0x54 15 0 ≠ fldV u .time 0x54 15 0 then changeDomain u else u := by
    simp [afterWrite]
  rw [hafter, hfld] at hpage
  refine ⟨_, congrArg Host.Outcome.next hpage, ?_⟩
  by_cases hsame : fldV s .time 0x54 15 0 = fld v.toNat 15 0
  · rw [if_neg (not_not.2 hsame)]
    exact ⟨hfld, fun h => absurd hsame h, fun _ => hlt, hpages⟩
  · obtain ⟨ls, hls⟩ := changeDomain_eq u
    rw [if_pos hsame, hls]
    refine ⟨hfld, fun _ => by rw [hlt], fun h => absurd h hsame, onlyChanges_then hpages fun p hp => ?_⟩
    cases p <;> first | rfl | simp at hp

end

/-! ## Reads that latch (R413, R415) -/

section
variable {s : State}

/-- R36, R42: a read that latches, of a page that responds. -/
theorem latchRead_eq {pg : PageId} (hup : pageUp s pg = true) (off v : Nat) (l : List (Nat × Nat)) : latchRead s pg off v l =
    emit (latchAll s pg l) (.readAnswer (pageAddr pg + off) (BitVec.ofNat 32 v)) := if_pos hup

theorem onlyChanges_latched (s : State) (pg : PageId) (l : List (Nat × Nat)) (e : Emission) :
    OnlyChanges [.pages, .out] s (emit (latchAll s pg l) e) :=
  onlyChanges_mono (onlyChanges_trans (latchAll_onlyPage s pg l).1 (onlyChanges_emit _ e)) (by decide)

theorem pageUp_latched (s : State) (pg pg' : PageId) (l : List (Nat × Nat)) (e : Emission) :
    pageUp (emit (latchAll s pg l) e) pg' = pageUp s pg' := rfl

/-- R413: what a read of a register of TIME that an earlier read has latched shows. -/
theorem reads_time {l : List (Nat × Nat)} {e : Emission} (hup : pageUp s .time = true) (hl : (l.map Prod.fst).Nodup) {o n : Nat}
    (h : (o, n) ∈ l) (ho : o ∈ [0x48, 0x4C, 0x8C, 0x90, 0x94]) : reads (emit (latchAll s .time l) e) .time o = n % 2 ^ 32 := by
  have hshown : latched (pageOf (emit (latchAll s .time l) e) .time) o = n % 2 ^ 32 := latched_latchAll s .time hl h
  have hup' := (pageUp_latched s .time .time l e).trans hup
  generalize emit (latchAll s .time l) e = t at *
  have hrw : rwPart t .time o = 0 := by
    fin_cases ho <;> rfl
  have hro : roPart t .time o = latched (pageOf t .time) o := by
    fin_cases ho <;> rfl
  have hread : reads t .time o = (rwPart t .time o ||| roPart t .time o) % 2 ^ 32 := by
    fin_cases ho <;> simp [reads, readReg, hup']
  rw [hread, hrw, hro, Nat.zero_or, hshown, Nat.mod_mod]

theorem ltNowRead_answers (ofs : Fin 128000) (hup : pageUp s .time = true) : Answers (.ltNowRead ofs) s (fun t =>
    t.out = s.out ++ [.readAnswer 0x8044 (BitVec.ofNat 32 s.sf)] ∧ reads t .time 0x48 = s.sf / 2 ^ 32 % 2 ^ 32 ∧
    reads t .time 0x4C = ofs.val ∧ OnlyChanges [.pages, .out] s t) := by
  have hexec : exec (.ltNowRead ofs) s = .next (emit (latchAll s .time [(0x48, s.sf / 2 ^ 32), (0x4C, ofs.val)])
      (.readAnswer (pageAddr .time + 0x44) (BitVec.ofNat 32 s.sf))) := congrArg Host.Outcome.next (latchRead_eq hup _ _ _)
  have hofs : ofs.val % 2 ^ 32 = ofs.val := Nat.mod_eq_of_lt (by omega)
  exact ⟨_, hexec, rfl, reads_time hup (by simp) (.head _) (by simp),
    (reads_time hup (by simp) (.tail _ (.head _)) (by simp)).trans hofs, onlyChanges_latched _ _ _ _⟩

theorem mapRead_answers (hup : pageUp s .time = true) : Answers .mapRead s (fun t => let m := ptpAt s s.sf
    t.out = s.out ++ [.readAnswer 0x8088 (BitVec.ofNat 32 (m / 1000000000))] ∧
    reads t .time 0x8C = m / 1000000000 / 2 ^ 32 % 2 ^ 16 ∧ reads t .time 0x90 = m % 1000000000 ∧
    reads t .time 0x94 = int32 s.ptp.rate ∧ OnlyChanges [.pages, .out] s t) := by
  let m := ptpAt s s.sf
  let l : List (Nat × Nat) := [(0x8C, m / 1000000000 / 2 ^ 32 % 2 ^ 16), (0x90, m % 1000000000), (0x94, int32 s.ptp.rate),
    (0x98, if s.ptp.runs = 0 then 0 else s.sf)]
  have hexec : exec .mapRead s = .next (emit (latchAll s .time l) (.readAnswer (pageAddr .time + 0x88) (BitVec.ofNat 32 (m / 1000000000)))) :=
    congrArg Host.Outcome.next (latchRead_eq hup _ _ _)
  have hrate : int32 s.ptp.rate < 2 ^ 32 := by
    have := Int.emod_lt_of_pos s.ptp.rate (b := 4294967296) (by decide)
    have := Int.emod_nonneg s.ptp.rate (b := 4294967296) (by decide)
    simp only [int32]
    omega
  have hnodup : (l.map Prod.fst).Nodup := by simp [l]
  refine ⟨_, hexec, rfl, (reads_time hup hnodup (.head _) (by simp)).trans (Nat.mod_eq_of_lt ?_),
    (reads_time hup hnodup (.tail _ (.head _)) (by simp)).trans (Nat.mod_eq_of_lt ?_),
    (reads_time hup hnodup (.tail _ (.tail _ (.head _))) (by simp)).trans (Nat.mod_eq_of_lt hrate), onlyChanges_latched _ _ _ _⟩
  · omega
  · omega

/-- R415: what a read of a register of a port's page that an earlier read has latched shows. -/
theorem reads_stamp {p : Fin 64} {l : List (Nat × Nat)} {e : Emission} (hup : pageUp s (fportOf p) = true)
    (hl : (l.map Prod.fst).Nodup) {o n : Nat} (h : (o, n) ∈ l) (ho : o ∈ [0x10C, 0x110, 0x114]) :
    reads (emit (latchAll s (fportOf p) l) e) (fportOf p) o = n % 2 ^ 32 := by
  have hshown : latched (pageOf (emit (latchAll s (fportOf p) l) e) (fportOf p)) o = n % 2 ^ 32 := latched_latchAll s _ hl h
  have hup' := (pageUp_latched s (fportOf p) (fportOf p) l e).trans hup
  generalize emit (latchAll s (fportOf p) l) e = t at *
  have hrw : rwPart t (fportOf p) o = 0 := by
    fin_cases ho <;> rfl
  have hro : fportReg t p o = latched (pageOf t (fportOf p)) o := by
    fin_cases ho <;> rfl
  have hread : reads t (fportOf p) o = (rwPart t (fportOf p) o ||| roPart t (fportOf p) o) % 2 ^ 32 := by
    fin_cases ho
    all_goals exact readReg_fport hup' (by decide) (by decide) (by decide)
  rw [hread, hrw, roPart_fport, hro, Nat.zero_or, hshown, Nat.mod_mod]

theorem tsqIdRead_answers {p : Fin 64} {e : Stamp} {l : List Stamp} (hup : pageUp s (fportOf p) = true)
    (hents : (tsqOf s p).ents = e :: l) : Answers (.tsqIdRead p) s (fun t =>
      t.out = s.out ++ [.readAnswer (pageAddr (fportOf p) + 0x108) (BitVec.ofNat 32 e.id)] ∧
      reads t (fportOf p) 0x10C = e.sf % 2 ^ 32 ∧ reads t (fportOf p) 0x110 = e.sf / 2 ^ 32 % 2 ^ 32 ∧
      reads t (fportOf p) 0x114 = e.ofs % 2 ^ 32 ∧ OnlyChanges [.pages, .out] s t) := by
  have hexec : exec (.tsqIdRead p) s = .next (emit (latchAll s (fportOf p)
      [(0x108, e.id), (0x10C, e.sf), (0x110, e.sf / 2 ^ 32), (0x114, e.ofs)])
      (.readAnswer (pageAddr (fportOf p) + 0x108) (BitVec.ofNat 32 e.id))) := by
    change execTsqIdRead p s = _
    simp only [execTsqIdRead, hents, List.headD_cons, latchRead_eq hup]
  exact ⟨_, hexec, rfl, reads_stamp hup (by simp) (.tail _ (.head _)) (by simp),
    reads_stamp hup (by simp) (.tail _ (.tail _ (.head _))) (by simp),
    reads_stamp hup (by simp) (.tail _ (.tail _ (.tail _ (.head _)))) (by simp), onlyChanges_latched _ _ _ _⟩

@[simp] theorem tsqOf_setTsq (s : State) (p : Fin 64) (x : Tsq) : tsqOf (setTsq s p x) p = x := mget_mset_same _ _ _ _

theorem tsqOf_setTsq_ne (s : State) {p q : Fin 64} (x : Tsq) (h : q ≠ p) : tsqOf (setTsq s p x) q = tsqOf s q := mget_mset_ne _ _ _ h

theorem onlyChanges_setTsq (s : State) (p : Fin 64) (x : Tsq) : OnlyChanges [.tsq] s (setTsq s p x) := by
  intro y hy
  cases y <;> first | rfl | simp at hy

theorem tsqPop_removes {ag : Agent} {p : Fin 64} (hw : Writable s ag (fportOf p)) : Answers (.tsqPop ag p) s (fun t =>
    tsqOf t p = { tsqOf s p with ents := (tsqOf s p).ents.drop 1 } ∧ (∀ q, q ≠ p → tsqOf t q = tsqOf s q) ∧
    OnlyChanges [.tsq, .pages] s t) := by
  obtain ⟨u, honly, hpage, -⟩ := pageWrite_acts (off := 0x104) (v := 0x80000000) hw rfl (by decide) (by decide)
    (by simp [writeReg, fportOf]) rfl rfl (.inl (by decide))
  have htsq : ∀ q, tsqOf u q = tsqOf s q := fun q => by rw [tsqOf, tsqOf, honly.1 .tsq (by decide)]
  have hafter : afterWrite s u (fportOf p) 0x104 0x80000000 = Machine.tsqPop u p := by
    conv_rhs => rw [← port_index p]
    rfl
  refine ⟨_, congrArg Host.Outcome.next (hpage.trans hafter), ?_, fun q hq => ?_,
    onlyChanges_mono (onlyChanges_trans honly.1 (onlyChanges_setTsq u p _)) (by decide)⟩
  · rw [Machine.tsqPop, tsqOf_setTsq, htsq]
  · rw [Machine.tsqPop, tsqOf_setTsq_ne _ _ hq, htsq]

end

/-! ## PTP messages (R407, R408) -/

section
variable {s : State} {p : Fin 64} {m : PtpMsg}

theorem ptpSyncRx_notes (hfor : ptpFor s p m = true) (hport : s.ptp.port = some p) (ofs : Fin 128000) : exec (.ptpSyncRx p m ofs) s =
    .next { s with ptp := { s.ptp with t1 := if m.twoStep then none else some m.ns, t2 := some (s.sf * 128000 + ofs.val),
                                       twoStep := m.twoStep, syncSeq := m.seq } } := by
  change execPtpSyncRx p m ofs s = _
  exact congrArg Host.Outcome.next (if_neg (by simp [hfor, hport]))

theorem ptpFollowUpRx_notes (hfor : ptpFor s p m = true) (hport : s.ptp.port = some p) (htwo : s.ptp.twoStep = true)
    (hseq : m.seq = s.ptp.syncSeq) : exec (.ptpFollowUpRx p m) s =
      .next { s with ptp := { s.ptp with t1 := some m.ns, twoStep := false } } := by
  change execPtpFollowUpRx p m s = _
  simp [execPtpFollowUpRx, hfor, hport, htwo, hseq, setPtp]

/-- R408: the mapping after the servo's run of an exchange. -/
def servoRun (s : State) (m : PtpMsg) : Ptp :=
  { s.ptp with t4 := some m.ns, t3 := none, runs := s.ptp.runs + 1, s := Config.ptpTime (s.ptp.runs + 1) / 1000000000
               ns := Config.ptpTime (s.ptp.runs + 1) % 1000000000, sf := s.sf, rate := Config.ptpRate (s.ptp.runs + 1)
               valid := Config.ptpLocks (s.ptp.runs + 1) }

theorem exec_ptpDelayRespRx (hfor : ptpFor s p m = true) (hport : s.ptp.port = some p) (hseq : m.seq = s.ptp.reqSeq)
    (h3 : s.ptp.t3.isSome = true) (h1 : s.ptp.t1.isSome = true) (h2 : s.ptp.t2.isSome = true) : exec (.ptpDelayRespRx p m) s =
      .next (if s.ptp.valid = true ∧ Config.ptpLocks (s.ptp.runs + 1) = false then raise (setPtp s (servoRun s m)) .time 0x1F03 0
        else setPtp s (servoRun s m)) := by
  change execPtpDelayRespRx p m s = _
  have hall : (s.ptp.t3.isNone = false ∧ s.ptp.t1.isNone = false) ∧ s.ptp.t2.isNone = false := by
    simp only [← Option.not_isSome, h1, h2, h3]
    simp
  obtain ⟨⟨h3, h1⟩, h2⟩ := hall
  simp only [execPtpDelayRespRx, hfor, hport, hseq, h3, h1, h2]
  simp [servoRun, hport]

theorem ptpDelayRespRx_runs (hfor : ptpFor s p m = true) (hport : s.ptp.port = some p) (hseq : m.seq = s.ptp.reqSeq)
    (h3 : s.ptp.t3.isSome = true) (h1 : s.ptp.t1.isSome = true) (h2 : s.ptp.t2.isSome = true) :
    Answers (.ptpDelayRespRx p m) s (fun t => t.ptp.t4 = some m.ns ∧ t.ptp.t3 = none ∧ t.ptp.sf = s.sf ∧
      t.ptp.runs = s.ptp.runs + 1 ∧ (s.ptp.valid = true → t.ptp.valid = false → (pageOf t .time).classSeen.getLsbD 1 = true)) := by
  have hexec := exec_ptpDelayRespRx hfor hport hseq h3 h1 h2
  by_cases hlost : s.ptp.valid = true ∧ Config.ptpLocks (s.ptp.runs + 1) = false
  · rw [if_pos hlost] at hexec
    have hptp : (raise (setPtp s (servoRun s m)) .time 0x1F03 0).ptp = servoRun s m := onlyChanges_raise _ _ _ _ .ptp (by decide)
    refine ⟨_, hexec, ?_⟩
    simp only [hptp]
    exact ⟨rfl, rfl, rfl, rfl, fun _ _ => seen_raise _ _ (code := 0x1F03) (by decide) 0⟩
  · rw [if_neg hlost] at hexec
    exact ⟨_, hexec, rfl, rfl, rfl, rfl, fun hvalid hlocks => absurd ⟨hvalid, hlocks⟩ hlost⟩

/-! ### The best data set (R407) -/

theorem bytesLt_self (a : Bytes) : bytesLt a a = false := by
  induction a with
  | nil => rfl
  | cons x a ih => simp [bytesLt, ih]

theorem bytesLt_asymm {a b : Bytes} (h : bytesLt a b = true) : bytesLt b a = false := by
  induction a generalizing b with
  | nil =>
    cases b with
    | nil => cases h
    | cons y b => rfl
  | cons x a ih =>
    cases b with
    | nil => cases h
    | cons y b =>
      simp only [bytesLt] at h ⊢
      by_cases hxy : x = y
      · rw [if_pos hxy] at h
        rw [if_pos hxy.symm]
        exact ih h
      · rw [if_neg hxy] at h
        rw [if_neg (Ne.symm hxy)]
        exact decide_eq_false (BitVec.not_lt.2 (BitVec.le_of_lt (of_decide_eq_true h)))

/-- The order of data sets is total: what stands before another stands before what is not below it. -/
theorem bytesLt_of_not_below {x r : Bytes} (h : bytesLt x r = true) : ∀ {b : Bytes}, bytesLt b r = false → bytesLt x b = true := by
  induction x generalizing r with
  | nil =>
    intro b hb
    cases r with
    | nil => exact absurd h (by simp [bytesLt])
    | cons c r =>
      cases b with
      | nil => exact absurd hb (by simp [bytesLt])
      | cons d b => rfl
  | cons a x ih =>
    intro b hb
    cases r with
    | nil => exact absurd h (by simp [bytesLt])
    | cons c r =>
      cases b with
      | nil => exact absurd hb (by simp [bytesLt])
      | cons d b =>
        simp only [bytesLt] at h hb ⊢
        by_cases hdc : d = c
        · subst hdc
          rw [if_pos rfl] at hb
          by_cases had : a = d
          · rw [if_pos had] at h ⊢
            exact ih h hb
          · rwa [if_neg had] at h ⊢
        · rw [if_neg hdc] at hb
          have hle : c.toNat ≤ d.toNat := BitVec.le_def.1 (BitVec.not_lt.1 (of_decide_eq_false hb))
          have hne : c.toNat ≠ d.toNat := fun h => hdc (BitVec.eq_of_toNat_eq h.symm)
          have hac : a.toNat ≤ c.toNat := by
            by_cases hac : a = c
            · rw [hac]
            · rw [if_neg hac] at h
              exact (BitVec.lt_def.1 (of_decide_eq_true h)).le
          have had : a ≠ d := fun h => by rw [h] at hac; omega
          rw [if_neg had]
          exact decide_eq_true (BitVec.lt_def.2 (by omega))

/-- R407: the better of two data sets, the lower port where they are one. -/
def betterSet (b e : Fin 64 × Bytes) : Fin 64 × Bytes := if bytesLt e.2 b.2 || (e.2 == b.2 && e.1 < b.1) then e else b

theorem betterSet_cases (b e : Fin 64 × Bytes) : (betterSet b e = b ∨ betterSet b e = e) ∧
    bytesLt b.2 (betterSet b e).2 = false ∧ bytesLt e.2 (betterSet b e).2 = false := by
  unfold betterSet
  split
  · rename_i h
    refine ⟨.inr rfl, ?_, bytesLt_self _⟩
    by_contra hlt
    rw [Bool.not_eq_false] at hlt
    rcases Bool.or_eq_true_iff.1 h with h | h
    · rw [bytesLt_asymm h] at hlt
      cases hlt
    · have heq : e.2 = b.2 := by simpa using (Bool.and_eq_true_iff.1 h).1
      rw [heq, bytesLt_self] at hlt
      cases hlt
  · rename_i h
    exact ⟨.inl rfl, bytesLt_self _, by simp only [Bool.or_eq_true, not_or, Bool.not_eq_true] at h; exact h.1⟩

/-- R407: of data sets compared one after another the least is chosen. -/
theorem foldl_betterSet (l : List (Fin 64 × Bytes)) (b : Fin 64 × Bytes) : (l.foldl betterSet b = b ∨ l.foldl betterSet b ∈ l) ∧
    bytesLt b.2 (l.foldl betterSet b).2 = false ∧ ∀ e ∈ l, bytesLt e.2 (l.foldl betterSet b).2 = false := by
  induction l generalizing b with
  | nil => exact ⟨.inl rfl, bytesLt_self _, nofun⟩
  | cons e l ih =>
    obtain ⟨hmem, hb, hall⟩ := ih (betterSet b e)
    obtain ⟨hwhich, hbb, hee⟩ := betterSet_cases b e
    have hle : ∀ x : Bytes, bytesLt x (betterSet b e).2 = false → bytesLt x (l.foldl betterSet (betterSet b e)).2 = false := fun x hx => by
      by_contra hlt
      rw [Bool.not_eq_false] at hlt
      rw [bytesLt_of_not_below hlt hb] at hx
      cases hx
    rw [List.foldl_cons]
    refine ⟨?_, hle _ hbb, fun x hx => ?_⟩
    · rcases hmem with hmem | hmem
      · rw [hmem]
        rcases hwhich with h | h
        · exact .inl h
        · exact .inr (by rw [h]; exact .head _)
      · exact .inr (.tail _ hmem)
    · rcases List.mem_cons.1 hx with rfl | hx
      · exact hle _ hee
      · exact hall x hx

theorem ptpAnnounceRx_chooses (hfor : ptpFor s p m = true) : Answers (.ptpAnnounceRx p m) s (fun t =>
    t.ptp.foreign = mset s.ptp.foreign p m.dataset ∧
    (∃ e ∈ t.ptp.foreign, t.ptp.port = some e.1 ∧ ∀ f ∈ t.ptp.foreign, bytesLt f.2 e.2 = false) ∧ OnlyChanges [.ptp] s t) := by
  let f := mset s.ptp.foreign p m.dataset
  have hexec : exec (.ptpAnnounceRx p m) s =
      .next (setPtp s { s.ptp with foreign := f, port := some (f.foldl betterSet (p, m.dataset)).1 }) := by
    change execPtpAnnounceRx p m s = _
    simp only [execPtpAnnounceRx, hfor]
    rfl
  obtain ⟨hmem, -, hall⟩ := foldl_betterSet f (p, m.dataset)
  refine ⟨_, hexec, rfl, ⟨f.foldl betterSet (p, m.dataset), ?_, rfl, hall⟩, fun x hx => ?_⟩
  · rcases hmem with hmem | hmem
    · rw [hmem]
      exact .head _
    · exact hmem
  · cases x <;> first | rfl | simp at hx

theorem ptp_ignored (hfor : ptpFor s p m = false) (ofs : Fin 128000) : exec (.ptpSyncRx p m ofs) s = .next s ∧
    exec (.ptpFollowUpRx p m) s = .next s ∧ exec (.ptpDelayRespRx p m) s = .next s ∧ exec (.ptpAnnounceRx p m) s = .next s := by
  refine ⟨?_, ?_, ?_, ?_⟩
  · change execPtpSyncRx p m ofs s = _
    simp [execPtpSyncRx, hfor]
  · change execPtpFollowUpRx p m s = _
    simp [execPtpFollowUpRx, hfor]
  · change execPtpDelayRespRx p m s = _
    simp [execPtpDelayRespRx, hfor]
  · change execPtpAnnounceRx p m s = _
    simp [execPtpAnnounceRx, hfor]

end

/-! ## Delay_Req and its time stamp (R407, R409) -/

section
variable {s : State} {p : Fin 64}

theorem ptpDelayReqTx_queues {id seq : BitVec 16} (hen : fldV s .time 0x80 8 8 = 1) (hport : fldV s (fportOf p) 0x100 0 0 = 1)
    (hwait : (egQ s p (queueOf s (quadOf p) .ptp)).waiting = [])
    (hroom : egTakes s p (queueOf s (quadOf p) .ptp) (wireSize true false 44) = true) :
    exec (.ptpDelayReqTx p id seq) s = .next (setEgQ { s with ptp := { s.ptp with reqSeq := seq.toNat, t3 := none } } p
      (queueOf s (quadOf p) .ptp) { egQ s p (queueOf s (quadOf p) .ptp) with
        pkts := (egQ s p (queueOf s (quadOf p) .ptp)).pkts ++ [⟨.ptp, .ptp id.toNat 1, wireSize true false 44, s.sf⟩] }) := by
  have hpush : ∀ (v : State), (egQ v p (queueOf v (quadOf p) .ptp)).waiting = [] →
      egTakes v p (queueOf v (quadOf p) .ptp) (wireSize true false 44) = true → egPush v p .ptp (.ptp id.toNat 1) (wireSize true false 44) =
        setEgQ v p (queueOf v (quadOf p) .ptp) { egQ v p (queueOf v (quadOf p) .ptp) with
          pkts := (egQ v p (queueOf v (quadOf p) .ptp)).pkts ++ [⟨.ptp, .ptp id.toNat 1, wireSize true false 44, v.sf⟩] } :=
    fun v hv hr => if_pos (by simp [hv, hr])
  change execPtpDelayReqTx p id seq s = _
  simp only [execPtpDelayReqTx, hen, hport]
  exact congrArg Host.Outcome.next (hpush (setPtp s { s.ptp with reqSeq := seq.toNat, t3 := none }) hwait hroom)

/-- R409: the entry that a PTP packet leaves, where the port's queue has room. -/
theorem stampTx_stamps {u : State} {id ofs : Nat} (hroom : (tsqOf u p).ents.length < 32) :
    let t := stampTx u p id ofs
    tsqOf t p = { tsqOf u p with ents := (tsqOf u p).ents ++ [⟨id, u.sf, ofs⟩] } ∧ t.ptp.t3 = some (u.sf * 128000 + ofs) ∧
    t.out = u.out ∧ t.egress = u.egress := by
  have heq : stampTx u p id ofs = setTsq (setPtp u { u.ptp with t3 := some (inst u ofs) }) p
      { tsqOf u p with ents := (tsqOf u p).ents.concat ⟨id, u.sf, ofs⟩ } := if_neg (Nat.not_le.2 hroom)
  intro t
  rw [show t = _ from heq, List.concat_eq_append]
  exact ⟨tsqOf_setTsq _ _ _, rfl, rfl, rfl⟩

/-- R409: a full queue keeps its entries, and the new one is discarded. -/
theorem stampTx_overflows {u : State} {id ofs : Nat} (hfull : 32 ≤ (tsqOf u p).ents.length) : let t := stampTx u p id ofs
    tsqOf t p = { tsqOf u p with ovf := true } ∧ (pageOf t (fportOf p)).classSeen.getLsbD 2 = true ∧ t.egress = u.egress := by
  have heq : stampTx u p id ofs = raise (setTsq (setPtp u { u.ptp with t3 := some (inst u ofs) }) p { tsqOf u p with ovf := true })
      (fportOf p) 0x2F01 0 := if_pos hfull
  have hlow := fun v => onlyChanges_raise_low v (fportOf p) (code := 0x2F01) (by decide) 0
  intro t
  rw [show t = _ from heq]
  refine ⟨?_, seen_raise _ _ (code := 0x2F01) (by decide) 0, (hlow _ .egress (by decide)).trans rfl⟩
  rw [tsqOf, hlow _ .tsq (by decide)]
  exact tsqOf_setTsq _ _ _

variable {q : Fin 32} {k : EgPkt} {l : List EgPkt} {id n : Nat}

/-- R377, R409: a PTP packet that a strict queue sends takes its stamp as it leaves. -/
theorem exec_egress_ptp (hup : (phy s p).link = 2) (hwait : ∀ r, (egQ s p r).waiting = []) (hhead : (egQ s p q).pkts = k :: l)
    (hbody : k.body = .ptp id n) (hq : q.val < 4) (hsend : sendable s p q = true) (hlow : ∀ r : Fin 32, r < q → sendable s p r = false)
    (ofs : Fin 128000) (hkeeps : (stampTx (sentHead s p q k l) p id ofs.val).egress = (sentHead s p q k l).egress) :
    exec (.egressPacketStart p ofs) s = .next (stampTx (sentHead s p q k l) p id ofs.val) := by
  have hstamped : stamped (sentHead s p q k l) p k ofs.val = stampTx (sentHead s p q k l) p id ofs.val := by rw [stamped, hbody]
  have hnone : ∀ r, (egQ (stampTx (sentHead s p q k l) p id ofs.val) p r).waiting = [] := fun r => by
    rw [egQ_congr hkeeps]
    change (egQ (setEgQ s p q _) p r).waiting = []
    by_cases hr : r = q
    · rw [hr, egQ_setEgQ]
      exact hwait q
    · rw [egQ_setEgQ_ne _ _ (fun h => hr (Prod.ext_iff.1 h).2), hwait]
  rw [exec_egress_strict hup hq hsend (fun r _ hr => hlow r hr) hhead, hstamped, admitPort_of_none_waiting hnone]

theorem egressPacketStart_stamps (ofs : Fin 128000) (hup : (phy s p).link = 2) (hwait : ∀ r, (egQ s p r).waiting = [])
    (hhead : (egQ s p q).pkts = k :: l) (hbody : k.body = .ptp id n) (hq : q.val < 4) (hsend : sendable s p q = true)
    (hlow : ∀ r : Fin 32, r < q → sendable s p r = false) :
    ((tsqOf s p).ents.length < 32 → Answers (.egressPacketStart p ofs) s (fun t =>
      tsqOf t p = { tsqOf s p with ents := (tsqOf s p).ents ++ [⟨id, s.sf, ofs.val⟩] } ∧
      t.ptp.t3 = some (s.sf * 128000 + ofs.val) ∧ t.out = s.out ++ [.fabric p k])) ∧
    (32 ≤ (tsqOf s p).ents.length → Answers (.egressPacketStart p ofs) s (fun t =>
      tsqOf t p = { tsqOf s p with ovf := true } ∧ (pageOf t (fportOf p)).classSeen.getLsbD 2 = true)) := by
  refine ⟨fun hroom => ?_, fun hfull => ?_⟩
  · obtain ⟨htsq, ht3, hout, hegress⟩ := stampTx_stamps (u := sentHead s p q k l) (id := id) (ofs := ofs.val) hroom
    exact ⟨_, exec_egress_ptp hup hwait hhead hbody hq hsend hlow ofs hegress, htsq, ht3, hout⟩
  · obtain ⟨htsq, hseen, hegress⟩ := stampTx_overflows (u := sentHead s p q k l) (id := id) (ofs := ofs.val) hfull
    exact ⟨_, exec_egress_ptp hup hwait hhead hbody hq hsend hlow ofs hegress, htsq, hseen⟩

end

/-- Settles O54: line time by the state it is in, reads by what they latch, PTP message by message. -/
theorem lineTimeAndPtp : Obligations.LineTimeAndPtp := by
  unfold Obligations.LineTimeAndPtp
  refine ⟨fun s => ⟨fun n => ltHoldTimeout_holds, ltHoldTimeout_unlocked, fun n => ltElectTimeout_masters, ltElectTimeout_joined⟩,
    fun s ag v hw => ⟨ltElectTake_notes hw, ltElectTake_refused hw, ltDomainWrite_takes v hw⟩,
    fun s ofs hup => ⟨ltNowRead_answers ofs hup, mapRead_answers hup⟩,
    fun s p e l => ⟨tsqIdRead_answers, fun ag => tsqPop_removes⟩,
    fun s p m ofs => ⟨fun hfor hport => ⟨ptpSyncRx_notes hfor hport ofs, ptpFollowUpRx_notes hfor hport, ptpDelayRespRx_runs hfor hport⟩,
      ptpAnnounceRx_chooses, fun hfor => ptp_ignored hfor ofs, rfl, rfl⟩,
    fun s p id seq => ptpDelayReqTx_queues, fun s p ofs q k l id n => egressPacketStart_stamps ofs⟩

end Sys2Proof.LineTime
end

section
/-! PROOFS. Egress, shaper refills and samples: the queue that sends, what a refill adds, and what a sample takes (R46, R376 to R381). -/
namespace Sys2Proof.Egress
open Sys2Proof Sys2Proof.Machine Sys2Proof.Laws Sys2Proof.RegisterWrites Sys2Proof.ActionWrites Sys2Proof.LightRules
  Sys2Proof.EgressRules Sys2Proof.LightSelectors

/-! ## Folds that visit each key once -/

theorem nodup_eraseDups {α : Type} [BEq α] [LawfulBEq α] (l : List α) : l.eraseDups.Nodup := by
  generalize hn : l.length = n
  induction n using Nat.strong_induction_on generalizing l with
  | _ n ih =>
    cases l with
    | nil => exact List.nodup_nil
    | cons a l =>
      rw [List.eraseDups_cons]
      refine List.nodup_cons.2 ⟨fun h => ?_, ih _ ?_ _ rfl⟩
      · simpa using List.mem_eraseDups.1 h
      · exact hn ▸ Nat.lt_succ_of_le (List.length_filter_le _ _)

/-- A fold that changes each element's own part alone changes it once, where no element repeats. -/
theorem foldl_once {σ κ β : Type} [DecidableEq κ] {f : σ → κ → σ} {I : σ → Prop} {view : σ → κ → β} {g : κ → β → β}
    (hI : ∀ s k, I s → I (f s k)) (hown : ∀ s k, I s → view (f s k) k = g k (view s k))
    (hother : ∀ s k j, j ≠ k → view (f s k) j = view s j) {l : List κ} (hl : l.Nodup) {s : σ} (hs : I s) (k : κ) :
    view (l.foldl f s) k = if k ∈ l then g k (view s k) else view s k := by
  induction l generalizing s with
  | nil => rfl
  | cons a l ih =>
    obtain ⟨ha, hl⟩ := List.nodup_cons.1 hl
    rw [List.foldl_cons, ih hl (hI s a hs)]
    by_cases hk : k = a
    · rw [hk, if_neg ha, if_pos (.head _), hown s a hs]
    · rw [hother s a k hk]
      simp only [List.mem_cons, hk, false_or]

/-! ## The packet that starts (R377) -/

section
variable {s : State} {p : Fin 64} {q : Fin 32} {k : EgPkt} {l : List EgPkt}

theorem egress_down (hdown : (phy s p).link ≠ 2) (ofs : Fin 128000) : exec (.egressPacketStart p ofs) s = .next s := by
  change execEgressPacketStart p ofs s = _
  rw [execEgressPacketStart, if_pos hdown]

theorem nextVisit_none (hnone : ∀ r, sendable s p r = false) (n : Nat) (r : Fin 32) : nextVisit s p n r = none := by
  induction n generalizing r with
  | zero => rfl
  | succ n ih => simp [nextVisit, hnone, ih]

theorem egress_idle (hup : (phy s p).link = 2) (hnone : ∀ r, sendable s p r = false) (ofs : Fin 128000) :
    exec (.egressPacketStart p ofs) s = .next s := by
  have hdwrr : ∀ n r, dwrr s p n r = none := fun n r => by
    cases n with
    | zero => rfl
    | succ n => simp [dwrr, hnone, nextVisit_none hnone]
  change execEgressPacketStart p ofs s = _
  simp only [execEgressPacketStart, hup, ne_eq, not_true, if_false, find_strict_none (fun r _ => hnone r), hdwrr]

/-- R377: the queue under visit sends while its deficit covers its head packet. -/
theorem exec_egress_weighted (hup : (phy s p).link = 2) (hhead : (egQ s p q).pkts = k :: l) (hsend : sendable s p q = true)
    (hlow : ∀ r : Fin 32, r.val < 4 → sendable s p r = false) (hq : 4 ≤ q.val) (hvisit : mget s.rr p 3 = q.val)
    (hweight : 0 < queueWeight s p q) (hdeficit : k.wire ≤ (egQ s p q).deficit) (ofs : Fin 128000) :
    exec (.egressPacketStart p ofs) s = .next (startWeighted s p q ofs.val) := by
  have hwire : headWire s p q = k.wire := by rw [headWire, hhead]; rfl
  have hcur : (⟨mget s.rr p 3 % 32, by omega⟩ : Fin 32) = q := Fin.ext (by simp only [hvisit]; omega)
  have hdwrr : ∀ n, dwrr s p (n + 1) q = some (s, q) := fun n => by
    rw [dwrr, if_pos (by simp [hq, hsend, hweight, hwire, hdeficit])]
  change execEgressPacketStart p ofs s = _
  simp only [execEgressPacketStart, hup, ne_eq, not_true, if_false, find_strict_none hlow, hcur, hdwrr 599]

theorem startWeighted_eq (hhead : (egQ s p q).pkts = k :: l) (hwait : ∀ r, (egQ s p r).waiting = []) (hbody : ∀ n m, k.body ≠ .ptp n m)
    (ofs : Nat) : startWeighted s p q ofs = emit { setEgQ (setEgQ s p q { egQ s p q with
        deficit := if l = [] then 0 else (egQ s p q).deficit - k.wire }) p q { egQ s p q with
        pkts := l
        tokens := if fldB s (fportOf p) 0x48 q.val 31 31 = 0 then (egQ s p q).tokens else (egQ s p q).tokens - 16 * (k.wire : Int)
        deficit := if l = [] then 0 else (egQ s p q).deficit - k.wire } with rr := mset s.rr p q } (.fabric p k) := by
  have hwire : headWire s p q = k.wire := by rw [headWire, hhead]; rfl
  have hdeficit : (if (egQ s p q).pkts.length ≤ 1 then 0 else (egQ s p q).deficit - headWire s p q) =
      if l = [] then 0 else (egQ s p q).deficit - k.wire := by
    rw [hhead, hwire]
    cases l with
    | nil => rfl
    | cons m l => simp
  let v : State := { setEgQ s p q { egQ s p q with deficit := if l = [] then 0 else (egQ s p q).deficit - k.wire } with
    rr := mset s.rr p q }
  have hstart : startWeighted s p q ofs = startHead v p q ofs := by
    rw [startWeighted]
    simp only [hdeficit]
    rfl
  have hown : egQ v p q = { egQ s p q with deficit := if l = [] then 0 else (egQ s p q).deficit - k.wire } := egQ_setEgQ _ _ _ _
  have hstamped : ∀ u, stamped u p k ofs = u := fun u => by
    cases hk : k.body <;> first | exact absurd hk (hbody _ _) | simp [stamped, hk]
  rw [hstart, startHead_eq (l := l) (k := k) (by rw [hown]; exact hhead), hstamped, sentHead, hown]
  refine admitPort_of_none_waiting fun r => ?_
  by_cases hr : r = q
  · rw [hr]
    exact (congrArg EgQueue.waiting (egQ_setEgQ v p q _)).trans (hwait q)
  · have hne : (p, r) ≠ (p, q) := fun h => hr (Prod.ext_iff.1 h).2
    exact (congrArg EgQueue.waiting ((egQ_setEgQ_ne v _ hne).trans (egQ_setEgQ_ne s _ hne))).trans (hwait r)

theorem egress_weighted (hup : (phy s p).link = 2) (hhead : (egQ s p q).pkts = k :: l) (hsend : sendable s p q = true)
    (hlow : ∀ r : Fin 32, r.val < 4 → r < q → sendable s p r = false) (ofs : Fin 128000) (hq : 4 ≤ q.val)
    (hwait : ∀ r, (egQ s p r).waiting = []) (hbody : ∀ n m, k.body ≠ .ptp n m) (hvisit : mget s.rr p 3 = q.val)
    (hweight : 0 < queueWeight s p q) (hdeficit : k.wire ≤ (egQ s p q).deficit) :
    Answers (.egressPacketStart p ofs) s (fun t => egQ t p q = { egQ s p q with
        pkts := l
        tokens := if fldB s (fportOf p) 0x48 q.val 31 31 = 0 then (egQ s p q).tokens else (egQ s p q).tokens - 16 * (k.wire : Int)
        deficit := if l = [] then 0 else (egQ s p q).deficit - k.wire } ∧
      t.out = s.out ++ [.fabric p k] ∧ (∀ r, r ≠ q → egQ t p r = egQ s p r) ∧ OnlyChanges [.egress, .rr, .out] s t) := by
  have hstrict : ∀ r : Fin 32, r.val < 4 → sendable s p r = false := fun r hr => hlow r hr (Fin.lt_def.2 (by omega))
  refine ⟨_, (exec_egress_weighted hup hhead hsend hstrict hq hvisit hweight hdeficit ofs).trans
    (congrArg Host.Outcome.next (startWeighted_eq hhead hwait hbody ofs.val)), egQ_setEgQ _ _ _ _, rfl, fun r hr => ?_, fun x hx => ?_⟩
  · have hne : (p, r) ≠ (p, q) := fun h => hr (Prod.ext_iff.1 h).2
    exact (egQ_setEgQ_ne _ _ hne).trans (egQ_setEgQ_ne s _ hne)
  · cases x <;> first | rfl | simp at hx

end

/-! ## Refills (R46, R378 to R380) -/

section
variable (s : State)

/-- R46: the pages after the boundary of a refill. -/
def refilled : State := { s with
  refills := s.refills + 1
  pages := s.pages.map (fun e => if refillPage e.1 then (e.1, e.2.apply ((s.refills + 1) % 2 ^ 32)) else e) }

theorem pageOf_refilled (pg : PageId) : pageOf (refilled s) pg =
    if refillPage pg then (pageOf s pg).apply ((s.refills + 1) % 2 ^ 32) else pageOf s pg := by
  have hmap : s.pages.map (fun e => if refillPage e.1 then (e.1, e.2.apply ((s.refills + 1) % 2 ^ 32)) else e) =
      s.pages.map (fun e => (e.1, if refillPage e.1 then e.2.apply ((s.refills + 1) % 2 ^ 32) else e.2)) :=
    List.map_congr_left fun e _ => by split <;> rfl
  have hget := mget?_map_keyed s.pages (fun pg p => if refillPage pg then p.apply ((s.refills + 1) % 2 ^ 32) else p) pg
  change (mget? (s.pages.map _) pg).getD Page.reset = _
  rw [hmap, hget]
  cases hpg : mget? s.pages pg with
  | some p => simp [pageOf, mget, hpg]
  | none =>
    simp only [pageOf, mget, hpg, Option.map_none, Option.getD_none]
    split <;> rfl

theorem regActive_refilled (pg : PageId) (off bank : Nat) : regActive (pageOf (refilled s) pg) pg off bank =
    if refillPage pg then regAccepted (pageOf s pg) pg off bank else regActive (pageOf s pg) pg off bank := by
  rw [pageOf_refilled]
  split
  · have hpend : ∀ p : Page, p.pend = [] → regAccepted p pg off bank = regActive p pg off bank := fun p hp => by
      simp [regAccepted, hp]
    rw [← regAccepted_apply _ ((s.refills + 1) % 2 ^ 32), hpend _ (pend_apply _ _)]
  · rfl

/-- R378: the tokens of a shaper after a refill. -/
def shaperTokens (p : Fin 64) (q : Fin 32) (e : EgQueue) : Int :=
  if fldB s (fportOf p) 0x48 q.val 31 31 = 0 then 16 * fldB s (fportOf p) 0x4C q.val 19 0
  else min (e.tokens + fldB s (fportOf p) 0x48 q.val 17 0) (16 * fldB s (fportOf p) 0x4C q.val 19 0)

theorem egQ_refillQueue (x : Fin 64 × Fin 32) : egQ (refillQueue s x) x.1 x.2 =
    { egQ s x.1 x.2 with tokens := shaperTokens s x.1 x.2 (egQ s x.1 x.2) } := by
  have hcases : refillQueue s x = if shaperTokens s x.1 x.2 (egQ s x.1 x.2) = (egQ s x.1 x.2).tokens then s
    else setEgQ s x.1 x.2 { egQ s x.1 x.2 with tokens := shaperTokens s x.1 x.2 (egQ s x.1 x.2) } := rfl
  rw [hcases]
  split
  next h => rw [h]
  next => exact egQ_setEgQ _ _ _ _

theorem egQ_refillQueue_ne {x y : Fin 64 × Fin 32} (h : y ≠ x) : egQ (refillQueue s x) y.1 y.2 = egQ s y.1 y.2 := by
  unfold refillQueue
  extract_lets e pg top tok
  split
  · rfl
  · exact egQ_setEgQ_ne s _ h

theorem onlyChanges_refillQueue (x : Fin 64 × Fin 32) : OnlyChanges [.egress] s (refillQueue s x) := by
  unfold refillQueue
  extract_lets e pg top tok
  split
  · exact onlyChanges_refl _ _
  · exact onlyChanges_setEgQ _ _ _ _

/-- R380: the tokens of a policer after a refill. -/
def policerTokens (p : Fin 64) (c : Nat) (n : Int) : Int :=
  if fldB s (.tm (quadOf p)) 0x5C c 31 31 = 0 then 16 * fldB s (.tm (quadOf p)) 0x60 c 19 0
  else min (n + fldB s (.tm (quadOf p)) 0x5C c 17 0) (16 * fldB s (.tm (quadOf p)) 0x60 c 19 0)

theorem polTokens_refillPolice (x : Fin 64 × Nat) : polTokens (refillPolice s x) x.1 x.2 =
    policerTokens s x.1 x.2 (polTokens s x.1 x.2) := by
  have hcases : refillPolice s x = if policerTokens s x.1 x.2 (polTokens s x.1 x.2) = polTokens s x.1 x.2 then s
    else { s with police := mset s.police x (policerTokens s x.1 x.2 (polTokens s x.1 x.2)) } := rfl
  rw [hcases]
  split
  next h => exact h.symm
  next => exact mget_mset_same _ _ _ _

theorem polTokens_refillPolice_ne {x y : Fin 64 × Nat} (h : y ≠ x) : polTokens (refillPolice s x) y.1 y.2 = polTokens s y.1 y.2 := by
  unfold refillPolice
  extract_lets pg top tok
  split
  · rfl
  · exact mget_mset_ne _ _ _ h

theorem onlyChanges_refillPolice (x : Fin 64 × Nat) : OnlyChanges [.police] s (refillPolice s x) := by
  unfold refillPolice
  extract_lets pg top tok
  split
  · exact onlyChanges_refl _ _
  · intro y hy
    cases y <;> first | rfl | simp at hy

end

theorem fldB_congr {s t : State} (h : t.pages = s.pages) (pg : PageId) (off bank hi lo : Nat) :
    fldB t pg off bank hi lo = fldB s pg off bank hi lo := by rw [fldB, fldB, pageOf, pageOf, h]

/-! ### Packets that wait enter -/

/-- What packets that enter their queues leave: each queue's tokens, and everything but the queues. -/
structure KeepsTokens (s t : State) : Prop where
  tokens : ∀ p q, (egQ t p q).tokens = (egQ s p q).tokens
  only : OnlyChanges [.egress] s t

theorem KeepsTokens.refl (s : State) : KeepsTokens s s := ⟨fun _ _ => rfl, onlyChanges_refl _ _⟩

theorem KeepsTokens.trans {s t u : State} (h : KeepsTokens s t) (g : KeepsTokens t u) : KeepsTokens s u :=
  ⟨fun p q => (g.tokens p q).trans (h.tokens p q), onlyChanges_mono (onlyChanges_trans h.only g.only) (by simp)⟩

theorem keepsTokens_setEgQ (s : State) {p : Fin 64} {q : Fin 32} {e : EgQueue} (h : e.tokens = (egQ s p q).tokens) :
    KeepsTokens s (setEgQ s p q e) := by
  refine ⟨fun p' q' => ?_, onlyChanges_setEgQ s p q e⟩
  by_cases hk : (p', q') = (p, q)
  · obtain ⟨rfl, rfl⟩ := Prod.ext_iff.1 hk
    rw [egQ_setEgQ, h]
  · rw [egQ_setEgQ_ne s e hk]

theorem keepsTokens_foldl {α : Type} {f : State → α → State} (hf : ∀ s a, KeepsTokens s (f s a)) (l : List α) (s : State) :
    KeepsTokens s (l.foldl f s) :=
  foldl_keeps (I := KeepsTokens s) (fun t a h => h.trans (hf t a)) l (.refl s)

theorem keepsTokens_admitQueue (p : Fin 64) (s : State) (q : Fin 32) : KeepsTokens s (admitQueue p s q) := by
  refine keepsTokens_foldl (fun t _ => ?_) _ s
  split
  next => exact .refl t
  next x l hwait =>
    dsimp only
    split
    · refine KeepsTokens.trans (keepsTokens_setEgQ t ?_) (keepsTokens_setEgQ _ ?_)
      · rfl
      · rfl
    · exact .refl t

theorem keepsTokens_admitPort (s : State) (p : Fin 64) : KeepsTokens s (admitPort s p) :=
  keepsTokens_foldl (keepsTokens_admitQueue p) _ s

/-! ### A refill -/

/-- R376: the packets that wait at any port enter as they fit. -/
def admitted (u : State) : State :=
  ((u.egress.filter (fun e => !e.2.waiting.isEmpty)).map (fun e => e.1.1)).eraseDups.foldl admitPort u

theorem mem_keys {κ α : Type} [DecidableEq κ] {m : PMap κ α} {k : κ} (h : (mget? m k).isSome = true) : k ∈ m.map (·.1) := by
  induction m with
  | nil => cases h
  | cons e m ih =>
    by_cases he : e.1 = k
    · exact he ▸ .head _
    · exact .tail _ (ih (by simpa [mget?, he] using h))

/-- R378: the shapers after a refill, on the pages of its boundary. -/
theorem shapers_refilled (s : State) : let v := (shapers s).foldl refillQueue s
    OnlyChanges [.egress] s v ∧ ∀ p q, (mget? s.egress (p, q)).isSome = true →
      egQ v p q = { egQ s p q with tokens := shaperTokens s p q (egQ s p q) } := by
  have hstep : ∀ t x, OnlyChanges [.egress] s t → OnlyChanges [.egress] s (refillQueue t x) := fun t x h =>
    onlyChanges_mono (onlyChanges_trans h (onlyChanges_refillQueue t x)) (by simp)
  refine ⟨foldl_keeps hstep _ (onlyChanges_refl _ _), fun p q hsome => ?_⟩
  have hval := foldl_once (view := fun t (x : Fin 64 × Fin 32) => egQ t x.1 x.2)
    (g := fun x e => { e with tokens := shaperTokens s x.1 x.2 e }) (I := OnlyChanges [.egress] s) hstep
    (fun t x h => by
      have hpages : t.pages = s.pages := h .pages (by decide)
      rw [egQ_refillQueue]
      simp only [shaperTokens, fldB_congr hpages])
    (fun t x y h => egQ_refillQueue_ne t h) (show (shapers s).Nodup from nodup_eraseDups _) (s := s) (onlyChanges_refl _ _) (p, q)
  rw [if_pos (show (p, q) ∈ shapers s from List.mem_eraseDups.2 (List.mem_append_left _ (mem_keys hsome)))] at hval
  exact hval

/-- R380: the policers after a refill. -/
theorem policed_refilled {s v : State} (h : OnlyChanges [.egress] s v) : let u := (policed s).foldl refillPolice v
    OnlyChanges [.police] v u ∧ ∀ p c, (mget? s.police (p, c)).isSome = true →
      polTokens u p c = policerTokens s p c (polTokens s p c) := by
  have hstep : ∀ t x, OnlyChanges [.police] v t → OnlyChanges [.police] v (refillPolice t x) := fun t x ht =>
    onlyChanges_mono (onlyChanges_trans ht (onlyChanges_refillPolice t x)) (by simp)
  refine ⟨foldl_keeps hstep _ (onlyChanges_refl _ _), fun p c hsome => ?_⟩
  have hval := foldl_once (view := fun t (x : Fin 64 × Nat) => polTokens t x.1 x.2)
    (g := fun x n => policerTokens s x.1 x.2 n) (I := OnlyChanges [.police] v) hstep
    (fun t x ht => by
      have hpages : t.pages = s.pages := (ht .pages (by decide)).trans (h .pages (by decide))
      rw [polTokens_refillPolice]
      simp only [policerTokens, fldB_congr hpages])
    (fun t x y hne => polTokens_refillPolice_ne t hne) (show (policed s).Nodup from nodup_eraseDups _) (s := v) (onlyChanges_refl _ _) (p, c)
  rw [if_pos (show (p, c) ∈ policed s from List.mem_eraseDups.2 (List.mem_append_left _ (mem_keys hsome)))] at hval
  have hpol : polTokens v p c = polTokens s p c := by
    rw [polTokens, polTokens, h .police (by decide)]
  exact hval.trans (by simp only [hpol])

theorem shaperRefill_adds (s : State) : Answers .shaperRefill s (fun t => t.refills = s.refills + 1 ∧
    (∀ pg off bank, regActive (pageOf t pg) pg off bank =
      if refillPage pg then regAccepted (pageOf s pg) pg off bank else regActive (pageOf s pg) pg off bank) ∧
    (∀ (p : Fin 64) (q : Fin 32), (mget? s.egress (p, q)).isSome = true → (egQ t p q).tokens = shaperTokens t p q (egQ s p q)) ∧
    (∀ (p : Fin 64) (c : Nat), (mget? s.police (p, c)).isSome = true → polTokens t p c = policerTokens t p c (polTokens s p c)) ∧
    OnlyChanges [.refills, .pages, .egress, .police] s t) := by
  have hrefilled : OnlyChanges [.refills, .pages] s (refilled s) := fun x hx => by
    cases x <;> first | rfl | simp at hx
  obtain ⟨hshape, hshaper⟩ := shapers_refilled (refilled s)
  obtain ⟨hpol, hpolicer⟩ := policed_refilled hshape
  let u := (policed (refilled s)).foldl refillPolice ((shapers (refilled s)).foldl refillQueue (refilled s))
  have hadmit : KeepsTokens u (admitted u) := keepsTokens_foldl keepsTokens_admitPort _ u
  have hexec : exec .shaperRefill s = .next (admitted u) := rfl
  revert hexec
  generalize admitted u = w at hadmit ⊢
  intro hexec
  have hafter : OnlyChanges [.egress, .police] (refilled s) w :=
    onlyChanges_mono (onlyChanges_trans (onlyChanges_trans hshape hpol) hadmit.only) (by decide)
  have hpages : w.pages = (refilled s).pages := hafter .pages (by decide)
  refine ⟨w, hexec, hafter .refills (by decide), fun pg off bank => ?_, fun p q hsome => ?_, fun p c hsome => ?_,
    onlyChanges_mono (onlyChanges_trans hrefilled hafter) (by decide)⟩
  · rw [pageOf, hpages]
    exact regActive_refilled s pg off bank
  · have htok : (egQ w p q).tokens = (egQ ((shapers (refilled s)).foldl refillQueue (refilled s)) p q).tokens :=
      (hadmit.tokens p q).trans (congrArg EgQueue.tokens (egQ_congr (hpol .egress (by decide)) p q))
    rw [htok, hshaper p q hsome]
    simp only [shaperTokens, fldB_congr hpages]
    rfl
  · have htok : polTokens w p c = polTokens u p c := by rw [polTokens, polTokens, hadmit.only .police (by decide)]
    rw [htok, hpolicer p c hsome]
    simp only [policerTokens, fldB_congr hpages]
    rfl

/-! ## Samples (R381, R394) -/

section
variable {s : State} {p : Fin 64}

/-- R381: a queue once it has been sampled. -/
def sampledQueue (delays : List Nat) (q : Fin 32) (e : EgQueue) : EgQueue := { e with
  depthMax := max e.depthMax (sumWire e.pkts)
  delayMax := min 0xFFFFFFFF (max e.delayMax (if e.pkts = [] then 0 else delays.getD q.val 0))
  depthAvg := ((e.depthAvg : Int) + ((sumWire e.pkts : Int) - e.depthAvg).tdiv 1024).toNat }

theorem sampleQueue_eq (delays : List Nat) (s : State) (q : Fin 32) :
    sampleQueue p delays s q = setEgQ s p q (sampledQueue delays q (egQ s p q)) := by
  simp only [sampleQueue, sampledQueue, List.isEmpty_iff]

theorem queueSample_samples (delays : List Nat) (hdue : s.refills % 2 ^ fldV s (fportOf p) 0x64 3 0 = 0) :
    Answers (.queueSample p delays) s (fun t => (∀ q, egQ t p q = sampledQueue delays q (egQ s p q)) ∧
      (∀ r q, r ≠ p → egQ t r q = egQ s r q) ∧ OnlyChanges [.egress] s t) := by
  have hexec : exec (.queueSample p delays) s = .next ((List.finRange 32).foldl (sampleQueue p delays) s) :=
    congrArg Host.Outcome.next (if_neg (by simp [hdue]))
  refine ⟨_, hexec, fun q => ?_, fun r q hr => ?_, ?_⟩
  · have hval := foldl_once (f := sampleQueue p delays) (view := fun t q => egQ t p q) (g := sampledQueue delays) (I := fun _ => True)
      (fun _ _ _ => trivial) (fun t q _ => by rw [sampleQueue_eq, egQ_setEgQ])
      (fun t q j hj => by rw [sampleQueue_eq, egQ_setEgQ_ne _ _ (fun h => hj (Prod.ext_iff.1 h).2)]) (List.nodup_finRange 32)
      (s := s) trivial q
    rwa [if_pos (List.mem_finRange q)] at hval
  · exact foldl_keeps (I := fun t => egQ t r q = egQ s r q) (fun t a h => by
      rw [sampleQueue_eq, egQ_setEgQ_ne _ _ (fun h => hr (Prod.ext_iff.1 h).1), h]) _ rfl
  · exact foldl_keeps (I := OnlyChanges [.egress] s) (fun t a h => by
      rw [sampleQueue_eq]
      exact onlyChanges_mono (onlyChanges_trans h (onlyChanges_setEgQ t _ _ _)) (by simp)) _ (onlyChanges_refl _ _)

theorem egQ_clearSamples (r : Fin 64) (q : Fin 32) : egQ (clearSamples s p) r q =
    if r = p then { egQ s r q with depthMax := 0, delayMax := 0, depthAvg := 0 } else egQ s r q := by
  have hmap : s.egress.map (fun e => if e.1.1 = p then (e.1, { e.2 with depthMax := 0, delayMax := 0, depthAvg := 0 }) else e) =
      s.egress.map (fun e => (e.1, if e.1.1 = p then { e.2 with depthMax := 0, delayMax := 0, depthAvg := 0 } else e.2)) :=
    List.map_congr_left fun e _ => by split <;> rfl
  change (mget? (s.egress.map _) (r, q)).getD _ = _
  rw [hmap, mget?_map_keyed s.egress (fun k e => if k.1 = p then { e with depthMax := 0, delayMax := 0, depthAvg := 0 } else e)]
  cases hq : mget? s.egress (r, q) with
  | some e => simp [egQ, mget, hq]
  | none =>
    simp only [egQ, mget, hq, Option.map_none, Option.getD_none]
    split <;> rfl

theorem sampleClear_clears {ag : Agent} (hw : Writable s ag (fportOf p)) : Answers (.sampleClear ag p) s (fun t =>
    (∀ q, egQ t p q = { egQ s p q with depthMax := 0, delayMax := 0, depthAvg := 0 }) ∧
    (∀ r q, r ≠ p → egQ t r q = egQ s r q) ∧ OnlyChanges [.egress, .pages] s t) := by
  have hbit : bit (rmw s (fportOf p) 0x64 0x80000000) 31 = true := by
    rw [rmw, bit, Nat.testBit_or, Bool.or_eq_true_iff]
    exact .inr (by decide)
  obtain ⟨u, honly, hpage, -⟩ := pageWrite_acts (off := 0x64) (v := rmw s (fportOf p) 0x64 0x80000000) hw rfl (by decide) (by decide)
    (by simp [writeReg, fportOf]) rfl rfl (.inl fun f hf hc => by
      obtain rfl | rfl : f = rwE 3 0 3 ∨ f = wo 31 31 := by simpa [reg] using hf
      all_goals cases hc)
  have hafter : afterWrite s u (fportOf p) 0x64 (rmw s (fportOf p) 0x64 0x80000000) = clearSamples u p := by
    conv_rhs => rw [← port_index p]
    exact if_pos hbit
  have heg : ∀ r q, egQ u r q = egQ s r q := fun r q => egQ_congr (honly.1 .egress (by decide)) r q
  refine ⟨_, congrArg Host.Outcome.next (hpage.trans hafter), fun q => ?_, fun r q hr => ?_, ?_⟩
  · rw [egQ_clearSamples, if_pos rfl, heg]
  · rw [egQ_clearSamples, if_neg hr, heg]
  · refine onlyChanges_mono (onlyChanges_trans honly.1 (show OnlyChanges [.egress] u (clearSamples u p) from fun x hx => ?_)) (by decide)
    cases x <;> first | rfl | simp at hx

end

end Sys2Proof.Egress
end

section
/-! PROOFS. Trays that are tried again, audits, the ledger group and a job dropped (R238, R264, R387, R390 to R392, R396, R472, R477), and
the settlement of O53. -/
namespace Sys2Proof.TraysAndAudits
open Sys2Proof Sys2Proof.Machine Sys2Proof.Laws Sys2Proof.RegisterWrites Sys2Proof.RaisedCodes Sys2Proof.ActionWrites
  Sys2Proof.CellTimers Sys2Proof.CommitsAndEpochs Sys2Proof.BlockDecoding Sys2Proof.PowerAndHost Sys2Proof.MgmtFunctions
  Sys2Proof.StateWriting Sys2Proof.RecordAnswers Sys2Proof.LightRules Sys2Proof.EgressRules Sys2Proof.Egress

/-! ## Trays (R387) -/

section
variable {s : State} {cell : Fin 16384} {c : BitVec 64} {via : RecVia} {r : Record}

theorem trayRetry_waits (hst : (cellOf s cell.val).st ≠ .free) : exec (.trayRetry cell) s = .next s :=
  congrArg Host.Outcome.next (if_pos hst)

theorem trayRetry_takes (hst : (cellOf s cell.val).st = .free) (hopens : s.plans.opens = []) (hnow : attempt s c = .now)
    (hheld : s.coll.held = [⟨cell.val, c, .record via r, none, true⟩]) :
    exec (.trayRetry cell) s = .next (recordCore via r { s with coll := { s.coll with held := [] } }) := by
  refine congrArg Host.Outcome.next ((if_neg (by simp [hst])).trans ?_)
  rw [armOpen_of_no_opens hopens]
  simp only [takeHeldIf, hheld, List.filter_cons, List.filter_nil, hnow, BEq.rfl, Bool.and_self, Bool.not_true, if_true,
    Bool.false_eq_true, if_false, List.foldl_cons, List.foldl_nil]
  rfl

end

/-! ## Audits (R390 to R392) -/

section
variable {s : State}

theorem onlyChanges_sendLive (s : State) : OnlyChanges [.rseq, .egress, .lineTx] s (sendLive s) := by
  unfold sendLive
  refine onlyChanges_ite _ (onlyChanges_refl _ _) (onlyChanges_mono (onlyChanges_trans (qs := [.rseq, .egress, .lineTx])
    (show OnlyChanges [.rseq] s (nextSerial s).1 from fun x hx => ?_) (onlyChanges_sendMaster _ _)) (by decide))
  cases x <;> first | rfl | simp at hx

theorem eq_of_onlyChanges_sent {t : State} (h : OnlyChanges [.rseq, .egress, .lineTx] s t) :
    t = { s with rseq := t.rseq, egress := t.egress, lineTx := t.lineTx } := by
  cases s
  cases t
  simp only [State.mk.injEq, true_and]
  have d : ∀ p : Part, decide (p ∈ [Part.rseq, .egress, .lineTx]) = false → Part.same p _ _ := fun p hp => h p (of_decide_eq_false hp)
  exact ⟨d .pending rfl, d .mode rfl, d .sf rfl, d .pages rfl, d .ctr rfl, d .out rfl, d .cpw rfl, d .i3c rfl, d .fab rfl, d .trays rfl, d
    .mem rfl, d .win rfl, d .poison rfl, d .coll rfl, d .plans rfl, d .power rfl, d .elog rfl, d .lt rfl, d .refills rfl, d .police
    rfl, d .rr rfl, d .outer rfl, d .stTx rfl, d .stTag rfl, d .tdec rfl, d .commits rfl, d .line rfl, d .ciph rfl, d .boot rfl, d
    .ptp rfl, d .tsq rfl, d .tio rfl, d .late rfl, d .light rfl, d .ledger rfl, d .therm rfl, d .pondBw rfl, d .pondCtr rfl, d
    .pondPrio rfl, d .msix rfl, d .clk rfl⟩

/-- The state in which an audit may begin: the boundary noted, and LIVE sent (R425). -/
def auditBoundary (s : State) : State := sendLive { s with ledger := { s.ledger with atSf := some s.sf } }

theorem onlyChanges_auditBoundary (s : State) :
    OnlyChanges [.rseq, .egress, .lineTx] { s with ledger := { s.ledger with atSf := some s.sf } } (auditBoundary s) :=
  onlyChanges_sendLive _

/-- R390: what an audit counts reads neither what LIVE changes nor the superframe of the last boundary. -/
theorem audit_sent (s : State) (n : Option Nat) {v : State}
    (h : OnlyChanges [.rseq, .egress, .lineTx] { s with ledger := { s.ledger with atSf := n } } v) :
    pendingCells v = pendingCells s ∧ unlimitedCells v = unlimitedCells s ∧ auditFails v = auditFails s ∧
    v.ledger.running = s.ledger.running ∧ v.sf = s.sf ∧ fldV v .ledger 0x44 0 0 = fldV s .ledger 0x44 0 0 := by
  rw [eq_of_onlyChanges_sent h]
  exact ⟨rfl, rfl, rfl, rfl, rfl, rfl⟩

theorem auditMode_of (h : s.mode = some .test ∨ s.mode = some .recovery ∨ s.mode = some .service) : auditMode s = true := by
  rcases h with h | h | h <;> rw [auditMode, h] <;> rfl

theorem auditStart_between (h : s.sf % 1024 ≠ 0) :
    exec .auditStart s = .next s := congrArg Host.Outcome.next (if_pos (by simp [auditPeriod, h]))

/-- R391: the audit itself, or its skip while the one before runs. -/
def auditBegins (v : State) : State :=
  if fldV v .ledger 0x44 0 0 = 0 then v
  else if v.ledger.running.isSome then raise v .ledger 0x0E01 0
  else { v with ledger := { v.ledger with running := some v.sf, pending := pendingCells v, unlimited := unlimitedCells v,
                                          fails := auditFails v, xfers := v.trays.xfers, ctrs := cipherCtrs v } }

theorem exec_auditStart (hmode : s.mode = some .test ∨ s.mode = some .recovery ∨ s.mode = some .service) (hdue : s.sf % 1024 = 0)
    (hnew : s.ledger.atSf ≠ some s.sf) (hon : fldV s .ledger 0x44 0 0 = 1) : let v := auditBoundary s
    exec .auditStart s = .next (if s.ledger.running.isSome then raise v .ledger 0x0E01 0
      else { v with ledger := { v.ledger with running := some s.sf, pending := pendingCells s, unlimited := unlimitedCells s,
                                              fails := auditFails s, xfers := v.trays.xfers, ctrs := cipherCtrs v } }) := by
  have hexec : exec .auditStart s = .next (auditBegins (auditBoundary s)) :=
    congrArg Host.Outcome.next (if_neg (by simp [auditMode_of hmode, auditPeriod, hdue, hnew]))
  obtain ⟨hpending, hunlimited, hfails, hrunning, hsf, hcfg⟩ := audit_sent s (some s.sf) (onlyChanges_auditBoundary s)
  refine hexec.trans (congrArg Host.Outcome.next ?_)
  rw [auditBegins, if_neg (by omega), hpending, hunlimited, hfails, hrunning, hsf]

theorem auditStart_begins (hmode : s.mode = some .test ∨ s.mode = some .recovery ∨ s.mode = some .service) (hdue : s.sf % 1024 = 0)
    (hnew : s.ledger.atSf ≠ some s.sf) (hon : fldV s .ledger 0x44 0 0 = 1) :
    (s.ledger.running = none → Answers .auditStart s (fun t => t.ledger.running = some s.sf ∧
      t.ledger.pending = pendingCells s ∧ t.ledger.unlimited = unlimitedCells s ∧ t.ledger.fails = auditFails s ∧
      t.ledger.atSf = some s.sf ∧ t.ledger.last = s.ledger.last ∧ OnlyChanges [.ledger, .rseq, .egress, .lineTx] s t)) ∧
    (s.ledger.running ≠ none → Answers .auditStart s (fun t => t.ledger = { s.ledger with atSf := some s.sf } ∧
      (pageOf t .ledger).classSeen.getLsbD 0 = true)) := by
  have hexec := exec_auditStart hmode hdue hnew hon
  have honly := onlyChanges_auditBoundary s
  have hledger : (auditBoundary s).ledger = { s.ledger with atSf := some s.sf } := honly .ledger (by decide)
  have hbefore : OnlyChanges [.ledger] s { s with ledger := { s.ledger with atSf := some s.sf } } := fun x hx => by
    cases x <;> first | rfl | simp at hx
  dsimp only at hexec
  refine ⟨fun hnone => ?_, fun hrun => ?_⟩
  · rw [hnone, if_neg (by simp)] at hexec
    refine ⟨_, hexec, rfl, rfl, rfl, rfl, (congrArg Ledger.atSf hledger :), (congrArg Ledger.last hledger :), ?_⟩
    refine onlyChanges_mono (onlyChanges_trans (onlyChanges_trans hbefore honly)
      (show OnlyChanges [.ledger] (auditBoundary s) _ from fun x hx => ?_)) (by decide)
    cases x <;> first | rfl | simp at hx
  · rw [if_pos (Option.isSome_iff_ne_none.2 hrun)] at hexec
    exact ⟨_, hexec, (onlyChanges_raise_low _ .ledger (code := 0x0E01) (by decide) 0 .ledger (by decide)).trans hledger,
      seen_raise _ _ (code := 0x0E01) (by decide) 0⟩

theorem auditDone_passes {n : Nat} (hrun : s.ledger.running = some n) (us : Fin 1001) (hok : s.ledger.fails = []) :
    Answers (.auditDone us) s (fun t => t.ledger = { s.ledger with
        running := none, last := n, us := us.val, ok := true, fails := [], passed := min 0xFFFFFF (s.ledger.passed + 1) } ∧
      OnlyChanges [.ledger, .ctr, .rseq] s t) := by
  let v : State := { s with ledger := { s.ledger with
    running := none, last := n, us := us.val, ok := true, fails := [], passed := min 0xFFFFFF (s.ledger.passed + 1) } }
  have hexec : exec (.auditDone us) s = .next { count v .ledger 0 1 with rseq := { (count v .ledger 0 1).rseq with auditRun := 0 } } := by
    change execAuditDone us s = _
    simp only [execAuditDone, hrun, hok]
    rfl
  refine ⟨_, hexec, rfl, fun x hx => ?_⟩
  cases x <;> first | rfl | simp at hx

theorem classSeen_foldl_record (l : List LgFail) (sf : Nat) (same : Bool) (i : Nat) {p : Page} (h : p.classSeen.getLsbD i = true) :
    (l.foldl (fun p g => p.record 0x3E01 (auditInfo g) sf same) p).classSeen.getLsbD i = true :=
  foldl_keeps (I := fun p : Page => p.classSeen.getLsbD i = true)
    (fun p g h => by rw [classSeen_record, BitVec.getLsbD_or, h, Bool.true_or]) l h

/-- R392: a failed audit keeps what the ledger says of it, and its code's class stands. -/
theorem auditFailed_keeps (s : State) (f : LgFail) (l : List LgFail) : (auditFailed s f l).ledger = s.ledger ∧
    (pageOf (auditFailed s f l) .ledger).classSeen.getLsbD 3 = true := by
  unfold auditFailed
  extract_lets u p v n r w
  have hcount : Raises s (count s .ledger 1 1) := raises_of_onlyChanges (onlyChanges_count _ _ _ _) (by decide) (by decide) (by decide)
  have hu : Raises s u := hcount.trans (raises_raise _ (pg := .ledger) nofun _ _)
  have hv : Raises u v := raises_setPage (pg := .ledger) nofun fun i => classSeen_foldl_record l _ _ i
  have hend : Raises u (if n ≥ fldV w .rseq 0x4C 19 16 then raise { w with rseq := { w.rseq with auditRun := 0 } } .ledger 0x3707 0
      else w) := (hv.trans (raises_rseq v _)).trans
    (((raises_rseq w _).trans (raises_raise _ (pg := .ledger) nofun _ _)).ite (.refl w))
  exact ⟨(hu.trans hend).only .ledger (by decide), hend.seen .ledger 3 (seen_raise _ .ledger (code := 0x3E01) (by decide) _)⟩

theorem auditDone_fails {n : Nat} (hrun : s.ledger.running = some n) (us : Fin 1001) {f : LgFail} {l : List LgFail}
    (hfails : s.ledger.fails = f :: l) : Answers (.auditDone us) s (fun t => t.ledger = { s.ledger with
        running := none, last := n, us := us.val, ok := false, fails := [] } ∧
      (pageOf t .ledger).classSeen.getLsbD 3 = true) := by
  let v : State := { s with ledger := { s.ledger with running := none, last := n, us := us.val, ok := false, fails := [] } }
  have hexec : exec (.auditDone us) s = .next (auditFailed (count v .ledger 0 1) f l) := by
    change execAuditDone us s = _
    simp only [execAuditDone, hrun, hfails]
    rfl
  obtain ⟨hledger, hseen⟩ := auditFailed_keeps (count v .ledger 0 1) f l
  exact ⟨_, hexec, hledger, hseen⟩

end

/-! ## The ledger group (R472, R477) -/

section
variable {s : State} {r : Fin 4} {x : Fin 64}

/-- R477: the words that a read of CTR_LO0 latches, low then high, for the six counters of the ledger group. -/
def groupLatch (s : State) (r : Fin 4) (x : Fin 64) (m : PMap Nat Word) (j : Nat) : PMap Nat Word :=
  mset (mset m (latchKey r (0x800 + 8 * j)) (BitVec.ofNat 32 (ctrLo (ctrVal s (.tile x) j)))) (latchKey r (0x800 + 8 * j + 4))
    (BitVec.ofNat 32 (ctrHi (ctrVal s (.tile x) j)))

/-- R477: both words of one counter of the group are latched. -/
def GroupLatched (s : State) (r : Fin 4) (x : Fin 64) (j : Nat) (l : PMap Nat Word) : Prop :=
  mget? l (latchKey r (0x800 + 8 * j)) = some (BitVec.ofNat 32 (ctrLo (ctrVal s (.tile x) j))) ∧
  mget? l (latchKey r (0x800 + 8 * j + 4)) = some (BitVec.ofNat 32 (ctrHi (ctrVal s (.tile x) j)))

theorem groupLatched_foldl (s : State) (r : Fin 4) (x : Fin 64) (m : PMap Nat Word) {j : Nat} (hj : j < 6) :
    GroupLatched s r x j ((List.range 6).foldl (groupLatch s r x) m) := by
  have hne : ∀ {a b : Nat}, a ≠ b → latchKey r a ≠ latchKey r b := fun h => by simpa only [latchKey, ne_eq, Nat.add_left_cancel_iff] using h
  have hown : ∀ (m : PMap Nat Word) j, GroupLatched s r x j (groupLatch s r x m j) := fun m j =>
    ⟨(mget?_mset_ne _ _ (hne (by omega))).trans (mget?_mset_same _ _ _), mget?_mset_same _ _ _⟩
  refine (foldl_settles (I := fun _ => True) (fun _ _ _ => trivial) (fun m j _ => hown m j) (fun m j k _ h => ?_) (List.range 6)
    (s := m) trivial).2 j (List.mem_range.2 hj)
  by_cases hk : k = j
  · exact hk ▸ hown m k
  · have hfar : ∀ a, a ≠ 0x800 + 8 * k → a ≠ 0x800 + 8 * k + 4 →
        mget? (groupLatch s r x m k) (latchKey r a) = mget? m (latchKey r a) := fun a h1 h2 =>
      (mget?_mset_ne _ _ (hne h2)).trans (mget?_mset_ne _ _ (hne h1))
    exact ⟨(hfar _ (by omega) (by omega)).trans h.1, (hfar _ (by omega) (by omega)).trans h.2⟩

/-- R477: the state once the ledger group has been latched. -/
def groupRead (s : State) (r : Fin 4) (x : Fin 64) : State :=
  emit (setPage s (.tile x) { pageOf s (.tile x) with latch := (List.range 6).foldl (groupLatch s r x) (pageOf s (.tile x)).latch })
    (.readAnswer (pageAddr (.tile x) + 0x800) (BitVec.ofNat 32 (ctrLo (ctrVal s (.tile x) 0))))

theorem exec_ledgerGroupRead (hup : pageUp s (.tile x) = true) (hr : r ≠ 1) :
    exec (.ledgerGroupRead r x) s = .next (groupRead s r x) := by
  have hread : exec (.ledgerGroupRead r x) s = exec (.ctrLoRead r (.tile x) 0) s := rfl
  rw [hread, exec_ctrLoRead_reads hup nofun (.inl hr), aliasBase, if_neg hr]
  rfl

theorem ledgerGroupRead_latches (hup : pageUp s (.tile x) = true) (hr : r ≠ 1) : Answers (.ledgerGroupRead r x) s (fun t =>
    t.out = s.out ++ [.readAnswer (pageAddr (.tile x) + 0x800) (BitVec.ofNat 32 (ctrLo (ctrVal s (.tile x) 0)))] ∧
    (∀ j, j < 6 → (readReg t r (.tile x) (0x804 + 8 * j) 0).2 = ctrHi (ctrVal s (.tile x) j)) ∧
    (∀ j, 0 < j → j < 6 → readCtrLo t r (.tile x) j = (t, ctrLo (ctrVal s (.tile x) j))) ∧
    OnlyChanges [.pages, .out] s t) := by
  have hlatch : (pageOf (groupRead s r x) (.tile x)).latch = (List.range 6).foldl (groupLatch s r x) (pageOf s (.tile x)).latch :=
    (congrArg Page.latch (pageOf_setPage s (.tile x) _) :)
  refine ⟨_, exec_ledgerGroupRead hup hr, rfl, fun j hj => ?_, fun j h0 hj => ?_,
    onlyChanges_trans (onlyChanges_setPage s _ _) (onlyChanges_emit _ _)⟩
  · obtain ⟨-, hhi⟩ := groupLatched_foldl s r x (pageOf s (.tile x)).latch hj
    rw [readReg_ctrHi r (pg := .tile x) (by exact hup) nofun, readCtrHi, hlatch, show 0x804 + 8 * j = 0x800 + 8 * j + 4 by omega, hhi]
    exact (BitVec.toNat_ofNat _ _).trans (Nat.mod_eq_of_lt (ctrHi_lt _))
  · obtain ⟨hlo, -⟩ := groupLatched_foldl s r x (pageOf s (.tile x)).latch hj
    have h0 : (true && decide (j = 0)) = false := by simp; omega
    have h6 : (true && decide (j < 6)) = true := by simp; omega
    simp only [readCtrLo, h0, h6, hlatch, hlo, if_true, Bool.false_eq_true, if_false]
    simp [ctrLo]

end

/-! ## A job dropped (R238, R264, R396) -/

section
variable {s : State} {ag : Agent} {job : BitVec 16}

/-- R396: whether a plan of a job is in a slot. -/
def slotUses (job : Nat) (x : Slot) : Bool := x.st != .empty && (match x.plan with | some p => p.job == job | none => false)

theorem jobDrop_word (job : BitVec 16) : fld (job.toNat + 0x80000000) 15 0 = job.toNat ∧ bit (job.toNat + 0x80000000) 31 = true ∧
    (job.toNat + 0x80000000) % 65536 = job.toNat := by
  have hlt := job.isLt
  have hbit : bit (2 ^ 31 * 1 + job.toNat) 31 = true := by
    rw [bit, Nat.testBit_two_pow_mul_add _ (by omega)]
    rfl
  refine ⟨?_, ?_, by omega⟩
  · rw [fld]
    omega
  · rwa [show job.toNat + 0x80000000 = 2 ^ 31 * 1 + job.toNat by omega]

theorem extraRefusal_jobDrop (s : State) (bank : Nat) (job : BitVec 16) : extraRefusal s .tpool 0x74 bank (job.toNat + 0x80000000) =
    if slotUses job.toNat s.plans.slot0 || slotUses job.toNat s.plans.slot1 then 0x2001 else 0 := by
  obtain ⟨hjob, hgo, -⟩ := jobDrop_word job
  simp only [extraRefusal, hjob, hgo, Bool.true_and]
  rfl

theorem images_dropped (s : State) (job : Nat) : ∀ i ∈ (releaseImages s (fun i => i.job == job)).tdec.images, i.job = job → i.old = true := by
  intro i hi hj
  obtain ⟨hmem, -⟩ := List.mem_filter.1 hi
  obtain ⟨k, -, rfl⟩ := List.mem_map.1 hmem
  by_cases hk : (k.job == job) = true
  · rw [if_pos hk]
  · rw [if_neg hk] at hj
    exact absurd (beq_iff_eq.2 hj) hk

theorem dropJob_drops (s : State) (job : Nat) : (jobOf (dropJob s job) job).tab = none ∧
    (jobOf (dropJob s job) job).epoch = (jobOf s job).epoch ∧ (∀ i ∈ (dropJob s job).tdec.images, i.job = job → i.old = true) ∧
    (∀ j, j ≠ job → jobOf (dropJob s job) j = jobOf s j) := by
  unfold dropJob
  extract_lets j u e v
  have houter : u.outer = s.outer := by
    simp only [u]
    split
    · exact onlyChanges_releaseTrays s _ .outer (by decide)
    · rfl
  have hown : jobOf v job = { Job.none with epoch := j.epoch, prev := j.prev, switchSf := j.switchSf, lost := j.lost } :=
    jobOf_setJob u job _
  refine ⟨(congrArg Job.tab hown :), (congrArg Job.epoch hown :), images_dropped v job, fun i hi => ?_⟩
  exact (jobOf_setJob_ne u _ hi).trans (by rw [jobOf, jobOf, houter])

theorem afterWrite_jobDrop {u : State} {v n : Nat} (hgo : bit v 31 = true) (hmod : v % 65536 = n) :
    afterWrite s u .tpool 0x74 v = dropJob u n := by
  have hcond : (decide (0x74 = 0x74) && bit v 31) = true := by rw [hgo]; rfl
  exact (if_pos hcond).trans (by rw [hmod])

theorem jobDrop_acts (hw : Writable s ag .tpool) {v : Nat} (hx : ∀ bank, extraRefusal s .tpool 0x74 bank v = 0) :
    ∃ u, OnlyPage .tpool s u ∧ (pageWrite s ag .tpool 0x74 v).1 = afterWrite s u .tpool 0x74 v := by
  obtain ⟨u, honly, hpage, -⟩ := pageWrite_acts (off := 0x74) (v := v) hw rfl (by decide) (by decide) rfl rfl (hx _)
    (.inl fun f hf hc => by
      obtain rfl | rfl : f = wo 15 0 ∨ f = wo 31 31 := by simpa [reg] using hf
      all_goals cases hc)
  exact ⟨u, honly, hpage⟩

theorem jobDrop_writeRefused (hw : Writable s ag .tpool) {v : Nat} (hx : ∀ bank, extraRefusal s .tpool 0x74 bank v = 0x2001) :
    (pageWrite s ag .tpool 0x74 v).1 = setPage (raise s .tpool 0x2001 (0x74 + 4096 * agentNum ag)) .tpool
      { pageOf (raise s .tpool 0x2001 (0x74 + 4096 * agentNum ag)) .tpool with cfgRefused := true } :=
  pageWrite_refusedBusy hw rfl (by decide) rfl rfl (hx _)

theorem jobDrop_drops (hw : Writable s ag .tpool) (h0 : slotUses job.toNat s.plans.slot0 = false)
    (h1 : slotUses job.toNat s.plans.slot1 = false) : Answers (.jobDrop ag job) s (fun t =>
      (jobOf t job.toNat).tab = none ∧ (jobOf t job.toNat).epoch = (jobOf s job.toNat).epoch ∧
      (∀ i ∈ t.tdec.images, i.job = job.toNat → i.old = true) ∧ (∀ j, j ≠ job.toNat → jobOf t j = jobOf s j)) := by
  obtain ⟨-, hgo, hmod⟩ := jobDrop_word job
  have hexec : exec (.jobDrop ag job) s = .next (pageWrite s ag .tpool 0x74 (job.toNat + 0x80000000)).1 := rfl
  obtain ⟨u, honly, hpage⟩ := jobDrop_acts hw (v := job.toNat + 0x80000000) fun bank => by
    rw [extraRefusal_jobDrop, h0, h1]
    rfl
  have hjob : ∀ j, jobOf u j = jobOf s j := fun j => jobOf_of_onlyChanges honly.1 (by decide) j
  obtain ⟨htab, hepoch, himages, hothers⟩ := dropJob_drops u job.toNat
  exact ⟨_, hexec.trans (congrArg Host.Outcome.next (hpage.trans (afterWrite_jobDrop hgo hmod))), htab, hepoch.trans (by rw [hjob]), himages,
    fun j hj => (hothers j hj).trans (hjob j)⟩

theorem jobDrop_refused (hw : Writable s ag .tpool)
    (hused : slotUses job.toNat s.plans.slot0 = true ∨ slotUses job.toNat s.plans.slot1 = true) :
    Answers (.jobDrop ag job) s (fun t => ∃ u, u = raise s .tpool 0x2001 (0x74 + 4096 * agentNum ag) ∧
      t = setPage u .tpool { pageOf u .tpool with cfgRefused := true }) := by
  have hexec : exec (.jobDrop ag job) s = .next (pageWrite s ag .tpool 0x74 (job.toNat + 0x80000000)).1 := rfl
  exact ⟨_, hexec.trans (congrArg Host.Outcome.next (jobDrop_writeRefused hw fun bank => by
    rw [extraRefusal_jobDrop, if_pos (Bool.or_eq_true_iff.2 hused)])), _, rfl, rfl⟩

end

/-- Settles O53: egress by the queue that sends, refills and samples by folds that visit each queue once, the rest case by case. -/
theorem egressAndTrays : Obligations.EgressAndTrays := by
  unfold Obligations.EgressAndTrays
  refine ⟨fun s p ofs => ⟨fun hdown => egress_down hdown ofs, fun hup => ⟨fun hnone => egress_idle hup hnone ofs,
      fun q k l hhead hsend hlow => ⟨fun hq => exec_egress_strict hup hq hsend hlow hhead ofs, egress_weighted hup hhead hsend hlow ofs⟩⟩⟩,
    shaperRefill_adds, fun s p delays => ⟨queueSample_samples delays, fun ag => sampleClear_clears⟩,
    fun s cell c via r => ⟨trayRetry_waits, trayRetry_takes⟩,
    fun s hmode => ⟨fun hdue hnew hon => auditStart_begins hmode hdue hnew hon, auditStart_between⟩,
    fun s us n hrun => ⟨auditDone_passes hrun us, fun f l => auditDone_fails hrun us⟩,
    fun s r x => ledgerGroupRead_latches, fun s ag job hw => ⟨jobDrop_drops hw, jobDrop_refused hw⟩⟩

end Sys2Proof.TraysAndAudits
end

section
/-! PROOFS. A rollback that leaves an undone input held (R123, R422), and the settlement of O56. Its clause on RECOVER says that of every
input still held afterwards the attempt is not undone. The rollback sorts the held inputs by the attempt that each was held under, and
then serves those that a freed cell can take, by the attempt of each packet. As the gateway holds its inputs the two are one; but the
clause is stated of every state, and where an input is held under another attempt than its packet's, the packet's attempt being undone,
serving it holds it again, under that attempt: the job is halted, so the attempt has not begun. -/
namespace Sys2Proof.HeldInputs
open Sys2Proof Sys2Proof.Machine

/-- The attempt that the rollback undoes, of step 5 of job 1, and one of another job. -/
def undoneAttempt : BitVec 64 := mkCiid 1 5 0 0
def otherAttempt : BitVec 64 := mkCiid 2 5 0 0

/-- RECOVER of job 1 from step 5, under count 1, at level 3. -/
def recoverStep : Rcv := sealRcv
  { mkind := 0x11, mver := 1, srcGw := 67, dstGw := 66, ttl := 1, level := 3, serial := 1, code := 0, ciid := mkCiid 1 5 0 1,
    subjectGw := 66, arg := 0, rsvd1 := 0, sf := 0, value := 0, matrix := 0, rsvd2 := 0, check := 0 }

/-- A reduction of step 5 in cell 3, and a plan of job 1 that holds it. -/
def stepDesc : Desc :=
  { bytes := [], digest := 0, cell := 3, timed2 := false, timed3 := false, ranks := [], peers := [], inst := none, shadow := 0xFFFF,
    sramRes := 0, pondRes := 0 }
def stepPlan : Plan := ⟨1, 66, 0, 5, 1, 0, 0, [], [⟨5, [stepDesc], 0, 0, []⟩]⟩

/-- A contribution of the attempt undone, held for cell 3 under the other attempt. -/
def strayInput : HeldInput :=
  ⟨3, otherAttempt, .contrib 0 (.win 0) (.window 0) ⟨{ Header.zero with ciid := undoneAttempt }, []⟩, none, false⟩

/-- A gateway in TEST mode that runs the plan, with cell 3 ARMED for the attempt, that input held, and the master's own copy of RECOVER
in its loop. -/
def strayHeld : State := { State.reset with
  mode := some .test
  rseq := { State.reset.rseq with loop := [.rcv recoverStep] }
  plans := { State.reset.plans with slot0 := { Slot.empty with st := .active, plan := some stepPlan } }
  coll := { State.reset.coll with
    cells := [(3, { Cell.free with st := .armed, ciid := undoneAttempt })]
    held := [strayInput] } }

/-- The state in which the gateway acts on RECOVER. -/
def strayNoted : State := noted (takeMsg strayHeld .own (.rcv recoverStep)).1 recoverStep

/-- RECOVER comes to the gateway for the first time, well formed. -/
theorem rcvDown_strayHeld : RcvDown strayHeld .own recoverStep strayNoted :=
  ⟨_, ⟨by decide +kernel, by decide +kernel, .inl rfl, rfl⟩, (if_pos rfl).symm⟩

/-- It is of a serial not seen before, at level 3, under a count that the step has not had. -/
theorem recoverStep_new : strayNoted.rseq.serial ≤ recoverStep.serial.toNat ∧ strayNoted.rseq.lastDone = [] ∧
    replayOf strayNoted (ciidJob recoverStep.ciid) (ciidStep recoverStep.ciid) ≤ ciidReplay recoverStep.ciid := by decide +kernel

/-- R123: before the rollback the attempt is undone and its job's are halted; the input is served, and held again under it. -/
theorem held_recoverStep : (takeRecover recoverStep strayNoted).coll.held.any (fun i =>
    undone strayNoted (ciidJob recoverStep.ciid) (ciidStep recoverStep.ciid) (ciidReplay recoverStep.ciid) i.ciid) = true := by
  decide +kernel

/-- R422: RECOVER from the gateway's own loop is acted on as it comes. -/
theorem exec_recoverRx_own {s u : State} {m : Rcv} (hm : m.mkind = 0x11) (h : RcvDown s .own m u) :
    exec (.recoverRx .own m) s = .next (takeRecover m u) := by
  obtain ⟨v, ⟨htake, hok, -, hv⟩, hu⟩ := h
  have hcame : arriveRcv .own m false s = (u, true) := by
    rw [hu, if_pos rfl, hv, arriveRcv, show takeMsg s .own (.rcv m) = ((takeMsg s .own (.rcv m)).1, true) from Prod.ext rfl htake]
    simp [hok, noted]
  change execRecoverRx .own m s = _
  simp [execRecoverRx, hm, hcame]

/-- R422: what O56 says of a rollback at level 3 and the held inputs. -/
theorem held_of_recoveryMessages (h : Obligations.RecoveryMessages) {s u : State} {m : Rcv} (hdown : RcvDown s .own m u)
    (hm : m.mkind = 0x11) (hserial : u.rseq.serial ≤ m.serial.toNat) (hdone : u.rseq.lastDone = []) (hlevel : m.level = 3)
    (hcount : replayOf u (ciidJob m.ciid) (ciidStep m.ciid) ≤ ciidReplay m.ciid) :
    ∀ i ∈ (takeRecover m u).coll.held, undone u (ciidJob m.ciid) (ciidStep m.ciid) (ciidReplay m.ciid) i.ciid = false := by
  unfold Obligations.RecoveryMessages at h
  obtain ⟨-, -, hforEvery, -⟩ := h
  obtain ⟨hrecover, -⟩ := hforEvery s .own m u hdown
  obtain ⟨-, -, hroll, -⟩ := hrecover hm
  obtain ⟨t, hexec, -, -, -, -, hheld, -⟩ := hroll hserial (by rw [hdone]; nofun) hlevel hcount
  have ht : takeRecover m u = t := Host.Outcome.next.inj ((exec_recoverRx_own hm hdown).symm.trans hexec)
  rwa [ht]

/-- Refutes O56: a rollback to step 5 leaves an input of that step's undone attempt held. -/
theorem not_recoveryMessages : ¬ Obligations.RecoveryMessages := by
  intro h
  obtain ⟨hserial, hdone, hcount⟩ := recoverStep_new
  obtain ⟨i, hi, hundone⟩ := List.any_eq_true.1 held_recoverStep
  rw [held_of_recoveryMessages h rcvDown_strayHeld rfl hserial hdone rfl hcount i hi] at hundone
  cases hundone

end Sys2Proof.HeldInputs
end
